-- ==== Sys2Proof/Word.lean ====
section
/-! DEFINITION. The word types of the machine. -/

namespace Sys2Proof

/-- A 64-bit register value. -/
abbrev Word := BitVec 64

/-- One byte of memory (R4). -/
abbrev Byte := BitVec 8

/-- The bytes of a memory or of a storage array, as (address, byte) pairs in the canonical
form that `Machine.storeWf` states. -/
abbrev Mem := List (Nat × Byte)

end Sys2Proof
end

