-- ==== Sys2Proof/Machine/Bits.lean ====
section
/-! DEFINITION. Bit fields, sign extension and byte order (R4), and the sparse stores that
hold every memory and array of the machine. -/

namespace Sys2Proof.Machine

/-- Bits [lo + len - 1 : lo] of a value (R4), as a number. -/
def fld {w : Nat} (v : BitVec w) (lo len : Nat) : Nat := (v.toNat >>> lo) % 2 ^ len

/-- Bits [lo + len - 1 : lo] of a number. -/
def nfld (v lo len : Nat) : Nat := (v >>> lo) % 2 ^ len

/-- `v` with bits [lo + len - 1 : lo] replaced by `x` (R4). -/
def putFld (v : Word) (lo len x : Nat) : Word :=
  let keep := v.toNat - (fld v lo len) * 2 ^ lo
  BitVec.ofNat 64 (keep + (x % 2 ^ len) * 2 ^ lo)

/-- The low `w` bits of `v` read as two's complement. -/
def sint (w v : Nat) : Int :=
  let u := v % 2 ^ w
  if 2 * u ≥ 2 ^ w then (u : Int) - (2 ^ w : Nat) else u

/-- An exact integer narrowed to `w` bits (R10: narrowing is always explicit). -/
def wrapInt (w : Nat) (i : Int) : Nat := (i % (2 ^ w : Nat)).toNat

/-- The `n` little-endian bytes of `v` (R4). -/
def bytesLE : Nat → Nat → List Byte
  | 0, _ => []
  | n + 1, v => BitVec.ofNat 8 v :: bytesLE n (v / 256)

/-- The number a little-endian byte list holds (R4). -/
def natLE : List Byte → Nat
  | [] => 0
  | b :: r => b.toNat + 256 * natLE r

/-- `n` bytes from position `o` of a list, zero past its end. -/
def sliceB (l : List Byte) (o n : Nat) : List Byte :=
  let t := (l.drop o).take n
  t ++ List.replicate (n - t.length) 0

/-- The little-endian number in `n` bytes from position `o`. -/
def natAt (l : List Byte) (o n : Nat) : Nat := natLE (sliceB l o n)

/-- Zero-padding of a byte list to `n` bytes. -/
def padTo (n : Nat) (l : List Byte) : List Byte := l ++ List.replicate (n - l.length) 0

/-- `n` rounded up to a multiple of `m`. -/
def roundUp (m n : Nat) : Nat := (n + m - 1) / m * m

/-! ### Sparse stores

A store is a list of (key, value) pairs with rising keys; an unlisted key holds the default. -/

/-- What a store holds at a key. -/
def storeGet {α : Type} (dflt : α) : List (Nat × α) → Nat → α
  | [], _ => dflt
  | (a, x) :: r, k => if a = k then x else storeGet dflt r k

/-- Writing a key. Writing the default removes the entry, so that equal contents are equal
lists. -/
def storeSet {α : Type} [DecidableEq α] (dflt : α) : List (Nat × α) → Nat → α → List (Nat × α)
  | [], k, v => if v = dflt then [] else [(k, v)]
  | (a, x) :: r, k, v =>
    if k < a then (if v = dflt then (a, x) :: r else (k, v) :: (a, x) :: r)
    else if k = a then (if v = dflt then r else (k, v) :: r)
    else (a, x) :: storeSet dflt r k v

/-- The canonical form: keys strictly rising above `lo`, no entry equal to the default. -/
def storeWfFrom {α : Type} [DecidableEq α] (dflt : α) : Option Nat → List (Nat × α) → Bool
  | _, [] => true
  | none, (a, x) :: r => decide (x ≠ dflt) && storeWfFrom dflt (some a) r
  | some b, (a, x) :: r => decide (b < a) && decide (x ≠ dflt) && storeWfFrom dflt (some a) r

/-- The canonical form of a whole store. -/
def storeWf {α : Type} [DecidableEq α] (dflt : α) (m : List (Nat × α)) : Bool :=
  storeWfFrom dflt none m

/-- `n` consecutive entries from key `k`. -/
def storeRead {α : Type} (dflt : α) (m : List (Nat × α)) (k : Nat) : Nat → List α
  | 0 => []
  | n + 1 => storeGet dflt m k :: storeRead dflt m (k + 1) n

/-- Writes consecutive entries from key `k`. -/
def storeWrite {α : Type} [DecidableEq α] (dflt : α) (m : List (Nat × α)) (k : Nat) :
    List α → List (Nat × α)
  | [] => m
  | v :: r => storeWrite dflt (storeSet dflt m k v) (k + 1) r

/-- Writes a list of (key, value) pairs, the first pair first. -/
def storePuts {α : Type} [DecidableEq α] (dflt : α) (m : List (Nat × α)) :
    List (Nat × α) → List (Nat × α)
  | [] => m
  | (k, v) :: r => storePuts dflt (storeSet dflt m k v) r

/-- A table of records by key: the entry, or the given reset record. -/
def tabGet {α : Type} (dflt : α) (m : List (Nat × α)) (k : Nat) : α := storeGet dflt m k

/-- The entry of a table at a key, if it is listed. -/
def tabFind {α : Type} : List (Nat × α) → Nat → Option α
  | [], _ => none
  | (a, x) :: r, k => if a = k then some x else tabFind r k

/-- Replaces a table entry. -/
def tabSet {α : Type} : List (Nat × α) → Nat → α → List (Nat × α)
  | [], k, v => [(k, v)]
  | (a, x) :: r, k, v =>
    if k < a then (k, v) :: (a, x) :: r
    else if k = a then (k, v) :: r
    else (a, x) :: tabSet r k v

/-- Drops a table entry. -/
def tabDel {α : Type} (m : List (Nat × α)) (k : Nat) : List (Nat × α) :=
  m.filter (fun e => e.1 != k)

/-- What memory holds at a key: an unlisted byte reads as zero (DESIGN CHOICE, log 2). -/
def memGet (m : Mem) (k : Nat) : Byte := storeGet 0 m k

/-- `n` bytes of memory from key `k`. -/
def memRead (m : Mem) (k n : Nat) : List Byte := storeRead 0 m k n

/-- Memory with bytes written from key `k`. -/
def memWrite (m : Mem) (k : Nat) (bs : List Byte) : Mem := storeWrite 0 m k bs

/-- Memory with `n` bytes from key `k` zero. -/
def memClear (m : Mem) (k n : Nat) : Mem := m.filter (fun e => !(decide (k ≤ e.1 ∧ e.1 < k + n)))

/-- The canonical form of memory. -/
def memWf (m : Mem) : Bool := storeWf 0 m

/-- Replaces element `i` of a list, if there is one. -/
def setAt {α : Type} (l : List α) (i : Nat) (v : α) : List α := l.set i v

/-- Removes element `i` of a list, if there is one. -/
def dropAt {α : Type} (l : List α) (i : Nat) : List α := l.eraseIdx i

end Sys2Proof.Machine
end

