-- ==== Sys2Proof/Syntax.lean ====
section
/-! DEFINITION. The whole syntax: one constructor per row of spec/opcode_table.json.

An encoded instruction is one head of a code line (R89) with its tail (R101): every such
constructor carries the head's guard and chain fields and the tail's fields, the operand
specifiers named as R97 names them. A device event (a row of the table that no head encodes,
such as DISPATCH) has a constructor of its own; the numbers that say which agent or queue entry
it concerns stand in an `EventArg`, which the state holds while the event acts. -/

namespace Sys2Proof

/-- The head fields that every form shares (R89). `sense` true means: issue when the
predicate is false. -/
structure Head where
  pred : BitVec 3
  sense : Bool
  chain : Bool
  deriving DecidableEq, Repr

/-- A 6-bit operand specifier as a source (R97). `lit` names a tail literal (R104), `k` a
constant-bank word whose index stands in the tail (R100), `pop` a stream operand queue (R99). -/
inductive Src where
  | q (age : BitVec 4)
  | n (reg : BitVec 5)
  | zero
  | lit
  | k
  | pop (stream : BitVec 2)
  deriving DecidableEq, Repr

/-- The named destination of a head with D = 1; `none` for D = 0 (R92). -/
abbrev Dest := Option (BitVec 5)

/-- The five tail layouts of R101, and no tail. `m` is the modifiers field; `f` is field16. -/
inductive Tail where
  | none
  | t16 (m : BitVec 4) (b a : Src)
  | i20 (imm : BitVec 20) (a : Src)
  | t32 (m : BitVec 8) (d : Dest) (c b a : Src)
  | t48l (lit : BitVec 32) (m : BitVec 4) (d : Dest) (a : Src)
  | t48x (f : BitVec 16) (m : BitVec 8) (d : Dest) (c b a : Src)
  deriving DecidableEq, Repr

/-- What the verified configuration image loads at bring-up (R9, R426): its version, the
tile map of each stack (256 entries), the repair data (retired rows as tile, layer, bank,
row), the route-class entries, the bases of the 16 launch queues as (tile, byte offset), and the memory
keys where the four lifeline controllers' pools and node areas begin (R382). -/
structure CfgImage where
  version : Nat
  tileMap : List (List (BitVec 16))
  repair : List (Nat × Nat × Nat × Nat)
  routes : List (BitVec 8)
  queues : List (Nat × Nat)
  pools : List Nat
  nodes : List Nat
  deriving DecidableEq, Repr

/-- What a device event concerns: `who` the agent (a tile, context, home, packet or
controller), `idx` an entry of its queue or another number, `val` a further number, `flag` and
`flag2` facts from outside the machine, `bytes` data from outside it, `img` the configuration
image. The docstring of an event's constructor says which it reads. -/
structure EventArg where
  who : Nat
  idx : Nat
  val : Nat
  flag : Bool
  flag2 : Bool
  bytes : List Byte
  img : CfgImage
  deriving DecidableEq, Repr

/-- One constructor per row of spec/opcode_table.json, in the table's order with the encoded
instructions first and the device events after them. -/
inductive Instr where
  /-- ADD (R145): Pushes the integer sum a + b, wrapped to the width W. -/
  | add (h : Head) (t : Tail)
  /-- SUB (R145): Pushes the integer difference a - b. -/
  | sub (h : Head) (t : Tail)
  /-- MUL (R145): Pushes the low W bits of a × b. -/
  | mul (h : Head) (t : Tail)
  /-- MULH (R145): Pushes the high W bits of the exact product a × b. -/
  | mulh (h : Head) (t : Tail)
  /-- MADD (R145): Pushes a × b + c. -/
  | madd (h : Head) (t : Tail)
  /-- DIV (R146): Pushes a / b truncated toward zero; division by zero gives the all-ones value. -/
  | div (h : Head) (t : Tail)
  /-- REM (R146): Pushes the remainder of the truncating division; b = 0 gives a. -/
  | rem (h : Head) (t : Tail)
  /-- NEG (R145): Pushes -a. -/
  | neg (h : Head) (t : Tail)
  /-- ABS (R145): Pushes |a| under .s, and a under .z. -/
  | abs (h : Head) (t : Tail)
  /-- MIN (R145): Pushes the smaller of a and b. -/
  | min (h : Head) (t : Tail)
  /-- MAX (R145): Pushes the larger of a and b. -/
  | max (h : Head) (t : Tail)
  /-- ADDS (R146): Pushes a + b, clamped to the range of the width. -/
  | adds (h : Head) (t : Tail)
  /-- SUBS (R146): Pushes a - b, clamped to the range of the width. -/
  | subs (h : Head) (t : Tail)
  /-- AND (R145): Pushes the bitwise AND of a and b. -/
  | and (h : Head) (t : Tail)
  /-- OR (R145): Pushes the bitwise OR of a and b. -/
  | or (h : Head) (t : Tail)
  /-- XOR (R145): Pushes the bitwise XOR of a and b. -/
  | xor (h : Head) (t : Tail)
  /-- ANDN (R145): Pushes a AND NOT b. -/
  | andn (h : Head) (t : Tail)
  /-- ORN (R145): Pushes a OR NOT b. -/
  | orn (h : Head) (t : Tail)
  /-- NOT (R145): Pushes NOT a. -/
  | not (h : Head) (t : Tail)
  /-- SHL (R145): Shifts a left by b mod W. -/
  | shl (h : Head) (t : Tail)
  /-- SHR (R145): Shifts a right logically by b mod W. -/
  | shr (h : Head) (t : Tail)
  /-- SAR (R145): Shifts a right arithmetically by b mod W. -/
  | sar (h : Head) (t : Tail)
  /-- ROL (R145): Rotates a left by b mod W. -/
  | rol (h : Head) (t : Tail)
  /-- ROR (R145): Rotates a right by b mod W. -/
  | ror (h : Head) (t : Tail)
  /-- CLZ (R145): Pushes the count of leading zeros of a. -/
  | clz (h : Head) (t : Tail)
  /-- CTZ (R145): Pushes the count of trailing zeros of a. -/
  | ctz (h : Head) (t : Tail)
  /-- POPC (R145): Pushes the count of one bits in a. -/
  | popc (h : Head) (t : Tail)
  /-- BREV (R145): Pushes a with its bit order reversed. -/
  | brev (h : Head) (t : Tail)
  /-- BSWAP (R145): Pushes a with its byte order reversed. -/
  | bswap (h : Head) (t : Tail)
  /-- BFX (R147): Extracts the bit field that the control word b gives. -/
  | bfx (h : Head) (t : Tail)
  /-- BFI (R147): Inserts b into the bit field of a that the control word c gives. -/
  | bfi (h : Head) (t : Tail)
  /-- EXT (R145): Extends the low (b mod 64) + 1 bits of a. -/
  | ext (h : Head) (t : Tail)
  /-- CMP (R149): Compares a with b and writes one predicate. -/
  | cmp (h : Head) (t : Tail)
  /-- TEST (R149): Tests a AND b against zero and writes one predicate. -/
  | test (h : Head) (t : Tail)
  /-- SEL (R151): Pushes a or b according to a predicate and its sense bit. -/
  | sel (h : Head) (t : Tail)
  /-- MOV (R145): Pushes a. -/
  | mov (h : Head) (t : Tail)
  /-- LDI (R152): Pushes the 32-bit literal, extended. -/
  | ldi (h : Head) (t : Tail)
  /-- LDIH (R152): Pushes the literal above a[31:0]. -/
  | ldih (h : Head) (t : Tail)
  /-- LDK (R152): Pushes the constant-bank word that a[7:0] indexes. -/
  | ldk (h : Head) (t : Tail)
  /-- LEA (R145): Pushes a + b × 2^s + c. -/
  | lea (h : Head) (t : Tail)
  /-- CRC (R148): Folds W/8 bytes of b into the running CRC-32C value a. -/
  | crc (h : Head) (t : Tail)
  /-- FNV (R148): Folds W/8 bytes of b into the FNV-1a 64 state a. -/
  | fnv (h : Head) (t : Tail)
  /-- COORD (R153): Pushes the tile or launch coordinate that the selector names. -/
  | coord (h : Head) (t : Tail)
  /-- ALIGNUP (R145): Rounds a up to a multiple of 2^b. -/
  | alignup (h : Head) (t : Tail)
  /-- ALIGNDN (R145): Rounds a down to a multiple of 2^b. -/
  | aligndn (h : Head) (t : Tail)
  /-- BOUND (R145): Clamps a into the range 0 to b - 1. -/
  | bound (h : Head) (t : Tail)
  /-- BSET (R145): Sets bit b mod W of a. -/
  | bset (h : Head) (t : Tail)
  /-- BCLR (R145): Clears bit b mod W of a. -/
  | bclr (h : Head) (t : Tail)
  /-- BTST (R149): Tests bit b mod W of a and writes one predicate. -/
  | btst (h : Head) (t : Tail)
  /-- BINV (R145): Inverts bit b mod W of a. -/
  | binv (h : Head) (t : Tail)
  /-- PERM (R145): Permutes the bytes of a under the selector b. -/
  | perm (h : Head) (t : Tail)
  /-- CLS (R145): Pushes the count of leading sign bits of a. -/
  | cls (h : Head) (t : Tail)
  /-- ABSD (R145): Pushes |a - b|. -/
  | absd (h : Head) (t : Tail)
  /-- AVG (R145): Pushes the rounded-up average of a and b. -/
  | avg (h : Head) (t : Tail)
  /-- MULW (R145): Pushes the exact double-width product a × b. -/
  | mulw (h : Head) (t : Tail)
  /-- SHLADD (R145): Pushes a × 2^(c mod 64) + b. -/
  | shladd (h : Head) (t : Tail)
  /-- FADD (R155): Pushes the FP32 sum a + b, rounded once. -/
  | fadd (h : Head) (t : Tail)
  /-- FSUB (R155): Pushes the FP32 difference a - b. -/
  | fsub (h : Head) (t : Tail)
  /-- FMUL (R155): Pushes the FP32 product a × b. -/
  | fmul (h : Head) (t : Tail)
  /-- FDIV (R155): Pushes the FP32 quotient a / b. -/
  | fdiv (h : Head) (t : Tail)
  /-- FSQRT (R155): Pushes the FP32 square root of a. -/
  | fsqrt (h : Head) (t : Tail)
  /-- FMA (R155): Pushes a × b + c with one rounding. -/
  | fma (h : Head) (t : Tail)
  /-- FMS (R155): Pushes a × b - c with one rounding. -/
  | fms (h : Head) (t : Tail)
  /-- FNMA (R155): Pushes -(a × b) + c with one rounding. -/
  | fnma (h : Head) (t : Tail)
  /-- FMIN (R156): Pushes the IEEE 754-2019 minimum of a and b. -/
  | fmin (h : Head) (t : Tail)
  /-- FMAX (R156): Pushes the IEEE 754-2019 maximum of a and b. -/
  | fmax (h : Head) (t : Tail)
  /-- FABS (R156): Pushes a with its sign bit cleared. -/
  | fabs (h : Head) (t : Tail)
  /-- FNEG (R156): Pushes a with its sign bit inverted. -/
  | fneg (h : Head) (t : Tail)
  /-- FCPYS (R156): Pushes a with the sign of b. -/
  | fcpys (h : Head) (t : Tail)
  /-- FCMP (R157): Compares two FP32 values and writes one predicate. -/
  | fcmp (h : Head) (t : Tail)
  /-- FCLASS (R158): Pushes a one-hot class mask of a. -/
  | fclass (h : Head) (t : Tail)
  /-- FRINT (R155): Rounds a to an integral FP32 value. -/
  | frint (h : Head) (t : Tail)
  /-- FCVT (R159): Rounds FP32 a into a narrower format. -/
  | fcvt (h : Head) (t : Tail)
  /-- FCVTI (R160): Converts FP32 a to an integer. -/
  | fcvti (h : Head) (t : Tail)
  /-- ICVTF (R160): Converts integer a to FP32. -/
  | icvtf (h : Head) (t : Tail)
  /-- FCVTN (R159): Rounds four FP32 elements and packs them into a narrow format. -/
  | fcvtn (h : Head) (t : Tail)
  /-- FCVTW (R159): Widens a narrow-format code exactly to FP32. -/
  | fcvtw (h : Head) (t : Tail)
  /-- FMINNUM (R156): Pushes the IEEE 754-2019 minimumNumber of a and b. -/
  | fminnum (h : Head) (t : Tail)
  /-- FMAXNUM (R156): Pushes the IEEE 754-2019 maximumNumber of a and b. -/
  | fmaxnum (h : Head) (t : Tail)
  /-- FSCALE (R161): Pushes a × 2^n, with n clamped from the integer b. -/
  | fscale (h : Head) (t : Tail)
  /-- FLOGB (R161): Pushes floor(log2 |a|) as FP32. -/
  | flogb (h : Head) (t : Tail)
  /-- FEXP2 (R202): Pushes 2^a by the table algorithm. -/
  | fexp2 (h : Head) (t : Tail)
  /-- FRCP (R202): Pushes 1/a by the table algorithm. -/
  | frcp (h : Head) (t : Tail)
  /-- FRSQ (R202): Pushes 1/sqrt(a) by the table algorithm. -/
  | frsq (h : Head) (t : Tail)
  /-- BR (R162): Transfers to an immediate target. -/
  | br (h : Head) (t : Tail)
  /-- BRZ (R162): Transfers to an immediate target when a = 0. -/
  | brz (h : Head) (t : Tail)
  /-- BRNZ (R162): Transfers to an immediate target when a is nonzero. -/
  | brnz (h : Head) (t : Tail)
  /-- JMP (R163): Transfers to the byte address a after the target checks. -/
  | jmp (h : Head) (t : Tail)
  /-- CALL (R163): Transfers to an immediate target and writes the link to %n30. -/
  | call (h : Head) (t : Tail)
  /-- CALLI (R163): Transfers to address a and writes the link to %n30. -/
  | calli (h : Head) (t : Tail)
  /-- RET (R163): Transfers to address a, or ends the activation when a = 0. -/
  | ret (h : Head) (t : Tail)
  /-- LOOP (R164): Opens a counted loop level with an immediate exit. -/
  | loop (h : Head) (t : Tail)
  /-- LOOPR (R165): Opens a counted loop level whose body is m heads long. -/
  | loopr (h : Head) (t : Tail)
  /-- LBRK (R168): Closes the innermost loop level and transfers to its exit. -/
  | lbrk (h : Head) (t : Tail)
  /-- PAND (R171): ANDs two predicates, with optional negation, into a third. -/
  | pand (h : Head) (t : Tail)
  /-- POR (R171): ORs two predicates into a third. -/
  | por (h : Head) (t : Tail)
  /-- PXOR (R171): XORs two predicates into a third. -/
  | pxor (h : Head) (t : Tail)
  /-- PNOT (R172): Writes the negation of one predicate to another. -/
  | pnot (h : Head) (t : Tail)
  /-- PSET (R172): Sets a predicate to whether a is nonzero. -/
  | pset (h : Head) (t : Tail)
  /-- PMOV (R172): Copies one predicate to another. -/
  | pmov (h : Head) (t : Tail)
  /-- TRAP (R174): Raises a TRAP with code a. -/
  | trap (h : Head) (t : Tail)
  /-- SYSCALL (R174): Raises a SYSCALL trap with code a. -/
  | syscall (h : Head) (t : Tail)
  /-- SYSRET (R176): Clears SYS and transfers to address a. -/
  | sysret (h : Head) (t : Tail)
  /-- CRD (R177): Pushes the control register that the literal indexes. -/
  | crd (h : Head) (t : Tail)
  /-- CWR (R177): Writes a control register under its access codes. -/
  | cwr (h : Head) (t : Tail)
  /-- HALT (R178): Ends the activation in system mode and posts a HALT log entry. -/
  | halt (h : Head) (t : Tail)
  /-- NOP (R179): Does nothing. -/
  | nop (h : Head) (t : Tail)
  /-- PAUSE (R179): The context issues nothing for a bounded number of pcyc. -/
  | pause (h : Head) (t : Tail)
  /-- RDCYC (R179): Pushes TILE_CYCLE. -/
  | rdcyc (h : Head) (t : Tail)
  /-- PSAVE (R173): Pushes all eight predicates as a bit mask. -/
  | psave (h : Head) (t : Tail)
  /-- PLOAD (R173): Loads %p1 to %p7 from bits of a. -/
  | pload (h : Head) (t : Tail)
  /-- BKPT (R175): Raises a BKPT trap that resumes at its own bundle. -/
  | bkpt (h : Head) (t : Tail)
  /-- VSHAPE (R192): Writes a legal value into %vshape. -/
  | vshape (h : Head) (t : Tail)
  /-- VLD (R204): Loads a strided vector register from memory. -/
  | vld (h : Head) (t : Tail)
  /-- VST (R205): Stores a vector register, row by row, as direct bytes or held effects. -/
  | vst (h : Head) (t : Tail)
  /-- VGATH (R204): Gathers elements at indexed addresses into a vector register. -/
  | vgath (h : Head) (t : Tail)
  /-- VADD (R193): Adds element-wise. -/
  | vadd (h : Head) (t : Tail)
  /-- VSUB (R193): Subtracts element-wise. -/
  | vsub (h : Head) (t : Tail)
  /-- VMUL (R193): Multiplies element-wise. -/
  | vmul (h : Head) (t : Tail)
  /-- VFMA (R193): Computes a fused multiply-add element-wise. -/
  | vfma (h : Head) (t : Tail)
  /-- VMIN (R193): Takes the element-wise minimum. -/
  | vmin (h : Head) (t : Tail)
  /-- VMAX (R193): Takes the element-wise maximum. -/
  | vmax (h : Head) (t : Tail)
  /-- VDIV (R193): Divides element-wise. -/
  | vdiv (h : Head) (t : Tail)
  /-- VCMP (R194): Writes a mask of element-wise comparisons and optionally a predicate. -/
  | vcmp (h : Head) (t : Tail)
  /-- VSEL (R195): Selects elements of VA or VB under a mask. -/
  | vsel (h : Head) (t : Tail)
  /-- VREDR (R199): Reduces each row in index order. -/
  | vredr (h : Head) (t : Tail)
  /-- VREDC (R199): Reduces each column in index order. -/
  | vredc (h : Head) (t : Tail)
  /-- VBCAST_SC (R196): Broadcasts a scalar to every element. -/
  | vbcastSc (h : Head) (t : Tail)
  /-- VBCAST_ROW (R196): Broadcasts one row of VA to every row. -/
  | vbcastRow (h : Head) (t : Tail)
  /-- VBCAST_COL (R196): Broadcasts one column of VA to every column. -/
  | vbcastCol (h : Head) (t : Tail)
  /-- VTRAN (R197): Transposes VA into VD. -/
  | vtran (h : Head) (t : Tail)
  /-- VCVT (R200): Converts each element from TYPE to DTYPE. -/
  | vcvt (h : Head) (t : Tail)
  /-- VPACK (R201): Rounds FP32 elements into a packed sub-byte format. -/
  | vpack (h : Head) (t : Tail)
  /-- VUNPK (R201): Decodes packed sub-byte elements to FP32. -/
  | vunpk (h : Head) (t : Tail)
  /-- VEXP2 (R202): Computes 2^x element-wise. -/
  | vexp2 (h : Head) (t : Tail)
  /-- VLOG2 (R202): Computes log2 x element-wise. -/
  | vlog2 (h : Head) (t : Tail)
  /-- VRCP (R202): Computes the reciprocal element-wise. -/
  | vrcp (h : Head) (t : Tail)
  /-- VRSQ (R202): Computes the reciprocal square root element-wise. -/
  | vrsq (h : Head) (t : Tail)
  /-- VWFU (R203): Updates per-row Welford state with data elements. -/
  | vwfu (h : Head) (t : Tail)
  /-- VWFM (R203): Merges a second Welford state into each row. -/
  | vwfm (h : Head) (t : Tail)
  /-- VMOVS_GET (R206): Pushes one vector element onto the scalar side. -/
  | vmovsGet (h : Head) (t : Tail)
  /-- VMOVS_PUT (R206): Writes one vector element from a scalar. -/
  | vmovsPut (h : Head) (t : Tail)
  /-- VSPOP (R207): Fills VD from a stream queue and pushes the count popped. -/
  | vspop (h : Head) (t : Tail)
  /-- TCFG (R222): Issues a command that sets a tile register's configuration word. -/
  | tcfg (h : Head) (t : Tail)
  /-- TLD (R223): Issues a command that loads a tile register through a descriptor. -/
  | tld (h : Head) (t : Tail)
  /-- TST (R225): Issues a command that stores a tile register to memory. -/
  | tst (h : Head) (t : Tail)
  /-- TZERO (R226): Issues a command that zeroes masked tile registers. -/
  | tzero (h : Head) (t : Tail)
  /-- ACLR (R226): Issues a command that clears masked accumulators and their flags. -/
  | aclr (h : Head) (t : Tail)
  /-- TDRAIN (R227): Issues a command that converts and writes accumulator rows to memory. -/
  | tdrain (h : Head) (t : Tail)
  /-- TCHK (R229): Issues a command that recomputes accumulator checksums and writes a status word. -/
  | tchk (h : Head) (t : Tail)
  /-- MMAG (R234): Issues a grouped matrix product over up to eight row groups. -/
  | mmag (h : Head) (t : Tail)
  /-- TRING (R236): Issues a command that installs a cast-off ring descriptor. -/
  | tring (h : Head) (t : Tail)
  /-- MMA_BF16_BF16 (R230): Issues a BF16·BF16 product into an accumulator. -/
  | mmaBf16Bf16 (h : Head) (t : Tail)
  /-- MMA_F16_F16 (R230): Issues an FP16·FP16 product. -/
  | mmaF16F16 (h : Head) (t : Tail)
  /-- MMA_E4M3_E4M3 (R230): Issues an E4M3·E4M3 product. -/
  | mmaE4m3E4m3 (h : Head) (t : Tail)
  /-- MMA_E4M3_E5M2 (R230): Issues an E4M3·E5M2 product. -/
  | mmaE4m3E5m2 (h : Head) (t : Tail)
  /-- MMA_E5M2_E4M3 (R230): Issues an E5M2·E4M3 product. -/
  | mmaE5m2E4m3 (h : Head) (t : Tail)
  /-- MMA_E5M2_E5M2 (R230): Issues an E5M2·E5M2 product. -/
  | mmaE5m2E5m2 (h : Head) (t : Tail)
  /-- MMA_E2M3_E2M3 (R230): Issues an E2M3·E2M3 product. -/
  | mmaE2m3E2m3 (h : Head) (t : Tail)
  /-- MMA_E2M1_E2M1 (R230): Issues an E2M1·E2M1 product. -/
  | mmaE2m1E2m1 (h : Head) (t : Tail)
  /-- MMA_E2M1_E4M3 (R230): Issues an E2M1·E4M3 product. -/
  | mmaE2m1E4m3 (h : Head) (t : Tail)
  /-- MMA_E4M3_E2M1 (R230): Issues an E4M3·E2M1 product. -/
  | mmaE4m3E2m1 (h : Head) (t : Tail)
  /-- MMA_LG6_LG6 (R230): Issues an LG6·LG6 product. -/
  | mmaLg6Lg6 (h : Head) (t : Tail)
  /-- MMA_LG6_E4M3 (R230): Issues an LG6·E4M3 product. -/
  | mmaLg6E4m3 (h : Head) (t : Tail)
  /-- MMA_E4M3_LG6 (R230): Issues an E4M3·LG6 product. -/
  | mmaE4m3Lg6 (h : Head) (t : Tail)
  /-- MMA_LG6_E2M1 (R230): Issues an LG6·E2M1 product. -/
  | mmaLg6E2m1 (h : Head) (t : Tail)
  /-- MMA_E2M1_LG6 (R230): Issues an E2M1·LG6 product. -/
  | mmaE2m1Lg6 (h : Head) (t : Tail)
  /-- MMA_INT8_INT8 (R230): Issues an INT8·INT8 product. -/
  | mmaInt8Int8 (h : Head) (t : Tail)
  /-- MMA_MXE4M3_MXE4M3 (R230): Issues an MX E4M3·MX E4M3 product. -/
  | mmaMxe4m3Mxe4m3 (h : Head) (t : Tail)
  /-- MMA_MXE2M1_MXE2M1 (R230): Issues an MX E2M1·MX E2M1 product. -/
  | mmaMxe2m1Mxe2m1 (h : Head) (t : Tail)
  /-- MMA_MXE2M3_MXE2M3 (R230): Issues an MX E2M3·MX E2M3 product. -/
  | mmaMxe2m3Mxe2m3 (h : Head) (t : Tail)
  /-- MMA_MXE2M1_MXE4M3 (R230): Issues an MX E2M1·MX E4M3 product. -/
  | mmaMxe2m1Mxe4m3 (h : Head) (t : Tail)
  /-- MMA_MXE4M3_MXE2M1 (R230): Issues an MX E4M3·MX E2M1 product. -/
  | mmaMxe4m3Mxe2m1 (h : Head) (t : Tail)
  /-- MMA_MXE5M2_MXE5M2 (R230): Issues an MX E5M2·MX E5M2 product. -/
  | mmaMxe5m2Mxe5m2 (h : Head) (t : Tail)
  /-- MMA_BF16_E4M3 (R230): Issues a BF16·E4M3 product. -/
  | mmaBf16E4m3 (h : Head) (t : Tail)
  /-- MMA_BF16_LG6 (R230): Issues a BF16·LG6 product. -/
  | mmaBf16Lg6 (h : Head) (t : Tail)
  /-- LD (R262): Loads a value, forwarding held bytes, and pushes it. -/
  | ld (h : Head) (t : Tail)
  /-- ST (R263): Stores a value, directly or as a held effect. -/
  | st (h : Head) (t : Tail)
  /-- LDP (R264): Loads two consecutive values. -/
  | ldp (h : Head) (t : Tail)
  /-- STP (R264): Stores two consecutive values as one store. -/
  | stp (h : Head) (t : Tail)
  /-- LDX (R265): Loads from a physical location of the tile in system mode. -/
  | ldx (h : Head) (t : Tail)
  /-- LDX_TAG (R265): Reads the owner tag of a line. -/
  | ldxTag (h : Head) (t : Tail)
  /-- STX (R265): Stores to a physical location of the tile in system mode. -/
  | stx (h : Head) (t : Tail)
  /-- STX_TAG (R265): Writes the owner tag of a line. -/
  | stxTag (h : Head) (t : Tail)
  /-- AADD (R266): Atomically adds b and pushes the old value. -/
  | aadd (h : Head) (t : Tail)
  /-- AAND (R266): Atomically ANDs b and pushes the old value. -/
  | aand (h : Head) (t : Tail)
  /-- AOR (R266): Atomically ORs b and pushes the old value. -/
  | aor (h : Head) (t : Tail)
  /-- AXOR (R266): Atomically XORs b and pushes the old value. -/
  | axor (h : Head) (t : Tail)
  /-- AMIN (R266): Atomically stores the minimum and pushes the old value. -/
  | amin (h : Head) (t : Tail)
  /-- AMAX (R266): Atomically stores the maximum and pushes the old value. -/
  | amax (h : Head) (t : Tail)
  /-- ASWAP (R266): Atomically swaps in b and pushes the old value. -/
  | aswap (h : Head) (t : Tail)
  /-- ACAS (R266): Atomically compares and swaps, pushing the old value. -/
  | acas (h : Head) (t : Tail)
  /-- ACT (R268): Activates the own-vault row that holds the address, as a timing hint. -/
  | act (h : Head) (t : Tail)
  /-- RLD (R271): Requests a remote word read. -/
  | rld (h : Head) (t : Tail)
  /-- RST (R271): Requests a remote word write. -/
  | rst (h : Head) (t : Tail)
  /-- RRED (R271): Requests an element-wise remote reduction. -/
  | rred (h : Head) (t : Tail)
  /-- RRED_RK (R273): Contributes one rank to a ranked remote reduction. -/
  | rredRk (h : Head) (t : Tail)
  /-- RCAS (R271): Requests a remote compare-and-swap. -/
  | rcas (h : Head) (t : Tail)
  /-- RSAX (R271): Requests a remote scaled add. -/
  | rsax (h : Head) (t : Tail)
  /-- FENCE (R279): Releases held effects and waits for their acknowledgement in the scope. -/
  | fence (h : Head) (t : Tail)
  /-- FENCE_XP (R280): Acts as FENCE and also waits for covered stores to drain to their arrays. -/
  | fenceXp (h : Head) (t : Tail)
  /-- CSWAP (R281): Asks the own cable engine to exchange pages or bring one near. -/
  | cswap (h : Head) (t : Tail)
  /-- GSET (R282): Sets guard bits over a granule range. -/
  | gset (h : Head) (t : Tail)
  /-- GCLR (R282): Clears guard bits over a granule range. -/
  | gclr (h : Head) (t : Tail)
  /-- RFILL (R271): Requests a remote sector fill with a pattern. -/
  | rfill (h : Head) (t : Tail)
  /-- RLDB (R271): Requests a remote block copy into local scratchpad. -/
  | rldb (h : Head) (t : Tail)
  /-- SEND (R316): Copies a payload and sends it as a message of a class. -/
  | send (h : Head) (t : Tail)
  /-- YIELD (R317): Ends the activation and posts a continuation at a register target. -/
  | yield (h : Head) (t : Tail)
  /-- YIELD_IMM (R317): Ends the activation and posts a continuation at an immediate target. -/
  | yieldImm (h : Head) (t : Tail)
  /-- CMASK (R318): Sets bits of the launch's class mask and pushes the old mask. -/
  | cmask (h : Head) (t : Tail)
  /-- CUNMASK (R318): Clears bits of the class mask and pushes the old mask. -/
  | cunmask (h : Head) (t : Tail)
  /-- FORK (R319): Builds a task record for the own tile's deque. -/
  | fork (h : Head) (t : Tail)
  /-- JOIN (R320): Waits until a join counter reaches zero and pushes it. -/
  | join (h : Head) (t : Tail)
  /-- POST (R321): Sends a job card as a task record to a target tile. -/
  | post (h : Head) (t : Tail)
  /-- DECZ (R322): Decrements a codelet's dependence counter at its home. -/
  | decz (h : Head) (t : Tail)
  /-- RNGPUT (R323): Sends a record to a byte ring. -/
  | rngput (h : Head) (t : Tail)
  /-- RNGGET (R324): Takes the next record from a ring and pushes its header. -/
  | rngget (h : Head) (t : Tail)
  /-- OSUB (R344): Submits a command to an outrider queue. -/
  | osub (h : Head) (t : Tail)
  /-- SRSET (R346): Loads a stream record from a descriptor. -/
  | srset (h : Head) (t : Tail)
  /-- SRCTL_QUERY (R347): Pushes the status of a stream record. -/
  | srctlQuery (h : Head) (t : Tail)
  /-- SRCTL_STOP (R347): Pushes the status and makes the stream record idle. -/
  | srctlStop (h : Head) (t : Tail)
  /-- SRCTL_REWIND (R347): Pushes the status and restarts the stream at element 0. -/
  | srctlRewind (h : Head) (t : Tail)
  /-- TBINIT (R401): Sends an initialisation to a transaction barrier. -/
  | tbinit (h : Head) (t : Tail)
  /-- TBARR (R401): Sends one or n arrivals to a barrier. -/
  | tbarr (h : Head) (t : Tail)
  /-- TBEXP (R401): Announces expected sectors at a barrier. -/
  | tbexp (h : Head) (t : Tail)
  /-- TBWAIT (R402): Waits until the barrier phase differs from the recorded one. -/
  | tbwait (h : Head) (t : Tail)
  /-- TBWAIT_B (R402): Waits until bit 0 of the barrier phase differs. -/
  | tbwaitB (h : Head) (t : Tail)
  /-- TBTEST (R402): Pushes the barrier status and optionally sets a predicate. -/
  | tbtest (h : Head) (t : Tail)
  /-- LFIND (R387): Sends a longest-prefix lookup to the lifeline tree. -/
  | lfind (h : Head) (t : Tail)
  /-- LPUT (R388): Sends a snapshot deposit to the lifeline tree. -/
  | lput (h : Head) (t : Tail)
  /-- LREL (R389): Sends a pin release to the lifeline tree. -/
  | lrel (h : Head) (t : Tail)
  /-- LSTAT_READ (R390): Requests the summed lifeline statistics. -/
  | lstatRead (h : Head) (t : Tail)
  /-- LSTAT_CONFIG (R390): Requests creation of a tree on all controllers. -/
  | lstatConfig (h : Head) (t : Tail)
  /-- LSTAT_CLOSE (R390): Requests closing a tree and evicting its nodes. -/
  | lstatClose (h : Head) (t : Tail)
  /-- LAUNCH (R325): Copies a launch record image for a device launch queue. -/
  | launch (h : Head) (t : Tail)
  /-- ILLEGAL_OPCODE (R110): A head whose opcode is one of the 32 reserved values issues and faults precisely with ILLEGAL_OPCODE, whatever its TLEN and tail. -/
  | illegalOpcode (h : Head) (opc : BitVec 8) (tlen : BitVec 2) (d : Bool) (raw : BitVec 48)
  /-- PAUSE_EXPIRE (R179): The pause count runs out and the context issues again. Reads who = ctx. -/
  | pauseExpire
  /-- DISPATCH (R54): The tile scheduler starts an activation from the chosen ready trigger on a FREE context or span pair. Reads who = tile, idx = slot. -/
  | dispatch
  /-- STAGE_WAIT_EXPIRE (R56): Dispatch of a hinted record proceeds after 2 µs of staging. Reads who = tile. -/
  | stageWaitExpire
  /-- STEAL_REQUEST (R51): An idle tile's scheduler sends a steal request to the next victim. Reads who = tile, idx = pick. -/
  | stealRequest
  /-- STEAL_SERVE (R51): A victim searches its deques and replies with a record or empty. Reads who = tile. -/
  | stealServe
  /-- STEAL_REPLY (R51): The thief receives a stolen record or an empty reply. Reads who = tile. -/
  | stealReply
  /-- RELEASE_ACCEPT (R40): The network interface accepts a release group; a RELEASING context becomes FREE. Reads who = ctx. -/
  | releaseAccept
  /-- SPAN_HASH_COMPARE (R44): The twin's release group is hashed and compared, then forwarded or dropped. Reads who = ctx. -/
  | spanHashCompare
  /-- SPAN_TWIN_TIMEOUT (R44): The twin has not released the group within 100 µs, which counts as unequal. Reads who = ctx. -/
  | spanTwinTimeout
  /-- CONTINUATION_ENQUEUE (R303): A yielded continuation enters the continuation queue when an entry is free. Reads who = tile. -/
  | continuationEnqueue
  /-- GANG_ADMIT (R53): The scheduler reserves contexts for every gang member in one step. Reads who = launch. -/
  | gangAdmit
  /-- TASK_JOIN_SUBTRACT (R311): After a JOIN-valid task's effects are performed, its join counter is decremented. Reads who = tile. -/
  | taskJoinSubtract
  /-- STACK_GROW_SERVICE (R141): The runtime maps the guard page and the faulting bundle re-executes. Reads who = ctx. -/
  | stackGrowService
  /-- PREEMPTION (R57): The host or scheduler orders a context or launch saved. Reads who = ctx. -/
  | preemption
  /-- CONTEXT_SAVE (R412): A context is saved into its save image at its boundary or when its wait ends. Reads who = ctx. -/
  | contextSave
  /-- CONTEXT_RESTORE (R412): The scheduler restores a saved context onto a FREE context. Reads who = ctx, idx = dest. -/
  | contextRestore
  /-- CONTEXT_KILL (R404): A commanded kill ends a context and posts a kill report. Reads who = ctx. -/
  | contextKill
  /-- BLOCKING_TIMEOUT (R404): A blocking form or local atomic waits 10 ms for its reply and the context ends with TIMEOUT. Reads who = ctx. -/
  | blockingTimeout
  /-- PACKET_RESEND_TIMEOUT (R404): A data packet reaches 16 resends or 10 ms unacknowledged and is dropped with TIMEOUT. Reads who = pkt. -/
  | packetResendTimeout
  /-- STORE_PERFORM (R284): A released store is written into its home's write-merge path. Reads who = home, idx = i. -/
  | storePerform
  /-- LOCAL_ATOMIC_PERFORM (R267): The home bank or own agent performs a local atomic and replies. Reads who = home, idx = i. -/
  | localAtomicPerform
  /-- GUARD_BITS_PERFORM (R282): A released GSET or GCLR changes guard bits at each granule's home. Reads who = home, idx = i. -/
  | guardBitsPerform
  /-- WRITE_MERGE_DRAIN (R443): Performed stores drain from the write-merge path to the array in home order. Reads who = home. -/
  | writeMergeDrain
  /-- MESSAGE_ARRIVAL (R301): A message enters an arrival slot and its class queue, or is dropped for want of a handler. Reads who = home, idx = i. -/
  | messageArrival
  /-- JOIN_COUNT_ADD (R311): A FORK or POST adds 1 to its join counter at the home. Reads who = home, idx = i. -/
  | joinCountAdd
  /-- DEQUE_PUSH (R313): A task record is pushed at the head of its deque, waiting if full. Reads who = home, idx = i. -/
  | dequePush
  /-- DECZ_PERFORM (R52): The home decrements a dependence counter and pushes the codelet onto the ready ring at zero. Reads who = home, idx = i. -/
  | deczPerform
  /-- READY_RING_CONVERT (R312): The scheduler converts a ready-ring entry into a deque record. Reads who = tile. -/
  | readyRingConvert
  /-- RING_PUT_PERFORM (R306): The ring port writes a record and advances PI, or holds the put. Reads who = home, idx = i. -/
  | ringPutPerform
  /-- RING_PUT_RETRY (R307): A store to CI makes the port retry its held puts in order. Reads who = tile. -/
  | ringPutRetry
  /-- RING_PUT_ABANDON (R307): A put not written within 100 ms is abandoned with ABANDON. Reads who = tile, idx = i. -/
  | ringPutAbandon
  /-- LAUNCH_QUEUE_WRITE (R325): A LAUNCH record is written into its queue slot, VALID last, waiting for a free slot. Reads who = queue, idx = i. -/
  | launchQueueWrite
  /-- LAUNCH_WRITE_ABANDON (R325): A LAUNCH write not made within 100 ms is abandoned. Reads who = queue, idx = i. -/
  | launchWriteAbandon
  /-- LAUNCH_RECORD_TAKE (R327): The control plane takes a valid launch record, checks it, writes STATUS and admits or refuses it. Reads who = queue. -/
  | launchRecordTake
  /-- KEYED_LOOKUP_RESULT (R394): A keyed launch's lookup result is placed in the origin frame and the launch messages go out. Reads who = launch. -/
  | keyedLookupResult
  /-- LAUNCH_COMPLETE (R327): The launch's last work ends; STATUS becomes 5 or 6, DONE arrives and pins are released. Reads who = launch. -/
  | launchComplete
  /-- PACER_READ (R348): A pacer reads the next element of a stream record into its queue. Reads who = ctx, idx = stream. -/
  | pacerRead
  /-- OSUB_PERFORM (R344): The QCB port claims slots and writes a submitted command, or holds it. Reads who = home, idx = i. -/
  | osubPerform
  /-- OSUB_ABANDON (R344): A submission not written within 100 ms is abandoned. Reads who = tile, idx = i. -/
  | osubAbandon
  /-- OUTRIDER_ACCEPT (R329): The outrider takes a tagged command from a queue and advances RI. Reads who = tile, idx = queue. -/
  | outriderAccept
  /-- OUTRIDER_CMD_START (R338): An accepted command starts once the previous CRC command has ended, checking its chain. Reads who = tile, idx = i. -/
  | outriderCmdStart
  /-- COPY_TRANSFER (R336): The outrider moves walk elements, rechecking the generation every 4 KiB. Reads who = tile, idx = i. -/
  | copyTransfer
  /-- COPY_COMPLETE (R339): A command's last write is performed; CRC is checked and its arrival made. Reads who = tile, idx = i. -/
  | copyComplete
  /-- STREAM_SLOT_FILL (R340): The outrider fills a free window slot and makes one arrival. Reads who = tile, idx = i. -/
  | streamSlotFill
  /-- LIST_START (R342): A LIST command begins issuing its list packets. Reads who = tile, idx = i. -/
  | listStart
  /-- LIST_BRANCH (R342): After earlier commands complete, a BRANCH reads its word and may skip. Reads who = tile, idx = i. -/
  | listBranch
  /-- LIST_END (R342): After every command of the list completes, the LIST makes its arrival. Reads who = tile, idx = i. -/
  | listEnd
  /-- STALLED_SLOT (R332): A claimed slot untagged for 100 ms is logged. Reads who = tile, idx = queue. -/
  | stalledSlot
  /-- AGENT_RLD (R271): The home performs a remote read and replies. Reads who = home, idx = i. -/
  | agentRld
  /-- AGENT_RST (R271): The home performs a remote write and replies. Reads who = home, idx = i. -/
  | agentRst
  /-- AGENT_RRED (R274): The vault agent performs an element-wise reduction and replies. Reads who = home, idx = i. -/
  | agentRred
  /-- AGENT_RRED_RK (R273): The vault agent takes a ranked contribution into an open entry. Reads who = home, idx = i. -/
  | agentRredRk
  /-- RRED_RK_EXPIRE (R273): An entry incomplete for 100 ms is closed and its contributions rejected. Reads who = tile, idx = entry. -/
  | rredRkExpire
  /-- AGENT_RCAS (R271): The home performs a remote compare-and-swap. Reads who = home, idx = i. -/
  | agentRcas
  /-- AGENT_RSAX (R271): The vault agent performs a scaled add. Reads who = home, idx = i. -/
  | agentRsax
  /-- AGENT_RFILL (R271): The home fills sectors with a pattern. Reads who = home, idx = i. -/
  | agentRfill
  /-- AGENT_RLDB (R271): The home copies sectors back to the issuer. Reads who = home, idx = i. -/
  | agentRldb
  /-- AGENT_REMAP_RESUME (R278): An operation held for a row repair is performed once against the spare. Reads who = tile. -/
  | agentRemapResume
  /-- REPLY_ARRIVAL (R275): A reply writes L and makes the arrival, or completes the blocking bundle or traps on failure. Reads who = home, idx = i. -/
  | replyArrival
  /-- BARRIER_ARRIVAL (R398): The barrier unit performs an arrival and may complete a phase. Reads who = home, idx = i. -/
  | barrierArrival
  /-- SECTOR_COMPLETION (R398): The barrier unit subtracts completed or abandoned sectors. Reads who = home, idx = i. -/
  | sectorCompletion
  /-- TBINIT_PERFORM (R401): The home initialises the barrier, keeping PHASE. Reads who = home, idx = i. -/
  | tbinitPerform
  /-- TBEXP_PERFORM (R401): The home adds announced sectors to SECT. Reads who = home, idx = i. -/
  | tbexpPerform
  /-- MATRIX_CMD_ARRIVAL (R218): A command message enters the matrix unit queue when there is room. Reads who = home, idx = i. -/
  | matrixCmdArrival
  /-- MATRIX_CMD_TAKE (R217): The unit takes the next command, makes its arrival checks and rejects or starts it. Reads who = tile. -/
  | matrixCmdTake
  /-- MATRIX_SWAP (R240): The unit state of the holder is saved and another launch's image or the clear state loaded. Reads who = tile. -/
  | matrixSwap
  /-- TCFG_PERFORM (R222): The unit sets a TCFG word and reports. Reads who = tile. -/
  | tcfgPerform
  /-- TLD_STEP (R224): The carriage loads one row of a tile register. Reads who = tile. -/
  | tldStep
  /-- TST_STEP (R225): The carriage stores one row of a tile register. Reads who = tile. -/
  | tstStep
  /-- TZERO_PERFORM (R226): The unit zeroes masked tile registers. Reads who = tile. -/
  | tzeroPerform
  /-- ACLR_PERFORM (R226): The unit clears masked accumulators, checksums, partials and flags. Reads who = tile. -/
  | aclrPerform
  /-- TDRAIN_STEP (R228): The carriage checks, converts and writes one accumulator row. Reads who = tile. -/
  | tdrainStep
  /-- TCHK_PERFORM (R229): The unit recomputes all row checksums and writes the status word. Reads who = tile. -/
  | tchkPerform
  /-- MMA_STEP (R232): The carriage processes one block into partials and promotes as due. Reads who = tile. -/
  | mmaStep
  /-- MMAG_STEP (R235): The carriage processes one block of one group of a grouped product. Reads who = tile. -/
  | mmagStep
  /-- RING_SLOT_COPY (R233): After a free ring slot appears, the result corner is copied into it and cleared. Reads who = tile. -/
  | ringSlotCopy
  /-- TRING_INSTALL (R236): After the previous ring drains, the new ring descriptor is installed. Reads who = tile. -/
  | tringInstall
  /-- CASTOFF_TILE (R237): The cast-off engine converts and stores one filled slot and frees it. Reads who = tile. -/
  | castoffTile
  /-- CARRIAGE_STEP_RESUME (R239): After a row remap or thermal hold, the carriage repeats or resumes the step. Reads who = tile. -/
  | carriageStepResume
  /-- CABLE_SWAP_START (R281): The cable engine begins an exchange, marking both remap entries busy. Reads who = tile. -/
  | cableSwapStart
  /-- CABLE_SWAP_COMPLETE (R246): The exchange ends; entries are freed and any barrier arrival made. Reads who = tile. -/
  | cableSwapComplete
  /-- REFRESH (R247): A bank is refreshed, stalling accesses to it. Reads who = tile, idx = bank, val = the accesses to it that stall besides those waiting at the interface. -/
  | refresh
  /-- THERMAL_SAMPLE (R248): Every 10 µs the controller reads DRAM temperature and may change thermal state. Reads who = tile, idx = temp. -/
  | thermalSample
  /-- SCRUB_READ (R255): The scrubber reads a line or sector and writes back corrections. Reads who = tile, idx = addr, val = 1 a corrected error, 2 an uncorrectable one, 3 to 7 an error in the storage of a register, an accumulator, an effects buffer or a scale store that idx names, the last a corrected one. -/
  | scrubRead
  /-- ROW_REPAIR_COMPLETE (R249): The row copy and redirect finish; waiting accesses proceed and the repair is logged. Reads who = tile. -/
  | rowRepairComplete
  /-- VAULT_BUS_PARITY_ERROR (R250): A beat's parity fails; the group is retrained and the beat resent. Reads who = tile, idx = group, flag = lost. -/
  | vaultBusParityError
  /-- TILE_RETIRE (R374): The management controller maps the logical tile to a spare or marks it unmapped. Reads who = tile. -/
  | tileRetire
  /-- TLB_WALK (R371): A TLB miss walks the page tables and fills an entry. Reads who = tile, idx = asid, val = va. -/
  | tlbWalk
  /-- PACKET_INJECT (R353): A network interface injects a packet into its stop's pool when a VC and slots are free. Reads who = pkt, flag = a CRC error, val = the header bits that an error inverts. -/
  | packetInject
  /-- FLIT_ADVANCE (R353): A flit moves one stop on a round, winning link arbitration by urgency and age. Reads who = pkt, idx = flit, flag = a CRC error, val = the header bits that an error inverts. -/
  | flitAdvance
  /-- ESCAPE_ENTER (R355): A header waiting 16 pcyc (4 if urgent) enters the escape channel. Reads who = pkt. -/
  | escapeEnter
  /-- EJECT_TIMEOUT (R355): A header waiting 16 pcyc to eject is discarded and NACKed. Reads who = pkt. -/
  | ejectTimeout
  /-- ESCAPE_SLOT_RESERVE (R356): A stop refused for 8 pcyc reserves the next slot that empties. Reads who = cluster, idx = stop, flag = cw. -/
  | escapeSlotReserve
  /-- ESCAPE_ARRIVAL (R356): An escape header is accepted into the ejection buffer or discarded and NACKed. Reads who = pkt. -/
  | escapeArrival
  /-- CLOS_FORWARD (R359): A Clos switch forwards a packet by virtual cut-through, choosing the upward link by free space. Reads who = pkt, idx = flit, flag = a CRC error, val = the header bits that an error inverts. -/
  | closForward
  /-- CLOS_EVICT (R364): An urgent header waiting 4 pcyc evicts the youngest data packet and NACKs it. Reads who = pkt. -/
  | closEvict
  /-- PACKET_ARRIVAL (R362): A destination takes a data packet, holds it if early, and performs the pair in SEQ order. Reads who = pkt. -/
  | packetArrival
  /-- ACK_ARRIVAL (R361): An ACK moves on, or at its source frees the retained copy and acknowledges the effect. Reads who = i, flag = a CRC error. -/
  | ackArrival
  /-- NACK_ARRIVAL (R361): A NACK moves on, or at its source makes it resend the packet with RESENT set. Reads who = i, flag = a CRC error. -/
  | nackArrival
  /-- LIFELINE_ENTRY_REQUEST (R381): The entry controller computes h_1 and performs or forwards the request. Reads who = home, idx = i. -/
  | lifelineEntryRequest
  /-- LFIND_PERFORM (R387): The shard matches chunks, pins the path and replies. Reads who = ctl. -/
  | lfindPerform
  /-- LPUT_PERFORM (R388): The shard copies a snapshot and creates a node or reports a status. Reads who = ctl. -/
  | lputPerform
  /-- LREL_PERFORM (R389): The shard releases a pin and frees its token. Reads who = ctl. -/
  | lrelPerform
  /-- LSTAT_READ_PERFORM (R390): The controllers sum and return their statistics. Reads who = ctl. -/
  | lstatReadPerform
  /-- LSTAT_CONFIG_PERFORM (R390): A tree is created on all four controllers. Reads who = ctl. -/
  | lstatConfigPerform
  /-- LSTAT_CLOSE_PERFORM (R390): A tree's nodes are evicted and its entry cleared. Reads who = ctl. -/
  | lstatClosePerform
  /-- LIFELINE_REPLY (R385): The issuing tile writes the result at L, then makes the arrival. Reads who = home, idx = i. -/
  | lifelineReply
  /-- HDM_READ (R417): A host CXL.mem read of device memory is performed at its home. Reads who = bridge, idx = off, val = len. -/
  | hdmRead
  /-- HDM_WRITE (R417): A host CXL.mem write of device memory is performed at its home. Reads who = bridge, idx = off, bytes = bytes. -/
  | hdmWrite
  /-- PEER_INBOUND_ACCESS (R424): A peer access arrives at a Xaold port and is performed if enabled. Reads who = port, idx = off, flag = write, bytes = bytes; val = len of a read; flag2 makes a write an 8-byte atomic add. -/
  | peerInboundAccess
  /-- XAOLD_FLIT_ERROR (R424): A Xaold flit fails its CRC and is replayed; after 16 the link goes down. Reads who = port, idx = flit. -/
  | xaoldFlitError
  /-- MAILBOX_REGISTER_WRITE (R419): The host writes MB_CMD, MB_GO or the payload buffer. Reads who = off, bytes = bytes. -/
  | mailboxRegisterWrite
  /-- READ_LOG (R421): Returns and removes up to 60 error-log entries. -/
  | readLog
  /-- READ_COUNTERS (R421): Returns a tile's event and performance counters. -/
  | readCounters
  /-- SELECT_PERF (R421): Selects the events of the performance counters and restarts them. -/
  | selectPerf
  /-- SET_POWER (R427): Moves the module to a power state. -/
  | setPower
  /-- QUIESCE_COMPLETE (R427): Every pre-emption save is done and SET_POWER to QUIESCED completes. -/
  | quiesceComplete
  /-- READ_THERMAL (R421): Returns per-stack temperatures and thermal states. -/
  | readThermal
  /-- PREEMPT (R421): Pre-empts a launch by its slot. -/
  | preempt
  /-- RESUME (R421): Restores a launch that PREEMPT saved. -/
  | resume
  /-- KILL (R421): Kills a launch's contexts with cause KILLED. -/
  | kill
  /-- SET_ROUTE (R375): Changes a route-class entry, or refuses it. -/
  | setRoute
  /-- PEER_ENABLE (R424): Sets which Xaold ports take inbound accesses. -/
  | peerEnable
  /-- ATTEST (R426): Returns a signed attestation report with a fresh one-time key. -/
  | attest
  /-- INJECT (R429): Arms the error-injection word. -/
  | inject
  /-- ERROR_LOG_POST (R422): A waiting error-log entry enters the log when there is room. -/
  | errorLogPost
  /-- MODULE_RESET (R426): Reset runs the boot verification and loads the configuration. Reads flag = fwOk, flag2 = cfgOk, bytes = the firmware image, img. -/
  | moduleReset
  /-- HOBBLE_WINDOW (R428): Each 1 µs window the interlock halves one member of a contending pair. Reads who = tile, idx = quadrant, flag = matrixOlder, flag2 = tie. -/
  | hobbleWindow
  /-- COMPUTE_DIE_OVERTEMP (R428): The compute die reaches 110 °C or 125 °C and the controller logs or removes power. Reads who = stack, idx = temp. -/
  | computeDieOvertemp
  /-- BAD_OPC (R420): A write of GO to MB_GO is ignored while BUSY = 1, and otherwise, when MB_CMD holds an undefined OPC, the command completes with BAD_OPC and raises MSI-X vector 0. -/
  | badOpc
  /-- IDE_KM (R416): The host sets the link IDE keys for CXL.io, CXL.cache and CXL.mem through IDE_KM messages over DOE. Reads bytes = keys. -/
  | ideKm
  deriving DecidableEq, Repr

end Sys2Proof
end

