-- ==== Sys2Proof/Machine/Forms.lean ====
section
/-! DEFINITION. The forms of every opcode: the layouts each TLEN value has (R102) and what the
operand, destination and modifier fields may hold (R92, R97, R100, R103, R104 and each entry).
A tail that breaks a form faults with ILLEGAL_OPERAND, a TLEN with no form with ILLEGAL_OPCODE
(R109 items 1 and 2: they read the encoding alone). -/

namespace Sys2Proof.Machine

/-- The layouts a head can select by TLEN: none (0), T16 (1), T32 or I20 (2), T48-L or T48-X
(3) (R101, R102). -/
inductive LayoutK where
  | e0 | t16 | i20 | t32 | t48l | t48x
  deriving DecidableEq, Repr

/-- The layout of a tail. -/
def layoutOf : Tail → LayoutK
  | .none => .e0
  | .t16 .. => .t16
  | .i20 .. => .i20
  | .t32 .. => .t32
  | .t48l .. => .t48l
  | .t48x .. => .t48x

/-- The field code of an unused source: 0b000000 (R97). -/
def srcUnused : Src := .q 0

/-- Neither a literal nor a constant-bank operand. -/
def srcPlain : Src → Bool
  | .lit | .k => false
  | _ => true

/-- How many of the sources name the constant bank. -/
def countK (l : List Src) : Nat := (l.filter (· == .k)).length

/-- How many of the sources name a literal. -/
def countLit (l : List Src) : Nat := (l.filter (· == .lit)).length

/-- srcA of a tail; the unused code where the layout has none. -/
def tailA : Tail → Src
  | .none => srcUnused
  | .t16 _ _ a | .i20 _ a | .t32 _ _ _ _ a | .t48l _ _ _ a | .t48x _ _ _ _ _ a => a

/-- srcB of a tail. In I20 and T48-L the second source is the immediate or the literal. -/
def tailB : Tail → Src
  | .t16 _ b _ | .t32 _ _ _ b _ | .t48x _ _ _ _ b _ => b
  | .i20 .. | .t48l .. => .lit
  | .none => srcUnused

/-- srcC of a tail. -/
def tailC : Tail → Src
  | .t32 _ _ c _ _ | .t48x _ _ _ c _ _ => c
  | _ => srcUnused

/-- The destination of a tail. -/
def tailD : Tail → Dest
  | .t32 _ d _ _ _ | .t48l _ _ d _ | .t48x _ _ d _ _ _ => d
  | _ => none

/-- The modifiers of a tail. A T32 tail that names the constant bank takes them as zero,
because the byte is then the index (R100). I20 carries none (R103). -/
def tailM : Tail → Nat
  | .none | .i20 .. => 0
  | .t16 m _ _ | .t48l _ m _ _ => m.toNat
  | .t32 m _ c b a => if countK [a, b, c] = 0 then m.toNat else 0
  | .t48x _ m _ _ _ _ => m.toNat

/-- field16 of a T48-X tail. -/
def tailF : Tail → BitVec 16
  | .t48x f _ _ _ _ _ => f
  | _ => 0

/-- The 32-bit literal of a T48-L tail. -/
def tailLit : Tail → BitVec 32
  | .t48l v _ _ _ => v
  | _ => 0

/-- The operand rules of a layout (R97, R100, R104). `litX` says that field16 of T48-X is a
literal or constant-index field of the form. -/
def operandsOk (litX : Bool) : Tail → Bool
  | .none => true
  | .t16 _ b a => srcPlain a && srcPlain b
  | .i20 _ a => srcPlain a
  | .t32 _ _ c b a => countLit [a, b, c] == 0 && decide (countK [a, b, c] ≤ 1)
  | .t48l _ _ _ a => srcPlain a
  | .t48x f _ _ c b a =>
    let l := [a, b, c]
    if litX then
      if countLit l = 0 then
        match countK l with
        | 0 => f == 0
        | 1 => decide (f.toNat < 256)
        | 2 => true
        | _ => false
      else countK l == 0
    else srcPlain a && srcPlain b && srcPlain c

/-- What one row of the opcode map allows: its layouts, whether it may set D, and its own field
rules. -/
structure Form where
  opc : Nat
  lays : List LayoutK
  litX : Bool
  push : Bool
  ok : Tail → Bool

/-- Whether a form accepts a tail: a layout it has, the operand rules, D only where it is
allowed, and the form's own rules. -/
def formAccepts (F : Form) (t : Tail) : Bool :=
  F.lays.contains (layoutOf t) && operandsOk F.litX t && (F.push || tailD t == none) && F.ok t

/-- R90: PRED = 0 with SENSE = 1 faults. -/
def headOk (h : Head) : Bool := !(h.pred == 0 && h.sense)

/-! ### Field rules shared by families -/

/-- srcB unused. -/
def noB (t : Tail) : Bool := tailB t == srcUnused || layoutOf t == .t48l
/-- srcC unused. -/
def noC (t : Tail) : Bool := tailC t == srcUnused
/-- All sources unused. -/
def noSrc (t : Tail) : Bool := tailA t == srcUnused && noB t && noC t
/-- srcB and srcC unused. -/
def onlyA (t : Tail) : Bool := noB t && noC t
/-- The modifiers are zero. -/
def m0 (t : Tail) : Bool := tailM t == 0

/-- The integer binary mould with nibble bit 3 and tail [31:28] zero (R144). -/
def okB (t : Tail) : Bool := noC t && decide (tailM t < 8)
/-- The integer ternary mould. -/
def okT (t : Tail) : Bool := decide (tailM t < 8)
/-- The integer unary mould. -/
def okU (t : Tail) : Bool := onlyA t && decide (tailM t < 8)
/-- Width 64 only. -/
def w64 (t : Tail) : Bool := tailM t % 4 == 0
/-- A rounding code that R103 defines. -/
def rmOk (n : Nat) : Bool := decide (n % 8 ≤ 4)
/-- The scalar FP modifiers outside conversions: a defined mode, everything else zero (R154). -/
def fpM (t : Tail) : Bool := decide (tailM t ≤ 4)
/-- CMP, TEST and BTST (R149). -/
def okCmp (conds : Nat) (t : Tail) : Bool := noC t && decide (tailM t / 8 % 4 < conds)

/-- Element class of a vector TYPE (R186). -/
inductive VCls where
  | fp | int | sto
  deriving DecidableEq, Repr

/-- The class of a TYPE code, if it is defined (R186). -/
def vcls : Nat → Option VCls
  | 0x0 | 0x3 | 0x4 => some .fp
  | 0x1 | 0x2 | 0x5 | 0x6 | 0x9 | 0xA => some .int
  | 0x7 | 0x8 => some .sto
  | _ => none

/-- The nibble of R187 by class: a rounding mode for FP, SAT alone for integers, zero for
storage. -/
def nibOk (ty nib : Nat) : Bool :=
  match vcls ty with
  | some .fp => decide (nib ≤ 4)
  | some .int => nib % 8 == 0
  | some .sto => nib == 0
  | none => false

/-- The vector control fields of field16 (R185). -/
def vVD (t : Tail) : Nat := fld (tailF t) 13 3
/-- First vector source. -/
def vVA (t : Tail) : Nat := fld (tailF t) 10 3
/-- Second vector source. -/
def vVB (t : Tail) : Nat := fld (tailF t) 7 3
/-- Third vector source or form-specific. -/
def vVC (t : Tail) : Nat := fld (tailF t) 4 3
/-- BS. -/
def vBS (t : Tail) : Bool := (tailF t).getLsbD 3
/-- CS. -/
def vCS (t : Tail) : Bool := (tailF t).getLsbD 2
/-- Field16 bits [33:32]. -/
def vX (t : Tail) : Nat := fld (tailF t) 0 2
/-- TYPE. -/
def vTy (t : Tail) : Nat := tailM t / 16
/-- The nibble. -/
def vNib (t : Tail) : Nat := tailM t % 16

/-- A second source that is VB, or the scalar srcB with BS = 1 and VB = 0 (R185). -/
def okVB (t : Tail) : Bool := if vBS t then vVB t == 0 else tailB t == srcUnused
/-- A third source that is VC, or the scalar srcC with CS = 1 and VC = 0. -/
def okVC (t : Tail) : Bool := if vCS t then vVC t == 0 else tailC t == srcUnused
/-- No second vector source. -/
def noVB (t : Tail) : Bool := vVB t == 0 && !vBS t && tailB t == srcUnused
/-- No third source. -/
def noVC (t : Tail) : Bool := vVC t == 0 && !vCS t && tailC t == srcUnused
/-- srcA unused. -/
def noA (t : Tail) : Bool := tailA t == srcUnused
/-- A TYPE that is not of the storage class. -/
def notSto (t : Tail) : Bool := vcls (vTy t) == some .fp || vcls (vTy t) == some .int

/-- VADD to VDIV (R193). -/
def okVbin (t : Tail) : Bool :=
  okVB t && noVC t && noA t && vX t == 0 && notSto t && nibOk (vTy t) (vNib t)
/-- VFMA (R193). -/
def okVfma (t : Tail) : Bool :=
  okVB t && okVC t && noA t && vX t == 0 && notSto t && nibOk (vTy t) (vNib t)
/-- VCMP (R194). -/
def okVcmp (t : Tail) : Bool :=
  okVB t && !vCS t && noC t && noA t && vX t % 2 == 0 && notSto t &&
  (if vcls (vTy t) == some .fp then vNib t % 8 != 7
   else vNib t != 3 && vNib t < 7)
/-- VSEL (R195). -/
def okVsel (t : Tail) : Bool :=
  okVB t && !vCS t && noC t && noA t && vX t == 0 && nibOk (vTy t) (vNib t)
/-- VREDR and VREDC (R199). -/
def okVred (t : Tail) : Bool :=
  noVB t && !vCS t && noC t && noA t && vX t == 0 && decide (vVC t ≤ 2) && notSto t &&
  nibOk (vTy t) (vNib t)
/-- The three VBCAST modes (R196). -/
def okVbc (mode : Nat) (t : Tail) : Bool :=
  vVC t == mode && !vCS t && noC t && vX t == 0 && nibOk (vTy t) (vNib t) &&
  (if mode = 0 then vBS t && vVB t == 0 && vVA t == 0 && noA t else noVB t)
/-- VTRAN (R197). -/
def okVtran (t : Tail) : Bool :=
  noVB t && noVC t && noA t && vX t == 0 && nibOk (vTy t) (vNib t)
/-- DTYPE of VCVT: field16 [38:35] (R200). -/
def vDTy (t : Tail) : Nat := fld (tailF t) 3 4
/-- VCVT (R200). -/
def okVcvt (t : Tail) : Bool :=
  vVB t == 0 && tailB t == srcUnused && !vCS t && noC t && noA t && vX t == 0 &&
  (match vcls (vTy t), vcls (vDTy t) with
   | some .int, some .int => vNib t % 8 == 0
   | some _, some .int => decide (vNib t ≤ 4)
   | some _, some _ => rmOk (vNib t)
   | _, _ => false)
/-- VPACK and VUNPK (R201). SAT stands in VUNPK without effect (R187; DEDUCED, log 71). -/
def okVpk (unpack : Bool) (t : Tail) : Bool :=
  noVB t && !vCS t && noC t && noA t && vX t == 0 && decide (4 ≤ vVC t ∧ vVC t ≤ 6) &&
  (if unpack then vTy t == 0xA && vNib t % 8 == 0 else vTy t == 0 && rmOk (vNib t))
/-- The four special functions (R202): nibble bits [2:0] are ignored. -/
def okVsp (t : Tail) : Bool :=
  noVB t && noVC t && noA t && vX t == 0 && vTy t == 0 && decide (vNib t < 8)
/-- VWFU and VWFM (R203). -/
def okVwf (t : Tail) : Bool :=
  noVB t && noVC t && noA t && vX t == 0 && vTy t == 0 && decide (vNib t ≤ 4)
/-- VLD and VST (R204): `st` selects VST. -/
def okVls (st : Bool) (t : Tail) : Bool :=
  vVB t == 0 && !vBS t && noVC t && vX t == 0 && m0 t &&
  (if st then vVD t == 0 else vVA t == 0)
/-- VGATH (R204). -/
def okVgath (t : Tail) : Bool :=
  vVA t == 0 && !vBS t && tailB t == srcUnused && noVC t && vX t == 0 &&
  vcls (vTy t) == some .int && decide (vNib t < 4)
/-- VMOVS read and write (R206). -/
def okVmovs (put : Bool) (t : Tail) : Bool :=
  vVB t == 0 && !vBS t && noVC t && nibOk (vTy t) (vNib t) &&
  (if put then vX t == 1 && vVA t == 0 && tailD t == none else vX t == 0 && vVD t == 0 && noA t)
/-- VSPOP (R207). -/
def okVspop (t : Tail) : Bool :=
  vVA t == 0 && noVB t && noVC t && vX t == 0 && nibOk (vTy t) (vNib t) &&
  (match tailA t with
   | .pop _ => true
   | _ => false)

/-- TDRAIN (R227). R103 gives SAT a meaning for conversions narrower than FP32 alone, and no rule
makes SAT with OFMT FP32 an encoding fault: it is accepted without effect (DESIGN CHOICE, log 86). -/
def okTdrain (t : Tail) : Bool :=
  let o := fld (tailF t) 10 4
  fld (tailF t) 0 3 == 0 && (decide (o ≤ 6) || o == 15) && rmOk (tailM t)
/-- The scaled-index modifiers of a memory T32 tail, and its nibble (R257, R262). -/
def okMemM (t : Tail) : Bool :=
  match t with
  | .t32 .. => decide (tailM t < 64) && tailM t / 8 % 2 == 0
  | _ => decide (tailM t < 8)
/-- W is 64 or 32. -/
def wBig (t : Tail) : Bool := decide (tailM t % 4 ≤ 1)
/-- ST (R263). -/
def okSt (t : Tail) : Bool :=
  match t with
  | .t48x .. => noC t && decide (tailM t < 8)
  | _ => okMemM t
/-- LDP: W 64 or 32, and an even destination up to %n30 (R264). -/
def okLdp (t : Tail) : Bool :=
  noC t && okMemM t && wBig t &&
  (match tailD t with
   | none => true
   | some d => d.toNat % 2 == 0)
/-- Local atomics; ACAS also takes srcC (R266). -/
def okAtomic (cas : Bool) (t : Tail) : Bool :=
  decide (tailM t < 8) && wBig t && (cas || noC t)
/-- NB of a remote form (R269). -/
def rNB (t : Tail) : Bool := decide (tailM t ≥ 128)
/-- Tail [30:28] of a remote form are zero. -/
def rZ (t : Tail) : Bool := tailM t / 16 % 8 == 0
/-- srcC of a remote form: a barrier when non-blocking, unused otherwise. -/
def rC (t : Tail) : Bool := rNB t || noC t
/-- The element types of R272 with their size in bytes. -/
def rTypeSize : Nat → Option Nat
  | 0x0 | 0x1 | 0x2 => some 4
  | 0x3 | 0x4 | 0x5 | 0x6 => some 2
  | 0x9 | 0xA => some 1
  | 0xB | 0xC => some 8
  | _ => none
/-- Whether an element type of R272 is floating point. -/
def rTypeFp (ty : Nat) : Bool := ty == 0 || ty == 3 || ty == 4
/-- OP of R272. -/
def rOp (t : Tail) : Nat := fld (tailF t) 12 4
/-- TYPE of R272. -/
def rTy (t : Tail) : Nat := fld (tailF t) 8 4
/-- RET of R272. -/
def rRet (t : Tail) : Bool := (tailF t).getLsbD 7
/-- Element or sector count. -/
def rCount (t : Tail) : Nat := fld (tailF t) 0 7 + 1
/-- SAT of the element forms (R269). -/
def rSat (t : Tail) : Bool := tailM t / 8 % 2 == 1
/-- The element forms (R272). -/
def okRel (ops : Nat) (rk sax : Bool) (t : Tail) : Bool :=
  rZ t && rC t && tailM t % 8 == 0 && decide (rOp t < ops) && !(rk && rRet t) &&
  (match rTypeSize (rTy t) with
   | none => false
   | some n => decide (rCount t * n ≤ 192)) &&
  (!sax || rTypeFp (rTy t)) &&
  (!(rTypeFp (rTy t)) || !(rOp t == 3 || rOp t == 4 || rOp t == 5)) &&
  (!rSat t || (rOp t == 0 && !rTypeFp (rTy t)))
/-- The word forms of R269 that use no field16. -/
def okRword (t : Tail) : Bool := rZ t && decide (tailM t % 16 < 8) && tailF t == 0
/-- D only in blocking forms (R269). -/
def dBlk (t : Tail) : Bool := !rNB t || tailD t == none
/-- The control-register indices of R135. -/
def cregIndexOk (n : Nat) : Bool := decide (n ≤ 5) || n == 0x100 || n == 0x101 || n == 0x102

/-! ### The form of every encoded instruction -/

/-- ADD (R145). -/
def form_add : Form :=
  ⟨0x01, [.t16, .t32, .t48l], false, true, okB⟩
/-- SUB (R145). -/
def form_sub : Form :=
  ⟨0x02, [.t16, .t32, .t48l], false, true, okB⟩
/-- MUL (R145). -/
def form_mul : Form :=
  ⟨0x03, [.t16, .t32, .t48l], false, true, okB⟩
/-- MULH (R145). -/
def form_mulh : Form :=
  ⟨0x04, [.t16, .t32, .t48l], false, true, okB⟩
/-- MADD (R145). -/
def form_madd : Form :=
  ⟨0x05, [.t32, .t48x], true, true, okT⟩
/-- DIV (R146). -/
def form_div : Form :=
  ⟨0x06, [.t16, .t32, .t48l], false, true, okB⟩
/-- REM (R146). -/
def form_rem : Form :=
  ⟨0x07, [.t16, .t32, .t48l], false, true, okB⟩
/-- NEG (R145). -/
def form_neg : Form :=
  ⟨0x08, [.t16, .t32], false, true, okU⟩
/-- ABS (R145). -/
def form_abs : Form :=
  ⟨0x09, [.t16, .t32], false, true, okU⟩
/-- MIN (R145). -/
def form_min : Form :=
  ⟨0x0A, [.t16, .t32, .t48l], false, true, okB⟩
/-- MAX (R145). -/
def form_max : Form :=
  ⟨0x0B, [.t16, .t32, .t48l], false, true, okB⟩
/-- ADDS (R146). -/
def form_adds : Form :=
  ⟨0x0C, [.t16, .t32, .t48l], false, true, okB⟩
/-- SUBS (R146). -/
def form_subs : Form :=
  ⟨0x0D, [.t16, .t32, .t48l], false, true, okB⟩
/-- AND (R145). -/
def form_and : Form :=
  ⟨0x0E, [.t16, .t32, .t48l], false, true, okB⟩
/-- OR (R145). -/
def form_or : Form :=
  ⟨0x0F, [.t16, .t32, .t48l], false, true, okB⟩
/-- XOR (R145). -/
def form_xor : Form :=
  ⟨0x10, [.t16, .t32, .t48l], false, true, okB⟩
/-- ANDN (R145). -/
def form_andn : Form :=
  ⟨0x11, [.t16, .t32, .t48l], false, true, okB⟩
/-- ORN (R145). -/
def form_orn : Form :=
  ⟨0x12, [.t16, .t32, .t48l], false, true, okB⟩
/-- NOT (R145). -/
def form_not : Form :=
  ⟨0x13, [.t16, .t32], false, true, okU⟩
/-- SHL (R145). -/
def form_shl : Form :=
  ⟨0x14, [.t16, .t32, .t48l], false, true, okB⟩
/-- SHR (R145). -/
def form_shr : Form :=
  ⟨0x15, [.t16, .t32, .t48l], false, true, okB⟩
/-- SAR (R145). -/
def form_sar : Form :=
  ⟨0x16, [.t16, .t32, .t48l], false, true, okB⟩
/-- ROL (R145). -/
def form_rol : Form :=
  ⟨0x17, [.t16, .t32, .t48l], false, true, okB⟩
/-- ROR (R145). -/
def form_ror : Form :=
  ⟨0x18, [.t16, .t32, .t48l], false, true, okB⟩
/-- CLZ (R145). -/
def form_clz : Form :=
  ⟨0x19, [.t16, .t32], false, true, okU⟩
/-- CTZ (R145). -/
def form_ctz : Form :=
  ⟨0x1A, [.t16, .t32], false, true, okU⟩
/-- POPC (R145). -/
def form_popc : Form :=
  ⟨0x1B, [.t16, .t32], false, true, okU⟩
/-- BREV (R145). -/
def form_brev : Form :=
  ⟨0x1C, [.t16, .t32], false, true, okU⟩
/-- BSWAP (R145). -/
def form_bswap : Form :=
  ⟨0x1D, [.t16, .t32], false, true, okU⟩
/-- BFX (R147). -/
def form_bfx : Form :=
  ⟨0x1E, [.t16, .t32, .t48l], false, true, fun t => okB t && w64 t⟩
/-- BFI (R147). -/
def form_bfi : Form :=
  ⟨0x1F, [.t32, .t48x], true, true, fun t => okT t && w64 t⟩
/-- EXT (R145). -/
def form_ext : Form :=
  ⟨0x20, [.t16, .t32, .t48l], false, true, fun t => okB t && w64 t⟩
/-- CMP (R149). -/
def form_cmp : Form :=
  ⟨0x21, [.t32, .t48x], true, false, okCmp 4⟩
/-- TEST (R149). -/
def form_test : Form :=
  ⟨0x22, [.t32, .t48x], true, false, okCmp 2⟩
/-- SEL (R151). -/
def form_sel : Form :=
  ⟨0x23, [.t32, .t48x], true, true, fun t => noC t && tailM t / 8 % 2 == 0⟩
/-- MOV (R145). -/
def form_mov : Form :=
  ⟨0x24, [.t16, .t32], false, true, okU⟩
/-- LDI (R152). -/
def form_ldi : Form :=
  ⟨0x25, [.t48l], false, true, fun t => noA t && tailM t % 4 == 0 && decide (tailM t < 8)⟩
/-- LDIH (R152). -/
def form_ldih : Form :=
  ⟨0x26, [.t48l], false, true, m0⟩
/-- LDK (R152). -/
def form_ldk : Form :=
  ⟨0x27, [.t16, .t32], false, true, fun t => okU t && tailM t % 4 == 1⟩
/-- LEA (R145). -/
def form_lea : Form :=
  ⟨0x28, [.t32, .t48x], true, true, fun t => w64 t && tailM t / 8 % 2 == 0 && decide (tailM t < 64)⟩
/-- CRC (R148). -/
def form_crc : Form :=
  ⟨0x29, [.t16, .t32, .t48l], false, true, fun t => okB t && decide (tailM t < 4)⟩
/-- FNV (R148). -/
def form_fnv : Form :=
  ⟨0x2A, [.t16, .t32, .t48l], false, true, fun t => okB t && decide (tailM t < 4)⟩
/-- COORD (R153). -/
def form_coord : Form :=
  ⟨0x2B, [.t16, .t32], false, true, fun t => noSrc t && decide (tailM t < 4)⟩
/-- ALIGNUP (R145). -/
def form_alignup : Form :=
  ⟨0x2C, [.t16, .t32, .t48l], false, true, fun t => okB t && w64 t⟩
/-- ALIGNDN (R145). -/
def form_aligndn : Form :=
  ⟨0x2D, [.t16, .t32, .t48l], false, true, fun t => okB t && w64 t⟩
/-- BOUND (R145). -/
def form_bound : Form :=
  ⟨0x2E, [.t16, .t32, .t48l], false, true, okB⟩
/-- BSET (R145). -/
def form_bset : Form :=
  ⟨0x2F, [.t16, .t32, .t48l], false, true, okB⟩
/-- BCLR (R145). -/
def form_bclr : Form :=
  ⟨0x30, [.t16, .t32, .t48l], false, true, okB⟩
/-- BTST (R149). -/
def form_btst : Form :=
  ⟨0x31, [.t32, .t48x], true, false, okCmp 2⟩
/-- BINV (R145). -/
def form_binv : Form :=
  ⟨0x32, [.t16, .t32, .t48l], false, true, okB⟩
/-- PERM (R145). -/
def form_perm : Form :=
  ⟨0x33, [.t16, .t32, .t48l], false, true, fun t => okB t && w64 t⟩
/-- CLS (R145). -/
def form_cls : Form :=
  ⟨0x34, [.t16, .t32], false, true, okU⟩
/-- ABSD (R145). -/
def form_absd : Form :=
  ⟨0x35, [.t16, .t32, .t48l], false, true, okB⟩
/-- AVG (R145). -/
def form_avg : Form :=
  ⟨0x36, [.t16, .t32, .t48l], false, true, okB⟩
/-- MULW (R145). -/
def form_mulw : Form :=
  ⟨0x37, [.t16, .t32, .t48l], false, true, fun t => okB t && !w64 t⟩
/-- SHLADD (R145). -/
def form_shladd : Form :=
  ⟨0x38, [.t32, .t48x], true, true, okT⟩
/-- FADD (R155). -/
def form_fadd : Form :=
  ⟨0x40, [.t16, .t32, .i20, .t48l], false, true, fun t => noC t && fpM t⟩
/-- FSUB (R155). -/
def form_fsub : Form :=
  ⟨0x41, [.t16, .t32, .i20, .t48l], false, true, fun t => noC t && fpM t⟩
/-- FMUL (R155). -/
def form_fmul : Form :=
  ⟨0x42, [.t16, .t32, .i20, .t48l], false, true, fun t => noC t && fpM t⟩
/-- FDIV (R155). -/
def form_fdiv : Form :=
  ⟨0x43, [.t16, .t32, .i20, .t48l], false, true, fun t => noC t && fpM t⟩
/-- FSQRT (R155). -/
def form_fsqrt : Form :=
  ⟨0x44, [.t16, .t32], false, true, fun t => onlyA t && fpM t⟩
/-- FMA (R155). -/
def form_fma : Form :=
  ⟨0x45, [.t32, .t48x], true, true, fpM⟩
/-- FMS (R155). -/
def form_fms : Form :=
  ⟨0x46, [.t32, .t48x], true, true, fpM⟩
/-- FNMA (R155). -/
def form_fnma : Form :=
  ⟨0x47, [.t32, .t48x], true, true, fpM⟩
/-- FMIN (R156). -/
def form_fmin : Form :=
  ⟨0x48, [.t16, .t32, .i20, .t48l], false, true, fun t => noC t && fpM t⟩
/-- FMAX (R156). -/
def form_fmax : Form :=
  ⟨0x49, [.t16, .t32, .i20, .t48l], false, true, fun t => noC t && fpM t⟩
/-- FABS (R156). -/
def form_fabs : Form :=
  ⟨0x4A, [.t16, .t32], false, true, fun t => onlyA t && fpM t⟩
/-- FNEG (R156). -/
def form_fneg : Form :=
  ⟨0x4B, [.t16, .t32], false, true, fun t => onlyA t && fpM t⟩
/-- FCPYS (R156). -/
def form_fcpys : Form :=
  ⟨0x4C, [.t16, .t32, .i20, .t48l], false, true, fun t => noC t && fpM t⟩
/-- FCMP (R157). -/
def form_fcmp : Form :=
  ⟨0x4D, [.t32, .t48x], true, false, fun t => noC t && tailM t / 16 % 2 == 0 && tailM t % 8 != 7⟩
/-- FCLASS (R158). -/
def form_fclass : Form :=
  ⟨0x4E, [.t16, .t32], false, true, fun t => onlyA t && fpM t⟩
/-- FRINT (R155). -/
def form_frint : Form :=
  ⟨0x4F, [.t16, .t32], false, true, fun t => onlyA t && fpM t⟩
/-- FCVT (R159). -/
def form_fcvt : Form :=
  ⟨0x50, [.t32], false, true, fun t => onlyA t && decide (tailM t / 16 ≤ 8) && rmOk (tailM t)⟩
/-- FCVTI (R160). -/
def form_fcvti : Form :=
  ⟨0x51, [.t32], false, true, fun t => onlyA t && decide (tailM t < 128) && decide (tailM t % 16 ≤ 4)⟩
/-- ICVTF (R160). -/
def form_icvtf : Form :=
  ⟨0x52, [.t32], false, true, fun t => onlyA t && decide (tailM t < 128) && decide (tailM t % 16 ≤ 4)⟩
/-- FCVTN (R159). -/
def form_fcvtn : Form :=
  ⟨0x53, [.t32], false, true, fun t => noC t && decide (tailM t / 16 ≤ 8) && rmOk (tailM t) &&
      (decide (tailM t / 16 ≥ 2) || tailB t == .zero)⟩
/-- FCVTW (R159). -/
def form_fcvtw : Form :=
  ⟨0x54, [.t32], false, true, fun t => onlyA t && decide (tailM t / 16 ≤ 8) && decide (tailM t % 16 ≤ 4)⟩
/-- FMINNUM (R156). -/
def form_fminnum : Form :=
  ⟨0x55, [.t16, .t32, .i20, .t48l], false, true, fun t => noC t && fpM t⟩
/-- FMAXNUM (R156). -/
def form_fmaxnum : Form :=
  ⟨0x56, [.t16, .t32, .i20, .t48l], false, true, fun t => noC t && fpM t⟩
/-- FSCALE (R161). -/
def form_fscale : Form :=
  ⟨0x57, [.t16, .t32, .t48l], false, true, fun t => noC t && fpM t⟩
/-- FLOGB (R161). -/
def form_flogb : Form :=
  ⟨0x58, [.t16, .t32], false, true, fun t => onlyA t && fpM t⟩
/-- FEXP2 (R202). -/
def form_fexp2 : Form :=
  ⟨0x59, [.t16, .t32], false, true, fun t => onlyA t && fpM t⟩
/-- FRCP (R202). -/
def form_frcp : Form :=
  ⟨0x5A, [.t16, .t32], false, true, fun t => onlyA t && fpM t⟩
/-- FRSQ (R202). -/
def form_frsq : Form :=
  ⟨0x5B, [.t16, .t32], false, true, fun t => onlyA t && fpM t⟩
/-- BR (R162). -/
def form_br : Form :=
  ⟨0x60, [.t48l], false, false, fun t => noA t && m0 t⟩
/-- BRZ (R162). -/
def form_brz : Form :=
  ⟨0x61, [.t48l], false, false, m0⟩
/-- BRNZ (R162). -/
def form_brnz : Form :=
  ⟨0x62, [.t48l], false, false, m0⟩
/-- JMP (R163). -/
def form_jmp : Form :=
  ⟨0x63, [.t16], false, false, fun t => noB t && m0 t⟩
/-- CALL (R163). -/
def form_call : Form :=
  ⟨0x64, [.t48l], false, false, fun t => noA t && m0 t⟩
/-- CALLI (R163). -/
def form_calli : Form :=
  ⟨0x65, [.t16], false, false, fun t => noB t && m0 t⟩
/-- RET (R163). -/
def form_ret : Form :=
  ⟨0x66, [.t16], false, false, fun t => noB t && m0 t⟩
/-- LOOP (R164). -/
def form_loop : Form :=
  ⟨0x67, [.t48l], false, false, fun t => decide (tailM t < 4)⟩
/-- LOOPR (R165). -/
def form_loopr : Form :=
  ⟨0x68, [.t48x], false, false, fun t => onlyA t && decide (tailM t < 4)⟩
/-- LBRK (R168). -/
def form_lbrk : Form :=
  ⟨0x69, [.e0], false, false, fun _ => true⟩
/-- PAND (R171). -/
def form_pand : Form :=
  ⟨0x6A, [.t48x], false, false, fun t => noSrc t && m0 t && fld (tailF t) 11 5 == 0⟩
/-- POR (R171). -/
def form_por : Form :=
  ⟨0x6B, [.t48x], false, false, fun t => noSrc t && m0 t && fld (tailF t) 11 5 == 0⟩
/-- PXOR (R171). -/
def form_pxor : Form :=
  ⟨0x6C, [.t48x], false, false, fun t => noSrc t && m0 t && fld (tailF t) 11 5 == 0⟩
/-- PNOT (R172). -/
def form_pnot : Form :=
  ⟨0x6D, [.t32], false, false, fun t => noSrc t && tailM t / 8 % 4 == 0⟩
/-- PSET (R172). -/
def form_pset : Form :=
  ⟨0x6E, [.t32], false, false, fun t => onlyA t && tailM t / 8 % 4 == 0⟩
/-- PMOV (R172). -/
def form_pmov : Form :=
  ⟨0x6F, [.t32], false, false, fun t => noSrc t && tailM t / 8 % 4 == 0⟩
/-- TRAP (R174). -/
def form_trap : Form :=
  ⟨0x70, [.t16], false, false, fun t => noB t && m0 t⟩
/-- SYSCALL (R174). -/
def form_syscall : Form :=
  ⟨0x71, [.t16], false, false, fun t => noB t && m0 t⟩
/-- SYSRET (R176). -/
def form_sysret : Form :=
  ⟨0x72, [.t16], false, false, fun t => noB t && m0 t⟩
/-- CRD (R177). -/
def form_crd : Form :=
  ⟨0x73, [.t48l], false, true, fun t => noA t && m0 t && cregIndexOk (tailLit t).toNat⟩
/-- CWR (R177). -/
def form_cwr : Form :=
  ⟨0x74, [.t48l], false, false, fun t => m0 t && cregIndexOk (tailLit t).toNat⟩
/-- HALT (R178). -/
def form_halt : Form :=
  ⟨0x75, [.e0], false, false, fun _ => true⟩
/-- NOP (R179). -/
def form_nop : Form :=
  ⟨0x76, [.e0], false, false, fun _ => true⟩
/-- PAUSE (R179). -/
def form_pause : Form :=
  ⟨0x77, [.t16], false, false, fun t => noB t && m0 t⟩
/-- RDCYC (R179). -/
def form_rdcyc : Form :=
  ⟨0x78, [.t16, .t32], false, true, fun t => noSrc t && m0 t⟩
/-- PSAVE (R173). -/
def form_psave : Form :=
  ⟨0x79, [.t16, .t32], false, true, fun t => noSrc t && m0 t⟩
/-- PLOAD (R173). -/
def form_pload : Form :=
  ⟨0x7A, [.t16], false, false, fun t => noB t && m0 t⟩
/-- BKPT (R175). -/
def form_bkpt : Form :=
  ⟨0x7B, [.e0], false, false, fun _ => true⟩
/-- VSHAPE (R192). -/
def form_vshape : Form :=
  ⟨0x80, [.t48x], true, false, fun t => onlyA t && m0 t⟩
/-- VLD (R204). -/
def form_vld : Form :=
  ⟨0x81, [.t48x], false, false, okVls false⟩
/-- VST (R205). -/
def form_vst : Form :=
  ⟨0x82, [.t48x], false, false, okVls true⟩
/-- VGATH (R204). -/
def form_vgath : Form :=
  ⟨0x83, [.t48x], false, false, okVgath⟩
/-- VADD (R193). -/
def form_vadd : Form :=
  ⟨0x84, [.t48x], false, false, okVbin⟩
/-- VSUB (R193). -/
def form_vsub : Form :=
  ⟨0x85, [.t48x], false, false, okVbin⟩
/-- VMUL (R193). -/
def form_vmul : Form :=
  ⟨0x86, [.t48x], false, false, okVbin⟩
/-- VFMA (R193). -/
def form_vfma : Form :=
  ⟨0x87, [.t48x], false, false, okVfma⟩
/-- VMIN (R193). -/
def form_vmin : Form :=
  ⟨0x88, [.t48x], false, false, okVbin⟩
/-- VMAX (R193). -/
def form_vmax : Form :=
  ⟨0x89, [.t48x], false, false, okVbin⟩
/-- VDIV (R193). -/
def form_vdiv : Form :=
  ⟨0x8A, [.t48x], false, false, okVbin⟩
/-- VCMP (R194). -/
def form_vcmp : Form :=
  ⟨0x8B, [.t48x], false, false, okVcmp⟩
/-- VSEL (R195). -/
def form_vsel : Form :=
  ⟨0x8C, [.t48x], false, false, okVsel⟩
/-- VREDR (R199). -/
def form_vredr : Form :=
  ⟨0x8D, [.t48x], false, false, okVred⟩
/-- VREDC (R199). -/
def form_vredc : Form :=
  ⟨0x8E, [.t48x], false, false, okVred⟩
/-- VBCAST_SC (R196). -/
def form_vbcastSc : Form :=
  ⟨0x8F, [.t48x], false, false, okVbc 0⟩
/-- VBCAST_ROW (R196). -/
def form_vbcastRow : Form :=
  ⟨0x8F, [.t48x], false, false, okVbc 1⟩
/-- VBCAST_COL (R196). -/
def form_vbcastCol : Form :=
  ⟨0x8F, [.t48x], false, false, okVbc 2⟩
/-- VTRAN (R197). -/
def form_vtran : Form :=
  ⟨0x90, [.t48x], false, false, okVtran⟩
/-- VCVT (R200). -/
def form_vcvt : Form :=
  ⟨0x91, [.t48x], false, false, okVcvt⟩
/-- VPACK (R201). -/
def form_vpack : Form :=
  ⟨0x92, [.t48x], false, false, okVpk false⟩
/-- VUNPK (R201). -/
def form_vunpk : Form :=
  ⟨0x93, [.t48x], false, false, okVpk true⟩
/-- VEXP2 (R202). -/
def form_vexp2 : Form :=
  ⟨0x94, [.t48x], false, false, okVsp⟩
/-- VLOG2 (R202). -/
def form_vlog2 : Form :=
  ⟨0x95, [.t48x], false, false, okVsp⟩
/-- VRCP (R202). -/
def form_vrcp : Form :=
  ⟨0x96, [.t48x], false, false, okVsp⟩
/-- VRSQ (R202). -/
def form_vrsq : Form :=
  ⟨0x97, [.t48x], false, false, okVsp⟩
/-- VWFU (R203). -/
def form_vwfu : Form :=
  ⟨0x98, [.t48x], false, false, okVwf⟩
/-- VWFM (R203). -/
def form_vwfm : Form :=
  ⟨0x99, [.t48x], false, false, okVwf⟩
/-- VMOVS_GET (R206). -/
def form_vmovsGet : Form :=
  ⟨0x9A, [.t48x], false, true, okVmovs false⟩
/-- VMOVS_PUT (R206). -/
def form_vmovsPut : Form :=
  ⟨0x9A, [.t48x], false, true, okVmovs true⟩
/-- VSPOP (R207). -/
def form_vspop : Form :=
  ⟨0x9B, [.t48x], false, true, okVspop⟩
/-- TCFG (R222). -/
def form_tcfg : Form :=
  ⟨0xA0, [.t48x], false, false, fun t => noC t && m0 t && fld (tailF t) 0 12 == 0⟩
/-- TLD (R223). -/
def form_tld : Form :=
  ⟨0xA1, [.t48x], false, false, fun t => noC t && m0 t && fld (tailF t) 0 12 == 0⟩
/-- TST (R225). -/
def form_tst : Form :=
  ⟨0xA2, [.t48x], false, false, fun t => noC t && m0 t && fld (tailF t) 0 12 == 0⟩
/-- TZERO (R226). -/
def form_tzero : Form :=
  ⟨0xA3, [.t48x], false, false, fun t => onlyA t && m0 t⟩
/-- ACLR (R226). -/
def form_aclr : Form :=
  ⟨0xA3, [.t48x], false, false, fun t => onlyA t && tailM t == 16 && fld (tailF t) 4 12 == 0⟩
/-- TDRAIN (R227). -/
def form_tdrain : Form :=
  ⟨0xA4, [.t48x], false, false, okTdrain⟩
/-- TCHK (R229). -/
def form_tchk : Form :=
  ⟨0xA5, [.t48x], false, false, fun t => noC t && m0 t && fld (tailF t) 0 14 == 0⟩
/-- MMAG (R234). -/
def form_mmag : Form :=
  ⟨0xA6, [.t48x], false, false, fun t => decide (1 ≤ tailM t % 32 ∧ tailM t % 32 ≤ 24)⟩
/-- TRING (R236). -/
def form_tring : Form :=
  ⟨0xA7, [.t48x], false, false, fun t => noC t && m0 t && tailF t == 0⟩
/-- MMA_BF16_BF16 (R230). -/
def form_mmaBf16Bf16 : Form :=
  ⟨0xA8, [.t48x], false, false, fun t => noB t && m0 t⟩
/-- MMA_F16_F16 (R230). -/
def form_mmaF16F16 : Form :=
  ⟨0xA9, [.t48x], false, false, fun t => noB t && m0 t⟩
/-- MMA_E4M3_E4M3 (R230). -/
def form_mmaE4m3E4m3 : Form :=
  ⟨0xAA, [.t48x], false, false, fun t => noB t && m0 t⟩
/-- MMA_E4M3_E5M2 (R230). -/
def form_mmaE4m3E5m2 : Form :=
  ⟨0xAB, [.t48x], false, false, fun t => noB t && m0 t⟩
/-- MMA_E5M2_E4M3 (R230). -/
def form_mmaE5m2E4m3 : Form :=
  ⟨0xAC, [.t48x], false, false, fun t => noB t && m0 t⟩
/-- MMA_E5M2_E5M2 (R230). -/
def form_mmaE5m2E5m2 : Form :=
  ⟨0xAD, [.t48x], false, false, fun t => noB t && m0 t⟩
/-- MMA_E2M3_E2M3 (R230). -/
def form_mmaE2m3E2m3 : Form :=
  ⟨0xAE, [.t48x], false, false, fun t => noB t && m0 t⟩
/-- MMA_E2M1_E2M1 (R230). -/
def form_mmaE2m1E2m1 : Form :=
  ⟨0xAF, [.t48x], false, false, fun t => noB t && m0 t⟩
/-- MMA_E2M1_E4M3 (R230). -/
def form_mmaE2m1E4m3 : Form :=
  ⟨0xB0, [.t48x], false, false, fun t => noB t && m0 t⟩
/-- MMA_E4M3_E2M1 (R230). -/
def form_mmaE4m3E2m1 : Form :=
  ⟨0xB1, [.t48x], false, false, fun t => noB t && m0 t⟩
/-- MMA_LG6_LG6 (R230). -/
def form_mmaLg6Lg6 : Form :=
  ⟨0xB2, [.t48x], false, false, fun t => noB t && m0 t⟩
/-- MMA_LG6_E4M3 (R230). -/
def form_mmaLg6E4m3 : Form :=
  ⟨0xB3, [.t48x], false, false, fun t => noB t && m0 t⟩
/-- MMA_E4M3_LG6 (R230). -/
def form_mmaE4m3Lg6 : Form :=
  ⟨0xB4, [.t48x], false, false, fun t => noB t && m0 t⟩
/-- MMA_LG6_E2M1 (R230). -/
def form_mmaLg6E2m1 : Form :=
  ⟨0xB5, [.t48x], false, false, fun t => noB t && m0 t⟩
/-- MMA_E2M1_LG6 (R230). -/
def form_mmaE2m1Lg6 : Form :=
  ⟨0xB6, [.t48x], false, false, fun t => noB t && m0 t⟩
/-- MMA_INT8_INT8 (R230). -/
def form_mmaInt8Int8 : Form :=
  ⟨0xB7, [.t48x], false, false, fun t => noB t && m0 t⟩
/-- MMA_MXE4M3_MXE4M3 (R230). -/
def form_mmaMxe4m3Mxe4m3 : Form :=
  ⟨0xB8, [.t48x], false, false, fun t => noB t && m0 t⟩
/-- MMA_MXE2M1_MXE2M1 (R230). -/
def form_mmaMxe2m1Mxe2m1 : Form :=
  ⟨0xB9, [.t48x], false, false, fun t => noB t && m0 t⟩
/-- MMA_MXE2M3_MXE2M3 (R230). -/
def form_mmaMxe2m3Mxe2m3 : Form :=
  ⟨0xBA, [.t48x], false, false, fun t => noB t && m0 t⟩
/-- MMA_MXE2M1_MXE4M3 (R230). -/
def form_mmaMxe2m1Mxe4m3 : Form :=
  ⟨0xBB, [.t48x], false, false, fun t => noB t && m0 t⟩
/-- MMA_MXE4M3_MXE2M1 (R230). -/
def form_mmaMxe4m3Mxe2m1 : Form :=
  ⟨0xBC, [.t48x], false, false, fun t => noB t && m0 t⟩
/-- MMA_MXE5M2_MXE5M2 (R230). -/
def form_mmaMxe5m2Mxe5m2 : Form :=
  ⟨0xBD, [.t48x], false, false, fun t => noB t && m0 t⟩
/-- MMA_BF16_E4M3 (R230). -/
def form_mmaBf16E4m3 : Form :=
  ⟨0xBE, [.t48x], false, false, fun t => noB t && m0 t⟩
/-- MMA_BF16_LG6 (R230). -/
def form_mmaBf16Lg6 : Form :=
  ⟨0xBF, [.t48x], false, false, fun t => noB t && m0 t⟩
/-- LD (R262). -/
def form_ld : Form :=
  ⟨0xC0, [.t16, .t32, .t48l], false, true, fun t => noC t && okMemM t⟩
/-- ST (R263). -/
def form_st : Form :=
  ⟨0xC1, [.t16, .t32, .t48x], false, false, okSt⟩
/-- LDP (R264). -/
def form_ldp : Form :=
  ⟨0xC2, [.t32, .t48l], false, true, okLdp⟩
/-- STP (R264). -/
def form_stp : Form :=
  ⟨0xC3, [.t32, .t48x], false, false, fun t => decide (tailM t < 8) && wBig t⟩
/-- LDX (R265). -/
def form_ldx : Form :=
  ⟨0xC4, [.t32], false, true, fun t => onlyA t && decide (tailM t < 8)⟩
/-- LDX_TAG (R265). -/
def form_ldxTag : Form :=
  ⟨0xC4, [.t32], false, true, fun t => onlyA t && (tailM t == 8 || tailM t == 12)⟩
/-- STX (R265). -/
def form_stx : Form :=
  ⟨0xC5, [.t32], false, false, fun t => noC t && decide (tailM t < 8)⟩
/-- STX_TAG (R265). -/
def form_stxTag : Form :=
  ⟨0xC5, [.t32], false, false, fun t => noC t && (tailM t == 8 || tailM t == 12)⟩
/-- AADD (R266). -/
def form_aadd : Form :=
  ⟨0xC6, [.t16, .t32, .t48x], false, true, okAtomic false⟩
/-- AAND (R266). -/
def form_aand : Form :=
  ⟨0xC7, [.t16, .t32, .t48x], false, true, okAtomic false⟩
/-- AOR (R266). -/
def form_aor : Form :=
  ⟨0xC8, [.t16, .t32, .t48x], false, true, okAtomic false⟩
/-- AXOR (R266). -/
def form_axor : Form :=
  ⟨0xC9, [.t16, .t32, .t48x], false, true, okAtomic false⟩
/-- AMIN (R266). -/
def form_amin : Form :=
  ⟨0xCA, [.t16, .t32, .t48x], false, true, okAtomic false⟩
/-- AMAX (R266). -/
def form_amax : Form :=
  ⟨0xCB, [.t16, .t32, .t48x], false, true, okAtomic false⟩
/-- ASWAP (R266). -/
def form_aswap : Form :=
  ⟨0xCC, [.t16, .t32, .t48x], false, true, okAtomic false⟩
/-- ACAS (R266). -/
def form_acas : Form :=
  ⟨0xCD, [.t32, .t48x], false, true, okAtomic true⟩
/-- ACT (R268). -/
def form_act : Form :=
  ⟨0xCE, [.t16, .t48l], false, false, fun t => noB t && m0 t⟩
/-- RLD (R271). -/
def form_rld : Form :=
  ⟨0xCF, [.t48x], false, true, fun t => okRword t && dBlk t && rC t && (rNB t || noB t)⟩
/-- RST (R271). -/
def form_rst : Form :=
  ⟨0xD0, [.t48x], false, false, fun t => okRword t && rC t⟩
/-- RRED (R271). -/
def form_rred : Form :=
  ⟨0xD1, [.t48x], false, false, okRel 7 false false⟩
/-- RRED_RK (R273). -/
def form_rredRk : Form :=
  ⟨0xD2, [.t48x], false, false, okRel 3 true false⟩
/-- RCAS (R271). -/
def form_rcas : Form :=
  ⟨0xD3, [.t48x], false, true, fun t => okRword t && dBlk t⟩
/-- RSAX (R271). -/
def form_rsax : Form :=
  ⟨0xD4, [.t48x], false, false, okRel 1 false true⟩
/-- FENCE (R279). -/
def form_fence : Form :=
  ⟨0xD5, [.t16], false, false, fun t => noSrc t && decide (tailM t ≤ 4)⟩
/-- FENCE_XP (R280). -/
def form_fenceXp : Form :=
  ⟨0xD6, [.t16], false, false, fun t => noSrc t && decide (tailM t ≤ 4)⟩
/-- CSWAP (R281). -/
def form_cswap : Form :=
  ⟨0xD7, [.t32], false, false, m0⟩
/-- GSET (R282). -/
def form_gset : Form :=
  ⟨0xD8, [.t16], false, false, m0⟩
/-- GCLR (R282). -/
def form_gclr : Form :=
  ⟨0xD9, [.t16], false, false, m0⟩
/-- RFILL (R271). -/
def form_rfill : Form :=
  ⟨0xDA, [.t48x], false, false, fun t => rZ t && decide (tailM t % 16 < 8) && fld (tailF t) 7 9 == 0 && rC t⟩
/-- RLDB (R271). -/
def form_rldb : Form :=
  ⟨0xDB, [.t48x], false, false, fun t => rZ t && tailM t % 16 == 0 && fld (tailF t) 7 9 == 0 && rC t⟩
/-- SEND (R316). -/
def form_send : Form :=
  ⟨0xE0, [.t48x], false, false, fun t => noC t && m0 t && decide (fld (tailF t) 12 4 ≤ 13) && fld (tailF t) 8 4 == 0 &&
      decide (fld (tailF t) 0 8 ≤ 224) && (fld (tailF t) 0 8 == 0 || tailB t != .zero)⟩
/-- YIELD (R317). -/
def form_yield : Form :=
  ⟨0xE1, [.t16], false, false, fun t => noB t && decide (tailM t < 2)⟩
/-- YIELD_IMM (R317). -/
def form_yieldImm : Form :=
  ⟨0xE1, [.t48l], false, false, fun t => noA t && decide (tailM t < 2)⟩
/-- CMASK (R318). -/
def form_cmask : Form :=
  ⟨0xE2, [.t16, .t32], false, true, fun t => onlyA t && m0 t⟩
/-- CUNMASK (R318). -/
def form_cunmask : Form :=
  ⟨0xE3, [.t16, .t32], false, true, fun t => onlyA t && m0 t⟩
/-- FORK (R319). -/
def form_fork : Form :=
  ⟨0xE4, [.t48x], false, false, fun t => m0 t && decide ((tailF t).toNat < 8)⟩
/-- JOIN (R320). -/
def form_join : Form :=
  ⟨0xE5, [.t16, .t32], false, true, fun t => onlyA t && m0 t⟩
/-- POST (R321). -/
def form_post : Form :=
  ⟨0xE6, [.t32], false, false, fun t => noC t && m0 t⟩
/-- DECZ (R322). -/
def form_decz : Form :=
  ⟨0xE7, [.t32], false, false, fun t => noC t && m0 t⟩
/-- RNGPUT (R323). -/
def form_rngput : Form :=
  ⟨0xE8, [.t48x], false, false, fun t => decide (tailM t ≤ 216) && fld (tailF t) 8 8 != 0⟩
/-- RNGGET (R324). -/
def form_rngget : Form :=
  ⟨0xE9, [.t48x], false, true, fun t => noC t && m0 t && decide ((tailF t).toNat ≤ 216)⟩
/-- OSUB (R344). -/
def form_osub : Form :=
  ⟨0xEA, [.t32], false, false, fun t => noC t && decide (tailM t < 2)⟩
/-- SRSET (R346). -/
def form_srset : Form :=
  ⟨0xEB, [.t32], false, false, fun t => onlyA t && decide (tailM t < 8)⟩
/-- SRCTL_QUERY (R347). -/
def form_srctlQuery : Form :=
  ⟨0xEC, [.t32], false, true, fun t => noSrc t && tailM t / 8 == 0⟩
/-- SRCTL_STOP (R347). -/
def form_srctlStop : Form :=
  ⟨0xEC, [.t32], false, true, fun t => noSrc t && tailM t / 8 == 2⟩
/-- SRCTL_REWIND (R347). -/
def form_srctlRewind : Form :=
  ⟨0xEC, [.t32], false, true, fun t => noSrc t && tailM t / 8 == 4⟩
/-- TBINIT (R401). -/
def form_tbinit : Form :=
  ⟨0xED, [.t32, .t48l], false, false, fun t => noC t && m0 t && srcPlain (tailA t) && (layoutOf t == .t48l || srcPlain (tailB t))⟩
/-- TBARR (R401). -/
def form_tbarr : Form :=
  ⟨0xEE, [.t16, .t32], false, false, fun t => noC t && m0 t && srcPlain (tailA t) && (layoutOf t == .t48l || srcPlain (tailB t)) && (layoutOf t == .t32 || noB t)⟩
/-- TBEXP (R401). -/
def form_tbexp : Form :=
  ⟨0xEF, [.t32, .t48l], false, false, fun t => noC t && m0 t && srcPlain (tailA t) && (layoutOf t == .t48l || srcPlain (tailB t))⟩
/-- TBWAIT (R402). -/
def form_tbwait : Form :=
  ⟨0xF0, [.t16, .t32], false, true, fun t => noC t && m0 t && srcPlain (tailA t) && (layoutOf t == .t48l || srcPlain (tailB t))⟩
/-- TBWAIT_B (R402). -/
def form_tbwaitB : Form :=
  ⟨0xF1, [.t16, .t32], false, true, fun t => noC t && m0 t && srcPlain (tailA t) && (layoutOf t == .t48l || srcPlain (tailB t))⟩
/-- TBTEST (R402). -/
def form_tbtest : Form :=
  ⟨0xF2, [.t16, .t32], false, true, fun t => noC t && tailM t % 16 == 0 && srcPlain (tailA t) && (layoutOf t == .t48l || srcPlain (tailB t))⟩
/-- LFIND (R387). -/
def form_lfind : Form :=
  ⟨0xF3, [.t32], false, false, fun t => noC t && m0 t⟩
/-- LPUT (R388). -/
def form_lput : Form :=
  ⟨0xF4, [.t32], false, false, fun t => noC t && m0 t⟩
/-- LREL (R389). -/
def form_lrel : Form :=
  ⟨0xF5, [.t32], false, false, fun t => noC t && m0 t⟩
/-- LSTAT_READ (R390). -/
def form_lstatRead : Form :=
  ⟨0xF6, [.t32], false, false, fun t => noC t && tailM t == 0⟩
/-- LSTAT_CONFIG (R390). -/
def form_lstatConfig : Form :=
  ⟨0xF6, [.t32], false, false, fun t => noC t && tailM t == 1⟩
/-- LSTAT_CLOSE (R390). -/
def form_lstatClose : Form :=
  ⟨0xF6, [.t32], false, false, fun t => noC t && tailM t == 2⟩
/-- LAUNCH (R325). -/
def form_launch : Form :=
  ⟨0xF7, [.t32], false, false, fun t => noC t && decide (8 ≤ tailM t ∧ tailM t ≤ 15)⟩

/-- The head, tail and form of an encoded instruction; a device event and a reserved opcode have
none. -/
def instrParts : Instr → Option (Form × Head × Tail)
  | .add h t => some (form_add, h, t)
  | .sub h t => some (form_sub, h, t)
  | .mul h t => some (form_mul, h, t)
  | .mulh h t => some (form_mulh, h, t)
  | .madd h t => some (form_madd, h, t)
  | .div h t => some (form_div, h, t)
  | .rem h t => some (form_rem, h, t)
  | .neg h t => some (form_neg, h, t)
  | .abs h t => some (form_abs, h, t)
  | .min h t => some (form_min, h, t)
  | .max h t => some (form_max, h, t)
  | .adds h t => some (form_adds, h, t)
  | .subs h t => some (form_subs, h, t)
  | .and h t => some (form_and, h, t)
  | .or h t => some (form_or, h, t)
  | .xor h t => some (form_xor, h, t)
  | .andn h t => some (form_andn, h, t)
  | .orn h t => some (form_orn, h, t)
  | .not h t => some (form_not, h, t)
  | .shl h t => some (form_shl, h, t)
  | .shr h t => some (form_shr, h, t)
  | .sar h t => some (form_sar, h, t)
  | .rol h t => some (form_rol, h, t)
  | .ror h t => some (form_ror, h, t)
  | .clz h t => some (form_clz, h, t)
  | .ctz h t => some (form_ctz, h, t)
  | .popc h t => some (form_popc, h, t)
  | .brev h t => some (form_brev, h, t)
  | .bswap h t => some (form_bswap, h, t)
  | .bfx h t => some (form_bfx, h, t)
  | .bfi h t => some (form_bfi, h, t)
  | .ext h t => some (form_ext, h, t)
  | .cmp h t => some (form_cmp, h, t)
  | .test h t => some (form_test, h, t)
  | .sel h t => some (form_sel, h, t)
  | .mov h t => some (form_mov, h, t)
  | .ldi h t => some (form_ldi, h, t)
  | .ldih h t => some (form_ldih, h, t)
  | .ldk h t => some (form_ldk, h, t)
  | .lea h t => some (form_lea, h, t)
  | .crc h t => some (form_crc, h, t)
  | .fnv h t => some (form_fnv, h, t)
  | .coord h t => some (form_coord, h, t)
  | .alignup h t => some (form_alignup, h, t)
  | .aligndn h t => some (form_aligndn, h, t)
  | .bound h t => some (form_bound, h, t)
  | .bset h t => some (form_bset, h, t)
  | .bclr h t => some (form_bclr, h, t)
  | .btst h t => some (form_btst, h, t)
  | .binv h t => some (form_binv, h, t)
  | .perm h t => some (form_perm, h, t)
  | .cls h t => some (form_cls, h, t)
  | .absd h t => some (form_absd, h, t)
  | .avg h t => some (form_avg, h, t)
  | .mulw h t => some (form_mulw, h, t)
  | .shladd h t => some (form_shladd, h, t)
  | .fadd h t => some (form_fadd, h, t)
  | .fsub h t => some (form_fsub, h, t)
  | .fmul h t => some (form_fmul, h, t)
  | .fdiv h t => some (form_fdiv, h, t)
  | .fsqrt h t => some (form_fsqrt, h, t)
  | .fma h t => some (form_fma, h, t)
  | .fms h t => some (form_fms, h, t)
  | .fnma h t => some (form_fnma, h, t)
  | .fmin h t => some (form_fmin, h, t)
  | .fmax h t => some (form_fmax, h, t)
  | .fabs h t => some (form_fabs, h, t)
  | .fneg h t => some (form_fneg, h, t)
  | .fcpys h t => some (form_fcpys, h, t)
  | .fcmp h t => some (form_fcmp, h, t)
  | .fclass h t => some (form_fclass, h, t)
  | .frint h t => some (form_frint, h, t)
  | .fcvt h t => some (form_fcvt, h, t)
  | .fcvti h t => some (form_fcvti, h, t)
  | .icvtf h t => some (form_icvtf, h, t)
  | .fcvtn h t => some (form_fcvtn, h, t)
  | .fcvtw h t => some (form_fcvtw, h, t)
  | .fminnum h t => some (form_fminnum, h, t)
  | .fmaxnum h t => some (form_fmaxnum, h, t)
  | .fscale h t => some (form_fscale, h, t)
  | .flogb h t => some (form_flogb, h, t)
  | .fexp2 h t => some (form_fexp2, h, t)
  | .frcp h t => some (form_frcp, h, t)
  | .frsq h t => some (form_frsq, h, t)
  | .br h t => some (form_br, h, t)
  | .brz h t => some (form_brz, h, t)
  | .brnz h t => some (form_brnz, h, t)
  | .jmp h t => some (form_jmp, h, t)
  | .call h t => some (form_call, h, t)
  | .calli h t => some (form_calli, h, t)
  | .ret h t => some (form_ret, h, t)
  | .loop h t => some (form_loop, h, t)
  | .loopr h t => some (form_loopr, h, t)
  | .lbrk h t => some (form_lbrk, h, t)
  | .pand h t => some (form_pand, h, t)
  | .por h t => some (form_por, h, t)
  | .pxor h t => some (form_pxor, h, t)
  | .pnot h t => some (form_pnot, h, t)
  | .pset h t => some (form_pset, h, t)
  | .pmov h t => some (form_pmov, h, t)
  | .trap h t => some (form_trap, h, t)
  | .syscall h t => some (form_syscall, h, t)
  | .sysret h t => some (form_sysret, h, t)
  | .crd h t => some (form_crd, h, t)
  | .cwr h t => some (form_cwr, h, t)
  | .halt h t => some (form_halt, h, t)
  | .nop h t => some (form_nop, h, t)
  | .pause h t => some (form_pause, h, t)
  | .pauseExpire => none
  | .rdcyc h t => some (form_rdcyc, h, t)
  | .psave h t => some (form_psave, h, t)
  | .pload h t => some (form_pload, h, t)
  | .bkpt h t => some (form_bkpt, h, t)
  | .vshape h t => some (form_vshape, h, t)
  | .vld h t => some (form_vld, h, t)
  | .vst h t => some (form_vst, h, t)
  | .vgath h t => some (form_vgath, h, t)
  | .vadd h t => some (form_vadd, h, t)
  | .vsub h t => some (form_vsub, h, t)
  | .vmul h t => some (form_vmul, h, t)
  | .vfma h t => some (form_vfma, h, t)
  | .vmin h t => some (form_vmin, h, t)
  | .vmax h t => some (form_vmax, h, t)
  | .vdiv h t => some (form_vdiv, h, t)
  | .vcmp h t => some (form_vcmp, h, t)
  | .vsel h t => some (form_vsel, h, t)
  | .vredr h t => some (form_vredr, h, t)
  | .vredc h t => some (form_vredc, h, t)
  | .vbcastSc h t => some (form_vbcastSc, h, t)
  | .vbcastRow h t => some (form_vbcastRow, h, t)
  | .vbcastCol h t => some (form_vbcastCol, h, t)
  | .vtran h t => some (form_vtran, h, t)
  | .vcvt h t => some (form_vcvt, h, t)
  | .vpack h t => some (form_vpack, h, t)
  | .vunpk h t => some (form_vunpk, h, t)
  | .vexp2 h t => some (form_vexp2, h, t)
  | .vlog2 h t => some (form_vlog2, h, t)
  | .vrcp h t => some (form_vrcp, h, t)
  | .vrsq h t => some (form_vrsq, h, t)
  | .vwfu h t => some (form_vwfu, h, t)
  | .vwfm h t => some (form_vwfm, h, t)
  | .vmovsGet h t => some (form_vmovsGet, h, t)
  | .vmovsPut h t => some (form_vmovsPut, h, t)
  | .vspop h t => some (form_vspop, h, t)
  | .tcfg h t => some (form_tcfg, h, t)
  | .tld h t => some (form_tld, h, t)
  | .tst h t => some (form_tst, h, t)
  | .tzero h t => some (form_tzero, h, t)
  | .aclr h t => some (form_aclr, h, t)
  | .tdrain h t => some (form_tdrain, h, t)
  | .tchk h t => some (form_tchk, h, t)
  | .mmag h t => some (form_mmag, h, t)
  | .tring h t => some (form_tring, h, t)
  | .mmaBf16Bf16 h t => some (form_mmaBf16Bf16, h, t)
  | .mmaF16F16 h t => some (form_mmaF16F16, h, t)
  | .mmaE4m3E4m3 h t => some (form_mmaE4m3E4m3, h, t)
  | .mmaE4m3E5m2 h t => some (form_mmaE4m3E5m2, h, t)
  | .mmaE5m2E4m3 h t => some (form_mmaE5m2E4m3, h, t)
  | .mmaE5m2E5m2 h t => some (form_mmaE5m2E5m2, h, t)
  | .mmaE2m3E2m3 h t => some (form_mmaE2m3E2m3, h, t)
  | .mmaE2m1E2m1 h t => some (form_mmaE2m1E2m1, h, t)
  | .mmaE2m1E4m3 h t => some (form_mmaE2m1E4m3, h, t)
  | .mmaE4m3E2m1 h t => some (form_mmaE4m3E2m1, h, t)
  | .mmaLg6Lg6 h t => some (form_mmaLg6Lg6, h, t)
  | .mmaLg6E4m3 h t => some (form_mmaLg6E4m3, h, t)
  | .mmaE4m3Lg6 h t => some (form_mmaE4m3Lg6, h, t)
  | .mmaLg6E2m1 h t => some (form_mmaLg6E2m1, h, t)
  | .mmaE2m1Lg6 h t => some (form_mmaE2m1Lg6, h, t)
  | .mmaInt8Int8 h t => some (form_mmaInt8Int8, h, t)
  | .mmaMxe4m3Mxe4m3 h t => some (form_mmaMxe4m3Mxe4m3, h, t)
  | .mmaMxe2m1Mxe2m1 h t => some (form_mmaMxe2m1Mxe2m1, h, t)
  | .mmaMxe2m3Mxe2m3 h t => some (form_mmaMxe2m3Mxe2m3, h, t)
  | .mmaMxe2m1Mxe4m3 h t => some (form_mmaMxe2m1Mxe4m3, h, t)
  | .mmaMxe4m3Mxe2m1 h t => some (form_mmaMxe4m3Mxe2m1, h, t)
  | .mmaMxe5m2Mxe5m2 h t => some (form_mmaMxe5m2Mxe5m2, h, t)
  | .mmaBf16E4m3 h t => some (form_mmaBf16E4m3, h, t)
  | .mmaBf16Lg6 h t => some (form_mmaBf16Lg6, h, t)
  | .ld h t => some (form_ld, h, t)
  | .st h t => some (form_st, h, t)
  | .ldp h t => some (form_ldp, h, t)
  | .stp h t => some (form_stp, h, t)
  | .ldx h t => some (form_ldx, h, t)
  | .ldxTag h t => some (form_ldxTag, h, t)
  | .stx h t => some (form_stx, h, t)
  | .stxTag h t => some (form_stxTag, h, t)
  | .aadd h t => some (form_aadd, h, t)
  | .aand h t => some (form_aand, h, t)
  | .aor h t => some (form_aor, h, t)
  | .axor h t => some (form_axor, h, t)
  | .amin h t => some (form_amin, h, t)
  | .amax h t => some (form_amax, h, t)
  | .aswap h t => some (form_aswap, h, t)
  | .acas h t => some (form_acas, h, t)
  | .act h t => some (form_act, h, t)
  | .rld h t => some (form_rld, h, t)
  | .rst h t => some (form_rst, h, t)
  | .rred h t => some (form_rred, h, t)
  | .rredRk h t => some (form_rredRk, h, t)
  | .rcas h t => some (form_rcas, h, t)
  | .rsax h t => some (form_rsax, h, t)
  | .fence h t => some (form_fence, h, t)
  | .fenceXp h t => some (form_fenceXp, h, t)
  | .cswap h t => some (form_cswap, h, t)
  | .gset h t => some (form_gset, h, t)
  | .gclr h t => some (form_gclr, h, t)
  | .rfill h t => some (form_rfill, h, t)
  | .rldb h t => some (form_rldb, h, t)
  | .send h t => some (form_send, h, t)
  | .yield h t => some (form_yield, h, t)
  | .yieldImm h t => some (form_yieldImm, h, t)
  | .cmask h t => some (form_cmask, h, t)
  | .cunmask h t => some (form_cunmask, h, t)
  | .fork h t => some (form_fork, h, t)
  | .join h t => some (form_join, h, t)
  | .post h t => some (form_post, h, t)
  | .decz h t => some (form_decz, h, t)
  | .rngput h t => some (form_rngput, h, t)
  | .rngget h t => some (form_rngget, h, t)
  | .osub h t => some (form_osub, h, t)
  | .srset h t => some (form_srset, h, t)
  | .srctlQuery h t => some (form_srctlQuery, h, t)
  | .srctlStop h t => some (form_srctlStop, h, t)
  | .srctlRewind h t => some (form_srctlRewind, h, t)
  | .tbinit h t => some (form_tbinit, h, t)
  | .tbarr h t => some (form_tbarr, h, t)
  | .tbexp h t => some (form_tbexp, h, t)
  | .tbwait h t => some (form_tbwait, h, t)
  | .tbwaitB h t => some (form_tbwaitB, h, t)
  | .tbtest h t => some (form_tbtest, h, t)
  | .lfind h t => some (form_lfind, h, t)
  | .lput h t => some (form_lput, h, t)
  | .lrel h t => some (form_lrel, h, t)
  | .lstatRead h t => some (form_lstatRead, h, t)
  | .lstatConfig h t => some (form_lstatConfig, h, t)
  | .lstatClose h t => some (form_lstatClose, h, t)
  | .launch h t => some (form_launch, h, t)
  | .dispatch => none
  | .stageWaitExpire => none
  | .stealRequest => none
  | .stealServe => none
  | .stealReply => none
  | .releaseAccept => none
  | .spanHashCompare => none
  | .spanTwinTimeout => none
  | .continuationEnqueue => none
  | .gangAdmit => none
  | .taskJoinSubtract => none
  | .stackGrowService => none
  | .preemption => none
  | .contextSave => none
  | .contextRestore => none
  | .contextKill => none
  | .blockingTimeout => none
  | .packetResendTimeout => none
  | .storePerform => none
  | .localAtomicPerform => none
  | .guardBitsPerform => none
  | .writeMergeDrain => none
  | .messageArrival => none
  | .joinCountAdd => none
  | .dequePush => none
  | .deczPerform => none
  | .readyRingConvert => none
  | .ringPutPerform => none
  | .ringPutRetry => none
  | .ringPutAbandon => none
  | .launchQueueWrite => none
  | .launchWriteAbandon => none
  | .launchRecordTake => none
  | .keyedLookupResult => none
  | .launchComplete => none
  | .pacerRead => none
  | .osubPerform => none
  | .osubAbandon => none
  | .outriderAccept => none
  | .outriderCmdStart => none
  | .copyTransfer => none
  | .copyComplete => none
  | .streamSlotFill => none
  | .listStart => none
  | .listBranch => none
  | .listEnd => none
  | .stalledSlot => none
  | .agentRld => none
  | .agentRst => none
  | .agentRred => none
  | .agentRredRk => none
  | .rredRkExpire => none
  | .agentRcas => none
  | .agentRsax => none
  | .agentRfill => none
  | .agentRldb => none
  | .agentRemapResume => none
  | .replyArrival => none
  | .barrierArrival => none
  | .sectorCompletion => none
  | .tbinitPerform => none
  | .tbexpPerform => none
  | .matrixCmdArrival => none
  | .matrixCmdTake => none
  | .matrixSwap => none
  | .tcfgPerform => none
  | .tldStep => none
  | .tstStep => none
  | .tzeroPerform => none
  | .aclrPerform => none
  | .tdrainStep => none
  | .tchkPerform => none
  | .mmaStep => none
  | .mmagStep => none
  | .ringSlotCopy => none
  | .tringInstall => none
  | .castoffTile => none
  | .carriageStepResume => none
  | .cableSwapStart => none
  | .cableSwapComplete => none
  | .refresh => none
  | .thermalSample => none
  | .scrubRead => none
  | .rowRepairComplete => none
  | .vaultBusParityError => none
  | .tileRetire => none
  | .tlbWalk => none
  | .packetInject => none
  | .flitAdvance => none
  | .escapeEnter => none
  | .ejectTimeout => none
  | .escapeSlotReserve => none
  | .escapeArrival => none
  | .closForward => none
  | .closEvict => none
  | .packetArrival => none
  | .ackArrival => none
  | .nackArrival => none
  | .lifelineEntryRequest => none
  | .lfindPerform => none
  | .lputPerform => none
  | .lrelPerform => none
  | .lstatReadPerform => none
  | .lstatConfigPerform => none
  | .lstatClosePerform => none
  | .lifelineReply => none
  | .hdmRead => none
  | .hdmWrite => none
  | .peerInboundAccess => none
  | .xaoldFlitError => none
  | .mailboxRegisterWrite => none
  | .readLog => none
  | .readCounters => none
  | .selectPerf => none
  | .setPower => none
  | .quiesceComplete => none
  | .readThermal => none
  | .preempt => none
  | .resume => none
  | .kill => none
  | .setRoute => none
  | .peerEnable => none
  | .attest => none
  | .inject => none
  | .errorLogPost => none
  | .moduleReset => none
  | .hobbleWindow => none
  | .computeDieOvertemp => none
  | .illegalOpcode .. => none
  | .badOpc => none
  | .ideKm => none

end Sys2Proof.Machine
end

