-- ==== Sys2Proof/WellFormed.lean ====
section
/-! DEFINITION. Well-formed instructions: an encoded instruction whose tail its form accepts and
whose guard R90 allows, a reserved opcode, or a device event. -/

namespace Sys2Proof

/-- The assigned opcode values (R110). -/
def opcAssigned (n : Nat) : Bool :=
  decide (0x01 ≤ n ∧ n ≤ 0x38) || decide (0x40 ≤ n ∧ n ≤ 0x5B) || decide (0x60 ≤ n ∧ n ≤ 0x7B) ||
  decide (0x80 ≤ n ∧ n ≤ 0x9B) || decide (0xA0 ≤ n ∧ n ≤ 0xBF) || decide (0xC0 ≤ n ∧ n ≤ 0xDB) ||
  decide (0xE0 ≤ n ∧ n ≤ 0xF7)

/-- The tail of a TLEN value has no bits above its length. -/
def rawFits (tlen : BitVec 2) (raw : BitVec 48) : Bool := decide (raw.toNat < 2 ^ (16 * tlen.toNat))

/-- Well-formedness of an instruction. -/
def Instr.wf (i : Instr) : Bool :=
  match i with
  | .illegalOpcode _ opc tlen _ raw => !opcAssigned opc.toNat && rawFits tlen raw
  | i =>
    match Machine.instrParts i with
    | some (F, h, t) => Machine.formAccepts F t && Machine.headOk h
    | none => true

end Sys2Proof
end

