-- ==== Sys2Proof/Decode.lean ====
section
/-! DEFINITION. The decoder: total on any bits, rejecting by name, and after it the encoder. A
code line is 64 bytes (R86); a head is 16 bits (R89) and its tail up to 6 bytes (R93, R101). -/

namespace Sys2Proof

/-- Why a head is rejected on its encoding alone (R109 items 1 and 2). -/
inductive DecodeError where
  | illegalOpcode
  | illegalOperand
  deriving DecidableEq, Repr

/-- What the decoder answers. -/
inductive Decoded where
  | ok (i : Instr)
  | bad (e : DecodeError)
  deriving DecidableEq, Repr

/-- One row of the opcode map: its form and the instruction it makes. -/
structure Row where
  form : Machine.Form
  build : Head → Tail → Instr

/-- Rows of the opcode map (R110), piece 0. -/
def rows0 : List Row :=
  [⟨Machine.form_add, .add⟩,
   ⟨Machine.form_sub, .sub⟩,
   ⟨Machine.form_mul, .mul⟩,
   ⟨Machine.form_mulh, .mulh⟩,
   ⟨Machine.form_madd, .madd⟩,
   ⟨Machine.form_div, .div⟩,
   ⟨Machine.form_rem, .rem⟩,
   ⟨Machine.form_neg, .neg⟩,
   ⟨Machine.form_abs, .abs⟩,
   ⟨Machine.form_min, .min⟩,
   ⟨Machine.form_max, .max⟩,
   ⟨Machine.form_adds, .adds⟩,
   ⟨Machine.form_subs, .subs⟩,
   ⟨Machine.form_and, .and⟩,
   ⟨Machine.form_or, .or⟩,
   ⟨Machine.form_xor, .xor⟩,
   ⟨Machine.form_andn, .andn⟩,
   ⟨Machine.form_orn, .orn⟩,
   ⟨Machine.form_not, .not⟩,
   ⟨Machine.form_shl, .shl⟩,
   ⟨Machine.form_shr, .shr⟩,
   ⟨Machine.form_sar, .sar⟩,
   ⟨Machine.form_rol, .rol⟩,
   ⟨Machine.form_ror, .ror⟩,
   ⟨Machine.form_clz, .clz⟩,
   ⟨Machine.form_ctz, .ctz⟩,
   ⟨Machine.form_popc, .popc⟩,
   ⟨Machine.form_brev, .brev⟩,
   ⟨Machine.form_bswap, .bswap⟩,
   ⟨Machine.form_bfx, .bfx⟩,
   ⟨Machine.form_bfi, .bfi⟩,
   ⟨Machine.form_ext, .ext⟩,
   ⟨Machine.form_cmp, .cmp⟩,
   ⟨Machine.form_test, .test⟩,
   ⟨Machine.form_sel, .sel⟩,
   ⟨Machine.form_mov, .mov⟩,
   ⟨Machine.form_ldi, .ldi⟩,
   ⟨Machine.form_ldih, .ldih⟩,
   ⟨Machine.form_ldk, .ldk⟩,
   ⟨Machine.form_lea, .lea⟩]

/-- Rows of the opcode map (R110), piece 1. -/
def rows1 : List Row :=
  [⟨Machine.form_crc, .crc⟩,
   ⟨Machine.form_fnv, .fnv⟩,
   ⟨Machine.form_coord, .coord⟩,
   ⟨Machine.form_alignup, .alignup⟩,
   ⟨Machine.form_aligndn, .aligndn⟩,
   ⟨Machine.form_bound, .bound⟩,
   ⟨Machine.form_bset, .bset⟩,
   ⟨Machine.form_bclr, .bclr⟩,
   ⟨Machine.form_btst, .btst⟩,
   ⟨Machine.form_binv, .binv⟩,
   ⟨Machine.form_perm, .perm⟩,
   ⟨Machine.form_cls, .cls⟩,
   ⟨Machine.form_absd, .absd⟩,
   ⟨Machine.form_avg, .avg⟩,
   ⟨Machine.form_mulw, .mulw⟩,
   ⟨Machine.form_shladd, .shladd⟩,
   ⟨Machine.form_fadd, .fadd⟩,
   ⟨Machine.form_fsub, .fsub⟩,
   ⟨Machine.form_fmul, .fmul⟩,
   ⟨Machine.form_fdiv, .fdiv⟩,
   ⟨Machine.form_fsqrt, .fsqrt⟩,
   ⟨Machine.form_fma, .fma⟩,
   ⟨Machine.form_fms, .fms⟩,
   ⟨Machine.form_fnma, .fnma⟩,
   ⟨Machine.form_fmin, .fmin⟩,
   ⟨Machine.form_fmax, .fmax⟩,
   ⟨Machine.form_fabs, .fabs⟩,
   ⟨Machine.form_fneg, .fneg⟩,
   ⟨Machine.form_fcpys, .fcpys⟩,
   ⟨Machine.form_fcmp, .fcmp⟩,
   ⟨Machine.form_fclass, .fclass⟩,
   ⟨Machine.form_frint, .frint⟩,
   ⟨Machine.form_fcvt, .fcvt⟩,
   ⟨Machine.form_fcvti, .fcvti⟩,
   ⟨Machine.form_icvtf, .icvtf⟩,
   ⟨Machine.form_fcvtn, .fcvtn⟩,
   ⟨Machine.form_fcvtw, .fcvtw⟩,
   ⟨Machine.form_fminnum, .fminnum⟩,
   ⟨Machine.form_fmaxnum, .fmaxnum⟩,
   ⟨Machine.form_fscale, .fscale⟩]

/-- Rows of the opcode map (R110), piece 2. -/
def rows2 : List Row :=
  [⟨Machine.form_flogb, .flogb⟩,
   ⟨Machine.form_fexp2, .fexp2⟩,
   ⟨Machine.form_frcp, .frcp⟩,
   ⟨Machine.form_frsq, .frsq⟩,
   ⟨Machine.form_br, .br⟩,
   ⟨Machine.form_brz, .brz⟩,
   ⟨Machine.form_brnz, .brnz⟩,
   ⟨Machine.form_jmp, .jmp⟩,
   ⟨Machine.form_call, .call⟩,
   ⟨Machine.form_calli, .calli⟩,
   ⟨Machine.form_ret, .ret⟩,
   ⟨Machine.form_loop, .loop⟩,
   ⟨Machine.form_loopr, .loopr⟩,
   ⟨Machine.form_lbrk, .lbrk⟩,
   ⟨Machine.form_pand, .pand⟩,
   ⟨Machine.form_por, .por⟩,
   ⟨Machine.form_pxor, .pxor⟩,
   ⟨Machine.form_pnot, .pnot⟩,
   ⟨Machine.form_pset, .pset⟩,
   ⟨Machine.form_pmov, .pmov⟩,
   ⟨Machine.form_trap, .trap⟩,
   ⟨Machine.form_syscall, .syscall⟩,
   ⟨Machine.form_sysret, .sysret⟩,
   ⟨Machine.form_crd, .crd⟩,
   ⟨Machine.form_cwr, .cwr⟩,
   ⟨Machine.form_halt, .halt⟩,
   ⟨Machine.form_nop, .nop⟩,
   ⟨Machine.form_pause, .pause⟩,
   ⟨Machine.form_rdcyc, .rdcyc⟩,
   ⟨Machine.form_psave, .psave⟩,
   ⟨Machine.form_pload, .pload⟩,
   ⟨Machine.form_bkpt, .bkpt⟩,
   ⟨Machine.form_vshape, .vshape⟩,
   ⟨Machine.form_vld, .vld⟩,
   ⟨Machine.form_vst, .vst⟩,
   ⟨Machine.form_vgath, .vgath⟩,
   ⟨Machine.form_vadd, .vadd⟩,
   ⟨Machine.form_vsub, .vsub⟩,
   ⟨Machine.form_vmul, .vmul⟩,
   ⟨Machine.form_vfma, .vfma⟩]

/-- Rows of the opcode map (R110), piece 3. -/
def rows3 : List Row :=
  [⟨Machine.form_vmin, .vmin⟩,
   ⟨Machine.form_vmax, .vmax⟩,
   ⟨Machine.form_vdiv, .vdiv⟩,
   ⟨Machine.form_vcmp, .vcmp⟩,
   ⟨Machine.form_vsel, .vsel⟩,
   ⟨Machine.form_vredr, .vredr⟩,
   ⟨Machine.form_vredc, .vredc⟩,
   ⟨Machine.form_vbcastSc, .vbcastSc⟩,
   ⟨Machine.form_vbcastRow, .vbcastRow⟩,
   ⟨Machine.form_vbcastCol, .vbcastCol⟩,
   ⟨Machine.form_vtran, .vtran⟩,
   ⟨Machine.form_vcvt, .vcvt⟩,
   ⟨Machine.form_vpack, .vpack⟩,
   ⟨Machine.form_vunpk, .vunpk⟩,
   ⟨Machine.form_vexp2, .vexp2⟩,
   ⟨Machine.form_vlog2, .vlog2⟩,
   ⟨Machine.form_vrcp, .vrcp⟩,
   ⟨Machine.form_vrsq, .vrsq⟩,
   ⟨Machine.form_vwfu, .vwfu⟩,
   ⟨Machine.form_vwfm, .vwfm⟩,
   ⟨Machine.form_vmovsGet, .vmovsGet⟩,
   ⟨Machine.form_vmovsPut, .vmovsPut⟩,
   ⟨Machine.form_vspop, .vspop⟩,
   ⟨Machine.form_tcfg, .tcfg⟩,
   ⟨Machine.form_tld, .tld⟩,
   ⟨Machine.form_tst, .tst⟩,
   ⟨Machine.form_tzero, .tzero⟩,
   ⟨Machine.form_aclr, .aclr⟩,
   ⟨Machine.form_tdrain, .tdrain⟩,
   ⟨Machine.form_tchk, .tchk⟩,
   ⟨Machine.form_mmag, .mmag⟩,
   ⟨Machine.form_tring, .tring⟩,
   ⟨Machine.form_mmaBf16Bf16, .mmaBf16Bf16⟩,
   ⟨Machine.form_mmaF16F16, .mmaF16F16⟩,
   ⟨Machine.form_mmaE4m3E4m3, .mmaE4m3E4m3⟩,
   ⟨Machine.form_mmaE4m3E5m2, .mmaE4m3E5m2⟩,
   ⟨Machine.form_mmaE5m2E4m3, .mmaE5m2E4m3⟩,
   ⟨Machine.form_mmaE5m2E5m2, .mmaE5m2E5m2⟩,
   ⟨Machine.form_mmaE2m3E2m3, .mmaE2m3E2m3⟩,
   ⟨Machine.form_mmaE2m1E2m1, .mmaE2m1E2m1⟩]

/-- Rows of the opcode map (R110), piece 4. -/
def rows4 : List Row :=
  [⟨Machine.form_mmaE2m1E4m3, .mmaE2m1E4m3⟩,
   ⟨Machine.form_mmaE4m3E2m1, .mmaE4m3E2m1⟩,
   ⟨Machine.form_mmaLg6Lg6, .mmaLg6Lg6⟩,
   ⟨Machine.form_mmaLg6E4m3, .mmaLg6E4m3⟩,
   ⟨Machine.form_mmaE4m3Lg6, .mmaE4m3Lg6⟩,
   ⟨Machine.form_mmaLg6E2m1, .mmaLg6E2m1⟩,
   ⟨Machine.form_mmaE2m1Lg6, .mmaE2m1Lg6⟩,
   ⟨Machine.form_mmaInt8Int8, .mmaInt8Int8⟩,
   ⟨Machine.form_mmaMxe4m3Mxe4m3, .mmaMxe4m3Mxe4m3⟩,
   ⟨Machine.form_mmaMxe2m1Mxe2m1, .mmaMxe2m1Mxe2m1⟩,
   ⟨Machine.form_mmaMxe2m3Mxe2m3, .mmaMxe2m3Mxe2m3⟩,
   ⟨Machine.form_mmaMxe2m1Mxe4m3, .mmaMxe2m1Mxe4m3⟩,
   ⟨Machine.form_mmaMxe4m3Mxe2m1, .mmaMxe4m3Mxe2m1⟩,
   ⟨Machine.form_mmaMxe5m2Mxe5m2, .mmaMxe5m2Mxe5m2⟩,
   ⟨Machine.form_mmaBf16E4m3, .mmaBf16E4m3⟩,
   ⟨Machine.form_mmaBf16Lg6, .mmaBf16Lg6⟩,
   ⟨Machine.form_ld, .ld⟩,
   ⟨Machine.form_st, .st⟩,
   ⟨Machine.form_ldp, .ldp⟩,
   ⟨Machine.form_stp, .stp⟩,
   ⟨Machine.form_ldx, .ldx⟩,
   ⟨Machine.form_ldxTag, .ldxTag⟩,
   ⟨Machine.form_stx, .stx⟩,
   ⟨Machine.form_stxTag, .stxTag⟩,
   ⟨Machine.form_aadd, .aadd⟩,
   ⟨Machine.form_aand, .aand⟩,
   ⟨Machine.form_aor, .aor⟩,
   ⟨Machine.form_axor, .axor⟩,
   ⟨Machine.form_amin, .amin⟩,
   ⟨Machine.form_amax, .amax⟩,
   ⟨Machine.form_aswap, .aswap⟩,
   ⟨Machine.form_acas, .acas⟩,
   ⟨Machine.form_act, .act⟩,
   ⟨Machine.form_rld, .rld⟩,
   ⟨Machine.form_rst, .rst⟩,
   ⟨Machine.form_rred, .rred⟩,
   ⟨Machine.form_rredRk, .rredRk⟩,
   ⟨Machine.form_rcas, .rcas⟩,
   ⟨Machine.form_rsax, .rsax⟩,
   ⟨Machine.form_fence, .fence⟩]

/-- Rows of the opcode map (R110), piece 5. -/
def rows5 : List Row :=
  [⟨Machine.form_fenceXp, .fenceXp⟩,
   ⟨Machine.form_cswap, .cswap⟩,
   ⟨Machine.form_gset, .gset⟩,
   ⟨Machine.form_gclr, .gclr⟩,
   ⟨Machine.form_rfill, .rfill⟩,
   ⟨Machine.form_rldb, .rldb⟩,
   ⟨Machine.form_send, .send⟩,
   ⟨Machine.form_yield, .yield⟩,
   ⟨Machine.form_yieldImm, .yieldImm⟩,
   ⟨Machine.form_cmask, .cmask⟩,
   ⟨Machine.form_cunmask, .cunmask⟩,
   ⟨Machine.form_fork, .fork⟩,
   ⟨Machine.form_join, .join⟩,
   ⟨Machine.form_post, .post⟩,
   ⟨Machine.form_decz, .decz⟩,
   ⟨Machine.form_rngput, .rngput⟩,
   ⟨Machine.form_rngget, .rngget⟩,
   ⟨Machine.form_osub, .osub⟩,
   ⟨Machine.form_srset, .srset⟩,
   ⟨Machine.form_srctlQuery, .srctlQuery⟩,
   ⟨Machine.form_srctlStop, .srctlStop⟩,
   ⟨Machine.form_srctlRewind, .srctlRewind⟩,
   ⟨Machine.form_tbinit, .tbinit⟩,
   ⟨Machine.form_tbarr, .tbarr⟩,
   ⟨Machine.form_tbexp, .tbexp⟩,
   ⟨Machine.form_tbwait, .tbwait⟩,
   ⟨Machine.form_tbwaitB, .tbwaitB⟩,
   ⟨Machine.form_tbtest, .tbtest⟩,
   ⟨Machine.form_lfind, .lfind⟩,
   ⟨Machine.form_lput, .lput⟩,
   ⟨Machine.form_lrel, .lrel⟩,
   ⟨Machine.form_lstatRead, .lstatRead⟩,
   ⟨Machine.form_lstatConfig, .lstatConfig⟩,
   ⟨Machine.form_lstatClose, .lstatClose⟩,
   ⟨Machine.form_launch, .launch⟩]

/-- The opcode map (R110): every assigned opcode with its forms. -/
def opcodeRows : List Row := rows0 ++ rows1 ++ rows2 ++ rows3 ++ rows4 ++ rows5

/-! ### Fields -/

/-- A 6-bit source specifier (R97); the reserved codes have none. -/
def decodeSrc (c : BitVec 6) : Option Src :=
  match c.toNat / 16 with
  | 0 => some (.q (BitVec.ofNat 4 c.toNat))
  | 1 => some (.n (BitVec.ofNat 5 (c.toNat % 16)))
  | 2 => some (.n (BitVec.ofNat 5 (16 + c.toNat % 16)))
  | _ =>
    match c.toNat % 16 with
    | 0 => some .zero
    | 1 => some .lit
    | 2 => some .k
    | n => if n ≥ 12 then some (.pop (BitVec.ofNat 2 n)) else none

/-- The 6-bit code of a source specifier (R97). -/
def encodeSrc : Src → BitVec 6
  | .q i => BitVec.ofNat 6 i.toNat
  | .n i => BitVec.ofNat 6 (16 + i.toNat)
  | .zero => 0b110000
  | .lit => 0b110001
  | .k => 0b110010
  | .pop s => BitVec.ofNat 6 (0b111100 + s.toNat)

/-- The destination field with the head's D bit (R92): with D = 1 a named register, with D = 0
zero; anything else is refused. -/
def decodeDest (d : Bool) (c : BitVec 6) : Option Dest :=
  if d then
    match decodeSrc c with
    | some (.n i) => some (some i)
    | _ => none
  else if c = 0 then some none else none

/-- The destination field (R92). -/
def encodeDest : Dest → BitVec 6
  | none => 0
  | some i => encodeSrc (.n i)

/-- A field of the tail, as a bit vector. -/
def tailFld (raw : BitVec 48) (lo w : Nat) : BitVec w := BitVec.ofNat w (raw.toNat >>> lo)

/-- The tail of a layout, from its bits (R101). -/
def decodeTail (k : Machine.LayoutK) (d : Bool) (raw : BitVec 48) : Option Tail :=
  match k with
  | .e0 => if d then none else some .none
  | .t16 =>
    match d, decodeSrc (tailFld raw 6 6), decodeSrc (tailFld raw 0 6) with
    | false, some b, some a => some (.t16 (tailFld raw 12 4) b a)
    | _, _, _ => none
  | .i20 =>
    match d, decodeSrc (tailFld raw 0 6) with
    | false, some a => some (.i20 (tailFld raw 12 20) a)
    | _, _ => none
  | .t32 =>
    match decodeDest d (tailFld raw 18 6), decodeSrc (tailFld raw 12 6),
      decodeSrc (tailFld raw 6 6), decodeSrc (tailFld raw 0 6) with
    | some dd, some c, some b, some a => some (.t32 (tailFld raw 24 8) dd c b a)
    | _, _, _, _ => none
  | .t48l =>
    match decodeDest d (tailFld raw 6 6), decodeSrc (tailFld raw 0 6) with
    | some dd, some a => some (.t48l (tailFld raw 16 32) (tailFld raw 12 4) dd a)
    | _, _ => none
  | .t48x =>
    match decodeDest d (tailFld raw 18 6), decodeSrc (tailFld raw 12 6),
      decodeSrc (tailFld raw 6 6), decodeSrc (tailFld raw 0 6) with
    | some dd, some c, some b, some a =>
      some (.t48x (tailFld raw 32 16) (tailFld raw 24 8) dd c b a)
    | _, _, _, _ => none

/-- The layouts of a TLEN value, the I20 marker first (R101, R102). -/
def tlenLayouts (tlen : Nat) (marker : Bool) : List Machine.LayoutK :=
  match tlen with
  | 0 => [.e0]
  | 1 => [.t16]
  | 2 => if marker then [.i20, .t32] else [.t32]
  | _ => [.t48l, .t48x]

/-- Decodes one head with its tail, whose bytes are the low bytes of `raw` (R89, R101). A
reserved opcode is an instruction of its own: it issues and faults (R110). A TLEN value with no
form for its opcode, or a specifier, D or modifier that its form does not allow, is rejected by
name. -/
def decodeHead (head : BitVec 16) (raw : BitVec 48) : Decoded :=
  let opc := head.toNat / 256
  let tlen := head.toNat / 64 % 4
  let h : Head := ⟨BitVec.ofNat 3 (head.toNat / 4), head.getLsbD 1, head.getLsbD 5⟩
  let d := head.getLsbD 0
  let rs := opcodeRows.filter (fun r => r.form.opc == opc)
  if rs.isEmpty then
    .ok (.illegalOpcode h (BitVec.ofNat 8 opc) (BitVec.ofNat 2 tlen) d raw)
  else
    let marker := tailFld raw 6 6 == (0b110001 : BitVec 6) && rs.any (fun r => r.form.lays.contains .i20)
    let ls := tlenLayouts tlen marker
    match ls.find? (fun l => rs.any (fun r => r.form.lays.contains l)) with
    | none => .bad .illegalOpcode
    | some l =>
      match decodeTail l d raw with
      | none => .bad .illegalOperand
      | some t =>
        match rs.find? (fun r => Machine.formAccepts r.form t) with
        | none => .bad .illegalOperand
        | some r => if Machine.headOk h then .ok (r.build h t) else .bad .illegalOperand

/-! ### Encoding -/

/-- TLEN of a tail. -/
def encodeTlen : Tail → Nat
  | .none => 0
  | .t16 .. => 1
  | .i20 .. | .t32 .. => 2
  | .t48l .. | .t48x .. => 3

/-- The bits of a tail (R101). -/
def encodeTail : Tail → BitVec 48
  | .none => 0
  | .t16 m b a => BitVec.ofNat 48 (m.toNat * 2 ^ 12 + (encodeSrc b).toNat * 2 ^ 6 + (encodeSrc a).toNat)
  | .i20 v a => BitVec.ofNat 48 (v.toNat * 2 ^ 12 + 0b110001 * 2 ^ 6 + (encodeSrc a).toNat)
  | .t32 m d c b a =>
    BitVec.ofNat 48 (m.toNat * 2 ^ 24 + (encodeDest d).toNat * 2 ^ 18 + (encodeSrc c).toNat * 2 ^ 12
      + (encodeSrc b).toNat * 2 ^ 6 + (encodeSrc a).toNat)
  | .t48l v m d a =>
    BitVec.ofNat 48 (v.toNat * 2 ^ 16 + m.toNat * 2 ^ 12 + (encodeDest d).toNat * 2 ^ 6
      + (encodeSrc a).toNat)
  | .t48x f m d c b a =>
    BitVec.ofNat 48 (f.toNat * 2 ^ 32 + m.toNat * 2 ^ 24 + (encodeDest d).toNat * 2 ^ 18
      + (encodeSrc c).toNat * 2 ^ 12 + (encodeSrc b).toNat * 2 ^ 6 + (encodeSrc a).toNat)

/-- The head word of a form (R89). -/
def encodeHeadWord (opc tlen : Nat) (h : Head) (d : Bool) : BitVec 16 :=
  BitVec.ofNat 16 (opc * 256 + tlen * 64 + h.chain.toNat * 32 + h.pred.toNat * 4
    + h.sense.toNat * 2 + d.toNat)

/-- The head and tail bits of an instruction; a device event has no encoding. -/
def encode (i : Instr) : Option (BitVec 16 × BitVec 48) :=
  match i with
  | .illegalOpcode h opc tlen d raw => some (encodeHeadWord opc.toNat tlen.toNat h d, raw)
  | i =>
    match Machine.instrParts i with
    | none => none
    | some (F, h, t) =>
      some (encodeHeadWord F.opc (encodeTlen t) h (Machine.tailD t).isSome, encodeTail t)

/-! ### Lines (R86, R87) -/

/-- The head count H and the validity of the line word: H nonzero, KIND 0b00, bits [8:0] zero. -/
def lineWordOk (lw : BitVec 16) : Bool := lw.toNat / 2048 != 0 && lw.toNat % 2048 == 0

/-- H of a line word. -/
def lineH (lw : BitVec 16) : Nat := lw.toNat / 2048

/-- Head word `i` of a line, 1 to H (R89). -/
def lineHead (line : List Byte) (i : Nat) : BitVec 16 := BitVec.ofNat 16 (Machine.natAt line (2 * i) 2)

/-- Tail bytes of the heads up to `i`: C(i) of R93. -/
def linePrefix (line : List Byte) : Nat → Nat
  | 0 => 0
  | i + 1 => linePrefix line i + 2 * ((lineHead line (i + 1)).toNat / 64 % 4)

/-- The tail bits of head `i` (R93). -/
def lineTail (line : List Byte) (i : Nat) : BitVec 48 :=
  let len := 2 * ((lineHead line i).toNat / 64 % 4)
  BitVec.ofNat 48 (Machine.natAt line (64 - linePrefix line i) len)

/-- CHAIN of head `i`. -/
def lineChain (line : List Byte) (i : Nat) : Bool := (lineHead line i).getLsbD 5

/-- The control-transfer opcodes (R95). -/
def isXferOpc (opc : Nat) : Bool :=
  decide (0x60 ≤ opc ∧ opc ≤ 0x66) || opc == 0x69 || decide (0x70 ≤ opc ∧ opc ≤ 0x72) ||
  opc == 0x75 || opc == 0xE1

/-- Checks the bundles of heads `i`, ..., with `n` heads left: at most three heads and one
control transfer in a bundle, and the last head unchained (R87, R94, R95). `len` and `xf` count
the heads and transfers of the bundle so far. -/
def bundlesOk (line : List Byte) : Nat → Nat → Nat → Nat → Bool
  | 0, _, len, _ => len == 0
  | n + 1, i, len, xf =>
    let x := xf + (isXferOpc ((lineHead line i).toNat / 256)).toNat
    decide (len + 1 ≤ 3) && decide (x ≤ 1) &&
    (if lineChain line i then bundlesOk line n (i + 1) (len + 1) x
     else bundlesOk line n (i + 1) 0 0)

/-- Line validity (R87). -/
def lineValid (line : List Byte) : Bool :=
  let lw := BitVec.ofNat 16 (Machine.natAt line 0 2)
  let H := lineH lw
  let T := linePrefix line H
  lineWordOk lw && decide (2 + 2 * H + T ≤ 64) &&
  Machine.natAt line (2 * H + 2) (64 - T - (2 * H + 2)) == 0 &&
  bundlesOk line H 1 0 0

/-- Whether head `n` is the first of its bundle (R94). -/
def isBundleStart (line : List Byte) (n : Nat) : Bool := n == 1 || !lineChain line (n - 1)

/-- The last head of the bundle that holds head `i`, looking at most `k` heads on. -/
def bundleLast (line : List Byte) : Nat → Nat → Nat
  | 0, i => i
  | k + 1, i => if lineChain line i then bundleLast line k (i + 1) else i

/-- Decodes head `i` of a line. -/
def decodeLineHead (line : List Byte) (i : Nat) : Decoded :=
  decodeHead (lineHead line i) (lineTail line i)

/-- The one-head line that holds a head and its tail: line word H = 1, the head at bytes 2-3,
the tail at the top (R86, R93). -/
def oneHeadLine (head : BitVec 16) (raw : BitVec 48) : List Byte :=
  let tl := 2 * (head.toNat / 64 % 4)
  Machine.bytesLE 2 0x0800 ++ Machine.bytesLE 2 head.toNat ++
    List.replicate (60 - tl) 0 ++ Machine.bytesLE tl raw.toNat

/-- The instruction the decoder reads from a head whose bits are `w`: bits [15:0] are the head
word and the bits above are its tail, all zero beyond `nbits`. The head and tail are laid out in a
line and decoded from it. -/
def decodeTableWord (nbits w : Nat) : Option Instr :=
  let v := w % 2 ^ nbits
  let line := oneHeadLine (BitVec.ofNat 16 v) (BitVec.ofNat 48 (v / 2 ^ 16))
  if lineValid line then
    match decodeLineHead line 1 with
    | .ok i => some i
    | .bad _ => none
  else none

end Sys2Proof
end

