-- ==== Sys2Proof/Config.lean ====
section
/-! DEFINITION. What an implementation fixes and the values the spec leaves open. An opaque
constant has no body: no proof can see its value, so what is proved holds for every value. -/

namespace Sys2Proof.Config

/-- A byte that the spec gives no value (DESIGN CHOICE, log 6): byte `i` of the value that the machine meets
when its counter of free values stands at `k`. It stands for what a guarded load delivers
(R256) or one that its home
rejects (R294), what a read that completes with poison delivers (R417, R427), and the XMSS signatures
(R426). -/
opaque freeByte : Nat → Nat → Byte

/-- `n` free bytes from position `i`. -/
def freeBytes (k i n : Nat) : List Byte := (List.range n).map (fun j => freeByte k (i + j))

/-- Byte `i` of the SHAKE256 digest of the firmware image of the given bytes (R426; DESIGN CHOICE, log 6). -/
opaque firmwareDigest : List Byte → Nat → Byte

/-- Byte `i` of the SHAKE256 digest of a configuration image (R426; DESIGN CHOICE, log 6). -/
opaque configDigest : CfgImage → Nat → Byte

/-- The scratchpad bank of a tile-local offset, which a GUARD report gives (R256): the spec names
128 banks and not their interleave (DESIGN CHOICE, log 6). -/
opaque scratchBank : Nat → BitVec 7

/-- The offset in that bank (DESIGN CHOICE, log 6). -/
opaque scratchRow : Nat → BitVec 14

/-- First byte of the private frames in a tile's scratchpad; context 4p + c has the 4 KiB frame
at this offset + 4096 * (4p + c) (R31; DESIGN CHOICE, log 4). -/
def frameBase : Nat := 0x1D0000

/-- First byte of the stack windows in a tile's scratchpad; context 4p + c has the 4 KiB window at this
offset + 4096 * (4p + c) (R140, R242; DESIGN CHOICE, log 4). -/
def windowBase : Nat := 0x1C0000

/-- Base of the stack reservations: the reservation of context number g of the module ends at
this address + (g + 1) * 2^32 (R140; DESIGN CHOICE, log 4). -/
def stackBase : Nat := 0x800000000000

/-- The stack pages of one context that lie in its tile's vault: a sixteenth of it. Any further page has a
place of its own (R140, R141; DESIGN CHOICE, log 4). -/
def stackPages : Nat := 512

/-- The logical vault page that holds page `k`, counted down from the top, of the stack of
context 4p + c = `i` of a tile (R140; DESIGN CHOICE, log 4). -/
def stackLpn (i k : Nat) : Nat := 8191 - (16 * k + i)

/-- First byte of the table area (R369). -/
def tableArea : Nat := 0x1E0000

/-- Bytes of the effects buffer (R36). -/
def bufferBytes : Nat := 4096

/-- Data bytes that one packet of a held store carries: the 240 of R350 less a 16-byte header (DESIGN CHOICE,
log 9). -/
def chunk : Nat := 224

end Sys2Proof.Config
end

