-- ==== Sys2Proof/Machine/State.lean ====
section
/-! DEFINITION. The machine's state: plain data that holds everything the spec gives the
module, and the state after reset. Every table (contexts, tiles, launches) is a list of
(index, record) pairs; an index that is not listed is at its reset value.

Endpoints are numbered 0-1,023 for tiles (32 * y + x) and 1,024 + i for service index i (R358).
Contexts are numbered 16 * tile + 4p + c (R19). A memory key names one byte of the module, of
the host or of a peer (`Machine.keyScratch` and its neighbours in Ops). -/

namespace Sys2Proof.Machine

/-! ### Barriers, tags, effects and the work a packet asks for -/

/-- A transaction barrier: its home tile and its tile-local byte offset (R397). -/
structure Bar where
  tile : Nat
  off : Nat
  deriving DecidableEq, Repr

/-- The address-space tag of an access: ASID and issue generation (R294). `none` where the
access is checked against no generation (host, hardware and physical accesses). -/
abbrev GenTag := Option (Nat × Nat)

/-- What kind of trigger starts an activation (R30). -/
inductive TrigKind where
  | msg
  | task
  | cont
  deriving DecidableEq, Repr

/-- A trigger: a message, a task record or a continuation (R30, R33, R301, R310). `cls` is the
route class of a message and the context class of a continuation; `eff` is the priority raised
by inheritance (R55); `time` is its arrival or push time and `passes` its count under R54. -/
structure Trigger where
  kind : TrigKind
  pc : Nat
  cls : Nat
  pri : Nat
  eff : Nat
  lslot : Nat
  payload : List Byte
  join : Option (Nat × Nat)
  nosteal : Bool
  hints : List (Nat × Nat)
  staged : Bool
  member : Option Nat
  origin : Bool
  time : Nat
  passes : Nat
  redeliv : Nat
  rerun : Bool
  pair : Nat
  deriving DecidableEq, Repr

/-- A matrix command as buffered (R216): tail fields, routing word, operand values, CTX_CAP,
FTZ, generation tag, descriptor bytes, and who issued it. `nob` says that srcB was the zero
specifier (TCHK without a status word, R229). -/
structure MatCmd where
  opc : Nat
  modf : Nat
  ctl : Nat
  route : Word
  b : Word
  nob : Bool
  c : Word
  cap : Word
  ftz : Bool
  asid : Nat
  gen : Nat
  desc : List Byte
  tile : Nat
  ctx : Nat
  lslot : Nat
  bar : Option Bar
  deriving DecidableEq, Repr

/-- A vault-agent request (R276). `key` is the R field as a memory key; `l` the key of L and
`lp` its twin copy's key, if that differs; `pkt` the packet that brought it. -/
structure RemoteReq where
  opc : Nat
  modf : Nat
  ctl : Nat
  key : Nat
  tag : GenTag
  tile : Nat
  ctx : Nat
  act : Nat
  l : Option Nat
  lp : Option Nat
  bar : Option Bar
  v : Word
  data : List Byte
  time : Nat
  pkt : Nat
  deriving DecidableEq, Repr

/-- A reply of the vault agent or of a local atomic (R276, R267): the status, the elements or
sectors performed, the ABAND of a failure, the writes at L, the offsets from L of words to poison,
the value of a blocking form, whether it is the last reply of its request, and whether the context
consumes an error (R278). -/
structure Reply where
  req : RemoteReq
  status : Nat
  perf : Nat
  ab : Nat
  lw : List (Nat × List Byte)
  pz : List Nat
  value : Word
  last : Bool
  poison : Bool
  deriving DecidableEq, Repr

/-- A lifeline request (R385). `keyed` is the launch slot of a keyed launch's lookup (R394). -/
structure LifeReq where
  opc : Nat
  op : Nat
  tile : Nat
  ctx : Nat
  gen : Nat
  l : Nat
  bar : Option Bar
  lslot : Nat
  asid : Nat
  block : List Byte
  keyed : Option Nat
  deriving DecidableEq, Repr

/-- A ring put (R305, R306): the RCB's tile-local offset, the header word, the data. -/
structure Put where
  rcb : Nat
  hdr : Nat
  data : List Byte
  bar : Option Bar
  lslot : Nat
  time : Nat
  pkt : Nat
  deriving DecidableEq, Repr

/-- A command submission (R344): the QCB's tile-local offset and the packets. -/
structure Submission where
  qcb : Nat
  bytes : List Byte
  lslot : Nat
  tile : Nat
  time : Nat
  pkt : Nat
  deriving DecidableEq, Repr

/-- A LAUNCH record on its way to its queue (R325). -/
structure LaunchWrite where
  queue : Nat
  bytes : List Byte
  bar : Option Bar
  time : Nat
  pkt : Nat
  deriving DecidableEq, Repr

/-- A page exchange request (R281): the logical pages; no `q` brings `p` into the near layer. -/
structure Swap where
  p : Nat
  q : Option Nat
  bar : Option Bar
  busy : Bool
  lslot : Nat
  deriving DecidableEq, Repr

/-- Who awaits a packet: an activation (R279), an outrider command or matrix unit (R404), or
nobody. -/
inductive Owner where
  | none
  | act (n : Nat)
  | outrider (tile cmd : Nat)
  | matrix (tile cmd : Nat)
  deriving DecidableEq, Repr

/-- What a packet asks its destination to perform (R366). -/
inductive Work where
  /-- A held store's bytes at consecutive keys of one home (R34), and its effective address; with `more` the
  rest of the store's bytes there come in the next packet of the pair. -/
  | store (key ea : Nat) (bytes : List Byte) (tag : GenTag) (more : Bool)
  /-- A local atomic (R267): `op` is the opcode, `w` the width in bytes. -/
  | atomic (key op w : Nat) (signed : Bool) (b c : Word) (tag : GenTag) (ctx act : Nat)
  /-- A remote-procedure request (R276). -/
  | remote (r : RemoteReq)
  /-- GSET and GCLR on granules of one home (R282). -/
  | guardBits (set : Bool) (granules : List Nat)
  /-- A message (R316). -/
  | msg (t : Trigger)
  /-- The join-counter addition of a FORK or POST, with the record that waits for it and where that
  goes (R311). -/
  | joinAdd (off : Nat) (rec : Trigger) (target : Nat)
  /-- A task record for a deque (R319, R321). -/
  | task (t : Trigger)
  /-- DECZ on the codelet block at an offset (R322). -/
  | decz (off : Nat) (lslot : Nat) (bar : Option Bar)
  | ringPut (p : Put)
  | launchRec (w : LaunchWrite)
  | matrix (c : MatCmd)
  | osub (u : Submission)
  | cswap (w : Swap)
  /-- TBINIT, TBARR's arrival and TBEXP (R401), and the reports of engines (R398). -/
  | tbinit (off n : Nat)
  | tbexp (off bytes : Nat)
  | arrival (off n : Nat) (flt : Bool) (cls ab : Nat)
  | sectors (off k : Nat) (flt : Bool) (cls ab : Nat)
  | lifeline (r : LifeReq)
  | reply (r : Reply)
  /-- A lifeline reply (R385): the class its arrival carries, and the bytes for L. -/
  | lifeReply (req : LifeReq) (status cls : Nat) (data : List Byte)
  /-- A write that an engine makes at another home (R337, R366). -/
  | engWrite (key : Nat) (bytes : List Byte) (tag : GenTag)
  /-- An outrider's write of one 32-byte sector at another home: the bytes at each key, in walk order
  (R337). -/
  | outWrite (parts : List (Nat × List Byte)) (tag : GenTag)
  /-- Nothing: the request has been abandoned before its turn in the order of its pair (R307, R325). -/
  | nothing
  deriving DecidableEq, Repr

/-- An effect in the effects buffer: the header fields of R37, its data, the work it asks
of each destination when its group is forwarded, and the tag of R294 that it got at issue. -/
structure Effect where
  opc : Nat
  modf : Nat
  ctl : Nat
  part : Nat
  addr : Word
  data : List Byte
  parts : List (Nat × Work)
  tag : GenTag
  deriving DecidableEq, Repr

/-- A release group that the network interface has not yet forwarded (R38-R40, R44). -/
structure Group where
  num : Nat
  effects : List Effect
  accepted : Bool
  final : Bool
  deriving DecidableEq, Repr

/-! ### Contexts -/

/-- The states of R28. -/
inductive CtxState where
  | free
  | run
  | wait
  | saved
  | releasing
  deriving DecidableEq, Repr

/-- One active loop level (R164-R167): its start and its exit. -/
structure LoopLevel where
  start : Nat
  exit : Nat
  deriving DecidableEq, Repr

/-- A stream record (R345) with its queue: each element is a value, or a fault (cause and
address). `fetched` counts the elements read, `popped` those delivered. -/
structure Stream where
  base : Nat
  log2sz : Nat
  sext : Bool
  idx : Bool
  isrc : Nat
  shift : Nat
  count : Nat
  n0 : Nat
  s0 : Int
  s1 : Int
  queue : List (Word × Option (Nat × Nat))
  fetched : Nat
  popped : Nat
  deriving DecidableEq, Repr

/-- The idle stream record. -/
def Stream.idle : Stream := ⟨0, 0, false, false, 0, 0, 0, 1, 0, 0, [], 0, 0⟩

/-- What a context in WAIT waits for (R28). -/
inductive Waiting where
  | none
  /-- A fence: its scope and whether it is FENCE.XP (R279, R280). -/
  | fence (scope : Nat) (xp : Bool)
  /-- The reply of a blocking form or local atomic; since when (R404). -/
  | reply (since : Nat)
  /-- JOIN on the counter at a tile-local offset (R320). -/
  | join (off : Nat)
  /-- TBWAIT, or TBWAIT.B, on a barrier with the recorded phase (R402). -/
  | barrier (off phase : Nat) (bit0 : Bool)
  /-- Acceptance of a released group (R39). -/
  | buffer
  /-- STACK_GROW service (R141): the address that touched the guard page. -/
  | stackGrow (addr : Nat)
  /-- A head of a bundle in part done has stalled (R99, R261): the context stays in RUN. -/
  | stall
  deriving DecidableEq, Repr

/-- A control transfer that a bundle takes at its end (R95). -/
inductive Xfer where
  | jump (target : Nat)
  /-- LBRK: the exit of the innermost level, which closes (R168). -/
  | breakLoop (target : Nat)
  /-- SYSRET (R176). -/
  | sysret (target : Nat)
  /-- The end of the activation (R32), with the continuation of a YIELD and its effect (R317), or
  HALT's address. -/
  | done (cont : Option (Trigger × Effect)) (halt : Option Nat)
  deriving DecidableEq, Repr

/-- One ordered act of a bundle on something other than the register file. -/
inductive Act where
  /-- A direct store at a key (R34). -/
  | store (key : Nat) (bytes : List Byte)
  /-- A system store that LDX and STX reach (R265): table area and tags. -/
  | physTable (off : Nat) (bytes : List Byte)
  | physTag (line : Nat) (tag : Nat)
  /-- Held effects of one head, which enter the buffer together (R34, R205). -/
  | effects (es : List Effect)
  /-- A local atomic on the private frame or stack is a plain direct store (R267); this is the
  blocking act of any other: push `slot` and write `wr` receive the reply. -/
  | blocking (e : Effect) (slot : Option Nat) (wr : Option Nat)
  | fence (scope : Nat) (xp : Bool)
  /-- The wait of a fence whose group is released, and that of a blocking form. -/
  | fenceWait (scope : Nat) (xp : Bool)
  | awaitReply (slot : Option Nat) (wr : Option Nat)
  | join (off : Nat) (slot : Option Nat) (wr : Option Nat)
  | barrier (off phase : Nat) (bit0 : Bool) (slot : Option Nat) (wr : Option Nat)
  /-- CMASK and CUNMASK (R318). -/
  | mask (set : Bool) (bits : Nat)
  /-- ACT: the row that holds a byte of the own vault (R268). -/
  | activate (key : Nat)
  /-- A load met an armed injection (R429): the tile and the key read. -/
  | injected (tile : Nat) (key : Nat)
  /-- GUARD: a touch of a guarded byte (R256): the address and the tile-local offset. -/
  | guardTouch (addr off : Nat)
  | pause (n : Nat)
  /-- A read of `n` vault bytes, for LAST (R373) and the bytes moved (R396). -/
  | touch (key n : Nat)
  /-- A miss of the TLB: the walk, counted, fills an entry (R371, R396). -/
  | walk (asid va : Nat)
  /-- A load whose home refused its generation (R294, DEDUCED, log 11). -/
  | rejected (status : Nat)
  deriving DecidableEq, Repr

/-- The causes of R403. -/
inductive Cause where
  | illegalOpcode | illegalOperand | badLine | badTarget | badLoop | shape | align | page
  | stackGrow | remoteVault | placeRange | staleHandle | capability | groupOverrun | badPromo
  | privilege | guard | abandon | staleGen | crc | poison | trap | syscall | bkpt
  | rowRemap | thermalHold | uncorrectable | spanMismatch | timeout | killed
  deriving DecidableEq, Repr

/-- The code of a cause (R403). -/
def Cause.code : Cause → Nat
  | .illegalOpcode => 0x01 | .illegalOperand => 0x02 | .badLine => 0x03 | .badTarget => 0x04
  | .badLoop => 0x05 | .shape => 0x06 | .align => 0x07 | .page => 0x08 | .stackGrow => 0x09
  | .remoteVault => 0x0A | .placeRange => 0x0B | .staleHandle => 0x0C | .capability => 0x0D
  | .groupOverrun => 0x0E | .badPromo => 0x0F | .privilege => 0x10 | .guard => 0x20
  | .abandon => 0x31 | .staleGen => 0x32 | .crc => 0x33 | .poison => 0x34 | .trap => 0x40
  | .syscall => 0x41 | .bkpt => 0x42 | .rowRemap => 0x50 | .thermalHold => 0x51
  | .uncorrectable => 0x60 | .spanMismatch => 0x61 | .timeout => 0x62 | .killed => 0x63

/-- A precise fault of a head (R96): its cause, the data or target address, the CODE field, and
a page-table error to log. -/
structure HeadFault where
  cause : Cause
  addr : Option Nat
  target : Bool
  code : Nat
  pte : Option Nat
  deriving DecidableEq, Repr

/-- What the trap record and a kill report say of a cause (R407). -/
structure TrapInfo where
  cause : Cause
  fhead : Nat
  addr : Option Nat
  target : Bool
  imprecise : Bool
  reply : Bool
  count : Nat
  bpc : Nat
  rpc : Nat
  code : Nat
  pte : Option Nat
  deriving DecidableEq, Repr

/-- A bundle in progress (R94-R96): nothing of it is visible until its last head has
completed; a fault discards it. `vregs` holds vector register writes, with true where the whole
register is written. `acts` are the acts to do; `checks` lists the heads whose wait reports failed
accesses, with 1 plus their scope (R278). `pend` is the fault of the lowest-numbered head that
faulted and that head's address (R96), `trap` the instruction trap of the lowest-numbered head that
raised one (R174), and `guardAt` the first head that reports a pending GUARD: all three are taken
when the last head of the bundle has run (R95, R410). `body` are the lines that a LOOP of the bundle has
counted through (R166), and `part` says that acts of the bundle have been done: its later heads run after
the wait of an earlier one (R279, R292). -/
structure Stage where
  bpc : Nat
  at_ : Nat
  issued : Nat
  next : Nat
  pushes : List Word
  regs : List (Nat × Word)
  preds : List (Nat × Bool)
  vregs : List (Nat × Bool × List (Nat × Byte))
  vshape : Option Nat
  cregs : List (Nat × Word)
  flags : Nat
  loopOpen : Option (Nat × Nat × LoopLevel)
  pops : List Nat
  streams : List (Nat × Stream)
  acts : List Act
  xfer : Option Xfer
  link : Option Word
  checks : List (Nat × Nat)
  pend : Option (Nat × HeadFault)
  trap : Option (Nat × Cause × Word)
  guardAt : Option Nat
  body : List (Nat × List Byte)
  part : Bool
  deriving DecidableEq, Repr

/-- An empty stage of the bundle that starts at an address and issues in a cycle (RDCYC). -/
def Stage.start (bpc cyc : Nat) : Stage :=
  ⟨bpc, bpc, cyc, 0, [], [], [], [], none, [], 0, none, [], [], [], none, none, [], none, none, none, [], false⟩

/-- A cause that may end a context: an unresumed fault (R408), or an end whose span twin has
not ended yet (R411). Cause code, BPC, and the fields of the kill report. -/
structure Ending where
  cause : Nat
  bpc : Nat
  addr : Nat
  code : Nat
  nested : Bool
  deriving DecidableEq, Repr

/-- One context (R28, R132). `place` says whose frame, stack storage and save area it has, and
`addrPlace` whose frame and stack addresses it sees, which a span twin shares with its owner
(R43; a restore onto another context exchanges places, DESIGN CHOICE, log 10). `fail` lists the failed replies
and rejected accesses not yet reported: status, performed count and home (R278). `guard` is a pending GUARD: the first address touched,
its tile-local offset, and the touches since (R256). `saveDue` is an ordered save, and `tested` says
that the bundle at the PC has been found to raise nothing, or that a trap has just been taken, so that
pre-emption is next in the order of R410. `bufErr` is a parity error in its effects buffer (R252). `line`
is the line that it executes, as it was fetched (R88), `body` the lines of its loop buffer (R132, R164), and
`resume` what the bundle in progress holds after its first head that waits (R279). `trapDue` is a trap that
waits for its save area or its vector (R246, R249). -/
structure Ctx where
  st : CtxState
  waiting : Waiting
  pc : Nat
  n : Vector Word 32
  q : List Word
  p : BitVec 8
  v : List (Nat × Byte)
  vshape : BitVec 14
  lc : Vector (BitVec 32) 3
  loops : List LoopLevel
  streams : Vector Stream 8
  k : List (BitVec 32)
  status : Word
  trapvec : Word
  fpctl : Word
  cap : Word
  pri : Word
  saveptr : Word
  held : List Effect
  group : Nat
  groups : List Group
  act : Nat
  trig : Option Trigger
  cont : Option Trigger
  lslot : Nat
  asid : Nat
  place : Nat
  addrPlace : Nat
  stackPages : Nat
  mapped : Nat
  guard : Option (Nat × Nat × Nat)
  twin : Option Nat
  isTwin : Bool
  pause : Nat
  fwd : Nat
  drop : Nat
  lost : Nat
  fail : List (Nat × Nat × Nat)
  halted : Option Nat
  lastBpc : Nat
  faulted : Option Ending
  ending : Option Ending
  endedAt : Nat
  fwdAny : Bool
  inherited : Nat
  stage : Option Stage
  saveDue : Bool
  tested : Bool
  bufErr : Bool
  line : Option (Nat × List Byte)
  body : List (Nat × List Byte)
  resume : Option Stage
  trapDue : Option TrapInfo
  deriving DecidableEq, Repr

/-- Context `g` of the module at reset. The spec gives most of these no reset value: every
register is zero (DESIGN CHOICE, log 3), its frame and stack are where the runtime places them (DESIGN CHOICE, log 4). -/
def Ctx.reset (g : Nat) : Ctx :=
  { st := .free, waiting := .none, pc := 0, n := Vector.replicate 32 0,
    q := List.replicate 16 0, p := 1, v := [], vshape := 0, lc := Vector.replicate 3 0,
    loops := [], streams := Vector.replicate 8 Stream.idle, k := List.replicate 256 0,
    status := BitVec.ofNat 64 ((g % 16 / 4) * 64 + g % 4 * 16), trapvec := 0, fpctl := 0,
    cap := 0, pri := 0, saveptr := 0, held := [], group := 0, groups := [], act := 0,
    trig := none, cont := none, lslot := 0, asid := 0,
    place := g, addrPlace := g, stackPages := 1, mapped := 0,
    guard := none, twin := none, isTwin := false, pause := 0, fwd := 0, drop := 0, lost := 0,
    fail := [], halted := none, lastBpc := 0, faulted := none,
    ending := none, endedAt := 0, fwdAny := false, inherited := 0, stage := none,
    saveDue := false, tested := false, bufErr := false, line := none, body := [], resume := none,
    trapDue := none }

/-- The base of a context's private frame (R31). -/
def Ctx.frame (c : Ctx) : Nat := Config.frameBase + 4096 * (c.addrPlace % 16)
/-- The base of its stack window (R140). -/
def Ctx.window (c : Ctx) : Nat := Config.windowBase + 4096 * (c.addrPlace % 16)
/-- The top of its stack (R140). -/
def Ctx.stackTop (c : Ctx) : Nat := Config.stackBase + 2 ^ 32 * (c.addrPlace + 1)
/-- The lowest address of its stack reservation (R140). -/
def Ctx.stackLow (c : Ctx) : Nat := c.stackTop - 65536 * c.stackPages

/-! ### The units of a tile -/

/-- One entry of a write-merge path: a performed store that has not drained (R280, R443). -/
structure Merge where
  key : Nat
  bytes : List Byte
  act : Nat
  deriving DecidableEq, Repr

/-- A remap-table entry (R373). -/
structure Remap where
  last : Nat
  busy : Bool
  v : Bool
  layer : Nat
  slot : Nat
  deriving DecidableEq, Repr

/-- Entry `p` at reset (R373). -/
def Remap.reset (p : Nat) : Remap := ⟨0, false, true, p / 1024, p % 1024⟩

/-- A TLB entry (R371): `big` for a 2 MiB page, `page` the first byte's address div 2^16. -/
structure TlbEntry where
  asid : Nat
  big : Bool
  page : Nat
  leaf : Word
  igen : Nat
  deriving DecidableEq, Repr

/-- Thermal states (R248). -/
inductive Thermal where
  | normal
  | throttle
  | hold
  deriving DecidableEq, Repr

/-- A row named by its layer, bank and row number (R249). -/
structure Row where
  layer : Nat
  bank : Nat
  row : Nat
  deriving DecidableEq, Repr

/-- The state of a ring of slots (R236, R237, R240). `tiles` holds, for each filled slot in
order, the command, its M and N, and its accumulator. -/
structure RingTile where
  cmd : MatCmd
  m : Nat
  n : Nat
  acc : Nat
  cls : Nat
  deriving DecidableEq, Repr

/-- The matrix unit's state that belongs to its holder (R208-R214, R221). Every array is a
sparse store: element n * 8,192 + byte of the tile registers, n * 512 + byte of the scales,
n * 64 + row of the poison bits, a * 4,096 + 64 i + j of accumulators and partials, a * 64 + i
of the checksums. `regErr` and `accErr` mark the 16-byte words of registers and accumulators whose
storage holds an uncorrectable error that no read has met yet (R211, R252): word (n * 8,192 + byte) / 16
and word (a * 4,096 + 64 i + j) / 4. -/
structure MatUnit where
  tr : List (Nat × Byte)
  scale : List (Nat × Byte)
  poison : List (Nat × Bool)
  tcfg : Vector (BitVec 32) 16
  acc : List (Nat × BitVec 32)
  csum : List (Nat × BitVec 32)
  part : List (Nat × BitVec 40)
  sticky : BitVec 16
  ring : Option (List Byte)
  fill : Nat
  drain : Nat
  tiles : List RingTile
  ringT : Nat
  regErr : List (Nat × Bool)
  accErr : List (Nat × Bool)
  deriving DecidableEq, Repr

/-- The clear state (R221). -/
def MatUnit.clear : MatUnit :=
  ⟨[], [], [], Vector.replicate 16 0, [], [], [], 0, none, 0, 0, [], 0, [], []⟩

/-- The command the carriage runs: its step index (within its group, for MMAG), its group, and what its
report will carry so far (R219, R238): `refused` lists the sectors (key div 32) that guarded granules and
other homes have refused, and `stopped` is set once a write of it has failed at another home. -/
structure Current where
  id : Nat
  cmd : MatCmd
  step : Nat
  group : Nat
  cls : Nat
  refused : List Nat
  copying : Bool
  moved : Nat
  stopped : Bool
  deriving DecidableEq, Repr

/-- The matrix unit and its carriage (R208-R241). `pending` holds the commands whose steps are done and
whose writes are under way: number, command, class, sectors left and sectors refused. -/
structure Matrix where
  unit : MatUnit
  holder : Option Nat
  queue : List MatCmd
  cur : Option Current
  stall : Nat
  pending : List (Nat × MatCmd × Nat × Nat × List Nat)
  deriving DecidableEq, Repr

/-- An accepted outrider command (R331-R342), with its extension packet (zeros without one).
`list` is the LIST command it belongs to; `rejected` says that acceptance refused it (R338); `pos` is
the linear index of the next element of its walk, `moved` the bytes moved, `slot` the stream slots
reported and `freed` RBAR's phases since acceptance (R340). `handle` is the default handle of its queue
(R328), `aband` what the commands of a list have abandoned, and `refused` lists the sectors (key div 32)
that other homes have refused (R296). `sector` is the source sector being read,
with the bit that an injection inverts in it (R446). -/
structure Copy where
  id : Nat
  queue : Nat
  list : Option Nat
  head : List Byte
  ext : List Byte
  asid : Nat
  handle : Nat
  gen : Nat
  rejected : Bool
  started : Bool
  pos : Nat
  moved : Nat
  crc : Nat
  slot : Nat
  freed : Nat
  cls : Nat
  aband : Nat
  refused : List Nat
  stopped : Bool
  sector : Option (Nat × Option Nat)
  deriving DecidableEq, Repr

/-- A running CRC chain (R341): its value, whether a CRC command has left one, and whether the chain
has failed. -/
structure Chain where
  value : Nat
  run : Bool
  failed : Bool
  deriving DecidableEq, Repr

/-- A command list in progress (R342): the index of its next packet, its active LOOP counters by
packet, its chain and the collected report. -/
structure CmdList where
  id : Nat
  at_ : Nat
  loops : List (Nat × Nat)
  chain : Chain
  flt : Bool
  cls : Nat
  aband : Nat
  ended : Bool
  deriving DecidableEq, Repr

/-- A registered command queue (R328): the QCB's tile-local offset, its CRC chain (R341), what the
outrider has logged (R457, R332; `stalledAt` is one more than the RI logged), and the packets of the
submissions whose slots are not yet accepted. -/
structure Queue where
  qcb : Nat
  lslot : Nat
  chain : Chain
  malformed : Option (List Byte)
  stalledAt : Nat
  pend : List (Nat × Nat)
  deriving DecidableEq, Repr

/-- The outrider of a tile: `next` is the queue that the round-robin serves next (R331), `ids` the
last command number. -/
structure Outrider where
  queues : List (Nat × Queue)
  next : Nat
  cmds : List Copy
  lists : List CmdList
  ids : Nat
  deriving DecidableEq, Repr

/-- The operation that a vault agent holds: the next sector of a block form, how many sectors it
has performed, the poisoned ones, and whether it waits for a row repair (R277, R278). -/
structure AgentOp where
  req : RemoteReq
  next : Nat
  perf : Nat
  bad : List Nat
  remap : Bool
  deriving DecidableEq, Repr

/-- An open ranked reduction (R273): the request that opened it and the contributions by rank,
with the requests to complete. -/
structure Ranked where
  key : Nat
  opc : Nat
  ty : Nat
  sat : Bool
  count : Nat
  n : Nat
  since : Nat
  got : List (Nat × RemoteReq)
  deriving DecidableEq, Repr

/-- One tile (R17). `redeliver` holds triggers that go back to a queue without room (R41, R45, R300),
`staging` the records whose pages are being staged, since when, and the contexts kept for each (R56),
`lastIssued` the context that each processor issued from last (R29), and `refused` the sectors of each RLDB
under way that guard bits at L have refused, by request packet (R256, R275). `retired` gives the retired rows
with the spare row of their bank that holds each (R249), and `fixes` counts the corrected errors (R252). -/
structure Tile where
  arrival : List Trigger
  conts : List Trigger
  deques : List (List Trigger)
  pushWait : List (Trigger × Nat)
  ready : List (Nat × Nat)
  masks : List (Nat × BitVec 16)
  lastVictim : Nat
  stealing : Bool
  staging : List (Trigger × Nat × List Nat)
  joinSubs : List (Nat × Nat × Bool × Nat)
  reserved : List (Nat × Nat)
  evc : List Nat
  perf : List Nat
  perfSel : List Nat
  tlb : List TlbEntry
  remap : List (Nat × Remap)
  guardBits : List (Nat × Bool)
  tags : List (Nat × Nat)
  poison : List (Nat × Bool)
  merge : List Merge
  thermal : Thermal
  dramTemp : Nat
  retired : List (Row × Nat)
  corrected : List (Row × Nat)
  repair : Option Row
  spare : List Nat
  badHalf : Option Nat
  offline : Bool
  halvedMatrix : List Bool
  matrix : Matrix
  agent : Option AgentOp
  ranked : List Ranked
  puts : List Put
  subs : List Submission
  out : Outrider
  swaps : List Swap
  openRows : List (Nat × Nat)
  scrubbed : Nat
  redeliver : List Trigger
  lastIssued : List Nat
  refused : List (Nat × Nat)
  fixes : Nat
  deriving DecidableEq, Repr

/-- A tile at reset: R248, R253, R221, R373 and R396 give the values; empty queues where the
spec gives none (DESIGN CHOICE, log 3). -/
def Tile.reset : Tile :=
  { arrival := [], conts := [], deques := [[], [], [], []], pushWait := [], ready := [],
    masks := [], lastVictim := 0, stealing := false, staging := [],
    joinSubs := [], reserved := [], evc := List.replicate 8 0, perf := List.replicate 8 0,
    perfSel := List.replicate 8 0, tlb := [], remap := [], guardBits := [], tags := [],
    poison := [], merge := [], thermal := .normal, dramTemp := 0, retired := [],
    corrected := [], repair := none, spare := List.replicate 16 4, badHalf := none,
    offline := false, halvedMatrix := [false, false, false, false],
    matrix := ⟨MatUnit.clear, none, [], none, 0, []⟩, agent := none, ranked := [], puts := [],
    subs := [], out := ⟨[], 0, [], [], 0⟩, swaps := [], openRows := [], scrubbed := 0,
    redeliver := [], lastIssued := [0, 0, 0, 0], refused := [], fixes := 0 }

/-! ### Launches and the control plane -/

/-- Where a resident launch stands (R53, R327, R394, R412). -/
inductive LaunchState where
  | lookup
  | admission
  | running
  | preempted (byHost : Bool)
  deriving DecidableEq, Repr

/-- A resident launch (R47-R53, R326, R376). `blocks` gives the handler block of each of its tiles,
`resume` is the state a pre-empted launch returns to, and
`savedAt` orders the pre-emptions (R427). -/
structure Launch where
  record : List Byte
  desc : List Byte
  konst : List (BitVec 32)
  statusKey : Nat
  state : LaunchState
  failed : Bool
  lookup : List Byte
  images : List (Nat × MatUnit × Option Current × List MatCmd)
  order : Nat
  blocks : List (Nat × Nat)
  resume : LaunchState
  savedAt : Nat
  deriving DecidableEq, Repr

/-- A launch queue (R326): its base as (home tile, byte offset in its vault), the index of the
next record to take, the index of the next LAUNCH write, the writes that wait at its port, and
the barriers of LAUNCH records not yet taken. -/
structure LaunchQueue where
  tile : Nat
  off : Nat
  next : Nat
  writeIdx : Nat
  held : List LaunchWrite
  bars : List (Nat × Bar)
  deriving DecidableEq, Repr

/-- A steal message on the control plane (R51, R367). -/
inductive StealMsg where
  | request (thief victim : Nat)
  | reply (thief : Nat) (t : Option Trigger)
  deriving DecidableEq, Repr

/-! ### The data plane -/

/-- Where a packet's flit is (R352-R360). -/
inductive FlitPos where
  | source
  | pool (stop : Nat) (vc : Nat)
  | escape (stop : Nat)
  | ejected
  deriving DecidableEq, Repr

/-- One direction of a round in the pcyc under way (R353-R356, R440): the flits that have advanced, by packet
and flit, the stops whose link has carried one and those whose interface has injected one; the pool slots, by
stop, and the VCs that become free at its end; the stops that have put a flit into escape and those at which
ejection has emptied an escape slot. From pcyc to pcyc: for how many in a row each stop has been refused, the
stops that reserve the next slot that empties at them, and the reserved slots, as where one stands and for
whom. -/
structure Ring where
  moved : List (Nat × Nat)
  links : List Nat
  injected : List Nat
  freed : List Nat
  freedVcs : List (Nat × Nat)
  entered : List Nat
  emptied : List Nat
  refused : List (Nat × Nat)
  claims : List Nat
  slots : List (Nat × Nat)
  deriving DecidableEq, Repr

/-- A direction on which nothing has moved (DESIGN CHOICE, log 3). -/
def Ring.reset : Ring := ⟨[], [], [], [], [], [], [], [], [], []⟩

/-- Where a packet is as a whole. -/
inductive PktPlace where
  /-- At its source, to be injected. -/
  | source
  /-- On the round of its cluster; `cw` clockwise, `esc` the stop at which its header has entered
  escape. -/
  | round (cw : Bool) (esc : Option Nat)
  /-- Whole in input `inp` (R363) of a Clos switch (R358): edge `idx` of a pod (level 0), middle
  M(pod, idx) (level 1) or top T(pod, idx) (level 2). -/
  | clos (level pod idx inp : Nat)
  /-- Whole at its destination's interface. -/
  | ejected
  /-- Early at its destination (R362). -/
  | early
  /-- In SEQ order, to be performed by its unit. -/
  | inbox
  /-- Discarded; its NACK is on the way. -/
  | lost
  /-- Performed, or held by a unit; retained at its source until the answer arrives. -/
  | done
  deriving DecidableEq, Repr

/-- A data packet (R350, R361): retained from forwarding until its ACK. `tag` is that of the effect it
carries (R294), `after` the packet whose ACK it waits for before it is injected (R311), and `stamped` says
that its header has got its TS (R351). `effect` names the effect that it belongs to by its first packet,
`counted` says that the loss of the effect is in LOST (R413), and `held` that its wait on a row that is being
retired is in REPAIR (R278). `waited` counts the pcyc in a row that its header has stayed at a stop (R355). -/
structure Packet where
  src : Nat
  dst : Nat
  cls : Nat
  seq : Nat
  ts : Nat
  lslot : Nat
  len : Nat
  resent : Bool
  poison : Bool
  old : Bool
  owner : Owner
  work : Work
  place : PktPlace
  flits : List FlitPos
  since : Nat
  born : Nat
  resends : Nat
  tag : GenTag
  after : Option Nat
  stamped : Bool
  effect : Nat
  counted : Bool
  held : Bool
  waited : Nat
  deriving DecidableEq, Repr

/-- Where an ACK or NACK packet is: at the endpoint that sends it, on the acknowledgement ring of a
cluster, whole in VC_R of a Clos switch input, or at the source of the packet it answers (R357). -/
inductive AnsPlace where
  | sender
  | ring (cl : Nat) (cw : Bool) (stop : Nat)
  | clos (level pod idx inp : Nat)
  | here
  deriving DecidableEq, Repr

/-- An ACK or NACK packet (R350, R357, R361): who sends it and to whom, the packet it answers, a failure
status with its performed count, whether a NACK answers a packet that could not eject (R404), and where
it is. -/
structure Answer where
  ack : Bool
  src : Nat
  dst : Nat
  pkt : Nat
  fail : Option (Nat × Nat)
  noEject : Bool
  place : AnsPlace
  deriving DecidableEq, Repr

/-! ### Lifeline controllers -/

/-- A tree entry (R379, R390). -/
structure Tree where
  g : Nat
  asid : Nat
  nmax : Nat
  poolva : Nat
  ringTile : Nat
  ringOff : Nat
  deriving DecidableEq, Repr

/-- A node (R382). `syms` and `snap` are byte offsets in the controller's pool. -/
structure Node where
  key : Word
  parent : Option Nat
  tree : Nat
  depth : Nat
  pages : Bool
  nchild : Nat
  refs : Nat
  stamp : Nat
  syms : Nat
  snap : Nat
  len : Nat
  tag : Nat
  deriving DecidableEq, Repr

/-- A held pin (R389). -/
structure Pin where
  node : Nat
  lslot : Nat
  seq : Nat
  deriving DecidableEq, Repr

/-- One lifeline controller: its tree table, nodes by index, pin table with the sequence numbers last
used, CLOCK, the first six counters of LSTAT READ by tree, and the requests it is to perform. -/
structure Lifeline where
  trees : List (Nat × Tree)
  nodes : List (Nat × Node)
  pins : List (Nat × Pin)
  pinSeq : List (Nat × Nat)
  clock : Nat
  stats : List (Nat × List Nat)
  queue : List LifeReq
  deriving DecidableEq, Repr

/-! ### Host and management -/

/-- The power states (R427); `boot` before the boot of R426 has succeeded, `removed` after the
controller has removed module power (R428). -/
inductive Power where
  | boot
  | active
  | reduced
  | quiescing
  | quiesced
  | sleep
  | removed
  deriving DecidableEq, Repr

/-- The management controller and what it holds (R419-R429). `msix0` and `msix1` count the interrupts
raised; `busReply` is what the last CXL.mem or inbound Xaold read returned and `busError` says that
the access completed with poison or an error (R417, R424, R427). `badTiles` lists the physical tiles, by
stack, that R374 has taken out of the map. `go` says that the host has written MB_GO and the command has
not begun (R420), `digest` holds the SHAKE256 digests of the images that the boot has loaded (R426), and
`overtemp` the stack and temperature of the event that the non-volatile store keeps (R428).
`kills` holds, by activation, the kill reports that wait until the effects forwarded for it are performed (R297),
`restoring` the launches that the return to ACTIVE restores, in the order of their saves (R427). -/
structure Mgmt where
  mbCmd : Word
  mbStatus : Word
  mbBuf : List (Nat × Byte)
  msix0 : Nat
  msix1 : Nat
  log : List (List Byte)
  logWait : List (List Byte)
  power : Power
  quiesceTag : Nat
  order : Nat
  minVersion : Nat
  version : Nat
  oneTimeKey : Nat
  overtemp : Option (Nat × Nat)
  dieTemp : List Nat
  peerMask : Nat
  portDown : List Nat
  replays : List (Nat × Nat)
  inject : Word
  ideKeys : List Byte
  badTiles : List (Nat × Nat)
  busReply : List Byte
  busError : Bool
  go : Bool
  digest : List Byte
  kills : List (Nat × List Byte)
  restoring : List Nat
  deriving DecidableEq, Repr

/-! ### The module -/

/-- One entry of the schedule (DESIGN CHOICE, log 1): a device event with what it concerns, or the turn of a
context. -/
inductive Turn where
  | event (i : Instr) (a : EventArg)
  | ctx (g : Nat)
  deriving DecidableEq, Repr

/-- The machine's state. `agenda`, `cur`, `ev` and `fresh` are the model's own: the schedule of
the agents, whose turn it is, what the event in progress concerns (DESIGN CHOICE, log 1), the address that
R108 gives after the bundle being issued, and the counter of the free values (DESIGN CHOICE, log 6). -/
structure State where
  cycle : Nat
  mem : List (Nat × Byte)
  ctxs : List (Nat × Ctx)
  tiles : List (Nat × Tile)
  launches : List (Nat × Launch)
  queues : List LaunchQueue
  steals : List StealMsg
  pkts : List (Nat × Packet)
  nextPkt : Nat
  nextAct : Nat
  answers : List Answer
  seqOut : List (Nat × Nat)
  seqIn : List (Nat × Nat)
  inbox : List (Nat × Nat)
  rings : List (Nat × Ring)
  deadLinks : List Nat
  routes : List (BitVec 8)
  tileMap : List (List (BitVec 16))
  pools : List Nat
  nodeAreas : List Nat
  life : List Lifeline
  mgmt : Mgmt
  booted : Bool
  agenda : List Turn
  cur : Nat
  ev : EventArg
  after : Nat
  fresh : Nat
  deriving DecidableEq, Repr

/-- The empty event argument. -/
def EventArg.none : EventArg := ⟨0, 0, 0, false, false, [], ⟨0, [], [], [], [], [], []⟩⟩

/-- The identity tile map (DESIGN CHOICE, log 5). -/
def idTileMap : List (List (BitVec 16)) :=
  List.replicate 4 ((List.range 256).map (fun t => BitVec.ofNat 16 (0x8000 + t)))

/-- A lifeline controller at reset (DESIGN CHOICE, log 3). -/
def Lifeline.reset : Lifeline := ⟨[], [], [], [], 0, [], []⟩

/-- The management controller at reset (R419, R429; DESIGN CHOICE, log 3 and DESIGN CHOICE, log 5 for the rest). -/
def Mgmt.reset : Mgmt :=
  ⟨0, 0, [], 0, 0, [], [], .boot, 0, 0, 0, 0, 0, none, [0, 0, 0, 0], 0, [], [], 0, [], [], [], false, false, [], [], []⟩

/-- The module right after reset: no boot has run, nothing is placed in memory. -/
def State.reset : State :=
  { cycle := 0, mem := [], ctxs := [], tiles := [], launches := [],
    queues := (List.range 16).map (fun i => ⟨0, 0xFFF0000 + 8192 * i, 0, 0, [], []⟩),
    steals := [], pkts := [], nextPkt := 0, nextAct := 1, answers := [], seqOut := [],
    seqIn := [], inbox := [], rings := [], deadLinks := [],
    routes := List.replicate 15 0 ++ [0x08], tileMap := idTileMap,
    pools := [0, 0, 0, 0], nodeAreas := [0, 0, 0, 0], life := List.replicate 4 Lifeline.reset, mgmt := Mgmt.reset,
    booted := false, agenda := [], cur := 0, ev := EventArg.none, after := 0,
    fresh := 0 }

/-- Why the machine stops. -/
inductive Fault where
  /-- Raised by `step` once the controller has removed module power at 125 °C (R428) and no reset is
  due: the module does nothing until the next boot. Safe: no claim about a powered module is
  affected. -/
  | powerRemoved
  deriving DecidableEq, Repr

/-- Why an instruction has no meaning here. -/
inductive Refusal where
  /-- Raised by an arm of `exec` for an instruction not modelled yet. Safe. -/
  | notModelled (mnemonic : String)
  deriving DecidableEq, Repr

/-! ### Reading and replacing records -/

/-- Context `g`. -/
def State.ctx (s : State) (g : Nat) : Ctx := tabGet (Ctx.reset g) s.ctxs g
/-- Replaces context `g`. -/
def State.setCtx (s : State) (g : Nat) (c : Ctx) : State := { s with ctxs := tabSet s.ctxs g c }
/-- Tile `t`. -/
def State.tile (s : State) (t : Nat) : Tile := tabGet Tile.reset s.tiles t
/-- Replaces tile `t`. -/
def State.setTile (s : State) (t : Nat) (x : Tile) : State := { s with tiles := tabSet s.tiles t x }
/-- Changes tile `t`. -/
def State.modTile (s : State) (t : Nat) (f : Tile → Tile) : State := s.setTile t (f (s.tile t))
/-- Changes context `g`. -/
def State.modCtx (s : State) (g : Nat) (f : Ctx → Ctx) : State := s.setCtx g (f (s.ctx g))
/-- The resident launch in a slot. -/
def State.launch (s : State) (l : Nat) : Option Launch := tabFind s.launches l
/-- Replaces a launch. -/
def State.setLaunch (s : State) (l : Nat) (x : Launch) : State :=
  { s with launches := tabSet s.launches l x }
/-- The direction of a cluster's round. -/
def State.ring (s : State) (cl : Nat) (cw : Bool) : Ring := tabGet Ring.reset s.rings (2 * cl + cw.toNat)
/-- Changes a direction of a round. -/
def State.modRing (s : State) (cl : Nat) (cw : Bool) (f : Ring → Ring) : State :=
  { s with rings := tabSet s.rings (2 * cl + cw.toNat) (f (s.ring cl cw)) }
/-- A packet. -/
def State.pkt (s : State) (i : Nat) : Option Packet := tabFind s.pkts i
/-- Replaces a packet. -/
def State.setPkt (s : State) (i : Nat) (p : Packet) : State := { s with pkts := tabSet s.pkts i p }

end Sys2Proof.Machine
end

