-- ==== Sys2Proof/Machine/Mem.lean ====
section
/-! DEFINITION. Named operations over memory: the keys of bytes, the write-merge path, guard
bits, poison, the remap table, and the table area. -/

namespace Sys2Proof.Machine

/-! ### Tiles and places (R14-R16) -/

/-- Logical x of a tile. -/
def tileX (t : Nat) : Nat := t % 32
/-- Logical y of a tile. -/
def tileY (t : Nat) : Nat := t / 32
/-- The tile at (x, y). -/
def tileAt (x y : Nat) : Nat := 32 * y + x
/-- The stack of a tile (R14). -/
def stackOf (t : Nat) : Nat := 2 * (tileY t / 16) + tileX t / 16
/-- The stop number of a tile in its cluster (R16). -/
def stopOf (t : Nat) : Nat :=
  let lx := tileX t % 4
  if tileY t % 2 = 0 then lx else 7 - lx
/-- The cluster of a tile, cx + 8 * cy (R16). -/
def clusterOf (t : Nat) : Nat := tileX t / 4 + 8 * (tileY t / 2)
/-- The tile at a stop of a cluster. -/
def tileOfStop (cl stop : Nat) : Nat :=
  let lx := if stop < 4 then stop else 7 - stop
  let ly := if stop < 4 then 0 else 1
  tileAt (4 * (cl % 8) + lx) (2 * (cl / 8) + ly)
/-- The hardware contexts of the module (R19). A number of 16,384 or more names no context: it is
the record that a network interface keeps of a copy of a span whose context is FREE again (R28,
R44), which is numbered as that context above the multiple of 16,384. -/
def numCtxs : Nat := 16384
/-- The tile of a context number (R19). -/
def tileOf (g : Nat) : Nat := g / 16 % 1024

/-! ### Keys -/

/-- The key of a scratchpad byte. -/
def keyScratch (t off : Nat) : Nat := 2 ^ 21 * t + off
/-- The key of a vault byte, by logical page (R373): an exchange of pages moves no key. -/
def keyVault (t lpn off : Nat) : Nat := 2 ^ 40 + 2 ^ 29 * t + 2 ^ 16 * lpn + off
/-- The key of a host byte (R370, R418). -/
def keyHost (a : Nat) : Nat := 2 ^ 60 + a
/-- The key of a byte behind Xaold port `p` (R423). -/
def keyPeer (p a : Nat) : Nat := 2 ^ 61 + 2 ^ 57 * p + a
/-- The key of a span twin's own frame or stack byte (R43, R140). -/
def keyTwin (g x : Nat) : Nat := 2 ^ 66 + 2 ^ 49 * g + x

/-- Whether a key names a scratchpad byte. -/
def isScratch (k : Nat) : Bool := decide (k < 2 ^ 31)
/-- Whether a key names a vault byte. -/
def isVault (k : Nat) : Bool := decide (2 ^ 40 ≤ k ∧ k < 2 ^ 41)
/-- The tile that is the home of a key of a scratchpad, vault or twin copy (R284). -/
def homeTile (k : Nat) : Nat :=
  if k < 2 ^ 31 then k / 2 ^ 21
  else if k < 2 ^ 40 then 0
  else if k < 2 ^ 41 then k / 2 ^ 29 % 2048
  else if 2 ^ 66 ≤ k then tileOf (k / 2 ^ 49 % 2 ^ 17)
  else 0
/-- The logical page of a vault key. -/
def keyLpn (k : Nat) : Nat := k / 2 ^ 16 % 8192
/-- The tile-local offset of a scratchpad key. -/
def keyOff (k : Nat) : Nat := k % 2 ^ 21

/-- The stop and tile-local offset of an offset in the cluster window (R244). -/
def clusterMap (c : Nat) : Nat × Nat :=
  let g := c / 128
  let x := (nfld g 0 3) ^^^ (nfld g 3 3) ^^^ (nfld g 6 3) ^^^ (nfld g 9 3) ^^^ (nfld g 12 3)
    ^^^ (nfld g 15 2)
  (x, g / 8 * 128 + c % 128)

/-! ### The write-merge path (R280, R443) -/

/-- `bs`, the bytes from key `k`, with the bytes `eb` from key `ek` laid over them. -/
def overlay : List Byte → Nat → Nat → List Byte → List Byte
  | [], _, _, _ => []
  | b :: r, k, ek, eb => (if ek ≤ k then (eb[k - ek]?).getD b else b) :: overlay r (k + 1) ek eb

/-- Whether two byte ranges overlap. -/
def overlaps (a n b m : Nat) : Bool := decide (a < b + m ∧ b < a + n)

/-- `n` bytes from key `k` as a processor or vault agent reads them: the array with the stores
of the home's write-merge path over it, the newest last (R280, R285). -/
def visRead (s : State) (k n : Nat) : List Byte :=
  (s.tile (homeTile k)).merge.foldl (fun bs e => overlay bs k e.key e.bytes) (memRead s.mem k n)

/-- `n` bytes from key `k` as an engine reads them: the array alone (R280). -/
def engRead (s : State) (k n : Nat) : List Byte := memRead s.mem k n

/-- Poison units (R254) are 16 bytes of a scratchpad or 32 of a vault; the store is keyed by
key div 16. Whether any of `n` bytes from `k` is poisoned. -/
def poisoned (s : State) (k n : Nat) : Bool :=
  (s.tile (homeTile k)).poison.any (fun e => overlaps (16 * e.1) 16 k n)

/-- Marks the units that hold `n` bytes from `k` as poisoned. -/
def setPoison (s : State) (k n : Nat) : State :=
  let u := if isVault k then 32 else 16
  let first := k / u * u
  let cnt := (k + n - first + u - 1) / u * (u / 16)
  s.modTile (homeTile k) (fun t => { t with
    poison := storePuts false t.poison ((List.range cnt).map (fun i => (first / 16 + i, true))) })

/-- A full overwrite of a unit clears its poison (R254). -/
def clearPoison (s : State) (k n : Nat) : State :=
  let t := s.tile (homeTile k)
  if t.poison.isEmpty then s
  else
    let u := if isVault k then 32 else 16
    let keep := t.poison.filter (fun e =>
      let b := 16 * e.1 / u * u
      !(decide (k ≤ b ∧ b + u ≤ k + n)))
    s.setTile (homeTile k) { t with poison := keep }

/-- The remap entry of a logical page (R373). -/
def remapOf (t : Tile) (p : Nat) : Remap := tabGet (Remap.reset p) t.remap p

/-- Adds to the performance counters of a tile that count event `ev` (R396). -/
def perfAdd (sel perf : List Nat) (ev n : Nat) : List Nat :=
  (perf.zip (sel ++ List.replicate (perf.length - sel.length) 0)).map
    (fun e => if e.2 = ev then (e.1 + n) % 2 ^ 64 else e.1)

/-- Counts a performance event at a tile. -/
def countPerf (s : State) (t ev n : Nat) : State :=
  if (s.tile t).perfSel.contains ev && n != 0 then
    s.modTile t (fun x => { x with perf := perfAdd x.perfSel x.perf ev n })
  else s

/-- Records an access of `n` bytes to a vault page: its LAST field, in µs (R373), and the bytes
moved (R396). -/
def touchPage (s : State) (k n : Nat) : State :=
  if isVault k then
    countPerf (s.modTile (homeTile k) (fun t => { t with
      remap := tabSet t.remap (keyLpn k)
        { remapOf t (keyLpn k) with last := s.cycle / 1200 % 2 ^ 32 } })) (homeTile k) 3 n
  else s

/-- Performs a store at its home: it enters the write-merge path (R280). Host and peer memory
have none. `act` is the activation whose FENCE.XP covers it. -/
def performStore (s : State) (k : Nat) (bs : List Byte) (act : Nat) : State :=
  if bs.isEmpty then s
  else if 2 ^ 60 ≤ k ∧ k < 2 ^ 66 then { s with mem := memWrite s.mem k bs }
  else
    (touchPage (clearPoison s k bs.length) k bs.length).modTile (homeTile k)
      (fun t => { t with merge := t.merge ++ [⟨k, bs, act⟩] })

/-- Drains the oldest entry of a home's path to the array, whole (R443). -/
def drainOne (s : State) (t : Nat) : Option State :=
  match (s.tile t).merge with
  | [] => none
  | e :: r =>
    some ({ s with mem := memWrite s.mem e.key e.bytes }.modTile t (fun x => { x with merge := r }))

/-- Drains the first `n` entries. -/
def drainN (s : State) (t : Nat) : Nat → State
  | 0 => s
  | n + 1 => match drainOne s t with
    | none => s
    | some s' => drainN s' t n

/-- How many entries must drain so that none overlaps `n` bytes from `k`. -/
def drainCount (m : List Merge) (k n : Nat) : Nat :=
  (m.zipIdx.foldl (fun acc e => if overlaps e.1.key e.1.bytes.length k n then e.2 + 1 else acc) 0)

/-- An engine's write goes to the array (R292); the stores performed before it to the same
bytes drain first, in home order (R285, R443). -/
def engWrite (s : State) (k : Nat) (bs : List Byte) : State :=
  if bs.isEmpty then s
  else
    let t := homeTile k
    let s1 := drainN s t (drainCount (s.tile t).merge k bs.length)
    let s2 := touchPage (clearPoison s1 k bs.length) k bs.length
    { s2 with mem := memWrite s2.mem k bs }

/-- Performs an agent's write through the write-merge path (R291); it and the stores before it then drain
to the array, before the operation is reported (R292). -/
def arrayStore (s : State) (k : Nat) (bs : List Byte) (act : Nat) : State :=
  let s1 := performStore s k bs act
  drainN s1 (homeTile k) (drainCount (s1.tile (homeTile k)).merge k bs.length)

/-- A whole block of a scratchpad, vault or twin copy is written by the device: zeros with bytes
at its front. Stores performed before it drain first (R285). -/
def blockWrite (s : State) (k n : Nat) (bs : List Byte) : State :=
  let t := homeTile k
  let s1 := drainN s t (drainCount (s.tile t).merge k n)
  let s2 := touchPage (clearPoison s1 k n) k n
  { s2 with mem := memWrite (memClear s2.mem k n) k bs }

/-- An operation that its home performs indivisibly on the bytes as a processor sees them
(barriers, counters, rings): the new bytes enter the path in home order. -/
def homeWrite (s : State) (k : Nat) (bs : List Byte) : State := performStore s k bs 0

/-! ### Guard bits (R256) -/

/-- Whether any of `n` bytes from `k` lies in a guarded granule. -/
def guarded (s : State) (k n : Nat) : Bool :=
  isScratch k && (s.tile (homeTile k)).guardBits.any
    (fun e => overlaps (128 * e.1) 128 (keyOff k) n)

/-- The bytes of the guarded granules among `n` from a key are again as memory `old` has them: an engine's
write to a guarded granule is not performed (R256). -/
def keepGuarded (s : State) (old : List (Nat × Byte)) (k n : Nat) : State :=
  if !isScratch k then s
  else
    (s.tile (homeTile k)).guardBits.foldl (fun (s : State) (e : Nat × Bool) =>
      let a := max k (k - keyOff k + 128 * e.1)
      let b := min (k + n) (k - keyOff k + 128 * e.1 + 128)
      if a < b then { s with mem := memWrite s.mem a (memRead old a (b - a)) } else s) s

/-! ### Vault rows (R245, R249) -/

/-- The row that holds a vault byte. -/
def rowOf (s : State) (k : Nat) : Row :=
  let r := remapOf (s.tile (homeTile k)) (keyLpn k)
  ⟨r.layer, k / 2 ^ 11 % 16, 2 * r.slot + k / 2 ^ 15 % 2⟩

/-- Whether a row retirement holds the row of a vault byte (R249). -/
def rowBusy (s : State) (k : Nat) : Bool :=
  isVault k && (s.tile (homeTile k)).repair == some (rowOf s k)

/-- Whether an exchange holds the page of a vault byte (R246). -/
def pageBusy (s : State) (k : Nat) : Bool :=
  isVault k && (remapOf (s.tile (homeTile k)) (keyLpn k)).busy

/-- Whether an access to a vault byte stalls: row repair or a busy page (R261). -/
def stalled (s : State) (k : Nat) : Bool := rowBusy s k || pageBusy s k

/-- Whether an access to any of `n` bytes from a key stalls: each piece of a row is tested (R245, R261). -/
def stalledOver (s : State) (k n : Nat) : Bool :=
  (List.range (n / 2048 + 2)).any (fun i => stalled s (min (k + 2048 * i) (k + (n - 1))))

/-- Whether any of `n` bytes from a key waits for the repair of its row. -/
def rowBusyOver (s : State) (k n : Nat) : Bool :=
  (List.range (n / 2048 + 2)).any (fun i => rowBusy s (min (k + 2048 * i) (k + (n - 1))))

/-- Whether a vault byte's page is offline (R373). -/
def pageOff (s : State) (k : Nat) : Bool :=
  isVault k && !(remapOf (s.tile (homeTile k)) (keyLpn k)).v

/-- The logical page in a slot of a layer: the table is a bijection (R373). -/
def pageInSlot (t : Tile) (layer slot : Nat) : Nat :=
  match t.remap.find? (fun e => e.2.layer == layer && e.2.slot == slot) with
  | some e => e.1
  | none => 1024 * layer + slot

/-! ### The table area (R369) -/

/-- Whether a tile-local range lies below the table area (R369). -/
def inScratch (off n : Nat) : Bool := decide (off + n ≤ Config.tableArea)

/-- A capability, generation or other table word as the device reads it. -/
def tableWord (s : State) (t off n : Nat) : Nat := natLE (memRead s.mem (keyScratch t off) n)

/-- The generation entry of an address space at a tile (R372). -/
def genEntry (s : State) (t asid : Nat) : Word := BitVec.ofNat 64 (tableWord s t (0x1E0400 + 8 * asid) 8)
/-- V of a generation entry. -/
def genV (w : Word) : Bool := w.getLsbD 47
/-- IGEN of a generation entry. -/
def igen (w : Word) : Nat := fld w 56 8
/-- HGEN of a generation entry. -/
def hgen (w : Word) : Nat := fld w 48 8

/-- The tag that a tile gives an access in an address space (R294). -/
def tagOf (s : State) (t asid : Nat) : GenTag := some (asid, igen (genEntry s t asid))

/-- The arrival check of a home (R294): true when the access is rejected with STALE_GEN. Host
bridges and Xaold ports make no check. -/
def staleAt (s : State) (home : Nat) : GenTag → Bool
  | none => false
  | some (asid, g) =>
    decide (home < 1024) &&
      (let e := genEntry s home asid
       !genV e || hgen e != g)

/-- The capability entry of a slot at a tile (R377). -/
def capEntry (s : State) (t slot : Nat) : Nat := tableWord s t (0x1E0000 + 4 * slot) 4

/-- Why a handle does not serve: no valid slot with the right, or a stale generation (R216,
R377). `bit` is the right's bit. -/
inductive HandleError where
  | capability
  | stale
  deriving DecidableEq, Repr

/-- Checks a handle at a tile. -/
def checkHandle (s : State) (t slot gen bit : Nat) : Option HandleError :=
  let e := capEntry s t slot
  if slot = 0 || !e.testBit 31 || !e.testBit bit then some .capability
  else if nfld e 0 8 ≠ gen then some .stale
  else none

/-- The bytes of a remap entry (R373). -/
def remapWord (r : Remap) : Nat :=
  2 ^ 32 * r.last + 2 ^ 31 * r.busy.toNat + 2 ^ 30 * r.v.toNat + 2 ^ 10 * r.layer + r.slot

/-- The tile (x, y) lies in a launch's rectangle (R47). -/
def inRect (rec : List Byte) (t : Nat) : Bool :=
  let x0 := natAt rec 0 1
  let y0 := natAt rec 1 1
  let sz := natAt rec 2 1
  decide (x0 ≤ tileX t ∧ tileX t < x0 + 2 ^ (sz % 8) ∧ y0 ≤ tileY t ∧ tileY t < y0 + 2 ^ (sz / 16 % 8))

/-- The launch whose handler block has index `k` on a tile (R376). -/
def blockOwner (s : State) (t k : Nat) : Option (Nat × Launch) :=
  s.launches.find? (fun e => tabFind e.2.blocks t == some k)

/-- A byte of the table area as LDX reads it (R369). -/
def tableByte (s : State) (t off : Nat) : Byte :=
  if off < 0x1E0C00 then memGet s.mem (keyScratch t off)
  else if off < 0x1E0C10 then s.routes.getD (off % 16) 0
  else if 0x1E1000 ≤ off ∧ off < 0x1E2000 then
    match blockOwner s t (off / 256 % 16) with
    | none => 0
    | some (slot, l) =>
      let j := off % 256
      if j < 128 then l.desc.getD j 0
      else if j < 132 then (bytesLE 4 (2 ^ 31 + slot)).getD (j % 128) 0
      else 0
  else if 0x1E2000 ≤ off ∧ off < 0x1E2200 then
    let e := ((s.tileMap.getD (stackOf t) []).getD (off / 2 % 256) 0).toNat
    (bytesLE 2 e).getD (off % 2) 0
  else if 0x1F0000 ≤ off then
    (bytesLE 8 (remapWord (remapOf (s.tile t) (off / 8 % 8192)))).getD (off % 8) 0
  else 0

/-- `n` bytes of the table area. -/
def tableBytes (s : State) (t off : Nat) : Nat → List Byte
  | 0 => []
  | n + 1 => tableByte s t off :: tableBytes s t (off + 1) n

/-- An STX of bytes to the table area (R369, R372, R373, R377): capability and generation
entries take them with reserved bits kept zero and slot 0 never valid; a remap entry takes V
alone; every other item ignores writes. -/
def tableWrite (s : State) (t off : Nat) (bs : List Byte) : State :=
  if off < 0x1E0400 then
    let e := off / 4 % 256
    let b := overlay (memRead s.mem (keyScratch t (off / 8 * 8)) 8) (off / 8 * 8) off bs
    let fix := fun (slot v : Nat) =>
      let v1 := v &&& 0x8EFF00FF
      if slot = 0 then v1 % 2 ^ 31 else v1
    let e0 := e / 2 * 2
    let w := fix e0 (natAt b 0 4) + 2 ^ 32 * fix (e0 + 1) (natAt b 4 4)
    { s with mem := memWrite s.mem (keyScratch t (off / 8 * 8)) (bytesLE 8 w) }
  else if off < 0x1E0C00 then
    let b := overlay (memRead s.mem (keyScratch t (off / 8 * 8)) 8) (off / 8 * 8) off bs
    let w := bytesLE 8 (natLE b &&& 0xFFFF9FFFFFFFF000)
    { s with mem := memWrite s.mem (keyScratch t (off / 8 * 8)) w }
  else if 0x1F0000 ≤ off then
    let p := off / 8 % 8192
    let r := remapOf (s.tile t) p
    let b := overlay (bytesLE 8 (remapWord r)) (off / 8 * 8) off bs
    s.modTile t (fun x => { x with remap := tabSet x.remap p { r with v := (natLE b).testBit 30 } })
  else s

/-- The context, by its index in its tile, that has frame, window and stack number `i` of the tile
(R31; DESIGN CHOICE, log 10). -/
def placeHolder (s : State) (t i : Nat) : Nat :=
  match s.ctxs.find? (fun e => decide (e.1 < numCtxs) && e.2.place == 16 * t + i) with
  | some e => e.1 % 16
  | none => i

/-- Whether page `k` of stack number `i` of a tile is allocated: mapped for an activation (R140). -/
def stackAllocated (s : State) (t i k : Nat) : Bool :=
  s.ctxs.any (fun e => decide (e.1 < numCtxs) && e.2.place == 16 * t + i && !e.2.isTwin && e.2.act != 0 &&
    decide (k < e.2.mapped))

/-- The owner tag that the runtime has given the line of a key when it allocated it (R31, R253, R369;
DESIGN CHOICE, log 4): after boot, frames, stack windows and allocated stack pages name their context and
the table area is the system's. -/
def tagDefault (s : State) (k : Nat) : Nat :=
  let t := homeTile k
  let off := keyOff k
  if !s.booted then 0
  else if isScratch k then
    if Config.tableArea ≤ off then 0xC00
    else if Config.windowBase ≤ off then 0x400 + placeHolder s t (off / 4096 % 16)
    else 0
  else if isVault k then
    let q := 8191 - keyLpn k
    if stackAllocated s t (q % 16) (q / 16) then 0x400 + placeHolder s t (q % 16) else 0
  else 0

/-- The owner tag of the line of a key (R253): what STX.TAG wrote, else the runtime's. -/
def ownerTag (s : State) (k : Nat) : Nat :=
  tabGet (tagDefault s k) (s.tile (homeTile k)).tags (k / 128)

/-! ### Event counters, performance counters and the error log -/

/-- Adds one to element `i` of a counter list, modulo 2^64 (R396). -/
def bump (l : List Nat) (i : Nat) : List Nat := l.set i ((l.getD i 0 + 1) % 2 ^ 64)

/-- Counts an event at a tile (R396). -/
def countEvent (s : State) (t i : Nat) : State := s.modTile t (fun x => { x with evc := bump x.evc i })

/-- The TILE field of a report: x in [4:0], y in [12:8] (R413). -/
def tileField (t : Nat) : Nat := tileX t + tileY t * 256

/-- A 64-byte error-log entry with the kill report's layout (R413, R422). -/
def logEntry (kind cause tile ctx flags lslot fwd drop lost pc addr code cycle : Nat) : List Byte :=
  bytesLE 2 kind ++ bytesLE 2 cause ++ bytesLE 2 (tileField tile) ++ bytesLE 1 ctx ++
  bytesLE 1 flags ++ bytesLE 2 lslot ++ bytesLE 2 0 ++ bytesLE 4 fwd ++ bytesLE 4 drop ++
  bytesLE 4 lost ++ bytesLE 8 pc ++ bytesLE 8 addr ++ bytesLE 8 code ++ bytesLE 8 cycle ++
  bytesLE 8 0

/-- An entry is posted: it waits at its source until the log takes it (R27, R422). -/
def postLog (s : State) (e : List Byte) : State :=
  { s with mgmt := { s.mgmt with logWait := s.mgmt.logWait ++ [e] } }

/-- Posts an entry that names a tile, an address and a code. -/
def logAt (s : State) (kind cause t lslot addr code : Nat) : State :=
  postLog s (logEntry kind cause t 0 0 lslot 0 0 0 0 addr code s.cycle)

/-! ### Injection (R429) -/

/-- Whether an armed injection of a kind selects a place. -/
def injHits (s : State) (kind x y : Nat) : Bool :=
  let w := s.mgmt.inject
  w.getLsbD 63 && fld w 60 3 == kind && fld w 50 5 == y && fld w 45 5 == x

/-- Whether the armed injection also inverts BIT + 1. -/
def injDbl (s : State) : Bool := s.mgmt.inject.getLsbD 59

/-- The CODE of an entry that names a row (R249). -/
def rowCode (r : Row) : Nat := r.layer + 2 ^ 8 * r.bank + 2 ^ 16 * r.row

/-- The retired rows of a row's bank. -/
def bankRetired (x : Tile) (r : Row) : List (Row × Nat) :=
  x.retired.filter (fun y => y.1.layer == r.layer && y.1.bank == r.bank)

/-- The spare row that takes the place of a row: the lowest of its bank that holds none (DESIGN CHOICE, log
83). -/
def nextSpare (x : Tile) (r : Row) : Nat :=
  ((List.range 16).find? (fun k => !(bankRetired x r).any (fun y => y.2 == k))).getD 0

/-- Starts the retirement of a row with four corrected errors, when none is under way and no swap
holds its page (R249). Without a spare the row stays, which is logged. -/
def startRepair (s : State) (t : Nat) : State :=
  let x := s.tile t
  match x.repair, x.corrected.find? (fun e => decide (4 ≤ e.2) &&
      !(remapOf x (pageInSlot x e.1.layer (e.1.row / 2))).busy) with
  | none, some (r, _) =>
    if 16 ≤ (bankRetired x r).length then
      logAt (s.setTile t { x with corrected := x.corrected.filter (fun e => e.1 != r) }) 7 1 t 0 0 (rowCode r)
    else s.setTile t { x with repair := some r }
  | _, _ => s

/-- A corrected error is counted (R252), that of a vault row towards its retirement (R249). -/
def countCorrected (s : State) (t k : Nat) : State :=
  let x := { s.tile t with fixes := (s.tile t).fixes + 1 }
  if isVault k then
    let r := rowOf s k
    let l := if x.corrected.any (fun e => e.1 == r) then
        x.corrected.map (fun e => if e.1 = r then (r, e.2 + 1) else e)
      else x.corrected ++ [(r, 1)]
    startRepair (s.setTile t { x with corrected := l }) t
  else s.setTile t x

/-- Whether the next corrected error of a vault row is the fourth: its retirement logs the row (R249). -/
def fourthError (s : State) (t k : Nat) : Bool :=
  isVault k && (s.tile t).corrected.any (fun e => e.1 == rowOf s k && e.2 == 3)

/-- A corrected error is counted and logged (R252). The one that begins a retirement is logged by the
entry of kind 0x07 that names its row (R249, R438; DEDUCED, log 82). -/
def logCorrected (s : State) (t k addr : Nat) : State :=
  countCorrected (if fourthError s t k then s else logAt s 0x0C 0 t 0 addr 0) t k

/-- One firing: logged, counted, and ARM clears after COUNT + 1 firings. A single inverted bit of a
scratchpad word or vault sector is a corrected error. -/
def injFire (s : State) (t addr : Nat) : State :=
  let w := s.mgmt.inject
  let n := fld w 55 4
  let w' := if n = 0 then putFld w 63 1 0 else putFld w 55 4 (n - 1)
  let s1 := logAt { s with mgmt := { s.mgmt with inject := w' } } 0x0B 0 t 0 addr w.toNat
  if fld w 60 3 < 2 && !w.getLsbD 59 then countCorrected s1 t addr else s1

/-- The injection kind that a read of a key meets: 0 for a scratchpad, 1 for a vault. -/
def injKind (k : Nat) : Nat := if isVault k then 1 else 0

/-- Fires a flit injection of KIND 4 at a Xaold port as flits cross it, up to its 16 firings: each is a replay
(R424, R429). `e` is an endpoint. -/
def crossPort (s : State) (e : Nat) : State :=
  if 1032 ≤ e then
    (List.range 16).foldl (fun (s : State) (_ : Nat) => if injHits s 4 (e - 1032) 0 then injFire s 0 (e - 1032) else s) s
  else s

/-- Whether a read of a key meets an armed injection. -/
def injRead (s : State) (k : Nat) : Bool :=
  (isScratch k || isVault k) && injHits s (injKind k) (tileX (homeTile k)) (tileY (homeTile k))

/-- A read of a key fires the injection that it meets. -/
def fireRead (s : State) (k : Nat) : State := if injRead s k then injFire s (homeTile k) k else s

/-- The key that an armed injection makes uncorrectable, if a read of it meets one. -/
def armedKey (s : State) (k : Nat) : Option Nat := if injRead s k then some k else none

/-- Whether a read of `n` bytes from a key meets an uncorrectable error: a poisoned unit, or an injection with
DBL. -/
def uncorrectable (s : State) (k n : Nat) : Bool := (injRead s k && injDbl s) || poisoned s k n

/-- A read by a unit other than a context: it fires an armed injection; the read meets an
uncorrectable error when DBL is set or the bytes are poisoned. -/
def unitRead (s : State) (k n : Nat) : State × Bool :=
  (fireRead s k, uncorrectable s k n)

end Sys2Proof.Machine
end

