-- ==== Sys2Proof/Machine/Xlate.lean ====
section
/-! DEFINITION. Cause codes, translation (R370-R372) and the checks of an address (R243, R258,
R259). -/

namespace Sys2Proof.Machine

/-- Where a byte lives: its key and the endpoint that is its home (R284). -/
structure Loc where
  key : Nat
  home : Nat
  deriving DecidableEq, Repr

/-! ### The walk (R370) -/

/-- What a walk finds. -/
inductive Walk where
  | fail
  /-- An entry that holds an uncorrectable error: PAGE, logged as POISONED_PTE. -/
  | poisoned (key : Nat)
  /-- A table whose page is being exchanged, or its row retired: the walk waits (R246, R249). -/
  | busy
  | leaf (e : Word) (big : Bool)
  deriving DecidableEq, Repr

/-- The key of the 4 KiB table that an entry or ROOT names. -/
def tableKey (e : Nat) : Nat :=
  keyVault (tileAt (nfld e 32 5) (nfld e 40 5)) (nfld e 16 13) (4096 * nfld e 12 4)

/-- The reserved bits of the LOC of a vault page or table are zero. -/
def vaultLocOk (e : Nat) : Bool := nfld e 45 12 == 0 && nfld e 37 3 == 0 && nfld e 29 3 == 0

/-- A pointer entry is well formed. -/
def pointerOk (e : Nat) : Bool :=
  nfld e 62 2 == 0 && nfld e 57 3 == 0 && nfld e 2 10 == 0 && vaultLocOk e

/-- A leaf entry is well formed (R370); `big` for a 2 MiB leaf. -/
def leafOk (e : Nat) (big : Bool) : Bool :=
  nfld e 2 10 == 0 && nfld e 12 4 == 0 &&
  (match nfld e 62 2 with
   | 0 => nfld e 57 3 == 0 && vaultLocOk e && (!big || nfld e 16 13 % 32 == 0)
   | 1 => decide (nfld e 57 3 < 2) && (!big || nfld e 16 5 == 0)
   | 2 => !big || nfld e 16 5 == 0
   | _ => false)

/-- The key of the entry of a level's table that an address indexes (R370). -/
def entryKey (va level tbl : Nat) : Nat :=
  tbl + 8 * (if level = 3 then nfld va 16 5 else nfld va (39 - 9 * level) 9)

/-- The walk from a table at a level, `n` levels being left. Tables are read from the array
(R371); a table in a page with V = 0 is not read (R373). -/
def walkFrom (s : State) (va : Nat) : Nat → Nat → Walk
  | 0, _ => .fail
  | n + 1, tbl =>
    let level := 3 - n
    let k := entryKey va level tbl
    let e := natLE (engRead s k 8)
    if pageOff s k then .fail
    else if stalled s k then .busy
    else if uncorrectable s k 8 then .poisoned k
    else if !e.testBit 0 then .fail
    else if e.testBit 1 then
      if level = 3 || !pointerOk e then .fail else walkFrom s va n (tableKey e)
    else if level < 2 then .fail
    else if leafOk e (level == 2) then .leaf (BitVec.ofNat 64 e) (level == 2) else .fail

/-- The keys of the entries that a walk reads. -/
def walkKeys (s : State) (va : Nat) : Nat → Nat → List Nat
  | 0, _ => []
  | n + 1, tbl =>
    let k := entryKey va (3 - n) tbl
    let e := natLE (engRead s k 8)
    if e.testBit 0 && e.testBit 1 then k :: walkKeys s va n (tableKey e) else [k]

/-- A walk in an address space of a tile (R372). -/
def walk (s : State) (t asid va : Nat) : Walk :=
  let e := (genEntry s t asid).toNat
  if vaultLocOk (e &&& 0x1FFFFFFFFFFF) then walkFrom s va 4 (tableKey e) else .fail

/-- Where a leaf puts an address: KIND vault, host or peer (R370). -/
def leafLoc (e : Word) (big : Bool) (va : Nat) : Loc :=
  let mid := if big then nfld va 16 5 else 0
  match fld e 62 2 with
  | 0 =>
    let t := tileAt (fld e 32 5) (fld e 40 5)
    ⟨keyVault t (fld e 16 13 + mid) (va % 65536), t⟩
  | 1 => ⟨keyHost (65536 * (fld e 16 41 + mid) + va % 65536), 1024 + fld e 57 3⟩
  | _ => ⟨keyPeer (fld e 57 3) (65536 * (fld e 16 41 + mid) + va % 65536), 1032 + fld e 57 3⟩

/-- The TLB entry that serves an access: walked under the IGEN in force (R371). -/
def tlbHit (s : State) (t asid va : Nat) : Option TlbEntry :=
  (s.tile t).tlb.find? (fun e => e.asid == asid && e.igen == igen (genEntry s t asid) &&
    (if e.big then e.page / 32 == va / 2 ^ 21 else e.page == va / 65536))

/-- The stack page that the runtime has mapped for an owning copy (R140): the pages of its
reservation from the top down, at the logical pages of Config, and beyond these at places of the stack's own. -/
def stackLoc (s : State) (asid va : Nat) : Option Loc :=
  if va < Config.stackBase then none
  else
    let pl := va / 2 ^ 32 % 2 ^ 15
    match s.ctxs.find? (fun e => decide (e.1 < numCtxs) && e.2.place == pl && !e.2.isTwin && e.2.act != 0 && e.2.asid == asid) with
    | none => none
    | some (_, c) =>
      if c.stackTop - 65536 * c.mapped ≤ va ∧ va < c.stackTop then
        let k := (c.stackTop - 1 - va) / 65536
        if k < Config.stackPages then
          some ⟨keyVault (tileOf pl) (Config.stackLpn (pl % 16) k) (va % 65536), tileOf pl⟩
        else some ⟨keyTwin pl (2 ^ 48 + (va - c.stackLow)), tileOf pl⟩
      else none

/-- What a translation gives: a place, no place, the page-table entry error to log, or a wait. -/
inductive Xlate where
  | ok (l : Loc)
  | fail
  | poisoned (key : Nat)
  | busy
  deriving DecidableEq, Repr

/-- Translation of an address at a tile (R370-R372). -/
def translate (s : State) (t asid va : Nat) (write fetch : Bool) : Xlate :=
  if !genV (genEntry s t asid) then .fail
  else
    match stackLoc s asid va with
    | some l => if fetch then .fail else .ok l
    | none =>
      let w := match tlbHit s t asid va with
        | some e => Walk.leaf e.leaf e.big
        | none => walk s t asid va
      match w with
      | .fail => .fail
      | .poisoned k => .poisoned k
      | .busy => .busy
      | .leaf e big =>
        if (write && !e.getLsbD 61) || (fetch && !e.getLsbD 60) then .fail
        else .ok (leafLoc e big va)

/-- Whether an access at a tile misses the TLB and needs a walk. A stack page that the runtime keeps mapped
needs none. -/
def tlbMiss (s : State) (t asid va : Nat) : Bool :=
  decide (2 ^ 32 ≤ va ∧ va < 2 ^ 48) && genV (genEntry s t asid) && (stackLoc s asid va).isNone && (tlbHit s t asid va).isNone

/-- Entries of a TLB (R368). -/
def tlbSize : Nat := 4096

/-- A walk for a miss (R371): it is counted (R396), touches the pages of its tables (R373) and fires an injection
that its reads meet (R429), and a leaf takes an entry. The entry that was filled first leaves a full TLB (DESIGN CHOICE, log 75). -/
def fillTlb (s : State) (t asid va : Nat) : State :=
  let g := genEntry s t asid
  let s1 := countPerf ((walkKeys s va 4 (tableKey g.toNat)).foldl (fun s k => touchPage (fireRead s k) k 8) s) t 7 1
  match walk s t asid va with
  | .leaf e big =>
    let page := if big then va / 2 ^ 21 * 32 else va / 65536
    s1.modTile t (fun x => { x with tlb := (⟨asid, big, page, e, igen g⟩ ::
      x.tlb.filter (fun y => !(y.asid == asid &&
        (if y.big then y.page / 32 == va / 2 ^ 21 else y.page == va / 65536)))).take tlbSize })
  | _ => s1

/-- The walk that an access needs, if any. -/
def noteWalk (s : State) (t asid va : Nat) : State := if tlbMiss s t asid va then fillTlb s t asid va else s

/-- The state with no exchange and no repair under way. Neither moves a byte (R293), so that a walk or an
access which has waited reads here what it will read then. -/
def calm (s : State) : State :=
  { s with tiles := s.tiles.map (fun (e : Nat × Tile) => (e.1, { e.2 with
      repair := none, remap := e.2.remap.map (fun r => (r.1, { r.2 with busy := false })) })) }

/-! ### The windows (R243) and the private storage of a context (R31, R140) -/

/-- Whether `n` bytes at an address lie wholly in the context's private frame. -/
def inFrame (c : Ctx) (ea n : Nat) : Bool := decide (c.frame ≤ ea ∧ ea + n ≤ c.frame + 4096)
/-- Whether they lie wholly in its stack window (R140). -/
def inWindow (c : Ctx) (ea n : Nat) : Bool := decide (c.window ≤ ea ∧ ea + n ≤ c.window + 4096)
/-- Whether they lie wholly in its stack reservation. -/
def inReserve (c : Ctx) (ea n : Nat) : Bool := decide (c.stackLow ≤ ea ∧ ea + n ≤ c.stackTop)
/-- Whether they lie wholly in its stack region: the reservation and the window (R31). -/
def inStack (c : Ctx) (ea n : Nat) : Bool := inReserve c ea n || inWindow c ea n
/-- Whether an access is to the private frame or the stack (R31). -/
def isPrivate (c : Ctx) (ea n : Nat) : Bool := inFrame c ea n || inStack c ea n
/-- The key of a span twin's own storage for an access in its tile-local private storage, if it lies
there (R43, R140). -/
def twinKey (c : Ctx) (ea n : Nat) : Option Nat :=
  if inFrame c ea n then some (keyTwin c.place (ea - c.frame))
  else if inWindow c ea n then some (keyTwin c.place (4096 + (ea - c.window)))
  else none
/-- The key of a span twin's own frame for an access in it (R43): remote forms, engines and the reads that are no
load reach the owning copy's storage anywhere else (R140, R275). -/
def twinFrame (c : Ctx) (ea n : Nat) : Option Nat :=
  if inFrame c ea n then some (keyTwin c.place (ea - c.frame)) else none
/-- Whether an access touches the stack guard page (R140, R141). -/
def onGuardPage (c : Ctx) (ea n : Nat) : Bool :=
  decide (c.act ≠ 0) && overlaps (c.stackTop - 65536 * (c.mapped + 1)) 65536 ea n

/-- The spaces that a form may reach (R258). -/
inductive Reach where
  /-- Loads, stores and local atomics, and descriptor loads. -/
  | plain
  /-- Address R of RLD, RST, RLDB and RFILL. -/
  | remote
  /-- Address R of RRED, RRED.RK, RCAS and RSAX. -/
  | reduce
  /-- L, B and the blocks of queue, lifeline and outrider instructions: tile-local only. -/
  | tileLocal
  /-- The same outside the private frame and stack (R315, R384, R401). -/
  | shared
  /-- Address L of a remote form (R258, R259). -/
  | remoteL
  /-- GSET and GCLR: tile-local or cluster window. -/
  | windows
  deriving DecidableEq, Repr

/-- The key of a tile-local access of a context (R43, R140). The stack window is scratchpad of its own: no
access to a stack page fills or spills it (DESIGN CHOICE, log 79). -/
def localKey (c : Ctx) (r : Reach) (t ea n : Nat) : Nat :=
  if c.isTwin then ((if r = .plain then twinKey c ea n else twinFrame c ea n)).getD (keyScratch t ea)
  else keyScratch t ea

/-- Whether a form may reach the scratchpad windows and translated addresses. -/
def Reach.local? : Reach → Bool
  | .remote | .reduce => false
  | _ => true
/-- Whether it may reach the cluster window. -/
def Reach.cluster? : Reach → Bool
  | .plain | .windows => true
  | _ => false
/-- Whether it may reach translated addresses. -/
def Reach.vault? : Reach → Bool
  | .plain | .remote | .reduce => true
  | _ => false

/-- Why an address is refused: a cause, and the page-table entry to log; or, with `stall`, that its walk
waits (R246). -/
structure AddrError where
  cause : Cause
  pte : Option Nat
  stall : Bool
  deriving DecidableEq, Repr

/-- The checks of R259 on `n` bytes at `ea`, aligned to `al`, for a form that reaches `r`, and
where the bytes live. Item 1 looks at EA alone, so that ALIGN precedes the PAGE of an access whose
later bytes leave its window or reach the table area. An address space that is not valid at the tile
has no access (R372). An offline page refuses the access at its home, which for a remote form reports it
(R373). A twin's access in its own stack region never reaches the owner's page (R140). -/
def locate (s : State) (g : Nat) (r : Reach) (ea n al : Nat) (write : Bool) : Except AddrError Loc :=
  let c := s.ctx g
  let t := tileOf g
  let page : Except AddrError Loc := .error ⟨.page, none, false⟩
  let aligned : Bool := al == 0 || ea % al == 0
  let top := if r == .windows then 2 ^ 21 else Config.tableArea
  if 2 ^ 48 ≤ ea || !genV (genEntry s t c.asid) then page
  else if ea < 2 ^ 21 then
    if !r.local? || decide (top ≤ ea) || (r == .shared && isPrivate c ea 1) then page
    else if !aligned || (r == .remoteL && decide (65536 < ea % 65536 + n)) then .error ⟨.align, none, false⟩
    else if top < ea + n then page
    else .ok ⟨localKey c r t ea n, t⟩
  else if ea < 2 ^ 24 then page
  else if ea < 2 ^ 25 then
    let m := clusterMap (ea % 2 ^ 24)
    let h := tileOfStop (clusterOf t) m.1
    if !r.cluster? || decide (top ≤ m.2) then page
    else if !aligned then .error ⟨.align, none, false⟩
    else if 2 ^ 25 < ea + n || top < m.2 + min n (128 - ea % 128) then page
    else .ok ⟨keyScratch h m.2, h⟩
  else if ea < 2 ^ 32 then page
  else if !r.vault? then page
  else if !aligned || (r != .plain && decide (65536 < ea % 65536 + n)) then .error ⟨.align, none, false⟩
  else if r == .plain && onGuardPage c ea n then .error ⟨.stackGrow, none, false⟩
  else if r == .plain && c.isTwin && inReserve c ea n then
    if c.stackTop - 65536 * c.mapped ≤ ea then .ok ⟨keyTwin c.place (2 ^ 48 + (ea - c.stackLow)), t⟩ else page
  else
    match translate s t c.asid ea write false with
    | .fail => page
    | .poisoned k => .error ⟨.page, some k, false⟩
    | .busy => .error ⟨.page, none, true⟩
    | .ok l =>
      if (r == .plain && l.home != t) || (r == .reduce && decide (1024 ≤ l.home)) then
        .error ⟨.remoteVault, none, false⟩
      else if r == .plain && pageOff s l.key then page
      else .ok l

/-- Where an engine of a tile finds a byte of an address space: its own scratchpad, its
cluster's window or its own vault, and with `far` any translated space (R224, R337). The table
area, and an offline page, are refused. A walk that an exchange holds up gives what it will give then. -/
def engineLoc (s : State) (t asid va : Nat) (write far : Bool) : Option Loc :=
  if va < 2 ^ 21 then
    if Config.tableArea ≤ va then none else some ⟨keyScratch t va, t⟩
  else if 2 ^ 24 ≤ va ∧ va < 2 ^ 25 then
    let m := clusterMap (va % 2 ^ 24)
    let h := tileOfStop (clusterOf t) m.1
    if Config.tableArea ≤ m.2 then none else some ⟨keyScratch h m.2, h⟩
  else if 2 ^ 32 ≤ va ∧ va < 2 ^ 48 then
    match translate (calm s) t asid va write false with
    | .ok l => if pageOff s l.key || (l.home != t && !far) then none else some l
    | _ => none
  else none

/-- A walk that no context's access makes: it is counted (R396), and an entry that holds an uncorrectable error
is logged (R370). -/
def walkLogged (s : State) (t asid va : Nat) : State :=
  let s1 := fillTlb s t asid va
  match walk (calm s) t asid va with
  | .poisoned k => logAt s1 0x0C Cause.page.code t 0 k 0
  | _ => s1

/-- What an engine's translation of an address leaves behind: the walk for a miss. -/
def engineWalk (s : State) (t asid va : Nat) : State :=
  if tlbMiss s t asid va then walkLogged s t asid va else s

/-- The same for an access of `n` bytes, page by page. -/
def engineWalks (s : State) (t asid va n : Nat) : State :=
  (List.range ((va + n + 65535) / 65536 - va / 65536)).foldl (fun (s : State) (i : Nat) =>
    engineWalk s t asid (if i = 0 then va else (va / 65536 + i) * 65536)) s

end Sys2Proof.Machine
end

