-- ==== Sys2Proof/Machine/Ops.lean ====
section
/-! DEFINITION. Named operations over the contexts: sending packets, the effects buffer and
commit points, taking a trap and returning from it, the ends of an activation, and the
completion of a bundle. -/

namespace Sys2Proof.Machine

/-- A device event: what it does, or nothing while it is not due (DESIGN CHOICE, log 1). -/
def eventStep (f : State → Option State) (s : State) : Host.Outcome State Fault Refusal :=
  .next ((f s).getD s)

/-! ### Sending packets -/

/-- The class of a packet (R366): TBARR's arrival, an effect with a tag, goes in class 14 as every
other effect does, and the reports of engines in class 15. -/
def workClass (tag : GenTag) : Work → Nat
  | .msg t => t.cls
  | .arrival .. => if tag.isSome then 14 else 15
  | .sectors .. | .reply .. | .lifeReply .. => 15
  | _ => 14

/-- NB of a request (R269). -/
def RemoteReq.nb (r : RemoteReq) : Bool := decide (128 ≤ r.modf)
/-- The bytes of the value that a reply brings (R269, R276): W of RLD, RCAS and the local atomics. -/
def RemoteReq.valueBytes (r : RemoteReq) : Nat :=
  if r.opc = 0xCF ∨ r.opc = 0xD3 ∨ (0xC6 ≤ r.opc ∧ r.opc ≤ 0xCD) then 8 / 2 ^ (r.modf % 4) else 0

/-- The physical locator of a byte as a request carries it (R436): home tile, logical page and offset of a vault
byte, else the bridge's or port's physical address. -/
def locator (k : Nat) : Nat :=
  if isVault k then
    tileY (homeTile k) * 2 ^ 40 + tileX (homeTile k) * 2 ^ 32 + keyLpn k * 2 ^ 16 + k % 2 ^ 16
  else if 2 ^ 61 ≤ k ∧ k < 2 ^ 66 then k % 2 ^ 57
  else if 2 ^ 60 ≤ k then k % 2 ^ 60
  else keyOff k

/-- The 32-byte block that begins a request (R276). -/
def RemoteReq.blockBytes (r : RemoteReq) : List Byte :=
  let gen := match r.tag with
    | some (_, g) => g
    | none => 0
  bytesLE 1 r.opc ++ bytesLE 1 r.modf ++ bytesLE 2 r.ctl ++ bytesLE 2 (tileX r.tile + tileY r.tile * 2 ^ 8) ++
  bytesLE 1 (r.ctx % 16) ++ bytesLE 1 gen ++ bytesLE 8 (locator r.key) ++
  bytesLE 4 ((r.l.map keyOff).getD 0) ++
  bytesLE 4 ((r.bar.map (fun b => b.off / 16)).getD 0 + (if 128 ≤ r.modf then 2 ^ 31 else 0)) ++ bytesLE 8 r.v.toNat

/-- The 16-byte block that begins a reply (R276). -/
def Reply.blockBytes (r : Reply) : List Byte :=
  bytesLE 1 r.status ++ bytesLE 1 0 ++ bytesLE 2 r.perf ++ bytesLE 12 0

/-- Payload bytes of a packet (R276, R350, R385): its block and its data, at most 240. -/
def workLen : Work → Nat
  | .store _ _ b _ _ | .engWrite _ b _ => min 240 (16 + b.length)
  | .outWrite parts _ => min 240 (16 + (parts.map (fun w => w.2.length)).sum)
  | .atomic .. => 40
  | .remote r => min 240 (r.blockBytes.length + r.data.length)
  | .nothing | .guardBits .. | .tbinit .. | .tbexp .. | .arrival .. | .sectors .. | .cswap .. | .decz .. => 16
  | .msg t => min 240 t.payload.length
  | .joinAdd .. => 16
  | .task .. => 48
  | .ringPut p => min 240 (16 + p.data.length)
  | .launchRec _ => 144
  | .matrix c => min 240 (48 + c.desc.length)
  | .osub u => min 240 (16 + u.bytes.length)
  | .lifeline r => 32 + r.block.length
  | .reply r => min 240 (r.blockBytes.length + (if r.req.nb || r.status != 0 then 0 else r.req.valueBytes) +
      (r.lw.map (fun e => e.2.length)).sum)
  | .lifeReply _ _ _ d => min 240 (16 + d.length)

/-- Whether a packet carries data that was read with an uncorrectable error (R276, R278, R350). -/
def Work.poisons : Work → Bool
  | .reply r => r.poison
  | _ => false

/-- FLITS of a packet with `n` payload bytes (R350). -/
def flitsOf (n : Nat) : Nat := if 16 < n then 1 + (n - 16 + 31) / 32 else 1

/-- The key of an ordered pair of endpoints. -/
def pairKey (src dst : Nat) : Nat := 2048 * src + dst

/-- Hands a packet to the source's network interface: it takes the next SEQ of its pair and is
retained until its ACK (R361, R362). `tag` is its effect's (R294); it is not injected before the packet
`after`, if any, is acknowledged. The reply of a blocking form whose read met an error carries POISON
(R350). -/
def sendOne (s : State) (src dst : Nat) (owner : Owner) (lslot : Nat) (tag : GenTag) (after : Option Nat) (w : Work) :
    State :=
  let k := pairKey src dst
  let seq := tabGet 0 s.seqOut k
  let p : Packet :=
    { src := src, dst := dst, cls := workClass tag w, seq := seq, ts := 0, lslot := lslot,
      len := workLen w, resent := false, poison := w.poisons, old := false, owner := owner,
      work := w, place := .source, flits := List.replicate (flitsOf (workLen w)) .source,
      since := s.cycle, born := s.cycle, resends := 0, tag := tag, after := after, stamped := false,
      effect := s.nextPkt, counted := false, held := false, waited := 0 }
  { s with
    pkts := tabSet s.pkts s.nextPkt p
    nextPkt := s.nextPkt + 1
    seqOut := tabSet s.seqOut k ((seq + 1) % 65536) }

/-- Sends what an effect asks of a destination. With a join counter's addition goes the record that waits
for its acknowledgement: it takes its place in the order of its own pair at once (R286, R311). -/
def sendTagged (s : State) (src dst : Nat) (owner : Owner) (lslot : Nat) (tag : GenTag) (w : Work) : State :=
  match w with
  | .joinAdd _ rec target =>
    sendOne (sendOne s src dst owner lslot tag none w) src target owner lslot tag (some s.nextPkt) (.task rec)
  | w => sendOne s src dst owner lslot tag none w

/-- Sends what a unit asks of a destination, which no generation tag guards. -/
def sendWork (s : State) (src dst : Nat) (owner : Owner) (lslot : Nat) (w : Work) : State :=
  sendTagged s src dst owner lslot none w

/-- An arrival at a barrier that an engine, a remote form or the control plane makes for a launch (R398). -/
def sendArrival (s : State) (src lslot : Nat) (bar : Option Bar) (flt : Bool) (cls ab : Nat) : State :=
  match bar with
  | none => s
  | some b => sendWork s src b.tile .none lslot (.arrival b.off 1 flt cls ab)

/-! ### The effects buffer (R36-R40) -/

/-- Bytes an effect takes in the buffer (R36). -/
def Effect.size (e : Effect) : Nat := 16 + roundUp 16 e.data.length

/-- Bytes held. -/
def heldBytes (l : List Effect) : Nat := (l.map Effect.size).sum

/-- The 16-byte header of R37. -/
def Effect.header (e : Effect) : List Byte :=
  bytesLE 1 e.opc ++ bytesLE 1 e.modf ++ bytesLE 2 e.data.length ++ bytesLE 2 e.ctl ++
  bytesLE 2 e.part ++ bytesLE 8 e.addr.toNat

/-- The stores that a list of effects holds, in order, for forwarding (R36). -/
def effectStores (l : List Effect) : List (Nat × List Byte) :=
  l.flatMap (fun e => e.parts.filterMap (fun w => match w.2 with
    | .store k _ b _ _ => some (k, b)
    | _ => none))

/-- The stores of an activation that have left its buffer and are not yet performed (DEDUCED, log 12). -/
def flyingStores (s : State) (act : Nat) : List (Nat × List Byte) :=
  s.pkts.filterMap (fun e =>
    if e.2.owner == .act act && e.2.place != .done then
      match e.2.work with
      | .store k _ b _ _ => some (k, b)
      | _ => none
    else none)

/-- The packets from a number on belong to the effect of that number. -/
def markEffect (s : State) (n : Nat) : State :=
  { s with pkts := s.pkts.map (fun (e : Nat × Packet) => if n ≤ e.1 then (e.1, { e.2 with effect := n }) else e) }

/-- Sends the packets of an effect that an activation's context forwards. -/
def sendEffect (s : State) (g : Nat) (c : Ctx) (e : Effect) : State :=
  markEffect (e.parts.foldl (fun s p => sendTagged s (tileOf g) p.1 (.act c.act) c.lslot e.tag p.2) s) s.nextPkt

/-- Forwards a release group (R40): each effect's packets leave in program order. -/
def forwardGroup (s : State) (g : Nat) (gr : Group) : State :=
  let c := s.ctx g
  let s1 := gr.effects.foldl (fun s e => sendEffect s g c e) s
  countPerf (s1.modCtx g (fun c => { c with fwd := c.fwd + gr.effects.length, fwdAny := true }))
    (tileOf g) 2 gr.effects.length

/-- Releases everything held as one group (R38). A commit point other than the end sets
COMMITTED. -/
def release (s : State) (g : Nat) (final : Bool) : State :=
  s.modCtx g (fun c => { c with
    held := []
    group := (c.group + 1) % 65536
    groups := c.groups ++ [⟨c.group, c.held, false, final⟩]
    status := if final then c.status else putFld c.status 13 1 1 })

/-! ### Lines and targets (R86-R88, R105-R108) -/

/-- The address of a line. -/
def lineOf (a : Nat) : Nat := a / 64 * 64
/-- The head index of an address. -/
def headOf (a : Nat) : Nat := a % 64 / 2

/-- Where the line at an address lives for a context (R88): the windows, or a translated page
with XE, whatever tile's vault holds it; host and peer memory give REMOTE_VAULT (DEDUCED, log 43). -/
def codeLoc (s : State) (g a : Nat) : Except AddrError Loc :=
  let c := s.ctx g
  let la := lineOf a
  if 2 ^ 48 ≤ a then .error ⟨.page, none, false⟩
  else if a < 2 ^ 32 then locate s g .plain la 64 64 false
  else
    match translate s (tileOf g) c.asid la false true with
    | .fail => .error ⟨.page, none, false⟩
    | .poisoned k => .error ⟨.page, some k, false⟩
    | .busy => .error ⟨.page, none, true⟩
    | .ok l =>
      if pageOff s l.key then .error ⟨.page, none, false⟩
      else if 1024 ≤ l.home then .error ⟨.remoteVault, none, false⟩
      else .ok l

/-- What a fetch gives: the 64 bytes as a processor reads them, a stall, an uncorrectable error,
or a refusal. -/
inductive Fetch where
  | line (b : List Byte)
  | stall
  | poison (key : Nat)
  | err (e : AddrError)
  deriving DecidableEq, Repr

/-- Fetches the line at an address for a context (R88). A fetch that its home refuses for its
generation is repeated (R294). A guarded line is not read: its bytes are free values (R256; DESIGN CHOICE,
log 66). -/
def fetchLine (s : State) (g a : Nat) : Fetch :=
  match codeLoc s g a with
  | .error e => if e.stall then .stall else .err e
  | .ok l =>
    if staleAt s l.home (tagOf s (tileOf g) (s.ctx g).asid) || stalled s l.key then .stall
    else if guarded s l.key 64 then .line (Config.freeBytes (s.ctx g).act (2 ^ 101 + l.key) 64)
    else if uncorrectable s l.key 64 then .poison l.key
    else .line (visRead s l.key 64)

/-- Whether an address lies in the body of level 0, whose lines the loop buffer holds (R164). -/
def Ctx.inBody (c : Ctx) (a : Nat) : Bool :=
  match c.loops with
  | l :: _ => decide (l.start ≤ a ∧ a < l.exit)
  | [] => false

/-- The line at an address as the loop buffer of a context holds it (R132). -/
def Ctx.bufferLine (c : Ctx) (a : Nat) : Option (List Byte) :=
  if c.inBody a then tabFind c.body (lineOf a) else none

/-- The line at an address that a context need not fetch: that of its loop buffer, or the one that it
executes (R88). -/
def Ctx.heldLine (c : Ctx) (a : Nat) : Option (List Byte) :=
  (c.bufferLine a).or (match c.line with
    | some (l, b) => if l = lineOf a then some b else none
    | none => none)

/-- The line at an address as a context executes it: held, or fetched now. -/
def lineNow (s : State) (g a : Nat) : Fetch :=
  match (s.ctx g).heldLine a with
  | some b => .line b
  | none => fetchLine s g a

/-- One more touch of a guarded byte. -/
def Ctx.touchGuard (c : Ctx) (a off : Nat) : Ctx :=
  { c with guard := match c.guard with
      | some (f, o, n) => some (f, o, min (n + 1) (2 ^ 32 - 1))
      | none => some (a, off, 0) }

/-- What the fetch of the line at an address leaves behind: a walk (R396), LAST and the bytes moved (R373) and
the firing of an injection (R429), or the touch of a guarded byte (R256). -/
def touchFetch (s : State) (g a : Nat) : State :=
  match codeLoc s g a with
  | .error _ => s
  | .ok l =>
    if guarded s l.key 64 then s.modCtx g (fun c => c.touchGuard (lineOf a) (keyOff l.key))
    else touchPage (fireRead (noteWalk s (tileOf g) (s.ctx g).asid (lineOf a)) l.key) l.key 64

/-- A context begins to execute a line: one that it does not hold has been fetched. It holds the line until a
transfer is taken or control leaves the line (R88, R108; DEDUCED, log 43). -/
def holdLine (s : State) (g a : Nat) (b : List Byte) : State :=
  let s1 := match (s.ctx g).heldLine a with
    | some _ => s
    | none => touchFetch s g a
  s1.modCtx g (fun c => { c with line := some (lineOf a, b) })

/-- A refused target: the cause, and the page-table entry to log. -/
abbrev TargetError := AddrError

/-- What the checks of a target give: it serves, it is refused, or its fetch stalls or meets an
uncorrectable error (R106, R294, R41). -/
inductive Target where
  | ok
  | err (e : TargetError)
  | stall
  | poison (key : Nat)
  deriving DecidableEq, Repr

/-- Checks 4 to 6 of R106 on the fetched line: its validity, the head index, the first head of a
bundle. -/
def lineTarget (b : List Byte) (a : Nat) : Target :=
  if !lineValid b then .err ⟨.badLine, none, false⟩
  else if lineH (BitVec.ofNat 16 (natAt b 0 2)) < headOf a then .err ⟨.badTarget, none, false⟩
  else if !isBundleStart b (headOf a) then .err ⟨.badTarget, none, false⟩
  else .ok

/-- The line at a target: of the loop buffer, or fetched. -/
def targetLine (s : State) (g a : Nat) : Fetch :=
  match (s.ctx g).bufferLine a with
  | some b => .line b
  | none => fetchLine s g a

/-- The target checks of R106 in their order: odd, line word, fetch, then those of the line. -/
def checkTarget (s : State) (g a : Nat) : Target :=
  if a % 2 = 1 then .err ⟨.badTarget, none, false⟩
  else if a % 64 = 0 then .err ⟨.badTarget, none, false⟩
  else
    match targetLine s g a with
    | .err e => .err e
    | .stall => .stall
    | .poison k => .poison k
    | .line b => lineTarget b a

/-- The address after the head at `a`, with H heads in its line (R108). -/
def nextHead (a h : Nat) : Nat := if headOf a < h then a + 2 else lineOf a + 66

/-! ### Faults and traps (R403-R409) -/

/-- The 64 bytes of a trap record (R407). -/
def trapRecord (i : TrapInfo) (status : Word) (cycle : Nat) : List Byte :=
  let flags := i.addr.isSome.toNat + 2 * i.target.toNat + 4 * i.imprecise.toNat + 8 * i.reply.toNat
  bytesLE 2 i.cause.code ++ bytesLE 1 (i.fhead % 32) ++ bytesLE 1 flags ++ bytesLE 4 i.count ++
  bytesLE 8 i.bpc ++ bytesLE 8 i.rpc ++ bytesLE 8 (i.addr.getD 0) ++ bytesLE 8 i.code ++
  bytesLE 8 status.toNat ++ bytesLE 8 cycle ++ bytesLE 8 0

/-- The ending that a cause would give. -/
def TrapInfo.ending (i : TrapInfo) (nested : Bool) : Ending :=
  ⟨i.cause.code, i.bpc, i.addr.getD 0, i.code, nested⟩

/-! ### The ends of an activation -/

/-- The owning context of a context's activation (R43). -/
def ownerOf (s : State) (g : Nat) : Nat :=
  let c := s.ctx g
  match c.twin with
  | some t => if c.isTwin then t else g
  | none => g

/-- A context back in FREE (R28): its registers, frame and stack are discarded (R32). The record of
an ended copy that the interface keeps is dropped. -/
def freeCtx (s : State) (g : Nat) : State :=
  if numCtxs ≤ g then { s with ctxs := tabDel s.ctxs g }
  else s.modCtx g (fun c => { Ctx.reset g with place := c.place, addrPlace := c.place })

/-- The number under which the interface keeps the record of a copy that has ended. -/
def parkedAt (s : State) (g : Nat) : Nat := numCtxs * (1 + (s.ctx g).act) + g % numCtxs

/-- A copy of a span has ended and the interface has all that it compares with the twin: the
context becomes FREE (R28), and what the interface holds of the copy until the compare is kept under
`parkedAt` (R44, R411). -/
def parkCtx (s : State) (g : Nat) : State :=
  let c := s.ctx g
  let p := parkedAt s g
  if numCtxs ≤ g then s
  else
    let s1 := freeCtx (s.setCtx p c) g
    match c.twin with
    | some w => s1.modCtx w (fun d => { d with twin := some p })
    | none => s1

/-- Frees a context and its twin. -/
def freeBoth (s : State) (g : Nat) : State :=
  match (s.ctx g).twin with
  | some t => freeCtx (freeCtx s t) g
  | none => freeCtx s g

/-- The BPC of the last bundle of a context: the one in progress, or the last that completed
(R413). -/
def Ctx.lastBundle (c : Ctx) : Nat :=
  match c.stage with
  | some st => st.bpc
  | none => c.lastBpc

/-- The effects that an end drops: those held and those in groups not forwarded (R413). -/
def dropCount (c : Ctx) : Nat := c.held.length + (c.groups.map (fun g => g.effects.length)).sum

/-- The flags byte of a kill report (R413). -/
def killFlags (c : Ctx) (nested : Bool) : Nat :=
  c.twin.isSome.toNat + 2 * (fld c.status 13 1) + 4 * nested.toNat + 8 * (fld c.status 12 1)
    + 16 * (fld c.status 11 1)

/-- Whether an effect forwarded for an activation is not yet performed (R284). -/
def actFlying (s : State) (act : Nat) : Bool :=
  s.pkts.any (fun (e : Nat × Packet) => e.2.owner == .act act && e.2.place != .done)

/-- The report of a killed activation's end is made when the effects forwarded for it have been performed or
lost, so that whoever reads it finds them performed (R297, R299). -/
def postKill (s : State) (act : Nat) (e : List Byte) : State :=
  if actFlying s act then { s with mgmt := { s.mgmt with kills := s.mgmt.kills ++ [(act, e)] } } else postLog s e

/-- One more effect of a killed activation is lost before its report is made (R404, R413). -/
def lostAfterKill (s : State) (act : Nat) : State :=
  { s with mgmt := { s.mgmt with kills := s.mgmt.kills.map (fun (e : Nat × List Byte) =>
      if e.1 = act then (act, overlay e.2 0 20 (bytesLE 4 (natAt e.2 20 4 + 1))) else e) } }

/-- Makes the kill report of the activation that the owning context `g` ran (R413). Its launch
then completes with STATUS 6. -/
def killReport (s : State) (g : Nat) (e : Ending) : State :=
  let c := s.ctx g
  let s1 := postKill s c.act (logEntry 1 e.cause (tileOf g) (g % 16) (killFlags c e.nested) c.lslot
    c.fwd (dropCount c) c.lost e.bpc e.addr e.code s.cycle)
  match s1.launch c.lslot with
  | some l => s1.setLaunch c.lslot { l with failed := true }
  | none => s1

/-- The trigger is consumed; a task with JOIN valid is to be subtracted (R311). -/
def consume (s : State) (g : Nat) (flt : Bool) : State :=
  let c := s.ctx g
  match c.trig with
  | some t =>
    match t.join with
    | some (home, off) =>
      s.modTile (tileOf g) (fun x => { x with joinSubs := x.joinSubs ++ [(home, off, flt, c.act)] })
    | none => s
  | none => s

/-- CODE of a GUARD report: the bank in [6:0] and the offset in it in [29:16] (R407). -/
def guardCode (off : Nat) : Nat :=
  (Config.scratchBank off).toNat + 2 ^ 16 * (Config.scratchRow off).toNat

/-- A pending GUARD does not stop an end: it is logged, with the fields of R407 (R410). -/
def logGuard (s : State) (g : Nat) : State :=
  let c := s.ctx g
  match c.guard with
  | some (a, off, n) => postLog s (logEntry 5 Cause.guard.code (tileOf g) (g % 16) 0 c.lslot 0 0 n
      c.lastBundle a (guardCode off) s.cycle)
  | none => s

/-- Whether the context runs in system mode (R405). -/
def Ctx.sys (c : Ctx) : Bool := c.status.getLsbD 15

/-- The pending GUARD of every copy of an activation is logged at its end (R410). -/
def logGuards (s : State) (o : Nat) : State :=
  match (s.ctx o).twin with
  | some w => logGuard (logGuard s o) w
  | none => logGuard s o

/-- The context ends by a fault or containment event: one kill report, what is held is dropped,
the trigger is consumed, and every copy is FREE (R41, R42, R413). -/
def endKilled (s : State) (g : Nat) (e : Ending) : State :=
  let o := ownerOf s g
  freeBoth (consume (killReport (logGuards s o) o e) o true) o

/-- The ending by a containment cause at the last bundle of a context: in system mode it is NESTED (R409). -/
def endingBy (s : State) (g : Nat) (cause : Cause) : Ending :=
  ⟨cause.code, (s.ctx g).lastBundle, 0, 0, (s.ctx g).sys⟩

/-- A group that a single context has released is forwarded though a commanded kill comes before the
interface has accepted it (R297, R299). -/
def forwardReleased (s : State) (g : Nat) : State :=
  let c := s.ctx g
  if c.twin.isSome || c.bufErr then s
  else (c.groups.foldl (fun s gr => forwardGroup s g gr) s).modCtx g (fun c => { c with groups := [] })

/-- A kill that the host or the runtime commands (R404, R421). -/
def commandKill (s : State) (g : Nat) : State :=
  endKilled (forwardReleased s g) g (endingBy s (ownerOf s g) .killed)

/-- Records that a deque and its overflow ring hold (R50, R300). -/
def dequeRoom : Nat := 256 + 4096

/-- Whether a record's deque has room. -/
def hasRoom (x : Tile) (tr : Trigger) : Bool := decide ((x.deques.getD tr.eff []).length < dequeRoom)

/-- Whether the queue that a trigger goes back to has room (R300). -/
def backRoom (x : Tile) (tr : Trigger) : Bool :=
  match tr.kind with
  | .msg => decide (x.arrival.length < 256)
  | .cont => decide (x.conts.length < 64)
  | .task => hasRoom x tr

/-- A trigger goes to the front of its queue, with its first arrival time and passes (R41, R45; DESIGN
CHOICE, log 57). -/
def putBack (x : Tile) (tr : Trigger) : Tile :=
  match tr.kind with
  | .msg => { x with arrival := tr :: x.arrival }
  | .cont => { x with conts := tr :: x.conts }
  | .task => { x with deques := x.deques.set tr.eff (tr :: x.deques.getD tr.eff []) }

/-- Puts a trigger back for another activation (R41, R45): in its queue, or, where that is full, among
those that wait for room in it. -/
def requeue (s : State) (t : Nat) (tr : Trigger) : State :=
  s.modTile t (fun x => if backRoom x tr then putBack x tr else { x with redeliver := x.redeliver ++ [tr] })

/-- The tile after a trigger of a kind that waits for room has gone back, if there is one that can. -/
def takeBack (x : Tile) (kind : TrigKind) : Option Tile :=
  match x.redeliver.zipIdx.find? (fun e => e.1.kind == kind && backRoom x e.1) with
  | some (tr, i) => some { putBack x tr with redeliver := dropAt x.redeliver i }
  | none => none

/-- A span mismatch (R45): one re-run from the trigger on the other pair, or the end with
SPAN_MISMATCH. -/
def spanMismatch (s : State) (g : Nat) : State :=
  let o := ownerOf s g
  let c := s.ctx o
  match c.trig with
  | some tr =>
    if c.fwdAny || tr.rerun then endKilled s o (endingBy s o .spanMismatch)
    else
      countEvent (requeue (freeBoth s o) (tileOf o)
        { tr with rerun := true, pair := 1 + (1 - (o % 16 / 4) % 2) }) (tileOf o) 4
  | none => endKilled s o (endingBy s o .spanMismatch)

/-- A copy of a span ends by a cause, its last bundle being at `pc` (R413): R411 compares the end
with its twin's. The first copy to end is FREE, and the interface keeps its end. -/
def endFault (s : State) (g : Nat) (e : Ending) (pc : Nat) : State :=
  match (s.ctx g).twin with
  | none => endKilled s g { e with bpc := pc }
  | some t =>
    let d := s.ctx t
    match d.ending with
    | some e' => if e'.cause = e.cause ∧ e'.bpc = e.bpc then endKilled s g { e with bpc := pc } else spanMismatch s g
    | none =>
      if d.st = .releasing then spanMismatch s g
      else parkCtx (s.modCtx g (fun c => { c with
        st := .releasing, waiting := .none, stage := none, ending := some e, endedAt := s.cycle })) g

/-- An uncorrectable error that an activation consumes (R41). In system mode it ends the context at
once (R409). Its kill report gives no address (R407: it writes no trap record, DEDUCED, log 15). -/
def consumePoison (s : State) (g : Nat) : State :=
  let o := ownerOf s g
  let c := s.ctx o
  let e := endingBy s g .uncorrectable
  match c.trig with
  | some tr =>
    if c.fwdAny || (s.ctx g).sys || 2 ≤ tr.redeliv then endKilled s o e
    else requeue (freeBoth s o) (tileOf o) { tr with redeliv := tr.redeliv + 1 }
  | none => endKilled s o e

/-- The continuation of a YIELD is the last effect of the final group (R317); what is held is
released before it when it does not fit (R39). -/
def lastEffect (s : State) (g : Nat) (e : Option Effect) : State :=
  match e with
  | none => s
  | some e =>
    let s1 := if heldBytes (s.ctx g).held + e.size ≤ Config.bufferBytes then s else release s g false
    s1.modCtx g (fun c => { c with held := c.held ++ [e] })

/-- A normal end (R32): the remaining effects are the final group and the context is
RELEASING. A YIELD is a commit point of its own and sets COMMITTED (R33, R38). An end other than HALT by a
handler of an unresumed precise fault is R42's instead (R408). -/
def endNormal (s : State) (g : Nat) (cont : Option (Trigger × Effect)) (halt : Option Nat) : State :=
  let c := s.ctx g
  match (if halt.isSome then none else c.faulted) with
  | some e => endFault s g e c.lastBpc
  | none =>
    match c.twin.bind (fun t => (s.ctx t).ending) with
    | some _ => spanMismatch s g
    | none =>
      (release (lastEffect (logGuard s g) g (cont.map (·.2))) g true).modCtx g (fun c => { c with
        st := .releasing, waiting := .none, stage := none, loops := [], body := [], cont := cont.map (·.1),
        halted := halt, guard := none, endedAt := s.cycle
        status := if cont.isSome then putFld c.status 13 1 1 else c.status })

/-- The page-table error that a refused translation logs (R370). -/
def logPte (s : State) (g : Nat) : Option Nat → State
  | none => s
  | some k => logAt s 0x0C Cause.page.code (tileOf g) (s.ctx g).lslot k 0

/-- Whether the trap of a context must wait: the line of its record, or of its vector, is being exchanged or
repaired (R246, R249, R261), or its home refuses the vector's generation (R294). -/
def trapWaits (s : State) (g : Nat) : Bool :=
  (match locate s g .plain (s.ctx g).saveptr.toNat 64 64 true with
   | .error e => e.stall
   | .ok l => stalled s l.key) || checkTarget s g (fld (s.ctx g).trapvec 0 48) == .stall

/-- Taking a trap (R406-R409): the record at CTX_SAVEPTR, SYS, and the vector. This is the one
operation through which every precise fault, imprecise GUARD, failed reply and instruction trap
goes. Pre-emption comes next, at the handler's first bundle (R410). A record or a vector that an exchange or
a repair holds up is waited for: the context stands in RUN until the trap is taken. -/
def takeTrap (s : State) (g : Nat) (i : TrapInfo) : State :=
  let s := logPte s g i.pte
  let c := s.ctx g
  if c.sys then endFault s g (i.ending true) i.bpc
  else if trapWaits s g then
    s.modCtx g (fun c => { c with
      st := .run, waiting := .none, stage := none, resume := none, trapDue := some { i with pte := none } })
  else
    let sp := c.saveptr.toNat
    let s := engineWalk s (tileOf g) c.asid sp
    match locate s g .plain sp 64 64 true with
    | .error _ => endFault s g ⟨Cause.page.code, i.bpc, sp, i.cause.code, true⟩ i.bpc
    | .ok l =>
      if staleAt s l.home (tagOf s (tileOf g) c.asid) || guarded s l.key 64 then
        endFault s g ⟨Cause.page.code, i.bpc, sp, i.cause.code, true⟩ i.bpc
      else
        let s1 := performStore s l.key (trapRecord i c.status s.cycle) 0
        let vec := fld c.trapvec 0 48
        let resumable := i.imprecise || i.reply || i.cause == .trap || i.cause == .syscall ||
          i.cause == .bkpt
        let s2 := s1.modCtx g (fun c => { c with
          status := putFld c.status 15 1 1
          st := .run
          waiting := .none
          stage := none
          resume := none
          line := none
          trapDue := none
          lastBpc := i.bpc
          tested := true
          faulted := if resumable then none else some (i.ending false) })
        match checkTarget s2 g vec with
        | .err _ => endFault s2 g ⟨Cause.badTarget.code, i.bpc, vec, 0, true⟩ i.bpc
        | .poison k => consumePoison (fireRead s2 k) g
        | .ok | .stall => s2.modCtx g (fun c => { c with pc := vec })

/-- The return from a trap (R176): user mode, at the checked address. -/
def sysReturn (c : Ctx) (target : Nat) : Ctx :=
  { c with status := putFld c.status 15 1 0, pc := target, faulted := none, line := none }

end Sys2Proof.Machine
end

