-- ==== Sys2Proof/Machine/Operands.lean ====
section
/-! DEFINITION. Operand forms: sources, literals, constants and stream pops (R97-R104), the
loads of a bundle with forwarding (R36), and the places that place and routing words name. -/

namespace Sys2Proof.Machine

/-- Why a head does not complete now. -/
inductive Stop where
  | fault (f : HeadFault)
  /-- Row repair, a busy page, or a stream queue that is short: the bundle issues later (R99,
  R261). -/
  | stall
  /-- An uncorrectable error is consumed (R41); with the key that an armed injection struck. -/
  | poison (addr : Nat) (inj : Option Nat)
  deriving DecidableEq, Repr

/-- A fault with no address. -/
def Stop.of (c : Cause) : Stop := .fault ⟨c, none, false, 0, none⟩
/-- A fault at a data address. -/
def Stop.at_ (c : Cause) (a : Nat) : Stop := .fault ⟨c, some a, false, 0, none⟩
/-- A refused address. -/
def Stop.addr (e : AddrError) (a : Nat) : Stop := if e.stall then .stall else .fault ⟨e.cause, some a, false, 0, e.pte⟩
/-- A failed target check: the record gives the target (R107). -/
def Stop.target (e : TargetError) (a : Nat) : Stop := if e.stall then .stall else .fault ⟨e.cause, some a, true, 0, e.pte⟩

/-! ### Sources -/

/-- How a form takes its literals and constants (R104). -/
inductive LitClass where
  | int (signed : Bool)
  | fp
  deriving DecidableEq, Repr

/-- A `w`-bit literal or constant extended to 64 bits (R100, R104). -/
def extLit (cl : LitClass) (w v : Nat) : Word :=
  match cl with
  | .int true => BitVec.ofInt 64 (sint w v)
  | _ => BitVec.ofNat 64 v

/-- The literal of a tail as srcB or as field16 (R104). -/
def literal (cl : LitClass) : Tail → Word
  | .i20 v _ => BitVec.ofNat 64 (v.toNat * 2 ^ 12)
  | .t48l v _ _ _ => extLit cl 32 v.toNat
  | .t48x f _ _ _ _ _ => match cl with
    | .fp => BitVec.ofNat 64 (f.toNat * 2 ^ 16)
    | _ => extLit cl 16 f.toNat
  | _ => 0

/-- The constant index of source number `i` (0, 1, 2): the T32 modifier byte, or the first or
second index byte of field16 (R100). -/
def constIndex (t : Tail) (i : Nat) : Nat :=
  match t with
  | .t32 m _ _ _ _ => m.toNat
  | .t48x f _ _ _ b a =>
    let earlier := (i == 1 && a == .k) || (i == 2 && (a == .k || b == .k))
    if earlier then f.toNat / 256 else f.toNat % 256
  | _ => 0

/-- Whether a stream record is the index source of an active record (R345). -/
def isIndexSource (c : Ctx) (k : Nat) : Bool :=
  c.streams.toList.any (fun r => r.idx && r.isrc == k && decide (r.popped < r.count))

/-- The next element that a pop of %s`k` takes, after the pops of the bundle so far (R99,
R348). A second pop of one bundle that finds no element left in all is the pop of an idle record
(R348; DEDUCED, log 70). -/
def popStream (c : Ctx) (st : Stage) (k : Nat) : Except Stop (Word × Stage) :=
  let r := c.streams.toList.getD k Stream.idle
  if isIndexSource c k then .error (.of .illegalOperand)
  else
    match r.queue[(st.pops.filter (· == k)).length]? with
    | some (v, none) => .ok (v, { st with pops := st.pops ++ [k] })
    | some (_, some (code, a)) =>
      let cause := if code = 0x09 then Cause.stackGrow else if code = 0x07 then .align
        else if code = 0x0A then .remoteVault else if code = 0x02 then .illegalOperand else .page
      if code = 0x60 then .error (.poison a none) else .error (.at_ cause a)
    | none => if r.fetched < r.count then .error .stall else .error (.of .illegalOperand)

/-- A named register (R132). -/
def Ctx.reg (c : Ctx) (i : BitVec 5) : Word := c.n[i.toNat]

/-- The value of source number `i` as of the start of the bundle (R94, R97). -/
def readSrc (cl : LitClass) (c : Ctx) (t : Tail) (i : Nat) (x : Src) (st : Stage) :
    Except Stop (Word × Stage) :=
  match x with
  | .q a => .ok (c.q.getD a.toNat 0, st)
  | .n r => .ok (c.reg r, st)
  | .zero => .ok (0, st)
  | .lit => .ok (literal cl t, st)
  | .k => .ok (extLit cl 32 ((c.k.getD (constIndex t i) 0).toNat), st)
  | .pop k => popStream c st k.toNat

/-- The values of srcA, srcB and srcC, with the pops in that order (R94). -/
def operands (cl : LitClass) (c : Ctx) (t : Tail) (st : Stage) :
    Except Stop (Word × Word × Word × Stage) :=
  match readSrc cl c t 0 (tailA t) st with
  | .error e => .error e
  | .ok (a, st1) =>
    match readSrc cl c t 1 (tailB t) st1 with
    | .error e => .error e
    | .ok (b, st2) =>
      match readSrc cl c t 2 (tailC t) st2 with
      | .error e => .error e
      | .ok (d, st3) => .ok (a, b, d, st3)

/-- The signedness that the nibble gives an integer form (R103). -/
def tailSigned (t : Tail) : Bool := tailM t / 4 % 2 == 1

/-- The width in bits of the nibble: 64, 32, 16 or 8 (R103). -/
def tailW (t : Tail) : Nat := 64 / 2 ^ (tailM t % 4)

/-! ### Writing the stage -/

/-- A pushed result, also written to the destination when D = 1 (R92). -/
def Stage.push (st : Stage) (v : Word) (d : Dest) : Stage :=
  { st with
    pushes := st.pushes ++ [v]
    regs := match d with
      | some r => st.regs ++ [(r.toNat, v)]
      | none => st.regs }

/-- A predicate write (R150); %p0 discards it when the bundle completes. -/
def Stage.setPred (st : Stage) (k : Nat) (v : Bool) : Stage := { st with preds := st.preds ++ [(k, v)] }

/-- How far an act's wait reports failed accesses (R278): 0 for nothing, else 1 plus the fence
scope. -/
def actChecks : Act → Nat
  | .fence scope _ => if scope = 0 then 0 else 1 + scope
  | .blocking .. | .rejected _ => 5
  | _ => 0

/-- One more ordered act, and the head whose wait reports failed accesses (R278, R407). -/
def Stage.act (st : Stage) (a : Act) : Stage :=
  { st with
    acts := st.acts ++ [a]
    checks := if actChecks a = 0 then st.checks else st.checks ++ [(headOf st.at_, actChecks a)] }

/-- The push and the write that a reply will fill: their places in the stage, filled with 0. -/
def Stage.pushLater (st : Stage) (d : Dest) : Stage × Option Nat × Option Nat :=
  (st.push 0 d, some st.pushes.length, d.map (fun _ => st.regs.length))

/-! ### Loads (R36, R260) -/

/-- The stores that earlier heads of the bundle have staged. -/
def stagedStores (st : Stage) : List (Nat × List Byte) :=
  st.acts.flatMap (fun a => match a with
    | .store k b => [(k, b)]
    | .effects es => effectStores es
    | .blocking e _ _ => effectStores [e]
    | _ => [])

/-- The stores that a load of the context sees before they are performed, oldest first (R36,
DEDUCED, log 12). -/
def ownStores (s : State) (c : Ctx) (st : Stage) : List (Nat × List Byte) :=
  (if c.act = 0 then [] else flyingStores s c.act) ++
  effectStores (c.groups.flatMap (fun g => g.effects)) ++ effectStores c.held ++ stagedStores st

/-- Lays stores over bytes. -/
def forward (stores : List (Nat × List Byte)) (k : Nat) (bs : List Byte) : List Byte :=
  stores.foldl (fun bs e => overlay bs k e.1 e.2) bs

/-- Whether the context's own stores cover all `n` bytes from `k`. -/
def covered (stores : List (Nat × List Byte)) (k n : Nat) : Bool :=
  forward stores k (List.replicate n 0) == forward stores k (List.replicate n 255)

/-- The walk that a translated access makes, done with the bundle's acts (R371). -/
def Stage.walked (s : State) (g ea : Nat) (st : Stage) : Stage :=
  if tlbMiss s (tileOf g) (s.ctx g).asid ea then st.act (.walk (s.ctx g).asid ea) else st

/-- A direct load of `n` bytes at `ea`, aligned to `al`, with the checks of R259 (R36, R260,
R256, R261, R294, R429). -/
def loadBytes (s : State) (g : Nat) (r : Reach) (ea n al : Nat) (st : Stage) :
    Except Stop (List Byte × Stage) :=
  let c := s.ctx g
  match locate s g r ea n al false with
  | .error e => .error (.addr e ea)
  | .ok l =>
    let st0 := st.walked s g ea
    let st1 := if isVault l.key then st0.act (.touch l.key n) else st0
    let own := ownStores s c st
    if stalledOver s l.key n then .error .stall
    else if guarded s l.key n then .ok (Config.freeBytes s.fresh (2 ^ 70 * st.acts.length + l.key) n, st1.act (.guardTouch ea (keyOff l.key)))
    else if staleAt s l.home (tagOf s (tileOf g) c.asid) then
      .ok (Config.freeBytes s.fresh (2 ^ 70 * st.acts.length + l.key) n, st1.act (.rejected 2))
    else if covered own l.key n && n != 0 then .ok (forward own l.key (visRead s l.key n), st1)
    else if injRead s l.key && injDbl s then .error (.poison ea (some l.key))
    else if poisoned s l.key n then .error (.poison ea none)
    else
      let st2 := if injRead s l.key then st1.act (.injected (homeTile l.key) l.key) else st1
      .ok (forward own l.key (visRead s l.key n), st2)

/-- The pieces of a direct load that may cross a 128-byte granule of the cluster window or a page: `fuel`
bounds their number, and the record of a fault gives the address of the whole access. -/
def loadPieces (s : State) (g : Nat) (r : Reach) (ea : Nat) : Nat → Nat → Nat → Nat → Stage → Except Stop (List Byte × Stage)
  | 0, _, _, _, st => .ok ([], st)
  | fuel + 1, a, n, al, st =>
    let k := min n (128 - a % 128)
    match loadBytes s g r a k al st with
    | .error (.fault f) => .error (.fault { f with addr := some ea })
    | .error x => .error x
    | .ok (b, st1) =>
      if n ≤ k then .ok (b, st1)
      else match loadPieces s g r ea fuel (a + k) (n - k) 1 st1 with
        | .error x => .error x
        | .ok (b2, st2) => .ok (b ++ b2, st2)

/-- A direct load of `n` bytes, at most 128, at an address aligned to `al` (R223, R236, R346). -/
def loadSpan (s : State) (g : Nat) (r : Reach) (ea n al : Nat) (st : Stage) : Except Stop (List Byte × Stage) :=
  loadPieces s g r ea 2 ea n al st

/-- A direct read of `n` tile-local bytes that never forwards (JOIN, TBWAIT, TBTEST: R320,
R402), with what a processor's access meets (R256, R294, R41, R429). The flag says that the
access was not performed: its bytes are free values (DESIGN CHOICE, log 6), and a wait on them ends at once. -/
def plainRead (s : State) (g ea n : Nat) (st : Stage) : Except Stop (List Byte × Bool × Stage) :=
  let k := keyScratch (tileOf g) ea
  let free := Config.freeBytes s.fresh (2 ^ 70 * st.acts.length + k) n
  if guarded s k n then .ok (free, true, st.act (.guardTouch ea ea))
  else if staleAt s (tileOf g) (tagOf s (tileOf g) (s.ctx g).asid) then
    .ok (free, true, st.act (.rejected 2))
  else if injRead s k && injDbl s then .error (.poison ea (some k))
  else if poisoned s k n then .error (.poison ea none)
  else .ok (visRead s k n, false, if injRead s k then st.act (.injected (tileOf g) k) else st)

/-! ### Effects (R34-R37) -/

/-- MOD of an effect's header: tail bits [31:24], or the nibble of T16 and T48-L (R37). -/
def effMod : Tail → Nat
  | .none | .i20 .. => 0
  | .t16 m _ _ | .t48l _ m _ _ => m.toNat
  | .t32 m _ _ _ _ | .t48x _ m _ _ _ _ => m.toNat

/-- An effect of a head: its header fields, data, and what it asks of each home. -/
def mkEffect (opc : Nat) (t : Tail) (part addr : Nat) (data : List Byte) (parts : List (Nat × Work)) :
    Effect :=
  ⟨opc, effMod t, (tailF t).toNat, part, BitVec.ofNat 64 addr, data, parts, none⟩

/-- An act with its effects tagged (R294). -/
def Act.tagged (tag : GenTag) : Act → Act
  | .effects es => .effects (es.map (fun e => { e with tag := tag }))
  | .blocking e slot wr => .blocking { e with tag := tag } slot wr
  | a => a

/-- The pieces of a store at one home, each at most one packet long; all but the last say that more follow,
and the home performs them together (R350, R443; DESIGN CHOICE, log 9). -/
def storeParts (tag : GenTag) (home key ea : Nat) (bs : List Byte) : Nat → List (Nat × Work)
  | 0 => []
  | n + 1 =>
    if bs.length ≤ Config.chunk then [(home, .store key ea bs tag false)]
    else (home, .store key ea (bs.take Config.chunk) tag true) ::
      storeParts tag home (key + Config.chunk) (ea + Config.chunk) (bs.drop Config.chunk) n

/-- A store of bytes that are known to be direct (R34): to the context's own frame or stack. A
guarded byte is touched and nothing is written (R256); a stale generation refuses it (R294). -/
def directStore (s : State) (g : Nat) (l : Loc) (ea : Nat) (bs : List Byte) (st : Stage) :
    Except Stop Stage :=
  if stalledOver s l.key bs.length then .error .stall
  else if guarded s l.key bs.length then .ok (st.act (.guardTouch ea (keyOff l.key)))
  else if staleAt s l.home (tagOf s (tileOf g) (s.ctx g).asid) then .ok (st.act (.rejected 2))
  else .ok (st.act (.store l.key bs))

/-- A store of `bs` at `ea` (R34, R36, R259): direct in the private storage of the context, else
a held effect. -/
def storeBytes (s : State) (g opc : Nat) (t : Tail) (ea : Nat) (bs : List Byte) (al : Nat) (st : Stage) :
    Except Stop Stage :=
  let c := s.ctx g
  match locate s g .plain ea bs.length al true with
  | .error e => .error (.addr e ea)
  | .ok l =>
    if isPrivate c ea bs.length then directStore s g l ea bs st
    else
      .ok ((st.walked s g ea).act (.effects [mkEffect opc t 0 ea bs
        (storeParts (tagOf s (tileOf g) c.asid) l.home l.key ea bs 32)]))

/-! ### Place words (R48, R315) -/

/-- A 6-bit two's-complement offset. -/
def place6 (v : Nat) : Int := sint 6 v

/-- The tile at (x + dx, y + dy), if it lies in the launch's rectangle (R48). A context of no
resident launch has no rectangle to leave. -/
def placeTile (s : State) (g : Nat) (dx dy : Int) : Option Nat :=
  let t := tileOf g
  let x : Int := tileX t + dx
  let y : Int := tileY t + dy
  if 0 ≤ x ∧ x < 32 ∧ 0 ≤ y ∧ y < 32 then
    let u := tileAt x.toNat y.toNat
    match s.launch (s.ctx g).lslot with
    | some l => if inRect l.record u then some u else none
    | none => if u = t then some u else none
  else none

/-- The reserved bits of a place word are zero (R315). -/
def placeOk (w : Word) : Bool := w.toNat &&& 0xFFFFFFC0C0E0000F == 0

/-- A place word: its target tile and byte offset. The reserved bits come first, then
PLACE_RANGE; `off0` for SEND and POST, whose OFF must be zero (R315). -/
def placeWord (s : State) (g : Nat) (w : Word) (off0 : Bool) : Except Stop (Nat × Nat) :=
  if !placeOk w || (off0 && fld w 4 17 != 0) then .error (.of .illegalOperand)
  else
    match placeTile s g (place6 (fld w 24 6)) (place6 (fld w 32 6)) with
    | none => .error (.of .placeRange)
    | some t => .ok (t, fld w 4 17 * 16)

/-- A barrier operand B: 0b110000 for none; else 16-byte aligned in the tile-local window (R258,
R270, R315). -/
def barOperand (s : State) (g : Nat) (r : Reach) (x : Src) (v : Word) : Except Stop (Option Bar) :=
  if x = .zero then .ok none
  else
    match locate s g r v.toNat 16 16 true with
    | .error e => .error (.addr e v.toNat)
    | .ok _ => .ok (some ⟨tileOf g, v.toNat⟩)

end Sys2Proof.Machine
end

