-- ==== Sys2Proof/Machine/Bundle.lean ====
section
/-! DEFINITION. How a head runs and how a bundle completes: guards (R90, R91), the ordered acts
of a bundle, waits, the end of the bundle (R94-R96), loops (R167) and the faults. -/

namespace Sys2Proof.Machine

/-! ### Loops (R164-R169) -/

/-- Whether the bundle at an address lies in the body of a level. -/
def LoopLevel.has (l : LoopLevel) (a : Nat) : Bool := decide (l.start ≤ a ∧ a < l.exit)

/-- The innermost active level and its number. -/
def Ctx.innermost (c : Ctx) : Option (Nat × LoopLevel) :=
  match c.loops.getLast? with
  | some l => some (c.loops.length - 1, l)
  | none => none

/-- Sets loop counter `k`. -/
def Ctx.setLc (c : Ctx) (k : Nat) (v : BitVec 32) : Ctx :=
  { c with lc := if h : k < 3 then c.lc.set k v else c.lc }

/-- The levels above the first `n` close; with the last of them the loop buffer is empty (R132). -/
def Ctx.closeTo (c : Ctx) (n : Nat) : Ctx :=
  { c with loops := c.loops.take n, body := if n = 0 then [] else c.body }

/-- After a bundle at `bpc` completes without a taken transfer: the innermost level repeats or
closes when the sequential next address is its exit (R167). -/
def Ctx.loopNext (c : Ctx) (bpc next : Nat) : Ctx :=
  match c.innermost with
  | some (j, l) =>
    if l.has bpc && next == l.exit then
      let n := (c.lc.toList.getD j 0).toNat
      if 1 < n then { c.setLc j (BitVec.ofNat 32 (n - 1)) with pc := l.start }
      else { (c.setLc j 0).closeTo j with pc := next }
    else { c with pc := next }
  | none => { c with pc := next }

/-- R169: a taken branch inside the innermost body must stay in it. -/
def Ctx.leavesBody (c : Ctx) (bpc target : Nat) : Bool :=
  match c.innermost with
  | some (_, l) => l.has bpc && !l.has target
  | none => false

/-! ### Registers at the end of a bundle -/

/-- A push onto the result queue (R98). -/
def pushQ (q : List Word) (v : Word) : List Word := v :: q.take 15

/-- A write of a named register. -/
def Ctx.setReg (c : Ctx) (i : Nat) (v : Word) : Ctx :=
  { c with n := if h : i < 32 then c.n.set i v else c.n }

/-- A write of a predicate; writes to %p0 are ignored (R132). -/
def setPredBit (p : BitVec 8) (k : Nat) (v : Bool) : BitVec 8 :=
  if k = 0 then p
  else if v then p ||| (1#8 <<< k) else p &&& ~~~(1#8 <<< k)

/-- The higher of BASE and any inherited priority becomes EFF (R55, R177). -/
def priWord (base inherited : Nat) : Word := BitVec.ofNat 64 (base + 4 * max base inherited)

/-- A write of a control register by software (R7, R135-R137, R177). -/
def Ctx.writeCreg (c : Ctx) (i : Nat) (v : Word) : Ctx :=
  match i with
  | 0x001 => { c with trapvec := BitVec.ofNat 64 (fld v 0 48) }
  | 0x002 =>
    { c with fpctl := BitVec.ofNat 64 (fld v 8 1 * 256) ||| (c.fpctl &&& 0x1F#64 &&& ~~~v) }
  | 0x003 => { c with cap := BitVec.ofNat 64 (fld v 0 16) }
  | 0x004 => { c with pri := priWord (fld v 0 2) c.inherited }
  | 0x005 => { c with saveptr := BitVec.ofNat 64 (fld v 14 34 * 2 ^ 14) }
  | _ => c

/-- A vector register write: with `whole`, every byte not given becomes zero (R183, R184). -/
def writeVreg (v : List (Nat × Byte)) (r : Nat) (whole : Bool) (bytes : List (Nat × Byte)) :
    List (Nat × Byte) :=
  storePuts 0 (if whole then v.filter (fun e => e.1 / 1024 != r) else v)
    (bytes.map (fun e => (1024 * r + e.1, e.2)))

/-- The stream records after a bundle: its pops, and then what SRSET and SRCTL set (R99, R346,
R347). A record whose last element is popped becomes idle by its counts (R348). -/
def Ctx.popStreams (c : Ctx) (pops : List Nat) (sets : List (Nat × Stream)) : Ctx :=
  let v1 := pops.foldl (fun (v : Vector Stream 8) (k : Nat) =>
      if h : k < 8 then
        v.set k { v[k] with queue := v[k].queue.tail, popped := v[k].popped + 1 }
      else v) c.streams
  { c with streams := sets.foldl (fun (v : Vector Stream 8) (e : Nat × Stream) => if h : e.1 < 8 then v.set e.1 e.2 else v) v1 }

/-- The register file after a bundle (R94, R137, R150, R163). -/
def Ctx.applyStage (c : Ctx) (st : Stage) : Ctx :=
  let c1 := { c with
    q := st.pushes.foldl pushQ c.q
    p := st.preds.foldl (fun p (e : Nat × Bool) => setPredBit p e.1 e.2) c.p
    v := st.vregs.foldl (fun v (e : Nat × Bool × List (Nat × Byte)) =>
      writeVreg v e.1 e.2.1 e.2.2) c.v
    vshape := match st.vshape with
      | some x => BitVec.ofNat 14 x
      | none => c.vshape }
  let c2 := st.regs.foldl (fun c e => c.setReg e.1 e.2) c1
  let c3 := match st.link with
    | some v => c2.setReg 30 v
    | none => c2
  let c4 := st.cregs.foldl (fun c e => c.writeCreg e.1 e.2) c3
  let c5 := { c4 with fpctl := c4.fpctl ||| BitVec.ofNat 64 st.flags }
  let c6 := c5.popStreams st.pops st.streams
  match st.loopOpen with
  | some (k, n, l) =>
    { c6.setLc k (BitVec.ofNat 32 n) with
      loops := c6.loops ++ [l], body := if c6.loops.isEmpty then st.body else c6.body }
  | none => c6

/-! ### Waits -/

/-- The status word of a barrier (R402), from its 128 bits. -/
def barStatus (w : Nat) : Word :=
  BitVec.ofNat 64 (nfld w 0 4 + nfld w 76 1 * 2 ^ 4 + nfld w 77 3 * 2 ^ 5 + nfld w 80 24 * 2 ^ 8
    + nfld w 4 20 * 2 ^ 32)

/-- A barrier's bytes as its home reads them. -/
def barRead (s : State) (t off : Nat) : Nat := natLE (visRead s (keyScratch t off) 16)

/-- Whether the recorded phase is left behind (R399, R402). -/
def phaseDone (w phase : Nat) (bit0 : Bool) : Bool :=
  if bit0 then nfld w 0 1 != phase % 2 else nfld w 0 4 != phase % 16

/-- Whether an endpoint lies in the scope of a fence of tile `t` (R279). -/
def inScope (t scope dst : Nat) : Bool :=
  match scope with
  | 0 => false
  | 1 => dst == t
  | 2 => decide (dst < 1024) && clusterOf dst == clusterOf t
  | 3 => decide (dst < 1024) || decide (1026 ≤ dst ∧ dst < 1032)
  | _ => true

/-- Whether a fence's wait has ended: its groups are forwarded, every effect in scope is
acknowledged, and for FENCE.XP the stores have drained (R279, R280). -/
def fenceDone (s : State) (g scope : Nat) (xp : Bool) : Bool :=
  let c := s.ctx g
  c.groups.isEmpty &&
  (scope == 0 ||
    (s.pkts.all (fun e => !(e.2.owner == .act c.act && inScope (tileOf g) scope e.2.dst)) &&
     (!xp || s.tiles.all (fun e => !(inScope (tileOf g) scope e.1) ||
        e.2.merge.all (fun m => m.act != c.act)))))

/-- Fills the push and the register write that a reply or a wait owes (R402, R278). -/
def Stage.fill (st : Stage) (slot wr : Option Nat) (v : Word) : Stage :=
  let st1 := match slot with
    | some i => { st with pushes := st.pushes.set i v }
    | none => st
  match wr with
  | some i => { st1 with regs := st1.regs.set i ((st1.regs.getD i (0, 0)).1, v) }
  | none => st1

/-- Fills them in the stage of a context. -/
def fillSlot (s : State) (g : Nat) (slot wr : Option Nat) (v : Word) : State :=
  s.modCtx g (fun c => { c with stage := c.stage.map (fun st => st.fill slot wr v) })

/-! ### Priority inheritance (R55) -/

/-- Whether a context waits, on its processor or saved (R57). -/
def Ctx.waits (c : Ctx) : Bool := c.st == .wait || c.st == .saved

/-- The inherited priority of work that a join counter awaits: the highest effective priority
of a context that waits for the counter at (tile, offset). -/
def joinPri (s : State) (j : Nat × Nat) : Nat :=
  (s.ctxs.map (fun (e : Nat × Ctx) =>
    if e.2.waits && e.2.waiting == .join j.2 && tileOf e.1 == j.1 then fld e.2.pri 2 2 else 0)).foldl
    max 0

/-- The barrier that a packet's work arrives at when it is performed, if it names one. -/
def Work.bar (home : Nat) : Work → Option Bar
  | .arrival off .. => some ⟨home, off⟩
  | .remote r => r.bar
  | .decz _ _ b => b
  | .ringPut p => p.bar
  | .launchRec w => w.bar
  | .matrix c => c.bar
  | .cswap w => w.bar
  | .lifeline r => r.bar
  | _ => none

/-- The effects that an activation holds or has released but not forwarded. -/
def Ctx.unsent (c : Ctx) : List Effect := c.groups.flatMap (fun g => g.effects) ++ c.held

/-- The inherited priority of an activation whose recorded effects make an arrival that some context
waits for: an activation records the barriers of its work nowhere else (DEDUCED, log 51). -/
def barPri (s : State) (c : Ctx) : Nat :=
  let bars := c.unsent.flatMap (fun e => e.parts.filterMap (fun p => Work.bar p.1 p.2))
  (s.ctxs.map (fun (e : Nat × Ctx) => match e.2.waiting with
    | .barrier off _ _ => if e.2.waits && bars.contains ⟨tileOf e.1, off⟩ then fld e.2.pri 2 2 else 0
    | _ => 0)).foldl max 0

/-- What a piece of work inherits. -/
def trigInherits (s : State) (t : Trigger) : Nat :=
  match t.join with
  | some j => joinPri s j
  | none => 0

/-- A record at the priority it inherits. -/
def raise (s : State) (t : Trigger) : Trigger :=
  if t.kind = .task then { t with eff := max t.pri (trigInherits s t) } else t

/-- The deques of a tile after its records are raised: a raised record moves to the head of the deque for
its priority where that deque has room beside the records it holds (R55, R300). One whose raise has ended
returns to its own deque, at its head too (DESIGN CHOICE, log 77). -/
def raiseDeques (s : State) (dqs : List (List Trigger)) : List (List Trigger) :=
  let all := dqs.zipIdx.flatMap (fun (d : List Trigger × Nat) => d.1.map (fun t => (raise s t, d.2)))
  let into := fun (p : Nat) => (all.filter (fun (x : Trigger × Nat) => x.1.eff == p && x.2 != p)).take
    (dequeRoom - (dqs.getD p []).length)
  let kept := fun (p : Nat) => (all.filter (fun (x : Trigger × Nat) => x.2 == p && !(into x.1.eff).contains x)).map
    (fun (x : Trigger × Nat) => { x.1 with eff := p })
  ([0, 1, 2, 3] : List Nat).map (fun p => (into p).map (fun (x : Trigger × Nat) => x.1) ++ kept p)

/-- Contexts at the priorities that are their own. -/
def ownPri (s : State) : State :=
  { s with ctxs := s.ctxs.map (fun (e : Nat × Ctx) =>
    match e.2.trig with
    | some _ => (e.1, { e.2 with inherited := 0, pri := priWord (fld e.2.pri 0 2) 0 })
    | none => e) }

/-- One level of R55: contexts take the priority that they inherit from those that wait. -/
def raiseCtxs (s : State) : State :=
  { s with ctxs := s.ctxs.map (fun (e : Nat × Ctx) =>
    match e.2.trig with
    | some t =>
      let i := max (trigInherits s t) (barPri s e.2)
      (e.1, { e.2 with inherited := i, pri := priWord (fld e.2.pri 0 2) i })
    | none => e) }

/-- The records of a tile at the priorities that they inherit in a state: those of the deques, those that wait
for room in one, and the staged ones. -/
def raiseTile (s : State) (x : Tile) : Tile :=
  { x with
    deques := raiseDeques s x.deques
    pushWait := x.pushWait.map (fun w => (raise s w.1, w.2))
    redeliver := x.redeliver.map (raise s)
    staging := x.staging.map (fun w => (raise s w.1, w.2)) }

/-- Inheritance to depth 4 from the priorities of their own (R55): what a record at depth 4 inherits comes from
contexts at depth 3. -/
def inherit (s : State) : State :=
  let s3 := raiseCtxs (raiseCtxs (raiseCtxs (ownPri s)))
  { raiseCtxs s3 with tiles := s.tiles.map (fun (e : Nat × Tile) => (e.1, raiseTile s3 e.2)) }

/-! ### Acts -/

/-- What an act does: the machine goes on, or the context waits and the acts to repeat or take
first are given. -/
inductive ActResult where
  | next (s : State)
  | wait (s : State) (w : Waiting) (first : List Act)

/-- Puts the effects of a head into the buffer, after an implicit commit when they do not all fit
(R39, R205). -/
def holdEffects (s : State) (g : Nat) (es : List Effect) : ActResult :=
  let c := s.ctx g
  if heldBytes c.held + heldBytes es ≤ Config.bufferBytes then
    .next (s.modCtx g (fun c => { c with held := c.held ++ es }))
  else .wait (release s g false) .buffer [.effects es]

/-- One act of a bundle. -/
def doAct (s : State) (g : Nat) (a : Act) : ActResult :=
  let t := tileOf g
  match a with
  | .store k b => .next (performStore s k b 0)
  | .physTable off b => .next (tableWrite s t off b)
  | .physTag line tag => .next (s.modTile t (fun x => { x with tags := tabSet x.tags line tag }))
  | .effects es => holdEffects s g es
  | .blocking e slot wr =>
    match holdEffects s g [e] with
    | .next s1 => .wait (release s1 g false) (.reply s.cycle) [.awaitReply slot wr]
    | .wait s1 w _ => .wait s1 w [.blocking e slot wr]
  | .awaitReply slot wr =>
    .wait s (match (s.ctx g).waiting with
      | .reply since => .reply since
      | _ => .reply s.cycle) [.awaitReply slot wr]
  | .fence scope xp =>
    let s1 := release s g false
    if fenceDone s1 g scope xp then .next s1 else .wait s1 (.fence scope xp) [.fenceWait scope xp]
  | .fenceWait scope xp =>
    if fenceDone s g scope xp then .next s else .wait s (.fence scope xp) [.fenceWait scope xp]
  | .join off slot wr =>
    let w := natLE (visRead s (keyScratch t off) 8)
    if nfld w 0 32 = 0 then .next (fillSlot s g slot wr (BitVec.ofNat 64 w))
    else .wait s (.join off) [.join off slot wr]
  | .barrier off ph b0 slot wr =>
    let w := barRead s t off
    if phaseDone w ph b0 then .next (fillSlot s g slot wr (barStatus w))
    else .wait s (.barrier off ph b0) [.barrier off ph b0 slot wr]
  | .mask set bits =>
    let l := (s.ctx g).lslot
    let b : BitVec 16 := BitVec.ofNat 16 bits
    .next (s.modTile t (fun x =>
      let m := tabGet (0 : BitVec 16) x.masks l
      { x with masks := tabSet x.masks l (if set then m ||| b else m &&& ~~~b) }))
  | .activate k =>
    .next (s.modTile t (fun x => { x with
      openRows := tabSet x.openRows ((rowOf s k).layer * 16 + (rowOf s k).bank) (rowOf s k).row }))
  | .injected tl k => .next (if injRead s k then injFire s tl k else s)
  | .guardTouch a off => .next (s.modCtx g (fun c => c.touchGuard a off))
  | .pause n => .next (s.modCtx g (fun c => { c with pause := s.cycle + n }))
  | .touch k n => .next (touchPage s k n)
  | .walk asid va => .next (noteWalk s t asid va)
  | .rejected st => .next (s.modCtx g (fun c => { c with fail := c.fail ++ [(st, 0, t)] }))

/-- Acts in order, up to the first wait: the acts that are then left, if any. -/
def runActs (s : State) (g : Nat) : List Act → State × Option (Waiting × List Act)
  | [] => (s, none)
  | a :: r =>
    match doAct s g a with
    | .next s1 => runActs s1 g r
    | .wait s1 w first => (s1, some (w, first ++ r))

/-! ### The end of a bundle -/

/-- The first head of a bundle whose wait reports a failure at an endpoint (R278). -/
def Stage.reporter (st : Stage) (t dst : Nat) : Option Nat :=
  (st.checks.find? (fun k => inScope t (k.2 - 1) dst)).map (·.1)

/-- The first failed access of a context that a head of the bundle reports: the head, and the
failure's status and performed count. -/
def failedReply (c : Ctx) (t : Nat) (st : Stage) : Option (Nat × Nat × Nat) :=
  c.fail.findSome? (fun e => (st.reporter t e.2.2).map (fun i => (i, e.1, e.2.1)))

/-- The trap of a failed reply, once its bundle has completed (R278, R403): the first failure
that a wait covers, at the blocking form or fence that waited (R407); the others that the bundle's
waits cover are reported with it. -/
def replyTrap (s : State) (g : Nat) (st : Stage) : State :=
  let c := s.ctx g
  match failedReply c (tileOf g) st with
  | none => s
  | some (i, status, perf) =>
    let cause := if status = 2 then Cause.staleGen else if status = 4 then .poison else .abandon
    takeTrap (s.modCtx g (fun c => { c with
        fail := c.fail.filter (fun e => (st.reporter (tileOf g) e.2.2).isNone) })) g
      ⟨cause, i, none, false, false, true, 0, st.bpc, c.pc, perf, none⟩

/-- LBRK's close of the innermost level that was active when its bundle began: its counter becomes
zero. A level that a LOOP of the same bundle opens lies inside the closed one and closes with it
(R168; DEDUCED, log 56). -/
def Ctx.breakLevel (c : Ctx) (opened : Bool) : Ctx :=
  let n := c.loops.length - opened.toNat
  let c1 := if opened then c.setLc n 0 else c
  if n = 0 then c1 else (c1.setLc (n - 1) 0).closeTo (n - 1)

/-- The bundle completes: registers, then the transfer or the sequential next address (R94,
R95, R108). -/
def commitBundle (s : State) (g : Nat) (st : Stage) : State :=
  let s1 := countPerf (s.modCtx g (fun c => { c.applyStage st with
    st := .run, waiting := .none, stage := none, resume := none, lastBpc := st.bpc })) (tileOf g) 0 1
  match st.xfer with
  | some (.done cont halt) => endNormal s1 g cont halt
  | x =>
    let s2 := s1.modCtx g (fun c => match x with
      | some (.jump a) => { c with pc := a, line := none }
      | some (.breakLoop a) => { c.breakLevel st.loopOpen.isSome with pc := a, line := none }
      | some (.sysret a) => sysReturn c a
      | _ => c.loopNext st.bpc st.next)
    replyTrap (if st.cregs.any (fun e => e.1 == 4) then inherit s2 else s2) g st

/-- The acts of a bundle are done: it completes, or, where they were those up to its first head that waits, the
next head runs. -/
def actsDone (s : State) (g : Nat) (st : Stage) : State :=
  match (s.ctx g).resume with
  | some r => s.modCtx g (fun c => { c with
      st := .run, waiting := .none, stage := some { st with acts := r.acts, part := true }, resume := none })
  | none => commitBundle s g st

/-- Runs the acts that are left of a context's bundle and goes on with it, or leaves the context
in WAIT with what is left (R28). A raise lasts while its waiter waits (R55). -/
def continueBundle (s : State) (g : Nat) (acts : List Act) : State :=
  match runActs s g acts with
  | (s1, none) =>
    match (s1.ctx g).stage, (s.ctx g).waiting with
    | some st, .join _ | some st, .barrier .. => inherit (actsDone s1 g st)
    | some st, _ => actsDone s1 g st
    | none, _ => s1
  | (s1, some (w, rest)) =>
    let s2 := s1.modCtx g (fun c => { c with
      st := .wait, waiting := w, stage := c.stage.map (fun st => { st with acts := rest }) })
    match w with
    | .join _ | .barrier .. => inherit s2
    | _ => s2

/-- The poisoned tile-local word that a waiting context would read, if any (R398, R41). -/
def waitPoison (s : State) (g : Nat) : Option Nat :=
  let t := tileOf g
  match (s.ctx g).waiting with
  | .join off => if poisoned s (keyScratch t off) 8 then some off else none
  | .barrier off _ _ => if poisoned s (keyScratch t off) 16 then some off else none
  | _ => none

/-- A waiting context tests again what it waits for. A full buffer's wait ends once the network
interface has accepted the released groups (R39). -/
def wakeCtx (s : State) (g : Nat) : State :=
  match waitPoison s g with
  | some _ => consumePoison s g
  | none =>
    if (s.ctx g).waiting == .buffer && (s.ctx g).groups.any (fun x => !x.accepted) then s
    else
    match (s.ctx g).stage with
    | some st => continueBundle s g st.acts
    | none => s

/-! ### One head -/

/-- Whether the guard holds, as of the start of the bundle (R90). -/
def guardHolds (c : Ctx) (h : Head) : Bool := h.pred == 0 || c.p.getLsbD h.pred.toNat == !h.sense

/-- The push of `n` zeros that a false-guarded head makes (R91). -/
def Stage.pushZeros (st : Stage) : Nat → Stage
  | 0 => st
  | n + 1 => Stage.pushZeros (st.push 0 none) n

/-- The trap information of a precise fault of a bundle (R96, R403, R407). -/
def HeadFault.info (f : HeadFault) (st : Stage) : TrapInfo :=
  ⟨f.cause, headOf st.at_, f.addr, f.target, false, false, 0, st.bpc,
    (if f.cause = .badLine && f.target then f.addr.getD st.bpc else st.bpc), f.code, f.pte⟩

/-- A precise fault: nothing of the bundle has an effect (R96). STACK_GROW leaves the context in
WAIT for its service, in either mode (R141, R409); every other fault traps (R406). A walk that found no page, or
one of another vault, is counted too (R396). -/
def faultHead (s : State) (g : Nat) (st : Stage) (f : HeadFault) : State :=
  let s := if f.cause = .page ∨ f.cause = .remoteVault then noteWalk s (tileOf g) (s.ctx g).asid (f.addr.getD 0) else s
  if f.cause = .stackGrow then
    s.modCtx g (fun c => { c with st := .wait, waiting := .stackGrow (f.addr.getD 0), stage := none, resume := none })
  else takeTrap (s.modCtx g (fun c => { c with stage := none, resume := none })) g (f.info st)

/-- TRAP, SYSCALL and BKPT (R174, R175), taken when every head of the bundle has run (R95): no other
head has an effect. The bundle counts as issued (R396). -/
def instrTrap (s : State) (g : Nat) (st : Stage) (cause : Cause) (code : Word) : State :=
  takeTrap (countPerf (s.modCtx g (fun c => { c with stage := none, resume := none })) (tileOf g) 0 1) g
    ⟨cause, headOf st.at_, none, false, false, false, 0, st.bpc,
      (if cause = .bkpt then st.bpc else s.after), code.toNat, none⟩

/-- The trap of a pending GUARD at a head that reports it (R256, R407): the bundle has no effect
and runs again on return; a GUARD is reported once. -/
def takeGuard (s : State) (g bpc at_ : Nat) : State :=
  match (s.ctx g).guard with
  | some (a, off, n) =>
    takeTrap (s.modCtx g (fun c => { c with stage := none, resume := none, guard := none })) g
      ⟨.guard, headOf at_, some a, false, true, false, n, bpc, bpc, guardCode off, none⟩
  | none => s

/-- Whether an act changes a class mask. -/
def Act.isMask : Act → Bool
  | .mask .. => true
  | _ => false

/-- Whether an act may leave the context in WAIT for what the heads after it are ordered behind (R279, R292,
R320, R402). -/
def Act.waits : Act → Bool
  | .fence .. | .fenceWait .. | .blocking .. | .awaitReply .. | .join .. | .barrier .. => true
  | _ => false

/-- The acts of a bundle in the order in which they are done: a change of a class mask acts at the
end of the bundle (R302, R318). -/
def orderActs (l : List Act) : List Act := l.filter (fun a => !a.isMask) ++ l.filter Act.isMask

/-- Whether the interface holds a group, or the end, of a span's other copy for which this one has
released nothing yet: it goes on until the compare can be made (R57). -/
def owesGroup (s : State) (g : Nat) : Bool :=
  match (s.ctx g).twin with
  | some w => (s.ctx w).ending.isSome || decide ((s.ctx g).groups.length < (s.ctx w).groups.length)
  | none => false

/-- The last head of a bundle has run. What falls due is taken in the order of R410: the pending
GUARD at a head that reports it, the fault of the lowest-numbered head that faulted (R96), the
instruction trap, and a pre-emption, for which the context stands at its boundary. Otherwise the acts
are done, its effects tagged with the generation of their address space (R294), and the bundle
completes. With a head that waits before the last one, the acts up to it are done first and the later heads
then run again, so that they read what stands after the wait (R279, R289, R292; DESIGN CHOICE, log 78). -/
def finishBundle (s : State) (g : Nat) (st : Stage) : State :=
  match st.guardAt, st.pend, st.trap with
  | some a, _, _ => takeGuard s g st.bpc a
  | none, some (a, f), _ => faultHead s g { st with at_ := a } f
  | none, none, some (a, cause, code) => instrTrap s g { st with at_ := a } cause code
  | none, none, none =>
    let tag := fun (l : List Act) => orderActs (l.map (Act.tagged (tagOf s (tileOf g) (s.ctx g).asid)))
    if (s.ctx g).saveDue && !owesGroup s g && !st.part then
      s.modCtx g (fun c => { c with stage := none, resume := none, tested := true })
    else
      match (s.ctx g).resume with
      | none =>
        continueBundle (s.modCtx g (fun c => { c with stage := some { st with next := s.after, acts := tag st.acts } })) g
          (tag st.acts)
      | some r =>
        let now := (tag r.acts).filter (fun a => !a.isMask)
        continueBundle (s.modCtx g (fun c => { c with
          stage := some { r with acts := now }
          resume := some { r with acts := r.acts.filter Act.isMask } })) g now

/-- What the bundle holds after its first head that waits (R279, R292). -/
def resumeAt (c : Ctx) (st : Stage) : Option Stage :=
  c.resume.or (if st.acts.any Act.waits then some st else none)

/-- After a head with its CHAIN bit: the next head of the bundle, or the end of the bundle. -/
def nextHeadOf (s : State) (g : Nat) (chain : Bool) (st : Stage) : State :=
  if chain then
    let st1 := { st with at_ := st.at_ + 2 }
    s.modCtx g (fun c => { c with stage := some st1, resume := resumeAt c st1 })
  else finishBundle s g st

/-- What a head that did not complete does to its context. A fault waits for the end of the bundle,
where the lowest-numbered head's is taken (R96, R410); a head that stalls leaves the bundle to issue
later, or itself where acts of the bundle have been done; an uncorrectable error is consumed at once (R410). -/
def stopHead (s : State) (g : Nat) (chain : Bool) (st : Stage) (x : Stop) : State :=
  match x with
  | .fault f => nextHeadOf s g chain { st with pend := st.pend.or (some (st.at_, f)) }
  | .stall => s.modCtx g (fun c =>
      if st.part then { c with waiting := .stall }
      else { c with stage := none, resume := none, tested := true })
  | .poison _ inj =>
    let s1 := match inj with
      | some k => fireRead s k
      | none => s
    consumePoison (s1.modCtx g (fun c => { c with stage := none, resume := none, lastBpc := st.bpc })) g

/-- What the body of a head gives: a stage with its results, a stop, an instruction trap, or the
report of the pending GUARD. -/
inductive HeadResult where
  | ok (st : Stage)
  | stop (x : Stop)
  | trap (cause : Cause) (code : Word)
  | guard
  deriving DecidableEq, Repr

/-- A body that can stop but does not trap. -/
def HeadResult.of : Except Stop Stage → HeadResult
  | .ok st => .ok st
  | .error x => .stop x

/-- The stage of the current context's bundle: the one in progress, or an empty one (R94). -/
def Ctx.stageNow (c : Ctx) (cyc : Nat) : Stage := c.stage.getD (Stage.start c.pc cyc)

/-- After a head: the next head of the bundle, or the end of the bundle. -/
def afterHead (s : State) (g : Nat) (h : Head) (st : Stage) : State := nextHeadOf s g h.chain st

/-- Runs one head of the current context (R90-R96). `n` is how many values its form pushes.
Only a context in RUN issues. -/
def runHead (s : State) (h : Head) (n : Nat) (body : State → Nat → Ctx → Stage → HeadResult) :
    Host.Outcome State Fault Refusal :=
  let g := s.cur
  let c := s.ctx g
  if c.st ≠ .run then .next s
  else
    let st := c.stageNow s.cycle
    if !guardHolds c h then .next (afterHead s g h (st.pushZeros n))
    else
      match body s g c st with
      | .ok st1 => .next (afterHead s g h st1)
      | .stop x => .next (stopHead s g h.chain st x)
      | .trap cause code => .next (afterHead s g h { st with trap := st.trap.or (some (st.at_, cause, code)) })
      | .guard => .next (afterHead s g h { st with guardAt := st.guardAt.or (some st.at_) })

end Sys2Proof.Machine
end

