-- ==== Sys2Proof/Machine/Issue.lean ====
section
/-! DEFINITION. How a context comes to issue a head: fetch, line checks, bundles and decoding
(R86-R96, R108), and the pending GUARD at a head that reports it (R256, R410). -/

namespace Sys2Proof.Machine

/-- What a context's turn gives: a new state, or a decoded head to run in a state. -/
inductive Issue where
  | done (s : State)
  | run (i : Instr) (s : State)
  deriving DecidableEq, Repr

/-- A fault of the bundle at the PC before any head has run. -/
def issueFault (s : State) (g : Nat) (cause : Cause) (addr : Option Nat) (target : Bool) (pte : Option Nat) :
    State :=
  faultHead s g (Stage.start (s.ctx g).pc s.cycle) ⟨cause, addr, target, 0, pte⟩

/-- Decodes head `i` of a line for a context and sets what the head needs: whose turn it is and
the address after its bundle (R108). -/
def issueHead (s : State) (g : Nat) (line : List Byte) (at_ : Nat) : Issue :=
  let i := headOf at_
  let last := bundleLast line 3 i
  let s1 := { s with
    cur := g
    after := nextHead (lineOf at_ + 2 * last) (lineH (BitVec.ofNat 16 (natAt line 0 2))) }
  match decodeLineHead line i with
  | .ok x => .run x s1
  | .bad e =>
    let st := (s1.ctx g).stageNow s1.cycle
    .done (stopHead s1 g (lineChain line i) st (.of (match e with
      | .illegalOpcode => .illegalOpcode
      | .illegalOperand => .illegalOperand)))

/-- The first head of a bundle: the checks of a target in the order of R106, which are also those of
an entry PC at its dispatch (R376), and the line's own (R87, R88). A fault of the fetch itself gives
the PC in ADDR; a PC that a change of the line, before it was fetched again, has left inside a bundle, or
past the last head, is a bad target (DEDUCED, log 43). A fall-through into an invalid line gives BPC and RPC the address that
R108 names (R407). -/
def issueBundle (s : State) (g : Nat) (c : Ctx) : Issue :=
  if c.pc % 2 = 1 || c.pc % 64 = 0 then .done (issueFault s g .badTarget (some c.pc) true none)
  else
    match lineNow s g c.pc with
    | .stall => .done (s.modCtx g (fun c => { c with tested := true }))
    | .poison k => .done (consumePoison (fireRead s k) g)
    | .err e => .done (issueFault s g e.cause (some c.pc) false e.pte)
    | .line b =>
      match lineTarget b c.pc with
      | .ok => issueHead (holdLine s g c.pc b) g b c.pc
      | .err e =>
        if e.cause = .badLine then .done (issueFault s g .badLine none false none)
        else .done (issueFault s g .badTarget (some c.pc) true none)
      | _ => .done s

/-- Whether a context stands at its boundary and issues nothing: a save is due and nothing of its
next bundle precedes it in the order of R410, nor a compare that waits for it (R57), or it is in a PAUSE,
which a save ends (R179, R412). A bundle in part done goes on, and so does a trap that is due. -/
def heldBack (s : State) (g : Nat) : Bool :=
  let c := s.ctx g
  c.stage.isNone && c.trapDue.isNone &&
  (if c.saveDue then c.tested && !owesGroup s g else decide (s.cycle < c.pause))

/-- Whether the wait of a copy whose twin is saved must not end: it is to be saved as it stands (R57). -/
def waitKept (s : State) (g : Nat) : Bool :=
  (s.ctx g).saveDue && !owesGroup s g &&
    (match (s.ctx g).twin with
     | some w => (s.ctx w).st == .saved
     | none => false)

/-- The turn of a context: a waiting one tests its wait, a running one issues a head. -/
def issueCtx (s : State) (g : Nat) : Issue :=
  let c := s.ctx g
  match c.st with
  | .wait => .done (if waitKept s g then s else wakeCtx s g)
  | .run =>
    match c.stage, c.trapDue with
    | some st, _ =>
      match lineNow s g st.at_ with
      | .line b => issueHead (s.modCtx g (fun c => { c with waiting := .none })) g b st.at_
      | _ => .done (s.modCtx g (fun c => { c with stage := none, resume := none }))
    | none, some i => .done (takeTrap s g i)
    | none, none => if heldBack s g then .done s else issueBundle s g c
  | _ => .done s

end Sys2Proof.Machine
end

