-- ==== Sys2Proof/Machine/Numbers.lean ====
section
/-! DEFINITION. Number formats and the one rounding function (R113-R131), and the special
functions (R130, R202). Exact values are rationals; every result is narrowed by `round`. -/

namespace Sys2Proof.Machine

/-- The element and scale formats (R113-R117). -/
inductive Fmt where
  | fp32 | bf16 | fp16 | e5m2 | e4m3 | e2m3 | e2m1 | a40 | lg6 | int8 | ue4m3 | e8m0
  deriving DecidableEq, Repr

/-- Rounding attributes (R103, R119). -/
inductive Rm where
  | rne | rz | ru | rd | rna
  deriving DecidableEq, Repr

/-- The exception flags in the layout of CTX_FPCTL [4:0]: NV, DZ, OF, UF, NX (R122, R136). -/
abbrev Flags := BitVec 5

/-- NV. -/
def flNV : Flags := 16
/-- DZ. -/
def flDZ : Flags := 8
/-- OF. -/
def flOF : Flags := 4
/-- UF. -/
def flUF : Flags := 2
/-- NX. -/
def flNX : Flags := 1
/-- UF and NX. -/
def flUFNX : Flags := 3
/-- OF and NX. -/
def flOFNX : Flags := 5

/-- An exact finite value: (-1)^neg * num / den * 2^exp, with den > 0. The sign of a zero is
kept. -/
structure Q where
  neg : Bool
  num : Nat
  den : Nat
  exp : Int
  deriving DecidableEq, Repr

/-- An exact value, an infinity or a NaN (R119). A NaN that is signalling, or that an invalid
operation makes, raises NV when it is rounded. -/
inductive Val where
  | nan (signalling : Bool)
  | inf (neg : Bool)
  | fin (q : Q)
  deriving DecidableEq, Repr

/-- The integer `i` as an exact value. -/
def Q.ofInt (i : Int) : Q := ⟨decide (i < 0), i.natAbs, 1, 0⟩

/-- Layout of a floating-point format: exponent bits, fraction bits, bias (R113). -/
structure Lay where
  eb : Nat
  mb : Nat
  bias : Nat
  deriving DecidableEq, Repr

/-- The layout row of R113; the non-floating formats have none. -/
def Fmt.lay : Fmt → Option Lay
  | .fp32 => some ⟨8, 23, 127⟩
  | .bf16 => some ⟨8, 7, 127⟩
  | .fp16 => some ⟨5, 10, 15⟩
  | .e5m2 => some ⟨5, 2, 15⟩
  | .e4m3 => some ⟨4, 3, 7⟩
  | .e2m3 => some ⟨2, 3, 1⟩
  | .e2m1 => some ⟨2, 1, 1⟩
  | .a40 => some ⟨8, 31, 127⟩
  | .ue4m3 => some ⟨4, 3, 7⟩
  | .lg6 | .int8 | .e8m0 => none

/-- Bits of a code (R113, R115-R117). -/
def Fmt.bits : Fmt → Nat
  | .fp32 => 32
  | .bf16 | .fp16 => 16
  | .e5m2 | .e4m3 | .int8 | .ue4m3 | .e8m0 => 8
  | .e2m3 | .lg6 => 6
  | .e2m1 => 4
  | .a40 => 40

/-- The formats with an infinity (R120). -/
def Fmt.hasInf : Fmt → Bool
  | .fp32 | .bf16 | .fp16 | .e5m2 | .a40 => true
  | _ => false

/-- The canonical NaN of a format (R114); E2M3, E2M1 and INT8 have none and deliver 0 (R121). -/
def Fmt.canonNaN : Fmt → Nat
  | .fp32 => 0x7FC00000
  | .bf16 => 0x7FC0
  | .fp16 => 0x7E00
  | .a40 => 0xFF * 2 ^ 31 + 0x40000000
  | .e5m2 => 0x7E
  | .e4m3 | .ue4m3 => 0x7F
  | .e8m0 => 0xFF
  | .lg6 => 0x30
  | .e2m3 | .e2m1 | .int8 => 0

/-- The table T of R116. -/
def lgT : Nat → Nat
  | 0 => 4096
  | 1 => 4871
  | 2 => 5793
  | _ => 6889

/-- LgVal(L) as an exact magnitude: T[L mod 4] * 2^(floor(L/4) - 12) (R116). -/
def lgVal (neg : Bool) (l : Int) : Q := ⟨neg, lgT (l % 4).toNat, 1, l / 4 - 12⟩

/-- LgMul: the product of two LG6 magnitudes with logs `la`, `lb` (R125). -/
def lgMul (neg : Bool) (la lb : Int) : Q := lgVal neg (la + lb)

/-- Decode(F, bits): the exact value of a code (R113-R117). -/
def decodeFmt (F : Fmt) (code : Nat) : Val :=
  match F with
  | .int8 => .fin (Q.ofInt (sint 8 code))
  | .e8m0 => if code % 256 = 255 then .nan false else .fin ⟨false, 1, 1, (code % 256 : Nat) - 127⟩
  | .lg6 =>
    let c := code % 64
    if c = 0x30 then .nan false
    else if c = 0x10 then .fin ⟨false, 0, 1, 0⟩
    else .fin (lgVal (decide (c ≥ 32)) (sint 5 c))
  | _ =>
    match F.lay with
    | none => .nan false
    | some L =>
      let f := code % 2 ^ L.mb
      let e := (code / 2 ^ L.mb) % 2 ^ L.eb
      let s := decide ((code / 2 ^ (L.mb + L.eb)) % 2 = 1)
      if F.hasInf && e == 2 ^ L.eb - 1 then
        if f = 0 then .inf s
        else .nan (decide (F ≠ .e5m2) && decide (f < 2 ^ (L.mb - 1)))
      else if F = .e4m3 ∧ code % 128 = 127 then .nan false
      else if F = .ue4m3 ∧ (code % 128 = 127 ∨ s = true) then .nan false
      else if e = 0 then .fin ⟨s, f, 1, 1 - (L.bias : Int) - L.mb⟩
      else .fin ⟨s, 2 ^ L.mb + f, 1, (e : Int) - L.bias - L.mb⟩

/-- Whether a code encodes a subnormal of one of the formats that FTZ covers (R124). -/
def isSubnormal (F : Fmt) (code : Nat) : Bool :=
  match F with
  | .fp32 | .bf16 | .fp16 | .e5m2 | .e4m3 | .e2m3 | .e2m1 =>
    match F.lay with
    | none => false
    | some L => (code / 2 ^ L.mb) % 2 ^ L.eb == 0 && code % 2 ^ L.mb != 0
  | _ => false

/-- Ftz(F, bits): the code, or the zero of its sign when it encodes a subnormal (R131). -/
def ftzCode (on : Bool) (F : Fmt) (code : Nat) : Nat :=
  if on && isSubnormal F code then code / 2 ^ (F.bits - 1) * 2 ^ (F.bits - 1) else code

/-- A source element that an operation delivers as its result: flushed when FTZ is set (R124), a NaN
as the canonical NaN (R114). -/
def passCode (ftz : Bool) (F : Fmt) (code : Nat) : Nat :=
  match decodeFmt F code with
  | .nan _ => F.canonNaN
  | _ => ftzCode ftz F code

/-- A source element, flushed when FTZ is set, decoded (R124). -/
def srcVal (ftz : Bool) (F : Fmt) (code : Nat) : Val := decodeFmt F (ftzCode ftz F code)

/-! ### Exact arithmetic -/

/-- floor(log2 (num / den)) for num > 0. -/
def ilog2Q (num den : Nat) : Int :=
  let e : Int := (Nat.log2 num : Int) - Nat.log2 den
  let up := if e ≥ 0 then den * 2 ^ e.toNat else den
  let dn := if e ≥ 0 then num else num * 2 ^ (-e).toNat
  if dn ≥ up then e else e - 1

/-- `q`'s magnitude scaled by 2^(-k): numerator and denominator of |q| / 2^k. -/
def scaleQ (q : Q) (k : Int) : Nat × Nat :=
  let d := q.exp - k
  if d ≥ 0 then (q.num * 2 ^ d.toNat, q.den) else (q.num, q.den * 2 ^ (-d).toNat)

/-- Compares two magnitudes. -/
def cmpMag (a b : Q) : Ordering :=
  let k := min a.exp b.exp
  let (an, ad) := scaleQ a k
  let (bn, bd) := scaleQ b k
  compare (an * bd) (bn * ad)

/-- The exact signed sum. An exact zero sum is +0, except that addends of one sign keep it and
that RD gives -0 for addends of unlike signs (IEEE 754-2019). -/
def addQ (rm : Rm) (a b : Q) : Q :=
  let k := min a.exp b.exp
  let (an, ad) := scaleQ a k
  let (bn, bd) := scaleQ b k
  let x : Int := if a.neg then -((an * bd : Nat) : Int) else (an * bd : Nat)
  let y : Int := if b.neg then -((bn * ad : Nat) : Int) else (bn * ad : Nat)
  let s := x + y
  if s = 0 then ⟨if a.neg == b.neg then a.neg else decide (rm = .rd), 0, 1, 0⟩
  else ⟨decide (s < 0), s.natAbs, ad * bd, k⟩

/-- The exact product. -/
def mulQ (a b : Q) : Q := ⟨a.neg != b.neg, a.num * b.num, a.den * b.den, a.exp + b.exp⟩

/-- The exact quotient by a nonzero `b`. -/
def divQ (a b : Q) : Q := ⟨a.neg != b.neg, a.num * b.den, a.den * b.num, a.exp - b.exp⟩

/-- Negation of a value; a NaN stays. -/
def negV : Val → Val
  | .nan s => .nan s
  | .inf s => .inf (!s)
  | .fin q => .fin { q with neg := !q.neg }

/-- Addition with IEEE special cases. -/
def addV (rm : Rm) : Val → Val → Val
  | .nan s, .nan t => .nan (s || t)
  | .nan s, _ => .nan s
  | _, .nan t => .nan t
  | .inf s, .inf t => if s = t then .inf s else .nan true
  | .inf s, .fin _ => .inf s
  | .fin _, .inf t => .inf t
  | .fin a, .fin b => .fin (addQ rm a b)

/-- Multiplication with IEEE special cases. -/
def mulV : Val → Val → Val
  | .nan s, .nan t => .nan (s || t)
  | .nan s, _ => .nan s
  | _, .nan t => .nan t
  | .inf s, .inf t => .inf (s != t)
  | .inf s, .fin b => if b.num = 0 then .nan true else .inf (s != b.neg)
  | .fin a, .inf t => if a.num = 0 then .nan true else .inf (a.neg != t)
  | .fin a, .fin b => .fin (mulQ a b)

/-- Division with IEEE special cases; the flag is DZ (R155). -/
def divV : Val → Val → Val × Flags
  | .nan s, .nan t => (.nan (s || t), 0)
  | .nan s, _ => (.nan s, 0)
  | _, .nan t => (.nan t, 0)
  | .inf _, .inf _ => (.nan true, 0)
  | .inf s, .fin b => (.inf (s != b.neg), 0)
  | .fin a, .inf t => (.fin ⟨a.neg != t, 0, 1, 0⟩, 0)
  | .fin a, .fin b =>
    if b.num = 0 then
      if a.num = 0 then (.nan true, 0) else (.inf (a.neg != b.neg), flDZ)
    else (.fin (divQ a b), 0)

/-- Fused multiply-add; a product of zero and an infinity is invalid whatever the addend
(R131). -/
def fmaV (rm : Rm) (a b c : Val) : Val :=
  match a, b with
  | .inf _, .fin q | .fin q, .inf _ => if q.num = 0 then .nan true else addV rm (mulV a b) c
  | _, _ => addV rm (mulV a b) c

/-- floor(sqrt n) for n < 4^k, by trial bits. -/
def isqrtBits (n : Nat) : Nat → Nat → Nat
  | 0, r => r
  | k + 1, r =>
    let t := r + 2 ^ k
    isqrtBits n k (if t * t ≤ n then t else r)

/-- floor(sqrt n). -/
def isqrt (n : Nat) : Nat := isqrtBits n (Nat.log2 n / 2 + 1) 0

/-- The square root. An irrational root is given as the midpoint of a grid step 2^-64 times
finer than its leading bit: it rounds as the exact root does in every mode, because no rounding
boundary of a format lies strictly inside the step. -/
def sqrtV : Val → Val
  | .nan s => .nan s
  | .inf s => if s then .nan true else .inf false
  | .fin q =>
    if q.num = 0 then .fin q
    else if q.neg then .nan true
    else
      let e := if q.exp % 2 = 0 then q.exp else q.exp - 1
      let n := (if q.exp % 2 = 0 then q.num else 2 * q.num) * q.den * 2 ^ 128
      let s := isqrt n
      if s * s = n then .fin ⟨false, s, q.den, e / 2 - 64⟩
      else .fin ⟨false, 2 * s + 1, q.den, e / 2 - 65⟩

/-- Orders two values that are not NaN; -0 equals +0. -/
def cmpV : Val → Val → Ordering
  | .inf s, .inf t => if s = t then .eq else if s then .lt else .gt
  | .inf s, _ => if s then .lt else .gt
  | _, .inf t => if t then .gt else .lt
  | .fin a, .fin b =>
    if a.num = 0 ∧ b.num = 0 then .eq
    else if a.num = 0 then (if b.neg then .gt else .lt)
    else if b.num = 0 then (if a.neg then .lt else .gt)
    else if a.neg && !b.neg then .lt
    else if !a.neg && b.neg then .gt
    else if a.neg then cmpMag b a
    else cmpMag a b
  | _, _ => .eq

/-- Whether a value is a NaN. -/
def Val.isNaN : Val → Bool
  | .nan _ => true
  | _ => false

/-- Whether a value is a signalling NaN. -/
def Val.isSNaN : Val → Bool
  | .nan s => s
  | _ => false

/-- Whether a value is negative (a NaN is not). -/
def Val.isNeg : Val → Bool
  | .nan _ => false
  | .inf s => s
  | .fin q => q.neg

/-- Whether a value is a zero of either sign. -/
def Val.isZero : Val → Bool
  | .fin q => q.num == 0
  | _ => false

/-! ### Rounding (R119-R121) -/

/-- What Round delivers: the code, the flags, and whether the value overflowed the format. -/
structure Rounded where
  code : Nat
  fl : Flags
  ovf : Bool
  deriving DecidableEq, Repr

/-- The sign bit of a format set on a code. -/
def signed (F : Fmt) (neg : Bool) (code : Nat) : Nat :=
  if neg then code + 2 ^ (F.bits - 1) else code

/-- The code of the largest finite magnitude (R113). -/
def largestCode : Fmt → Nat
  | .fp32 => 0x7F7FFFFF
  | .bf16 => 0x7F7F
  | .fp16 => 0x7BFF
  | .e5m2 => 0x7B
  | .e4m3 | .ue4m3 => 0x7E
  | .e2m3 => 0x1F
  | .e2m1 => 0x7
  | .a40 => 0xFE * 2 ^ 31 + (2 ^ 31 - 1)
  | .lg6 => 0x0F
  | .int8 => 127
  | .e8m0 => 0xFE

/-- The code of infinity, for the formats that have one. -/
def infCode : Fmt → Nat
  | .fp32 => 0x7F800000
  | .bf16 => 0x7F80
  | .fp16 => 0x7C00
  | .e5m2 => 0x7C
  | .a40 => 0xFF * 2 ^ 31
  | _ => 0

/-- Overflow(F, sign, rm, sat) with the flags its table gives beside the code: `wasInf` says
that the value was an infinity (R120). -/
def overflowR (F : Fmt) (neg : Bool) (rm : Rm) (sat wasInf : Bool) : Nat × Flags :=
  match F with
  | .fp32 | .bf16 | .fp16 | .e5m2 | .a40 =>
    if sat then (signed F neg (largestCode F), 0)
    else
      let toInf := match rm with
        | .rne | .rna => true
        | .rz => false
        | .ru => !neg
        | .rd => neg
      (signed F neg (if toInf then infCode F else largestCode F), 0)
  | .e4m3 => if sat then (signed F neg 0x7E, 0) else (0x7F, if wasInf then flNV else 0)
  | .lg6 => if sat then (if neg then 0x2F else 0x0F, 0) else (0x30, if wasInf then flNV else 0)
  | .e2m3 | .e2m1 =>
    (signed F neg (largestCode F), if wasInf && !sat then flNV else 0)
  | .int8 => (if neg then 128 else 127, flNV)
  | .ue4m3 => (if sat then 0x7E else 0x7F, 0)
  | .e8m0 => (if sat then 0xFE else 0xFF, 0)

/-- Whether Pick moves from the neighbour of smaller magnitude to that of larger magnitude.
`half` compares the distance from the smaller neighbour with the distance to the larger one, and
`odd` says that the smaller neighbour's deciding bit is 1 (R119). -/
def pickUp (rm : Rm) (neg : Bool) (half : Ordering) (odd : Bool) : Bool :=
  match rm with
  | .rne => match half with
    | .lt => false
    | .gt => true
    | .eq => odd
  | .rna => match half with
    | .lt => false
    | _ => true
  | .rz => false
  | .ru => !neg
  | .rd => neg

/-- |q| rounded to an integer magnitude, and whether that was inexact. -/
def roundMag (rm : Rm) (q : Q) (k : Int) : Nat × Bool :=
  let (n, d) := scaleQ q k
  let lo := n / d
  let rem := n % d
  if rem = 0 then (lo, false)
  else (if pickUp rm q.neg (compare (2 * rem) d) (lo % 2 == 1) then lo + 1 else lo, true)

/-- Rounding of a finite value to a floating-point format (R119). The extension of the format
is unbounded above only: below, it keeps the format's own subnormal grid (DEDUCED, log 8). -/
def roundFP (F : Fmt) (L : Lay) (q : Q) (rm : Rm) (sat : Bool) : Rounded :=
  if q.num = 0 then ⟨signed F q.neg 0, 0, false⟩
  else
    let emin : Int := 1 - (L.bias : Int)
    let E := ilog2Q q.num q.den + q.exp
    let k := max (E - L.mb) (emin - L.mb)
    let (m0, x) := roundMag rm q k
    let carry := decide (m0 = 2 ^ (L.mb + 1))
    let m := if carry then 2 ^ L.mb else m0
    let k' := if carry then k + 1 else k
    if m = 0 then ⟨signed F q.neg 0, flNX, false⟩
    else
      let code := if m < 2 ^ L.mb then m else (k' + L.mb + L.bias).toNat * 2 ^ L.mb + (m - 2 ^ L.mb)
      if code > largestCode F then
        let (c, f) := overflowR F q.neg rm sat false
        ⟨c, f ||| flOFNX, true⟩
      else
        ⟨signed F q.neg code,
         (if x then flNX else 0) ||| (if x && decide (code < 2 ^ L.mb) then flUF else 0), false⟩

/-- The LG6 log magnitude of a neighbour: `none` is zero. -/
def lgCode (neg : Bool) : Option Int → Nat
  | none => 0x10
  | some l => (l % 32).toNat + (if neg then 32 else 0)

/-- Rounding of a finite value to LG6 (R119, R121). -/
def roundLG6 (q : Q) (rm : Rm) (sat : Bool) : Rounded :=
  if q.num = 0 then ⟨0x10, 0, false⟩
  else
    let E := ilog2Q q.num q.den + q.exp
    let fits (l : Int) : Bool := cmpMag (lgVal false l) { q with neg := false } != .gt
    let l0 := if fits (4 * E + 3) then 4 * E + 3 else if fits (4 * E + 2) then 4 * E + 2
      else if fits (4 * E + 1) then 4 * E + 1 else 4 * E
    let lo : Option Int := if l0 < -15 then none else some l0
    let exact : Bool := match lo with
      | none => false
      | some l => cmpMag (lgVal false l) { q with neg := false } == .eq
    let hi : Int := match lo with
      | none => -15
      | some l => l + 1
    let loQ : Q := match lo with
      | none => ⟨false, 0, 1, 0⟩
      | some l => lgVal false l
    let sum := addQ .rne loQ (lgVal false hi)
    let half : Ordering := cmpMag { q with neg := false, exp := q.exp + 1 } sum
    let odd : Bool := match lo with
      | none => false
      | some l => decide (l % 2 = 1)
    let r := if exact then lo else if pickUp rm q.neg half odd then some hi else lo
    match r with
    | none => ⟨0x10, flUFNX, false⟩
    | some l =>
      if l > 15 then
        let (c, f) := overflowR .lg6 q.neg rm sat false
        ⟨c, f ||| flOFNX, true⟩
      else ⟨lgCode q.neg (some l), if exact then 0 else flNX, false⟩

/-- Rounding of a finite value to E8M0 (R119, R121). -/
def roundE8M0 (q : Q) (rm : Rm) (sat : Bool) : Rounded :=
  if q.num = 0 || q.neg then ⟨0xFF, flNV, false⟩
  else
    let E := ilog2Q q.num q.den + q.exp
    if E < -127 then ⟨0, flUFNX, false⟩
    else
      let pow : Q := ⟨false, 1, 1, E⟩
      let exact : Bool := cmpMag pow q == .eq
      let half : Ordering := cmpMag { q with exp := q.exp + 1 } ⟨false, 3, 1, E⟩
      let r := if exact then E else if pickUp rm false half (decide ((E + 127) % 2 = 1)) then E + 1 else E
      if r > 127 then
        let (c, f) := overflowR .e8m0 false rm sat false
        ⟨c, f ||| flOFNX, true⟩
      else ⟨(r + 127).toNat, if exact then 0 else flNX, false⟩

/-- Rounding of a value to an integer of `w` bits: saturation with NV, NaN to 0 with NV, and NX
for an inexact result in range (R121, R160). -/
def roundInt (w : Nat) (sgn : Bool) (v : Val) (rm : Rm) : Int × Flags :=
  let lo : Int := if sgn then -(2 ^ (w - 1) : Nat) else 0
  let hi : Int := if sgn then (2 ^ (w - 1) : Nat) - 1 else (2 ^ w : Nat) - 1
  match v with
  | .nan _ => (0, flNV)
  | .inf s => (if s then lo else hi, flNV)
  | .fin q =>
    let (m, x) := roundMag rm q 0
    let i : Int := if q.neg then -(m : Int) else m
    if i < lo then (lo, flNV) else if i > hi then (hi, flNV)
    else (i, if x then flNX else 0)

/-- Round(F, v, rm, sat) (R119-R121). -/
def round (F : Fmt) (v : Val) (rm : Rm) (sat : Bool) : Rounded :=
  match F, v with
  | .int8, v =>
    let (i, f) := roundInt 8 true v rm
    ⟨wrapInt 8 i, f, f == flNV⟩
  | .e2m3, .nan _ | .e2m1, .nan _ => ⟨0, flNV, false⟩
  | F, .nan s => ⟨F.canonNaN, if s then flNV else 0, false⟩
  | .ue4m3, .inf true => ⟨0x7F, flNV, false⟩
  | .e8m0, .inf true => ⟨0xFF, flNV, false⟩
  | F, .inf s =>
    if F.hasInf && !sat then ⟨signed F s (infCode F), 0, false⟩
    else
      let (c, f) := overflowR F s rm sat true
      ⟨c, f, true⟩
  | .lg6, .fin q => roundLG6 q rm sat
  | .e8m0, .fin q => roundE8M0 q rm sat
  | .ue4m3, .fin q =>
    if q.num = 0 then ⟨0, 0, false⟩
    else if q.neg then ⟨0x7F, flNV, false⟩
    else roundFP .ue4m3 ⟨4, 3, 7⟩ q rm sat
  | F, .fin q =>
    match F.lay with
    | some L => roundFP F L q rm sat
    | none => ⟨0, 0, false⟩

/-- Round followed by the result step of FTZ: a subnormal result becomes the zero of its sign,
with UF and NX (R124). -/
def roundFtz (ftz : Bool) (F : Fmt) (v : Val) (rm : Rm) (sat : Bool) : Rounded :=
  let r := round F v rm sat
  if ftz && isSubnormal F r.code then { r with code := ftzCode true F r.code, fl := r.fl ||| flUFNX }
  else r

/-- Cvt(X, Y, bits, rm, sat): a conversion between formats, one rounding in all (R123). An
E2M3, E2M1 or INT8 destination of a NaN, and every other special case, are Round's. -/
def cvtFmt (ftz : Bool) (X Y : Fmt) (code : Nat) (rm : Rm) (sat : Bool) : Rounded :=
  roundFtz ftz Y (srcVal ftz X code) rm sat

/-! ### Minimum and maximum (R156) -/

/-- The order of R156 on values that are not NaN: -0 is below +0. -/
def ltTotal (a b : Val) : Bool :=
  match cmpV a b with
  | .lt => true
  | .gt => false
  | .eq => a.isZero && a.isNeg && !b.isNeg

/-- minimum (max = false) or maximum of two codes: NaN wins; NV for a signalling NaN. -/
def minMax (F : Fmt) (isMax : Bool) (ca cb : Nat) : Nat × Flags :=
  let a := decodeFmt F ca
  let b := decodeFmt F cb
  let f := if a.isSNaN || b.isSNaN then flNV else 0
  if a.isNaN || b.isNaN then (F.canonNaN, f)
  else (if isMax then (if ltTotal a b then cb else ca) else (if ltTotal b a then cb else ca), f)

/-- minimumNumber or maximumNumber of two codes: the other operand wins over a NaN. -/
def minMaxNum (F : Fmt) (isMax : Bool) (ca cb : Nat) : Nat × Flags :=
  let a := decodeFmt F ca
  let b := decodeFmt F cb
  let f := if a.isSNaN || b.isSNaN then flNV else 0
  if a.isNaN && b.isNaN then (F.canonNaN, f)
  else if a.isNaN then (cb, f)
  else if b.isNaN then (ca, f)
  else ((minMax F isMax ca cb).1, f)

/-- The eight relations of R157 by their COND code; 7 is reserved and never reaches here. -/
def fpRel (cond : Nat) (a b : Val) : Bool :=
  let un := a.isNaN || b.isNaN
  let o := cmpV a b
  match cond with
  | 0 => !un && o == .eq
  | 1 => !un && o == .lt
  | 2 => !un && (o == .lt || o == .eq)
  | 3 => un
  | 4 => un || o != .eq
  | 5 => !un && o == .gt
  | _ => !un && (o == .gt || o == .eq)

/-- NV of a comparison: a signalling NaN, or with SIG any NaN (R157). -/
def fpRelFlags (sig : Bool) (a b : Val) : Flags :=
  if a.isSNaN || b.isSNaN || (sig && (a.isNaN || b.isNaN)) then flNV else 0

/-! ### Special functions (R130, R202) -/

/-- Entries 0 to 15 of the exp2 table EX[i] = RNE(2^(i/64) * 2^32) (R202). -/
def tabEX0 : List Nat :=
  [4294967296, 4341736423, 4389014833, 4436808071,
   4485121744, 4533961517, 4583333121, 4633242347,
   4683695048, 4734697143, 4786254615, 4838373510,
   4891059943, 4944320094, 4998160210, 5052586606]

/-- Entries 16 to 31 of the exp2 table EX[i] = RNE(2^(i/64) * 2^32) (R202). -/
def tabEX1 : List Nat :=
  [5107605667, 5163223846, 5219447668, 5276283726,
   5333738689, 5391819295, 5450532358, 5509884764,
   5569883475, 5630535530, 5691848042, 5753828203,
   5816483285, 5879820635, 5943847684, 6008571941]

/-- Entries 32 to 47 of the exp2 table EX[i] = RNE(2^(i/64) * 2^32) (R202). -/
def tabEX2 : List Nat :=
  [6074001000, 6140142534, 6207004303, 6274594148,
   6342919999, 6411989869, 6481811861, 6552394164,
   6623745059, 6695872913, 6768786189, 6842493438,
   6917003306, 6992324534, 7068465956, 7145436504]

/-- Entries 48 to 63 of the exp2 table EX[i] = RNE(2^(i/64) * 2^32) (R202). -/
def tabEX3 : List Nat :=
  [7223245206, 7301901189, 7381413680, 7461792005,
   7543045592, 7625183973, 7708216783, 7792153760,
   7877004752, 7962779710, 8049488696, 8137141881,
   8225749546, 8315322086, 8405870007, 8497403930]

/-- the exp2 table EX[i] = RNE(2^(i/64) * 2^32) (R202). -/
def tabEX : List Nat := tabEX0 ++ tabEX1 ++ tabEX2 ++ tabEX3

/-- Entries 0 to 15 of the log2 table LT[i] = RNE(2^64 * log2(1 + i/64)) (R202). -/
def tabLT0 : List Nat :=
  [0, 412613322424486499, 818926958183105433, 1219130382413175476,
   1613404648504497789, 2001922879925238372, 2384850726660851500, 2762346789278069823,
   3134563013331062591, 3501645056564487676, 3863732631134349280, 4220959822858870674,
   4573455389325005895, 4921343038509143852, 5264741689420736009, 5603765716143027046]

/-- Entries 16 to 31 of the log2 table LT[i] = RNE(2^64 * log2(1 + i/64)) (R202). -/
def tabLT1 : List Nat :=
  [5938525176524057593, 6269126026662125183, 6595670322231605598, 6918256407606284491,
   7236979093657101011, 7551929825028555382, 7863196837632180880, 8170865307035720186,
   8475017488372349945, 8775732848344909873, 9073088189855120184, 9367157769746774429,
   9658013410114482884, 9945724603595365617, 10230358613029842718, 10511980565849063488]

/-- Entries 32 to 47 of the log2 table LT[i] = RNE(2^64 * log2(1 + i/64)) (R202). -/
def tabLT2 : List Nat :=
  [10790653543520307104, 11066438666357651011, 11339395173983139430, 11609580501703412536,
   11877050353048115186, 12141858768699246319, 12404058192024804892, 12663699531415516614,
   12920832219609980521, 13175504270181158604, 13427762331345657399, 13677651737246638159,
   13925216556851369695, 14170499640595339779, 14413542664896407538, 14654386174654656383]

/-- Entries 48 to 63 of the log2 table LT[i] = RNE(2^64 * log2(1 + i/64)) (R202). -/
def tabLT3 : List Nat :=
  [14893069623846345523, 15129631414313612932, 15364108932845312999, 15596538586638540477,
   15826955837224964698, 16055395232941043113, 16281890440016472475, 16506474272350843312,
   16729178720044364697, 16950034976744699890, 17169073465868378867, 17386323865751912702,
   17601815133784610129, 17815575529572172779, 18027632637177408114, 18238013386481834773]

/-- the log2 table LT[i] = RNE(2^64 * log2(1 + i/64)) (R202). -/
def tabLT : List Nat := tabLT0 ++ tabLT1 ++ tabLT2 ++ tabLT3

/-- CL = RNE(2^32 * ln 2) (R202). -/
def constCL : Nat := 2977044472

/-- CE = RNE(2^64 / ln 2) (R202). -/
def constCE : Nat := 26613026195688644983

/-- RNE(a / b). -/
def rneDiv (a b : Nat) : Nat :=
  let q := a / b
  let r := a % b
  if 2 * r > b ∨ (2 * r = b ∧ q % 2 = 1) then q + 1 else q

/-- RC[i] = RNE(2^64 * 64 / (64 + i)) (R202). -/
def tabRC (i : Nat) : Nat := rneDiv (2 ^ 64 * 64) (64 + i)

/-- RR[i] = RNE(2^64 * 128 / (128 + i)) (R202). -/
def tabRR (i : Nat) : Nat := rneDiv (2 ^ 64 * 128) (128 + i)

/-- RS[i] = RNE(2^64 / sqrt(1 + i/64)) = RNE(sqrt(2^134 / (64 + i))) (R202). -/
def tabRS (i : Nat) : Nat :=
  let s := isqrt (2 ^ 134 / (64 + i))
  if (2 * s + 1) * (2 * s + 1) * (64 + i) < 4 * 2 ^ 134 then s + 1 else s

/-- A nonzero finite FP32 value as a 24-bit integer `M = m * 2^23` and exponent `e`, with
1 <= m < 2: subnormals are normalised (R202). -/
def normM (q : Q) : Nat × Int :=
  let l := Nat.log2 q.num
  (if l ≤ 23 then q.num * 2 ^ (23 - l) else q.num / 2 ^ (l - 23), q.exp + l)

/-- An FP32 result with the exactness rule of R130: NX whenever the input is no exact case. -/
def spRound (ftz : Bool) (q : Q) (exact : Bool) : Nat × Flags :=
  let r := roundFtz ftz .fp32 (.fin q) .rne false
  (r.code, r.fl ||| (if exact then 0 else flNX))

/-- exp2 (R130, R202). -/
def fnExp2 (ftz : Bool) (code : Nat) : Nat × Flags :=
  match srcVal ftz .fp32 code with
  | .nan s => (0x7FC00000, if s then flNV else 0)
  | .inf s => (if s then 0 else 0x7F800000, 0)
  | .fin q =>
    let X : Int := (if q.neg then -1 else 1) *
      (if q.exp + 32 ≥ 0 then ((q.num * 2 ^ (q.exp + 32).toNat : Nat) : Int) else q.num)
    let X : Int := if q.exp + 32 ≥ 0 then X else X / (2 ^ (-(q.exp + 32)).toNat : Nat)
    if !q.neg && cmpV (.fin q) (.fin (Q.ofInt 128)) != .lt then (0x7F800000, flOFNX)
    else if q.neg && cmpV (.fin q) (.fin (Q.ofInt (-150))) == .lt then (0, flUFNX)
    else
      let n := X / (2 ^ 32 : Nat)
      let f := (X % (2 ^ 32 : Nat)).toNat
      let i := f / 2 ^ 26
      let t := f % 2 ^ 26
      let q1 := t * constCL / 2 ^ 32
      let q2 := q1 * q1 / 2 ^ 32
      let q3 := q2 * q1 / 2 ^ 32
      let P := 2 ^ 32 + q1 + q2 / 2 + q3 / 6
      let Y := tabEX.getD i 0 * P / 2 ^ 32
      let isInt := cmpV (.fin q) (.fin (Q.ofInt n)) == .eq
      spRound ftz ⟨false, Y, 1, n - 32⟩ (isInt && decide (-149 ≤ n ∧ n ≤ 127))

/-- The series of log2: terms k to 8 (R202). -/
def log2Series (u : Int) : Nat → Nat → Int → Int → Int
  | 0, _, _, L => L
  | fuel + 1, k, t, L =>
    let t' := t * u / (2 ^ 64 : Nat)
    log2Series u fuel (k + 1) t' (L + (if k % 2 = 1 then 1 else -1) * (t' / (k : Int)))

/-- log2 (R130, R202): NV for every NaN. -/
def fnLog2 (ftz : Bool) (code : Nat) : Nat × Flags :=
  match srcVal ftz .fp32 code with
  | .nan _ => (0x7FC00000, flNV)
  | .inf s => if s then (0x7FC00000, flNV) else (0x7F800000, 0)
  | .fin q =>
    if q.num = 0 then (0xFF800000, flDZ)
    else if q.neg then (0x7FC00000, flNV)
    else
      let (M, e) := normM q
      let i := M / 2 ^ 17 - 64
      let u : Int := ((M * 2 ^ 41 * tabRC i / 2 ^ 64 : Nat) : Int) - (2 ^ 64 : Nat)
      let L := log2Series u 7 2 u u
      let S : Int := e * (2 ^ 64 : Nat) + tabLT.getD i 0 + L * constCE / (2 ^ 64 : Nat)
      spRound ftz ⟨decide (S < 0), S.natAbs, 1, -64⟩ (M == 2 ^ 23)

/-- The Newton steps of the reciprocal (R202). -/
def rcpSteps (M : Nat) : Nat → Int → Int
  | 0, y => y
  | k + 1, y =>
    let d : Int := (2 ^ 64 : Nat) - (M : Int) * y / (2 ^ 63 : Nat)
    rcpSteps M k (y + y * d / (2 ^ 64 : Nat))

/-- The reciprocal (R130, R202). -/
def fnRcp (ftz : Bool) (code : Nat) : Nat × Flags :=
  match srcVal ftz .fp32 code with
  | .nan s => (0x7FC00000, if s then flNV else 0)
  | .inf s => (if s then 0x80000000 else 0, 0)
  | .fin q =>
    if q.num = 0 then (if q.neg then 0xFF800000 else 0x7F800000, flDZ)
    else
      let (M, e) := normM q
      let i := M / 2 ^ 16 - 128
      let y := rcpSteps (M * 2 ^ 40) 2 (tabRR i)
      spRound ftz ⟨q.neg, y.toNat, 1, -64 - e⟩ (M == 2 ^ 23)

/-- The Newton steps of the reciprocal square root (R202). -/
def rsqSteps (M : Nat) : Nat → Int → Int
  | 0, y => y
  | k + 1, y =>
    let h := y * y / (2 ^ 64 : Nat)
    let g := (M : Int) * h / (2 ^ 62 : Nat)
    rsqSteps M k (y + y * ((2 ^ 64 : Nat) - g) / (2 ^ 65 : Nat))

/-- The reciprocal square root (R130, R202). -/
def fnRsq (ftz : Bool) (code : Nat) : Nat × Flags :=
  match srcVal ftz .fp32 code with
  | .nan s => (0x7FC00000, if s then flNV else 0)
  | .inf s => if s then (0x7FC00000, flNV) else (0, 0)
  | .fin q =>
    if q.num = 0 then (if q.neg then 0xFF800000 else 0x7F800000, flDZ)
    else if q.neg then (0x7FC00000, flNV)
    else
      let (M0, e0) := normM q
      let odd := decide (e0 % 2 = 1)
      let M := if odd then 2 * M0 else M0
      let e := if odd then e0 - 1 else e0
      let i := M / 2 ^ 17 - 64
      let y := rsqSteps (M * 2 ^ 39) 3 (tabRS i)
      spRound ftz ⟨false, y.toNat, 1, -64 - e / 2⟩ (M0 == 2 ^ 23 && !odd)

end Sys2Proof.Machine
end

