-- ==== Sys2Proof/Machine/Flags.lean ====
section
/-! DEFINITION. Every condition a form computes: the integer results with their widths (R143),
the conditions of CMP, TEST and BTST (R149), and the sticky FP flags (R122, R124, R137). -/

namespace Sys2Proof.Machine

/-! ### Integer results -/

/-- The low `w` bits of an operand, read under the signedness (R143). -/
def intOf (sg : Bool) (w : Nat) (v : Word) : Int := if sg then sint w v.toNat else ((v.toNat % 2 ^ w : Nat) : Int)

/-- An exact result pushed from `w` bits: r mod 2^w, extended under the signedness (R143). -/
def intPush (sg : Bool) (w : Nat) (r : Int) : Word :=
  if sg then BitVec.ofInt 64 (sint w (wrapInt w r)) else BitVec.ofNat 64 (wrapInt w r)

/-- A clamped result (R146). -/
def clampInt (sg : Bool) (w : Nat) (r : Int) : Int :=
  let lo : Int := if sg then -(2 ^ (w - 1) : Nat) else 0
  let hi : Int := if sg then (2 ^ (w - 1) : Nat) - 1 else (2 ^ w : Nat) - 1
  max lo (min hi r)

/-! ### Integer conditions (R149) -/

/-- COND of CMP. -/
def cmpCond (cond : Nat) (a b : Int) : Bool :=
  match cond with
  | 0 => a == b
  | 1 => a != b
  | 2 => decide (a < b)
  | _ => decide (b ≤ a)

/-- COND of TEST. -/
def testCond (cond a b : Nat) : Bool := if cond = 0 then a &&& b != 0 else a &&& b == 0

/-- COND of BTST. -/
def btstCond (cond w a b : Nat) : Bool := if cond = 0 then a.testBit (b % w) else !a.testBit (b % w)

/-! ### Floating-point state -/

/-- CTX_FPCTL.FTZ (R136). -/
def Ctx.ftz (c : Ctx) : Bool := c.fpctl.getLsbD 8

/-- The flags of an instruction join those that its bundle ORs into CTX_FPCTL (R122, R137). -/
def Stage.raise (st : Stage) (f : Flags) : Stage := { st with flags := st.flags ||| f.toNat }

/-- The rounding mode that a modifier nibble names (R103). -/
def rmOf (n : Nat) : Rm :=
  match n % 8 with
  | 0 => .rne
  | 1 => .rz
  | 2 => .ru
  | 3 => .rd
  | _ => .rna

end Sys2Proof.Machine
end

