-- ==== Sys2Proof/Machine/Int.lean ====
section
/-! DEFINITION. The integer, bit-field, select and move instructions (R143-R153). -/

namespace Sys2Proof.Machine

open Host (Outcome)

/-! ### Moulds -/

/-- The body of a form that computes one pushed value from its sources (R143). -/
def pushBody (cl : LitClass) (t : Tail) (f : State → Nat → Ctx → Word → Word → Word → Word)
    (s : State) (g : Nat) (c : Ctx) (st : Stage) : HeadResult :=
  match operands cl c t st with
  | .error x => .stop x
  | .ok (a, b, d, st1) => .ok (st1.push (f s g c a b d) (tailD t))

/-- A form that pushes one value. -/
def pushForm (cl : LitClass) (h : Head) (t : Tail) (s : State)
    (f : State → Nat → Ctx → Word → Word → Word → Word) : Outcome State Fault Refusal :=
  runHead s h 1 (pushBody cl t f)

/-- An integer form: its exact result from the operands at width W under the suffix (R143). -/
def intForm (h : Head) (t : Tail) (s : State) (r : Nat → Int → Int → Int → Int) :
    Outcome State Fault Refusal :=
  let w := tailW t
  let sg := tailSigned t
  pushForm (.int sg) h t s (fun _ _ _ a b c => intPush sg w (r w (intOf sg w a) (intOf sg w b) (intOf sg w c)))

/-- An integer form on bit patterns: the low W bits of a and the whole of b and c. -/
def bitForm (h : Head) (t : Tail) (s : State) (r : Nat → Nat → Nat → Nat → Nat) :
    Outcome State Fault Refusal :=
  let w := tailW t
  let sg := tailSigned t
  pushForm (.int sg) h t s (fun _ _ _ a b c =>
    intPush sg w (r w (a.toNat % 2 ^ w) b.toNat c.toNat : Nat))

/-- A form that sets the predicate PD of its modifier byte from its operands and pushes nothing
(R149, R157). -/
def predForm (cl : LitClass) (h : Head) (t : Tail) (s : State)
    (f : Ctx → Word → Word → Bool × Flags) : Outcome State Fault Refusal :=
  runHead s h 0 (fun _ _ c st =>
    match operands cl c t st with
    | .error x => .stop x
    | .ok (a, b, _, st1) =>
      let (v, fl) := f c a b
      .ok ((st1.setPred (tailM t / 32) v).raise fl))

/-! ### Bit operations -/

/-- `a` rotated left by `n` in `w` bits. -/
def rotl (w a n : Nat) : Nat := (a * 2 ^ n + a / 2 ^ (w - n)) % 2 ^ w

/-- Leading zeros of the low `w` bits. -/
def clzN (w a : Nat) : Nat := if a % 2 ^ w = 0 then w else w - 1 - Nat.log2 (a % 2 ^ w)

/-- Trailing zeros of the low `w` bits. -/
def ctzN : Nat → Nat → Nat
  | 0, _ => 0
  | w + 1, a => if a % 2 = 1 then 0 else 1 + ctzN w (a / 2)

/-- Ones in the low `w` bits. -/
def popcN : Nat → Nat → Nat
  | 0, _ => 0
  | w + 1, a => a % 2 + popcN w (a / 2)

/-- The low `w` bits in reverse order. -/
def brevN : Nat → Nat → Nat
  | 0, _ => 0
  | w + 1, a => (a % 2) * 2 ^ w + brevN w (a / 2)

/-- Bits equal to the top bit of `w`, counted downward below it (CLS). -/
def clsN (w a : Nat) : Nat :=
  let top := a.testBit (w - 1)
  clzN (w - 1) (if top then 2 ^ (w - 1) - 1 - a % 2 ^ (w - 1) else a % 2 ^ (w - 1))

/-- The bit-field extract of R147 with its control word. -/
def bfx (sg : Bool) (a ctrl : Nat) : Int :=
  let pos := ctrl % 128
  let len := ctrl / 256 % 128
  if len = 0 ∨ 64 ≤ pos then 0
  else
    let n := min len (64 - pos)
    if sg then sint n (a >>> pos) else ((nfld a pos n : Nat) : Int)

/-- The bit-field insert of R147. -/
def bfi (a b ctrl : Nat) : Nat :=
  let pos := ctrl % 128
  let len := ctrl / 256 % 128
  if len = 0 ∨ 64 ≤ pos then a
  else
    let n := min len (64 - pos)
    a - nfld a pos n * 2 ^ pos + b % 2 ^ n * 2 ^ pos

/-- Eight steps of the reflected CRC-32C on one byte (R148). -/
def crcBits : Nat → Nat → Nat
  | 0, c => c
  | n + 1, c => crcBits n (c / 2 ^^^ (if c % 2 = 1 then 0x82F63B78 else 0))

/-- CRC-32C over bytes from a running value (R148). -/
def crcBytes (c : Nat) (l : List Byte) : Nat := l.foldl (fun c v => crcBits 8 (c ^^^ v.toNat)) c

/-- FNV-1a 64 over bytes from a running value (R148). -/
def fnvBytes (h : Nat) (l : List Byte) : Nat :=
  l.foldl (fun h v => (h ^^^ v.toNat) * 0x100000001B3 % 2 ^ 64) h

/-- PERM: byte `j` of the result, for `n` bytes from `j` (R145). -/
def permN (a b : Nat) : Nat → Nat → Nat
  | 0, _ => 0
  | n + 1, j =>
    (if b.testBit (4 * j + 3) then 0 else nfld a (8 * nfld b (4 * j) 3) 8) + 256 * permN a b n (j + 1)

/-! ### The instructions -/

/-- ADD (R145). -/
def execAdd (h : Head) (t : Tail) (s : State) : Outcome State Fault Refusal :=
  intForm h t s (fun _ a b _ => a + b)

/-- SUB (R145). -/
def execSub (h : Head) (t : Tail) (s : State) : Outcome State Fault Refusal :=
  intForm h t s (fun _ a b _ => a - b)

/-- MUL (R145). -/
def execMul (h : Head) (t : Tail) (s : State) : Outcome State Fault Refusal :=
  intForm h t s (fun _ a b _ => a * b)

/-- MULH (R145): the high W bits of the exact product. -/
def execMulh (h : Head) (t : Tail) (s : State) : Outcome State Fault Refusal :=
  intForm h t s (fun w a b _ => a * b / (2 ^ w : Nat))

/-- MADD (R145). -/
def execMadd (h : Head) (t : Tail) (s : State) : Outcome State Fault Refusal :=
  intForm h t s (fun _ a b c => a * b + c)

/-- DIV (R145, R146): truncated; division by zero gives 2^W - 1. -/
def execDiv (h : Head) (t : Tail) (s : State) : Outcome State Fault Refusal :=
  intForm h t s (fun w a b _ => if b = 0 then (2 ^ w : Nat) - 1 else a.tdiv b)

/-- REM (R145, R146): b = 0 gives a. -/
def execRem (h : Head) (t : Tail) (s : State) : Outcome State Fault Refusal :=
  intForm h t s (fun _ a b _ => if b = 0 then a else a - b * a.tdiv b)

/-- NEG (R145). -/
def execNeg (h : Head) (t : Tail) (s : State) : Outcome State Fault Refusal :=
  intForm h t s (fun _ a _ _ => -a)

/-- ABS (R145): under .z the operand is never negative. -/
def execAbs (h : Head) (t : Tail) (s : State) : Outcome State Fault Refusal :=
  intForm h t s (fun _ a _ _ => if a < 0 then -a else a)

/-- MIN (R145). -/
def execMin (h : Head) (t : Tail) (s : State) : Outcome State Fault Refusal :=
  intForm h t s (fun _ a b _ => if b < a then b else a)

/-- MAX (R145). -/
def execMax (h : Head) (t : Tail) (s : State) : Outcome State Fault Refusal :=
  intForm h t s (fun _ a b _ => if a < b then b else a)

/-- ADDS (R145, R146): clamped. -/
def execAdds (h : Head) (t : Tail) (s : State) : Outcome State Fault Refusal :=
  intForm h t s (fun w a b _ => clampInt (tailSigned t) w (a + b))

/-- SUBS (R145, R146): clamped. -/
def execSubs (h : Head) (t : Tail) (s : State) : Outcome State Fault Refusal :=
  intForm h t s (fun w a b _ => clampInt (tailSigned t) w (a - b))

/-- AND (R145). -/
def execAnd (h : Head) (t : Tail) (s : State) : Outcome State Fault Refusal :=
  bitForm h t s (fun _ a b _ => a &&& b)

/-- OR (R145). -/
def execOr (h : Head) (t : Tail) (s : State) : Outcome State Fault Refusal :=
  bitForm h t s (fun _ a b _ => a ||| b)

/-- XOR (R145). -/
def execXor (h : Head) (t : Tail) (s : State) : Outcome State Fault Refusal :=
  bitForm h t s (fun _ a b _ => a ^^^ b)

/-- ANDN (R145). -/
def execAndn (h : Head) (t : Tail) (s : State) : Outcome State Fault Refusal :=
  bitForm h t s (fun w a b _ => a &&& (2 ^ w - 1 - b % 2 ^ w))

/-- ORN (R145). -/
def execOrn (h : Head) (t : Tail) (s : State) : Outcome State Fault Refusal :=
  bitForm h t s (fun w a b _ => a ||| (2 ^ w - 1 - b % 2 ^ w))

/-- NOT (R145). -/
def execNot (h : Head) (t : Tail) (s : State) : Outcome State Fault Refusal :=
  bitForm h t s (fun w a _ _ => 2 ^ w - 1 - a)

/-- SHL (R145). -/
def execShl (h : Head) (t : Tail) (s : State) : Outcome State Fault Refusal :=
  bitForm h t s (fun w a b _ => a * 2 ^ (b % w))

/-- SHR (R145): logical, under either suffix. -/
def execShr (h : Head) (t : Tail) (s : State) : Outcome State Fault Refusal :=
  bitForm h t s (fun w a b _ => a / 2 ^ (b % w))

/-- SAR (R145): arithmetic, under either suffix. -/
def execSar (h : Head) (t : Tail) (s : State) : Outcome State Fault Refusal :=
  pushForm (.int (tailSigned t)) h t s (fun _ _ _ a b _ =>
    intPush (tailSigned t) (tailW t) (sint (tailW t) a.toNat / (2 ^ (b.toNat % tailW t) : Nat)))

/-- ROL (R145). -/
def execRol (h : Head) (t : Tail) (s : State) : Outcome State Fault Refusal :=
  bitForm h t s (fun w a b _ => rotl w a (b % w))

/-- ROR (R145). -/
def execRor (h : Head) (t : Tail) (s : State) : Outcome State Fault Refusal :=
  bitForm h t s (fun w a b _ => rotl w a ((w - b % w) % w))

/-- CLZ (R145). -/
def execClz (h : Head) (t : Tail) (s : State) : Outcome State Fault Refusal :=
  bitForm h t s (fun w a _ _ => clzN w a)

/-- CTZ (R145). -/
def execCtz (h : Head) (t : Tail) (s : State) : Outcome State Fault Refusal :=
  bitForm h t s (fun w a _ _ => ctzN w a)

/-- POPC (R145). -/
def execPopc (h : Head) (t : Tail) (s : State) : Outcome State Fault Refusal :=
  bitForm h t s (fun w a _ _ => popcN w a)

/-- BREV (R145). -/
def execBrev (h : Head) (t : Tail) (s : State) : Outcome State Fault Refusal :=
  bitForm h t s (fun w a _ _ => brevN w a)

/-- BSWAP (R145). -/
def execBswap (h : Head) (t : Tail) (s : State) : Outcome State Fault Refusal :=
  bitForm h t s (fun w a _ _ => natLE (bytesLE (w / 8) a).reverse)

/-- BFX (R147): its control word is b. -/
def execBfx (h : Head) (t : Tail) (s : State) : Outcome State Fault Refusal :=
  pushForm (.int (tailSigned t)) h t s (fun _ _ _ a b _ =>
    BitVec.ofInt 64 (bfx (tailSigned t) a.toNat b.toNat))

/-- BFI (R147): its control word is c. -/
def execBfi (h : Head) (t : Tail) (s : State) : Outcome State Fault Refusal :=
  bitForm h t s (fun _ a b c => bfi a b c)

/-- EXT (R145): the low (b mod 64) + 1 bits of a. -/
def execExt (h : Head) (t : Tail) (s : State) : Outcome State Fault Refusal :=
  pushForm (.int (tailSigned t)) h t s (fun _ _ _ a b _ =>
    intPush (tailSigned t) (b.toNat % 64 + 1) a.toNat)

/-- CMP (R149). -/
def execCmp (h : Head) (t : Tail) (s : State) : Outcome State Fault Refusal :=
  predForm (.int (tailSigned t)) h t s (fun _ a b =>
    (cmpCond (tailM t / 8 % 4) (intOf (tailSigned t) (tailW t) a) (intOf (tailSigned t) (tailW t) b), 0))

/-- TEST (R149): S has no effect, so that literals and constants are zero-extended. -/
def execTest (h : Head) (t : Tail) (s : State) : Outcome State Fault Refusal :=
  predForm (.int false) h t s (fun _ a b =>
    (testCond (tailM t / 8 % 4) (a.toNat % 2 ^ tailW t) (b.toNat % 2 ^ tailW t), 0))

/-- SEL (R151): a when the predicate, as of the start of the bundle, equals NOT sense. -/
def execSel (h : Head) (t : Tail) (s : State) : Outcome State Fault Refusal :=
  let sg := tailSigned t
  pushForm (.int sg) h t s (fun _ _ c a b _ =>
    let take := c.p.getLsbD (tailM t / 32) == !(tailM t).testBit 4
    intPush sg (tailW t) (intOf sg (tailW t) (if take then a else b)))

/-- MOV (R145). -/
def execMov (h : Head) (t : Tail) (s : State) : Outcome State Fault Refusal :=
  intForm h t s (fun _ a _ _ => a)

/-- LDI (R152): the literal, extended under the suffix. -/
def execLdi (h : Head) (t : Tail) (s : State) : Outcome State Fault Refusal :=
  pushForm (.int (tailSigned t)) h t s (fun _ _ _ _ b _ => b)

/-- LDIH (R152): the literal above a[31:0]. -/
def execLdih (h : Head) (t : Tail) (s : State) : Outcome State Fault Refusal :=
  pushForm (.int false) h t s (fun _ _ _ a _ _ =>
    BitVec.ofNat 64 ((tailLit t).toNat * 2 ^ 32 + a.toNat % 2 ^ 32))

/-- LEA (R145): a + b * 2^s + c. -/
def execLea (h : Head) (t : Tail) (s : State) : Outcome State Fault Refusal :=
  intForm h t s (fun _ a b c => a + b * (2 ^ (tailM t / 16 % 4) : Nat) + c)

/-- CRC (R148): W / 8 bytes of b; neither a[31:0] nor the result is narrowed by W. -/
def execCrc (h : Head) (t : Tail) (s : State) : Outcome State Fault Refusal :=
  pushForm (.int false) h t s (fun _ _ _ a b _ =>
    BitVec.ofNat 64 (crcBytes (a.toNat % 2 ^ 32) (bytesLE (tailW t / 8) b.toNat)))

/-- FNV (R148): W / 8 bytes of b; neither a nor the result is narrowed by W. -/
def execFnv (h : Head) (t : Tail) (s : State) : Outcome State Fault Refusal :=
  pushForm (.int false) h t s (fun _ _ _ a b _ =>
    BitVec.ofNat 64 (fnvBytes a.toNat (bytesLE (tailW t / 8) b.toNat)))

/-- COORD (R153): relative values use the rectangle of the resident launch; a context of none has
the tile itself (DESIGN CHOICE, log 3). -/
def execCoord (h : Head) (t : Tail) (s : State) : Outcome State Fault Refusal :=
  pushForm (.int false) h t s (fun s g c _ _ _ =>
    let tl := tileOf g
    let rec_ := match s.launch c.lslot with
      | some l => l.record
      | none => bytesLE 1 (tileX tl) ++ bytesLE 1 (tileY tl)
    let sz := natAt rec_ 2 1
    BitVec.ofNat 64 (match tailM t % 4 with
      | 0 => tileX tl + tileY tl * 256
      | 1 => (tileX tl - natAt rec_ 0 1) + (tileY tl - natAt rec_ 1 1) * 256
      | 2 => 2 ^ (sz % 8) + 2 ^ (sz / 16 % 8) * 256
      | _ => stopOf tl + clusterOf tl % 8 * 256 + clusterOf tl / 8 * 65536))

/-- LDK (R152): %k[a[7:0]], extended under the suffix. -/
def execLdk (h : Head) (t : Tail) (s : State) : Outcome State Fault Refusal :=
  pushForm (.int (tailSigned t)) h t s (fun _ _ c a _ _ =>
    extLit (.int (tailSigned t)) 32 (c.k.getD (a.toNat % 256) 0).toNat)

/-- ALIGNUP (R145). -/
def execAlignup (h : Head) (t : Tail) (s : State) : Outcome State Fault Refusal :=
  bitForm h t s (fun _ a b _ => roundUp (2 ^ (b % 64)) a)

/-- ALIGNDN (R145). -/
def execAligndn (h : Head) (t : Tail) (s : State) : Outcome State Fault Refusal :=
  bitForm h t s (fun _ a b _ => a / 2 ^ (b % 64) * 2 ^ (b % 64))

/-- BOUND (R145): under .z no operand is negative. -/
def execBound (h : Head) (t : Tail) (s : State) : Outcome State Fault Refusal :=
  intForm h t s (fun _ a b _ => if b ≤ 0 then 0 else max 0 (min a (b - 1)))

/-- BSET (R145). -/
def execBset (h : Head) (t : Tail) (s : State) : Outcome State Fault Refusal :=
  bitForm h t s (fun w a b _ => a ||| 2 ^ (b % w))

/-- BCLR (R145). -/
def execBclr (h : Head) (t : Tail) (s : State) : Outcome State Fault Refusal :=
  bitForm h t s (fun w a b _ => if a.testBit (b % w) then a - 2 ^ (b % w) else a)

/-- BINV (R145). -/
def execBinv (h : Head) (t : Tail) (s : State) : Outcome State Fault Refusal :=
  bitForm h t s (fun w a b _ => a ^^^ 2 ^ (b % w))

/-- BTST (R149): S has no effect, so that literals and constants are zero-extended. -/
def execBtst (h : Head) (t : Tail) (s : State) : Outcome State Fault Refusal :=
  predForm (.int false) h t s (fun _ a b =>
    (btstCond (tailM t / 8 % 4) (tailW t) (a.toNat % 2 ^ tailW t) b.toNat, 0))

/-- PERM (R145). -/
def execPerm (h : Head) (t : Tail) (s : State) : Outcome State Fault Refusal :=
  bitForm h t s (fun _ a b _ => permN a b 8 0)

/-- CLS (R145). -/
def execCls (h : Head) (t : Tail) (s : State) : Outcome State Fault Refusal :=
  bitForm h t s (fun w a _ _ => clsN w a)

/-- ABSD (R145): pushed zero-extended from W bits. -/
def execAbsd (h : Head) (t : Tail) (s : State) : Outcome State Fault Refusal :=
  let sg := tailSigned t
  pushForm (.int sg) h t s (fun _ _ _ a b _ =>
    intPush false (tailW t) ((intOf sg (tailW t) a - intOf sg (tailW t) b).natAbs : Nat))

/-- AVG (R145): floor((a + b + 1) / 2). -/
def execAvg (h : Head) (t : Tail) (s : State) : Outcome State Fault Refusal :=
  intForm h t s (fun _ a b _ => (a + b + 1) / 2)

/-- MULW (R145): the exact product, pushed from 2W bits. -/
def execMulw (h : Head) (t : Tail) (s : State) : Outcome State Fault Refusal :=
  let sg := tailSigned t
  pushForm (.int sg) h t s (fun _ _ _ a b _ =>
    intPush sg (2 * tailW t) (intOf sg (tailW t) a * intOf sg (tailW t) b))

/-- SHLADD (R145): a * 2^(c mod 64) + b. -/
def execShladd (h : Head) (t : Tail) (s : State) : Outcome State Fault Refusal :=
  let sg := tailSigned t
  pushForm (.int sg) h t s (fun _ _ _ a b c =>
    intPush sg (tailW t) (intOf sg (tailW t) a * (2 ^ (c.toNat % 64) : Nat) + intOf sg (tailW t) b))

end Sys2Proof.Machine
end

