-- ==== Sys2Proof/Machine/Memory.lean ====
section
/-! DEFINITION. The memory instructions: loads, stores, physical access, local atomics, the
remote-procedure forms, fences, page exchanges and guard bits (R257-R282). -/

namespace Sys2Proof.Machine

open Host (Outcome)

/-! ### Addresses (R257) -/

/-- The address of a form whose second source is an index or the literal displacement. -/
def loadAddr (t : Tail) (a b : Word) : Nat :=
  match t with
  | .t48l v _ _ _ => (a + BitVec.ofInt 64 v.toInt).toNat
  | _ => (a + b * BitVec.ofNat 64 (2 ^ (tailM t / 16 % 4))).toNat

/-- The address of a form whose T32 index is srcC (ST) and whose T48-X field16 is the
displacement. -/
def storeAddr (t : Tail) (a c : Word) : Nat :=
  match t with
  | .t32 .. => (a + c * BitVec.ofNat 64 (2 ^ (tailM t / 16 % 4))).toNat
  | .t48x f _ _ _ _ _ => (a + BitVec.ofInt 64 f.toInt).toNat
  | _ => a.toNat

/-- The address of a form without an index. -/
def baseAddr (t : Tail) (a : Word) : Nat := storeAddr t a 0

/-- The operands of a memory form (R257). -/
def memForm (h : Head) (t : Tail) (s : State) (n : Nat)
    (f : State → Nat → Ctx → Word → Word → Word → Stage → HeadResult) : Outcome State Fault Refusal :=
  runHead s h n (fun s g c st =>
    match operands (.int false) c t st with
    | .error x => .stop x
    | .ok (a, b, d, st1) => f s g c a b d st1)

/-- The frame of a privileged memory form: PRIVILEGE precedes the faults of its pops (R109, R405). -/
def sysForm (h : Head) (t : Tail) (s : State) (n : Nat)
    (f : State → Nat → Ctx → Word → Word → Word → Stage → HeadResult) : Outcome State Fault Refusal :=
  runHead s h n (fun s g c st =>
    if !c.sys then .stop (.of .privilege)
    else
      match operands (.int false) c t st with
      | .error x => .stop x
      | .ok (a, b, d, st1) => f s g c a b d st1)

/-- Access bytes of the nibble's width. -/
def tailBytes (t : Tail) : Nat := tailW t / 8

/-- A loaded value, extended under the suffix (R262). -/
def loadValue (t : Tail) (bs : List Byte) : Word := intPush (tailSigned t) (tailW t) (natLE bs)

/-! ### LD, ST, LDP, STP (R262-R264) -/

/-- LD (R262). -/
def execLd (h : Head) (t : Tail) (s : State) : Outcome State Fault Refusal :=
  memForm h t s 1 (fun s g _ a b _ st =>
    match loadBytes s g .plain (loadAddr t a b) (tailBytes t) (tailBytes t) st with
    | .error x => .stop x
    | .ok (bs, st1) => .ok (st1.push (loadValue t bs) (tailD t)))

/-- ST (R263). -/
def execSt (h : Head) (t : Tail) (s : State) : Outcome State Fault Refusal :=
  memForm h t s 0 (fun s g _ a b c st =>
    HeadResult.of (storeBytes s g 0xC1 t (storeAddr t a c) (bytesLE (tailBytes t) b.toNat) (tailBytes t) st))

/-- LDP (R264): two pushes, and the destination pair. -/
def execLdp (h : Head) (t : Tail) (s : State) : Outcome State Fault Refusal :=
  memForm h t s 2 (fun s g _ a b _ st =>
    let n := tailBytes t
    match loadBytes s g .plain (loadAddr t a b) (2 * n) (2 * n) st with
    | .error x => .stop x
    | .ok (bs, st1) =>
      let v0 := loadValue t (bs.take n)
      let v1 := loadValue t (bs.drop n)
      let st2 := (st1.push v0 none).push v1 none
      .ok (match tailD t with
        | some d => { st2 with regs := st2.regs ++ [(d.toNat, v0), (d.toNat + 1, v1)] }
        | none => st2))

/-- STP (R264): one effect or one direct store of both values. -/
def execStp (h : Head) (t : Tail) (s : State) : Outcome State Fault Refusal :=
  memForm h t s 0 (fun s g _ a b c st =>
    let n := tailBytes t
    HeadResult.of (storeBytes s g 0xC3 t (match t with
      | .t32 .. => a.toNat
      | _ => baseAddr t a) (bytesLE n b.toNat ++ bytesLE n c.toNat) (2 * n) st))

/-! ### LDX and STX (R265) -/

/-- What a physical address word names. -/
inductive Phys where
  | table (off : Nat)
  | bytes (key : Nat)
  deriving DecidableEq, Repr

/-- The location that an address word names at a tile, if any. -/
def physOf (s : State) (t : Nat) (a : Nat) : Option Phys :=
  if a < 2 ^ 63 then
    if 2 ^ 21 ≤ a then none
    else if Config.tableArea ≤ a then some (.table a)
    else some (.bytes (keyScratch t a))
  else
    let x := a % 2 ^ 63
    if 2 ^ 29 ≤ x then none
    else some (.bytes (keyVault t (pageInSlot (s.tile t) (nfld x 26 3) (nfld x 16 10)) (x % 65536)))

/-- The key that names a line for its owner tag. -/
def Phys.key (t : Nat) : Phys → Nat
  | .table off => keyScratch t off
  | .bytes k => k

/-- The checks of LDX and STX after the mode: location, alignment, and the wait for a busy page. -/
def physCheck (s : State) (g : Nat) (a al : Nat) : Except Stop Phys :=
  match physOf s (tileOf g) a with
  | none => .error (.at_ .page a)
  | some p => if a % al ≠ 0 then .error (.at_ .align a)
    else if stalled s (p.key (tileOf g)) then .error .stall else .ok p

/-- The LAST field of a vault page and the bytes moved, for an access of LDX or STX (R373, R396). -/
def Stage.touched (st : Stage) (k n : Nat) : Stage := if isVault k then st.act (.touch k n) else st

/-- LDX (R265): direct; no translation, generation check or guard bitmap. -/
def execLdx (h : Head) (t : Tail) (s : State) : Outcome State Fault Refusal :=
  sysForm h t s 1 (fun s g c a _ _ st =>
    match physCheck s g a.toNat (tailBytes t) with
    | .error x => .stop x
    | .ok (.table off) => .ok (st.push (loadValue t (tableBytes s (tileOf g) off (tailBytes t))) (tailD t))
    | .ok (.bytes k) =>
      if injRead s k && injDbl s then .stop (.poison a.toNat (some k))
      else if poisoned s k (tailBytes t) then .stop (.poison a.toNat none)
      else
        let st0 := st.touched k (tailBytes t)
        let st1 := if injRead s k then st0.act (.injected (tileOf g) k) else st0
        .ok (st1.push (loadValue t (forward (ownStores s c st) k (visRead s k (tailBytes t)))) (tailD t)))

/-- LDX.TAG (R265, R253): the owner tag of the line. -/
def execLdxTag (h : Head) (t : Tail) (s : State) : Outcome State Fault Refusal :=
  sysForm h t s 1 (fun s g _ a _ _ st =>
    match physCheck s g a.toNat 128 with
    | .error x => .stop x
    | .ok p => .ok (st.push (BitVec.ofNat 64 (ownerTag s (p.key (tileOf g)))) (tailD t)))

/-- STX (R265). -/
def execStx (h : Head) (t : Tail) (s : State) : Outcome State Fault Refusal :=
  sysForm h t s 0 (fun s g _ a b _ st =>
    match physCheck s g a.toNat (tailBytes t) with
    | .error x => .stop x
    | .ok (.table off) => .ok (st.act (.physTable off (bytesLE (tailBytes t) b.toNat)))
    | .ok (.bytes k) => .ok (st.act (.store k (bytesLE (tailBytes t) b.toNat))))

/-- STX.TAG (R265, R253): the owner tag becomes b[11:0]. -/
def execStxTag (h : Head) (t : Tail) (s : State) : Outcome State Fault Refusal :=
  sysForm h t s 0 (fun s g _ a b _ st =>
    match physCheck s g a.toNat 128 with
    | .error x => .stop x
    | .ok p => .ok (st.act (.physTag (p.key (tileOf g) / 128) (b.toNat % 4096))))

/-! ### Local atomics (R266, R267) -/

/-- The new value of an atomic from the old one (R266). -/
def atomicNew (opc w : Nat) (sg : Bool) (old b c : Nat) : Nat :=
  let o := old % 2 ^ w
  let x := b % 2 ^ w
  let lt := fun (p q : Nat) => if sg then decide (sint w p < sint w q) else decide (p < q)
  match opc with
  | 0xC6 => (o + x) % 2 ^ w
  | 0xC7 => o &&& x
  | 0xC8 => o ||| x
  | 0xC9 => o ^^^ x
  | 0xCA => if lt x o then x else o
  | 0xCB => if lt o x then x else o
  | 0xCC => x
  | _ => if o = x then c % 2 ^ w else o

/-- A local atomic: at once on the private storage, else a commit point whose reply carries the
old value (R267). -/
def atomicForm (opc : Nat) (h : Head) (t : Tail) (s : State) : Outcome State Fault Refusal :=
  memForm h t s 1 (fun s g c a b d st =>
    let n := tailBytes t
    let w := tailW t
    let ea := match t with
      | .t32 .. => a.toNat
      | _ => baseAddr t a
    match locate s g .plain ea n n true with
    | .error e => .stop (.addr e ea)
    | .ok l =>
      if isPrivate c ea n then
        match loadBytes s g .plain ea n n st with
        | .error x => .stop x
        | .ok (bs, st1) =>
          let st2 := st1.push (loadValue t bs) (tailD t)
          if guarded s l.key n || staleAt s l.home (tagOf s (tileOf g) c.asid) then .ok st2
          else .ok (st2.act (.store l.key
            (bytesLE n (atomicNew opc w (tailSigned t) (natLE bs) b.toNat d.toNat))))
      else
        let (st1, slot, wr) := (st.walked s g ea).pushLater (tailD t)
        let data := bytesLE n b.toNat ++ (if opc = 0xCD then bytesLE n d.toNat else [])
        .ok (st1.act (.blocking (mkEffect opc t 0 ea data
          [(l.home, .atomic l.key opc n (tailSigned t) b d (tagOf s (tileOf g) c.asid) (ownerOf s g) c.act)])
          slot wr)))

/-- AADD (R266). -/
def execAadd (h : Head) (t : Tail) (s : State) : Outcome State Fault Refusal := atomicForm 0xC6 h t s
/-- AAND (R266). -/
def execAand (h : Head) (t : Tail) (s : State) : Outcome State Fault Refusal := atomicForm 0xC7 h t s
/-- AOR (R266). -/
def execAor (h : Head) (t : Tail) (s : State) : Outcome State Fault Refusal := atomicForm 0xC8 h t s
/-- AXOR (R266). -/
def execAxor (h : Head) (t : Tail) (s : State) : Outcome State Fault Refusal := atomicForm 0xC9 h t s
/-- AMIN (R266). -/
def execAmin (h : Head) (t : Tail) (s : State) : Outcome State Fault Refusal := atomicForm 0xCA h t s
/-- AMAX (R266). -/
def execAmax (h : Head) (t : Tail) (s : State) : Outcome State Fault Refusal := atomicForm 0xCB h t s
/-- ASWAP (R266). -/
def execAswap (h : Head) (t : Tail) (s : State) : Outcome State Fault Refusal := atomicForm 0xCC h t s
/-- ACAS (R266). -/
def execAcas (h : Head) (t : Tail) (s : State) : Outcome State Fault Refusal := atomicForm 0xCD h t s

/-- ACT (R268): a row activation when the address translates to the own vault, else nothing. -/
def execAct (h : Head) (t : Tail) (s : State) : Outcome State Fault Refusal :=
  memForm h t s 0 (fun s g _ a b _ st =>
    let ea := match t with
      | .t16 .. => a.toNat
      | _ => loadAddr t a b
    match locate s g .plain ea 1 1 false with
    | .ok l => if isVault l.key then .ok ((st.walked s g ea).act (.activate l.key)) else .ok st
    | .error e => if e.stall then .stop .stall else .ok st)

/-! ### Remote-procedure forms (R269-R276) -/

/-- The key of the bytes at a local operand for the owning copy, and for its span twin when they lie in the
frame, of which it has its own (R140, R275). -/
def localKeys (s : State) (g ea n : Nat) : Nat × Option Nat :=
  let o := ownerOf s g
  let c := s.ctx o
  (keyScratch (tileOf g) ea,
    c.twin.bind (fun tw => if tw < numCtxs then twinFrame { s.ctx tw with addrPlace := c.addrPlace } ea n else none))

/-- What a remote form needs of its address R: its reach, bytes, alignment, and whether it
writes. -/
structure RemoteSpec where
  opc : Nat
  reach : Reach
  n : Nat
  al : Nat
  write : Bool
  lbytes : Nat
  lalign : Nat
  deriving DecidableEq, Repr

/-- The common part of every remote form: R, then L, then B are checked (R259); `payload` gives
b's word and the data of the request, read at issue; then the request is held, with its wait in
a blocking form (R269, R275). `lval` is the L operand, if the form has one. -/
def remoteIssue (s : State) (g : Nat) (c : Ctx) (t : Tail) (x : RemoteSpec) (r : Word) (lval : Option Word)
    (barSrc : Word) (value : Bool) (payload : Stage → Except Stop (Word × List Byte × Stage)) (st : Stage) :
    HeadResult :=
  match locate s g x.reach r.toNat x.n x.al x.write with
  | .error e => .stop (.addr e r.toNat)
  | .ok lr =>
    let lcheck : Except Stop Unit := match lval with
      | none => .ok ()
      | some lv => match locate s g .remoteL lv.toNat x.lbytes x.lalign true with
        | .error e => .error (.addr e lv.toNat)
        | .ok _ => .ok ()
    match lcheck with
    | .error y => .stop y
    | .ok () =>
      let bar : Except Stop (Option Bar) :=
        if rNB t then barOperand s g .tileLocal (tailC t) barSrc else .ok none
      match bar with
      | .error y => .stop y
      | .ok b =>
        match payload (st.walked s g r.toNat) with
        | .error y => .stop y
        | .ok (v, data, st1) =>
          let keys := lval.map (fun lv => localKeys s g lv.toNat x.lbytes)
          let req : RemoteReq :=
            { opc := x.opc, modf := effMod t, ctl := (tailF t).toNat, key := lr.key,
              tag := tagOf s (tileOf g) c.asid, tile := tileOf g, ctx := ownerOf s g, act := c.act,
              l := keys.map (·.1), lp := keys.bind (·.2), bar := b, v := v, data := data, time := 0, pkt := 0 }
          let e := mkEffect x.opc t 0 r.toNat
            (bytesLE 8 ((lval.getD 0).toNat) ++ bytesLE 8 (if rNB t then barSrc.toNat else 0) ++
              bytesLE 8 v.toNat ++ data) [(lr.home, .remote req)]
          if rNB t then .ok (st1.act (.effects [e]))
          else if value then
            let (st2, slot, wr) := st1.pushLater (tailD t)
            .ok (st2.act (.blocking e slot wr))
          else .ok (st1.act (.blocking e none none))

/-- The elements at L as a direct load with forwarding (R272). -/
def readL (s : State) (g : Nat) (lv : Word) (n al : Nat) (st : Stage) : Except Stop (List Byte × Stage) :=
  loadBytes s g .remoteL lv.toNat n al st

/-- The element size of TYPE. -/
def elemSize (t : Tail) : Nat := (rTypeSize (rTy t)).getD 1

/-- RLD (R271). -/
def execRld (h : Head) (t : Tail) (s : State) : Outcome State Fault Refusal :=
  let n := tailBytes t
  memForm h t s (if rNB t then 0 else 1) (fun s g c a b d st =>
    remoteIssue s g c t ⟨0xCF, .remote, n, n, false, n, n⟩ a (if rNB t then some b else none) d true
      (fun st => .ok (0, [], st)) st)

/-- RST (R271). -/
def execRst (h : Head) (t : Tail) (s : State) : Outcome State Fault Refusal :=
  let n := tailBytes t
  memForm h t s 0 (fun s g c a b d st =>
    remoteIssue s g c t ⟨0xD0, .remote, n, n, true, 0, 1⟩ a none d false (fun st => .ok (b, [], st)) st)

/-- RRED (R271, R272). -/
def execRred (h : Head) (t : Tail) (s : State) : Outcome State Fault Refusal :=
  let e := elemSize t
  let n := rCount t * e
  memForm h t s 0 (fun s g c a b d st =>
    remoteIssue s g c t ⟨0xD1, .reduce, n, e, true, n, e⟩ a (some b) d false
      (fun st => match readL s g b n e st with
        | .error y => .error y
        | .ok (bs, st1) => .ok (0, bs, st1)) st)

/-- RRED.RK (R271-R273): the rank block at L. -/
def execRredRk (h : Head) (t : Tail) (s : State) : Outcome State Fault Refusal :=
  let e := elemSize t
  let n := rCount t * e
  memForm h t s 0 (fun s g c a b d st =>
    remoteIssue s g c t ⟨0xD2, .reduce, n, e, true, n + 8, 16⟩ a (some b) d false
      (fun st => match readL s g b (n + 8) 16 st with
        | .error y => .error y
        | .ok (bs, st1) =>
          let k := natAt bs 0 2
          let m := natAt bs 2 2
          if m ≤ k || decide (1024 < m) || natAt bs 4 4 != 0 then .error (.of .illegalOperand)
          else .ok (BitVec.ofNat 64 (natAt bs 0 4), bs.drop 8, st1)) st)

/-- RCAS (R271): the new value of a blocking form goes as 8 bytes of data behind the block, since R276 gives
it no field (DESIGN CHOICE, log 89). -/
def execRcas (h : Head) (t : Tail) (s : State) : Outcome State Fault Refusal :=
  let n := tailBytes t
  memForm h t s (if rNB t then 0 else 1) (fun s g c a b d st =>
    remoteIssue s g c t ⟨0xD3, .reduce, n, n, true, 16, 16⟩ a (if rNB t then some b else none) d true
      (fun st =>
        if rNB t then
          match readL s g b 16 16 st with
          | .error y => .error y
          | .ok (bs, st1) => .ok (0, bs, st1)
        else .ok (b, bytesLE 8 d.toNat, st)) st)

/-- RSAX (R271, R272): the alpha block at L. -/
def execRsax (h : Head) (t : Tail) (s : State) : Outcome State Fault Refusal :=
  let e := elemSize t
  let n := rCount t * e
  memForm h t s 0 (fun s g c a b d st =>
    remoteIssue s g c t ⟨0xD4, .reduce, n, e, true, n + 8, 16⟩ a (some b) d false
      (fun st => match readL s g b (n + 8) 16 st with
        | .error y => .error y
        | .ok (bs, st1) =>
          if natAt bs 4 4 != 0 then .error (.of .illegalOperand)
          else .ok (BitVec.ofNat 64 (natAt bs 0 4), bs.drop 8, st1)) st)

/-- RFILL (R271). -/
def execRfill (h : Head) (t : Tail) (s : State) : Outcome State Fault Refusal :=
  memForm h t s 0 (fun s g c a b d st =>
    remoteIssue s g c t ⟨0xDA, .remote, 32 * rCount t, 32, true, 0, 1⟩ a none d false
      (fun st => .ok (b, [], st)) st)

/-- RLDB (R271). -/
def execRldb (h : Head) (t : Tail) (s : State) : Outcome State Fault Refusal :=
  memForm h t s 0 (fun s g c a b d st =>
    remoteIssue s g c t ⟨0xDB, .remote, 32 * rCount t, 32, false, 32 * rCount t, 32⟩ a (some b) d false
      (fun st => .ok (0, [], st)) st)

/-! ### Fences (R279, R280) -/

/-- A fence: a pending GUARD is taken first. -/
def fenceForm (xp : Bool) (h : Head) (t : Tail) (s : State) : Outcome State Fault Refusal :=
  runHead s h 0 (fun _ _ c st =>
    if c.guard.isSome then .guard else .ok (st.act (.fence (tailM t % 8) xp)))

/-- FENCE (R279). -/
def execFence (h : Head) (t : Tail) (s : State) : Outcome State Fault Refusal := fenceForm false h t s
/-- FENCE.XP (R280). -/
def execFenceXp (h : Head) (t : Tail) (s : State) : Outcome State Fault Refusal := fenceForm true h t s

/-! ### Page exchanges and guard bits (R281, R282) -/

/-- The logical page that a CSWAP operand names (R281). -/
def swapPage (s : State) (g : Nat) (a : Word) : Except Stop Nat :=
  let ea := a.toNat
  if 2 ^ 48 ≤ ea || decide (2 ^ 21 ≤ ea ∧ ea < 2 ^ 24) || decide (2 ^ 25 ≤ ea ∧ ea < 2 ^ 32) then
    .error (.at_ .page ea)
  else if ea % 65536 ≠ 0 then .error (.at_ .align ea)
  else if ea < 2 ^ 32 then .error (.at_ .remoteVault ea)
  else
    match translate s (tileOf g) (s.ctx g).asid ea false false with
    | .fail => .error (.at_ .page ea)
    | .poisoned k => .error (.addr ⟨.page, some k, false⟩ ea)
    | .busy => .error .stall
    | .ok l =>
      if l.home ≠ tileOf g then .error (.at_ .remoteVault ea)
      else if pageOff s l.key then .error (.at_ .page ea)
      else .ok (keyLpn l.key)

/-- CSWAP (R281). -/
def execCswap (h : Head) (t : Tail) (s : State) : Outcome State Fault Refusal :=
  memForm h t s 0 (fun s g _ a b c st =>
    match swapPage s g a with
    | .error y => .stop y
    | .ok p =>
      let q : Except Stop (Option Nat) := if tailB t = .zero then .ok none
        else match swapPage s g b with
          | .error y => .error y
          | .ok q => .ok (some q)
      match q with
      | .error y => .stop y
      | .ok q =>
        match barOperand s g .tileLocal (tailC t) c with
        | .error y => .stop y
        | .ok bar =>
          .ok (((st.walked s g a.toNat).walked s g b.toNat).act (.effects [mkEffect 0xD7 t 0 a.toNat (bytesLE 8 b.toNat ++ bytesLE 8 c.toNat)
            [(tileOf g, .cswap ⟨p, q, bar, false, (s.ctx g).lslot⟩)]])))

/-- The granules of a range, each with its home (R244, R282). -/
def granules (t ea n : Nat) : List (Nat × Nat) :=
  (List.range n).map (fun i =>
    let x := ea + 128 * i
    if x < 2 ^ 21 then (t, x / 128)
    else
      let m := clusterMap (x % 2 ^ 24)
      (tileOfStop (clusterOf t) m.1, m.2 / 128))

/-- One part per home that a range touches. -/
def granuleParts (set : Bool) (gr : List (Nat × Nat)) : List (Nat × Work) :=
  ((gr.map (·.1)).dedup).map (fun h => (h, .guardBits set ((gr.filter (·.1 == h)).map (·.2))))

/-- GSET and GCLR (R282). -/
def guardForm (set : Bool) (opc : Nat) (h : Head) (t : Tail) (s : State) : Outcome State Fault Refusal :=
  sysForm h t s 0 (fun s g _ a b _ st =>
    let n := b.toNat % 512
    match locate s g .windows a.toNat (128 * n) 128 true with
    | .error e => .stop (.addr e a.toNat)
    | .ok _ =>
      .ok (st.act (.effects [mkEffect opc t 0 a.toNat (bytesLE 8 n)
        (granuleParts set (granules (tileOf g) a.toNat n))])))

/-- GSET (R282). -/
def execGset (h : Head) (t : Tail) (s : State) : Outcome State Fault Refusal := guardForm true 0xD8 h t s
/-- GCLR (R282). -/
def execGclr (h : Head) (t : Tail) (s : State) : Outcome State Fault Refusal := guardForm false 0xD9 h t s

end Sys2Proof.Machine
end

