-- ==== Sys2Proof/Machine/Control.lean ====
section
/-! DEFINITION. Branches, loops, predicates, traps and system instructions (R162-R180). -/

namespace Sys2Proof.Machine

open Host (Outcome)

/-! ### Transfers -/

/-- The target that a literal names from a head at `p` (R105). -/
def immTarget (p : Nat) (lit : BitVec 32) : Nat :=
  wrapInt 64 ((lineOf p : Int) + 64 * sint 27 (lit.toNat / 32) + 2 * (lit.toNat % 32 : Nat))

/-- A form that goes on only to a target that serves (R106, R107). -/
def withTarget (s : State) (g a : Nat) (go : HeadResult) : HeadResult :=
  match checkTarget s g a with
  | .err e => .stop (.target e a)
  | .stall => .stop .stall
  | .poison k => .stop (.poison k (armedKey s k))
  | .ok => go

/-- A taken transfer (R106, R107): the target is checked, then R169's rule where it applies. -/
def transfer (s : State) (g : Nat) (c : Ctx) (st : Stage) (a : Nat) (inBody : Bool) : HeadResult :=
  withTarget s g a
    (if inBody && c.leavesBody st.bpc a then .stop (.of .badLoop)
     else .ok { st with xfer := some (.jump a) })

/-- The same with a link: the address after the bundle (R163). -/
def linkTransfer (s : State) (g : Nat) (c : Ctx) (st : Stage) (a : Nat) : HeadResult :=
  transfer s g c { st with link := some (BitVec.ofNat 64 s.after) } a false

/-- A form that reads srcA and transfers or changes the stage by it. -/
def aForm (h : Head) (t : Tail) (s : State) (f : State → Nat → Ctx → Stage → Word → HeadResult) :
    Outcome State Fault Refusal :=
  runHead s h 0 (fun s g c st =>
    match operands (.int false) c t st with
    | .error x => .stop x
    | .ok (a, _, _, st1) => f s g c st1 a)

/-- The same for a privileged form: PRIVILEGE precedes the faults of its pops (R109, R405). `denied`
says whether user mode faults. -/
def privForm (h : Head) (t : Tail) (s : State) (denied : Bool)
    (f : State → Nat → Ctx → Stage → Word → HeadResult) : Outcome State Fault Refusal :=
  runHead s h 0 (fun s g c st =>
    if denied && !c.sys then .stop (.of .privilege)
    else
      match operands (.int false) c t st with
      | .error x => .stop x
      | .ok (a, _, _, st1) => f s g c st1 a)

/-! ### Loops (R164-R166) -/

/-- H of the line at an address that the body count must enter (R166). -/
def loopLine (s : State) (g a : Nat) : Except Stop (List Byte) :=
  match lineNow s g a with
  | .line b => if lineValid b then .ok b else .error (.at_ .badLine (lineOf a))
  | .stall => .error .stall
  | .poison k => .error (.poison k (armedKey s k))
  | .err e => .error (.addr e (lineOf a))

/-- LOOP: whether the exit is reached from `a` within 256 heads, `n` having been counted. One
line is entered a time. -/
def loopReaches (s : State) (g exit : Nat) : Nat → Nat → Nat → Except Stop Bool
  | 0, _, _ => .ok false
  | fuel + 1, a, n =>
    if lineOf a = lineOf exit ∧ headOf a ≤ headOf exit then
      let d := n + (headOf exit - headOf a)
      .ok (decide (1 ≤ d ∧ d ≤ 256))
    else if 256 ≤ n then .ok false
    else
      match loopLine s g a with
      | .error x => .error x
      | .ok b =>
        loopReaches s g exit fuel (lineOf a + 66)
          (n + (lineH (BitVec.ofNat 16 (natAt b 0 2)) + 1 - headOf a))

/-- LOOPR: the address after `m` heads of sequential advance from `a`, if it starts a bundle. -/
def loopAfter (s : State) (g : Nat) : Nat → Nat → Nat → Except Stop (Option Nat)
  | 0, _, _ => .ok none
  | fuel + 1, a, m =>
    match loopLine s g a with
    | .error x => .error x
    | .ok b =>
      let left := lineH (BitVec.ofNat 16 (natAt b 0 2)) + 1 - headOf a
      if m < left then
        .ok (if isBundleStart b (headOf a + m) then some (a + 2 * m) else none)
      else loopAfter s g fuel (lineOf a + 66) (m - left)

/-- The lines of a body, which go into the loop buffer when level 0 opens (R132, R164). -/
def bodyLines (s : State) (g start exit : Nat) : List (Nat × List Byte) :=
  ((List.range 257).map (fun i => lineOf start + 64 * i)).filterMap (fun a =>
    if a < exit then
      match lineNow s g a with
      | .line b => some (a, b)
      | _ => none
    else none)

/-- The checks 3 and 5 of R166 and the opening of a level. -/
def openLoop (s : State) (g : Nat) (c : Ctx) (st : Stage) (k n start exit : Nat) : HeadResult :=
  let inside := match c.innermost with
    | some (_, l) => decide (l.start ≤ start ∧ exit < l.exit)
    | none => true
  if inside then
    .ok { st with
      loopOpen := some (k, n, ⟨start, exit⟩)
      body := if c.loops.isEmpty then bodyLines s g start exit else [] }
  else .stop (.of .badLoop)

/-- The checks 1 to 3 of R166. -/
def loopPre (c : Ctx) (h : Head) (k n : Nat) : Bool :=
  k == c.loops.length && k != 3 && !h.chain && n != 0 && decide (n < 2 ^ 32)

/-! ### Control registers (R135-R137) -/

/-- The state code of R28 in TILE_CTXSTATE. -/
def CtxState.code : CtxState → Nat
  | .free => 0
  | .run => 1
  | .wait => 2
  | .saved => 3
  | .releasing => 4

/-- TILE_CTXSTATE of a tile. -/
def ctxStates (s : State) (t : Nat) : Nat :=
  ((List.range 16).map (fun i => (s.ctx (16 * t + i)).st.code * 2 ^ (3 * i))).sum

/-- TILE_COORD of a tile: PHYS comes from the tile map (R374). -/
def tileCoord (s : State) (t : Nat) : Nat :=
  let e := (s.tileMap.getD (stackOf t) []).getD (16 * (tileY t % 16) + tileX t % 16) 0
  tileX t + tileY t * 2 ^ 8 + fld e 0 9 * 2 ^ 16 + stackOf t * 2 ^ 25

/-- The value of control register `i` (R135). -/
def readCreg (s : State) (g : Nat) (c : Ctx) (cyc i : Nat) : Word :=
  match i with
  | 0x000 => c.status
  | 0x001 => c.trapvec
  | 0x002 => c.fpctl
  | 0x003 => c.cap
  | 0x004 => c.pri
  | 0x005 => c.saveptr
  | 0x100 => BitVec.ofNat 64 (tileCoord s (tileOf g))
  | 0x101 => BitVec.ofNat 64 cyc
  | _ => BitVec.ofNat 64 (ctxStates s (tileOf g))

/-! ### Predicates -/

/-- Writes %p1 to %p7 from bits 1 to 7 of a value (R173). -/
def loadPreds (st : Stage) (a : Word) : Stage :=
  ([1, 2, 3, 4, 5, 6, 7] : List Nat).foldl (fun st k => st.setPred k (a.getLsbD k)) st

/-- PAND, POR and PXOR (R171). -/
def predOp (h : Head) (t : Tail) (s : State) (op : Bool → Bool → Bool) : Outcome State Fault Refusal :=
  let f := tailF t
  runHead s h 0 (fun _ _ c st =>
    let a := Bool.xor (c.p.getLsbD (fld f 0 3)) (f.getLsbD 3)
    let b := Bool.xor (c.p.getLsbD (fld f 4 3)) (f.getLsbD 7)
    .ok (st.setPred (fld f 8 3) (op a b)))

/-! ### The instructions -/

/-- BR (R162). -/
def execBr (h : Head) (t : Tail) (s : State) :
    Outcome State Fault Refusal :=
  aForm h t s (fun s g c st _ => transfer s g c st (immTarget st.at_ (tailLit t)) true)

/-- BRZ (R162): a branch not taken checks nothing. -/
def execBrz (h : Head) (t : Tail) (s : State) :
    Outcome State Fault Refusal :=
  aForm h t s (fun s g c st a =>
    if a = 0 then transfer s g c st (immTarget st.at_ (tailLit t)) true else .ok st)

/-- BRNZ (R162). -/
def execBrnz (h : Head) (t : Tail) (s : State) :
    Outcome State Fault Refusal :=
  aForm h t s (fun s g c st a =>
    if a ≠ 0 then transfer s g c st (immTarget st.at_ (tailLit t)) true else .ok st)

/-- JMP (R163). -/
def execJmp (h : Head) (t : Tail) (s : State) :
    Outcome State Fault Refusal :=
  aForm h t s (fun s g c st a => transfer s g c st a.toNat true)

/-- CALL (R162, R163). -/
def execCall (h : Head) (t : Tail) (s : State) :
    Outcome State Fault Refusal :=
  aForm h t s (fun s g c st _ => linkTransfer s g c st (immTarget st.at_ (tailLit t)))

/-- CALLI (R163). -/
def execCalli (h : Head) (t : Tail) (s : State) :
    Outcome State Fault Refusal :=
  aForm h t s (fun s g c st a => linkTransfer s g c st a.toNat)

/-- RET (R163): to zero it ends the activation (R32). -/
def execRet (h : Head) (t : Tail) (s : State) :
    Outcome State Fault Refusal :=
  aForm h t s (fun s g c st a =>
    if a = 0 then .ok { st with xfer := some (.done none none) } else transfer s g c st a.toNat false)

/-- LOOP (R164, R166). -/
def execLoop (h : Head) (t : Tail) (s : State) :
    Outcome State Fault Refusal :=
  aForm h t s (fun s g c st a =>
    let exit := immTarget st.at_ (tailLit t)
    withTarget s g exit
      (if !loopPre c h (tailM t % 4) a.toNat then .stop (.of .badLoop)
       else
        match loopReaches s g exit 257 s.after 0 with
        | .error x => .stop x
        | .ok false => .stop (.of .badLoop)
        | .ok true => openLoop s g c st (tailM t % 4) a.toNat s.after exit))

/-- LOOPR (R165, R166). -/
def execLoopr (h : Head) (t : Tail) (s : State) :
    Outcome State Fault Refusal :=
  aForm h t s (fun s g c st a =>
    let m := (tailF t).toNat
    if !loopPre c h (tailM t % 4) a.toNat || m == 0 || decide (256 < m) then .stop (.of .badLoop)
    else
      match loopAfter s g 257 s.after m with
      | .error x => .stop x
      | .ok none => .stop (.of .badLoop)
      | .ok (some exit) => openLoop s g c st (tailM t % 4) a.toNat s.after exit)

/-- LBRK (R168). -/
def execLbrk (h : Head) (_t : Tail) (s : State) :
    Outcome State Fault Refusal :=
  runHead s h 0 (fun _ _ c st =>
    match c.innermost with
    | some (_, l) =>
      if l.has st.bpc then .ok { st with xfer := some (.breakLoop l.exit) } else .stop (.of .badLoop)
    | none => .stop (.of .badLoop))

/-- PAND (R171). -/
def execPand (h : Head) (t : Tail) (s : State) :
    Outcome State Fault Refusal :=
  predOp h t s (· && ·)

/-- POR (R171). -/
def execPor (h : Head) (t : Tail) (s : State) :
    Outcome State Fault Refusal :=
  predOp h t s (· || ·)

/-- PXOR (R171). -/
def execPxor (h : Head) (t : Tail) (s : State) :
    Outcome State Fault Refusal :=
  predOp h t s Bool.xor

/-- PNOT (R172). -/
def execPnot (h : Head) (t : Tail) (s : State) :
    Outcome State Fault Refusal :=
  runHead s h 0 (fun _ _ c st => .ok (st.setPred (tailM t / 32) !(c.p.getLsbD (tailM t % 8))))

/-- PSET (R172). -/
def execPset (h : Head) (t : Tail) (s : State) :
    Outcome State Fault Refusal :=
  predForm (.int (tailSigned t)) h t s (fun _ a _ => (a.toNat % 2 ^ tailW t != 0, 0))

/-- PMOV (R172). -/
def execPmov (h : Head) (t : Tail) (s : State) :
    Outcome State Fault Refusal :=
  runHead s h 0 (fun _ _ c st => .ok (st.setPred (tailM t / 32) (c.p.getLsbD (tailM t % 8))))

/-- TRAP (R174). -/
def execTrap (h : Head) (t : Tail) (s : State) :
    Outcome State Fault Refusal :=
  aForm h t s (fun _ _ _ _ a => .trap .trap a)

/-- SYSCALL (R174). -/
def execSyscall (h : Head) (t : Tail) (s : State) :
    Outcome State Fault Refusal :=
  aForm h t s (fun _ _ _ _ a => .trap .syscall a)

/-- SYSRET (R176). -/
def execSysret (h : Head) (t : Tail) (s : State) :
    Outcome State Fault Refusal :=
  privForm h t s true (fun s g _ st a =>
    withTarget s g a.toNat (.ok { st with xfer := some (.sysret a.toNat) }))

/-- CRD (R177): in either mode, any index of R135. -/
def execCrd (h : Head) (t : Tail) (s : State) :
    Outcome State Fault Refusal :=
  runHead s h 1 (fun s g c st =>
    .ok (st.push (readCreg s g c st.issued (tailLit t).toNat) (tailD t)))

/-- CWR (R177, R135): in user mode CTX_FPCTL alone. -/
def execCwr (h : Head) (t : Tail) (s : State) :
    Outcome State Fault Refusal :=
  let i := (tailLit t).toNat
  privForm h t s (i != 2) (fun _ _ _ st a => .ok { st with cregs := st.cregs ++ [(i, a)] })

/-- HALT (R178). -/
def execHalt (h : Head) (_t : Tail) (s : State) :
    Outcome State Fault Refusal :=
  runHead s h 0 (fun _ _ c st =>
    if !c.sys then .stop (.of .privilege) else .ok { st with xfer := some (.done none (some st.at_)) })

/-- NOP (R179). -/
def execNop (h : Head) (_t : Tail) (s : State) :
    Outcome State Fault Refusal :=
  runHead s h 0 (fun _ _ _ st => .ok st)

/-- PAUSE (R179). -/
def execPause (h : Head) (t : Tail) (s : State) :
    Outcome State Fault Refusal :=
  aForm h t s (fun _ _ _ st a => .ok (st.act (.pause (min (max a.toNat 1) 4096))))

/-- RDCYC (R179): TILE_CYCLE when the bundle issued. -/
def execRdcyc (h : Head) (t : Tail) (s : State) :
    Outcome State Fault Refusal :=
  runHead s h 1 (fun _ _ _ st => .ok (st.push (BitVec.ofNat 64 st.issued) (tailD t)))

/-- PSAVE (R173). -/
def execPsave (h : Head) (t : Tail) (s : State) :
    Outcome State Fault Refusal :=
  runHead s h 1 (fun _ _ c st => .ok (st.push (BitVec.ofNat 64 c.p.toNat) (tailD t)))

/-- PLOAD (R173). -/
def execPload (h : Head) (t : Tail) (s : State) :
    Outcome State Fault Refusal :=
  aForm h t s (fun _ _ _ st a => .ok (loadPreds st a))

/-- BKPT (R175). -/
def execBkpt (h : Head) (_t : Tail) (s : State) :
    Outcome State Fault Refusal :=
  runHead s h 0 (fun _ _ _ _ => .trap .bkpt 0)

/-- A reserved opcode (R109, R110): the head faults whether or not its guard holds (R91). -/
def execIllegalOpcode (h : Head) (_opc : BitVec 8) (_tlen : BitVec 2) (_d : Bool) (_raw : BitVec 48) (s : State) :
    Outcome State Fault Refusal :=
  let g := s.cur
  if (s.ctx g).st ≠ .run then .next s
  else .next (stopHead s g h.chain ((s.ctx g).stageNow s.cycle) (.of .illegalOpcode))

end Sys2Proof.Machine
end

