-- ==== Sys2Proof/Machine/Queues.lean ====
section
/-! DEFINITION. The instructions on queues at their issue: messages, continuations, class masks,
tasks, join counters, rings and launches (R314-R325). -/

namespace Sys2Proof.Machine

open Host (Outcome)

/-! ### Triggers and records -/

/-- A trigger with nothing but its kind, PC, launch and payload. -/
def Trigger.plain (kind : TrigKind) (pc lslot : Nat) (payload : List Byte) : Trigger :=
  { kind := kind, pc := pc, cls := 0, pri := 0, eff := 0, lslot := lslot, payload := payload,
    join := none, nosteal := false, hints := [], staged := false, member := none, origin := false,
    time := 0, passes := 0, redeliv := 0, rerun := false, pair := 0 }

/-- A valid stage hint (R310): its first page and its page count. -/
def hintOf (w : Nat) : List (Nat × Nat) :=
  if w.testBit 20 then [(nfld w 0 13, nfld w 13 7 + 1)] else []

/-- The record that a 32-byte card holds, for a launch (R310). -/
def cardTrigger (b : List Byte) (lslot : Nat) : Trigger :=
  let ctl := natAt b 6 2
  let j := natAt b 8 4
  { Trigger.plain .task (natAt b 0 6) lslot (sliceB b 24 8 ++ sliceB b 20 4) with
    pri := nfld ctl 10 2, eff := nfld ctl 10 2, cls := nfld ctl 10 2, nosteal := ctl.testBit 12
    join := if ctl.testBit 13 then some (tileAt (nfld j 18 5) (nfld j 23 5), nfld j 0 18 * 8) else none
    hints := hintOf (natAt b 12 4) ++ hintOf (natAt b 16 4) }

/-- The zero fields of a card (R310, R321). -/
def cardOk (b : List Byte) : Bool :=
  decide (natAt b 6 2 < 2 ^ 14) && decide (natAt b 8 4 < 2 ^ 28) && decide (natAt b 12 4 < 2 ^ 21) &&
    decide (natAt b 16 4 < 2 ^ 21)

/-- Checks 1 and 2 of R106 on a task's PC (R319). -/
def taskPcOk (pc : Nat) : Bool := pc % 2 == 0 && pc % 64 != 0

/-- What a record asks at release: the join counter's addition first, when JOIN is valid
(R311), then its deque. -/
def recordWork (tr : Trigger) (target : Nat) : Nat × Work :=
  match tr.join with
  | some (home, off) => (home, .joinAdd off tr target)
  | none => (target, .task tr)

/-- The priority of a route class, PRI of its entry (R375). -/
def classPri (s : State) (cls : Nat) : Nat := fld (s.routes.getD cls 0) 0 2

/-! ### Places -/

/-- The place operand: its target and offset; 0b110000 names the issuing tile (R315). -/
def placeOf (s : State) (g : Nat) (x : Src) (w : Word) (off0 : Bool) : Except Stop (Nat × Nat) :=
  if x = .zero then .ok (tileOf g, 0) else placeWord s g w off0

/-- A local address check without an access (R315 item 2). -/
def localCheck (s : State) (g : Nat) (r : Reach) (ea n al : Nat) (write : Bool) : Except Stop Loc :=
  match locate s g r ea n al write with
  | .error e => .error (.addr e ea)
  | .ok l => .ok l

/-- The frame of these forms: their operands. -/
def queueForm (h : Head) (t : Tail) (s : State) (n : Nat)
    (f : State → Nat → Ctx → Word → Word → Word → Stage → Except Stop Stage) :
    Outcome State Fault Refusal :=
  runHead s h n (fun s g c st =>
    match operands (.int false) c t st with
    | .error x => .stop x
    | .ok (a, b, d, st1) => HeadResult.of (f s g c a b d st1))

/-! ### Messages and continuations -/

/-- SEND (R316). -/
def execSend (h : Head) (t : Tail) (s : State) : Outcome State Fault Refusal :=
  queueForm h t s 0 (fun s g c a b _ st => do
    let cls := fld (tailF t) 12 4
    let len := fld (tailF t) 0 8
    let (tgt, _) ← placeOf s g (tailA t) a true
    let (data, st1) ← if len = 0 then .ok ([], st) else loadBytes s g .tileLocal b.toNat len 8 st
    let tr := { Trigger.plain .msg 0 c.lslot data with cls := cls }
    return st1.act (.effects [mkEffect 0xE0 t 0 a.toNat data [(tgt, .msg tr)]]))

/-- The continuation of a YIELD (R33, R303): the priority and class of the activation's trigger. -/
def yieldCont (c : Ctx) (pc : Nat) (arg : Bool) : Trigger :=
  let payload := if arg then (([0, 1, 2, 3] : List Nat).flatMap (fun i => bytesLE 8 (c.n.toList.getD i 0).toNat))
    else List.replicate 32 0
  let pri := match c.trig with
    | some t => t.pri
    | none => fld c.pri 0 2
  { Trigger.plain .cont pc c.lslot payload with cls := fld c.status 20 4, pri := pri, eff := pri }

/-- YIELD at a target (R317). Its effect forms no effective address (R37); its data are the PC and the
arguments (DEDUCED, log 45). -/
def yieldTo (s : State) (g : Nat) (c : Ctx) (t : Tail) (pc : Nat) (st : Stage) : HeadResult :=
  let k := yieldCont c pc ((tailM t).testBit 0)
  withTarget s g pc (.ok { st with xfer := some (.done (some (k, mkEffect 0xE1 t 0 0 (bytesLE 8 pc ++ k.payload) [])) none) })

/-- YIELD to a source (R317). -/
def execYield (h : Head) (t : Tail) (s : State) : Outcome State Fault Refusal :=
  aForm h t s (fun s g c st a => yieldTo s g c t a.toNat st)

/-- YIELD to a literal target (R317). -/
def execYieldImm (h : Head) (t : Tail) (s : State) : Outcome State Fault Refusal :=
  aForm h t s (fun s g c st _ => yieldTo s g c t (immTarget st.at_ (tailLit t)) st)

/-- CMASK and CUNMASK (R318): push the old mask, change it at the end of the bundle. -/
def maskForm (set : Bool) (h : Head) (t : Tail) (s : State) : Outcome State Fault Refusal :=
  queueForm h t s 1 (fun s g c a _ _ st =>
    let m := tabGet (0 : BitVec 16) (s.tile (tileOf g)).masks c.lslot
    .ok ((st.push (BitVec.ofNat 64 m.toNat) (tailD t)).act (.mask set (fld a 0 16))))

/-- CMASK (R318). -/
def execCmask (h : Head) (t : Tail) (s : State) : Outcome State Fault Refusal := maskForm true h t s
/-- CUNMASK (R318). -/
def execCunmask (h : Head) (t : Tail) (s : State) : Outcome State Fault Refusal := maskForm false h t s

/-! ### Tasks and join counters -/

/-- FORK (R319). Its effect forms no effective address (R37); its data are the three operands (DEDUCED, log
45). -/
def execFork (h : Head) (t : Tail) (s : State) : Outcome State Fault Refusal :=
  queueForm h t s 0 (fun s g c a b d st => do
    let f := tailF t
    let pc := fld a 0 48
    let join ← if tailC t = .zero then .ok none
      else (localCheck s g .shared d.toNat 8 8 true).map (fun _ => some (tileOf g, d.toNat))
    if !taskPcOk pc then .error (.target ⟨.badTarget, none, false⟩ pc)
    else
      let tr := { Trigger.plain .task pc c.lslot (bytesLE 8 b.toNat ++ List.replicate 4 0) with
        pri := fld f 0 2, eff := fld f 0 2, cls := fld f 0 2, nosteal := f.getLsbD 2, join := join }
      return st.act (.effects [mkEffect 0xE4 t 0 0 (bytesLE 8 a.toNat ++ bytesLE 8 b.toNat ++ bytesLE 8 d.toNat)
        [recordWork tr (tileOf g)]]))

/-- JOIN (R320): waits until COUNT is zero and pushes the counter word. -/
def execJoin (h : Head) (t : Tail) (s : State) : Outcome State Fault Refusal :=
  queueForm h t s 1 (fun s g _ a _ _ st => do
    let _ ← localCheck s g .shared a.toNat 8 8 false
    let (bs, ended, st0) ← plainRead s g a.toNat 8 st
    if ended then return st0.push (BitVec.ofNat 64 (natLE bs)) (tailD t)
    else
      let (st1, slot, wr) := st0.pushLater (tailD t)
      return st1.act (.join a.toNat slot wr))

/-- The card checks of POST in their order (R321). -/
def cardFault (s : State) (g : Nat) (tr : Trigger) (card : List Byte) : Option Stop :=
  if !cardOk card then some (.of .illegalOperand)
  else if !taskPcOk tr.pc then some (.target ⟨.badTarget, none, false⟩ tr.pc)
  else
    match tr.join with
    | some (home, _) =>
      let t := tileOf g
      let dx : Int := (tileX home : Int) - tileX t
      let dy : Int := (tileY home : Int) - tileY t
      if (placeTile s g dx dy).isSome then none else some (.of .placeRange)
    | none => none

/-- POST (R321). -/
def execPost (h : Head) (t : Tail) (s : State) : Outcome State Fault Refusal :=
  queueForm h t s 0 (fun s g c a b _ st => do
    let (tgt, _) ← placeOf s g (tailB t) b true
    let (card, st1) ← loadBytes s g .tileLocal a.toNat 32 16 st
    let tr := cardTrigger card c.lslot
    match cardFault s g tr card with
    | some e => .error e
    | none => return st1.act (.effects [mkEffect 0xE6 t 0 b.toNat card [recordWork tr tgt]]))

/-- DECZ (R322). -/
def execDecz (h : Head) (t : Tail) (s : State) : Outcome State Fault Refusal :=
  queueForm h t s 0 (fun s g c a b _ st => do
    let (tgt, off) ← placeOf s g (tailA t) a false
    let bar ← barOperand s g .tileLocal (tailB t) b
    return st.act (.effects [mkEffect 0xE7 t 0 a.toNat (bytesLE 8 b.toNat) [(tgt, .decz off c.lslot bar)]]))

/-! ### Rings (R304-R308, R323, R324) -/

/-- RNGPUT (R323). -/
def execRngput (h : Head) (t : Tail) (s : State) : Outcome State Fault Refusal :=
  queueForm h t s 0 (fun s g c a b d st => do
    let len := tailM t
    let (tgt, off) ← placeOf s g (tailA t) a false
    let (data, st1) ← loadBytes s g .tileLocal b.toNat len 8 st
    let bar ← barOperand s g .tileLocal (tailC t) d
    let hdr := len + fld (tailF t) 8 8 * 2 ^ 16 + fld (tailF t) 0 8 * 2 ^ 24
    return st1.act (.effects [mkEffect 0xE8 t 0 a.toNat (bytesLE 8 d.toNat ++ data)
      [(tgt, .ringPut ⟨off, hdr, data, bar, c.lslot, 0, 0⟩)]]))

/-- A ring control block (R304). -/
structure Rcb where
  base : Nat
  size : Nat
  pi : Nat
  ci : Nat
  deriving DecidableEq, Repr

/-- The ring that 32 bytes describe, unless they are malformed. -/
def rcbOf (b : List Byte) : Option Rcb :=
  let l := natAt b 4 1
  let base := natAt b 0 4
  if natAt b 5 3 == 0 && natAt b 24 8 == 0 && decide (8 ≤ l ∧ l ≤ 20) && base % 2 ^ l == 0 &&
      decide (base + 2 ^ l ≤ Config.tableArea) then
    some ⟨base, 2 ^ l, natAt b 8 8, natAt b 16 8⟩
  else none

/-- Bytes of a record with `len` data bytes (R305). -/
def recSize (len : Nat) : Nat := roundUp 8 (4 + len)

/-- The header of the record at a consumer count. -/
def ringHeader (s : State) (g : Nat) (r : Rcb) (ci : Nat) (st : Stage) : Except Stop (Nat × Stage) :=
  (loadBytes s g .tileLocal (r.base + ci % r.size) 4 4 st).map (fun x => (natLE x.1, x.2))

/-- The consumption of a record at `ci`: the data copied to L and the store of CI (R324). -/
def ringTake (s : State) (g : Nat) (t : Tail) (a : Nat) (l : Nat) (r : Rcb) (ci hdr : Nat) (st : Stage) :
    Except Stop Stage := do
  let len := hdr % 65536
  let (data, st1) ← if len = 0 then .ok ([], st)
    else loadBytes s g .tileLocal (r.base + ci % r.size + 4) len 1 st
  let st2 ← if len = 0 then .ok st1 else storeBytes s g 0xE9 t l data 8 st1
  let st3 ← storeBytes s g 0xE9 t (a + 16) (bytesLE 8 (ci + recSize len)) 8 st2
  return st3.push (BitVec.ofNat 64 hdr) (tailD t)

/-- RNGGET (R324). -/
def execRngget (h : Head) (t : Tail) (s : State) : Outcome State Fault Refusal :=
  queueForm h t s 1 (fun s g _ a b _ st => do
    let cap := fld (tailF t) 0 8
    let (rb, st1) ← loadBytes s g .shared a.toNat 32 16 st
    let _ ← localCheck s g .tileLocal b.toNat 0 8 true
    match rcbOf rb with
    | none => .error (.of .illegalOperand)
    | some r =>
      let empty := fun (st : Stage) => (.ok (st.push (BitVec.ofNat 64 (2 ^ 63)) (tailD t)) : Except Stop Stage)
      let big := fun (hdr : Nat) (st : Stage) =>
        (.ok (st.push (BitVec.ofNat 64 (2 ^ 62 + hdr)) (tailD t)) : Except Stop Stage)
      if r.pi = r.ci then empty st1
      else
        let (h0, st2) ← ringHeader s g r r.ci st1
        if nfld h0 16 8 = 0 then
          let ci := (r.ci + h0 % 65536 + 4) % 2 ^ 64
          if r.pi = ci then empty st2
          else
            let (h1, st3) ← ringHeader s g r ci st2
            if cap < h1 % 65536 then big h1 st3 else ringTake s g t a.toNat b.toNat r ci h1 st3
        else if cap < h0 % 65536 then big h0 st2
        else ringTake s g t a.toNat b.toNat r r.ci h0 st2)

/-! ### LAUNCH (R325) -/

/-- In user mode the fields ASID, CAP and TRAPVEC are those of the issuing launch (R325). -/
def launchImage (s : State) (c : Ctx) (b : List Byte) : List Byte :=
  if c.sys then b
  else
    match s.launch c.lslot with
    | some l =>
      overlay (overlay (overlay b 0 6 (sliceB l.record 6 1)) 0 16 (sliceB l.record 16 4)) 0 32
        (sliceB l.record 32 8)
    | none =>
      overlay (overlay (overlay b 0 6 (bytesLE 1 c.asid)) 0 16 (bytesLE 4 c.cap.toNat)) 0 32
        (bytesLE 8 c.trapvec.toNat)

/-- LAUNCH (R325). -/
def execLaunch (h : Head) (t : Tail) (s : State) : Outcome State Fault Refusal :=
  queueForm h t s 0 (fun s g c a b _ st => do
    let q := tailM t % 16
    let (img, st1) ← loadBytes s g .tileLocal a.toNat 128 16 st
    let bar ← barOperand s g .tileLocal (tailB t) b
    let home := ((s.queues[q]?).map (fun x => x.tile)).getD 0
    let data := launchImage s c img
    return st1.act (.effects [mkEffect 0xF7 t 0 a.toNat (bytesLE 8 b.toNat ++ data)
      [(home, .launchRec ⟨q, data, bar, 0, 0⟩)]]))

end Sys2Proof.Machine
end

