-- ==== Sys2Proof/Machine/Barriers.lean ====
section
/-! DEFINITION. The barrier instructions at their issue (R400-R402). -/

namespace Sys2Proof.Machine

open Host (Outcome)

/-- The address of a barrier operand: tile-local, outside the private storage, 16-byte aligned
(R401). -/
def barAddr (s : State) (g : Nat) (a : Word) (write : Bool) : Except Stop Nat :=
  (localCheck s g .shared a.toNat 16 16 write).map (fun _ => a.toNat)

/-- TBINIT (R401). -/
def execTbinit (h : Head) (t : Tail) (s : State) : Outcome State Fault Refusal :=
  queueForm h t s 0 (fun s g _ a b _ st => do
    let off ← barAddr s g a true
    if 2 ^ 20 ≤ b.toNat then .error (.of .illegalOperand)
    else return st.act (.effects [mkEffect 0xED t 0 off (bytesLE 8 b.toNat)
      [(tileOf g, .tbinit off b.toNat)]]))

/-- The arrivals that TBARR makes: one in T16, srcB in T32 (R400). -/
def arrivals (t : Tail) (b : Word) : Nat :=
  match t with
  | .t16 .. => 1
  | _ => b.toNat

/-- TBARR (R401). -/
def execTbarr (h : Head) (t : Tail) (s : State) : Outcome State Fault Refusal :=
  queueForm h t s 0 (fun s g _ a b _ st => do
    let (tgt, off) ← placeOf s g (tailA t) a false
    let n := arrivals t b
    if n = 0 ∨ 2 ^ 20 ≤ n then .error (.of .illegalOperand)
    else return st.act (.effects [mkEffect 0xEE t 0 a.toNat (bytesLE 8 n)
      [(tgt, .arrival off n false 0 0)]]))

/-- TBEXP (R401). -/
def execTbexp (h : Head) (t : Tail) (s : State) : Outcome State Fault Refusal :=
  queueForm h t s 0 (fun s g _ a b _ st => do
    let off ← barAddr s g a true
    if 2 ^ 37 ≤ b.toNat then .error (.of .illegalOperand)
    else return st.act (.effects [mkEffect 0xEF t 0 off (bytesLE 8 b.toNat)
      [(tileOf g, .tbexp off b.toNat)]]))

/-- TBWAIT and TBWAIT.B: a pending GUARD is taken first, before any fault of the form's own (R410); then the wait, and the status word as
read when it ends (R402). -/
def tbwaitForm (bit0 : Bool) (h : Head) (t : Tail) (s : State) : Outcome State Fault Refusal :=
  runHead s h 1 (fun s g c st =>
    if c.guard.isSome then .guard
    else
      match operands (.int false) c t st with
      | .error x => .stop x
      | .ok (a, b, _, st1) =>
        match barAddr s g a false with
        | .error x => .stop x
        | .ok off =>
          match plainRead s g off 16 st1 with
          | .error x => .stop x
          | .ok (bs, true, st2) => .ok (st2.push (barStatus (natLE bs)) (tailD t))
          | .ok (_, false, st2) =>
            let (st3, slot, wr) := st2.pushLater (tailD t)
            .ok (st3.act (.barrier off (fld b 0 4) bit0 slot wr)))

/-- TBWAIT (R402). -/
def execTbwait (h : Head) (t : Tail) (s : State) : Outcome State Fault Refusal := tbwaitForm false h t s
/-- TBWAIT.B (R402). -/
def execTbwaitB (h : Head) (t : Tail) (s : State) : Outcome State Fault Refusal := tbwaitForm true h t s

/-- The predicate that TBTEST sets in T32 (R402). -/
def tbtestPred (t : Tail) (w : Nat) (b : Word) (st : Stage) : Stage :=
  match t with
  | .t32 .. => st.setPred (tailM t / 32) (phaseDone w (fld b 0 4) (tailM t / 16 % 2 == 1))
  | _ => st

/-- TBTEST (R402): the status word, and in T32 the comparison. -/
def execTbtest (h : Head) (t : Tail) (s : State) : Outcome State Fault Refusal :=
  queueForm h t s 1 (fun s g _ a b _ st => do
    let off ← barAddr s g a false
    let (bs, _, st1) ← plainRead s g off 16 st
    return tbtestPred t (natLE bs) b (st1.push (barStatus (natLE bs)) (tailD t)))

end Sys2Proof.Machine
end

