-- ==== Sys2Proof/Machine/MatrixIssue.lean ====
section
/-! DEFINITION. The matrix instructions at their issue: routing word, handle and value checks,
and the command that enters the effects buffer (R215-R216, R222-R236). -/

namespace Sys2Proof.Machine

open Host (Outcome)

/-! ### Checks -/

/-- The routing word's own checks: reserved bits zero, BAR zero without BEN (R215). -/
def routeOk (r : Word) : Bool :=
  r.toNat &&& 0xFFFFFFC0C0E0000E == 0 && (r.getLsbD 0 || fld r 4 17 == 0)

/-- The barrier that a routing word names in the issuing tile. -/
def routeBar (t : Nat) (r : Word) : Option Bar :=
  if r.getLsbD 0 then some ⟨t, fld r 4 17 * 16⟩ else none

/-- The capability check of an issuing context (R216, R377): `bit` is the right. -/
def capFault (s : State) (g : Nat) (c : Ctx) (bit : Nat) : Option Cause :=
  match checkHandle s (tileOf g) (fld c.cap 8 8) (fld c.cap 0 8) bit with
  | none => none
  | some .capability => some .capability
  | some .stale => some .staleHandle

/-- Block bytes of an element format (R210). -/
def blockBytes (fmt : Nat) : Nat :=
  match fmt with
  | 0 | 1 => 64
  | 2 | 3 | 7 => 32
  | 4 | 6 => 24
  | _ => 16

/-- FMT, SCL, ROWS and KB of a configuration word (R209). -/
def cfgFmt (w : Nat) : Nat := nfld w 16 4
/-- SCL. -/
def cfgScl (w : Nat) : Nat := nfld w 14 2
/-- Rows. -/
def cfgRows (w : Nat) : Nat := nfld w 8 6 + 1
/-- Blocks per row. -/
def cfgKb (w : Nat) : Nat := nfld w 0 3 + 1
/-- RSZ (R208). -/
def cfgRsz (w : Nat) : Nat := cfgKb w * blockBytes (cfgFmt w)

/-- The legality of a TCFG value (R210). -/
def cfgOk (w : Nat) : Bool :=
  decide (w < 2 ^ 20) && nfld w 3 5 == 0 && decide (cfgFmt w ≤ 7) && cfgScl w != 3 &&
  (cfgScl w == 0 || !(cfgFmt w == 0 || cfgFmt w == 1 || cfgFmt w == 7)) &&
  !(cfgScl w == 2 && cfgFmt w == 6) && decide (cfgRows w * cfgRsz w ≤ 8192)

/-- Output formats of a drain or ring (R227). -/
def ofmtOk (n : Nat) : Bool := decide (n ≤ 6) || n == 15

/-- The descriptor of TLD or TST (R223, R225): ILLEGAL_OPERAND before ALIGN. -/
def tldDesc (st : Bool) (d : List Byte) : Option Cause :=
  if natAt d 27 5 != 0 || decide (64 < natAt d 26 1) || (st && (natAt d 12 4 != 0 || natAt d 26 1 != 0)) then
    some .illegalOperand
  else if natAt d 0 8 % 8 != 0 || natAt d 8 4 % 8 != 0 || natAt d 12 4 % 8 != 0 then some .align
  else none

/-- The descriptor of TRING (R236). -/
def tringDesc (d : List Byte) : Option Cause :=
  let rb := natAt d 0 4
  let ns := natAt d 4 1
  let cv := natAt d 6 1
  if rb % 16384 == 0 && decide (1 ≤ ns ∧ ns ≤ 16 ∧ rb + 16384 * ns ≤ 2 ^ 21) && ofmtOk (natAt d 5 1) &&
      decide (cv % 8 ≤ 4) && decide (cv / 16 ≤ 1) && natAt d 7 1 == 0 && natAt d 12 4 == 0 &&
      natAt d 48 8 == 0 && natAt d 56 8 == 0 then none
  else some .illegalOperand

/-! ### Issue -/

/-- What an entry's value checks and descriptor load give: the descriptor bytes and the stage. -/
abbrev MatCheck := State → Nat → Word → Word → Stage → Except Stop (List Byte × Stage)

/-- No value checks. -/
def noMatCheck : MatCheck := fun _ _ _ _ st => .ok ([], st)

/-- A failed value check: the record of ALIGN gives the address that srcB names (DEDUCED, log 16). -/
def valueStop (cause : Cause) (b : Word) : Stop := if cause = .align then .at_ cause b.toNat else .of cause

/-- A value check on srcB. -/
def valueCheck (cause : Cause) (ok : Word → Word → Bool) : MatCheck := fun _ _ b c st =>
  if ok b c then .ok ([], st) else .error (valueStop cause b)

/-- A descriptor of `n` bytes at srcB, loaded as a direct load and then checked (R223). -/
def descCheck (n : Nat) (f : List Byte → Option Cause) : MatCheck := fun s g b _ st =>
  match loadSpan s g .plain b.toNat n 8 st with
  | .error x => .error x
  | .ok (d, st1) =>
    match f d with
    | some e => .error (valueStop e b)
    | none => .ok (d, st1)

/-- A matrix command at issue (R216): the checks in their order, then one effect. -/
def matForm (opc : Nat) (chk : MatCheck) (h : Head) (t : Tail) (s : State) : Outcome State Fault Refusal :=
  runHead s h 0 (fun s g c st =>
    match operands (.int false) c t st with
    | .error x => .stop x
    | .ok (r, b, d, st1) =>
      if !routeOk r then .stop (.of .illegalOperand)
      else
        match placeTile s g (place6 (fld r 24 6)) (place6 (fld r 32 6)) with
        | none => .stop (.of .placeRange)
        | some tgt =>
          match capFault s g c 25 with
          | some e => .stop (.of e)
          | none =>
            match chk s g b d st1 with
            | .error x => .stop x
            | .ok (desc, st2) =>
              let asid := nfld (capEntry s (tileOf g) (fld c.cap 8 8)) 16 8
              let gen := igen (genEntry s (tileOf g) asid)
              let cv := if (opc = 0xA6 ∨ 0xA8 ≤ opc) ∧ tailC t = .zero then 0x3F8000003F800000 else d
              let cmd : MatCmd :=
                { opc := opc, modf := effMod t, ctl := (tailF t).toNat, route := r, b := b,
                  nob := tailB t = .zero, c := cv, cap := c.cap, ftz := c.fpctl.getLsbD 8,
                  asid := asid, gen := gen, desc := desc, tile := tileOf g, ctx := ownerOf s g % 16,
                  lslot := c.lslot, bar := routeBar (tileOf g) r }
              let data := bytesLE 8 r.toNat ++ bytesLE 8 b.toNat ++ bytesLE 8 cv.toNat ++
                bytesLE 4 c.cap.toNat ++ bytesLE 1 (c.fpctl.getLsbD 8).toNat ++ bytesLE 1 asid ++
                bytesLE 2 gen ++ desc
              .ok (st2.act (.effects [mkEffect opc t 0 r.toNat data [(tgt, .matrix cmd)]])))

/-- P of MMA and MMAG lies in 1 to 16 (R230). -/
def promoOk (t : Tail) : Bool := decide (1 ≤ fld (tailF t) 0 5 ∧ fld (tailF t) 0 5 ≤ 16)

/-- The row counts of MMAG's groups (R234). -/
def groupCounts (b : Word) (n : Nat) : List Nat := (List.range n).map (fun i => fld b (8 * i) 8)

/-- Element bytes that TDRAIN aligns to (R227). -/
def drainAlign (ofmt : Nat) : Nat := if ofmt = 15 then 4 else if ofmt ≤ 1 then 2 else 1

/-! ### The instructions -/

/-- TCFG (R222). -/
def execTcfg (h : Head) (t : Tail) (s : State) : Outcome State Fault Refusal :=
  matForm 0xA0 (valueCheck .shape (fun b _ => cfgOk b.toNat)) h t s

/-- TLD (R223). -/
def execTld (h : Head) (t : Tail) (s : State) : Outcome State Fault Refusal :=
  matForm 0xA1 (descCheck 32 (tldDesc false)) h t s

/-- TST (R225). -/
def execTst (h : Head) (t : Tail) (s : State) : Outcome State Fault Refusal :=
  matForm 0xA2 (descCheck 32 (tldDesc true)) h t s

/-- TZERO (R226). -/
def execTzero (h : Head) (t : Tail) (s : State) : Outcome State Fault Refusal :=
  matForm 0xA3 noMatCheck h t s

/-- ACLR (R226). -/
def execAclr (h : Head) (t : Tail) (s : State) : Outcome State Fault Refusal :=
  matForm 0xA3 noMatCheck h t s

/-- TDRAIN (R227). -/
def execTdrain (h : Head) (t : Tail) (s : State) : Outcome State Fault Refusal :=
  let al := drainAlign (fld (tailF t) 10 4)
  matForm 0xA4 (valueCheck .align (fun b c => b.toNat % al == 0 && c.toNat % al == 0)) h t s

/-- TCHK (R229). -/
def execTchk (h : Head) (t : Tail) (s : State) : Outcome State Fault Refusal :=
  matForm 0xA5 (valueCheck .align (fun b _ => b.toNat % 8 == 0)) h t s

/-- MMAG (R234): BAD_PROMO, then GROUP_OVERRUN. -/
def execMmag (h : Head) (t : Tail) (s : State) : Outcome State Fault Refusal :=
  matForm 0xA6 (fun _ _ b _ st =>
    if !promoOk t then .error (.of .badPromo)
    else if 64 < (groupCounts b (tailM t / 32 + 1)).sum then .error (.of .groupOverrun)
    else .ok ([], st)) h t s

/-- TRING (R236). -/
def execTring (h : Head) (t : Tail) (s : State) : Outcome State Fault Refusal :=
  matForm 0xA7 (descCheck 64 tringDesc) h t s

/-- An MMA of one format pair (R230). -/
def mmaForm (opc : Nat) (h : Head) (t : Tail) (s : State) : Outcome State Fault Refusal :=
  matForm opc (valueCheck .badPromo (fun _ _ => promoOk t)) h t s

/-- Format pair 1 (R110, R230). -/
def execMmaBf16Bf16 (h : Head) (t : Tail) (s : State) : Outcome State Fault Refusal := mmaForm 0xA8 h t s

/-- Format pair 2 (R110, R230). -/
def execMmaF16F16 (h : Head) (t : Tail) (s : State) : Outcome State Fault Refusal := mmaForm 0xA9 h t s

/-- Format pair 3 (R110, R230). -/
def execMmaE4m3E4m3 (h : Head) (t : Tail) (s : State) : Outcome State Fault Refusal := mmaForm 0xAA h t s

/-- Format pair 4 (R110, R230). -/
def execMmaE4m3E5m2 (h : Head) (t : Tail) (s : State) : Outcome State Fault Refusal := mmaForm 0xAB h t s

/-- Format pair 5 (R110, R230). -/
def execMmaE5m2E4m3 (h : Head) (t : Tail) (s : State) : Outcome State Fault Refusal := mmaForm 0xAC h t s

/-- Format pair 6 (R110, R230). -/
def execMmaE5m2E5m2 (h : Head) (t : Tail) (s : State) : Outcome State Fault Refusal := mmaForm 0xAD h t s

/-- Format pair 7 (R110, R230). -/
def execMmaE2m3E2m3 (h : Head) (t : Tail) (s : State) : Outcome State Fault Refusal := mmaForm 0xAE h t s

/-- Format pair 8 (R110, R230). -/
def execMmaE2m1E2m1 (h : Head) (t : Tail) (s : State) : Outcome State Fault Refusal := mmaForm 0xAF h t s

/-- Format pair 9 (R110, R230). -/
def execMmaE2m1E4m3 (h : Head) (t : Tail) (s : State) : Outcome State Fault Refusal := mmaForm 0xB0 h t s

/-- Format pair 10 (R110, R230). -/
def execMmaE4m3E2m1 (h : Head) (t : Tail) (s : State) : Outcome State Fault Refusal := mmaForm 0xB1 h t s

/-- Format pair 11 (R110, R230). -/
def execMmaLg6Lg6 (h : Head) (t : Tail) (s : State) : Outcome State Fault Refusal := mmaForm 0xB2 h t s

/-- Format pair 12 (R110, R230). -/
def execMmaLg6E4m3 (h : Head) (t : Tail) (s : State) : Outcome State Fault Refusal := mmaForm 0xB3 h t s

/-- Format pair 13 (R110, R230). -/
def execMmaE4m3Lg6 (h : Head) (t : Tail) (s : State) : Outcome State Fault Refusal := mmaForm 0xB4 h t s

/-- Format pair 14 (R110, R230). -/
def execMmaLg6E2m1 (h : Head) (t : Tail) (s : State) : Outcome State Fault Refusal := mmaForm 0xB5 h t s

/-- Format pair 15 (R110, R230). -/
def execMmaE2m1Lg6 (h : Head) (t : Tail) (s : State) : Outcome State Fault Refusal := mmaForm 0xB6 h t s

/-- Format pair 16 (R110, R230). -/
def execMmaInt8Int8 (h : Head) (t : Tail) (s : State) : Outcome State Fault Refusal := mmaForm 0xB7 h t s

/-- Format pair 17 (R110, R230). -/
def execMmaMxe4m3Mxe4m3 (h : Head) (t : Tail) (s : State) : Outcome State Fault Refusal := mmaForm 0xB8 h t s

/-- Format pair 18 (R110, R230). -/
def execMmaMxe2m1Mxe2m1 (h : Head) (t : Tail) (s : State) : Outcome State Fault Refusal := mmaForm 0xB9 h t s

/-- Format pair 19 (R110, R230). -/
def execMmaMxe2m3Mxe2m3 (h : Head) (t : Tail) (s : State) : Outcome State Fault Refusal := mmaForm 0xBA h t s

/-- Format pair 20 (R110, R230). -/
def execMmaMxe2m1Mxe4m3 (h : Head) (t : Tail) (s : State) : Outcome State Fault Refusal := mmaForm 0xBB h t s

/-- Format pair 21 (R110, R230). -/
def execMmaMxe4m3Mxe2m1 (h : Head) (t : Tail) (s : State) : Outcome State Fault Refusal := mmaForm 0xBC h t s

/-- Format pair 22 (R110, R230). -/
def execMmaMxe5m2Mxe5m2 (h : Head) (t : Tail) (s : State) : Outcome State Fault Refusal := mmaForm 0xBD h t s

/-- Format pair 23 (R110, R230). -/
def execMmaBf16E4m3 (h : Head) (t : Tail) (s : State) : Outcome State Fault Refusal := mmaForm 0xBE h t s

/-- Format pair 24 (R110, R230). -/
def execMmaBf16Lg6 (h : Head) (t : Tail) (s : State) : Outcome State Fault Refusal := mmaForm 0xBF h t s

/-! ### The command as buffered -/

/-- N of TCFG, TLD and TST, and A of a product. -/
def MatCmd.fA (c : MatCmd) : Nat := nfld c.ctl 12 4
/-- The groups of MMAG: their row counts. -/
def MatCmd.groups (c : MatCmd) : List Nat := groupCounts c.b (c.modf / 32 % 8 + 1)

/-- TCFGn. -/
def MatUnit.cfg (u : MatUnit) (n : Nat) : Nat := (u.tcfg.toList.getD (n % 16) 0).toNat

/-- The step index of a command (R238): MMAG's counts the blocks of its groups before. -/
def Current.index (c : Current) (u : MatUnit) : Nat :=
  if c.cmd.opc = 0xA6 then ((c.cmd.groups.take c.group).filter (fun n => n != 0)).length * cfgKb (u.cfg c.cmd.fA) + c.step
  else c.step

end Sys2Proof.Machine
end

