-- ==== Sys2Proof/Machine/LifelineIssue.lean ====
section
/-! DEFINITION. The lifeline instructions at their issue (R384, R386, R388-R390). -/

namespace Sys2Proof.Machine

open Host (Outcome)

/-- The limits of the block of LFIND and of LSTAT READ (R386). -/
def findBlockOk (read : Bool) (b : List Byte) : Bool :=
  natAt b 0 8 % 4 == 0 && decide (natAt b 8 4 ≤ 2 ^ 20) && decide (natAt b 12 1 < 64) &&
  natAt b 13 19 == 0 && (!read || (natAt b 0 8 == 0 && natAt b 8 4 == 0))

/-- The limits of the block of LPUT that need no knowledge of the tree (R388). -/
def putBlockOk (b : List Byte) : Bool :=
  let n := natAt b 24 4
  natAt b 0 8 % 4 == 0 && decide (natAt b 12 1 < 64) && natAt b 14 2 == 0 &&
  natAt b 16 8 % 32 == 0 && natAt b 32 32 == 0 &&
  (match natAt b 13 1 with
   | 2 => decide (32 ≤ n ∧ n ≤ 65536) && n % 32 == 0
   | 3 => decide (1 ≤ n ∧ n ≤ 16)
   | _ => false)

/-- The limits of a tree descriptor (R390). -/
def configBlockOk (b : List Byte) : Bool :=
  decide (natAt b 0 1 < 64) && decide (4 ≤ natAt b 1 1 ∧ natAt b 1 1 ≤ 12) && natAt b 3 1 == 0 &&
  decide (1 ≤ natAt b 4 4 ∧ natAt b 4 4 ≤ 2 ^ 20) && natAt b 8 8 % 65536 == 0 &&
  decide (natAt b 16 1 < 32 ∧ natAt b 17 1 < 32) && natAt b 18 2 == 0 &&
  decide (natAt b 20 4 < 2 ^ 17) && natAt b 24 40 == 0

/-- The service endpoint of the controller of a stack (R358, R381). -/
def lifeEnd (stack : Nat) : Nat := 1026 + stack

/-- What a lifeline instruction does with its operands: L, B, capability, then the block, in the order of
R384. `n` is the block size. -/
def lifeBody (opc op n : Nat) (ok : List Byte → Bool) (t : Tail) (s : State) (g : Nat) (c : Ctx) (a b : Word)
    (st : Stage) : Except Stop Stage := do
  let _ ← localCheck s g .shared a.toNat n n true
  let bar ← barOperand s g .shared (tailB t) b
  match capFault s g c 27 with
  | some e => .error (.of e)
  | none =>
    let (blk, st1) ← loadBytes s g .shared a.toNat n n st
    if !ok blk then .error (.of .illegalOperand)
    else
      let req : LifeReq :=
        { opc := opc, op := op, tile := tileOf g, ctx := ownerOf s g % 16,
          gen := igen (genEntry s (tileOf g) c.asid), l := a.toNat, bar := bar,
          lslot := c.lslot, asid := c.asid, block := blk, keyed := none }
      return st1.act (.effects [mkEffect opc t 0 a.toNat blk
        [(lifeEnd (stackOf (tileOf g)), .lifeline req)]])

/-- A lifeline instruction of user mode. -/
def lifeForm (opc op n : Nat) (ok : List Byte → Bool) (h : Head) (t : Tail) (s : State) :
    Outcome State Fault Refusal :=
  queueForm h t s 0 (fun s g c a b _ st => lifeBody opc op n ok t s g c a b st)

/-- A privileged lifeline instruction: the mode comes first (R109, R384). -/
def lifeSysForm (opc op n : Nat) (ok : List Byte → Bool) (h : Head) (t : Tail) (s : State) :
    Outcome State Fault Refusal :=
  sysForm h t s 0 (fun s g c a b _ st => HeadResult.of (lifeBody opc op n ok t s g c a b st))

/-- LFIND (R384, R387). -/
def execLfind (h : Head) (t : Tail) (s : State) : Outcome State Fault Refusal :=
  lifeForm 0xF3 0 32 (findBlockOk false) h t s
/-- LPUT (R384, R388). -/
def execLput (h : Head) (t : Tail) (s : State) : Outcome State Fault Refusal :=
  lifeForm 0xF4 0 64 putBlockOk h t s
/-- LREL (R384, R389). -/
def execLrel (h : Head) (t : Tail) (s : State) : Outcome State Fault Refusal :=
  lifeForm 0xF5 0 32 (fun _ => true) h t s
/-- LSTAT READ (R384, R390). -/
def execLstatRead (h : Head) (t : Tail) (s : State) : Outcome State Fault Refusal :=
  lifeForm 0xF6 0 64 (findBlockOk true) h t s
/-- LSTAT CONFIG (R384, R390). -/
def execLstatConfig (h : Head) (t : Tail) (s : State) : Outcome State Fault Refusal :=
  lifeSysForm 0xF6 1 64 configBlockOk h t s
/-- LSTAT CLOSE (R384, R390). -/
def execLstatClose (h : Head) (t : Tail) (s : State) : Outcome State Fault Refusal :=
  lifeSysForm 0xF6 2 64 (fun b => decide (natAt b 0 1 < 64)) h t s

end Sys2Proof.Machine
end

