-- ==== Sys2Proof/Machine/Streams.lean ====
section
/-! DEFINITION. OSUB, and the stream records with SRSET and SRCTL (R344-R347). -/

namespace Sys2Proof.Machine

open Host (Outcome)

/-- OSUB (R344): one or two packets of 64 bytes for the command queue that the place word names. -/
def execOsub (h : Head) (t : Tail) (s : State) : Outcome State Fault Refusal :=
  queueForm h t s 0 (fun s g c a b _ st => do
    let (tgt, off) ← placeOf s g (tailA t) a false
    let (bs, st1) ← loadBytes s g .tileLocal b.toNat (64 * (tailM t + 1)) 64 st
    return st1.act (.effects [mkEffect 0xEA t 0 a.toNat bs [(tgt, .osub ⟨off, bs, c.lslot, tileOf g, 0, 0⟩)]]))

/-! ### Stream records (R345) -/

/-- Whether a record is idle: every element has been popped (R348). -/
def Stream.isIdle (r : Stream) : Bool := decide (r.count ≤ r.popped)

/-- The record that a descriptor describes, at element 0, unless a field is reserved or out of
range (R345, R346). -/
def streamOf (b : List Byte) : Option Stream :=
  let form := natAt b 8 1
  let idx := form.testBit 3
  let n0 := natAt b 16 2
  let zero := decide (form < 128) && decide (natAt b 9 1 < 4) && natAt b 10 2 == 0 &&
    natAt b 18 2 == 0 && natAt b 28 4 == 0 &&
    (!idx || (n0 == 0 && natAt b 20 4 == 0 && natAt b 24 4 == 0))
  if zero then
    some { base := natAt b 0 8, log2sz := form % 4, sext := form.testBit 2, idx := idx,
           isrc := nfld form 4 3, shift := natAt b 9 1, count := natAt b 12 4,
           n0 := if n0 = 0 then 1 else n0, s0 := sint 32 (natAt b 20 4),
           s1 := sint 32 (natAt b 24 4), queue := [], fetched := 0, popped := 0 }
  else none

/-- Whether the index chain from record `j`, followed through indexed records, comes to `k`: a record whose
elements are all popped still names its index source, since REWIND starts it again (R346, R347). -/
def chainMeets (c : Ctx) (k : Nat) : Nat → Nat → Bool
  | 0, _ => true
  | n + 1, j =>
    let r := c.streams.toList.getD j Stream.idle
    j == k || (r.idx && chainMeets c k n r.isrc)

/-- The checks of SRSET on the index source (R346). -/
def indexOk (c : Ctx) (k : Nat) (r : Stream) : Bool :=
  !r.idx || (!(c.streams.toList.getD r.isrc Stream.idle).isIdle && !chainMeets c k 8 r.isrc)

/-- SRSET (R346). -/
def execSrset (h : Head) (t : Tail) (s : State) : Outcome State Fault Refusal :=
  queueForm h t s 0 (fun s g c a _ _ st => do
    let k := tailM t % 8
    let (bs, st1) ← loadSpan s g .plain a.toNat 32 16 st
    match streamOf bs with
    | none => .error (.of .illegalOperand)
    | some r =>
      if indexOk c k r then return { st1 with streams := st1.streams ++ [(k, r)] }
      else .error (.of .illegalOperand))

/-- The status of a stream record (R347). -/
def Stream.status (r : Stream) : Word :=
  let faulted := match r.queue.head? with
    | some (_, some _) => true
    | _ => false
  BitVec.ofNat 64 (r.queue.length % 32 + r.isIdle.toNat * 2 ^ 16 + faulted.toNat * 2 ^ 17 +
    (r.count - r.popped) * 2 ^ 32)

/-- SRCTL: the status as of the start of the bundle, and what the record becomes (R347). -/
def srctlForm (f : Stream → Option Stream) (h : Head) (t : Tail) (s : State) : Outcome State Fault Refusal :=
  runHead s h 1 (fun _ _ c st =>
    let k := tailM t % 8
    let r := c.streams.toList.getD k Stream.idle
    let st1 := st.push r.status (tailD t)
    .ok (match f r with
      | some r' => { st1 with streams := st1.streams ++ [(k, r')] }
      | none => st1))

/-- SRCTL QUERY (R347). -/
def execSrctlQuery (h : Head) (t : Tail) (s : State) : Outcome State Fault Refusal :=
  srctlForm (fun _ => none) h t s
/-- SRCTL STOP (R347). -/
def execSrctlStop (h : Head) (t : Tail) (s : State) : Outcome State Fault Refusal :=
  srctlForm (fun _ => some Stream.idle) h t s
/-- SRCTL REWIND (R347). -/
def execSrctlRewind (h : Head) (t : Tail) (s : State) : Outcome State Fault Refusal :=
  srctlForm (fun r => some { r with queue := [], fetched := 0, popped := 0 }) h t s

end Sys2Proof.Machine
end

