-- ==== Sys2Proof/Machine/Sched.lean ====
section
/-! DEFINITION. The tile scheduler: ready triggers and their order (R54), dispatch (R30, R31,
R43), staging (R56), stealing (R51) and continuations (R303). -/

namespace Sys2Proof.Machine

open Host (Outcome)

/-! ### Places for an activation -/

/-- A place: the owning context, and the twin's for a span (R43, R46). -/
abbrev Slot := Nat × Option Nat

/-- Whether a context of a tile is FREE and neither reserved for a gang nor kept for a staged record. -/
def freeFor (s : State) (g : Nat) : Bool :=
  (s.ctx g).st == .free && !((s.tile (tileOf g)).reserved.any (fun e => e.1 == g)) &&
    !((s.tile (tileOf g)).staging.any (fun e => e.2.2.contains g))

/-- The contexts of processor `p` of a tile that satisfy a test. -/
def procCtxs (t p : Nat) (ok : Nat → Bool) : List Nat :=
  ((List.range 4).map (fun c => 16 * t + 4 * p + c)).filter ok

/-- The span places on the pair that processor `p` (0 or 1) owns: P0 with P3, P1 with P2. -/
def pairSlots (t p : Nat) (ok : Nat → Bool) : List Slot :=
  (procCtxs t p ok).flatMap (fun o => (procCtxs t (3 - p) ok).map (fun w => (o, some w)))

/-- The places on which an activation can start: a FREE context, or a FREE diagonal pair. `pair`
is 0 for either pair, else 1 plus its owning processor (R45). -/
def slots (t : Nat) (single : Bool) (pair : Nat) (ok : Nat → Bool) : List Slot :=
  if single then ((List.range 16).map (fun i => 16 * t + i)).filterMap (fun g => if ok g then some (g, none) else none)
  else
    (if pair = 2 then [] else pairSlots t 0 ok) ++ (if pair = 1 then [] else pairSlots t 1 ok)

/-- Whether a launch selects single dispatch (R46, R326). -/
def Launch.single (l : Launch) : Bool := (natAt l.record 3 1).testBit 0
/-- The address space of a launch. -/
def Launch.asid (l : Launch) : Nat := natAt l.record 6 1
/-- The priority of FLAGS. -/
def Launch.pri (l : Launch) : Nat := nfld (natAt l.record 3 1) 1 2
/-- Handler entry `c` (R376). -/
def Launch.handler (l : Launch) (c : Nat) : Nat := natAt l.desc (8 * c) 8
/-- MEMBER entry `m`. -/
def Launch.memberWord (l : Launch) (m : Nat) : Nat := natAt l.desc (176 + 8 * m) 8
/-- The numbers of the valid members of a gang (R309). -/
def Launch.members (l : Launch) : List Nat := (List.range 4).filter (fun m => (l.memberWord m).testBit 63)
/-- Whether a launch is a gang. -/
def Launch.gang (l : Launch) : Bool := !l.members.isEmpty

/-- Whether a context is reserved for a launch. -/
def reservedFor? (s : State) (g lslot : Nat) : Bool :=
  (s.tile (tileOf g)).reserved.any (fun e => e.1 == g && e.2 == lslot)

/-- The places that a trigger may take on a tile now: a gang member takes the contexts reserved
for its launch, and where it is redelivered or run again any that is not reserved, so that every other member
keeps its own (R41, R45, R309; DESIGN CHOICE, log 57). -/
def trigSlots (s : State) (t : Nat) (tr : Trigger) : List Slot :=
  match s.launch tr.lslot with
  | none => []
  | some l =>
    if l.state != .running then []
    else
      match tr.member with
      | some _ => slots t l.single tr.pair (fun g => (s.ctx g).st == .free &&
          (if tr.rerun || decide (0 < tr.redeliv) then freeFor s g else reservedFor? s g tr.lslot))
      | none => slots t l.single tr.pair (freeFor s)

/-! ### Ready triggers (R54, R302) -/

/-- The dispatch order among kinds at equal age (R54). -/
def TrigKind.rank : TrigKind → Nat
  | .cont => 0
  | .msg => 1
  | .task => 2

/-- Where a ready trigger stands in its tile. -/
inductive Queued where
  | arrival (i : Nat)
  | cont (i : Nat)
  | deque (p i : Nat)
  /-- Its turn has come and its pages are being staged (R56). -/
  | staged (i : Nat)
  deriving DecidableEq, Repr

/-- Whether a message's class is masked for its launch (R302); bits 14 and 15 have no effect. -/
def masked (x : Tile) (tr : Trigger) : Bool :=
  decide (tr.cls < 14) && (tabGet (0 : BitVec 16) x.masks tr.lslot).getLsbD tr.cls

/-- Every ready trigger of a tile. -/
def readyAll (x : Tile) : List (Queued × Trigger) :=
  x.arrival.zipIdx.filterMap (fun (e : Trigger × Nat) => if masked x e.1 then none else some (.arrival e.2, e.1)) ++
  x.conts.zipIdx.map (fun (e : Trigger × Nat) => (.cont e.2, e.1)) ++
  x.deques.zipIdx.flatMap (fun (d : List Trigger × Nat) => d.1.zipIdx.map (fun (e : Trigger × Nat) => (.deque d.2 e.2, e.1)))

/-- The triggers that may be taken in order: the first unmasked message of each class and launch
(R301), every continuation, and the head of each deque (R50). -/
def takeable (x : Tile) (l : List (Queued × Trigger)) : List (Queued × Trigger) :=
  l.filter (fun (e : Queued × Trigger) => match e.1 with
    | .arrival i => !(x.arrival.take i).any (fun m => m.cls == e.2.cls && m.lslot == e.2.lslot && !masked x m)
    | .cont _ | .staged _ => true
    | .deque _ i => i == 0)

/-- Whether one trigger comes before another: higher effective priority, older, then by kind. -/
def Trigger.before (a b : Trigger) : Bool :=
  decide (b.eff < a.eff) || (a.eff == b.eff &&
    (decide (a.time < b.time) || (a.time == b.time && decide (a.kind.rank < b.kind.rank))))

/-- The first in dispatch order. -/
def firstTrig : List (Queued × Trigger) → Option (Queued × Trigger)
  | [] => none
  | e :: r =>
    match firstTrig r with
    | some f => if f.2.before e.2 then some f else some e
    | none => some e

/-- Whether the launch of a trigger runs. -/
def ofRunning (s : State) (tr : Trigger) : Bool :=
  match s.launch tr.lslot with
  | some l => l.state == .running
  | none => false

/-- The ready triggers of the launches that run. -/
def readyRun (s : State) (t : Nat) : List (Queued × Trigger) :=
  (readyAll (s.tile t)).filter (fun e => ofRunning s e.2)

/-- The staged records of the launches that run. -/
def stagedRun (s : State) (t : Nat) : List (Queued × Trigger) :=
  ((s.tile t).staging.zipIdx.map (fun e => (Queued.staged e.2, e.1.1))).filter (fun e => ofRunning s e.2)

/-- The first trigger of a tile that has been passed 64 times: nothing of equal or lower priority goes before it
(R54). -/
def keeper (s : State) (t : Nat) : Option (Queued × Trigger) :=
  firstTrig ((readyRun s t ++ stagedRun s t).filter (fun e => decide (64 ≤ e.2.passes)))

/-- Whether the scheduler keeps the contexts that come FREE for a trigger passed 64 times (R54). A staged record
has its contexts. -/
def keeps (s : State) (t : Nat) : Bool :=
  match keeper s t with
  | some (.staged _, _) | none => false
  | some _ => true

/-- The choice of R54: the first trigger that can be placed; a trigger passed 64 times holds
back every other of equal or lower priority. -/
def choose (s : State) (t : Nat) : Option (Queued × Trigger) :=
  let x := s.tile t
  let all := readyRun s t
  let fits := (takeable x all).filter (fun e => !(trigSlots s t e.2).isEmpty)
  match keeper s t with
  | none => firstTrig fits
  | some f =>
    match firstTrig (fits.filter (fun e => decide (f.2.eff < e.2.eff))) with
    | some e => some e
    | none =>
      match f.1 with
      | .staged _ => none
      | _ => if (trigSlots s t f.2).isEmpty then none else some f

/-- Counts a pass of every ready trigger that is older than the one dispatched and of its
priority. -/
def Trigger.pass (d : Trigger) (a : Trigger) : Trigger :=
  if a.eff = d.eff ∧ a.time < d.time then { a with passes := min 64 (a.passes + 1) } else a

/-- Takes a trigger from its place. -/
def dropTrig (x : Tile) : Queued → Tile
  | .arrival i => { x with arrival := dropAt x.arrival i }
  | .cont i => { x with conts := dropAt x.conts i }
  | .deque p i => { x with deques := x.deques.set p (dropAt (x.deques.getD p []) i) }
  | .staged i => { x with staging := dropAt x.staging i }

/-- Counts the passes that the dispatch of a trigger makes (R54). -/
def countPasses (x : Tile) (tr : Trigger) : Tile :=
  { x with
    arrival := x.arrival.map (fun m => if masked x m then m else tr.pass m)
    conts := x.conts.map tr.pass
    deques := x.deques.map (fun d => d.map tr.pass)
    staging := x.staging.map (fun e => (tr.pass e.1, e.2)) }

/-- Takes a trigger from its place for its dispatch. -/
def takeTrig (x : Tile) (q : Queued) (tr : Trigger) : Tile := countPasses (dropTrig x q) tr

/-! ### Starting an activation (R30, R31) -/

/-- The entry of a trigger: the handler of its class, the gang member's entry, or its own PC. -/
def entryOf (l : Launch) (tr : Trigger) : Nat :=
  match tr.kind, tr.member with
  | .msg, some m => l.memberWord m % 2 ^ 48
  | .msg, none => l.handler tr.cls % 2 ^ 48
  | _, _ => tr.pc

/-- The context class of an activation (R33). -/
def classOf (tr : Trigger) : Nat :=
  match tr.kind with
  | .task => tr.pri
  | _ => tr.cls

/-- The index of a tile of a launch's rectangle, row by row from the origin. -/
def rectIndex (l : Launch) (t : Nat) : Nat :=
  (tileY t - natAt l.record 1 1) * 2 ^ (natAt l.record 2 1 % 8) + (tileX t - natAt l.record 0 1)

/-- CTX_SAVEPTR of an activation of a launch: 16 KiB per context from SAVE, in the order of their numbers (R326;
DEDUCED, log 13). A context whose place a moved activation has taken uses the area of the place it got in
exchange (DESIGN CHOICE, log 10). -/
def savePtr (l : Launch) (g : Nat) : Nat :=
  (natAt l.record 24 8 + 16384 * (16 * rectIndex l (tileOf g) + g % 16)) % 2 ^ 48 / 2 ^ 14 * 2 ^ 14

/-- The CTX_STATUS that a dispatch sets (R136). -/
def startStatus (g : Nat) (tr : Trigger) (span : Bool) : Word :=
  BitVec.ofNat 64 (classOf tr * 2 ^ 20 + span.toNat * 2 ^ 14 + (decide (0 < tr.redeliv)).toNat * 2 ^ 12 +
    tr.rerun.toNat * 2 ^ 11 + g % 16 / 4 * 2 ^ 6 + g % 4 * 2 ^ 4)

/-- The bytes that the front of the private frame takes: the payload and, for the origin
activation of a keyed launch, the lookup's result block (R31, R394). -/
def frameBytes (l : Launch) (tr : Trigger) : List Byte :=
  padTo 224 (tr.payload.take 224) ++ (if tr.origin then padTo 32 (l.lookup.take 32) else List.replicate 32 0)

/-- A context at the start of an activation, before its registers %n0-%n31 that R30 fills. -/
def startCtx (s : State) (g owner : Nat) (twin : Option Nat) (l : Launch) (tr : Trigger) : Ctx :=
  let c := s.ctx g
  let c1 := { Ctx.reset g with
    st := .run, pc := entryOf l tr, k := l.konst, status := startStatus g tr twin.isSome
    trapvec := BitVec.ofNat 64 (natAt l.record 32 8 % 2 ^ 48)
    fpctl := BitVec.ofNat 64 (natAt l.record 20 4 &&& 0x11F)
    cap := BitVec.ofNat 64 (natAt l.record 16 4 % 2 ^ 16)
    pri := priWord tr.pri (if tr.pri < tr.eff then tr.eff else 0)
    inherited := if tr.pri < tr.eff then tr.eff else 0
    saveptr := BitVec.ofNat 64 (savePtr l c.place), act := s.nextAct, trig := some tr
    lslot := tr.lslot, asid := l.asid, place := c.place, addrPlace := (s.ctx owner).place
    stackPages := max 1 (natAt l.desc 168 4), mapped := 1, twin := twin, isTwin := g != owner }
  let arg := (List.range 8).foldl (fun (c : Ctx) i => c.setReg i (BitVec.ofNat 64 (natAt tr.payload (8 * i) 8))) c1
  (arg.setReg 29 (BitVec.ofNat 64 c1.stackTop)).setReg 31 (BitVec.ofNat 64 c1.frame)

/-- The frame of a context: the scratchpad bytes, or a twin's own (R43). -/
def frameKey (c : Ctx) (g : Nat) : Nat :=
  if c.isTwin then keyTwin c.place 0 else keyScratch (tileOf g) c.frame

/-- Starts one copy. -/
def startCopy (s : State) (g owner : Nat) (twin : Option Nat) (l : Launch) (tr : Trigger) : State :=
  let c := startCtx s g owner twin l tr
  (blockWrite s (frameKey c g) 4096 (frameBytes l tr)).setCtx g c

/-- Starts an activation on a place (R30, R43). -/
def startTrig (s : State) (sl : Slot) (l : Launch) (tr : Trigger) : State :=
  let s1 := startCopy s sl.1 sl.1 sl.2 l tr
  let s2 := match sl.2 with
    | some w => startCopy s1 w sl.1 (some sl.1) l tr
    | none => s1
  { s2 with nextAct := s2.nextAct + 1 }.modTile (tileOf sl.1) (fun x => { x with
    reserved := x.reserved.filter (fun e => e.1 != sl.1 && some e.1 != sl.2), lastVictim := x.lastVictim % 8 })

/-! ### Staging (R56) -/

/-- The hinted pages that lie in a far layer and are not offline. A range that passes the last page goes
on at page 0 (DESIGN CHOICE, log 59). -/
def farPages (x : Tile) (hints : List (Nat × Nat)) : List Nat :=
  (hints.flatMap (fun h => (List.range h.2).map (fun i => (h.1 + i) % 8192))).filter
    (fun p => (remapOf x p).layer != 0 && (remapOf x p).v)

/-- Takes the trigger from its queue and starts it on place number `k` among those free. -/
def dispatchNow (s : State) (t k : Nat) (q : Queued) (tr : Trigger) : Option State :=
  let sl := trigSlots s t tr
  match s.launch tr.lslot, sl[k % sl.length]? with
  | some l, some p => some (startTrig (s.modTile t (fun x => takeTrig x q tr)) p l tr)
  | _, _ => none

/-- The contexts of a place. -/
def Slot.ctxs (p : Slot) : List Nat := p.1 :: p.2.toList

/-- The turn of a record with hinted pages in far layers: the cable engine is asked for them, and place number
`k` among those free is kept for it. -/
def stageNow (s : State) (t k : Nat) (q : Queued) (tr : Trigger) (far : List Nat) : Option State :=
  let sl := trigSlots s t tr
  match sl[k % sl.length]? with
  | none => none
  | some p =>
    some (s.modTile t (fun x => { dropTrig x q with
      staging := x.staging ++ [({ tr with staged := true }, s.cycle, p.ctxs)]
      swaps := x.swaps ++ far.map (fun p => ⟨p, none, none, false, 0⟩) }))

/-- Dispatches staged record `i` on the place that is kept for it. -/
def dispatchStaged (s : State) (t i : Nat) : Option State :=
  match (s.tile t).staging[i]? with
  | some (tr, _, g :: w) =>
    match s.launch tr.lslot with
    | some l =>
      if l.state == .running then some (startTrig (s.modTile t (fun x => takeTrig x (.staged i) tr)) (g, w.head?) l tr)
      else none
    | none => none
  | _ => none

/-- The first staged record of a tile that runs and whose pages have all come. -/
def stagedReady (s : State) (t : Nat) : Option Nat :=
  (s.tile t).staging.findIdx? (fun e => ofRunning s e.1 && (farPages (s.tile t) e.1.hints).isEmpty)

/-- DISPATCH (R54): `who` is the tile, `idx` selects among the free places. A record with hinted pages in far
layers waits at its turn for the cable engine, once, with its contexts kept, so that its dispatch is never late
for want of one; the others go on meanwhile and count as passing it (R54, R56, R58; DESIGN CHOICE, log 58). -/
def tryDispatch (s : State) : Option State :=
  let t := s.ev.who
  match stagedReady s t with
  | some i => dispatchStaged s t i
  | none =>
    match choose s t with
    | none => none
    | some (q, tr) =>
      let far := farPages (s.tile t) tr.hints
      if far.isEmpty || tr.staged then dispatchNow s t s.ev.idx q tr else stageNow s t s.ev.idx q tr far

/-- DISPATCH (R54). -/
def execDispatch (s : State) : Outcome State Fault Refusal := eventStep tryDispatch s

/-- STAGE_WAIT_EXPIRE (R56): `who` is the tile; the record staged first is dispatched, and staging goes on. -/
def tryStageWaitExpire (s : State) : Option State :=
  match (s.tile s.ev.who).staging.findIdx? (fun e => ofRunning s e.1) with
  | some i => dispatchStaged s s.ev.who i
  | none => none

/-- STAGE_WAIT_EXPIRE (R56). -/
def execStageWaitExpire (s : State) : Outcome State Fault Refusal := eventStep tryStageWaitExpire s

/-- A pre-empted launch's staged records return to the head of their deques, or wait for room there; their staging
has been asked for (R56, R412). -/
def unstage (slot : Nat) (x : Tile) : Tile :=
  let back := (x.staging.filter (fun e => e.1.lslot == slot)).map (fun e => e.1)
  let x1 := { x with staging := x.staging.filter (fun e => e.1.lslot != slot) }
  back.foldr (fun tr (x : Tile) =>
    if backRoom x tr then putBack x tr else { x with redeliver := x.redeliver ++ [tr] }) x1

/-- PAUSE_EXPIRE (R179): the context issues again. -/
def execPauseExpire (s : State) : Outcome State Fault Refusal :=
  eventStep (fun s => some (s.modCtx s.ev.who (fun c => { c with pause := min c.pause s.cycle }))) s

/-! ### Stealing (R51) -/

/-- Whether a tile is idle: a FREE context, or pair, and no ready trigger. -/
def idle (s : State) (t : Nat) : Bool :=
  let x := s.tile t
  (readyAll x).isEmpty && x.staging.isEmpty && !(slots t true 0 (freeFor s)).isEmpty

/-- Field `lastVictim` holds the stop last tried in its low 3 bits and, above them, how many
cluster tiles this search has tried. The next victim: the other 7 tiles of the cluster, then a
tile of the stack that the sequence gives as `pick`, outside the cluster. -/
def victim (x : Tile) (t pick : Nat) : Nat × Nat :=
  let last := x.lastVictim % 8
  let tried := x.lastVictim / 8
  let cl := clusterOf t
  if tried < 7 then
    let n0 := (last + 1) % 8
    let n := if n0 = stopOf t then (n0 + 1) % 8 else n0
    (tileOfStop cl n, n + 8 * (tried + 1))
  else
    let others := (List.range 1024).filter (fun u => stackOf u == stackOf t && clusterOf u != cl)
    (others.getD (pick % others.length) t, x.lastVictim)

/-- STEAL_REQUEST (R51): `idx` is the next value of the tile's pseudo-random sequence. -/
def tryStealRequest (s : State) : Option State :=
  let t := s.ev.who
  let x := s.tile t
  if idle s t && !x.stealing then
    let (v, l) := victim x t s.ev.idx
    some { s.modTile t (fun x => { x with lastVictim := l, stealing := true }) with
      steals := s.steals ++ [.request t v] }
  else none

/-- STEAL_REQUEST (R51). -/
def execStealRequest (s : State) : Outcome State Fault Refusal := eventStep tryStealRequest s

/-- The position of the last record of a deque that the thief may have. One that is to run again on the other
diagonal pair of its tile stays (R45). -/
def stealAt (s : State) (thief : Nat) (d : List Trigger) : Option Nat :=
  let ok := d.zipIdx.filter (fun (e : Trigger × Nat) => !e.1.nosteal && !e.1.rerun &&
    (match s.launch e.1.lslot with
     | some l => inRect l.record thief
     | none => false))
  (ok.getLast?).map (·.2)

/-- The record that a victim gives, with its deque and position. -/
def stealFrom (s : State) (v thief : Nat) : Option (Nat × Nat) :=
  let dq := (s.tile v).deques
  ([3, 2, 1, 0] : List Nat).findSome? (fun p => (stealAt s thief (dq.getD p [])).map (fun i => (p, i)))

/-- The first request of the control plane to a victim. -/
def requestTo (v : Nat) (l : List StealMsg) : Option (Nat × Nat) :=
  l.zipIdx.findSome? (fun (e : StealMsg × Nat) => match e.1 with
    | .request th u => if u = v then some (e.2, th) else none
    | _ => none)

/-- STEAL_SERVE (R51). -/
def tryStealServe (s : State) : Option State :=
  let v := s.ev.who
  match requestTo v s.steals with
  | none => none
  | some (i, th) =>
    let rest := dropAt s.steals i
    match stealFrom s v th with
    | some (p, j) =>
      let d := (s.tile v).deques.getD p []
      some { s.modTile v (fun x => { x with deques := x.deques.set p (dropAt d j) }) with
        steals := rest ++ [.reply th d[j]?] }
    | none => some { s with steals := rest ++ [.reply th none] }

/-- STEAL_SERVE (R51). -/
def execStealServe (s : State) : Outcome State Fault Refusal := eventStep tryStealServe s

/-- The first reply of the control plane to a thief. -/
def replyTo (th : Nat) (l : List StealMsg) : Option (Nat × Option Trigger) :=
  l.zipIdx.findSome? (fun (e : StealMsg × Nat) => match e.1 with
    | .reply u t => if u = th then some (e.2, t) else none
    | _ => none)

/-- Pushes a record at the head of its deque (R50). -/
def pushRecord (x : Tile) (tr : Trigger) (now : Nat) : Tile :=
  { x with deques := x.deques.set tr.eff ({ tr with time := now, passes := 0 } :: x.deques.getD tr.eff []) }

/-- STEAL_REPLY (R51): a stolen record enters the thief's deque, once that has room (R313), at the priority that
it inherits (R55). -/
def tryStealReply (s : State) : Option State :=
  let t := s.ev.who
  match replyTo t s.steals with
  | none => none
  | some (i, r) =>
    let s1 := { s with steals := dropAt s.steals i }
    match r with
    | some tr =>
      if hasRoom (s.tile t) tr then
        some (inherit (s1.modTile t (fun x => { pushRecord x tr s.cycle with stealing := false, lastVictim := x.lastVictim % 8 })))
      else none
    | none => some (s1.modTile t (fun x => { x with stealing := false }))

/-- STEAL_REPLY (R51). -/
def execStealReply (s : State) : Outcome State Fault Refusal := eventStep tryStealReply s

/-! ### Release groups (R40, R44) -/

/-- Whether an activation of the owning context `o` has ended in every copy with nothing left to
forward. -/
def endedAll (s : State) (o : Nat) : Bool :=
  let c := s.ctx o
  c.st == .releasing && c.groups.isEmpty &&
    (match c.twin with
     | some w => (s.ctx w).st == .releasing && (s.ctx w).groups.isEmpty
     | none => true)

/-- The end of an activation whose final group is forwarded: HALT's entry, the subtraction that
a joined task owes, and the contexts become FREE (R28, R178, R311). -/
def finishEnd (s : State) (o : Nat) : State :=
  let c := s.ctx o
  let s1 := match c.halted with
    | some a => postLog s (logEntry 2 0 (tileOf o) (o % 16) (killFlags c false) c.lslot 0 0 0 a 0 0 s.cycle)
    | none => s
  freeBoth (consume s1 o false) o

/-- After a group is forwarded: an ended activation without a continuation becomes FREE; one with
a continuation waits for its queue (R303). -/
def afterForward (s : State) (o : Nat) : State :=
  if endedAll s o && (s.ctx o).cont.isNone then finishEnd s o else s

/-- Marks the first group that is not accepted as accepted. -/
def acceptFirst : List Group → List Group
  | [] => []
  | gr :: r => if gr.accepted then gr :: acceptFirst r else { gr with accepted := true } :: r

/-- An ended copy of a span whose groups are all accepted: its context is FREE (R28). One that has posted
a continuation stays in RELEASING for it (R303). -/
def parkEnded (s : State) (g : Nat) : State :=
  let c := s.ctx g
  if c.st = .releasing ∧ c.groups.all (·.accepted) = true ∧ (c.isTwin = true ∨ c.cont = none) then parkCtx s g else s

/-- RELEASE_ACCEPT (R40): `who` is the context. In single dispatch the group is forwarded. A parity error
that the interface meets in the effects buffer is consumed by the activation (R41, R252). -/
def tryReleaseAccept (s : State) : Option State :=
  let g := s.ev.who
  let c := s.ctx g
  if c.groups.all (·.accepted) then none
  else if c.bufErr && c.groups.any (fun gr => !gr.accepted && !gr.effects.isEmpty) then some (consumePoison s g)
  else if c.twin.isSome then some (parkEnded (s.modCtx g (fun c => { c with groups := acceptFirst c.groups })) g)
  else
    match c.groups with
    | [] => none
    | gr :: r => some (afterForward ((forwardGroup s g gr).modCtx g (fun c => { c with groups := r })) g)

/-- RELEASE_ACCEPT (R40). -/
def execReleaseAccept (s : State) : Outcome State Fault Refusal := eventStep tryReleaseAccept s

/-- The 64-bit hash of a release group (R44). -/
def groupHash (gr : Group) : Nat :=
  fnvBytes 0xCBF29CE484222325 (gr.effects.flatMap (fun e => e.header ++ e.data))

/-- The owning context and the twin of a span that a context belongs to. -/
def spanOf (s : State) (g : Nat) : Option (Nat × Nat) :=
  let o := ownerOf s g
  (s.ctx o).twin.map (fun w => (o, w))

/-- The first group of each copy, once the interface has accepted both. -/
def bothGroups (s : State) (o w : Nat) : Option (Group × Group) :=
  match (s.ctx o).groups, (s.ctx w).groups with
  | a :: _, b :: _ => if a.accepted && b.accepted then some (a, b) else none
  | _, _ => none

/-- Drops the first group of a copy; `n` effects have been forwarded for it. -/
def dropGroup (c : Ctx) : Ctx := { c with groups := c.groups.tail, fwdAny := true }

/-- SPAN_HASH_COMPARE (R44, R45): `who` is a copy of the span. -/
def trySpanHashCompare (s : State) : Option State :=
  match spanOf s s.ev.who with
  | none => none
  | some (o, w) =>
    match bothGroups s o w with
    | none => none
    | some (a, b) =>
      if a.num = b.num ∧ groupHash a = groupHash b then
        some (afterForward (((forwardGroup s o a).modCtx o dropGroup).modCtx w dropGroup) o)
      else some (spanMismatch s o)

/-- SPAN_HASH_COMPARE (R44). -/
def execSpanHashCompare (s : State) : Outcome State Fault Refusal := eventStep trySpanHashCompare s

/-- SPAN_TWIN_TIMEOUT (R44, R411): one copy's group, or its end by a fault, has waited 100 µs for
the twin's. -/
def trySpanTwinTimeout (s : State) : Option State :=
  match spanOf s s.ev.who with
  | none => none
  | some (o, w) =>
    let waits := fun (x y : Ctx) => x.groups.any (·.accepted) && y.groups.isEmpty
    let fell := fun (x y : Ctx) => x.ending.isSome && y.ending.isNone
    let a := s.ctx o
    let b := s.ctx w
    if waits a b || waits b a || fell a b || fell b a then some (spanMismatch s o) else none

/-- SPAN_TWIN_TIMEOUT (R44). -/
def execSpanTwinTimeout (s : State) : Outcome State Fault Refusal := eventStep trySpanTwinTimeout s

/-! ### Continuations (R303) -/

/-- The context of a tile whose continuation may enter the queue and was posted first (R303). -/
def contReady (s : State) (t : Nat) : Option (Nat × Trigger) :=
  (((List.range 16).map (fun i => 16 * t + i)).filterMap (fun g =>
    let c := s.ctx g
    if !c.isTwin && endedAll s g then c.cont.map (fun k => (g, k)) else none)).foldl
    (fun (best : Option (Nat × Trigger)) (e : Nat × Trigger) => match best with
      | some b => if (s.ctx e.1).endedAt < (s.ctx b.1).endedAt then some e else best
      | none => some e) none

/-- CONTINUATION_ENQUEUE (R303): `who` is the tile. The context becomes FREE with it. A continuation that
goes back to the queue comes first (R41). -/
def tryContinuationEnqueue (s : State) : Option State :=
  let t := s.ev.who
  match takeBack (s.tile t) .cont with
  | some x => some (s.setTile t x)
  | none =>
  if 64 ≤ (s.tile t).conts.length then none
  else
    match contReady s t with
    | none => none
    | some (g, k) =>
      some (finishEnd (s.modTile t (fun x => { x with conts := x.conts ++ [{ k with time := s.cycle }] })) g)

/-- CONTINUATION_ENQUEUE (R303). -/
def execContinuationEnqueue (s : State) : Outcome State Fault Refusal := eventStep tryContinuationEnqueue s

/-! ### Gangs (R53, R309) -/

/-- The tiles of a launch's rectangle, row by row. -/
def rectTiles (l : Launch) : List Nat := (List.range 1024).filter (inRect l.record)

/-- Takes places for `n` members of a launch on a tile from the contexts that `taken` leaves;
`none` where they do not fit, or while the tile keeps its FREE contexts for a trigger (R54). -/
def reserveOn (s : State) (t : Nat) (single : Bool) : Nat → List Nat → Option (List Nat)
  | 0, taken => some taken
  | n + 1, taken =>
    match (slots t single 0 (fun g => freeFor s g && !keeps s t && !taken.contains g)).head? with
    | some (o, w) => reserveOn s t single n (o :: (w.toList ++ taken))
    | none => none

/-- The contexts of a tile that earlier waiting gangs need (R53). -/
def earlierNeeds (s : State) (order t : Nat) : List Nat :=
  ((s.launches.filter (fun e => e.2.state == .admission && decide (e.2.order < order) &&
      inRect e.2.record t)).foldl (fun (acc : List Nat) (e : Nat × Launch) =>
    (reserveOn s t e.2.single e.2.members.length acc).getD
      ((List.range 16).map (fun i => 16 * t + i))) [])

/-- The reservation of a gang on one tile. -/
def gangOn (s : State) (l : Launch) (t : Nat) : Option (List Nat) :=
  let early := earlierNeeds s l.order t
  (reserveOn s t l.single l.members.length early).map (fun all => all.take (all.length - early.length))

/-- A launch message (R327): class 0, payload ARG, at a tile. -/
def launchMsg (l : Launch) (slot t : Nat) : Trigger :=
  { Trigger.plain .msg 0 slot (sliceB l.record 64 32) with
    origin := !l.lookup.isEmpty && rectIndex l t == 0 }

/-- The messages that start a launch on a tile: one of class 0, or one for each gang member with
its index (R309). -/
def startMsgs (l : Launch) (slot t : Nat) : List Trigger :=
  if l.gang then l.members.map (fun m => { launchMsg l slot t with
    member := some m, payload := sliceB l.record 64 32 ++ bytesLE 8 m })
  else [launchMsg l slot t]

/-- The launch messages of every tile of the rectangle (R327, R366). The tile's own interface is their
source: each scheduler takes the launch from the control plane, which meets the data plane there (R26;
DESIGN CHOICE, log 60). -/
def sendStart (s : State) (l : Launch) (slot : Nat) : State :=
  (rectTiles l).foldl (fun s t => (startMsgs l slot t).foldl (fun s m => sendWork s t t .none slot (.msg m)) s) s

/-- PI and CI of a gang's RCBs become 0 at its admission (R309). -/
def clearPipes (s : State) (l : Launch) (t : Nat) : State :=
  (List.range 4).foldl (fun s p =>
    let w := natAt l.desc (208 + 8 * p) 8
    if w.testBit 63 && inScratch (nfld w 0 17 * 16) 32 then
      homeWrite s (keyScratch t (nfld w 0 17 * 16 + 8)) (List.replicate 16 0)
    else s) s

/-- GANG_ADMIT (R53): `who` is the launch slot. Every tile's contexts are reserved in one step. -/
def tryGangAdmit (s : State) : Option State :=
  let slot := s.ev.who
  match s.launch slot with
  | none => none
  | some l =>
    if l.state != .admission then none
    else
      let ts := rectTiles l
      let got := ts.map (fun t => (t, gangOn s l t))
      if got.all (fun e => e.2.isSome) then
        let s1 := got.foldl (fun (s : State) (e : Nat × Option (List Nat)) =>
          (clearPipes s l e.1).modTile e.1 (fun x => { x with
            reserved := x.reserved ++ (e.2.getD []).map (fun g => (g, slot)) })) s
        some (sendStart (s1.setLaunch slot { l with state := .running }) l slot)
      else none

/-- GANG_ADMIT (R53). -/
def execGangAdmit (s : State) : Outcome State Fault Refusal := eventStep tryGangAdmit s

/-! ### Joined tasks (R311) -/

/-- The subtraction that a joined task's end makes: COUNT in [31:0], FLT in [32]. -/
def joinSub (w : Nat) (flt : Bool) : Nat :=
  let n := nfld w 0 32
  let f := w.testBit 32 || flt || n == 0
  (n - 1) + 2 ^ 32 * f.toNat

/-- TASK_JOIN_SUBTRACT (R311): `who` is the tile of the activation. It waits until everything the
activation released has been performed. A counter in the table area or in a guarded granule is abandoned (R256,
R369). -/
def tryTaskJoinSubtract (s : State) : Option State :=
  let t := s.ev.who
  match (s.tile t).joinSubs.zipIdx.find? (fun (e : (Nat × Nat × Bool × Nat) × Nat) =>
      s.pkts.all (fun p => p.2.owner != .act e.1.2.2.2)) with
  | none => none
  | some ((home, off, flt, _), i) =>
    let k := keyScratch home off
    let s1 := s.modTile t (fun x => { x with joinSubs := dropAt x.joinSubs i })
    if !inScratch off 8 || guarded s k 8 then some (logAt s1 8 Cause.abandon.code home 0 off 0xE5)
    else some (inherit (homeWrite s1 k (bytesLE 8 (joinSub (natLE (visRead s1 k 8)) flt))))

/-- TASK_JOIN_SUBTRACT (R311). -/
def execTaskJoinSubtract (s : State) : Outcome State Fault Refusal := eventStep tryTaskJoinSubtract s

/-! ### Stacks (R141) -/

/-- After a page is mapped, the pacer reads again the elements that met the guard page (R348). -/
def rereadStack (v : Vector Stream 8) : Vector Stream 8 :=
  v.map (fun r =>
    let q := r.queue.takeWhile (fun e => match e.2 with
      | some (code, _) => code != 0x09
      | none => true)
    { r with queue := q, fetched := r.fetched - (r.queue.length - q.length) })

/-- STACK_GROW_SERVICE (R141): `who` is the context. A guard page below the reservation is not mapped. -/
def tryStackGrowService (s : State) : Option State :=
  let g := s.ev.who
  let c := s.ctx g
  match c.st, c.waiting with
  | .wait, .stackGrow a =>
    if c.mapped < c.stackPages then
      some (s.modCtx g (fun c => { c with
        st := .run, waiting := .none, mapped := c.mapped + 1, streams := rereadStack c.streams }))
    else some (endFault s g ⟨Cause.page.code, c.pc, a, 0, c.sys⟩ c.pc)
  | _, _ => none

/-- STACK_GROW_SERVICE (R141). -/
def execStackGrowService (s : State) : Outcome State Fault Refusal := eventStep tryStackGrowService s

end Sys2Proof.Machine
end

