-- ==== Sys2Proof/Machine/Home.lean ====
section
/-! DEFINITION. What a home performs (R284, R285): held stores and atomics, guard bits, messages,
join and dependence counters, deques, byte rings, launch queues and barriers. -/

namespace Sys2Proof.Machine

open Host (Outcome)

/-! ### The items at a home's interface (R286, R362) -/

/-- The packets at a home that are to be performed, in arrival order. -/
def inboxAt (s : State) (home : Nat) : List (Nat × Packet) :=
  s.inbox.filterMap (fun e => if e.1 = home then (s.pkt e.2).map (fun p => (e.2, p)) else none)

/-- Item `i` of a home, if no earlier item of its source stands before it (R286). -/
def item (s : State) (home i : Nat) : Option (Nat × Packet) :=
  let l := inboxAt s home
  match l[i]? with
  | some (id, p) => if (l.take i).any (fun e => e.2.src == p.src) then none else some (id, p)
  | none => none

/-- The packets that have come to a home and are not performed: those early for their pair (R362), then those in
SEQ order. -/
def arrivedAt (s : State) (home : Nat) : List (Nat × Packet) :=
  s.pkts.filter (fun e => e.2.dst == home && (e.2.place == .early || e.2.place == .inbox))

/-- Takes a packet out of the inbox of its home. -/
def dequeue (s : State) (id : Nat) : State := { s with inbox := s.inbox.filter (fun e => e.2 != id) }

/-- The item's unit takes it: later packets of its pair may be performed. -/
def handOver (s : State) (id : Nat) : State :=
  match s.pkt id with
  | some p => (dequeue s id).setPkt id { p with place := .done }
  | none => s

/-- The ACK of a performed packet, with the failure it reports, at the interface of the home (R361). -/
def ackPkt (s : State) (id : Nat) (fail : Option (Nat × Nat)) : State :=
  match s.pkt id with
  | some p => { s with answers := s.answers ++ [⟨true, p.dst, p.src, id, fail, false, .sender⟩] }
  | none => s

/-- The item is performed and acknowledged. -/
def finish (s : State) (id : Nat) (fail : Option (Nat × Nat)) : State := ackPkt (handOver s id) id fail

/-- The barrier that a home's work names for its report. -/
def Work.reportsTo : Work → Option Bar
  | .decz _ _ b => b
  | .ringPut p => p.bar
  | .launchRec w => w.bar
  | .cswap w => w.bar
  | _ => none

/-- The home's arrival check (R294): whether it refuses a packet for its generation. -/
def pktStale (s : State) (p : Packet) : Bool := staleAt s p.dst p.tag

/-- A stale effect is rejected with STALE_GEN and performs nothing; the barrier that it names learns of
it (R294). -/
def rejectStale (s : State) (id : Nat) (p : Packet) : State :=
  sendArrival (finish s id (some (2, 0))) p.dst p.lslot p.work.reportsTo true 2 0

/-! ### Errors that a home meets (R254) -/

/-- What an uncorrectable error that a unit finds does, by the owner tag of its line (R254). -/
def poisonFound (s : State) (k : Nat) : State :=
  let tag := ownerTag s k
  let t := homeTile k
  match tag / 1024 % 4 with
  | 1 =>
    let g := 16 * t + tag % 16
    let c := s.ctx g
    if c.st = .free then s
    else endKilled s g (endingBy s g .uncorrectable)
  | 2 => logAt s 0x0C Cause.uncorrectable.code t (tag % 1024) k 0
  | 3 => logAt s 0x0C Cause.uncorrectable.code t 0 k 0
  | _ =>
    let u := if isVault k then 32 else 16
    let b := k / u * u
    if poisoned s b u then
      let s1 := clearPoison s b u
      { s1 with mem := memClear s1.mem b u }
    else s

/-- The first poisoned unit of `n` bytes from a key, or the key. -/
def badUnit (s : State) (k n : Nat) : Nat :=
  match ((s.tile (homeTile k)).poison.find? (fun e => overlaps (16 * e.1) 16 k n)) with
  | some e => 16 * e.1
  | none => k

/-- A home unit reads `n` scratchpad bytes; an uncorrectable error is logged with what the unit
was doing, and R254 applies to the word that holds it (R398). -/
def homeRead (s : State) (t off n what : Nat) : State × Option (List Byte) :=
  let k := keyScratch t off
  let (s1, bad) := unitRead s k n
  if bad then (poisonFound (logAt s1 0x0C Cause.uncorrectable.code t 0 off what) (badUnit s k n), none)
  else (s1, some (visRead s1 k n))

/-! ### Stores, atomics and guard bits -/

/-- Every copy of an activation touches a guarded byte (R256). -/
def touchAct (s : State) (act ea off : Nat) : State :=
  { s with ctxs := s.ctxs.map (fun (e : Nat × Ctx) =>
      if e.2.act = act ∧ act ≠ 0 then (e.1, e.2.touchGuard ea off) else e) }

/-- The activation that a packet's owner names. -/
def Owner.actOf : Owner → Nat
  | .act n => n
  | _ => 0

/-- The rest of a store whose first packet is item `i` of a home, once it has come: the next packet of its pair. -/
def restOf (s : State) (home : Nat) (id : Nat) (p : Packet) : Option (Nat × List Byte) :=
  ((inboxAt s home).filter (fun e => e.2.src == p.src && e.1 != id)).head?.bind (fun e => match e.2.work with
    | .store _ _ b _ false => if e.2.effect = p.effect then some (e.1, b) else none
    | _ => none)

/-- A store of `bs`, which the packets `ids` bring, at its home (R284, R294, R256): all its bytes at once
(R443). -/
def storeAll (s : State) (p : Packet) (k ea : Nat) (bs : List Byte) (tag : GenTag) (ids : List Nat) : Option State :=
  let all := fun (s : State) (fail : Option (Nat × Nat)) => ids.foldl (fun s id => finish s id fail) s
  if stalledOver s k bs.length then none
  else if staleAt s s.ev.who tag then some (all s (some (2, 0)))
  else if pageOff s k then some (all s (some (1, 0)))
  else if guarded s k bs.length then some (all (touchAct s p.owner.actOf ea (keyOff k)) none)
  else some (all (performStore s k bs p.owner.actOf) none)

/-- STORE_PERFORM (R284, R294, R256): `who` is the home, `idx` its item. An engine's write goes to
the array (R292). A packet that carries poison is reported (R26). -/
def tryStorePerform (s : State) : Option State :=
  match item s s.ev.who s.ev.idx with
  | none => none
  | some (id, p) =>
    match p.work with
    | .store k ea bs tag false => storeAll s p k ea bs tag [id]
    | .store k ea bs tag true =>
      match restOf s s.ev.who id p with
      | some (id2, b2) => storeAll s p k ea (bs ++ b2) tag [id, id2]
      | none => none
    | .engWrite k bs tag =>
      if stalledOver s k bs.length then none
      else if staleAt s s.ev.who tag then some (finish s id (some (2, 0)))
      else if pageOff s k || guarded s k bs.length then some (finish s id (some (1, 0)))
      else
        let s1 := if 2 ^ 60 ≤ k then { s with mem := memWrite s.mem k bs } else engWrite s k bs
        some (finish (if p.poison then
          logAt (setPoison s1 k bs.length) 0x0C Cause.uncorrectable.code s.ev.who p.lslot k 0 else s1) id none)
    | .outWrite parts tag =>
      if parts.any (fun w => stalledOver s w.1 w.2.length) then none
      else if staleAt s s.ev.who tag then some (finish s id (some (2, 0)))
      else if parts.any (fun w => pageOff s w.1 || guarded s w.1 w.2.length) then some (finish s id (some (1, 0)))
      else
        let s1 := parts.foldl (fun (s : State) (w : Nat × List Byte) =>
          if 2 ^ 60 ≤ w.1 then { s with mem := memWrite s.mem w.1 w.2 }
          else
            let s1 := engWrite s w.1 w.2
            if p.poison then setPoison s1 w.1 w.2.length else s1) s
        some (finish (if p.poison then
          logAt s1 0x0C Cause.uncorrectable.code s.ev.who p.lslot ((parts.map (fun w => w.1)).headD 0) 0 else s1) id none)
    | .nothing => some (finish s id none)
    | _ => none

/-- STORE_PERFORM (R284). -/
def execStorePerform (s : State) : Outcome State Fault Refusal := eventStep tryStorePerform s

/-- The request of a local atomic of `w` bytes as its reply names it. -/
def atomicReq (op w key tile ctx act : Nat) : RemoteReq :=
  { opc := op, modf := 3 - Nat.log2 w, ctl := 0, key := key, tag := none, tile := tile, ctx := ctx, act := act,
    l := none, lp := none, bar := none, v := 0, data := [], time := 0, pkt := 0 }

/-- The old value of an atomic, extended (R266). -/
def oldValue (signed : Bool) (w : Nat) (bs : List Byte) : Word := intPush signed (8 * w) (natLE bs)

/-- A wait of a packet on a row that is being retired is counted once (R267, R278). -/
def holdForRow (s : State) (t id k : Nat) : Option State :=
  match s.pkt id with
  | some p => if rowBusy s k && !p.held then some (countEvent (s.setPkt id { p with held := true }) t 0) else none
  | none => none

/-- LOCAL_ATOMIC_PERFORM (R267): the old value returns in a reply. -/
def tryLocalAtomicPerform (s : State) : Option State :=
  match item s s.ev.who s.ev.idx with
  | none => none
  | some (id, p) =>
    match p.work with
    | .atomic k op w sg b c tag ctx act =>
      let rep := fun (s : State) (status : Nat) (v : Word) (bad : Bool) =>
        sendWork (finish s id none) s.ev.who p.src .none p.lslot
          (.reply ⟨atomicReq op w k p.src ctx act, status, (if status = 0 then 1 else 0), 0, [], [], v, true, bad⟩)
      if stalled s k then holdForRow s s.ev.who id k
      else if staleAt s s.ev.who tag then some (rep s 2 0 false)
      else if pageOff s k then some (rep s 1 0 false)
      else if guarded s k w then
        some (rep (touchAct s act (keyOff k) (keyOff k)) 0 (oldValue sg w (Config.freeBytes s.fresh k w)) false)
      else
        let (s1, bad) := unitRead s k w
        if bad then some (rep s1 0 0 true)
        else
          let old := visRead s1 k w
          some (rep (performStore s1 k (bytesLE w (atomicNew op (8 * w) sg (natLE old) b.toNat c.toNat)) act) 0
            (oldValue sg w old) false)
    | _ => none

/-- LOCAL_ATOMIC_PERFORM (R267). -/
def execLocalAtomicPerform (s : State) : Outcome State Fault Refusal := eventStep tryLocalAtomicPerform s

/-- GUARD_BITS_PERFORM (R282). -/
def tryGuardBitsPerform (s : State) : Option State :=
  match item s s.ev.who s.ev.idx with
  | none => none
  | some (id, p) =>
    match p.work with
    | .guardBits set gr =>
      if pktStale s p then some (rejectStale s id p)
      else some (finish (s.modTile s.ev.who (fun x => { x with
        guardBits := storePuts false x.guardBits (gr.map (fun i => (i, set))) })) id none)
    | _ => none

/-- GUARD_BITS_PERFORM (R282). -/
def execGuardBitsPerform (s : State) : Outcome State Fault Refusal := eventStep tryGuardBitsPerform s

/-- WRITE_MERGE_DRAIN (R443): the oldest performed store of a home drains whole. -/
def execWriteMergeDrain (s : State) : Outcome State Fault Refusal :=
  eventStep (fun s => drainOne s s.ev.who) s

/-! ### Messages (R301) -/

/-- Whether a message's launch starts an activation for it (R301, R376). -/
def hasHandler (s : State) (m : Trigger) : Bool :=
  match s.launch m.lslot with
  | some l => m.member.isSome || ((l.handler m.cls).testBit 63 && !(m.cls == 0 && l.gang))
  | none => false

/-- MESSAGE_ARRIVAL (R301): the message takes a free arrival slot, or is dropped and logged. A message that
goes back to its queue comes first (R41). -/
def tryMessageArrival (s : State) : Option State :=
  let t := s.ev.who
  match takeBack (s.tile t) .msg with
  | some x => some (s.setTile t x)
  | none =>
  match item s t s.ev.idx with
  | none => none
  | some (id, p) =>
    match p.work with
    | .msg m =>
      if pktStale s p then some (rejectStale s id p)
      else if !hasHandler s m then some (finish (logAt s 3 0 t m.lslot p.src m.cls) id none)
      else if 256 ≤ (s.tile t).arrival.length then none
      else
        let pri := classPri s m.cls
        some (finish (s.modTile t (fun x => { x with
          arrival := x.arrival ++ [{ m with pri := pri, eff := pri, time := s.cycle, passes := 0 }] })) id none)
    | _ => none

/-- MESSAGE_ARRIVAL (R301). -/
def execMessageArrival (s : State) : Outcome State Fault Refusal := eventStep tryMessageArrival s

/-! ### Join counters, deques and codelets (R311-R313, R52) -/

/-- A join counter after an addition (R311). -/
def joinInc (w : Nat) : Nat := (nfld w 0 32 + 1) % 2 ^ 32 + 2 ^ 32 * nfld w 32 1

/-- Whether the engines of a home abandon an operation on `n` scratchpad bytes: they reach the table area or a
guarded granule (R256, R369). -/
def homeRefuses (s : State) (t off n : Nat) : Bool := !inScratch off n || guarded s (keyScratch t off) n

/-- JOIN_COUNT_ADD (R311). The record goes to its deque once the source has the ACK. A counter in the table
area or in a guarded granule is abandoned (R256, R369). -/
def tryJoinCountAdd (s : State) : Option State :=
  match item s s.ev.who s.ev.idx with
  | none => none
  | some (id, p) =>
    match p.work with
    | .joinAdd off _ _ =>
      if pktStale s p then some (rejectStale s id p)
      else if homeRefuses s s.ev.who off 8 then some (finish (logAt s 8 Cause.abandon.code s.ev.who p.lslot off 0xE4) id (some (1, 0)))
      else
      match homeRead s s.ev.who off 8 0xE4 with
      | (s1, none) => some (finish s1 id (some (4, 0)))
      | (s1, some b) =>
        some (finish (homeWrite s1 (keyScratch s.ev.who off) (bytesLE 8 (joinInc (natLE b)))) id none)
    | _ => none

/-- JOIN_COUNT_ADD (R311). -/
def execJoinCountAdd (s : State) : Outcome State Fault Refusal := eventStep tryJoinCountAdd s

/-- DEQUE_PUSH (R313): a record that goes back to its deque comes first (R41), then a push that waits at
the scheduler; a push that finds no room waits there, at most 16 of them. It is performed, and later
packets of its pair with it, when the record enters the deque (R284, R286). -/
def tryDequePush (s : State) : Option State :=
  let t := s.ev.who
  let x := s.tile t
  match takeBack x .task, x.pushWait.find? (fun e => hasRoom x e.1) with
  | some y, _ => some (inherit (s.setTile t y))
  | none, some (tr, id) =>
    some (finish (inherit (s.modTile t (fun x => { pushRecord x tr s.cycle with
      pushWait := x.pushWait.filter (fun e => e.2 != id) }))) id none)
  | none, none =>
    match item s t s.ev.idx with
    | none => none
    | some (id, p) =>
      match p.work with
      | .task tr =>
        if pktStale s p then some (rejectStale s id p)
        else if hasRoom x tr then some (finish (inherit (s.modTile t (fun x => pushRecord x tr s.cycle))) id none)
        else if x.pushWait.length < 16 && !x.pushWait.any (fun e => e.2 == id) then
          some (inherit (s.modTile t (fun x => { x with pushWait := x.pushWait ++ [(tr, id)] })))
        else none
      | _ => none

/-- DEQUE_PUSH (R313). -/
def execDequePush (s : State) : Outcome State Fault Refusal := eventStep tryDequePush s

/-- Whether a DECZ on the block at an offset that arrived before item `i` is still to be performed (R52). -/
def deczBefore (s : State) (t off i : Nat) : Bool :=
  ((inboxAt s t).take i).any (fun (e : Nat × Packet) => match e.2.work with
    | .decz o _ _ => o == off
    | _ => false)

/-- DECZ_PERFORM (R52, R322): the counter that reaches 0 pushes its block onto the ready ring. DECZ
operations on one counter are performed in arrival order. A counter in the table area or in a guarded granule
is abandoned (R256, R369). -/
def tryDeczPerform (s : State) : Option State :=
  let t := s.ev.who
  match item s t s.ev.idx with
  | none => none
  | some (id, p) =>
    match p.work with
    | .decz off lslot bar =>
      if deczBefore s t off s.ev.idx then none
      else if pktStale s p then some (rejectStale s id p)
      else if !inScratch off 48 || guarded s (keyScratch t off) 4 then
        some (sendArrival (finish (logAt s 8 Cause.abandon.code t lslot off 0xE7) id none) t lslot bar true 1 0)
      else
        match homeRead s t off 4 0xE7 with
        | (s1, none) => some (sendArrival (finish s1 id none) t lslot bar true 4 0)
        | (s1, some b) =>
          let n := natLE b
          if n = 0 then some (sendArrival (finish s1 id none) t lslot bar true 1 0)
          else if n = 1 ∧ 512 ≤ (s.tile t).ready.length then none
          else
            let s2 := homeWrite s1 (keyScratch t off) (bytesLE 4 (n - 1))
            let s3 := if n = 1 then s2.modTile t (fun x => { x with ready := x.ready ++ [(off / 16, lslot)] })
              else s2
            some (sendArrival (finish s3 id none) t lslot bar false 0 0)
    | _ => none

/-- DECZ_PERFORM (R52). -/
def execDeczPerform (s : State) : Outcome State Fault Refusal := eventStep tryDeczPerform s

/-- READY_RING_CONVERT (R312): the card as it stands becomes a record of the DECZ's launch. -/
def tryReadyRingConvert (s : State) : Option State :=
  let t := s.ev.who
  match (s.tile t).ready with
  | [] => none
  | (blk, lslot) :: r =>
    match homeRead s t (16 * blk + 16) 32 0xE7 with
    | (s1, none) => some (s1.modTile t (fun x => { x with ready := r }))
    | (s1, some card) =>
      let tr := cardTrigger card lslot
      match tr.join with
      | some (home, off) =>
        some (sendWork (s1.modTile t (fun x => { x with ready := r })) t home .none lslot (.joinAdd off tr t))
      | none =>
        if hasRoom (s.tile t) tr then
          some (inherit (s1.modTile t (fun x => { pushRecord x tr s.cycle with ready := r })))
        else none

/-- READY_RING_CONVERT (R312). -/
def execReadyRingConvert (s : State) : Outcome State Fault Refusal := eventStep tryReadyRingConvert s

/-! ### Byte rings (R304-R307) -/

/-- What the ring port can do with a put. -/
inductive PutResult where
  | written (s : State)
  | hold
  | reject (s : State)

/-- The writes of a record at a count: its header, data and zero fill. -/
def ringRecord (r : Rcb) (pi : Nat) (p : Put) : Nat × List Byte :=
  (r.base + pi % r.size, padTo (recSize (p.hdr % 65536)) (bytesLE 4 p.hdr ++ p.data))

/-- The ring port on one put (R306). One that would write a guarded granule is abandoned (R256). -/
def ringPut (s : State) (t : Nat) (p : Put) : PutResult :=
  if homeRefuses s t p.rcb 32 then .reject s
  else
    match homeRead s t p.rcb 32 0xE8 with
    | (s1, none) => .reject s1
    | (s1, some b) =>
      match rcbOf b with
      | none => .reject s1
      | some r =>
        let sz := recSize (p.hdr % 65536)
        let o := r.pi % r.size
        let pad := if r.size < o + sz then r.size - o else 0
        let used := (r.pi + 2 ^ 64 - r.ci) % 2 ^ 64
        let at_ := keyScratch t (ringRecord r (r.pi + pad) p).1
        if r.size < used + pad + sz then .hold
        else if (pad != 0 && guarded s (keyScratch t (r.base + o)) 4) || guarded s at_ sz then .reject s1
        else
          let s2 := if pad = 0 then s1 else homeWrite s1 (keyScratch t (r.base + o)) (bytesLE 4 (pad - 4))
          let pi := r.pi + pad
          let w := ringRecord r pi p
          let s3 := homeWrite s2 (keyScratch t w.1) w.2
          .written (homeWrite s3 (keyScratch t (p.rcb + 8)) (bytesLE 8 (pi + sz)))

/-- A put that meets a malformed RCB is rejected (R304); without a barrier the log reports it
(R414). -/
def rejectPut (s : State) (t : Nat) (p : Put) : State :=
  let s1 := if p.bar.isNone then logAt s 8 Cause.abandon.code t p.lslot p.rcb 0xE8 else s
  sendArrival s1 t p.lslot p.bar true 1 0

/-- An abandoned packet performs nothing: one in SEQ order leaves the inbox and is acknowledged; an early one keeps
its place in the order of its pair, and is acknowledged when its turn comes (R362). -/
def abandonPkt (s : State) (id : Nat) : State :=
  match s.pkt id with
  | some p => if p.place = .early then s.setPkt id { p with work := .nothing } else finish s id none
  | none => s

/-- An abandoned put (R307). -/
def abandonPut (s : State) (t : Nat) (p : Put) : State :=
  sendArrival (logAt s 8 Cause.abandon.code t p.lslot p.rcb 0xE8) t p.lslot p.bar true 1 0

/-- Whether a put to the ring at an offset that arrived before item `i` is neither performed nor at the port
(R308). -/
def putBefore (s : State) (t rcb i : Nat) : Bool :=
  ((inboxAt s t).take i).any (fun (e : Nat × Packet) => match e.2.work with
    | .ringPut u => u.rcb == rcb && !(s.tile t).puts.any (fun h => h.pkt == e.1)
    | _ => false)

/-- RING_PUT_PERFORM (R306-R308): puts to one ring are taken in the order of their arrival. A put that does not fit waits at the port, behind the ring's
earlier ones; the port holds at most 16. It is performed when it is written (R284), and later packets of
its pair after it (R286). -/
def tryRingPutPerform (s : State) : Option State :=
  let t := s.ev.who
  let x := s.tile t
  match item s t s.ev.idx with
  | none => none
  | some (id, p) =>
    match p.work with
    | .ringPut u =>
      let hold := if x.puts.length < 16 then
          some (s.modTile t (fun x => { x with puts := x.puts ++ [{ u with time := p.since, pkt := id }] }))
        else none
      if x.puts.any (fun e => e.pkt == id) || putBefore s t u.rcb s.ev.idx then none
      else if pktStale s p then some (rejectStale s id p)
      else if x.puts.any (fun e => e.rcb == u.rcb) then hold
      else
        match ringPut s t u with
        | .written s1 => some (sendArrival (finish s1 id none) t u.lslot u.bar false 0 0)
        | .reject s1 => some (rejectPut (finish s1 id none) t u)
        | .hold => hold
    | _ => none

/-- RING_PUT_PERFORM (R306). -/
def execRingPutPerform (s : State) : Outcome State Fault Refusal := eventStep tryRingPutPerform s

/-- Retries held puts in order; a ring whose put still does not fit is passed over. The flag says
that some put left the port. -/
def retryPuts (s : State) (t : Nat) : List Put → List Nat → State × List Put × Bool
  | [], _ => (s, [], false)
  | p :: r, blocked =>
    if blocked.contains p.rcb then
      let (s1, l, b) := retryPuts s t r blocked
      (s1, p :: l, b)
    else
      match ringPut s t p with
      | .hold =>
        let (s1, l, b) := retryPuts s t r (p.rcb :: blocked)
        (s1, p :: l, b)
      | .written s1 =>
        let (s2, l, _) := retryPuts (sendArrival (finish s1 p.pkt none) t p.lslot p.bar false 0 0) t r blocked
        (s2, l, true)
      | .reject s1 =>
        let (s2, l, _) := retryPuts (rejectPut (finish s1 p.pkt none) t p) t r blocked
        (s2, l, true)

/-- RING_PUT_RETRY (R307): `who` is the tile. -/
def tryRingPutRetry (s : State) : Option State :=
  let t := s.ev.who
  match retryPuts s t (s.tile t).puts [] with
  | (s1, l, true) => some (s1.modTile t (fun x => { x with puts := l }))
  | _ => none

/-- RING_PUT_RETRY (R307). -/
def execRingPutRetry (s : State) : Outcome State Fault Refusal := eventStep tryRingPutRetry s

/-- The ring puts that wait in the interface of a tile, also for an earlier packet of their pair. -/
def waitingPuts (s : State) (t : Nat) : List (Nat × Put) :=
  (arrivedAt s t).filterMap (fun e => match e.2.work with
    | .ringPut u => if (s.tile t).puts.any (fun h => h.pkt == e.1) then none else some (e.1, u)
    | _ => none)

/-- RING_PUT_ABANDON (R307): `idx` counts the held puts and then those in the interface. -/
def tryRingPutAbandon (s : State) : Option State :=
  let t := s.ev.who
  let held := (s.tile t).puts
  match held[s.ev.idx]? with
  | some p =>
    some (abandonPut (abandonPkt (s.modTile t (fun x => { x with puts := dropAt x.puts s.ev.idx })) p.pkt) t p)
  | none =>
    match (waitingPuts s t)[s.ev.idx - held.length]? with
    | some (id, u) => some (abandonPut (abandonPkt s id) t u)
    | none => none

/-- RING_PUT_ABANDON (R307). -/
def execRingPutAbandon (s : State) : Outcome State Fault Refusal := eventStep tryRingPutAbandon s

/-! ### Launch queues at their writers (R325, R326) -/

/-- The key of slot `i` of a launch queue. -/
def slotKey (q : LaunchQueue) (i : Nat) : Nat :=
  let o := q.off + 128 * (i % 64)
  keyVault q.tile (o / 65536) (o % 65536)

/-- Replaces queue `k`. -/
def setQueue (s : State) (k : Nat) (q : LaunchQueue) : State := { s with queues := s.queues.set k q }

/-- Whether the next slot of a queue may be written: the record 64 before it has its STATUS, and neither an
exchange nor a repair holds the slot (R246, R249). -/
def slotFree (s : State) (q : LaunchQueue) : Bool :=
  !stalledOver s (slotKey q q.writeIdx) 128 && (decide (q.writeIdx < 64) || natLE (visRead s (slotKey q q.writeIdx + 126) 1) != 0)

/-- Writes a record into the next slot, STATUS 0 and VALID last. -/
def writeRecord (s : State) (k : Nat) (q : LaunchQueue) (w : LaunchWrite) : State :=
  let i := q.writeIdx
  let a := slotKey q i
  let s1 := homeWrite s a (padTo 127 (w.bytes.take 126))
  let s2 := homeWrite s1 (a + 127) (bytesLE 1 (i % 255 + 1))
  setQueue s2 k { q with
    writeIdx := i + 1
    bars := match w.bar with
      | some b => q.bars ++ [(i, b)]
      | none => q.bars }

/-- The items of a queue's home that carry records for queue `k` and do not wait at its port. -/
def recordItems (s : State) (q : LaunchQueue) (k : Nat) : List (Nat × LaunchWrite × Nat) :=
  (inboxAt s q.tile).zipIdx.filterMap (fun (e : (Nat × Packet) × Nat) => match e.1.2.work with
    | .launchRec w => if w.queue = k && !q.held.any (fun h => h.pkt == e.1.1) then some (e.1.1, { w with time := e.1.2.since, pkt := e.1.1 }, e.2) else none
    | _ => none)

/-- The records for queue `k` that wait at the interface of its home for an earlier packet of their pair. -/
def earlyRecords (s : State) (q : LaunchQueue) (k : Nat) : List (Nat × LaunchWrite) :=
  (arrivedAt s q.tile).filterMap (fun e => match e.2.work with
    | .launchRec w => if e.2.place = .early ∧ w.queue = k then some (e.1, w) else none
    | _ => none)

/-- LAUNCH_QUEUE_WRITE (R325): `who` is the queue; `idx` selects among the records in the
interface. The writes that wait at the port go first. -/
def tryLaunchQueueWrite (s : State) : Option State :=
  let k := s.ev.who
  match s.queues[k]? with
  | none => none
  | some q =>
    match q.held with
    | w :: r =>
      if slotFree s q then some (finish (writeRecord s k { q with held := r } w) w.pkt none) else none
    | [] =>
      match (recordItems s q k)[s.ev.idx]? with
      | none => none
      | some (id, w, i) =>
        match item s q.tile i with
        | none => none
        | some (_, p) =>
          if pktStale s p then some (rejectStale s id p)
          else if slotFree s q then some (finish (writeRecord s k q w) id none)
          else some (setQueue s k { q with held := [w] })

/-- LAUNCH_QUEUE_WRITE (R325): beyond the first, records that find no free slot join those that
wait at the port, at most 16. -/
def tryLaunchHold (s : State) : Option State :=
  let k := s.ev.who
  match s.queues[k]? with
  | none => none
  | some q =>
    match (recordItems s q k)[s.ev.idx]? with
    | none => none
    | some (_, w, i) =>
      if (match item s q.tile i with
          | some (_, p) => !pktStale s p
          | none => false) && !q.held.isEmpty && decide (q.held.length < 16) && !slotFree s q then
        some (setQueue s k { q with held := q.held ++ [w] })
      else none

/-- LAUNCH_QUEUE_WRITE (R325). -/
def execLaunchQueueWrite (s : State) : Outcome State Fault Refusal :=
  eventStep (fun s => (tryLaunchQueueWrite s).or (tryLaunchHold s)) s

/-- An abandoned LAUNCH write: its barrier and the log learn of it (R325). -/
def abandonWrite (s : State) (k : Nat) (q : LaunchQueue) (w : LaunchWrite) : State :=
  sendArrival (logAt s 8 Cause.abandon.code q.tile 0 k 0xF7) q.tile 0 w.bar true 1 0

/-- LAUNCH_WRITE_ABANDON (R325): `idx` counts the writes at the port, then those in the interface, and then those
that wait there for an earlier packet. -/
def tryLaunchWriteAbandon (s : State) : Option State :=
  let k := s.ev.who
  match s.queues[k]? with
  | none => none
  | some q =>
    match q.held[s.ev.idx]? with
    | some w =>
      some (abandonWrite (finish (setQueue s k { q with held := dropAt q.held s.ev.idx }) w.pkt none) k q w)
    | none =>
      match (recordItems s q k)[s.ev.idx - q.held.length]? with
      | some (id, w, _) => some (abandonWrite (finish s id none) k q w)
      | none =>
        match (earlyRecords s q k)[s.ev.idx - q.held.length - (recordItems s q k).length]? with
        | some (id, w) => some (abandonWrite (abandonPkt s id) k q w)
        | none => none

/-- LAUNCH_WRITE_ABANDON (R325). -/
def execLaunchWriteAbandon (s : State) : Outcome State Fault Refusal := eventStep tryLaunchWriteAbandon s

/-! ### The barrier unit (R397, R398, R401) -/

/-- A barrier's fields (R397). -/
structure BarVal where
  phase : Nat
  arr : Nat
  sect : Nat
  load : Nat
  flt : Bool
  code : Nat
  aband : Nat
  deriving DecidableEq, Repr

/-- The fields of 128 bits. -/
def barVal (w : Nat) : BarVal :=
  ⟨nfld w 0 4, nfld w 4 20, nfld w 24 32, nfld w 56 20, w.testBit 76, nfld w 77 3, nfld w 80 24⟩

/-- The 128 bits of the fields; the reserved bits are zero. -/
def barBits (v : BarVal) : Nat :=
  v.phase % 16 + 2 ^ 4 * v.arr + 2 ^ 24 * v.sect + 2 ^ 56 * v.load + 2 ^ 76 * v.flt.toNat +
    2 ^ 77 * (v.code % 8) + 2 ^ 80 * v.aband

/-- The fault report of an update. -/
def BarVal.report (v : BarVal) (flt : Bool) (cls ab : Nat) : BarVal :=
  if flt then { v with flt := true, code := if v.code = 0 then cls else v.code,
                       aband := min (v.aband + ab) (2 ^ 24 - 1) }
  else v

/-- check(): a phase completes when ARR and SECT are both 0. -/
def BarVal.check (v : BarVal) : BarVal × Bool :=
  if v.arr = 0 ∧ v.sect = 0 then ({ v with phase := (v.phase + 1) % 16, arr := v.load }, true) else (v, false)

/-- arrival(n, flt, cls, ab). -/
def BarVal.arrival (v : BarVal) (n : Nat) (flt : Bool) (cls ab : Nat) : BarVal × Bool :=
  if v.arr < n then ({ v with flt := true, code := if v.code = 0 then 1 else v.code }, false)
  else (BarVal.report { v with arr := v.arr - n } flt cls ab).check

/-- sectors(k, flt, cls, ab): `k` is the signed change. -/
def BarVal.sectors (v : BarVal) (k : Int) (flt : Bool) (cls ab : Nat) : BarVal × Bool :=
  (BarVal.report { v with sect := wrapInt 32 ((v.sect : Int) + k) } flt cls ab).check

/-- The barrier that a STREAM command names as RBAR (R334). -/
def Copy.rbar (c : Copy) : Nat := natAt c.ext 48 4 % 2 ^ 17 * 16

/-- Tells an outrider of a completed phase of the barrier at an offset (R340). -/
def notifyOut (x : Tile) (off : Nat) : Tile :=
  { x with out := { x.out with cmds := x.out.cmds.map (fun c =>
      if natAt c.head 0 1 = 2 ∧ c.rbar = off then { c with freed := c.freed + 1 } else c) } }

/-- One update of a barrier, indivisible (R398). An update that meets an uncorrectable error, or
that names the table area or a guarded granule, is not performed (R256). -/
def barUpdate (s : State) (t off what : Nat) (f : BarVal → BarVal × Bool) : State :=
  if homeRefuses s t off 16 then logAt s 8 Cause.abandon.code t 0 off what
  else
    match homeRead s t off 16 what with
    | (s1, none) => s1
    | (s1, some b) =>
      let (v, done) := f (barVal (natLE b))
      let s2 := homeWrite s1 (keyScratch t off) (bytesLE 16 (barBits v))
      if done then s2.modTile t (fun x => notifyOut x off) else s2

/-- The CODE by which an entry names a sector completion, which no opcode makes (DESIGN CHOICE, log 63). -/
def sectorCode : Nat := 0x100

/-- A home item that the barrier unit performs. -/
def barItem (f : State → Nat → Work → Option State) (s : State) : Option State :=
  match item s s.ev.who s.ev.idx with
  | none => none
  | some (id, p) => (f s s.ev.who p.work).map (fun s1 =>
      if pktStale s p then rejectStale s id p else finish s1 id none)

/-- BARRIER_ARRIVAL (R398). -/
def execBarrierArrival (s : State) : Outcome State Fault Refusal :=
  eventStep (barItem (fun s t w => match w with
    | .arrival off n flt cls ab => some (barUpdate s t off 0xEE (fun v => v.arrival n flt cls ab))
    | _ => none)) s

/-- SECTOR_COMPLETION (R398, R275). -/
def execSectorCompletion (s : State) : Outcome State Fault Refusal :=
  eventStep (barItem (fun s t w => match w with
    | .sectors off k flt cls ab => some (barUpdate s t off sectorCode (fun v => v.sectors (-(k : Int)) flt cls ab))
    | _ => none)) s

/-- TBINIT's new value: PHASE stays (R401). -/
def BarVal.init (v : BarVal) (n : Nat) : BarVal := ⟨v.phase, n, 0, n, false, 0, 0⟩

/-- TBINIT_PERFORM (R401). -/
def execTbinitPerform (s : State) : Outcome State Fault Refusal :=
  eventStep (barItem (fun s t w => match w with
    | .tbinit off n => some (barUpdate s t off 0xED (fun v => (v.init n, false)))
    | _ => none)) s

/-- TBEXP_PERFORM (R401): the sectors that the bytes make. -/
def execTbexpPerform (s : State) : Outcome State Fault Refusal :=
  eventStep (barItem (fun s t w => match w with
    | .tbexp off n => some (barUpdate s t off 0xEF (fun v => v.sectors (((n + 31) / 32 : Nat) : Int) false 0 0))
    | _ => none)) s

end Sys2Proof.Machine
end

