-- ==== Sys2Proof/Machine/Agent.lean ====
section
/-! DEFINITION. The vault agent, and the host bridges and Xaold ports in its place: remote reads,
writes, reductions and block forms (R269-R278), and the arrival of replies at the issuer. -/

namespace Sys2Proof.Machine

open Host (Outcome)

/-! ### Fields of a request (R276) -/

/-- W of the word forms, in bytes. -/
def RemoteReq.wBytes (r : RemoteReq) : Nat := 8 / 2 ^ (r.modf % 4)
/-- Whether the word is signed. -/
def RemoteReq.isSigned (r : RemoteReq) : Bool := r.modf.testBit 2
/-- SAT. -/
def RemoteReq.sat (r : RemoteReq) : Bool := r.modf.testBit 3
/-- OP of the element forms (R272). -/
def RemoteReq.op (r : RemoteReq) : Nat := nfld r.ctl 12 4
/-- TYPE. -/
def RemoteReq.ty (r : RemoteReq) : Nat := nfld r.ctl 8 4
/-- RET. -/
def RemoteReq.ret (r : RemoteReq) : Bool := r.ctl.testBit 7
/-- The count of elements or sectors. -/
def RemoteReq.count (r : RemoteReq) : Nat := r.ctl % 128 + 1
/-- Bytes of an element. -/
def RemoteReq.elem (r : RemoteReq) : Nat := (rTypeSize r.ty).getD 1

/-- The bytes at R that a request touches. -/
def RemoteReq.span (r : RemoteReq) : Nat :=
  match r.opc with
  | 0xD1 | 0xD2 | 0xD4 => r.count * r.elem
  | 0xDA | 0xDB => 32 * r.count
  | _ => r.wBytes

/-- The 32-byte sectors that `n` bytes from a key touch. -/
def sectorsOf (k n : Nat) : Nat := (k + n + 31) / 32 - k / 32

/-! ### Element arithmetic (R272, R274) -/

/-- The number format of a TYPE, if it is a floating-point one. -/
def typeFmt : Nat → Option Fmt
  | 0 => some .fp32
  | 3 => some .bf16
  | 4 => some .fp16
  | _ => none

/-- Whether an integer TYPE is signed. -/
def typeSigned (ty : Nat) : Bool := ty == 1 || ty == 5 || ty == 9 || ty == 11

/-- The bits of an integer as its TYPE reads them. -/
def typeInt (ty w v : Nat) : Int := if typeSigned ty then sint w v else (v % 2 ^ w : Nat)

/-- An exact sum clamped to the range of a TYPE. -/
def clampType (ty w : Nat) (i : Int) : Int :=
  let lo : Int := if typeSigned ty then -(2 ^ (w - 1) : Nat) else 0
  let hi : Int := if typeSigned ty then (2 ^ (w - 1) : Nat) - 1 else (2 ^ w : Nat) - 1
  if i < lo then lo else if hi < i then hi else i

/-- op(a, b) on `w` bits of an integer TYPE. -/
def intOp (op ty w : Nat) (sat : Bool) (a b : Nat) : Nat :=
  let x := typeInt ty w a
  let y := typeInt ty w b
  match op with
  | 0 => wrapInt w (if sat then clampType ty w (x + y) else x + y)
  | 1 => if y < x then b else a
  | 2 => if x < y then b else a
  | 3 => a &&& b
  | 4 => a ||| b
  | 5 => a ^^^ b
  | _ => b

/-- op(a, b) on codes of a floating-point TYPE. -/
def fpOp (op : Nat) (F : Fmt) (a b : Nat) : Nat :=
  match op with
  | 0 => (round F (addV .rne (decodeFmt F a) (decodeFmt F b)) .rne false).code
  | 1 => (minMax F false a b).1
  | 2 => (minMax F true a b).1
  | _ => b

/-- op(R[k], L[k]) (R272, R274). -/
def elemOp (op ty w : Nat) (sat : Bool) (a b : Nat) : Nat :=
  match typeFmt ty with
  | some F => fpOp op F a b
  | none => intOp op ty w sat a b

/-- RSAX's element: one rounding (R271). -/
def saxElem (ty alpha a b : Nat) : Nat :=
  match typeFmt ty with
  | some F => (round F (fmaV .rne (decodeFmt .fp32 alpha) (decodeFmt F a) (decodeFmt F b)) .rne false).code
  | none => b

/-! ### Replies -/

/-- Where a request's launch is known: its packet. -/
def lslotOf (s : State) (id : Nat) : Nat :=
  match s.pkt id with
  | some p => p.lslot
  | none => 0

/-- Sends a reply (R276); a failure of a non-blocking form is logged (R278). -/
def agentReply (s : State) (home : Nat) (rep : Reply) : State :=
  let r := rep.req
  let s1 := if r.nb && rep.status != 0 then
      logAt s 8 (0x30 + rep.status) (if home < 1024 then home else r.tile) (lslotOf s r.pkt) r.key r.opc
    else s
  sendWork s1 home r.tile .none (lslotOf s r.pkt) (.reply rep)

/-- A reply of which nothing is performed. -/
def rejectReq (s : State) (home : Nat) (r : RemoteReq) (status : Nat) : State :=
  agentReply s home ⟨r, status, 0, sectorsOf r.key r.span, [], [], 0, true, false⟩

/-! ### Performing one operation -/

/-- The bytes at R, with the elements that an uncorrectable error covers. An armed injection fires
once; with DBL it makes the first element uncorrectable. -/
def readElems (s : State) (r : RemoteReq) (e n : Nat) : State × List Nat × List Nat :=
  let inj := injRead s r.key
  let s1 := if inj then injFire s (homeTile r.key) r.key else s
  let bad := (List.range n).filter (fun j => poisoned s (r.key + e * j) e || (inj && injDbl s && j == 0))
  let bs := visRead s r.key (e * n)
  (touchPage s1 r.key (e * n), (List.range n).map (fun j => natAt bs (e * j) e), bad)

/-- Writes the elements that are not bad, into the array (R292): together where all are good. -/
def writeElems (s : State) (r : RemoteReq) (e : Nat) (vals bad : List Nat) : State :=
  if bad.isEmpty then arrayStore s r.key (vals.flatMap (bytesLE e)) r.act
  else
    vals.zipIdx.foldl (fun (s : State) (v : Nat × Nat) =>
      if bad.contains v.2 then s else arrayStore s (r.key + e * v.2) (bytesLE e v.1) r.act) s

/-- The sectors of elements that were not performed. -/
def badSectors (k e : Nat) (bad : List Nat) : Nat := ((bad.map (fun j => (k + e * j) / 32)).dedup).length

/-- What an element operation gives at L: the old values of the elements performed from offset
`o`, and the offsets of words to poison (R278). -/
def retWrites (o e : Nat) (old bad : List Nat) : List (Nat × List Byte) × List Nat :=
  if bad.isEmpty then ([(o, old.flatMap (bytesLE e))], [])
  else
    ((old.zipIdx.filter (fun (v : Nat × Nat) => !bad.contains v.2)).map (fun (v : Nat × Nat) => (o + e * v.2, bytesLE e v.1)),
      bad.map (fun j => o + e * j))

/-- An element operation on `n` elements of `e` bytes: `f` gives each new value from its index and
its old one; `o` is the offset from L of the old values, if they return (R271, R277). -/
def performElems (s : State) (home : Nat) (r : RemoteReq) (e n : Nat) (f : Nat → Nat → Nat) (o : Option Nat)
    (value : Nat → Word) : State :=
  let (s1, old, bad) := readElems s r e n
  let s2 := writeElems s1 r e (old.zipIdx.map (fun (v : Nat × Nat) => f v.2 v.1)) bad
  let back := match o with
    | some o => retWrites o e old bad
    | none => ([], [])
  agentReply s2 home ⟨r, if bad.isEmpty then 0 else 4, n - bad.length, badSectors r.key e bad, back.1, back.2,
    (if bad.isEmpty then value (old.headD 0) else 0), true, false⟩

/-- RLD at the home: a poisoned sector's error goes to a blocking form's context (R278). -/
def performRld (s : State) (home : Nat) (r : RemoteReq) : State :=
  let w := r.wBytes
  let (s1, old, bad) := readElems s r w 1
  let v := old.headD 0
  if bad.isEmpty then
    agentReply s1 home ⟨r, 0, 1, 0, (if r.nb then [(0, bytesLE w v)] else []), [],
      intPush r.isSigned (8 * w) v, true, false⟩
  else if r.nb then agentReply s1 home ⟨r, 4, 0, 1, [], [0], 0, true, false⟩
  else agentReply s1 home ⟨r, 0, 0, 0, [], [], 0, true, true⟩

/-- RST at the home. -/
def performRst (s : State) (home : Nat) (r : RemoteReq) : State :=
  agentReply (arrayStore s r.key (bytesLE r.wBytes r.v.toNat) r.act) home ⟨r, 0, 1, 0, [], [], 0, true, false⟩

/-- RRED at the home. -/
def performRred (s : State) (home : Nat) (r : RemoteReq) : State :=
  let e := r.elem
  performElems s home r e r.count (fun j a => elemOp r.op r.ty (8 * e) r.sat a (natAt r.data (e * j) e))
    (if r.ret then some 0 else none) (fun _ => 0)

/-- RCAS at the home (R271): the NB form takes {expected, new} from its data. -/
def performRcas (s : State) (home : Nat) (r : RemoteReq) : State :=
  let w := r.wBytes
  let expd := if r.nb then natAt r.data 0 w else r.v.toNat % 2 ^ (8 * w)
  let new := natAt r.data (if r.nb then 8 else 0) w
  performElems s home r w 1 (fun _ a => if a = expd then new else a) (if r.nb then some 0 else none)
    (fun a => intPush r.isSigned (8 * w) a)

/-- RSAX at the home. -/
def performRsax (s : State) (home : Nat) (r : RemoteReq) : State :=
  let e := r.elem
  performElems s home r e r.count (fun j a => saxElem r.ty (r.v.toNat % 2 ^ 32) a (natAt r.data (e * j) e))
    (if r.ret then some 8 else none) (fun _ => 0)

/-! ### Ranked reductions (R273) -/

/-- Rank and rank count of a contribution. -/
def RemoteReq.rank (r : RemoteReq) : Nat := fld r.v 0 16
/-- The rank count n. -/
def RemoteReq.ranks (r : RemoteReq) : Nat := fld r.v 16 16

/-- Whether a contribution meets an entry in R and OP. -/
def Ranked.meets (e : Ranked) (r : RemoteReq) : Bool := e.key == r.key && e.opc == r.op
/-- Whether it meets the whole key and brings a new rank. -/
def Ranked.takes (e : Ranked) (r : RemoteReq) : Bool :=
  e.ty == r.ty && e.sat == r.sat && e.count == r.count && e.n == r.ranks && !e.got.any (fun c => c.1 == r.rank)

/-- The entry that a first contribution opens. -/
def Ranked.opened (r : RemoteReq) (now : Nat) : Ranked :=
  ⟨r.key, r.op, r.ty, r.sat, r.count, r.ranks, now, []⟩

/-- The contributions in rank order. -/
def Ranked.ordered (e : Ranked) : List RemoteReq :=
  (List.range e.n).filterMap (fun k => (e.got.find? (fun c => c.1 == k)).map (·.2))

/-- acc := R[j], then each contribution in rank order. -/
def Ranked.combine (e : Ranked) (es : Nat) (j acc : Nat) : Nat :=
  e.ordered.foldl (fun acc c => elemOp e.opc e.ty (8 * es) e.sat acc (natAt c.data (es * j) es)) acc

/-- A complete entry: R is written indivisibly, and every contributor completes. -/
def completeRanked (s : State) (home : Nat) (e : Ranked) (r : RemoteReq) : State :=
  let es := r.elem
  let (s1, old, bad) := readElems s r es e.count
  let s2 := writeElems s1 r es (old.zipIdx.map (fun (v : Nat × Nat) => e.combine es v.2 v.1)) bad
  e.ordered.foldl (fun s c => finish (agentReply s home
    ⟨c, if bad.isEmpty then 0 else 4, e.count - bad.length, badSectors r.key es bad, [], [], 0, true, false⟩) c.pkt none) s2

/-- Closes an entry: every contribution it holds is rejected. -/
def closeRanked (s : State) (home : Nat) (e : Ranked) : State :=
  e.ordered.foldl (fun s c => finish (rejectReq s home c 1) c.pkt none) s

/-- The entry after a contribution, with its place in the list; `none` where it is rejected. -/
def rankedWith (l : List Ranked) (r : RemoteReq) (now : Nat) : Option (Nat × Ranked) :=
  match l.findIdx? (·.meets r) with
  | some i =>
    match l[i]? with
    | some e => if e.takes r then some (i, { e with got := e.got ++ [(r.rank, r)] }) else none
    | none => none
  | none => if l.length < 16 then
      some (l.length, { Ranked.opened r now with got := [(r.rank, r)] }) else none

/-- A contribution reaches the agent, which holds it until its entry completes. It is performed then, and keeps its
place in the order of its pair so long (R273, R284, R286). -/
def performRanked (s : State) (home : Nat) (r : RemoteReq) : State :=
  let l := (s.tile home).ranked
  match rankedWith l r s.cycle with
  | none => finish (rejectReq s home r 1) r.pkt none
  | some (i, e) =>
    if e.got.length = e.n then completeRanked (s.modTile home (fun x => { x with ranked := dropAt l i })) home e r
    else s.modTile home (fun x => { x with ranked := l.take i ++ e :: l.drop (i + 1) })

/-- Whether a contribution would complete its entry, and so touch R. -/
def completes (s : State) (home : Nat) (r : RemoteReq) : Bool :=
  match rankedWith (s.tile home).ranked r s.cycle with
  | some (_, e) => e.got.length == e.n
  | none => false

/-! ### Block forms (R275, R277) -/

/-- One sector of RFILL or RLDB is performed; a poisoned sector that RLDB reads, or one that has
gone offline, is not. -/
def blockSector (s : State) (home : Nat) (o : AgentOp) : State × AgentOp × List (Nat × List Byte) :=
  let r := o.req
  let k := r.key + 32 * o.next
  let fail := fun (s : State) => (s, { o with next := o.next + 1, bad := o.bad ++ [o.next] }, ([] : List (Nat × List Byte)))
  if pageOff s k then fail s
  else if r.opc = 0xDA then
    let w := r.wBytes
    let s1 := arrayStore s k ((List.range (32 / w)).flatMap (fun _ => bytesLE w r.v.toNat)) r.act
    let s2 := match r.bar with
      | some b => sendWork s1 home b.tile .none (lslotOf s1 r.pkt) (.sectors b.off 1 false 0 0)
      | none => s1
    (s2, { o with next := o.next + 1, perf := o.perf + 1 }, [])
  else
    let (s1, bad) := unitRead s k 32
    if bad then fail s1
    else (touchPage s1 k 32, { o with next := o.next + 1, perf := o.perf + 1 }, [(32 * o.next, visRead s1 k 32)])

/-- The status of a block form at its end: POISON where RLDB met an error, ABANDON otherwise. -/
def blockStatus (s : State) (o : AgentOp) : Nat :=
  if o.bad.isEmpty then 0
  else if o.req.opc = 0xDB && o.bad.all (fun j => !pageOff s (o.req.key + 32 * j)) then 4 else 1

/-- One step of a block form: a sector, and the reply it makes. -/
def blockStep (s : State) (home : Nat) (o : AgentOp) : State :=
  let (s1, o1, lw) := blockSector s home o
  let r := o.req
  if o1.next < r.count then
    let s2 := if lw.isEmpty then s1 else agentReply s1 home ⟨r, 0, o1.perf, 0, lw, [], 0, false, false⟩
    s2.modTile home (fun x => { x with agent := some o1 })
  else
    let st := blockStatus s1 o1
    let pz := if st = 4 then o1.bad.flatMap (fun j => [32 * j, 32 * j + 16]) else []
    finish (agentReply (s1.modTile home (fun x => { x with agent := none })) home
      ⟨r, st, o1.perf, o1.bad.length, lw, pz, 0, true, false⟩) r.pkt none

/-! ### Service (R277, R278) -/

/-- The age rule of R363 on two headers. Where TS makes one the older and OLD the other, which R363 does not
settle, OLD decides (DESIGN CHOICE, log 90). -/
def Packet.older (a b : Packet) : Bool :=
  let d := (b.ts + 65536 - a.ts) % 65536
  if a.old = b.old then decide (1 ≤ d ∧ d ≤ 32767) else a.old

/-- Whether the agent holds a contribution, by its packet. -/
def heldRank (s : State) (home id : Nat) : Bool :=
  (s.tile home).ranked.any (fun e => e.got.any (fun c => c.2.pkt == id))

/-- Item `i` of a home as a request that the agent may take: no earlier item of its source stands before it, but
for contributions that the agent holds where it is one itself (DESIGN CHOICE, log 62). -/
def agentItem (s : State) (home i : Nat) : Option (Nat × Packet × RemoteReq) :=
  let l := inboxAt s home
  match l[i]? with
  | some (id, p) =>
    match p.work with
    | .remote r =>
      if heldRank s home id ||
          (l.take i).any (fun e => e.2.src == p.src && !(r.opc == 0xD2 && heldRank s home e.1)) then none
      else some (id, p, { r with pkt := id })
    | _ => none
  | none => none

/-- The requests that the agent may take. -/
def agentQueue (s : State) (home : Nat) : List (Nat × Packet × RemoteReq) :=
  (List.range (inboxAt s home).length).filterMap (agentItem s home)

/-- The oldest by the age rule; a tie goes to the one that entered first. -/
def oldestReq : List (Nat × Packet × RemoteReq) → Option (Nat × Packet × RemoteReq)
  | [] => none
  | e :: r => some (r.foldl (fun (a : Nat × Packet × RemoteReq) (b : Nat × Packet × RemoteReq) =>
      if b.2.1.older a.2.1 then b else a) e)

/-- Whether the touched row is being retired. -/
def rowHeld (s : State) (k n : Nat) : Bool := rowBusy s k || rowBusy s (k + n - 1)

/-- The operation waits at the head of the queue for the repair (R278). -/
def holdOp (s : State) (home : Nat) (o : AgentOp) : State :=
  countEvent (s.modTile home (fun x => { x with agent := some { o with remap := true } })) home 0

/-- Performs a request that passed its checks. Its packet leaves the interface when the whole of it is
performed, so that no later packet of its pair overtakes it (R286). -/
def performReq (s : State) (home : Nat) (r : RemoteReq) : State :=
  match r.opc with
  | 0xCF => finish (performRld s home r) r.pkt none
  | 0xD0 => finish (performRst s home r) r.pkt none
  | 0xD1 => finish (performRred s home r) r.pkt none
  | 0xD2 => performRanked s home r
  | 0xD3 => finish (performRcas s home r) r.pkt none
  | 0xD4 => finish (performRsax s home r) r.pkt none
  | _ => blockStep s home ⟨r, 0, 0, [], false⟩

/-- The bytes at R that the next step of a request touches. -/
def nextSpan (r : RemoteReq) : Nat := if r.opc = 0xDA ∨ r.opc = 0xDB then 32 else r.span

/-- Takes item `idx` of home `who`, which must be the request that R277 serves next, of opcode
`opc`. -/
def takeRequest (opc : Nat) (s : State) : Option State :=
  let home := s.ev.who
  match agentItem s home s.ev.idx, oldestReq (agentQueue s home) with
  | some (id, _, _), some (id', _, r) =>
    if id ≠ id' ∨ r.opc ≠ opc ∨ (s.tile home).agent.isSome then none
    else if staleAt s home r.tag then some (finish (rejectReq s home r 2) id none)
    else if pageOff s r.key then some (finish (rejectReq s home r 1) id none)
    else if opc = 0xD2 && !completes s home r then some (performReq s home r)
    else if rowHeld s r.key (nextSpan r) then some (holdOp s home ⟨r, 0, 0, [], false⟩)
    else if pageBusy s r.key then none
    else some (performReq s home r)
  | _, _ => none

/-- The next sector of the block form in progress. -/
def continueBlock (opc : Nat) (s : State) : Option State :=
  let home := s.ev.who
  match (s.tile home).agent with
  | some o =>
    if o.req.opc ≠ opc || o.remap then none
    else if rowHeld s (o.req.key + 32 * o.next) 32 then some (holdOp s home o)
    else if pageBusy s (o.req.key + 32 * o.next) then none
    else some (blockStep s home o)
  | none => none

/-- AGENT_RLD (R271): `who` is the home, `idx` its item. -/
def execAgentRld (s : State) : Outcome State Fault Refusal := eventStep (takeRequest 0xCF) s
/-- AGENT_RST (R271). -/
def execAgentRst (s : State) : Outcome State Fault Refusal := eventStep (takeRequest 0xD0) s
/-- AGENT_RRED (R274). -/
def execAgentRred (s : State) : Outcome State Fault Refusal := eventStep (takeRequest 0xD1) s
/-- AGENT_RRED_RK (R273). -/
def execAgentRredRk (s : State) : Outcome State Fault Refusal := eventStep (takeRequest 0xD2) s
/-- AGENT_RCAS (R271). -/
def execAgentRcas (s : State) : Outcome State Fault Refusal := eventStep (takeRequest 0xD3) s
/-- AGENT_RSAX (R271). -/
def execAgentRsax (s : State) : Outcome State Fault Refusal := eventStep (takeRequest 0xD4) s
/-- AGENT_RFILL (R271): one sector, of the operation in progress or of the next request. -/
def execAgentRfill (s : State) : Outcome State Fault Refusal :=
  eventStep (fun s => (continueBlock 0xDA s).or (takeRequest 0xDA s)) s
/-- AGENT_RLDB (R271): one sector, of the operation in progress or of the next request. -/
def execAgentRldb (s : State) : Outcome State Fault Refusal :=
  eventStep (fun s => (continueBlock 0xDB s).or (takeRequest 0xDB s)) s

/-- RRED_RK_EXPIRE (R273): `who` is the tile, `idx` the entry. -/
def tryRredRkExpire (s : State) : Option State :=
  let t := s.ev.who
  match (s.tile t).ranked[s.ev.idx]? with
  | some e => some (closeRanked (s.modTile t (fun x => { x with ranked := dropAt x.ranked s.ev.idx })) t e)
  | none => none

/-- RRED_RK_EXPIRE (R273). -/
def execRredRkExpire (s : State) : Outcome State Fault Refusal := eventStep tryRredRkExpire s

/-- AGENT_REMAP_RESUME (R278): the operation held for a row repair goes on once the remap is
complete. -/
def tryAgentRemapResume (s : State) : Option State :=
  let t := s.ev.who
  match (s.tile t).agent with
  | some o =>
    let k := o.req.key + (if nextSpan o.req = 32 then 32 * o.next else 0)
    if !o.remap || rowHeld s k (nextSpan o.req) || pageBusy s k then none
    else if o.req.opc = 0xDA ∨ o.req.opc = 0xDB then
      some (blockStep (s.modTile t (fun x => { x with agent := some { o with remap := false } })) t { o with remap := false })
    else some (performReq (s.modTile t (fun x => { x with agent := none })) t o.req)
  | none => none

/-- AGENT_REMAP_RESUME (R278). -/
def execAgentRemapResume (s : State) : Outcome State Fault Refusal := eventStep tryAgentRemapResume s

/-! ### Replies at the issuer (R275, R278) -/

/-- The places of L: the owning copy's, and the twin's own. -/
def RemoteReq.places (r : RemoteReq) : List Nat := r.l.toList ++ r.lp.toList

/-- Whether some write at L meets a guarded granule (R256). -/
def replyGuarded (s : State) (rep : Reply) : Bool :=
  rep.req.places.any (fun k => rep.lw.any (fun w => guarded s (k + w.1) w.2.length))

/-- Writes what a reply brings at L, as stores of the issuing activation that enter the write-merge path (R450),
and poisons the words it names. -/
def replyWrites (s : State) (rep : Reply) : State :=
  rep.req.places.foldl (fun s k =>
    rep.pz.foldl (fun s o => setPoison s ((k + o) / 16 * 16) 16)
      (rep.lw.foldl (fun (s : State) (w : Nat × List Byte) => performStore s (k + w.1) w.2 rep.req.act) s)) s

/-- Subtracts sectors at a barrier of the issuing tile. -/
def sendSectors (s : State) (src lslot : Nat) (bar : Option Bar) (k : Nat) (flt : Bool) (cls ab : Nat) : State :=
  match bar with
  | some b => if k = 0 then s else sendWork s src b.tile .none lslot (.sectors b.off k flt cls ab)
  | none => s

/-- What a non-blocking form's barrier learns from a reply. The sectors that a block form did not perform
are subtracted together, with its last reply (R275). -/
def replyBarrier (s : State) (t lslot : Nat) (rep : Reply) : State :=
  let r := rep.req
  let failed := fun (s : State) (n : Nat) => sendSectors s t lslot r.bar n true (if rep.status = 0 then 1 else rep.status) n
  if r.opc = 0xDB then
    let s1 := sendSectors s t lslot r.bar rep.lw.length false 0 0
    let n := tabGet 0 (s.tile t).refused r.pkt + rep.ab
    if rep.last then failed (s1.modTile t (fun x => { x with refused := tabDel x.refused r.pkt })) n
    else if rep.ab = 0 then s1
    else s1.modTile t (fun x => { x with refused := tabSet x.refused r.pkt n })
  else if r.opc = 0xDA then failed s rep.ab
  else if rep.last then sendArrival s t lslot r.bar (rep.status != 0) rep.status rep.ab
  else s

/-- The contexts that wait for the reply of an activation. -/
def awaiting (s : State) (act : Nat) : List Nat :=
  (s.ctxs.filter (fun (e : Nat × Ctx) => e.2.act == act && act != 0 && e.2.st == .wait &&
    (match e.2.waiting with
     | .reply _ => true
     | _ => false))).map (fun e => e.1)

/-- A waiting copy takes its reply: the value, any failure, and the rest of its bundle. -/
def answerCtx (s : State) (g home : Nat) (rep : Reply) : State :=
  match (s.ctx g).stage with
  | some st =>
    match st.acts with
    | .awaitReply slot wr :: rest =>
      let s1 := fillSlot s g slot wr rep.value
      let s2 := if rep.status = 0 then s1
        else s1.modCtx g (fun c => { c with fail := c.fail ++ [(rep.status, rep.perf, home)] })
      continueBundle s2 g rest
    | _ => s
  | none => s

/-- A reply whose writes at L are refused carries ABANDON. -/
def Reply.guard (rep : Reply) : Reply :=
  { rep with lw := [], status := if rep.status = 0 then 1 else rep.status, perf := 0,
             ab := rep.ab + (rep.lw.map (fun w => (w.2.length + 31) / 32)).sum }

/-- REPLY_ARRIVAL (R275): `who` is the issuing tile, `idx` its item. -/
def tryReplyArrival (s : State) : Option State :=
  match item s s.ev.who s.ev.idx with
  | none => none
  | some (id, p) =>
    match p.work with
    | .reply rep0 =>
      let t := s.ev.who
      let bad := replyGuarded s rep0
      let rep := if bad then rep0.guard else rep0
      let refused := bad || tabGet 0 (s.tile t).refused rep.req.pkt != 0
      let s0 := if refused && rep.req.nb && rep.last then logAt s 8 Cause.abandon.code t p.lslot (rep.req.l.getD 0) rep.req.opc else s
      let s1 := replyWrites (finish s0 id none) rep
      if rep.req.nb then some (replyBarrier s1 t p.lslot rep)
      else if !rep.last then
        some (if rep.status = 0 then s1 else (awaiting s1 rep.req.act).foldl (fun s g =>
          s.modCtx g (fun c => { c with fail := c.fail ++ [(rep.status, rep.perf, p.src)] })) s1)
      else
        match awaiting s1 rep.req.act with
        | [] => some s1
        | g :: r =>
          if rep.poison then some (consumePoison s1 g)
          else some ((g :: r).foldl (fun s g => answerCtx s g p.src rep) s1)
    | _ => none

/-- REPLY_ARRIVAL (R275). -/
def execReplyArrival (s : State) : Outcome State Fault Refusal := eventStep tryReplyArrival s

end Sys2Proof.Machine
end

