-- ==== Sys2Proof/Machine/Reports.lean ====
section
/-! DEFINITION. What the engines report: the arrivals of matrix commands (R219) once their writes are
performed, and how an engine reads and writes memory (R224, R280, R292, R337). -/

namespace Sys2Proof.Machine

/-! ### Reports of the matrix unit (R219) -/

/-- CODE of an entry that names a matrix command: its opcode, issuing context and issuing tile. -/
def MatCmd.logCode (c : MatCmd) : Nat := c.opc + c.ctx * 2 ^ 8 + tileField c.tile * 2 ^ 16

/-- One completion report of a command: an arrival, or an entry where there is no barrier and the
command failed. -/
def matArrive (s : State) (t : Nat) (c : MatCmd) (cls ab : Nat) : State :=
  if c.bar.isSome then sendArrival s t c.lslot c.bar (cls != 0) cls ab
  else if cls = 0 then s
  else logAt s 8 (0x30 + cls) t c.lslot c.route.toNat c.logCode

/-- Whether a write of a matrix command is under way. -/
def matBusy (s : State) (t id : Nat) : Bool := s.pkts.any (fun (e : Nat × Packet) => e.2.owner == .matrix t id)

/-- A command whose steps are done reports at once, or when its last write at another home is
performed: ABAND is `ab` sectors and those that were refused (R296). -/
def matDone (s : State) (t id : Nat) (c : MatCmd) (cls ab : Nat) (refused : List Nat) : State :=
  if matBusy s t id then
    s.modTile t (fun x => { x with matrix := { x.matrix with
      pending := x.matrix.pending ++ [(id, c, cls, ab, refused)] } })
  else matArrive s t c cls (ab + refused.length)

/-- The commands of a tile whose last write has been performed report. -/
def settleMatrix (s : State) (t : Nat) : State :=
  let ready := (s.tile t).matrix.pending.filter (fun (e : Nat × MatCmd × Nat × Nat × List Nat) => !matBusy s t e.1)
  ready.foldl (fun (s : State) (e : Nat × MatCmd × Nat × Nat × List Nat) =>
      matArrive s t e.2.1 e.2.2.1 (e.2.2.2.1 + e.2.2.2.2.length))
    (s.modTile t (fun x => { x with matrix := { x.matrix with
      pending := x.matrix.pending.filter (fun (e : Nat × MatCmd × Nat × Nat × List Nat) => matBusy s t e.1) } }))

/-! ### Engine access to memory -/

/-- A piece of an engine's access that lies in one 128-byte granule: where it is and how long. -/
structure Piece where
  loc : Loc
  len : Nat
  deriving DecidableEq, Repr

/-- The pieces of `n` bytes at an address of an engine of tile `t`; `none` where some byte lies in no
space that it may reach. -/
def pieces (s : State) (t asid : Nat) (write far : Bool) : Nat → Nat → Nat → Option (List Piece)
  | 0, _, _ => none
  | fuel + 1, va, n =>
    if n = 0 then some []
    else
      let k := min n (128 - va % 128)
      match engineLoc s t asid va write far with
      | none => none
      | some l => (pieces s t asid write far fuel (va + k) (n - k)).map (fun r => ⟨l, k⟩ :: r)

/-- The pieces of `n` bytes, for accesses of up to 16 KiB. -/
def engPieces (s : State) (t asid va n : Nat) (write far : Bool) : Option (List Piece) :=
  pieces s t asid write far 130 (va % 2 ^ 64) n

/-- Whether a piece's page is being exchanged. -/
def piecesWait (s : State) (l : List Piece) : Bool := l.any (fun p => pageBusy s p.loc.key)
/-- Whether a piece touches a row that is being retired. -/
def piecesRow (s : State) (l : List Piece) : Bool := l.any (fun p => rowBusy s p.loc.key)
/-- Whether some home refuses the generation of an access. -/
def piecesStale (s : State) (l : List Piece) (tag : GenTag) : Bool := l.any (fun p => staleAt s p.loc.home tag)

/-- What an engine reads: the array (R280), and whether it met an uncorrectable error. -/
def readPieces (s : State) : List Piece → State × List Byte × Bool
  | [] => (s, [], false)
  | p :: r =>
    let (s1, bad) := unitRead s p.loc.key p.len
    let b := engRead s1 p.loc.key p.len
    let (s2, rest, bad2) := readPieces (touchPage s1 p.loc.key p.len) r
    (s2, b ++ rest, bad || bad2)

/-- The sectors that `n` bytes from a key or an address touch. -/
def sectorRange (k n : Nat) : List Nat := (List.range (sectorsOf k n)).map (fun i => k / 32 + i)

/-- Writes bytes to pieces: at the engine's own tile at once, elsewhere by packets that `owner`
awaits. The list names the sectors that guarded granules refuse (R256). -/
def writePieces (s : State) (t : Nat) (owner : Owner) (lslot : Nat) (tag : GenTag) :
    List Piece → List Byte → State × List Nat
  | [], _ => (s, [])
  | p :: r, b =>
    let now := b.take p.len
    let rest := b.drop p.len
    if p.loc.home = t then
      if guarded s p.loc.key p.len then
        let (s1, l) := writePieces s t owner lslot tag r rest
        (s1, sectorRange p.loc.key p.len ++ l)
      else writePieces (engWrite s p.loc.key now) t owner lslot tag r rest
    else writePieces (sendWork s t p.loc.home owner lslot (.engWrite p.loc.key now tag)) t owner lslot tag r rest

end Sys2Proof.Machine
end

