-- ==== Sys2Proof/Machine/Fabric.lean ====
section
/-! DEFINITION. The fabric (R350-R364): injection, the rounds with their escape channels, the Clos,
arrival in SEQ order, ACK, NACK and the loss of a packet (R404). -/

namespace Sys2Proof.Machine

open Host (Outcome)

/-! ### Headers and leaves -/

/-- Units of the age clock that TS counts (R350, R351). -/
def ageNow (s : State) : Nat := s.cycle / 64 % 65536

/-- The header word of a packet (R350). -/
def headerWord (p : Packet) : Nat :=
  let ssvc := decide (1024 ≤ p.src)
  let dsvc := decide (1024 ≤ p.dst)
  let rel := fun (d x : Nat) => wrapInt 6 (if ssvc then (d : Int) else (d : Int) - x)
  let dx := if dsvc then p.dst % 16 else rel (tileX p.dst) (tileX p.src)
  let dy := if dsvc then 0 else rel (tileY p.dst) (tileY p.src)
  p.cls % 16 + (flitsOf p.len - 1) % 8 * 2 ^ 7 + dsvc.toNat * 2 ^ 23 + dx * 2 ^ 24 + dy * 2 ^ 32 +
  ssvc.toNat * 2 ^ 47 + (if ssvc then p.src % 1024 else tileX p.src) * 2 ^ 48 +
  (if ssvc then 0 else tileY p.src) * 2 ^ 53 + p.lslot % 1024 * 2 ^ 70 + p.len * 2 ^ 80 +
  p.poison.toNat * 2 ^ 88 + p.resent.toNat * 2 ^ 89 + p.old.toNat * 2 ^ 90 + p.seq * 2 ^ 96 + p.ts * 2 ^ 112

/-- What a router accepts of a header word: reserved fields zero, a KIND that exists, and FLITS that agrees
with LEN (R350). -/
def headerOk (w : Nat) : Bool :=
  nfld w 4 3 == 0 && nfld w 10 2 != 3 && nfld w 12 11 == 0 && nfld w 30 2 == 0 && nfld w 38 9 == 0 &&
  nfld w 58 12 == 0 && nfld w 91 5 == 0 && nfld w 7 3 == flitsOf (nfld w 80 8) - 1

/-- Whether a class is urgent (R365, R375). -/
def urgent (s : State) (cls : Nat) : Bool := (s.routes.getD cls 0).getLsbD 3

/-- The leaf of an endpoint: pod, edge and port (R358). -/
def leafOf (e : Nat) : Nat × Nat × Nat :=
  if e < 1024 then (stackOf e, clusterOf e / 8 % 8 / 2, 4 * (clusterOf e / 8 % 2) + clusterOf e % 4)
  else (4, e / 8 % 2, e % 8)

/-- Whether a packet stays inside one cluster, and so travels a round. -/
def Packet.local? (p : Packet) : Bool :=
  decide (p.src < 1024 ∧ p.dst < 1024) && clusterOf p.src == clusterOf p.dst

/-- Marks a header that lies far behind the age clock (R363). -/
def Packet.aged (s : State) (p : Packet) : Packet :=
  { p with old := p.old || decide (16384 ≤ (ageNow s + 65536 - p.ts) % 65536) }

/-- The age rule of R363 as a router applies it to two headers: it sets OLD in a header first. -/
def olderNow (s : State) (a b : Packet) : Bool := (a.aged s).older (b.aged s)

/-- All flits of a packet at one place. -/
def Packet.allAt (p : Packet) (x : FlitPos) : Packet := { p with flits := p.flits.map (fun _ => x) }

/-- A packet is discarded at endpoint `src` or, with another `place`, in a switch: its NACK goes to its
source from there (R355, R356, R362, R364, R425). -/
def loseAt (s : State) (id src : Nat) (place : AnsPlace) (noEject : Bool) : State :=
  match s.pkt id with
  | some p =>
    { s with
      answers := s.answers ++ [(⟨false, src, p.src, id, none, noEject, place⟩ : Answer)]
      inbox := s.inbox.filter (fun e => e.2 != id) }.setPkt id { p.allAt .source with place := .lost }
  | none => s

/-- Where the NACK of a packet that is discarded where it stands begins. -/
def Packet.nackPlace (p : Packet) : AnsPlace :=
  match p.place with
  | .clos l pod i inp => .clos l pod i inp
  | .source => .here
  | _ => .sender

/-- A packet is discarded where it stands, `at_` being the endpoint whose stop that is. -/
def lose (s : State) (id at_ : Nat) (noEject : Bool) : State :=
  match s.pkt id with
  | some p => loseAt s id at_ p.nackPlace noEject
  | none => s

/-- Whether a message takes one of its destination's arrival slots already. -/
def Packet.takesSlot (p : Packet) : Bool :=
  match p.place with
  | .ejected | .early | .inbox => true
  | .round _ none => p.flits.headD .source == .ejected
  | _ => false

/-- Whether the destination's interface can take a packet now: a message of classes 0-13 needs a
free arrival slot (R355, R301). A Xaold port whose link is down takes none (R425). -/
def canEject (s : State) (p : Packet) : Bool :=
  if 1032 ≤ p.dst ∧ s.mgmt.portDown.contains (p.dst % 8) then false
  else if p.cls < 14 then
    decide ((s.tile p.dst).arrival.length + (s.pkts.filter (fun (e : Nat × Packet) =>
      e.2.dst == p.dst && decide (e.2.cls < 14) && e.2.takesSlot)).length < 256)
  else true

/-! ### Links (R360, R425, R429) -/

/-- The number of a link: of a round by cluster, stop and direction; from a leaf to its edge; from
an edge to a middle and from a middle to a top. -/
def roundLink (cl st : Nat) (cw : Bool) : Nat := cl * 16 + st * 2 + cw.toNat
/-- From a leaf to its edge switch. -/
def leafLink (e : Nat) : Nat := 20000 + e
/-- From an edge to a middle. -/
def edgeLink (pod e k : Nat) : Nat := 4000 + (pod * 4 + e) * 8 + k
/-- From a middle to a top. -/
def topLink (pod k j : Nat) : Nat := 5000 + (pod * 8 + k) * 4 + j

/-- From a top to a middle. -/
def topDown (k j pod : Nat) : Nat := 6000 + (k * 4 + j) * 5 + pod
/-- From a middle to an edge. -/
def edgeDown (pod k e : Nat) : Nat := 7000 + (pod * 8 + k) * 4 + e
/-- From an edge switch to an endpoint. -/
def leafDown (e : Nat) : Nat := 8000 + e
/-- Of an escape channel, by cluster, stop and direction. -/
def escLink (cl st : Nat) (cw : Bool) : Nat := 11000 + cl * 16 + st * 2 + cw.toNat
/-- Of an acknowledgement ring. -/
def ackLink (cl st : Nat) (cw : Bool) : Nat := 14000 + cl * 16 + st * 2 + cw.toNat

/-- What the crossing of a link gives: it is down; the flit has failed and is sent again; it has failed for
the last time, and the link goes down; it has come through. -/
inductive Cross where
  | down
  | retry (s : State)
  | broken (s : State)
  | ok (s : State)

/-- Flit `who` crosses a link that leaves tile `t` (1,024 and above where no tile is there). An armed
injection spoils it, or an error does that comes from outside (`flag` of the event); the link sends it
again up to 8 times (R360). -/
def crossFlit (s : State) (link t who : Nat) : Cross :=
  let key := 100 + link
  let inj := decide (t < 1024) && injHits s 3 (tileX t) (tileY t)
  if s.deadLinks.contains link then .down
  else if inj || s.ev.flag then
    let s1 := if inj then injFire s t link else s
    let old := tabGet 0 s1.mgmt.replays key
    let n := (if old / 16 = who then old % 16 else 0) + 1
    if n ≤ 8 then
      .retry { s1 with mgmt := { s1.mgmt with replays := tabSet s1.mgmt.replays key (16 * who + n) } }
    else
      .broken (logAt { s1 with
        deadLinks := link :: s1.deadLinks
        mgmt := { s1.mgmt with replays := tabDel s1.mgmt.replays key } } 9 0 (t % 1024) 0 link 0)
  else .ok { s with mgmt := { s.mgmt with replays := tabDel s.mgmt.replays key } }

/-- Flit `i` of packet `id` crosses a link. `none` where the link is down; the flag says that it came
through. Where the link goes down the packet is NACKed (R425). -/
def crossLink (s : State) (link t id i : Nat) : Option (State × Bool) :=
  match crossFlit s link t (8 * id + i) with
  | .down => none
  | .retry s1 => some (s1, false)
  | .broken s1 => some (lose s1 id t false, false)
  | .ok s1 => some (s1, true)

/-- Whether the header that a router receives is malformed: `val` of the event gives the bits that an
error outside has inverted (R350). -/
def badHeader (s : State) (p : Packet) : Bool := s.ev.val != 0 && !headerOk (headerWord p ^^^ s.ev.val)

/-- A router discards a packet with a malformed header and reports it; the source sends it again (R350). -/
def discardBad (s : State) (id : Nat) (p : Packet) (at_ : Nat) : State :=
  let w := headerWord p ^^^ s.ev.val
  lose (logAt s 4 0 (at_ % 1024) p.lslot (w % 2 ^ 64) (w / 2 ^ 64 % 2 ^ 64)) id at_ false

/-! ### The round (R352-R356) -/

/-- The next stop in a direction. -/
def stopNext (cw : Bool) (st : Nat) : Nat := if cw then (st + 1) % 8 else (st + 7) % 8
/-- How far a stop is along a direction. -/
def stopDist (cw : Bool) (a b : Nat) : Nat := if cw then (b + 8 - a) % 8 else (a + 8 - b) % 8

/-- The direction of a packet (R352). -/
def dirOf (s : State) (p : Packet) : Bool :=
  match fld (s.routes.getD p.cls 0) 4 2 with
  | 1 => true
  | 2 => false
  | _ => decide ((stopOf p.dst + 8 - stopOf p.src) % 8 ≤ 4)

/-- The VC of a packet at a stop: VC1 beyond the dateline (R353). -/
def vcAt (p : Packet) (cw : Bool) (st : Nat) : Nat :=
  if cw then (if st < stopOf p.src then 1 else 0) else (if stopOf p.src < st then 1 else 0)

/-- The packets on one direction of a round. -/
def onRound (s : State) (cl : Nat) (cw : Bool) : List (Nat × Packet) :=
  s.pkts.filter (fun (e : Nat × Packet) => match e.2.place with
    | .round c _ => c == cw && clusterOf e.2.src == cl
    | _ => false)

/-- Flit slots taken in the shared pool of a stop. -/
def poolUsed (l : List (Nat × Packet)) (st : Nat) : Nat :=
  (l.map (fun (e : Nat × Packet) => (e.2.flits.filter (fun f => match f with
    | .pool x _ => x == st
    | _ => false)).length)).sum

/-- Flits in the escape slots of a stop. -/
def escUsed (l : List (Nat × Packet)) (st : Nat) : Nat :=
  (l.map (fun (e : Nat × Packet) => (e.2.flits.filter (fun f => f == .escape st)).length)).sum

/-- How far along its path a flit has come in the shared channel; `none` once it has left it. -/
def flitDist (p : Packet) (cw : Bool) : FlitPos → Option Nat
  | .pool st _ => some (stopDist cw (stopOf p.src) st + 1)
  | .source => some 0
  | _ => none

/-- Whether a packet holds its VC at a stop: its header has come there and its tail has not left. At its
destination only a header that waits to eject holds one (R440). -/
def holdsVc (p : Packet) (cw : Bool) (st : Nat) : Bool :=
  if st = stopOf p.dst then p.flits.headD .source == .pool st (vcAt p cw st)
  else
  let d := stopDist cw (stopOf p.src) st + 1
  let esc := match p.place with
    | .round _ (some e) => stopDist cw (stopOf p.src) e + 1
    | _ => stopDist cw (stopOf p.src) (stopOf p.dst) + 1
  let head := (flitDist p cw (p.flits.headD .source)).getD esc
  decide (d ≤ head) &&
    (match flitDist p cw (p.flits.getLast?.getD .source) with
     | some t => decide (t ≤ d)
     | none => false)

/-- Whether the pool of a stop has had a free slot since the end of the pcyc before (R440). -/
def roomAt (r : Ring) (l : List (Nat × Packet)) (st : Nat) : Bool := decide (poolUsed l st + r.freed.count st < 6)

/-- Whether a packet's header may enter a stop on its VC: no other packet holds it, nor has it become free in
this pcyc (R440). -/
def vcFree (r : Ring) (l : List (Nat × Packet)) (id : Nat) (p : Packet) (cw : Bool) (st : Nat) : Bool :=
  !r.freedVcs.contains (st, vcAt p cw st) &&
    !l.any (fun (e : Nat × Packet) => e.1 != id && vcAt e.2 cw st == vcAt p cw st && holdsVc e.2 cw st)

/-- For how many pcyc a header waits before it may only enter the escape channel (R355). -/
def escLimit (s : State) (p : Packet) : Nat := if urgent s p.cls then 4 else 16

/-- Whether flit `i` of a packet may cross the link out of a stop in this pcyc (R353, R355, R440): into the pool
of the next stop, or at its destination into the ejection port, where it needs no slot and no VC. -/
def mayHop (s : State) (l : List (Nat × Packet)) (id : Nat) (p : Packet) (cw : Bool) (st i : Nat) : Bool :=
  let r := s.ring (clusterOf p.src) cw
  let nx := stopNext cw st
  st != stopOf p.dst && p.place != .round cw (some st) &&
    !(p.flits.take i).any (fun f => f == .pool st (vcAt p cw st)) && !r.moved.contains (id, i) &&
    !r.links.contains st && !s.deadLinks.contains (roundLink (clusterOf p.src) st cw) &&
    (i != 0 || decide (p.waited < escLimit s p)) &&
    (if nx = stopOf p.dst then
      (if i = 0 then canEject s p || (roomAt r l nx && vcFree r l id p cw nx) else p.flits.headD .source == .ejected)
     else roomAt r l nx && (i != 0 || vcFree r l id p cw nx))

/-- Where a flit that crosses the link out of a stop comes. -/
def hopTo (s : State) (p : Packet) (cw : Bool) (st i : Nat) : FlitPos :=
  let nx := stopNext cw st
  if nx = stopOf p.dst ∧ (i ≠ 0 ∨ canEject s p = true) then .ejected else .pool nx (vcAt p cw nx)

/-- The first flit of a packet at a stop. -/
def firstAt (p : Packet) (cw : Bool) (st : Nat) : Option Nat := p.flits.findIdx? (fun f => f == .pool st (vcAt p cw st))

/-- Whether packet `q` wins a link at a stop over packet `p` (R354, R363). -/
def winsLink (s : State) (q p : Packet) (cw : Bool) (st : Nat) : Bool :=
  let uq := urgent s q.cls
  let up := urgent s p.cls
  let pq := decide (stopOf q.src = st)
  let pp := decide (stopOf p.src = st)
  (uq && !up) || (uq == up && (olderNow s q p || (!olderNow s p q &&
    ((!pq && pp) || (pq == pp && decide (vcAt q cw st < vcAt p cw st))))))

/-- Whether a flit of packet `id` wins the link out of a stop (R354). -/
def winner (s : State) (l : List (Nat × Packet)) (id : Nat) (p : Packet) (cw : Bool) (st : Nat) : Bool :=
  !l.any (fun (e : Nat × Packet) => e.1 != id && winsLink s e.2 p cw st &&
    (match firstAt e.2 cw st with
     | some i => mayHop s l e.1 e.2 cw st i
     | none => false))

/-- A packet whose flits have all been ejected is at its interface; one that has come by the escape channel
waits in the stop's ejection buffer until the interface can take it (R301, R356). -/
def Packet.settle (s : State) (p : Packet) : Packet :=
  if p.flits.all (fun f => f == .ejected) then
    match p.place with
    | .round _ (some _) => if canEject s p then { p with place := .ejected } else p
    | _ => { p with place := .ejected }
  else p

/-- A packet after one of its flits has moved; the header's wait restarts with it (R355). -/
def Packet.moved (s : State) (p : Packet) (i : Nat) (x : FlitPos) : Packet :=
  let p1 := { p with
    flits := p.flits.set i x, since := if i = 0 then s.cycle else p.since, waited := if i = 0 then 0 else p.waited }
  (if i = 0 then p1.aged s else p1).settle s

/-- Whether nothing has moved on a direction in this pcyc. -/
def Ring.idle (r : Ring) : Bool := r.moved.isEmpty && r.links.isEmpty && r.emptied.isEmpty

/-- Flit `i` of a packet leaves the pool of a stop: its slot, and with the tail the VC, become free at the end of
this pcyc (R440). -/
def leavePool (s : State) (id : Nat) (p : Packet) (cw : Bool) (st i : Nat) : State :=
  s.modRing (clusterOf p.src) cw (fun r => { r with
    moved := (id, i) :: r.moved
    freed := st :: r.freed
    freedVcs := if i + 1 = p.flits.length ∨ st = stopOf p.dst then (st, vcAt p cw st) :: r.freedVcs else r.freedVcs })

/-- Whether a flit may enter the escape channel at a stop: none has in this pcyc, and of the two slots that
pass there one is empty, has not been emptied there in this pcyc (R440) and is not reserved for another stop
(R356). -/
def escOpen (r : Ring) (l : List (Nat × Packet)) (st : Nat) : Bool :=
  !r.entered.contains st &&
    decide (escUsed l st + r.emptied.count st +
      (r.slots.filter (fun (e : Nat × Nat) => e.1 == st && e.2 != st)).length < 2)

/-- Whether the flits of a packet before flit `i` have left the shared channel (R355). -/
def ledBy (p : Packet) (i : Nat) : Bool :=
  (p.flits.take i).all (fun f => match f with
    | .escape _ | .ejected => true
    | _ => false)

/-- Whether flit `i` of a packet, at a stop, may only enter the escape channel there: a header that has waited
long enough, or the next flit behind one that has entered (R355). -/
def wantsEscape (s : State) (p : Packet) (cw : Bool) (st i : Nat) : Bool :=
  match p.place with
  | .round c none => c == cw && i == 0 && st != stopOf p.dst && decide (escLimit s p ≤ p.waited)
  | .round c (some x) => c == cw && x == st && i != 0 && ledBy p i
  | _ => false

/-- Flit `i` of a packet enters the escape channel at a stop, which then reserves no slot any more (log 84). -/
def enterEscape (s : State) (id : Nat) (p : Packet) (cw : Bool) (st i : Nat) : State :=
  ((leavePool s id p cw st i).modRing (clusterOf p.src) cw (fun r => { r with
    entered := st :: r.entered
    claims := r.claims.filter (fun x => x != st)
    slots := r.slots.erase (st, st) })).setPkt id (p.moved s i (.escape st))

/-- Whether a stop has been refused in this pcyc: it holds a flit that may only enter the escape channel, and
found no slot. -/
def escRefused (s : State) (cl st : Nat) (cw : Bool) : Bool :=
  let l := onRound s cl cw
  let r := s.ring cl cw
  !r.entered.contains st && !escOpen r l st && l.any (fun (e : Nat × Packet) =>
    (List.range e.2.flits.length).any (fun i =>
      e.2.flits.getD i .source == .pool st (vcAt e.2 cw st) && wantsEscape s e.2 cw st i))

/-- A flit one stop further on the escape channel. -/
def FlitPos.turn (cw : Bool) : FlitPos → FlitPos
  | .escape st => .escape (stopNext cw st)
  | f => f

/-- A packet of a direction when a pcyc ends: its flits in escape advance, and a header that has stayed at its
stop has waited (R355, R356). -/
def Packet.passed (r : Ring) (cw : Bool) (id : Nat) (p : Packet) : Packet :=
  { p with
    flits := p.flits.map (FlitPos.turn cw)
    waited := match p.flits.headD .source with
      | .pool _ _ => if r.moved.contains (id, 0) then p.waited else p.waited + 1
      | _ => p.waited }

/-- The reserved slots when a pcyc ends (R356): a slot emptied at a stop that reserves it is that stop's, and one
that has come round to its stop and was not filled is nobody's (log 84). -/
def Ring.turned (r : Ring) (cw : Bool) : List (Nat × Nat) :=
  (r.slots.filter (fun e => e.1 != e.2) ++ (r.claims.filter (fun x => r.emptied.contains x)).map (fun x => (x, x))).map
    (fun e => (stopNext cw e.1, e.2))

/-- A pcyc of a direction ends (R353-R356, R440). -/
def endPcyc (s : State) (cl : Nat) (cw : Bool) : State :=
  let r := s.ring cl cw
  { s with pkts := s.pkts.map (fun (e : Nat × Packet) => match e.2.place with
      | .round c _ => if c == cw && clusterOf e.2.src == cl then (e.1, e.2.passed r cw e.1) else e
      | _ => e) }.modRing cl cw (fun r => { Ring.reset with
    refused := ((List.range 8).filter (fun st => escRefused s cl st cw)).map (fun st => (st, tabGet 0 r.refused st + 1))
    claims := r.claims.filter (fun x => !r.emptied.contains x)
    slots := r.turned cw })

/-- Whether flit `i` of a packet has a movement to make in this pcyc: every flit moves that can. -/
def flitDue (s : State) (l : List (Nat × Packet)) (id : Nat) (p : Packet) (cw : Bool) (i : Nat) : Bool :=
  let r := s.ring (clusterOf p.src) cw
  !r.moved.contains (id, i) &&
  match p.flits[i]? with
  | some (.pool st _) =>
    if st = stopOf p.dst then canEject s p || decide (16 ≤ p.waited)
    else (wantsEscape s p cw st i && escOpen r l st) || (mayHop s l id p cw st i && winner s l id p cw st)
  | some (.escape st) => st == stopOf p.dst
  | _ => false

/-- Whether a pcyc of a direction is not over. -/
def pcycOpen (s : State) (cl : Nat) (cw : Bool) : Bool :=
  let l := onRound s cl cw
  l.any (fun (e : Nat × Packet) => (List.range e.2.flits.length).any (flitDue s l e.1 e.2 cw))

/-- The flits of a direction in escape: packet, flit and stop. -/
def escFlits (l : List (Nat × Packet)) : List (Nat × Nat × Nat) :=
  l.flatMap (fun (e : Nat × Packet) => e.2.flits.zipIdx.filterMap (fun f => match f.1 with
    | .escape st => some (e.1, f.2, st)
    | _ => none))

/-- The flit in escape whose crossing may fail as the slots advance: the one that the event names, else one
that an injection or a link that is down meets (R360, R425, R429). -/
def escCrossing (s : State) (cl : Nat) (cw : Bool) : Option (Nat × Nat × Nat) :=
  let fs := escFlits (onRound s cl cw)
  (fs.find? (fun x => x.1 == s.ev.who && x.2.1 == s.ev.idx)).or (fs.find? (fun x =>
    let t := tileOfStop cl x.2.2
    s.deadLinks.contains (escLink cl x.2.2 cw) || injHits s 3 (tileX t) (tileY t)))

/-- A pcyc of a direction passes, once every flit that can has moved (R353, R440; DESIGN CHOICE, log 84): the slots of its
escape channel advance over their links. -/
def passPcyc (s : State) (cl : Nat) (cw : Bool) : Option State :=
  if pcycOpen s cl cw then none
  else
    match escCrossing s cl cw with
    | none => some (endPcyc s cl cw)
    | some (id, i, st) =>
      let lost := fun (s1 : State) => some (loseAt s1 id (tileOfStop cl st) .sender false)
      match crossFlit s (escLink cl st cw) (tileOfStop cl st) (8 * id + i) with
      | .down => lost s
      | .retry s1 => some s1
      | .broken s1 => lost s1
      | .ok s1 =>
        match s1.pkt id with
        | some p =>
          if i = 0 ∧ badHeader s p = true then
            some (endPcyc (discardBad s1 id p (tileOfStop cl (stopNext cw st))) cl cw)
          else some (endPcyc s1 cl cw)
        | none => none

/-- Flit `i` of a packet crosses the link out of a stop. -/
def hopFlit (s : State) (id : Nat) (p : Packet) (cw : Bool) (st i : Nat) : Option State :=
  let cl := clusterOf p.src
  let s0 := s.modRing cl cw (fun r => { r with links := st :: r.links })
  match crossLink s0 (roundLink cl st cw) (tileOfStop cl st) id i with
  | none => none
  | some (s1, true) =>
    if i = 0 ∧ badHeader s p = true then some (discardBad s1 id p (tileOfStop cl (stopNext cw st)))
    else some ((leavePool s1 id p cw st i).setPkt id (p.moved s i (hopTo s p cw st i)))
  | some (s1, false) => some s1

/-- FLIT_ADVANCE (R353, R354, R356, R440): `who` is the packet and `idx` the flit. Where the flit has no
movement of its own left, the pcyc passes: a flit of the escape channel advances with every slot of its ring. -/
def tryFlitAdvance (s : State) : Option State :=
  let id := s.ev.who
  let i := s.ev.idx
  match s.pkt id with
  | none => none
  | some p =>
    match p.place with
    | .round cw _ =>
      let cl := clusterOf p.src
      let l := onRound s cl cw
      let r := s.ring cl cw
      match p.flits[i]? with
      | some (.pool st _) =>
        if r.moved.contains (id, i) then passPcyc s cl cw
        else if st = stopOf p.dst then
          if canEject s p then some ((leavePool s id p cw st i).setPkt id (p.moved s i .ejected)) else passPcyc s cl cw
        else if i ≠ 0 ∧ wantsEscape s p cw st i = true then
          if escOpen r l st then some (enterEscape s id p cw st i) else passPcyc s cl cw
        else if mayHop s l id p cw st i && winner s l id p cw st then hopFlit s id p cw st i
        else passPcyc s cl cw
      | some (.escape st) =>
        if st = stopOf p.dst then
          if i ≠ 0 ∧ (p.flits.take i).all (fun f => f == .ejected) = true then
            some ((s.modRing cl cw (fun r => { r with emptied := st :: r.emptied })).setPkt id (p.moved s i .ejected))
          else none
        else passPcyc s cl cw
      | some .ejected =>
        if p.flits.all (fun f => f == .ejected) && canEject s p then some (s.setPkt id (p.settle s)) else none
      | _ => none
    | _ => none

/-- FLIT_ADVANCE (R353). -/
def execFlitAdvance (s : State) : Outcome State Fault Refusal := eventStep tryFlitAdvance s

/-- ESCAPE_ENTER (R355, R356): `who` is the packet; its header, which has waited long enough, takes an empty
slot. -/
def tryEscapeEnter (s : State) : Option State :=
  let id := s.ev.who
  match s.pkt id with
  | none => none
  | some p =>
    match p.place, p.flits with
    | .round cw none, .pool st _ :: _ =>
      let cl := clusterOf p.src
      if wantsEscape s p cw st 0 = true ∧ escOpen (s.ring cl cw) (onRound s cl cw) st = true then
        some (countPerf (enterEscape s id { p with place := .round cw (some st) } cw st 0) (tileOfStop cl st) 6 1)
      else none
    | _, _ => none

/-- ESCAPE_ENTER (R355). -/
def execEscapeEnter (s : State) : Outcome State Fault Refusal := eventStep tryEscapeEnter s

/-- ESCAPE_SLOT_RESERVE (R356): `who` is the cluster, `idx` the stop, `flag` clockwise. A stop that has been
refused for 8 pcyc in a row reserves the next slot that empties at it. -/
def tryEscapeSlotReserve (s : State) : Option State :=
  let r := s.ring s.ev.who s.ev.flag
  let st := s.ev.idx
  if r.claims.contains st || r.slots.any (fun e => e.2 == st) || decide (tabGet 0 r.refused st < 8) then none
  else some (s.modRing s.ev.who s.ev.flag (fun r => { r with claims := st :: r.claims }))

/-- ESCAPE_SLOT_RESERVE (R356). -/
def execEscapeSlotReserve (s : State) : Outcome State Fault Refusal := eventStep tryEscapeSlotReserve s

/-- Flits that the escape ejection buffer of a tile's stop has accepted and not yet passed on. -/
def escBuffer (s : State) (t : Nat) : Nat :=
  (s.pkts.map (fun (e : Nat × Packet) => match e.2.place with
    | .round _ (some _) => if e.2.dst = t ∧ e.2.flits.headD .source = .ejected then e.2.flits.length else 0
    | _ => 0)).sum

/-- ESCAPE_ARRIVAL (R356): `who` is the packet, whose header stands at its destination stop. -/
def tryEscapeArrival (s : State) : Option State :=
  let id := s.ev.who
  match s.pkt id with
  | none => none
  | some p =>
    match p.place, p.flits with
    | .round cw _, .escape st :: _ =>
      let s1 := s.modRing (clusterOf p.src) cw (fun r => { r with emptied := st :: r.emptied })
      if st ≠ stopOf p.dst then none
      else if escBuffer s p.dst + p.flits.length ≤ 8 then some (s1.setPkt id (p.moved s 0 .ejected))
      else some (lose s1 id p.dst true)
    | _, _ => none

/-- ESCAPE_ARRIVAL (R356). -/
def execEscapeArrival (s : State) : Outcome State Fault Refusal := eventStep tryEscapeArrival s

/-! ### The Clos (R358-R360, R364) -/

/-- Flits that a switch input holds in a channel: VC_R for class 15 and for answers, else VC_D. -/
def closUsed (s : State) (place : PktPlace) (vcR : Bool) : Nat :=
  (s.pkts.map (fun (e : Nat × Packet) =>
    if e.2.place = place ∧ (e.2.cls == 15) = vcR then e.2.flits.length else 0)).sum +
  (if vcR then (s.answers.filter (fun (a : Answer) => match a.place, place with
    | .clos l pod i inp, .clos l' pod' i' inp' => l == l' && pod == pod' && i == i' && inp == inp'
    | _, _ => false)).length else 0)

/-- Free flits there. -/
def closFree (s : State) (place : PktPlace) (vcR : Bool) : Nat := 16 - closUsed s place vcR

/-- A next input with the link to it. -/
abbrev Way := PktPlace × Nat

/-- Among candidate next inputs with their links, the one with the most free space whose link is up;
the first on a tie (R359). -/
def bestUp (s : State) (vcR : Bool) : List Way → Option Way
  | [] => none
  | w :: r =>
    match s.deadLinks.contains w.2, bestUp s vcR r with
    | true, o => o
    | false, some y => if closFree s w.1 vcR < closFree s y.1 vcR then some y else some w
    | false, none => some w

/-- Where a packet goes from a switch input: to its destination's leaf, to another input, or nowhere. -/
inductive Hop where
  | leaf
  | input (w : Way)
  | blocked
  deriving DecidableEq, Repr

/-- A hop to the best of some inputs. -/
def Hop.up : Option Way → Hop
  | some w => .input w
  | none => .blocked

/-- The next hop towards an endpoint from a switch input (R359). -/
def hopFrom (s : State) (dst : Nat) (vcR : Bool) (place : PktPlace) : Hop :=
  let (dp, de, _) := leafOf dst
  match place with
  | .clos 0 pod e _ =>
    if pod = dp ∧ e = de then .leaf
    else .up (bestUp s vcR ((List.range 8).map (fun k => (.clos 1 pod k e, edgeLink pod e k))))
  | .clos 1 pod k _ =>
    if pod = dp then .input (.clos 0 dp de (8 + k), edgeDown dp k de)
    else .up (bestUp s vcR ((List.range 4).map (fun j => (.clos 2 k j pod, topLink pod k j))))
  | .clos _ k j _ => .input (.clos 1 dp k (4 + j), topDown k j dp)
  | _ => .blocked

/-- The next hop of a packet in a Clos switch (R359). -/
def closHop (s : State) (p : Packet) : Hop := hopFrom s p.dst (p.cls == 15) p.place

/-- The input of its edge switch that a leaf feeds. -/
def leafInput (e : Nat) : PktPlace :=
  let (pod, edge, port) := leafOf e
  .clos 0 pod edge port

/-- Whether a packet could leave its switch by its hop now. -/
def hopOpen (s : State) (p : Packet) : Hop → Bool
  | .leaf => canEject s p
  | .input w => decide (p.flits.length ≤ closFree s w.1 (p.cls == 15))
  | .blocked => false

/-- Whether an older or urgent packet of the same switch and channel wants the same output: the same next
input, or the same leaf port (R363). -/
def closContended (s : State) (id : Nat) (p : Packet) (x : Hop) : Bool :=
  let inp := fun (pl : PktPlace) => match pl with
    | .clos _ _ _ i => i
    | _ => 0
  s.pkts.any (fun (e : Nat × Packet) => e.1 != id && (e.2.cls == 15) == (p.cls == 15) &&
    closHop s e.2 == x && (x != .leaf || leafInput e.2.dst == leafInput p.dst) && hopOpen s e.2 x &&
    (let uq := urgent s e.2.cls
     let up := urgent s p.cls
     (uq && !up) || (uq == up && (olderNow s e.2 p || (!olderNow s p e.2 && decide (inp e.2.place < inp p.place))))))

/-- The flit of a whole packet whose crossing of a link may fail: the one that the event names (R360). -/
def crossIdx (s : State) (p : Packet) : Nat := min s.ev.idx (p.flits.length - 1)

/-- Packet `id` crosses the link of its hop (R360, R415). -/
def crossHop (s : State) (id : Nat) (p : Packet) : Hop → Option (State × Bool)
  | .leaf => crossLink s (leafDown p.dst) 1024 id (crossIdx s p)
  | .input w => crossLink s w.2 1024 id (crossIdx s p)
  | .blocked => none

/-- CLOS_FORWARD (R359, R360): `who` is the packet, whole in a switch input. -/
def tryClosForward (s : State) : Option State :=
  let id := s.ev.who
  match s.pkt id with
  | none => none
  | some p =>
    let x := closHop s p
    if !hopOpen s p x || closContended s id p x then none
    else
      match crossHop s id p x with
      | none => none
      | some (s1, false) => some s1
      | some (s1, true) =>
        if badHeader s p then some (discardBad s1 id p p.dst)
        else
        match x with
        | .input w => some (s1.setPkt id { p.aged s with place := w.1, since := s.cycle })
        | _ => some (s1.setPkt id { (p.allAt .ejected).aged s with place := .ejected, since := s.cycle })

/-- CLOS_FORWARD (R359). -/
def execClosForward (s : State) : Outcome State Fault Refusal := eventStep tryClosForward s

/-- The youngest packet of a data class that an input holds in VC_D. -/
def youngestIn (s : State) (x : PktPlace) : Option Nat :=
  match s.pkts.filter (fun (e : Nat × Packet) => e.2.place == x && e.2.cls != 15 && !urgent s e.2.cls) with
  | [] => none
  | e :: r => some (r.foldl (fun (a : Nat × Packet) (b : Nat × Packet) => if olderNow s a.2 b.2 then b else a) e).1

/-- The switch input for whose space a packet waits: from its source, that of its edge switch. -/
def waitsFor (s : State) (p : Packet) : Option PktPlace :=
  match p.place with
  | .source => if p.src = p.dst ∨ p.local? = true then none else some (leafInput p.src)
  | _ => match closHop s p with
    | .input w => some w.1
    | _ => none

/-- CLOS_EVICT (R364): `who` is the urgent packet that waits for room. -/
def tryClosEvict (s : State) : Option State :=
  match s.pkt s.ev.who with
  | none => none
  | some p =>
    match waitsFor s p with
    | some x =>
      if urgent s p.cls && p.cls != 15 && decide (closFree s x false < p.flits.length) then
        (youngestIn s x).map (fun v => lose s v p.src false)
      else none
    | none => none

/-- CLOS_EVICT (R364). -/
def execClosEvict (s : State) : Outcome State Fault Refusal := eventStep tryClosEvict s

/-! ### Injection and ejection -/

/-- Bytes of the retention buffer that a source's packets take, but for packet `id` (R361). -/
def retained (s : State) (src id : Nat) : Nat :=
  (s.pkts.map (fun (e : Nat × Packet) =>
    if e.1 ≠ id ∧ e.2.src = src ∧ (e.2.place ≠ .source ∨ e.2.resent = true) then 32 * e.2.flits.length else 0)).sum

/-- Unacknowledged packets of a pair, but for packet `id` (R362). -/
def pairHeld (s : State) (p : Packet) (id : Nat) : Nat :=
  (s.pkts.filter (fun (e : Nat × Packet) => e.1 != id && e.2.src == p.src && e.2.dst == p.dst &&
    (e.2.place != .source || e.2.resent))).length

/-- Whether the source may inject a packet: not before the packet whose acknowledgement it waits for (R311). -/
def mayInject (s : State) (id : Nat) (p : Packet) : Bool :=
  p.after.isNone && (decide (1024 ≤ p.src) || decide (retained s p.src id + 32 * p.flits.length ≤ 65536)) &&
    decide (pairHeld s p id < 16384)

/-- A header as it is injected: TS is stamped once (R351, R361). -/
def Packet.stamp (s : State) (p : Packet) : Packet :=
  { p with ts := if p.stamped then p.ts else ageNow s, stamped := true, since := s.cycle, waited := 0 }

/-- A stop's own interface injects flit `i` of a packet in this pcyc. -/
def noteInjected (s : State) (id : Nat) (p : Packet) (cw : Bool) (i : Nat) : State :=
  s.modRing (clusterOf p.src) cw (fun r => { r with
    injected := stopOf p.src :: r.injected, moved := (id, i) :: r.moved })

/-- The header of a packet leaves its source. -/
def injectHeader (s : State) (id : Nat) (p0 : Packet) : Option State :=
  let p := p0.stamp s
  if p.src = p.dst then
    if canEject s p then some (s.setPkt id { p.allAt .ejected with place := .ejected }) else none
  else if p.local? then
    let cw := dirOf s p
    let l := onRound s (clusterOf p.src) cw
    let r := s.ring (clusterOf p.src) cw
    let st := stopOf p.src
    if !r.injected.contains st && vcFree r l id p cw st && roomAt r l st then
      some (countPerf ((noteInjected s id p cw 0).setPkt id
        { p.moved s 0 (.pool st 0) with place := .round cw none }) p.src 4 1)
    else if r.idle then none
    else passPcyc s (clusterOf p.src) cw
  else
    let x := leafInput p.src
    if p.flits.length ≤ closFree s x (p.cls == 15) then
      match crossLink (s.setPkt id p) (leafLink p.src) p.src id (crossIdx s p) with
      | some (s1, true) =>
        if badHeader s p then some (discardBad s1 id p p.src)
        else some (countPerf (s1.setPkt id { p with place := x }) p.src 4 p.flits.length)
      | some (s1, false) => some s1
      | none => none
    else none

/-- PACKET_INJECT (R353): `who` is the packet; its header, or the next flit that is still at its
source. One that can enter the round only when the pcyc is over waits for its end. -/
def tryPacketInject (s : State) : Option State :=
  let id := s.ev.who
  match s.pkt id with
  | none => none
  | some p =>
    match p.place with
    | .source => if mayInject s id p then injectHeader (crossPort s p.src) id p else none
    | .round cw esc =>
      let cl := clusterOf p.src
      let st := stopOf p.src
      let r := s.ring cl cw
      match p.flits.findIdx? (fun f => f == .source) with
      | some i =>
        if roomAt r (onRound s cl cw) st && !r.injected.contains st then
          some (countPerf ((noteInjected s id p cw i).setPkt id
            { p.moved s i (.pool st 0) with place := .round cw esc }) p.src 4 1)
        else if r.idle then none
        else passPcyc s cl cw
      | none => none
    | _ => none

/-- PACKET_INJECT (R353). -/
def execPacketInject (s : State) : Outcome State Fault Refusal := eventStep tryPacketInject s

/-- Whether a packet's header stands at its destination, or in the escape ejection buffer there, and cannot
eject. -/
def waitsToEject (s : State) (p : Packet) : Bool :=
  !canEject s p &&
  (match p.place with
   | .source => p.src == p.dst
   | .round cw none =>
     p.flits.headD .source == .pool (stopOf p.dst) (vcAt p cw (stopOf p.dst)) && decide (16 ≤ p.waited)
   | .round _ (some _) => p.flits.all (fun f => f == .ejected)
   | .clos .. => closHop s p == .leaf
   | _ => false)

/-- EJECT_TIMEOUT (R355): `who` is the packet. -/
def tryEjectTimeout (s : State) : Option State :=
  match s.pkt s.ev.who with
  | some p =>
    if waitsToEject s p then some (lose (s.setPkt s.ev.who (p.stamp s)) s.ev.who p.dst true) else none
  | none => none

/-- EJECT_TIMEOUT (R355). -/
def execEjectTimeout (s : State) : Outcome State Fault Refusal := eventStep tryEjectTimeout s

/-! ### Arrival in SEQ order (R362) -/

/-- Whether a packet's turn has come: every packet of its pair with an earlier SEQ has been handed
to its unit or dropped. -/
def isNext (s : State) (id : Nat) (p : Packet) : Bool :=
  !s.pkts.any (fun (e : Nat × Packet) => e.1 != id && e.2.src == p.src && e.2.dst == p.dst &&
    e.2.place != .inbox && e.2.place != .done && decide (32768 ≤ (e.2.seq + 65536 - p.seq) % 65536))

/-- A packet's turn: its unit is to perform it. -/
def accept (s : State) (id : Nat) (p : Packet) : State :=
  { s with
    inbox := s.inbox ++ [(p.dst, id)]
    seqIn := tabSet s.seqIn (pairKey p.src p.dst) ((p.seq + 1) % 65536) }.setPkt id { p with place := .inbox }

/-- The early packets of a pair whose turn has come follow. -/
def pullEarly (s : State) (src dst : Nat) : Nat → State
  | 0 => s
  | n + 1 =>
    match s.pkts.find? (fun (e : Nat × Packet) =>
        e.2.src == src && e.2.dst == dst && e.2.place == .early && isNext s e.1 e.2) with
    | some (id, p) => pullEarly (accept s id p) src dst n
    | none => s

/-- Early packets that an interface holds. -/
def earlyHeld (s : State) (dst : Nat) : Nat :=
  (s.pkts.filter (fun (e : Nat × Packet) => e.2.dst == dst && e.2.place == .early)).length

/-- PACKET_ARRIVAL (R362): `who` is the packet. At a Xaold port its flits cross the port (R424). -/
def tryPacketArrival (s : State) : Option State :=
  let id := s.ev.who
  match s.pkt id with
  | none => none
  | some p =>
    let s := crossPort s p.dst
    if p.place ≠ .ejected then none
    else if isNext s id p then some (pullEarly (accept s id p) p.src p.dst 32)
    else if earlyHeld s p.dst < 32 then some (s.setPkt id { p with place := .early })
    else some (lose s id p.dst false)

/-- PACKET_ARRIVAL (R362). -/
def execPacketArrival (s : State) : Outcome State Fault Refusal := eventStep tryPacketArrival s

/-! ### The way of an ACK or NACK (R350, R357, R360) -/

/-- The header word of an ACK or NACK: one flit with LEN 8 (R350). -/
def Answer.headerWord (a : Answer) (p : Packet) : Nat :=
  Machine.headerWord { p with
    src := a.src, dst := a.dst, seq := 0, ts := 0, len := 8, resent := false, poison := false, old := false } +
    (if a.ack then 1 else 2) * 2 ^ 10

/-- Its payload: the SEQ and CLASS of the packet it answers, in this order (R350; DEDUCED, log 64). -/
def Answer.payload (p : Packet) : List Byte := bytesLE 2 p.seq ++ bytesLE 1 p.cls ++ List.replicate 5 0

/-- Puts an answer at a place. -/
def setAnswer (s : State) (i : Nat) (a : Answer) (x : AnsPlace) : State :=
  { s with answers := s.answers.set i { a with place := x } }

/-- Whether the slot of an acknowledgement ring at a stop is empty. -/
def ackSlotFree (s : State) (cl : Nat) (cw : Bool) (st : Nat) : Bool :=
  !s.answers.any (fun (a : Answer) => a.place == .ring cl cw st)

/-- Every slot of an acknowledgement ring advances one stop; a packet that comes to its destination stop
leaves the ring (R357). -/
def turnAcks (s : State) (cl : Nat) (cw : Bool) : State :=
  { s with answers := s.answers.map (fun (a : Answer) => match a.place with
      | .ring c w st => if c == cl && w == cw then
          { a with place := if stopNext cw st = stopOf a.dst then .here else .ring c w (stopNext cw st) } else a
      | _ => a) }

/-- The header of an answer as a router receives it, where that is malformed (R350). -/
def badAnswer (s : State) (a : Answer) : Option Nat :=
  (s.pkt a.pkt).bind (fun p =>
    let w := a.headerWord p ^^^ s.ev.val
    if s.ev.val != 0 && !headerOk w then some w else none)

/-- An answer goes on when its flit has crossed a link; where the link fails it stays. One whose header is
malformed is discarded, and its source sends it again (R350). -/
def crossAnswer (s : State) (link t i : Nat) (a : Answer) (go : State → State) : Option State :=
  match crossFlit s link t (8 * 2 ^ 64 + i) with
  | .down => none
  | .retry s1 | .broken s1 => some s1
  | .ok s1 =>
    match badAnswer s a with
    | some w => some (setAnswer (logAt s1 4 0 (a.src % 1024) 0 (w % 2 ^ 64) (w / 2 ^ 64 % 2 ^ 64)) i a .sender)
    | none => some (go s1)

/-- One movement of answer `i` (R357, R360): from its interface to the acknowledgement ring, in the direction
of the shorter way, or to VC_R of its edge switch; round its ring; or through a switch. -/
def moveAnswer (s : State) (i : Nat) (a : Answer) : Option State :=
  match a.place with
  | .sender =>
    if a.src = a.dst then some (setAnswer s i a .here)
    else if a.src < 1024 ∧ a.dst < 1024 ∧ clusterOf a.src = clusterOf a.dst then
      let cl := clusterOf a.src
      let cw := decide ((stopOf a.dst + 8 - stopOf a.src) % 8 ≤ 4)
      if ackSlotFree s cl cw (stopOf a.src) then some (setAnswer s i a (.ring cl cw (stopOf a.src))) else none
    else
      match leafInput a.src with
      | .clos l pod e inp =>
        if 1 ≤ closFree s (.clos l pod e inp) true then
          crossAnswer s (leafLink a.src) a.src i a (fun s1 => setAnswer s1 i a (.clos l pod e inp))
        else none
      | _ => none
  | .ring cl cw st => crossAnswer s (ackLink cl st cw) (tileOfStop cl st) i a (fun s1 => turnAcks s1 cl cw)
  | .clos l pod e inp =>
    match hopFrom s a.dst true (.clos l pod e inp) with
    | .leaf => crossAnswer s (leafDown a.dst) 1024 i a (fun s1 => setAnswer s1 i a .here)
    | .input (.clos l' pod' e' inp', link) =>
      if 1 ≤ closFree s (.clos l' pod' e' inp') true then
        crossAnswer s link 1024 i a (fun s1 => setAnswer s1 i a (.clos l' pod' e' inp'))
      else none
    | _ => none
  | .here => none

/-! ### ACK, NACK and loss (R361, R404) -/

/-- A running command with the sectors that another home has refused. -/
def Current.refuse (c : Current) (cmd : Nat) (l : List Nat) (cls : Nat) : Current :=
  if c.id = cmd then
    { c with cls := if c.cls = 0 then cls else c.cls, refused := (c.refused ++ l).dedup, stopped := true }
  else c

/-- Adds a failure to a matrix command that is running or whose writes are under way. -/
def matFails (m : Matrix) (cmd : Nat) (l : List Nat) (cls : Nat) : Matrix :=
  { m with
    cur := m.cur.map (fun c => c.refuse cmd l cls)
    pending := m.pending.map (fun (e : Nat × MatCmd × Nat × Nat × List Nat) => if e.1 = cmd then
        (e.1, e.2.1, if e.2.2.1 = 0 then cls else e.2.2.1, e.2.2.2.1, (e.2.2.2.2 ++ l).dedup) else e) }

/-- The same for a command that a swap has taken out of the unit of a tile (R240). -/
def imageFails (s : State) (t cmd : Nat) (l : List Nat) (cls : Nat) : State :=
  { s with launches := s.launches.map (fun (e : Nat × Launch) => (e.1, { e.2 with
      images := e.2.images.map (fun (i : Nat × MatUnit × Option Current × List MatCmd) =>
        if i.1 = t then (i.1, i.2.1, i.2.2.1.map (fun c => c.refuse cmd l cls), i.2.2.2) else i) })) }

/-- Adds a failure to an outrider command, which stops (R339): the sectors not written, each once (R296). -/
def outFails (o : Outrider) (cmd : Nat) (l : List Nat) (cls : Nat) : Outrider :=
  { o with cmds := o.cmds.map (fun c => if c.id = cmd then
      { c with cls := if c.stopped then c.cls else cls, refused := (c.refused ++ l).dedup, stopped := true } else c) }

/-- The sectors that a packet's write covers, by key div 32. -/
def Work.sectorList : Work → List Nat
  | .engWrite k b _ => sectorRange k b.length
  | .outWrite parts _ => (parts.map (fun w => w.1 / 32)).dedup
  | _ => []

/-- A failure reaches whoever awaits a packet. -/
def ownerFails (s : State) (p : Packet) (status perf : Nat) : State :=
  match p.owner with
  | .none => s
  | .act n => { s with ctxs := s.ctxs.map (fun (e : Nat × Ctx) =>
      if e.2.act = n ∧ n ≠ 0 then (e.1, { e.2 with fail := e.2.fail ++ [(status, perf, p.dst)] }) else e) }
  | .outrider t c => s.modTile t (fun x => { x with out := outFails x.out c p.work.sectorList status })
  | .matrix t c =>
    imageFails (s.modTile t (fun x => { x with matrix := matFails x.matrix c p.work.sectorList status })) t c
      p.work.sectorList status

/-- After the acknowledgement of a join counter's addition, the record that waited for it may go (R311). -/
def releaseAfter (s : State) (id : Nat) : State :=
  { s with pkts := s.pkts.map (fun (e : Nat × Packet) =>
      if e.2.after = some id then (e.1, { e.2 with after := none }) else e) }

/-- After its failure or loss the record never goes: it leaves the order of its pair. -/
def dropAfter (s : State) (id : Nat) : State :=
  let gone := s.pkts.filter (fun (e : Nat × Packet) => e.2.after == some id)
  gone.foldl (fun (s : State) (e : Nat × Packet) => pullEarly s e.2.src e.2.dst 32)
    { s with pkts := s.pkts.filter (fun (e : Nat × Packet) => e.2.after != some id) }

/-- A matrix command may have seen its last write. -/
def settleOwner (s : State) (p : Packet) : State :=
  match p.owner with
  | .matrix t _ => settleMatrix s t
  | _ => s

/-- Whether two packets carry the two halves of one store (log 9). -/
def storeHalves (p q : Packet) : Bool :=
  p.effect == q.effect && p.dst == q.dst && decide (q.seq = (p.seq + 1) % 65536) &&
  (match p.work, q.work with
   | .store _ _ _ _ true, .store .. => true
   | _, _ => false)

/-- With a packet its effect is lost: the other packets of the effect count no more loss (R413), and the other
half of a store writes nothing. -/
def loseEffect (s : State) (p : Packet) : State :=
  { s with pkts := s.pkts.map (fun (e : Nat × Packet) =>
      if e.2.effect = p.effect then
        (e.1, { e.2 with counted := true, work := if storeHalves p e.2 || storeHalves e.2 p then .nothing else e.2.work })
      else e) }

/-- What the loss of a packet does to whoever awaits it (R404). A loss that no activation or command learns
of is logged with the packet's header (R414). -/
def lostPacket (s : State) (p : Packet) : State :=
  let log := logAt s 0x0D Cause.timeout.code (if p.src < 1024 then p.src else p.dst % 1024) p.lslot (headerWord p % 2 ^ 64)
    (headerWord p / 2 ^ 64)
  match p.owner with
  | .act n =>
    match s.ctxs.find? (fun (e : Nat × Ctx) => e.2.act == n && n != 0 &&
        (e.2.st == .run || e.2.st == .wait || e.2.st == .saved)) with
    | some (g, _) =>
      endKilled (s.modCtx (ownerOf s g) (fun c => { c with lost := c.lost + (!p.counted).toNat })) g
        (endingBy s g .timeout)
    | none => if p.counted then s else lostAfterKill log n
  | .none => log
  | _ => ownerFails s p 1 0

/-- What units hold of a packet that waits at them is dropped with it (R404). -/
def dropHeld (s : State) (p : Packet) (id : Nat) : State :=
  { s.modTile p.dst (fun x => { x with
      puts := x.puts.filter (fun u => u.pkt != id)
      subs := x.subs.filter (fun u => u.pkt != id)
      pushWait := x.pushWait.filter (fun e => e.2 != id)
      agent := x.agent.filter (fun o => o.req.pkt != id)
      out := { x.out with queues := x.out.queues.map (fun (q : Nat × Queue) =>
        (q.1, { q.2 with pend := q.2.pend.filter (fun e => e.2 != id) })) } }) with
    queues := s.queues.map (fun q => { q with held := q.held.filter (fun w => w.pkt != id) }) }

/-- A packet is lost: it is not performed. -/
def losePacket (s : State) (id : Nat) (p : Packet) : State :=
  let s1 := dropHeld { s with
    pkts := tabDel s.pkts id
    inbox := s.inbox.filter (fun e => e.2 != id)
    answers := s.answers.filter (fun a => a.pkt != id) } p id
  pullEarly (dropAfter (settleOwner (lostPacket (loseEffect s1 p) p) p) id) p.src p.dst 32

/-- Answer `who`, if it is of a kind. -/
def answerAt (s : State) (ack : Bool) : Option Answer := (s.answers[s.ev.who]?).filter (fun a => a.ack == ack)

/-- ACK_ARRIVAL (R361): `who` is the answer's place among those on their way. It moves on, or is taken at its
destination: the copy is freed and the effect acknowledged. -/
def tryAckArrival (s : State) : Option State :=
  match answerAt s true with
  | none => none
  | some a =>
    if a.place ≠ .here then moveAnswer s s.ev.who a
    else
      match s.pkt a.pkt with
      | none => none
      | some p =>
        let s1 := { s with answers := dropAt s.answers s.ev.who, pkts := tabDel s.pkts a.pkt }
        some (settleOwner (match a.fail with
          | some (st, perf) => dropAfter (ownerFails s1 p st perf) a.pkt
          | none => releaseAfter s1 a.pkt) p)

/-- ACK_ARRIVAL (R361). -/
def execAckArrival (s : State) : Outcome State Fault Refusal := eventStep tryAckArrival s

/-- NACK_ARRIVAL (R361): it moves on, or is taken at its destination: the source resends with SEQ and TS
unchanged. A resend that answers a packet that could not eject is not counted; after 16 others the packet is
lost (R404). -/
def tryNackArrival (s : State) : Option State :=
  match answerAt s false with
  | none => none
  | some a =>
    if a.place ≠ .here then moveAnswer s s.ev.who a
    else
      match s.pkt a.pkt with
      | none => none
      | some p =>
        if !a.noEject && decide (16 ≤ p.resends) then some (losePacket s a.pkt p)
        else
          some ({ s with answers := dropAt s.answers s.ev.who }.setPkt a.pkt { p.allAt .source with
            place := .source, resent := true, resends := if a.noEject then p.resends else p.resends + 1
            since := s.cycle })

/-- NACK_ARRIVAL (R361). -/
def execNackArrival (s : State) : Outcome State Fault Refusal := eventStep tryNackArrival s

/-- PACKET_RESEND_TIMEOUT (R404): `who` is a packet that is not performed. -/
def tryPacketResendTimeout (s : State) : Option State :=
  match s.pkt s.ev.who with
  | none => none
  | some p => if p.place = .done then none else some (losePacket s s.ev.who p)

/-- PACKET_RESEND_TIMEOUT (R404). -/
def execPacketResendTimeout (s : State) : Outcome State Fault Refusal := eventStep tryPacketResendTimeout s

end Sys2Proof.Machine
end

