-- ==== Sys2Proof/Machine/Fp.lean ====
section
/-! DEFINITION. The scalar floating-point instructions (R154-R161). -/

namespace Sys2Proof.Machine

open Host (Outcome)

/-! ### Moulds -/

/-- An FP form: from the rounding mode, FTZ and the three FP32 codes to the pushed value and its
flags (R154, R122). -/
def fpForm (h : Head) (t : Tail) (s : State) (f : Rm → Bool → Nat → Nat → Nat → Nat × Flags) :
    Outcome State Fault Refusal :=
  runHead s h 1 (fun _ _ c st =>
    match operands .fp c t st with
    | .error x => .stop x
    | .ok (a, b, d, st1) =>
      let m := fun (x : Word) => x.toNat % 2 ^ 32
      let (v, fl) := f (rmOf (tailM t)) c.ftz (m a) (m b) (m d)
      .ok ((st1.push (BitVec.ofNat 64 v) (tailD t)).raise fl))

/-- Round(FP32, v, rm, 0) with FTZ (R131). -/
def fpRound (ftz : Bool) (v : Val) (rm : Rm) : Nat × Flags :=
  let r := roundFtz ftz .fp32 v rm false
  (r.code, r.fl)

/-- A source (R124). -/
def fpSrc (ftz : Bool) (x : Nat) : Val := srcVal ftz .fp32 x

/-- The format codes of R159. -/
def cvtFormat : Nat → Fmt
  | 0 => .bf16
  | 1 => .fp16
  | 2 => .e5m2
  | 3 => .e4m3
  | 4 => .e2m3
  | 5 => .e2m1
  | 6 => .lg6
  | 7 => .ue4m3
  | _ => .e8m0

/-- FCVTN: the element codes packed by the format code, and the flags ORed (R159). -/
def cvtPack (fc : Nat) (e : List Rounded) : Nat × Flags :=
  let w := (cvtFormat fc).bits
  ((e.zipIdx.map (fun (x : Rounded × Nat) => x.1.code % 2 ^ w * 2 ^ (w * x.2))).sum,
    e.foldl (fun f x => f ||| x.fl) 0)

/-- FCLASS: the class bit of a code (R158). -/
def classBit (ftz : Bool) (x : Nat) : Nat :=
  let c := ftzCode ftz .fp32 x
  match decodeFmt .fp32 c with
  | .inf true => 0
  | .inf false => 7
  | .nan s => if s then 8 else 9
  | .fin q =>
    if q.num = 0 then (if q.neg then 3 else 4)
    else if isSubnormal .fp32 c then (if q.neg then 2 else 5)
    else if q.neg then 1 else 6

/-- FRINT: rounded to an integral value of the same sign (R155). -/
def fpIntegral (rm : Rm) : Val → Val
  | .fin q => .fin ⟨q.neg, (roundMag rm q 0).1, 1, 0⟩
  | v => v

/-- FLOGB: floor(log2 |a|) (R161). -/
def fpLogb (ftz : Bool) (x : Nat) : Nat × Flags :=
  match fpSrc ftz x with
  | .nan s => (Fmt.canonNaN .fp32, if s then flNV else 0)
  | .inf _ => (0x7F800000, 0)
  | .fin q =>
    if q.num = 0 then (0xFF800000, flDZ)
    else ((round .fp32 (.fin (Q.ofInt (ilog2Q q.num q.den + q.exp))) .rne false).code, 0)

/-- FSCALE: a * 2^n with n clamped (R161). -/
def fpScale (v : Val) (n : Int) : Val :=
  match v with
  | .fin q => .fin { q with exp := q.exp + max (-512) (min 512 n) }
  | v => v

/-! ### The instructions -/

/-- FADD (R155). -/
def execFadd (h : Head) (t : Tail) (s : State) : Outcome State Fault Refusal :=
  fpForm h t s (fun rm z a b _ => fpRound z (addV rm (fpSrc z a) (fpSrc z b)) rm)

/-- FSUB (R155). -/
def execFsub (h : Head) (t : Tail) (s : State) : Outcome State Fault Refusal :=
  fpForm h t s (fun rm z a b _ => fpRound z (addV rm (fpSrc z a) (negV (fpSrc z b))) rm)

/-- FMUL (R155). -/
def execFmul (h : Head) (t : Tail) (s : State) : Outcome State Fault Refusal :=
  fpForm h t s (fun rm z a b _ => fpRound z (mulV (fpSrc z a) (fpSrc z b)) rm)

/-- FDIV (R155): DZ for a finite nonzero a over zero. -/
def execFdiv (h : Head) (t : Tail) (s : State) : Outcome State Fault Refusal :=
  fpForm h t s (fun rm z a b _ =>
    let (v, f) := divV (fpSrc z a) (fpSrc z b)
    let (r, g) := fpRound z v rm
    (r, f ||| g))

/-- FSQRT (R155). -/
def execFsqrt (h : Head) (t : Tail) (s : State) : Outcome State Fault Refusal :=
  fpForm h t s (fun rm z a _ _ => fpRound z (sqrtV (fpSrc z a)) rm)

/-- FMA (R155, R131): one rounding. -/
def execFma (h : Head) (t : Tail) (s : State) : Outcome State Fault Refusal :=
  fpForm h t s (fun rm z a b c => fpRound z (fmaV rm (fpSrc z a) (fpSrc z b) (fpSrc z c)) rm)

/-- FMS (R155, R131): one rounding. -/
def execFms (h : Head) (t : Tail) (s : State) : Outcome State Fault Refusal :=
  fpForm h t s (fun rm z a b c => fpRound z (fmaV rm (fpSrc z a) (fpSrc z b) (negV (fpSrc z c))) rm)

/-- FNMA (R155, R131): one rounding. -/
def execFnma (h : Head) (t : Tail) (s : State) : Outcome State Fault Refusal :=
  fpForm h t s (fun rm z a b c => fpRound z (fmaV rm (negV (fpSrc z a)) (fpSrc z b) (fpSrc z c)) rm)

/-- FMIN (R156). -/
def execFmin (h : Head) (t : Tail) (s : State) : Outcome State Fault Refusal :=
  fpForm h t s (fun _ z a b _ => minMax .fp32 false (ftzCode z .fp32 a) (ftzCode z .fp32 b))

/-- FMAX (R156). -/
def execFmax (h : Head) (t : Tail) (s : State) : Outcome State Fault Refusal :=
  fpForm h t s (fun _ z a b _ => minMax .fp32 true (ftzCode z .fp32 a) (ftzCode z .fp32 b))

/-- FABS (R156): moves bits; no flag. -/
def execFabs (h : Head) (t : Tail) (s : State) : Outcome State Fault Refusal :=
  fpForm h t s (fun _ z a _ _ => (ftzCode z .fp32 a % 2 ^ 31, 0))

/-- FNEG (R156): moves bits; no flag. -/
def execFneg (h : Head) (t : Tail) (s : State) : Outcome State Fault Refusal :=
  fpForm h t s (fun _ z a _ _ => (ftzCode z .fp32 a ^^^ 2 ^ 31, 0))

/-- FCPYS (R156): the sign of b on a. -/
def execFcpys (h : Head) (t : Tail) (s : State) : Outcome State Fault Refusal :=
  fpForm h t s (fun _ z a b _ => (ftzCode z .fp32 a % 2 ^ 31 + b / 2 ^ 31 * 2 ^ 31, 0))

/-- FCMP (R157). -/
def execFcmp (h : Head) (t : Tail) (s : State) : Outcome State Fault Refusal :=
  predForm .fp h t s (fun c a b =>
    let x := fpSrc c.ftz (a.toNat % 2 ^ 32)
    let y := fpSrc c.ftz (b.toNat % 2 ^ 32)
    (fpRel (tailM t % 8) x y, fpRelFlags ((tailM t).testBit 3) x y))

/-- FCLASS (R158): no flag. -/
def execFclass (h : Head) (t : Tail) (s : State) : Outcome State Fault Refusal :=
  fpForm h t s (fun _ z a _ _ => (2 ^ classBit z a, 0))

/-- FRINT (R155): never NX; NV for a signalling NaN. -/
def execFrint (h : Head) (t : Tail) (s : State) : Outcome State Fault Refusal :=
  fpForm h t s (fun rm z a _ _ => fpRound z (fpIntegral rm (fpSrc z a)) rm)

/-- FCVT (R159). -/
def execFcvt (h : Head) (t : Tail) (s : State) : Outcome State Fault Refusal :=
  fpForm h t s (fun rm z a _ _ =>
    let r := roundFtz z (cvtFormat (tailM t / 16)) (fpSrc z a) rm ((tailM t).testBit 3)
    (r.code, r.fl))

/-- FCVTI (R160). -/
def execFcvti (h : Head) (t : Tail) (s : State) : Outcome State Fault Refusal :=
  let w := 64 / 2 ^ (tailM t / 16 % 4)
  let sg := (tailM t).testBit 6
  runHead s h 1 (fun _ _ c st =>
    match operands .fp c t st with
    | .error x => .stop x
    | .ok (a, _, _, st1) =>
      let (i, f) := roundInt w sg (fpSrc c.ftz (a.toNat % 2 ^ 32)) (rmOf (tailM t))
      .ok ((st1.push (intPush sg w i) (tailD t)).raise f))

/-- ICVTF (R160). -/
def execIcvtf (h : Head) (t : Tail) (s : State) : Outcome State Fault Refusal :=
  let w := 64 / 2 ^ (tailM t / 16 % 4)
  let sg := (tailM t).testBit 6
  runHead s h 1 (fun _ _ c st =>
    match operands .fp c t st with
    | .error x => .stop x
    | .ok (a, _, _, st1) =>
      let (v, f) := fpRound c.ftz (.fin (Q.ofInt (intOf sg w a))) (rmOf (tailM t))
      .ok ((st1.push (BitVec.ofNat 64 v) (tailD t)).raise f))

/-- FCVTN (R159): elements of a and b, packed. -/
def execFcvtn (h : Head) (t : Tail) (s : State) : Outcome State Fault Refusal :=
  let fc := tailM t / 16
  runHead s h 1 (fun _ _ c st =>
    match operands .fp c t st with
    | .error x => .stop x
    | .ok (a, b, _, st1) =>
      let r := fun (x : Nat) =>
        roundFtz c.ftz (cvtFormat fc) (fpSrc c.ftz (x % 2 ^ 32)) (rmOf (tailM t)) ((tailM t).testBit 3)
      let lo := [r a.toNat, r (a.toNat / 2 ^ 32)]
      let (v, f) := cvtPack fc (if fc < 2 then lo else lo ++ [r b.toNat, r (b.toNat / 2 ^ 32)])
      .ok ((st1.push (BitVec.ofNat 64 v) (tailD t)).raise f))

/-- FCVTW (R159): the low bits of a that the code occupies, exactly. -/
def execFcvtw (h : Head) (t : Tail) (s : State) : Outcome State Fault Refusal :=
  fpForm h t s (fun rm z a _ _ =>
    let F := cvtFormat (tailM t / 16)
    let r := cvtFmt z F .fp32 (a % 2 ^ F.bits) rm false
    (r.code, r.fl))

/-- FMINNUM (R156). -/
def execFminnum (h : Head) (t : Tail) (s : State) : Outcome State Fault Refusal :=
  fpForm h t s (fun _ z a b _ => minMaxNum .fp32 false (ftzCode z .fp32 a) (ftzCode z .fp32 b))

/-- FMAXNUM (R156). -/
def execFmaxnum (h : Head) (t : Tail) (s : State) : Outcome State Fault Refusal :=
  fpForm h t s (fun _ z a b _ => minMaxNum .fp32 true (ftzCode z .fp32 a) (ftzCode z .fp32 b))

/-- FSCALE (R161): b is a 64-bit integer; a literal or constant is sign-extended. -/
def execFscale (h : Head) (t : Tail) (s : State) : Outcome State Fault Refusal :=
  runHead s h 1 (fun _ _ c st =>
    match operands (.int true) c t st with
    | .error x => .stop x
    | .ok (a, b, _, st1) =>
      let (v, f) := fpRound c.ftz (fpScale (fpSrc c.ftz (a.toNat % 2 ^ 32)) b.toInt) (rmOf (tailM t))
      .ok ((st1.push (BitVec.ofNat 64 v) (tailD t)).raise f))

/-- FLOGB (R161). -/
def execFlogb (h : Head) (t : Tail) (s : State) : Outcome State Fault Refusal :=
  fpForm h t s (fun _ z a _ _ => fpLogb z a)

/-- FEXP2 (R130). -/
def execFexp2 (h : Head) (t : Tail) (s : State) : Outcome State Fault Refusal :=
  fpForm h t s (fun _ z a _ _ => fnExp2 z a)

/-- FRCP (R130). -/
def execFrcp (h : Head) (t : Tail) (s : State) : Outcome State Fault Refusal :=
  fpForm h t s (fun _ z a _ _ => fnRcp z a)

/-- FRSQ (R130). -/
def execFrsq (h : Head) (t : Tail) (s : State) : Outcome State Fault Refusal :=
  fpForm h t s (fun _ z a _ _ => fnRsq z a)

end Sys2Proof.Machine
end

