-- ==== Sys2Proof/Machine/Vector.lean ====
section
/-! DEFINITION. The vector instructions (R181-R207). -/

namespace Sys2Proof.Machine

open Host (Outcome)

/-! ### Shapes (R181, R182) -/

/-- A shape: rows, columns, and the element's bytes. -/
structure Shape where
  nr : Nat
  nc : Nat
  e : Nat
  deriving DecidableEq, Repr

/-- Element bytes of a width code. -/
def widthBytes (code : Nat) : Nat := if code = 0 then 4 else if code = 1 then 2 else 1

/-- The width code of an element size. -/
def widthCode (e : Nat) : Nat := if e = 4 then 0 else if e = 2 then 1 else 2

/-- The shape that %vshape gives. -/
def Ctx.shape (c : Ctx) : Shape :=
  ⟨fld c.vshape 0 5 + 1, fld c.vshape 5 7 + 1, widthBytes (fld c.vshape 12 2)⟩

/-- The legality of a shape (R181). -/
def Shape.ok (x : Shape) : Bool := decide (x.nr ≤ 16 ∧ x.nc ≤ 64 ∧ x.nr * x.nc * x.e ≤ 1024)

/-- The legality of a value of %vshape (R181). -/
def vshapeOk (v : Nat) : Bool :=
  decide (v < 2 ^ 14) && decide (nfld v 12 2 ≠ 3) &&
    (Shape.mk (nfld v 0 5 + 1) (nfld v 5 7 + 1) (widthBytes (nfld v 12 2))).ok

/-- The value of %vshape for a shape. -/
def Shape.code (x : Shape) : Nat := (x.nr - 1) + (x.nc - 1) * 32 + widthCode x.e * 4096

/-- Element bytes of a TYPE (R186). -/
def tyBytes : Nat → Nat
  | 0 | 1 | 2 => 4
  | 3 | 4 | 5 | 6 => 2
  | _ => 1

/-- The format of an FP or storage TYPE. -/
def tyFmt : Nat → Fmt
  | 0 => .fp32
  | 3 => .bf16
  | 4 => .fp16
  | 7 => .e4m3
  | _ => .e5m2

/-- The signedness of an integer TYPE. -/
def tySigned (ty : Nat) : Bool := ty == 1 || ty == 5 || ty == 9

/-- An integer element as its TYPE reads it. -/
def tyInt (ty v : Nat) : Int := if tySigned ty then sint (8 * tyBytes ty) v else (v : Int)

/-! ### Registers -/

/-- `n` consecutive bytes from key `k` of a sparse store, in one pass. -/
def denseRead (m : List (Nat × Byte)) (k : Nat) : Nat → List Byte
  | 0 => []
  | n + 1 =>
    match m.dropWhile (fun e => decide (e.1 < k)) with
    | [] => 0 :: denseRead [] (k + 1) n
    | (a, x) :: r => if a = k then x :: denseRead r (k + 1) n else 0 :: denseRead ((a, x) :: r) (k + 1) n

/-- A byte list as elements of `e` bytes, little-endian. -/
def toElems (e : Nat) : Nat → List Byte → List Nat
  | 0, _ => []
  | n + 1, l => natLE (l.take e) :: toElems e n (l.drop e)

/-- `n` elements of a vector register in row-major order (R182). -/
def Ctx.elems (c : Ctx) (r e n : Nat) : List Nat := toElems e n (denseRead c.v (1024 * r) (e * n))

/-- The bytes of elements, as (position, byte) pairs. -/
def elemBytes (e : Nat) (l : List Nat) : List (Nat × Byte) :=
  ((l.flatMap (fun v => bytesLE e v)).zipIdx).map (fun x => (x.2, x.1))

/-- A write of a whole register (R183). -/
def Stage.putV (st : Stage) (r e : Nat) (l : List Nat) : Stage :=
  { st with vregs := st.vregs ++ [(r, true, elemBytes e l)] }

/-- Rows of a row-major list. -/
def toRows (nc : Nat) : Nat → List Nat → List (List Nat)
  | 0, _ => []
  | n + 1, l => l.take nc :: toRows nc n (l.drop nc)

/-- Column `j` of rows. -/
def column (rows : List (List Nat)) (j : Nat) : List Nat := rows.map (fun r => r.getD j 0)

/-! ### The frame of a vector form -/

/-- A vector form: its operands, then its body with the current shape. `n` is the push count. -/
def vecForm (h : Head) (t : Tail) (s : State) (n : Nat)
    (f : State → Nat → Ctx → Shape → Word → Word → Word → Stage → HeadResult) :
    Outcome State Fault Refusal :=
  runHead s h n (fun s g c st =>
    match operands (.int false) c t st with
    | .error x => .stop x
    | .ok (a, b, d, st1) => f s g c c.shape a b d st1)

/-- A form whose TYPE must match the width of %vshape (R186). A pop's own fault comes before SHAPE
(R190; DESIGN CHOICE, log 72). -/
def typedForm (h : Head) (t : Tail) (s : State) (n : Nat)
    (f : State → Nat → Ctx → Shape → Word → Word → Word → Stage → HeadResult) :
    Outcome State Fault Refusal :=
  vecForm h t s n (fun s g c x a b d st =>
    if tyBytes (vTy t) ≠ x.e then .stop (.of .shape) else f s g c x a b d st)

/-- A vector source in row-major order, or the broadcast of a scalar (R188). -/
def vecSrc (c : Ctx) (x : Shape) (scalar : Bool) (v : Word) (r : Nat) : List Nat :=
  if scalar then List.replicate (x.nr * x.nc) (v.toNat % 2 ^ (8 * x.e)) else c.elems r x.e (x.nr * x.nc)

/-- An integer result of a TYPE: clamped with SAT, else wrapped (R187, R193). -/
def tyResult (ty : Nat) (sat : Bool) (v : Int) : Nat :=
  let w := 8 * tyBytes ty
  wrapInt w (if sat then clampInt (tySigned ty) w v else v)

/-- A computed FP element: an exact value rounded to its own format (R193). -/
def fpElem (ftz : Bool) (ty : Nat) (rm : Rm) (v : Val) : Nat × Flags :=
  let r := roundFtz ftz (tyFmt ty) v rm false
  (r.code, r.fl)

/-- The results of an element operation and the OR of its flags. -/
def joinFlags (l : List (Nat × Flags)) : List Nat × Flags :=
  (l.map (fun x => x.1), l.foldl (fun f x => f ||| x.2) 0)

/-- Element-wise arithmetic (R193): `fp` from the mode, FTZ, the format and the three codes;
`int` the exact integer result. -/
def vecArith (h : Head) (t : Tail) (s : State)
    (fp : Rm → Bool → Nat → Nat → Nat → Nat → Nat × Flags) (int : Nat → Int → Int → Int → Int) :
    Outcome State Fault Refusal :=
  typedForm h t s 0 (fun _ _ c x _ b d st =>
    let ty := vTy t
    let xs := c.elems (vVA t) x.e (x.nr * x.nc)
    let ys := vecSrc c x (vBS t) b (vVB t)
    let zs := vecSrc c x (vCS t) d (vVC t)
    let one := fun (e : Nat × Nat × Nat) =>
      if vcls ty == some .fp then fp (rmOf (vNib t)) c.ftz ty e.1 e.2.1 e.2.2
      else (tyResult ty ((vNib t).testBit 3)
        (int (8 * x.e) (tyInt ty e.1) (tyInt ty e.2.1) (tyInt ty e.2.2)), 0)
    let (r, fl) := joinFlags ((xs.zip (ys.zip zs)).map one)
    .ok ((st.putV (vVD t) x.e r).raise fl))

/-- A source element decoded with FTZ (R124). -/
def vSrc (z : Bool) (ty v : Nat) : Val := srcVal z (tyFmt ty) v

/-! ### Reductions (R199) -/

/-- A 16-bit FP element converted to FP32 exactly; an FP32 element is only flushed. -/
def redElem (z : Bool) (ty v : Nat) : Nat × Flags :=
  if ty = 0 then (ftzCode z .fp32 v, 0)
  else
    let r := cvtFmt z (tyFmt ty) .fp32 v .rne false
    (r.code, r.fl)

/-- One step of an FP reduction on FP32 codes. -/
def redStepFp (z : Bool) (rm : Rm) (op : Nat) (acc e : Nat) : Nat × Flags :=
  match op with
  | 0 => fpRound z (addV rm (decodeFmt .fp32 acc) (decodeFmt .fp32 e)) rm
  | 1 => minMax .fp32 false acc e
  | _ => minMax .fp32 true acc e

/-- An FP reduction in index order. A NaN is delivered as the canonical NaN, also where no element
follows the first (R114); a signalling one then raises no NV (DESIGN CHOICE, log 81). -/
def reduceFp (z : Bool) (ty : Nat) (rm : Rm) (op : Nat) (l : List Nat) : Nat × Flags :=
  match l.map (redElem z ty) with
  | [] => (0, 0)
  | e0 :: es =>
    let (acc, fl) := es.foldl (fun (x : Nat × Flags) (e : Nat × Flags) =>
      let r := redStepFp z rm op x.1 e.1
      (r.1, x.2 ||| e.2 ||| r.2)) e0
    if ty = 0 then (passCode z .fp32 acc, fl)
    else
      let r := roundFtz z (tyFmt ty) (decodeFmt .fp32 acc) rm false
      (r.code, fl ||| r.fl)

/-- An integer reduction in index order. -/
def reduceInt (ty : Nat) (sat : Bool) (op : Nat) (l : List Nat) : Nat :=
  match l with
  | [] => 0
  | e0 :: es => es.foldl (fun acc e =>
    let a := tyInt ty acc
    let b := tyInt ty e
    tyResult ty (op == 0 && sat) (match op with
      | 0 => a + b
      | 1 => if b < a then b else a
      | _ => if a < b then b else a)) e0

/-- A reduction of lists of elements to one element each, with the new shape (R199). -/
def vecReduce (t : Tail) (c : Ctx) (x : Shape) (cols : Bool) (st : Stage) : HeadResult :=
  let ty := vTy t
  let rows := toRows x.nc x.nr (c.elems (vVA t) x.e (x.nr * x.nc))
  let lists := if cols then (List.range x.nc).map (column rows) else rows
  let (r, fl) := joinFlags (lists.map (fun l =>
    if vcls ty == some .fp then reduceFp c.ftz ty (rmOf (vNib t)) (vVC t) l
    else (reduceInt ty ((vNib t).testBit 3) (vVC t) l, 0)))
  let sh : Shape := if cols then ⟨1, x.nc, x.e⟩ else ⟨x.nr, 1, x.e⟩
  .ok (({ st with vshape := some sh.code }.putV (vVD t) x.e r).raise fl)

/-! ### Conversions (R200, R201) -/

/-- One element of VCVT. -/
def vcvtElem (z : Bool) (ty dt nib v : Nat) : Nat × Flags :=
  let sat := nib.testBit 3
  let fpOf := fun (n : Nat) => vcls n != some VCls.int
  if fpOf ty && fpOf dt then
    let r := cvtFmt z (tyFmt ty) (tyFmt dt) v (rmOf nib) (sat && dt != 0)
    (r.code, r.fl)
  else if fpOf ty then
    let w := 8 * tyBytes dt
    let r := roundInt w (tySigned dt) (vSrc z ty v) (rmOf nib)
    (wrapInt w r.1, r.2)
  else if fpOf dt then
    let r := roundFtz z (tyFmt dt) (.fin (Q.ofInt (tyInt ty v))) (rmOf nib) (sat && dt != 0)
    (r.code, r.fl)
  else (tyResult dt sat (tyInt ty v), 0)

/-- The packed formats of VPACK and VUNPK (R201). -/
def packFmt : Nat → Fmt
  | 4 => .e2m3
  | 5 => .e2m1
  | _ => .lg6

/-- Codes of `w` bits packed little-endian into a number (R118). -/
def packBits (w : Nat) : List Nat → Nat
  | [] => 0
  | c :: r => c % 2 ^ w + 2 ^ w * packBits w r

/-- `n` codes of `w` bits from a number. -/
def unpackBits (w : Nat) : Nat → Nat → List Nat
  | 0, _ => []
  | n + 1, v => v % 2 ^ w :: unpackBits w n (v / 2 ^ w)

/-! ### Welford statistics (R203) -/

/-- The state of a Welford row: count, mean and M2 as FP32 codes, with the flags so far. -/
abbrev Wf := (Nat × Nat × Nat) × Flags

/-- One rounded FP32 operation of a Welford step. -/
def wfOp (z : Bool) (rm : Rm) (v : Val) (f : Flags) : Nat × Flags :=
  let r := fpRound z v rm
  (r.1, f ||| r.2)

/-- VWFU's step for one element. -/
def wfStep (z : Bool) (rm : Rm) (x : Nat) (st : Wf) : Wf :=
  let V := fpSrc z
  let ((n, mu, m2), f0) := st
  let (n1, f1) := wfOp z rm (addV rm (V n) (.fin (Q.ofInt 1))) f0
  let (d, f2) := wfOp z rm (addV rm (V x) (negV (V mu))) f1
  let (qv, qf) := divV (V d) (V n1)
  let (q, f3) := wfOp z rm qv (f2 ||| qf)
  let (mu1, f4) := wfOp z rm (addV rm (V mu) (V q)) f3
  let (e, f5) := wfOp z rm (addV rm (V x) (negV (V mu1))) f4
  let (m21, f6) := wfOp z rm (fmaV rm (V d) (V e) (V m2)) f5
  ((n1, mu1, m21), f6)

/-- VWFM's merge of one row. A state that is taken over is flushed under FTZ (R124) and its NaNs are
canonical (R114); a signalling one raises no NV (DESIGN CHOICE, log 81). -/
def wfMerge (z : Bool) (rm : Rm) (B : Nat × Nat × Nat) (st : Wf) : Wf :=
  let V := fpSrc z
  let ((n, mu, m2), f0) := st
  let (nB, muB, m2B) := B
  if (V nB).isZero then st
  else if (V n).isZero then
    ((passCode z .fp32 nB, passCode z .fp32 muB, passCode z .fp32 m2B), f0)
  else
    let (N, f1) := wfOp z rm (addV rm (V n) (V nB)) f0
    let (d, f2) := wfOp z rm (addV rm (V muB) (negV (V mu))) f1
    let (wv, wf) := divV (V nB) (V N)
    let (w, f3) := wfOp z rm wv (f2 ||| wf)
    let (mu1, f4) := wfOp z rm (fmaV rm (V d) (V w) (V mu)) f3
    let (tt, f5) := wfOp z rm (mulV (V n) (V w)) f4
    let (q, f6) := wfOp z rm (mulV (V d) (V d)) f5
    let (sm, f7) := wfOp z rm (addV rm (V m2) (V m2B)) f6
    let (m21, f8) := wfOp z rm (fmaV rm (V q) (V tt) (V sm)) f7
    ((N, mu1, m21), f8)

/-- Row `i` of a Welford state register. -/
def wfRow (c : Ctx) (r i : Nat) : Nat × Nat × Nat :=
  match toElems 4 3 (denseRead c.v (1024 * r + 16 * i) 12) with
  | [a, b, d] => (a, b, d)
  | _ => (0, 0, 0)

/-- The write of Welford rows: only their own bytes (R203). -/
def Stage.putWf (st : Stage) (r : Nat) (rows : List (Nat × Wf)) : Stage :=
  let bytes := rows.flatMap (fun (x : Nat × Wf) =>
    (elemBytes 4 [x.2.1.1, x.2.1.2.1, x.2.1.2.2, 0]).map (fun b => (16 * x.1 + b.1, b.2)))
  { st with vregs := st.vregs ++ [(r, false, bytes)] }.raise (rows.foldl (fun f (x : Nat × Wf) => f ||| x.2.2) 0)

/-! ### Memory forms (R204, R205) -/

/-- The checks of every element address, in row-major order: the first that fails is reported
(R204). -/
def checkElems (s : State) (g e : Nat) (write : Bool) : List Nat → Except Stop (List Loc)
  | [] => .ok []
  | ea :: r =>
    match locate s g .plain ea e e write with
    | .error x => .error (.addr x ea)
    | .ok l =>
      match checkElems s g e write r with
      | .error x => .error x
      | .ok ls => .ok (l :: ls)

/-- Loads of elements in row-major order. -/
def loadElems (s : State) (g e : Nat) : List Nat → Stage → Except Stop (List Nat × Stage)
  | [], st => .ok ([], st)
  | ea :: r, st =>
    match loadBytes s g .plain ea e e st with
    | .error x => .error x
    | .ok (b, st1) =>
      match loadElems s g e r st1 with
      | .error x => .error x
      | .ok (vs, st2) => .ok (natLE b :: vs, st2)

/-- A vector load of elements at addresses into VD. -/
def vecLoad (s : State) (g vd e : Nat) (eas : List Nat) (st : Stage) : HeadResult :=
  match checkElems s g e false eas with
  | .error x => .stop x
  | .ok _ =>
    match loadElems s g e eas st with
    | .error x => .stop x
    | .ok (vs, st1) => .ok (st1.putV vd e vs)

/-- The element addresses of VLD and VST (R204). -/
def vecAddrs (x : Shape) (a b : Word) : List Nat :=
  (List.range x.nr).flatMap (fun (i : Nat) =>
    (List.range x.nc).map (fun (j : Nat) => wrapInt 64 ((a.toNat : Int) + i * b.toInt + j * x.e)))

/-- One element of a VST row: its address, where it lives, and its bytes. -/
abbrev VstElem := Nat × Loc × List Byte

/-- The runs of a row (R205): maximal, consecutive, of one home. The direct elements are left
out and break a run. -/
def vstRuns (c : Ctx) (e : Nat) : List VstElem → List (List VstElem)
  | [] => []
  | x :: r =>
    let rest := vstRuns c e r
    if isPrivate c x.1 e then [] :: rest
    else
      match rest with
      | [] => [[x]]
      | [] :: more => [x] :: more
      | (y :: ys) :: more =>
        if y.2.1.home = x.2.1.home then (x :: y :: ys) :: more else [x] :: (y :: ys) :: more

/-- The stores of a run: consecutive keys are one store, cut to packets. -/
def runParts (tag : GenTag) : List VstElem → List (Nat × Loc × List Byte)
  | [] => []
  | x :: r =>
    match runParts tag r with
    | [] => [x]
    | (ea, l, b) :: more =>
      if l.key = x.2.1.key + x.2.2.length then (x.1, x.2.1, x.2.2 ++ b) :: more
      else x :: (ea, l, b) :: more

/-- The held effect of a run (R205, R37). -/
def runEffect (t : Tail) (tag : GenTag) (row : Nat) (run : List VstElem) : Option Effect :=
  match run with
  | [] => none
  | x :: _ =>
    some (mkEffect 0x82 t row x.1 (run.flatMap (fun y => y.2.2))
      ((runParts tag run).flatMap (fun p => storeParts tag p.2.1.home p.2.1.key p.1 p.2.2 32)))

/-- Direct elements are written at once. -/
def vstDirect (s : State) (g e : Nat) (c : Ctx) : List VstElem → Stage → Except Stop Stage
  | [], st => .ok st
  | x :: r, st =>
    if isPrivate c x.1 e then
      match directStore s g x.2.1 x.1 x.2.2 st with
      | .error y => .error y
      | .ok st1 => vstDirect s g e c r st1
    else vstDirect s g e c r st

/-- Rows of a list of VST elements. -/
def vstRows (nc : Nat) : Nat → List VstElem → List (List VstElem)
  | 0, _ => []
  | n + 1, l => l.take nc :: vstRows nc n (l.drop nc)

/-- VST (R204, R205). -/
def vecStore (s : State) (g : Nat) (c : Ctx) (t : Tail) (x : Shape) (a b : Word) (st : Stage) :
    HeadResult :=
  let eas := vecAddrs x a b
  match checkElems s g x.e true eas with
  | .error y => .stop y
  | .ok ls =>
    let els : List VstElem :=
      (eas.zip (ls.zip ((c.elems (vVA t) x.e (x.nr * x.nc)).map (fun v => bytesLE x.e v))))
    match vstDirect s g x.e c els st with
    | .error y => .stop y
    | .ok st1 =>
      let tag := tagOf s (tileOf g) c.asid
      let es := ((vstRows x.nc x.nr els).zipIdx).flatMap (fun (r : List VstElem × Nat) =>
        (vstRuns c x.e r.1).filterMap (runEffect t tag r.2))
      let st2 := eas.foldl (fun st ea => st.walked s g ea) st1
      .ok (if es.isEmpty then st2 else st2.act (.effects es))

/-! ### Streams (R207) -/

/-- Pops up to `n` values from a queue: fewer only when the record becomes idle first. Where the queue holds fewer
as yet the bundle waits, while the pacer brings as many as it needs (DESIGN CHOICE, log 92). -/
def popMany (c : Ctx) (k : Nat) : Nat → Stage → Except Stop (List Word × Stage)
  | 0, st => .ok ([], st)
  | n + 1, st =>
    let r := c.streams.toList.getD k Stream.idle
    if !isIndexSource c k && r.fetched == r.count &&
        decide (r.queue.length ≤ (st.pops.filter (· == k)).length) then .ok ([], st)
    else
      match popStream c st k with
      | .error x => .error x
      | .ok (v, st1) =>
        match popMany c k n st1 with
        | .error x => .error x
        | .ok (vs, st2) => .ok (v :: vs, st2)

/-! ### The instructions -/

/-- VSHAPE (R192). -/
def execVshape (h : Head) (t : Tail) (s : State) : Outcome State Fault Refusal :=
  vecForm h t s 0 (fun _ _ _ _ a _ _ st =>
    if vshapeOk a.toNat then .ok { st with vshape := some a.toNat } else .stop (.of .shape))

/-- VLD (R204, R205). -/
def execVld (h : Head) (t : Tail) (s : State) : Outcome State Fault Refusal :=
  vecForm h t s 0 (fun s g _ x a b _ st => vecLoad s g (vVD t) x.e (vecAddrs x a b) st)

/-- VST (R204, R205). -/
def execVst (h : Head) (t : Tail) (s : State) : Outcome State Fault Refusal :=
  vecForm h t s 0 (fun s g c x a b _ st => vecStore s g c t x a b st)

/-- VGATH (R204). -/
def execVgath (h : Head) (t : Tail) (s : State) : Outcome State Fault Refusal :=
  typedForm h t s 0 (fun s g c x a _ _ st =>
    let eas := (c.elems (vVB t) x.e (x.nr * x.nc)).map (fun v =>
      wrapInt 64 ((a.toNat : Int) + tyInt (vTy t) v * (2 ^ (vNib t % 4) : Nat)))
    vecLoad s g (vVD t) x.e eas st)

/-- VADD (R193). -/
def execVadd (h : Head) (t : Tail) (s : State) : Outcome State Fault Refusal :=
  vecArith h t s (fun rm z ty x y _ => fpElem z ty rm (addV rm (vSrc z ty x) (vSrc z ty y)))
    (fun _ x y _ => x + y)

/-- VSUB (R193). -/
def execVsub (h : Head) (t : Tail) (s : State) : Outcome State Fault Refusal :=
  vecArith h t s (fun rm z ty x y _ => fpElem z ty rm (addV rm (vSrc z ty x) (negV (vSrc z ty y))))
    (fun _ x y _ => x - y)

/-- VMUL (R193): an integer result is the low bits before SAT. -/
def execVmul (h : Head) (t : Tail) (s : State) : Outcome State Fault Refusal :=
  vecArith h t s (fun rm z ty x y _ => fpElem z ty rm (mulV (vSrc z ty x) (vSrc z ty y)))
    (fun w x y _ => tyInt (vTy t) (wrapInt w (x * y)))

/-- VFMA (R193): one rounding. -/
def execVfma (h : Head) (t : Tail) (s : State) : Outcome State Fault Refusal :=
  vecArith h t s
    (fun rm z ty x y u => fpElem z ty rm (fmaV rm (vSrc z ty x) (vSrc z ty y) (vSrc z ty u)))
    (fun _ x y u => x * y + u)

/-- VMIN (R193). -/
def execVmin (h : Head) (t : Tail) (s : State) : Outcome State Fault Refusal :=
  vecArith h t s
    (fun _ z ty x y _ => minMax (tyFmt ty) false (ftzCode z (tyFmt ty) x) (ftzCode z (tyFmt ty) y))
    (fun _ x y _ => if y < x then y else x)

/-- VMAX (R193). -/
def execVmax (h : Head) (t : Tail) (s : State) : Outcome State Fault Refusal :=
  vecArith h t s
    (fun _ z ty x y _ => minMax (tyFmt ty) true (ftzCode z (tyFmt ty) x) (ftzCode z (tyFmt ty) y))
    (fun _ x y _ => if x < y then y else x)

/-- VDIV (R193): as FDIV, or as DIV with the results of R146. A quotient by zero is 2^w - 1, which SAT
clamps to the type's greatest value (DEDUCED, log 47). -/
def execVdiv (h : Head) (t : Tail) (s : State) : Outcome State Fault Refusal :=
  vecArith h t s
    (fun rm z ty x y _ =>
      let (v, f) := divV (vSrc z ty x) (vSrc z ty y)
      let r := fpElem z ty rm v
      (r.1, r.2 ||| f))
    (fun w x y _ => if y = 0 then (2 ^ w : Nat) - 1
      else if tySigned (vTy t) then sint w (wrapInt w (x.tdiv y)) else x.tdiv y)

/-- VCMP (R194): the mask, and the predicate under ALL or ANY. -/
def execVcmp (h : Head) (t : Tail) (s : State) : Outcome State Fault Refusal :=
  typedForm h t s 0 (fun _ _ c x _ b _ st =>
    let ty := vTy t
    let cond := vNib t % 8
    let sig := (vNib t).testBit 3
    let xs := c.elems (vVA t) x.e (x.nr * x.nc)
    let ys := vecSrc c x (vBS t) b (vVB t)
    let res := (xs.zip ys).map (fun (e : Nat × Nat) =>
      if vcls ty == some .fp then
        (fpRel cond (vSrc c.ftz ty e.1) (vSrc c.ftz ty e.2),
          fpRelFlags sig (vSrc c.ftz ty e.1) (vSrc c.ftz ty e.2))
      else (fpRel cond (.fin (Q.ofInt (tyInt ty e.1))) (.fin (Q.ofInt (tyInt ty e.2))), 0))
    let all := vX t / 2 == 1
    let p := if all then res.all (fun r => r.1) else res.any (fun r => r.1)
    let mask := res.map (fun r => if r.1 then 2 ^ (8 * x.e) - 1 else 0)
    .ok (((st.putV (vVD t) x.e mask).setPred (vVC t) p).raise (res.foldl (fun f r => f ||| r.2) 0)))

/-- VSEL (R195): moves bits. -/
def execVsel (h : Head) (t : Tail) (s : State) : Outcome State Fault Refusal :=
  typedForm h t s 0 (fun _ _ c x _ b _ st =>
    let xs := c.elems (vVA t) x.e (x.nr * x.nc)
    let ys := vecSrc c x (vBS t) b (vVB t)
    let ms := c.elems (vVC t) x.e (x.nr * x.nc)
    .ok (st.putV (vVD t) x.e ((xs.zip (ys.zip ms)).map (fun (e : Nat × Nat × Nat) =>
      if e.2.2 != 0 then e.1 else e.2.1))))

/-- VREDR (R199). -/
def execVredr (h : Head) (t : Tail) (s : State) : Outcome State Fault Refusal :=
  typedForm h t s 0 (fun _ _ c x _ _ _ st => vecReduce t c x false st)

/-- VREDC (R199). -/
def execVredc (h : Head) (t : Tail) (s : State) : Outcome State Fault Refusal :=
  typedForm h t s 0 (fun _ _ c x _ _ _ st => vecReduce t c x true st)

/-- VBCAST.SC (R196): the scalar srcB in every element. -/
def execVbcastSc (h : Head) (t : Tail) (s : State) : Outcome State Fault Refusal :=
  typedForm h t s 0 (fun _ _ c x _ b _ st => .ok (st.putV (vVD t) x.e (vecSrc c x true b 0)))

/-- VBCAST.ROW (R196): row a[3:0] in every row. -/
def execVbcastRow (h : Head) (t : Tail) (s : State) : Outcome State Fault Refusal :=
  typedForm h t s 0 (fun _ _ c x a _ _ st =>
    let rows := toRows x.nc x.nr (c.elems (vVA t) x.e (x.nr * x.nc))
    let k := a.toNat % 16
    if x.nr ≤ k then .stop (.of .shape)
    else .ok (st.putV (vVD t) x.e ((List.replicate x.nr (rows.getD k [])).flatten)))

/-- VBCAST.COL (R196): column a[5:0] in every column. -/
def execVbcastCol (h : Head) (t : Tail) (s : State) : Outcome State Fault Refusal :=
  typedForm h t s 0 (fun _ _ c x a _ _ st =>
    let rows := toRows x.nc x.nr (c.elems (vVA t) x.e (x.nr * x.nc))
    let k := a.toNat % 64
    if x.nc ≤ k then .stop (.of .shape)
    else .ok (st.putV (vVD t) x.e (rows.flatMap (fun r => List.replicate x.nc (r.getD k 0)))))

/-- VTRAN (R197). -/
def execVtran (h : Head) (t : Tail) (s : State) : Outcome State Fault Refusal :=
  typedForm h t s 0 (fun _ _ c x _ _ _ st =>
    let sh : Shape := ⟨x.nc, x.nr, x.e⟩
    if !sh.ok then .stop (.of .shape)
    else
      let rows := toRows x.nc x.nr (c.elems (vVA t) x.e (x.nr * x.nc))
      .ok ({ st with vshape := some sh.code }.putV (vVD t) x.e ((List.range x.nc).flatMap (column rows))))

/-- VCVT (R200). -/
def execVcvt (h : Head) (t : Tail) (s : State) : Outcome State Fault Refusal :=
  typedForm h t s 0 (fun _ _ c x _ _ _ st =>
    let dt := vDTy t
    let sh : Shape := ⟨x.nr, x.nc, tyBytes dt⟩
    if !sh.ok then .stop (.of .shape)
    else
      let (r, fl) := joinFlags ((c.elems (vVA t) x.e (x.nr * x.nc)).map
        (vcvtElem c.ftz (vTy t) dt (vNib t)))
      .ok (({ st with vshape := some sh.code }.putV (vVD t) sh.e r).raise fl))

/-- VPACK (R201). -/
def execVpack (h : Head) (t : Tail) (s : State) : Outcome State Fault Refusal :=
  typedForm h t s 0 (fun _ _ c x _ _ _ st =>
    let F := packFmt (vVC t)
    let w := F.bits
    let sh : Shape := ⟨x.nr, x.nc * w / 8, 1⟩
    if (if w = 4 then x.nc % 2 else x.nc % 4) ≠ 0 || !sh.ok then .stop (.of .shape)
    else
      let (r, fl) := joinFlags ((c.elems (vVA t) x.e (x.nr * x.nc)).map (fun v =>
        let q := cvtFmt c.ftz .fp32 F v (rmOf (vNib t)) ((vNib t).testBit 3)
        (q.code, q.fl)))
      let bytes := (toRows x.nc x.nr r).flatMap (fun row =>
        (bytesLE sh.nc (packBits w row)).map (fun b => b.toNat))
      .ok (({ st with vshape := some sh.code }.putV (vVD t) 1 bytes).raise fl))

/-- VUNPK (R201): exact; no flag. -/
def execVunpk (h : Head) (t : Tail) (s : State) : Outcome State Fault Refusal :=
  typedForm h t s 0 (fun _ _ c x _ _ _ st =>
    let F := packFmt (vVC t)
    let w := F.bits
    let n := x.nc * 8 / w
    let sh : Shape := ⟨x.nr, n, 4⟩
    if (w == 6 && x.nc % 3 != 0) || decide (64 < n) || !sh.ok then .stop (.of .shape)
    else
      let vals := (toRows x.nc x.nr (c.elems (vVA t) 1 (x.nr * x.nc))).flatMap (fun row =>
        (unpackBits w n (packBits 8 row)).map (fun v => (cvtFmt c.ftz F .fp32 v .rne false).code))
      .ok ({ st with vshape := some sh.code }.putV (vVD t) 4 vals))

/-- The four special functions, element by element (R202). -/
def vecSpecial (h : Head) (t : Tail) (s : State) (f : Bool → Nat → Nat × Flags) :
    Outcome State Fault Refusal :=
  typedForm h t s 0 (fun _ _ c x _ _ _ st =>
    let (r, fl) := joinFlags ((c.elems (vVA t) x.e (x.nr * x.nc)).map (f c.ftz))
    .ok ((st.putV (vVD t) x.e r).raise fl))

/-- VEXP2 (R202). -/
def execVexp2 (h : Head) (t : Tail) (s : State) : Outcome State Fault Refusal := vecSpecial h t s fnExp2

/-- VLOG2 (R202). -/
def execVlog2 (h : Head) (t : Tail) (s : State) : Outcome State Fault Refusal := vecSpecial h t s fnLog2

/-- VRCP (R202). -/
def execVrcp (h : Head) (t : Tail) (s : State) : Outcome State Fault Refusal := vecSpecial h t s fnRcp

/-- VRSQ (R202). -/
def execVrsq (h : Head) (t : Tail) (s : State) : Outcome State Fault Refusal := vecSpecial h t s fnRsq

/-- VWFU (R203). -/
def execVwfu (h : Head) (t : Tail) (s : State) : Outcome State Fault Refusal :=
  typedForm h t s 0 (fun _ _ c x _ _ _ st =>
    let rm := rmOf (vNib t)
    let rows := (toRows x.nc x.nr (c.elems (vVA t) 4 (x.nr * x.nc))).zipIdx
    .ok (st.putWf (vVD t) (rows.map (fun (r : List Nat × Nat) =>
      (r.2, r.1.foldl (fun (a : Wf) e => wfStep c.ftz rm e a) (wfRow c (vVD t) r.2, 0))))))

/-- VWFM (R203). A row that stays as it is is not written. -/
def execVwfm (h : Head) (t : Tail) (s : State) : Outcome State Fault Refusal :=
  typedForm h t s 0 (fun _ _ c x _ _ _ st =>
    let rm := rmOf (vNib t)
    let rows := (List.range x.nr).filter (fun i => !(fpSrc c.ftz (wfRow c (vVA t) i).1).isZero)
    .ok (st.putWf (vVD t) (rows.map (fun i =>
      (i, wfMerge c.ftz rm (wfRow c (vVA t) i) (wfRow c (vVD t) i, 0))))))

/-- The element position that srcB names, or SHAPE (R206). -/
def movsPos (x : Shape) (b : Word) : Option Nat :=
  if x.nr ≤ fld b 8 4 ∨ x.nc ≤ fld b 0 6 then none else some ((fld b 8 4 * x.nc + fld b 0 6) * x.e)

/-- VMOVS.GET (R206). -/
def execVmovsGet (h : Head) (t : Tail) (s : State) : Outcome State Fault Refusal :=
  typedForm h t s 1 (fun _ _ c x _ b _ st =>
    match movsPos x b with
    | none => .stop (.of .shape)
    | some p =>
      let v := natLE (denseRead c.v (1024 * vVA t + p) x.e)
      .ok (st.push (if tySigned (vTy t) then BitVec.ofInt 64 (sint (8 * x.e) v) else BitVec.ofNat 64 v)
        (tailD t)))

/-- VMOVS.PUT (R206): the bytes of one element. -/
def execVmovsPut (h : Head) (t : Tail) (s : State) : Outcome State Fault Refusal :=
  typedForm h t s 0 (fun _ _ _ x a b _ st =>
    match movsPos x b with
    | none => .stop (.of .shape)
    | some p =>
      .ok { st with vregs := st.vregs ++
        [(vVD t, false, (elemBytes x.e [a.toNat]).map (fun y => (p + y.1, y.2)))] })

/-- VSPOP (R207): SHAPE comes before the faults of its pops (R190; DESIGN CHOICE, log 72). -/
def execVspop (h : Head) (t : Tail) (s : State) : Outcome State Fault Refusal :=
  runHead s h 1 (fun _ _ c st =>
    let x := c.shape
    if tyBytes (vTy t) ≠ x.e then .stop (.of .shape)
    else
      match tailA t with
      | .pop k =>
        match popMany c k.toNat (x.nr * x.nc) st with
        | .error y => .stop y
        | .ok (vs, st1) =>
          let vals := (List.range (x.nr * x.nc)).map (fun i => (vs.getD i 0).toNat % 2 ^ (8 * x.e))
          .ok ((st1.putV (vVD t) x.e vals).push (BitVec.ofNat 64 vs.length) (tailD t))
      | _ => .stop (.of .illegalOperand))

end Sys2Proof.Machine
end

