-- ==== Sys2Proof/Machine/Outriders.lean ====
section
/-! DEFINITION. The outriders and the pacers: command queues, copy and stream walks, CRC chains,
command lists, the submission port, and the reads of stream records (R328-R349, R446, R451,
R457). -/

namespace Sys2Proof.Machine

open Host (Outcome)

/-! ### The pacer (R345, R348) -/

/-- Puts a stream record into a context. -/
def setStream (c : Ctx) (k : Nat) (r : Stream) : Ctx :=
  if h : k < 8 then { c with streams := c.streams.set k r } else c

/-- The bytes of an element. -/
def Stream.size (r : Stream) : Nat := 2 ^ r.log2sz

/-- The address of element `e` of a record without an index (R345). -/
def Stream.addr (r : Stream) (e : Nat) : Nat :=
  wrapInt 64 ((r.base : Int) + (e % r.n0 : Nat) * r.s0 + (e / r.n0 : Nat) * r.s1)

/-- The address of an element with index value `v` (R345). -/
def Stream.indexed (r : Stream) (v : Word) : Nat := wrapInt 64 ((r.base : Int) + v.toInt * (2 ^ r.shift : Nat))

/-- An element joins a record's queue. -/
def Stream.enqueue (r : Stream) (v : Word × Option (Nat × Nat)) : Stream :=
  { r with queue := r.queue ++ [v], fetched := r.fetched + 1 }

/-- The pacer reads the element of record `k` at an address, as a load of the context (R348). -/
def pacerLoad (s : State) (g k a : Nat) : Option State :=
  let r := (s.ctx g).streams.toList.getD k Stream.idle
  let put := fun (s : State) (v : Word × Option (Nat × Nat)) =>
    s.modCtx g (fun c => setStream c k ((c.streams.toList.getD k Stream.idle).enqueue v))
  match loadBytes s g .plain a r.size r.size (Stage.start 0 s.cycle) with
  | .ok (bs, st) => some (put (runActs s g st.acts).1 (intPush r.sext (8 * r.size) (natLE bs), none))
  | .error .stall => none
  | .error (.fault f) => some (put (logPte s g f.pte) (0, some (f.cause.code, a)))
  | .error (.poison _ inj) =>
    some (put (match inj with
      | some key => injFire s (tileOf g) key
      | none => s) (0, some (Cause.uncorrectable.code, a)))

/-- The elements of a queue that the VSPOP heads of the bundle at a context's PC wait for. They may need more than
the 16 that R348 lets a pacer queue: it then goes on as they are popped (R207; DESIGN CHOICE, log 92). -/
def vspopNeed (c : Ctx) (k : Nat) : Nat :=
  match c.heldLine c.pc with
  | none => 0
  | some b =>
    let i := headOf c.pc
    ((List.range (bundleLast b 3 i + 1 - i)).map (fun j => match decodeLineHead b (i + j) with
      | .ok (.vspop _ t) => (match tailA t with
        | .pop q => if q.toNat = k then c.shape.nr * c.shape.nc else 0
        | _ => 0)
      | _ => 0)).sum

/-- PACER_READ (R348): `who` is the context and `idx` the stream. An indexed element takes the value
of the same number of its index source; the pacer brings that source to it first. -/
def tryPacerRead (s : State) : Option State :=
  let g := s.ev.who
  let k := s.ev.idx
  let c := s.ctx g
  let r := c.streams.toList.getD k Stream.idle
  if !(c.st == .run || c.st == .wait) || r.isIdle || decide (r.count ≤ r.fetched) ||
      decide (max 16 (vspopNeed c k) ≤ r.queue.length) then none
  else if !r.idx then pacerLoad s g k (r.addr r.fetched)
  else
    let x := c.streams.toList.getD r.isrc Stream.idle
    let put := fun (v : Word × Option (Nat × Nat)) =>
      s.setCtx g (setStream (setStream c r.isrc { x with queue := x.queue.tail, popped := x.popped + 1 }) k
        (r.enqueue v))
    if x.count ≤ r.fetched then
      some (s.setCtx g (setStream c k (r.enqueue (0, some (Cause.illegalOperand.code, r.base)))))
    else if x.popped ≠ r.fetched then
      some (s.setCtx g (setStream c r.isrc { x with queue := [], fetched := r.fetched, popped := r.fetched }))
    else
      match x.queue.head? with
      | none => none
      | some (_, some f) => some (put (0, some f))
      | some (v, none) =>
        pacerLoad (s.setCtx g (setStream c r.isrc { x with queue := x.queue.tail, popped := x.popped + 1 })) g k
          (r.indexed v)

/-- PACER_READ (R348). -/
def execPacerRead (s : State) : Outcome State Fault Refusal := eventStep tryPacerRead s

/-! ### Fields of a command (R333, R334) -/

/-- CODE. -/
def Copy.code (c : Copy) : Nat := natAt c.head 0 1
/-- FLAGS. -/
def Copy.flags (c : Copy) : Nat := natAt c.head 1 1
/-- EXT. -/
def Copy.hasExt (c : Copy) : Bool := c.flags.testBit 0
/-- CRC. -/
def Copy.crcOn (c : Copy) : Bool := c.flags.testBit 1
/-- CHAIN. -/
def Copy.chains (c : Copy) : Bool := c.flags.testBit 2
/-- CHECK. -/
def Copy.checks (c : Copy) : Bool := c.flags.testBit 3
/-- E, the bytes of an element. -/
def Copy.elem (c : Copy) : Nat := 2 ^ natAt c.head 2 1
/-- CRCX. -/
def Copy.crcx (c : Copy) : Nat := natAt c.head 4 4
/-- SRC. -/
def Copy.src (c : Copy) : Nat := natAt c.head 8 8
/-- DST. -/
def Copy.dst (c : Copy) : Nat := natAt c.head 16 8
/-- The word of counter `k`. -/
def Copy.cntWord (c : Copy) (k : Nat) : Nat :=
  if k < 4 then natAt c.head (24 + 8 * k) 8 else natAt c.ext (8 * (k - 4)) 8
/-- The count of counter `k`; 0 is taken as 1. -/
def Copy.cnt (c : Copy) (k : Nat) : Nat := max 1 (nfld (c.cntWord k) 0 16)
/-- The source stride of counter `k`. -/
def Copy.ss (c : Copy) (k : Nat) : Int := sint 24 (nfld (c.cntWord k) 16 24)
/-- The destination stride of counter `k`. -/
def Copy.ds (c : Copy) (k : Nat) : Int := sint 24 (nfld (c.cntWord k) 40 24)
/-- The source bound of counter `k`. -/
def Copy.bnd (c : Copy) (k : Nat) : Nat := natAt c.ext (16 + 2 * k) 2
/-- BAR, a tile-local offset, or 0. -/
def Copy.bar (c : Copy) : Nat := natAt c.head 56 4 % 2 ^ 17 * 16
/-- CRCO. -/
def Copy.crco (c : Copy) : Nat := natAt c.ext 32 8
/-- WBASE. -/
def Copy.wbase (c : Copy) : Nat := natAt c.ext 40 4
/-- B, the bytes of a stream slot. -/
def Copy.slotBytes (c : Copy) : Nat := 32 * natAt c.ext 44 2
/-- NSLOT. -/
def Copy.nslot (c : Copy) : Nat := natAt c.ext 46 1

/-- The command is a walk. -/
def Copy.walks (c : Copy) : Bool := c.code == 1 || c.code == 2
/-- The elements of its walk. -/
def Copy.total (c : Copy) : Nat :=
  if c.walks then ((List.range 6).map c.cnt).foldl (fun a b => a * b) 1 else 0

/-- Index `k` of the tuple at a linear index (R336). -/
def Copy.index (c : Copy) (pos k : Nat) : Nat :=
  pos / ((List.range k).map c.cnt).foldl (fun a b => a * b) 1 % c.cnt k

/-- The source address of an element (R336). -/
def Copy.srcAt (c : Copy) (pos : Nat) : Nat :=
  wrapInt 64 ((c.src : Int) + ((List.range 6).map (fun k =>
    let i := c.index pos k
    ((if c.bnd k = 0 then i else min i (c.bnd k - 1) : Nat) : Int) * c.ss k)).foldl (fun a b => a + b) 0)

/-- The destination address of an element: in the window for a STREAM (R336, R340). -/
def Copy.dstAt (c : Copy) (pos : Nat) : Nat :=
  if c.code = 2 then
    let n := pos * c.elem
    c.wbase + c.slotBytes * (n / c.slotBytes % c.nslot) + n % c.slotBytes
  else
    wrapInt 64 ((c.dst : Int) +
      ((List.range 6).map (fun k => (c.index pos k : Int) * c.ds k)).foldl (fun a b => a + b) 0)

/-! ### The checks of R338 -/

/-- Bytes `lo` to `hi - 1` of a packet are zero. -/
def zeroBytes (b : List Byte) (lo hi : Nat) : Bool := natAt b lo (hi - lo) == 0

/-- Check 1 on a command of a queue or list (R333-R335, R340, R341); `tag` says that byte 63 carries
the sequence tag. -/
def Copy.fieldsOk (c : Copy) (tag : Bool) : Bool :=
  let inQueue := c.list.isNone
  let noStream := zeroBytes c.ext 40 44 && zeroBytes c.ext 44 46 && zeroBytes c.ext 46 47 && zeroBytes c.ext 48 52
  (c.code == 0 || c.code == 1 || c.code == 2 || (c.code == 0x10 && inQueue)) &&
  decide (c.flags < 16) && decide (natAt c.head 2 1 ≤ 5) && zeroBytes c.head 3 4 &&
  (c.checks || c.crcx == 0) && decide (natAt c.head 56 4 < 2 ^ 17) && zeroBytes c.head 60 63 &&
  (tag || (zeroBytes c.head 63 64 && zeroBytes c.ext 63 64)) &&
  (c.crcOn || !(c.chains || c.checks)) &&
  zeroBytes c.ext 30 32 && zeroBytes c.ext 47 48 && decide (natAt c.ext 48 4 < 2 ^ 17) &&
  zeroBytes c.ext 52 63 && c.crco % 4 == 0 && decide (c.crco + 4 ≤ Config.tableArea) &&
  (if c.code == 2 then
    c.hasExt && c.bar != 0 && c.rbar != 0 && c.dst == 0 && (List.range 6).all (fun k => c.ds k == 0) &&
    c.wbase % 32 == 0 && decide (1 ≤ natAt c.ext 44 2 ∧ natAt c.ext 44 2 ≤ 512) &&
    decide (1 ≤ c.nslot ∧ c.nslot ≤ 15)
   else noStream)

/-- Check 2: the handle (R338, R377). -/
def handleOk (s : State) (t handle asid : Nat) : Bool :=
  (checkHandle s t (handle / 256) (handle % 256) 26).isNone && nfld (capEntry s t (handle / 256)) 16 8 == asid

/-- Check 3: alignment (R337), and of a list (R342). -/
def Copy.aligned (c : Copy) : Bool :=
  if c.walks then
    c.src % c.elem == 0 && c.dst % c.elem == 0 &&
    (List.range 6).all (fun k => c.ss k % (c.elem : Int) == 0 && c.ds k % (c.elem : Int) == 0)
  else c.code != 0x10 || c.src % 64 == 0

/-- Where a packet of a list, or a queue slot, lies: the own scratchpad or the own vault. -/
def ownLoc (s : State) (t asid a : Nat) : Option Loc :=
  if 2 ^ 24 ≤ a ∧ a < 2 ^ 25 then none else engineLoc s t asid a false false

/-- Check 4: the spaces of the first element, or of the list's first packet. -/
def Copy.spacesOk (s : State) (t : Nat) (c : Copy) : Bool :=
  if c.walks then
    (engineLoc s t c.asid (c.srcAt 0) false false).isSome && (engineLoc s t c.asid (c.dstAt 0) true true).isSome &&
    (c.code != 2 || decide (c.wbase + c.slotBytes * c.nslot ≤ 2 ^ 21))
  else c.code != 0x10 || (ownLoc s t c.asid c.src).isSome

/-- The number of the first of checks 1-4 that fails, or 0. -/
def firstFailure (s : State) (t handle : Nat) (tag : Bool) (c : Copy) : Nat :=
  if !c.fieldsOk tag then 1 else if !handleOk s t handle c.asid then 2
  else if !c.aligned then 3 else if !c.spacesOk s t then 4 else 0

/-! ### Reports -/

/-- Changes the outrider of a tile. -/
def modOut (s : State) (t : Nat) (f : Outrider → Outrider) : State := s.modTile t (fun x => { x with out := f x.out })

/-- A queue of a tile. -/
def queueAt (s : State) (t k : Nat) : Option Queue := tabFind (s.tile t).out.queues k

/-- Changes a queue of a tile. -/
def modQueue (s : State) (t k : Nat) (f : Queue → Queue) : State :=
  match queueAt s t k with
  | some q => modOut s t (fun o => { o with queues := tabSet o.queues k (f q) })
  | none => s

/-- Changes a list in progress. -/
def modList (s : State) (t id : Nat) (f : CmdList → CmdList) : State :=
  modOut s t (fun o => { o with lists := o.lists.map (fun l => if l.id = id then f l else l) })

/-- Replaces a command. -/
def setCmd (s : State) (t : Nat) (c : Copy) : State :=
  modOut s t (fun o => { o with cmds := o.cmds.map (fun x => if x.id = c.id then c else x) })

/-- Removes a command, and with the last one of a queue that is no longer registered the queue (log 27). -/
def delCmd (s : State) (t id : Nat) : State :=
  modOut s t (fun o =>
    let cmds := o.cmds.filter (fun x => x.id != id)
    { o with
      cmds := cmds
      queues := o.queues.filter (fun (q : Nat × Queue) => decide (q.1 < 8) || cmds.any (fun x => x.queue == q.1)) })

/-- The launch of a command's queue. -/
def cmdSlot (s : State) (t : Nat) (c : Copy) : Nat := ((queueAt s t c.queue).map (fun q => q.lslot)).getD 0
/-- The QCB of a command's queue. -/
def cmdQcb (s : State) (t : Nat) (c : Copy) : Nat := ((queueAt s t c.queue).map (fun q => q.qcb)).getD 0

/-- The arrival of a command, or an entry where it names no barrier and failed (R414). -/
def copyArrive (s : State) (t : Nat) (c : Copy) (cls ab : Nat) : State :=
  if c.bar ≠ 0 then sendArrival s t (cmdSlot s t c) (some ⟨t, c.bar⟩) (cls != 0) cls ab
  else if cls = 0 then s else logAt s 8 (0x30 + cls) t (cmdSlot s t c) (cmdQcb s t c) c.id

/-- A list learns what a command of it reported (R342). -/
def listReport (s : State) (t : Nat) (list : Option Nat) (cls ab : Nat) : State :=
  match list with
  | none => s
  | some id => modList s t id (fun l => { l with
      flt := l.flt || cls != 0, cls := if l.cls = 0 then cls else l.cls, aband := l.aband + ab })

/-- A rejected command: its arrival with ABANDON, and an entry that names the check (R338). -/
def rejectCopy (s : State) (t : Nat) (c : Copy) (check : Nat) : State :=
  let s1 := logAt s 8 Cause.abandon.code t (cmdSlot s t c) (cmdQcb s t c) check
  listReport (if c.bar ≠ 0 then sendArrival s1 t (cmdSlot s t c) (some ⟨t, c.bar⟩) true 1 0 else s1) t c.list 1 0

/-- The chain that a command belongs to (R341). -/
def chainOf (s : State) (t : Nat) (c : Copy) : Chain :=
  match c.list with
  | none => ((queueAt s t c.queue).map (fun q => q.chain)).getD ⟨0xFFFFFFFF, false, false⟩
  | some id => (((s.tile t).out.lists.find? (fun l => l.id == id)).map (fun l => l.chain)).getD
      ⟨0xFFFFFFFF, false, false⟩

/-- Sets the chain of a command with CRC = 1. -/
def setChain (s : State) (t : Nat) (c : Copy) (f : Chain → Chain) : State :=
  if !c.crcOn then s
  else
    match c.list with
    | none => modQueue s t c.queue (fun q => { q with chain := f q.chain })
    | some id => modList s t id (fun l => { l with chain := f l.chain })

/-! ### Command queues (R328-R332, R457) -/

/-- A queue control block. -/
structure Qcb where
  base : Nat
  n : Nat
  asid : Nat
  handle : Nat
  wi : Nat
  ri : Nat
  deriving DecidableEq, Repr

/-- The queue that 32 bytes describe, unless they are malformed (R457). -/
def qcbOf (s : State) (t : Nat) (b : List Byte) : Option Qcb :=
  let q : Qcb := ⟨natAt b 0 8, 2 ^ natAt b 8 1, natAt b 9 1, natAt b 10 2, natAt b 16 8, natAt b 24 8⟩
  if decide (6 ≤ natAt b 8 1 ∧ natAt b 8 1 ≤ 12) && zeroBytes b 12 16 && q.base % 64 == 0 &&
      (ownLoc s t q.asid q.base).isSome then some q
  else none

/-- TAG(i). -/
def slotTag (i : Nat) : Nat := i % 255 + 1

/-- Where slot `i` of a queue lies. -/
def Qcb.slotLoc (s : State) (t : Nat) (q : Qcb) (i : Nat) : Option Loc := ownLoc s t q.asid (q.base + 64 * (i % q.n))

/-- The bytes of a QCB as the outrider reads them, from the array (R291); the table area reads as zeros
(R369). An error is logged with the QCB (R254). -/
def qcbRead (s : State) (t off : Nat) : State × Option (List Byte) :=
  if !inScratch off 32 then (s, some (List.replicate 32 0))
  else
    match homeRead s t off 32 0 with
    | (s1, some _) => (s1, some (engRead s1 (keyScratch t off) 32))
    | (s1, none) => (s1, none)

/-- The QCB of a queue as it stands for the outrider (R457). -/
def qcbNow (s : State) (t : Nat) (q : Queue) : Option Qcb :=
  if inScratch q.qcb 32 then qcbOf s t (engRead s (keyScratch t q.qcb) 32) else none

/-- The packet in slot `i` if it carries its tag: what the outrider reads from the array (R329). -/
def tagged (s : State) (t : Nat) (q : Qcb) (i : Nat) : Option (List Byte) :=
  match q.slotLoc s t i with
  | none => none
  | some l =>
    let b := engRead s l.key 64
    if stalled s l.key || uncorrectable s l.key 64 || natAt b 63 1 != slotTag i then none else some b

/-- The packets at RI: the head and, with EXT, its extension (R329). -/
def ready (s : State) (t : Nat) (q : Qcb) : Option (List Byte × Option (List Byte)) :=
  match tagged s t q q.ri with
  | none => none
  | some h =>
    if natAt h 1 1 % 2 = 0 then some (h, none)
    else (tagged s t q (q.ri + 1)).map (fun e => (h, some e))

/-- Whether a registered queue has a command to take. From a QCB in a guarded granule, whose RI it could not move
(R256), the outrider takes none (DEDUCED, log 52). -/
def canTake (s : State) (t k : Nat) : Bool :=
  match queueAt s t k with
  | none => false
  | some q => !guarded s (keyScratch t q.qcb) 32 && ((qcbNow s t q).bind (ready s t)).isSome

/-- Takes a new command number. -/
def newId (s : State) (t : Nat) : State × Nat :=
  let i := (s.tile t).out.ids + 1
  (modOut s t (fun o => { o with ids := i }), i)

/-- A command joins those accepted, after checks 1-4. A rejected one stays only while its chain has
to fail in its turn (R341). -/
def admitCopy (s : State) (t handle : Nat) (tag : Bool) (c : Copy) : State :=
  match firstFailure s t handle tag c with
  | 0 => modOut s t (fun o => { o with cmds := o.cmds ++ [c] })
  | n =>
    let s1 := rejectCopy s t c n
    if c.crcOn then modOut s1 t (fun o => { o with cmds := o.cmds ++ [{ c with rejected := true }] }) else s1

/-- A command as accepted: tagged with the generation of its address space (R339). -/
def newCopy (s : State) (t id queue : Nat) (list : Option Nat) (head : List Byte) (ext : Option (List Byte))
    (asid handle : Nat) : Copy :=
  { id := id, queue := queue, list := list, head := head, ext := ext.getD (List.replicate 64 0), asid := asid,
    handle := handle, gen := igen (genEntry s t asid), rejected := false, started := false, pos := 0, moved := 0,
    crc := 0xFFFFFFFF, slot := 0, freed := 0, cls := 0, aband := 0, refused := [], stopped := false, sector := none }

/-- The handle of a command: the extension's, or its queue's (R334). -/
def handleOf (ext : Option (List Byte)) (dflt : Nat) : Nat :=
  match ext with
  | some e => natAt e 28 2
  | none => dflt

/-- The submissions whose slots lie below an index are performed and acknowledged (R284): later packets of
their pairs wait until then (R286). -/
def acceptPend (s : State) (t k i : Nat) : State :=
  match queueAt s t k with
  | none => s
  | some q =>
    (q.pend.filter (fun (e : Nat × Nat) => decide (e.1 < i))).foldl
      (fun (s : State) (e : Nat × Nat) => finish s e.2 none)
      (modQueue s t k (fun q => { q with pend := q.pend.filter (fun (e : Nat × Nat) => !decide (e.1 < i)) }))

/-- Whether no other queue is due before queue `k` in the round-robin (R331). -/
def inTurn (s : State) (t k : Nat) : Bool :=
  let n := (s.tile t).out.next
  let d := (k + 8 - n % 8) % 8
  (List.range d).all (fun i => !canTake s t ((n + i) % 8))

/-- What the outrider's reads of one or two slots leave behind: a walk (R396), the access to their page (R373)
and the firing of an injection (R429). -/
def touchSlots (s : State) (t : Nat) (q : Qcb) (n : Nat) : State :=
  (List.range n).foldl (fun (s : State) (j : Nat) => match q.slotLoc s t (q.ri + j) with
    | some l => touchPage (fireRead (engineWalk s t q.asid (q.base + 64 * ((q.ri + j) % q.n))) l.key) l.key 64
    | none => s) s

/-- Takes the command at RI of a queue; RI moves in the array, where the outrider reads it (R291, R329). -/
def takeCommand (s : State) (t k : Nat) (q : Queue) (qb : Qcb) (h : List Byte) (e : Option (List Byte)) : State :=
  let n := 1 + e.isSome.toNat
  let ri := (qb.ri + n) % 2 ^ 64
  let s1 := engWrite (touchSlots s t qb n) (keyScratch t (q.qcb + 24)) (bytesLE 8 ri)
  let (s2, id) := newId (modOut s1 t (fun o => { o with next := (k + 1) % 8 })) t
  admitCopy (acceptPend s2 t k ri) t (handleOf e qb.handle) true (newCopy s2 t id k none h e qb.asid qb.handle)

/-- OUTRIDER_ACCEPT (R329, R331, R457): `who` is the tile and `idx` the queue. A QCB in a guarded granule is not
served (DEDUCED, log 52). -/
def tryOutriderAccept (s : State) : Option State :=
  let t := s.ev.who
  let k := s.ev.idx
  match (queueAt s t k).filter (fun _ => decide (k < 8)) with
  | none => none
  | some q =>
    match qcbRead s t q.qcb with
    | (s1, none) => some s1
    | (s1, some b) =>
      match qcbOf s1 t b with
      | none =>
        if q.malformed = some b then none
        else some (logAt (modQueue s1 t k (fun q => { q with malformed := some b })) 8 Cause.abandon.code t
          q.lslot q.qcb 0)
      | some qb =>
        if q.malformed.isSome then some (modQueue s1 t k (fun q => { q with malformed := none }))
        else if 256 ≤ (s1.tile t).out.cmds.length || !inTurn s1 t k || guarded s1 (keyScratch t q.qcb) 32 then none
        else
          match ready s1 t qb with
          | none => none
          | some (h, e) => some (takeCommand s1 t k q qb h e)

/-- OUTRIDER_ACCEPT (R329). -/
def execOutriderAccept (s : State) : Outcome State Fault Refusal := eventStep tryOutriderAccept s

/-- STALLED_SLOT (R332): `who` is the tile and `idx` the queue; logged once for a value of RI. -/
def tryStalledSlot (s : State) : Option State :=
  let t := s.ev.who
  match (queueAt s t s.ev.idx).filter (fun _ => decide (s.ev.idx < 8)) with
  | none => none
  | some q =>
    match qcbNow s t q with
    | none => none
    | some b =>
      if b.ri < b.wi && (tagged s t b b.ri).isNone && decide (q.stalledAt ≠ b.ri + 1) then
        some (logAt (modQueue s t s.ev.idx (fun q => { q with stalledAt := b.ri + 1 })) 6 0 t q.lslot q.qcb b.ri)
      else none

/-- STALLED_SLOT (R332). -/
def execStalledSlot (s : State) : Outcome State Fault Refusal := eventStep tryStalledSlot s

/-! ### The submission port (R344) -/

/-- What the port can do with a submission. -/
inductive SubResult where
  | written (s : State)
  | hold
  | reject (s : State)

/-- The registered queue that an offset names. -/
def queueNamed (s : State) (t qcb : Nat) : Option (Nat × Queue) :=
  (s.tile t).out.queues.find? (fun (e : Nat × Queue) => decide (e.1 < 8) && e.2.qcb == qcb)

/-- The port on one submission: the claim and the writes, tags included, indivisibly. -/
def submit (s : State) (t : Nat) (u : Submission) (pkt : Nat) : SubResult :=
  match queueNamed s t u.qcb with
  | none => .reject s
  | some (k, _) =>
    if homeRefuses s t u.qcb 32 then .reject s
    else
    match homeRead s t u.qcb 32 0xEA with
    | (s1, none) => .reject s1
    | (s1, some b) =>
      match qcbOf s1 t b with
      | none => .reject s1
      | some q =>
        let n := u.bytes.length / 64
        match q.slotLoc s1 t q.wi, q.slotLoc s1 t (q.wi + n - 1) with
        | some l0, some l1 =>
          if q.ri + q.n < q.wi + n || stalled s1 l0.key || stalled s1 l1.key then .hold
          else if guarded s1 l0.key 64 || guarded s1 l1.key 64 then .reject s1
          else
            let img := fun (j : Nat) => (sliceB u.bytes (64 * j) 63) ++ bytesLE 1 (slotTag (q.wi + j))
            let s2 := homeWrite s1 (keyScratch t (u.qcb + 16)) (bytesLE 8 (q.wi + n))
            let s3 := engWrite s2 l0.key (img 0)
            let s4 := if n = 2 then engWrite s3 l1.key (img 1) else s3
            .written (modQueue s4 t k (fun x => { x with pend := x.pend ++ [(q.wi, pkt)] }))
        | _, _ => .hold

/-- A submission that is rejected or abandoned (R344). -/
def abandonSub (s : State) (t : Nat) (u : Submission) : State :=
  let bar := natAt u.bytes 56 4 % 2 ^ 17 * 16
  let s1 := logAt s 8 Cause.abandon.code t u.lslot u.qcb 0xEA
  if bar = 0 then s1 else sendArrival s1 t u.lslot (some ⟨t, bar⟩) true 1 0

/-- Retries the held submissions in order; one queue's first that does not fit holds back its
others. The flag says that some submission left the port. -/
def retrySubs (s : State) (t : Nat) : List Submission → List Nat → State × List Submission × Bool
  | [], _ => (s, [], false)
  | u :: r, blocked =>
    if blocked.contains u.qcb then
      let (s1, l, b) := retrySubs s t r blocked
      (s1, u :: l, b)
    else
      match submit s t u u.pkt with
      | .hold =>
        let (s1, l, b) := retrySubs s t r (u.qcb :: blocked)
        (s1, u :: l, b)
      | .written s1 =>
        let (s2, l, _) := retrySubs s1 t r blocked
        (s2, l, true)
      | .reject s1 =>
        let (s2, l, _) := retrySubs (abandonSub (finish s1 u.pkt none) t u) t r blocked
        (s2, l, true)

/-- Whether a submission waits at the port, or for the acceptance of its slots. -/
def subHeld (s : State) (t id : Nat) : Bool :=
  (s.tile t).subs.any (fun u => u.pkt == id) ||
    (s.tile t).out.queues.any (fun (q : Nat × Queue) => q.2.pend.any (fun e => e.2 == id))

/-- OSUB_PERFORM (R344): the held submissions that now fit, and else the item at the interface. A
submission is performed, and acknowledged, when the outrider accepts it (R284). -/
def tryOsubPerform (s : State) : Option State :=
  let t := s.ev.who
  let x := s.tile t
  match retrySubs s t x.subs [] with
  | (s1, l, true) => some (s1.modTile t (fun x => { x with subs := l }))
  | _ =>
    match item s t s.ev.idx with
    | none => none
    | some (id, p) =>
      match p.work with
      | .osub u =>
        let hold := if x.subs.length < 16 then
            some (s.modTile t (fun x => { x with subs := x.subs ++ [{ u with time := p.since, pkt := id }] }))
          else none
        if subHeld s t id then none
        else if pktStale s p then some (rejectStale s id p)
        else if x.subs.any (fun e => e.qcb == u.qcb) then hold
        else
          match submit s t u id with
          | .written s1 => some s1
          | .reject s1 => some (abandonSub (finish s1 id none) t u)
          | .hold => hold
      | _ => none

/-- OSUB_PERFORM (R344). -/
def execOsubPerform (s : State) : Outcome State Fault Refusal := eventStep tryOsubPerform s

/-- The submissions that wait in the interface of a tile. -/
def waitingSubs (s : State) (t : Nat) : List (Nat × Submission) :=
  (inboxAt s t).filterMap (fun (e : Nat × Packet) => match e.2.work with
    | .osub u => if subHeld s t e.1 then none else some (e.1, u)
    | _ => none)

/-- OSUB_ABANDON (R344): `idx` counts the held submissions and then those in the interface. -/
def tryOsubAbandon (s : State) : Option State :=
  let t := s.ev.who
  let held := (s.tile t).subs
  match held[s.ev.idx]? with
  | some u =>
    some (abandonSub (finish (s.modTile t (fun x => { x with subs := dropAt x.subs s.ev.idx })) u.pkt none) t u)
  | none =>
    match (waitingSubs s t)[s.ev.idx - held.length]? with
    | some (id, u) => some (abandonSub (finish s id none) t u)
    | none => none

/-- OSUB_ABANDON (R344). -/
def execOsubAbandon (s : State) : Outcome State Fault Refusal := eventStep tryOsubAbandon s

/-! ### Running a command (R331, R336-R341) -/

/-- Command `i` of a tile, if it is the first left of its queue or list (R331). -/
def cmdAt (s : State) (t i : Nat) : Option Copy :=
  let l := (s.tile t).out.cmds
  match l[i]? with
  | none => none
  | some c => if (l.take i).any (fun x => x.queue == c.queue && x.list == c.list) then none else some c

/-- OUTRIDER_CMD_START (R338, R341): check 5, and the start of the chain. -/
def tryOutriderCmdStart (s : State) : Option State :=
  let t := s.ev.who
  match cmdAt s t s.ev.idx with
  | none => none
  | some c =>
    let ch := chainOf s t c
    let fail := fun (s : State) => setChain (delCmd s t c.id) t c (fun x => { x with failed := true })
    if c.started then none
    else if c.rejected then some (fail s)
    else if c.crcOn && c.chains && ch.failed then some (fail (rejectCopy s t c 5))
    else
      some (setCmd (setChain s t c (fun x => { x with failed := false })) t { c with
        started := true, crc := if c.chains && ch.run then ch.value else 0xFFFFFFFF })

/-- OUTRIDER_CMD_START (R338). -/
def execOutriderCmdStart (s : State) : Outcome State Fault Refusal := eventStep tryOutriderCmdStart s

/-- Whether a write of an outrider command is under way. -/
def copyBusy (s : State) (t id : Nat) : Bool := s.pkts.any (fun (e : Nat × Packet) => e.2.owner == .outrider t id)

/-- Whether a write of the command that is under way covers one of `n` bytes from a key. -/
def copyOverlaps (s : State) (t id k n : Nat) : Bool :=
  s.pkts.any (fun (e : Nat × Packet) => e.2.owner == .outrider t id && e.2.place != .done &&
    (match e.2.work with
     | .outWrite parts _ => parts.any (fun w => overlaps w.1 w.2.length k n)
     | _ => false))

/-- Inverts a bit of a byte list that starts at position `o` of its sector. -/
def flipBit (bs : List Byte) (o bit : Nat) : List Byte :=
  if o ≤ bit / 8 then bs.modify (bit / 8 - o) (fun b => b ^^^ BitVec.ofNat 8 (2 ^ (bit % 8))) else bs

/-- The sector of an element, with the firing of an injection of KIND 2 (R446). -/
def sectorRead (s : State) (t : Nat) (c : Copy) (k : Nat) : State × Option Nat :=
  match c.sector with
  | some (x, f) =>
    if x = k / 32 then (s, f)
    else if injHits s 2 (tileX t) (tileY t) then (injFire s t k, some (fld s.mgmt.inject 37 8)) else (s, none)
  | none => if injHits s 2 (tileX t) (tileY t) then (injFire s t k, some (fld s.mgmt.inject 37 8)) else (s, none)

/-- What one element does: it moves, with its write where that goes to another home and whether its bytes
are poisoned; it waits; or it stops the command with a class (R339). -/
inductive Moved where
  | done (s : State) (c : Copy) (home : Nat) (out : List (Nat × List Byte)) (bad : Bool)
  | wait
  | stop (s : State) (cls : Nat)

/-- Writes an element at the outrider's own tile; a poisoned one carries its poison (R350). -/
def writeElem (s : State) (l : Loc) (bs : List Byte) (bad : Bool) : State :=
  let s1 := engWrite s l.key bs
  if bad then setPoison s1 l.key bs.length else s1

/-- Sends the write of one sector to another home (R337). -/
def sendSector (s : State) (t : Nat) (c : Copy) (home : Nat) (parts : List (Nat × List Byte)) (bad : Bool) : State :=
  if parts.isEmpty then s
  else
    let s1 := sendWork s t home (.outrider t c.id) (cmdSlot s t c) (.outWrite parts (some (c.asid, c.gen)))
    if bad then
      match s1.pkt s.nextPkt with
      | some p => s1.setPkt s.nextPkt { p with poison := true }
      | none => s1
    else s1

/-- One element of the walk, `out` being the writes of its sector that are to be sent (R336-R339). -/
def moveElem (s : State) (t : Nat) (c : Copy) (out : List (Nat × List Byte)) : Moved :=
  let n := c.elem
  let tag : GenTag := some (c.asid, c.gen)
  let from_ := engineLoc s t c.asid (c.srcAt c.pos) false false
  let dest := engineLoc s t c.asid (c.dstAt c.pos) true true
  let s := engineWalk (engineWalk s t c.asid (c.srcAt c.pos)) t c.asid (c.dstAt c.pos)
  match from_, dest with
  | some a, some d =>
    if stalled s a.key || (d.home == t && stalled s d.key) || copyOverlaps s t c.id a.key n ||
        out.any (fun w => overlaps w.1 w.2.length a.key n) then .wait
    else if staleAt s a.home tag || (d.home == t && staleAt s t tag) then .stop s 2
    else if guarded s a.key n || (d.home == t && guarded s d.key n) then .stop s 1
    else
      let (s1, flip) := sectorRead s t c a.key
      let (s2, bad) := unitRead s1 a.key n
      let raw := if bad then Config.freeBytes s.fresh (2 ^ 100 + a.key) n else engRead s2 a.key n
      let bs := match flip with
        | some b => flipBit raw (a.key % 32) b
        | none => raw
      let s3 := touchPage s2 a.key n
      .done (if d.home = t then writeElem s3 d bs bad else s3) { c with
        pos := c.pos + 1, moved := c.moved + n, crc := if c.crcOn then crcBytes c.crc bs else c.crc
        cls := if bad then 4 else c.cls, sector := some (a.key / 32, flip) } d.home
        (if d.home = t then [] else [(d.key, bs)]) bad
  | _, _ => .stop s 1

/-- The generation recheck after every 4 KiB moved (R339). -/
def recheck (s : State) (t : Nat) (c : Copy) : Copy :=
  let e := genEntry s t c.asid
  if c.moved % 4096 = 0 && (!genV e || igen e != c.gen) then
    { c with cls := if c.code = 2 && c.cls = 4 && c.moved % c.slotBytes = 0 then 4 else 2, stopped := true }
  else c

/-- Whether the next element may move: a stream slot needs room, and its predecessor its report
(R340). -/
def Copy.mayMove (c : Copy) : Bool :=
  c.started && c.walks && !c.stopped && decide (c.pos < c.total) &&
  (c.code != 2 || (c.moved / c.slotBytes == c.slot && decide (c.slot < c.freed + c.nslot)))

/-- The elements after the first of one sector of the destination, which move with it so that the
sector is written indivisibly (R337). -/
def moveMore (s : State) (t : Nat) (c : Copy) (out : List (Nat × List Byte)) (bad : Bool) :
    Nat → State × Copy × List (Nat × List Byte) × Bool
  | 0 => (s, c, out, bad)
  | n + 1 =>
    if c.mayMove && decide (c.dstAt c.pos / 32 = c.dstAt (c.pos - 1) / 32) && c.moved % 4096 != 0 then
      match moveElem s t c out with
      | .done s1 c1 _ w b => moveMore s1 t (recheck s1 t c1) (out ++ w) (bad || b) n
      | _ => (s, c, out, bad)
    else (s, c, out, bad)

/-- COPY_TRANSFER (R336, R339): `who` is the tile and `idx` the command. -/
def tryCopyTransfer (s : State) : Option State :=
  let t := s.ev.who
  match cmdAt s t s.ev.idx with
  | none => none
  | some c =>
    if !c.mayMove || ((s.tile t).thermal == .hold && c.moved % 4096 == 0) then none
    else
      match moveElem s t c [] with
      | .wait => none
      | .stop s1 cls => some (setCmd s1 t { c with cls := cls, stopped := true })
      | .done s1 c1 home w b =>
        let (s2, c2, out, bad) := moveMore s1 t (recheck s1 t c1) w b 31
        some (setCmd (sendSector s2 t c2 home out bad) t c2)

/-- COPY_TRANSFER (R336). -/
def execCopyTransfer (s : State) : Outcome State Fault Refusal := eventStep tryCopyTransfer s

/-! ### Ends and reports (R296, R339-R341) -/

/-- The sector of the destination that element `pos` goes to: of the stream itself for a STREAM, whose
slots reuse the window. -/
def Copy.sectorAt (c : Copy) (pos : Nat) : Nat :=
  if c.code = 2 then pos * c.elem / 32 else c.dstAt pos / 32

/-- The destination sectors that the elements from `pos` on would write, each once. -/
def Copy.sectorsLeft (c : Copy) : List Nat :=
  ((List.range (c.total - c.pos)).map (fun i => c.sectorAt (c.pos + i))).dedup

/-- ABAND of a stopped walk (R296): each sector that an element left unwritten or another home refused
counts once. -/
def abandoned (s : State) (t : Nat) (c : Copy) : Nat :=
  c.refused.length + (c.sectorsLeft.filter (fun a =>
    c.code == 2 || (match engineLoc s t c.asid (32 * a) true true with
      | some l => !c.refused.contains (l.key / 32)
      | none => true))).length

/-- The final running value goes to CRCO; the number says whether a guarded granule has refused it (R256,
R341). -/
def writeCrco (s : State) (t : Nat) (c : Copy) : State × Nat :=
  if !c.crcOn || c.crco == 0 then (s, 0)
  else if guarded s (keyScratch t c.crco) 4 then (s, 1)
  else (engWrite s (keyScratch t c.crco) (bytesLE 4 c.crc), 0)

/-- Whether a CHECK fails (R341). -/
def Copy.crcBad (c : Copy) : Bool := c.checks && decide (c.crc ^^^ 0xFFFFFFFF ≠ c.crcx)

/-- Pads `n` bytes of a window at a tile-local offset with zeros, sector by sector; the number counts the
sectors that guarded granules or the table area refuse (R256, R340, R369). -/
def padSlot (s : State) (t a n : Nat) : State × Nat :=
  (List.range ((a + n + 31) / 32 - a / 32)).foldl (fun (e : State × Nat) (i : Nat) =>
    let x := 32 * (a / 32 + i)
    let lo := max a x
    let m := min (a + n) (x + 32) - lo
    if m = 0 then e
    else if !inScratch lo m || guarded e.1 (keyScratch t lo) m then (e.1, e.2 + 1)
    else (engWrite e.1 (keyScratch t lo) (List.replicate m 0), e.2)) (s, 0)

/-- STREAM_SLOT_FILL (R340, R341, R451): the slot being filled is whole, or the walk has ended and the
last slot is padded with zeros; it makes its arrival, the last one with what the command's end reports. A
slot that was whole when the command stopped makes its own arrival before the stop's. -/
def tryStreamSlotFill (s : State) : Option State :=
  let t := s.ev.who
  match cmdAt s t s.ev.idx with
  | none => none
  | some c =>
    let b := c.slotBytes
    let done := c.moved - c.slot * b
    let last := c.pos == c.total && !c.stopped
    if c.code ≠ 2 || !c.started || decide (done = 0) || !(decide (b ≤ done) || last) then none
    else
      let (s1, n) := if done < b then padSlot s t (c.wbase + b * (c.slot % c.nslot) + done) (b - done) else (s, 0)
      let (s2, m) := if last then writeCrco s1 t c else (s1, 0)
      let cls := if c.cls = 4 then 4 else if n + m ≠ 0 then 1 else if last && c.crcBad then 3 else 0
      let s3 := listReport (copyArrive s2 t c cls (n + m)) t c.list cls (n + m)
      some (setCmd s3 t { c with slot := c.slot + 1, cls := if c.stopped then 2 else 0 })

/-- STREAM_SLOT_FILL (R340). -/
def execStreamSlotFill (s : State) : Outcome State Fault Refusal := eventStep tryStreamSlotFill s

/-- The chain of a command's queue or list after its end: its value, or failed (R341). -/
def endChain (s : State) (t : Nat) (c : Copy) : State :=
  setChain s t c (fun x => if c.stopped || c.crcBad then { x with failed := true } else ⟨c.crc, true, false⟩)

/-- A command ends: its chain, CRCO, its arrival, and its list's report (R339-R342). A STREAM that has not
stopped has made its reports with its slots. -/
def endCopy (s : State) (t : Nat) (c : Copy) : State :=
  let s1 := endChain s t c
  if c.code = 2 && !c.stopped then delCmd s1 t c.id
  else
    let (s2, m) := writeCrco s1 t c
    let cls := if c.stopped || c.cls ≠ 0 then c.cls else if m ≠ 0 then 1 else if c.crcBad then 3 else 0
    let ab := m + c.aband + (if c.stopped && c.walks then abandoned s t c else 0)
    delCmd (listReport (copyArrive s2 t c cls ab) t c.list cls ab) t c.id

/-- COPY_COMPLETE (R339): every write has been performed at its home. -/
def tryCopyComplete (s : State) : Option State :=
  let t := s.ev.who
  match cmdAt s t s.ev.idx with
  | none => none
  | some c =>
    let walked := if c.code = 2 then (if c.stopped then decide (c.moved < (c.slot + 1) * c.slotBytes)
        else c.pos == c.total && decide (c.moved ≤ c.slot * c.slotBytes))
      else c.stopped || c.pos == c.total
    if c.code = 0x10 || !c.started || !walked || copyBusy s t c.id then none else some (endCopy s t c)

/-- COPY_COMPLETE (R339). -/
def execCopyComplete (s : State) : Outcome State Fault Refusal := eventStep tryCopyComplete s

/-! ### Command lists (R342) -/

/-- The list of a LIST command. -/
def listOf (s : State) (t id : Nat) : Option CmdList := (s.tile t).out.lists.find? (fun l => l.id == id)

/-- A list stops: no more of it starts. -/
def stopList (s : State) (t id cls : Nat) : State :=
  modList s t id (fun l => { l with ended := true, flt := true, cls := if l.cls = 0 then cls else l.cls })

/-- What the packet at an index of a list reads as. -/
inductive ListRead where
  | packet (s : State) (b : List Byte)
  | wait
  | stop (s : State) (cls : Nat)

/-- Reads a packet of a list (R342): at most 4,096 of them. -/
def listPacket (s : State) (t : Nat) (c : Copy) (i : Nat) : ListRead :=
  if 4096 ≤ i then .stop s 1
  else
    match ownLoc s t c.asid (c.src + 64 * i) with
    | none => .stop (engineWalk s t c.asid (c.src + 64 * i)) 1
    | some l =>
      if stalled s l.key then .wait
      else if staleAt s t (some (c.asid, c.gen)) then .stop s 2
      else if guarded s l.key 64 then .stop s 1
      else
        match unitRead s l.key 64 with
        | (s1, true) => .stop s1 4
        | (s1, false) => .packet (touchPage (engineWalk s1 t c.asid (c.src + 64 * i)) l.key 64) (engRead s1 l.key 64)

/-- The fields that a control packet does not use are zero: `src` and `dst` say how many bytes of
SRC, and whether DST, are used, `cnt` whether CNT0's count is. -/
def controlOk (b : List Byte) (src : Nat) (dst cnt : Bool) : Bool :=
  zeroBytes b 1 8 && zeroBytes b (8 + src) 16 && (dst || zeroBytes b 16 24) &&
  (if cnt then zeroBytes b 26 64 else zeroBytes b 24 64)

/-- A control packet that is refused: an entry names it, the list learns of it and goes on
(R338, DEDUCED, log 34). -/
def refuseControl (s : State) (t : Nat) (c : Copy) : State :=
  let s1 := logAt s 8 Cause.abandon.code t (cmdSlot s t c) (cmdQcb s t c) 1
  modList s1 t c.id (fun l => { l with at_ := l.at_ + 1, flt := true, cls := if l.cls = 0 then 1 else l.cls })

/-- LOOP (R342). -/
def listLoop (s : State) (t : Nat) (c : Copy) (l : CmdList) (b : List Byte) : State :=
  let d := natAt b 8 1
  let n := max 1 (natAt b 24 2)
  if !controlOk b 1 false true || d = 0 then refuseControl s t c
  else
    match tabFind l.loops l.at_ with
    | none =>
      if 4 ≤ l.loops.length then stopList s t c.id 1
      else if n = 1 then modList s t c.id (fun l => { l with at_ := l.at_ + 1 })
      else if l.at_ < d then stopList s t c.id 1
      else modList s t c.id (fun l => { l with at_ := l.at_ - d, loops := tabSet l.loops l.at_ (n - 2) })
    | some 0 => modList s t c.id (fun l => { l with at_ := l.at_ + 1, loops := tabDel l.loops l.at_ })
    | some (k + 1) =>
      if l.at_ < d then stopList s t c.id 1
      else modList s t c.id (fun l => { l with at_ := l.at_ - d, loops := tabSet l.loops l.at_ k })

/-- A command of a list is accepted, tagged and checked (R338, R342). -/
def listCommand (s : State) (t : Nat) (c : Copy) (l : CmdList) (h : List Byte) (e : Option (List Byte)) : State :=
  let (s1, id) := newId (modList s t c.id (fun l => { l with at_ := l.at_ + 1 + e.isSome.toNat })) t
  admitCopy s1 t (handleOf e c.handle) false (newCopy s1 t id c.queue (some l.id) h e c.asid c.handle)

/-- LIST_START (R342): a started LIST begins, and then issues its packets one by one. -/
def tryListStart (s : State) : Option State :=
  let t := s.ev.who
  match cmdAt s t s.ev.idx with
  | none => none
  | some c =>
    if c.code ≠ 0x10 || !c.started then none
    else
      match listOf s t c.id with
      | none =>
        some (modOut s t (fun o => { o with
          lists := o.lists ++ [⟨c.id, 0, [], ⟨0xFFFFFFFF, false, false⟩, false, 0, 0, false⟩] }))
      | some l =>
        if l.ended then none
        else
          match listPacket s t c l.at_ with
          | .wait => none
          | .stop s1 cls => some (stopList s1 t c.id cls)
          | .packet s1 b =>
            match natAt b 0 1 with
            | 0x11 => some (listLoop s1 t c l b)
            | 0x12 => none
            | 0x13 =>
              if controlOk b 0 false false then some (modList s1 t c.id (fun l => { l with ended := true }))
              else some (refuseControl s1 t c)
            | _ =>
              if 256 ≤ (s1.tile t).out.cmds.length then none
              else if natAt b 1 1 % 2 = 0 then some (listCommand s1 t c l b none)
              else
                match listPacket s1 t c (l.at_ + 1) with
                | .wait => none
                | .stop s2 cls => some (stopList s2 t c.id cls)
                | .packet s2 e => some (listCommand s2 t c l b (some e))

/-- LIST_START (R342). -/
def execListStart (s : State) : Outcome State Fault Refusal := eventStep tryListStart s

/-- LIST_BRANCH (R342): every earlier command of the list has completed. -/
def tryListBranch (s : State) : Option State :=
  let t := s.ev.who
  match cmdAt s t s.ev.idx with
  | none => none
  | some c =>
    match listOf s t c.id with
    | none => none
    | some l =>
      if l.ended || (s.tile t).out.cmds.any (fun x => x.list == some c.id) then none
      else
        match listPacket s t c l.at_ with
        | .packet s1 b =>
          let a := natAt b 16 8
          if natAt b 0 1 ≠ 0x12 then none
          else if !controlOk b 1 true false || a % 8 ≠ 0 || decide (Config.tableArea < a + 8) then
            some (refuseControl s1 t c)
          else if staleAt s1 t (some (c.asid, c.gen)) then some (stopList s1 t c.id 2)
          else if guarded s1 (keyScratch t a) 8 then some (stopList s1 t c.id 1)
          else
            match unitRead s1 (keyScratch t a) 8 with
            | (s2, true) => some (stopList s2 t c.id 4)
            | (s2, false) =>
              let n := if natLE (engRead s2 (keyScratch t a) 8) = 0 then l.at_ + 1 else l.at_ + 1 + natAt b 8 1
              if 4096 ≤ n then some (stopList s2 t c.id 1) else some (modList s2 t c.id (fun l => { l with at_ := n }))
        | _ => none

/-- LIST_BRANCH (R342). -/
def execListBranch (s : State) : Outcome State Fault Refusal := eventStep tryListBranch s

/-- LIST_END (R342): the list has ended and every command of it has completed. -/
def tryListEnd (s : State) : Option State :=
  let t := s.ev.who
  match cmdAt s t s.ev.idx with
  | none => none
  | some c =>
    match listOf s t c.id with
    | none => none
    | some l =>
      if !l.ended || (s.tile t).out.cmds.any (fun x => x.list == some c.id) then none
      else
        let c1 := { c with cls := l.cls, aband := l.aband, stopped := l.flt }
        some (modOut (endCopy s t c1) t (fun o => { o with lists := o.lists.filter (fun x => x.id != c.id) }))

/-- LIST_END (R342). -/
def execListEnd (s : State) : Outcome State Fault Refusal := eventStep tryListEnd s

end Sys2Proof.Machine
end

