-- ==== Sys2Proof/Machine/LifelineUnit.lean ====
section
/-! DEFINITION. The lifeline controllers: entry and forwarding, the tree operations performed one at
a time, eviction, and the replies (R379-R394). -/

namespace Sys2Proof.Machine

open Host (Outcome)

/-! ### Requests and controllers -/

/-- Controller `q` (0-3). -/
def lifeAt (s : State) (q : Nat) : Lifeline := s.life.getD q Lifeline.reset
/-- SNAPLEN of a node (R382). -/
def Node.snaplen (n : Node) : Nat := if n.pages then n.len + 2 ^ 31 else n.len

/-- The 64 bytes of a node of controller `q` in the node area (R382); `poolva` is the window of its tree. -/
def nodeBytes (q poolva : Nat) (n : Node) : List Byte :=
  let va := poolva + 2 ^ 32 * q
  bytesLE 8 n.key.toNat ++ bytesLE 4 (n.parent.getD 0x1FFFFF + 2 ^ 21 * n.tree) ++ bytesLE 4 n.depth ++
    bytesLE 4 (if n.pages then 3 else 2) ++ bytesLE 4 n.nchild ++ bytesLE 4 n.refs ++ bytesLE 4 n.stamp ++
    bytesLE 8 (va + n.syms) ++ bytesLE 8 (va + n.snap) ++ bytesLE 4 n.snaplen ++ bytesLE 4 n.tag ++ bytesLE 8 0

/-- The nodes, by index, whose bytes differ between two states of controller `q`, with their new bytes; a
node that is gone is free (R382). -/
def nodeWrites (q : Nat) (a b : Lifeline) : List (Nat × List Byte) :=
  (b.nodes.filter (fun (e : Nat × Node) => tabFind a.nodes e.1 != some e.2)).map (fun (e : Nat × Node) =>
    (e.1, nodeBytes q (((tabFind b.trees e.2.tree).map (fun t => t.poolva)).getD 0) e.2)) ++
  (a.nodes.filter (fun (e : Nat × Node) => (tabFind b.nodes e.1).isNone)).map (fun (e : Nat × Node) =>
    (e.1, List.replicate 64 0))

/-- A controller writes bytes of its node area or pool: an offline page takes none (R373). -/
def areaWrite (s : State) (k : Nat) (b : List Byte) : State := if pageOff s k then s else engWrite s k b

/-- Replaces controller `q`, and with it the bytes of the nodes that change in its node area (R382). -/
def setLife (s : State) (q : Nat) (l : Lifeline) : State :=
  let base := s.nodeAreas.getD q 0
  let s1 := { s with life := s.life.set q l }
  if base = 0 then s1
  else (nodeWrites q (lifeAt s q) l).foldl (fun (s : State) (w : Nat × List Byte) => areaWrite s (base + 64 * w.1) w.2) s1

/-- SYM of a block (R386, R388). -/
def LifeReq.sym (r : LifeReq) : Nat := natAt r.block 0 8
/-- COUNT. -/
def LifeReq.count (r : LifeReq) : Nat := natAt r.block 8 4
/-- TREE: byte 12, or byte 0 of CONFIG's and CLOSE's blocks. -/
def LifeReq.tree (r : LifeReq) : Nat :=
  if r.opc = 0xF6 ∧ r.op ≠ 0 then natAt r.block 0 1 else natAt r.block 12 1
/-- PIN of LREL's block. -/
def LifeReq.pin (r : LifeReq) : Nat := natAt r.block 24 4
/-- The controller of the issuing tile's stack. -/
def LifeReq.entry (r : LifeReq) : Nat := stackOf r.tile

/-- The tree of a request, valid and of the issuer's address space (R379). -/
def treeOf (s : State) (q : Nat) (r : LifeReq) : Option Tree :=
  match tabFind (lifeAt s q).trees r.tree with
  | some t => if t.asid = r.asid then some t else none
  | none => none

/-- Symbols of a chunk, G. -/
def Tree.chunk (t : Tree) : Nat := 2 ^ t.g

/-- The keys h_1, h_2, … of chunks of `n` bytes (R380). -/
def keysFrom (h : Nat) (n : Nat) : Nat → List Byte → List Nat
  | 0, _ => []
  | j + 1, b =>
    let h1 := fnvBytes h (b.take n)
    h1 :: keysFrom h1 n j (b.drop n)

/-- The keys of the first `j` chunks. -/
def chunkKeys (n j : Nat) (b : List Byte) : List Nat := keysFrom 0xCBF29CE484222325 n j b

/-! ### Reading the issuer's memory (R386, R220, R391) -/

/-- What a read of S or SRC gives. -/
inductive LifeRead where
  | ok (s : State) (b : List Byte)
  | wait
  | fail (s : State) (stale : Bool)

/-- An engine read from the issuer's tile-local window or own vault; it fails as a whole. -/
def lifeRead (s : State) (r : LifeReq) (a n : Nat) : LifeRead :=
  let t := r.tile
  let e := genEntry s t r.asid
  let stale := !genV e || igen e != r.gen || staleAt s t (some (r.asid, r.gen))
  if n = 0 then .ok s []
  else if decide (2 ^ 24 ≤ a ∧ a < 2 ^ 25) then .fail s false
  else
    let ps := pieces s t r.asid false false (n / 128 + 3) a n
    let s := engineWalks s t r.asid a n
    match ps with
    | none => .fail s (stale && decide (2 ^ 32 ≤ a))
    | some l =>
      if stale then .fail s true
      else if piecesWait s l || piecesRow s l then .wait
      else if l.any (fun p => guarded s p.loc.key p.len) then .fail s false
      else
        match readPieces s l with
        | (s1, _, true) => .fail s1 false
        | (s1, b, false) => .ok s1 b

/-! ### Results (R386, R391) -/

/-- The class that a status gives its arrival. -/
def statusCls (st : Nat) (stale : Bool) : Nat := if st < 4 then 0 else if st = 8 && stale then 2 else 1

/-- NODE for none. -/
def noNode : Nat := 0x1FFFFF

/-- The result block that names no node. -/
def bareResult (st : Nat) : List Byte := bytesLE 1 st ++ List.replicate 27 0 ++ bytesLE 4 noNode

/-- The result block that names node `i` at controller `q`; `snap` says whether it gives the
snapshot. -/
def nodeResult (st : Nat) (t : Tree) (q i : Nat) (n : Node) (pin : Nat) (snap : Bool) : List Byte :=
  bytesLE 1 st ++ bytesLE 3 0 ++ bytesLE 4 n.depth ++
  bytesLE 8 (if snap then t.poolva + 2 ^ 32 * q + n.snap else 0) ++
  bytesLE 4 (if snap then n.snaplen else 0) ++ bytesLE 4 (if snap then n.tag else 0) ++
  bytesLE 4 pin ++ bytesLE 4 (i + 2 ^ 21 * q)

/-- The reply of controller `q` (R385). -/
def lifeAnswer (s : State) (q : Nat) (r : LifeReq) (st : Nat) (stale : Bool) (data : List Byte) : State :=
  sendWork s (lifeEnd q) r.tile .none r.lslot (.lifeReply r st (statusCls st stale) data)

/-- A reply without a node. -/
def lifeFail (s : State) (q : Nat) (r : LifeReq) (st : Nat) (stale : Bool) : State :=
  lifeAnswer s q r st stale (bareResult st)

/-! ### Counters (R390) -/

/-- The six counters of a tree at a controller. -/
def Lifeline.counts (l : Lifeline) (t : Nat) : List Nat := tabGet (List.replicate 6 0) l.stats t

/-- Adds to counter `i` of a tree. -/
def Lifeline.count (l : Lifeline) (t i n : Nat) : Lifeline :=
  { l with stats := tabSet l.stats t ((l.counts t).set i (((l.counts t).getD i 0 + n) % 2 ^ 64)) }

/-- Adds to a counter of controller `q`. -/
def countLife (s : State) (q t i n : Nat) : State := setLife s q ((lifeAt s q).count t i n)

/-! ### Entry (R381, R385) -/

/-- A request joins the queue of the controller that performs it. -/
def queueLife (s : State) (q : Nat) (r : LifeReq) : State :=
  setLife s q { lifeAt s q with queue := (lifeAt s q).queue ++ [r] }

/-- To the shard: to this controller's queue, or on to another controller. -/
def routeLife (s : State) (e q : Nat) (r : LifeReq) : State :=
  if e = q then queueLife s e r else sendWork s (lifeEnd e) (lifeEnd q) .none r.lslot (.lifeline r)

/-- What the entry controller does with a request; `none` while a read of it must wait. -/
def enterLife (s : State) (e : Nat) (r : LifeReq) : Option State :=
  if r.opc = 0xF6 then some (queueLife s e r)
  else if r.opc = 0xF5 then some (routeLife s e (if r.pin = 0 then e else nfld r.pin 12 2) r)
  else
    match treeOf s e r with
    | none => some (lifeFail s e r 6 false)
    | some t =>
      if r.opc = 0xF4 && (r.count == 0 || r.count % t.chunk != 0) then
        some (lifeFail (countLife s e r.tree 4 1) e r 7 false)
      else if r.count < t.chunk then some (queueLife s e r)
      else
        match lifeRead s r r.sym (4 * t.chunk) with
        | .wait => none
        | .fail s1 stale => some (lifeFail (if r.opc = 0xF4 then countLife s1 e r.tree 4 1 else s1) e r 8 stale)
        | .ok s1 b => some (routeLife s1 e (fnvBytes 0xCBF29CE484222325 b / 2 ^ 62) r)

/-- Whether some request stands before item `i` at a controller's interface. -/
def requestBefore (s : State) (home i : Nat) : Bool :=
  ((inboxAt s home).take i).any (fun e => match e.2.work with
    | .lifeline _ => true
    | _ => false)

/-- LIFELINE_ENTRY_REQUEST (R381): `who` is the controller's endpoint, `idx` its item. A request that
another controller forwards is performed here. Requests are taken in arrival order, and one that enters here
only when the controller has performed all before it, so that its answer sees each of them whole (R393). -/
def tryLifelineEntryRequest (s : State) : Option State :=
  match item s s.ev.who s.ev.idx with
  | none => none
  | some (id, p) =>
    match p.work with
    | .lifeline r =>
      let e := (s.ev.who + 2) % 4
      let s1 := finish s id none
      if requestBefore s s.ev.who s.ev.idx then none
      else if 1026 ≤ p.src ∧ p.src < 1030 then some (queueLife s1 e r)
      else if !(lifeAt s e).queue.isEmpty then none
      else enterLife s1 e r
    | _ => none

/-- LIFELINE_ENTRY_REQUEST (R381). -/
def execLifelineEntryRequest (s : State) : Outcome State Fault Refusal := eventStep tryLifelineEntryRequest s

/-- Whether a page of a vault lies in the pool or the node area of controller `q` (R382, R383). -/
def lifePage (s : State) (q t p : Nat) : Bool :=
  let k := keyVault t p 0
  overlaps k 65536 (s.pools.getD q 0) (2 ^ 32) || overlaps k 65536 (s.nodeAreas.getD q 0) (2 ^ 26)

/-- Whether an exchange or a row repair holds a page of controller `q`: what it performs waits (R246, R249). -/
def lifeStalls (s : State) (q : Nat) : Bool :=
  s.tiles.any (fun (e : Nat × Tile) =>
    e.2.remap.any (fun (r : Nat × Remap) => r.2.busy && lifePage s q e.1 r.1) ||
    (match e.2.repair with
     | some r => lifePage s q e.1 (pageInSlot e.2 r.layer (r.row / 2))
     | none => false))

/-- The request that controller `q` performs next, taken from its queue (R393). -/
def takeLife (s : State) (opc op : Nat) : Option (Nat × LifeReq × State) :=
  let q := s.ev.who
  match (lifeAt s q).queue with
  | r :: rest =>
    if r.opc = opc ∧ r.op = op ∧ q < 4 ∧ lifeStalls s q = false then some (q, r, setLife s q { lifeAt s q with queue := rest }) else none
  | [] => none

/-! ### Nodes, pool and eviction (R382, R383, R392) -/

/-- The node of (tree, key), with its index. -/
def Lifeline.find (l : Lifeline) (t h : Nat) : Option (Nat × Node) :=
  l.nodes.find? (fun (e : Nat × Node) => e.2.tree == t && e.2.key.toNat == h)

/-- 256-byte granules of `n` bytes. -/
def granulesOf (n : Nat) : Nat := (n + 255) / 256

/-- The runs of granules that a node holds. -/
def Lifeline.runs (l : Lifeline) (n : Node) : List (Nat × Nat) :=
  let g := ((tabFind l.trees n.tree).map (fun t => t.g)).getD 4
  [(n.syms / 256, granulesOf (4 * 2 ^ g)), (n.snap / 256, granulesOf (if n.pages then 128 else n.len))]

/-- The lowest run of `k` granules free of `used`, within 4 GiB. -/
def firstFit (used : List (Nat × Nat)) (k : Nat) : Option Nat :=
  (0 :: used.map (fun (u : Nat × Nat) => u.1 + u.2)).foldl (fun (best : Option Nat) (a : Nat) =>
    if 2 ^ 24 < a + k || used.any (fun (u : Nat × Nat) => overlaps a k u.1 u.2) then best
    else match best with
      | some b => some (min a b)
      | none => some a) none

/-- Places for a symbol copy and a snapshot, in that order. -/
def Lifeline.place (l : Lifeline) (sym snap : Nat) : Option (Nat × Nat) :=
  let used := l.nodes.flatMap (fun (e : Nat × Node) => l.runs e.2)
  match firstFit used (granulesOf sym) with
  | none => none
  | some a => (firstFit ((a, granulesOf sym) :: used) (granulesOf snap)).map (fun b => (256 * a, 256 * b))

/-- The key of a pool byte. -/
def poolKey (s : State) (q off : Nat) : Nat := s.pools.getD q 0 + off

/-- Writes into a pool, granule by granule. -/
def poolWrite (s : State) (q off : Nat) (b : List Byte) : Nat → State
  | 0 => s
  | n + 1 =>
    if b.isEmpty then s
    else poolWrite (areaWrite s (poolKey s q off) (b.take 256)) q (off + 256) (b.drop 256) n

/-- The nodes from a node up to depth 1. -/
def Lifeline.path (l : Lifeline) : Nat → Nat → List Nat
  | 0, _ => []
  | n + 1, i =>
    match tabFind l.nodes i with
    | none => []
    | some x => i :: (match x.parent with
      | some p => l.path n p
      | none => [])

/-- Changes a node. -/
def Lifeline.modNode (l : Lifeline) (i : Nat) (f : Node → Node) : Lifeline :=
  match tabFind l.nodes i with
  | some n => { l with nodes := tabSet l.nodes i (f n) }
  | none => l

/-- Evicts a node of controller `q`; a page list goes back through the tree's return ring (R383). -/
def evict (s : State) (q i : Nat) : State :=
  let l := lifeAt s q
  match tabFind l.nodes i with
  | none => s
  | some n =>
    let l1 := { l with nodes := tabDel l.nodes i }
    let l2 := (match n.parent with
      | some p => l1.modNode p (fun x => { x with nchild := x.nchild - 1 })
      | none => l1).count n.tree 5 1
    let s1 := setLife s q l2
    match n.pages, tabFind l.trees n.tree with
    | true, some t =>
      let data := bytesLE 4 n.tag ++ bytesLE 4 0 ++ memRead s.mem (poolKey s q n.snap) 128
      sendWork (touchPage s1 (poolKey s q n.snap) 128) (lifeEnd q) t.ringTile .none 0
        (.ringPut { rcb := t.ringOff, hdr := 136 + 2 ^ 16, data := data, bar := none, lslot := 0, time := 0, pkt := 0 })
    | _, _ => s1

/-- The node that makes room: eligible, of a tree where one is given, and not the new node's parent;
the longest unused first, then the lowest index (R392). -/
def lifeVictim (l : Lifeline) (t : Option Nat) (par : Option Nat) : Option Nat :=
  (l.nodes.foldl (fun (best : Option (Nat × Nat)) (e : Nat × Node) =>
    let n := e.2
    let ok := n.refs == 0 && n.nchild == 0 && par != some e.1 &&
      (match t with
       | some x => n.tree == x
       | none => true)
    let age := (l.clock + 2 ^ 32 - n.stamp) % 2 ^ 32
    if !ok then best
    else match best with
      | some (i, a) => if a < age ∨ (a = age ∧ e.1 < i) then some (e.1, age) else best
      | none => some (e.1, age)) none).map (fun (e : Nat × Nat) => e.1)

/-- Evicts until the quota, the node area and the pool have room for a node; `none` where room cannot
be made. -/
def makeRoom (s : State) (q tree nmax sym snap : Nat) (par : Option Nat) : Nat → State × Option (Nat × Nat)
  | 0 => (s, none)
  | n + 1 =>
    let l := lifeAt s q
    let quota : Bool := decide (nmax ≤ (l.nodes.filter (fun (e : Nat × Node) => e.2.tree == tree)).length)
    match quota || decide (2 ^ 20 ≤ l.nodes.length), l.place sym snap with
    | false, some p => (s, some p)
    | _, _ =>
      match lifeVictim l (if quota then some tree else none) par with
      | some i => makeRoom (evict s q i) q tree nmax sym snap par n
      | none => (s, none)

/-- The lowest index that a table does not list. -/
def lowestFree {α : Type} (l : List (Nat × α)) : Nat → Nat → Nat
  | 0, i => i
  | n + 1, i => if (tabFind l i).isSome then lowestFree l n (i + 1) else i

/-! ### The operations (R387-R390) -/

/-- How far a walk matches (R387): the last node matched, its depth, and whether a collision ended
it. -/
structure Match where
  node : Option Nat
  depth : Nat
  collision : Bool
  deriving DecidableEq, Repr

/-- Walks the keys of an input's chunks of `n` bytes. -/
def walkTree (s : State) (q tree n : Nat) : List Nat → List Byte → Match → Match
  | [], _, m => m
  | h :: hs, b, m =>
    match (lifeAt s q).find tree h with
    | none => m
    | some (i, x) =>
      if memRead s.mem (poolKey s q x.syms) n = b.take n then
        walkTree s q tree n hs (b.drop n) ⟨some i, m.depth + 1, false⟩
      else { m with collision := true }

/-- The symbol copies that such a walk compares with its input. -/
def walkReads (s : State) (q tree n : Nat) : List Nat → List Byte → List Nat
  | [], _ => []
  | h :: hs, b =>
    match (lifeAt s q).find tree h with
    | none => []
    | some (_, x) =>
      let k := poolKey s q x.syms
      if memRead s.mem k n = b.take n then k :: walkReads s q tree n hs (b.drop n) else [k]

/-- The reads of such a walk count as accesses to their pages (R373). -/
def touchWalk (s : State) (q tree n : Nat) (hs : List Nat) (b : List Byte) : State :=
  (walkReads s q tree n hs b).foldl (fun s k => touchPage s k n) s

/-- Ends an operation's step: the clock advances (R387, R388). -/
def tickLife (s : State) (q : Nat) : State :=
  setLife s q { lifeAt s q with clock := ((lifeAt s q).clock + 1) % 2 ^ 32 }

/-- Pins the path to a node: the token and the state, or `none` where the pin table is full. -/
def pinPath (s : State) (q lslot node : Nat) : Option (Nat × State) :=
  let l := lifeAt s q
  if 4096 ≤ l.pins.length then none
  else
    let k := lowestFree l.pins 4096 0
    let seq := tabGet 0 l.pinSeq k % 255 + 1
    let l1 := { l with pins := tabSet l.pins k ⟨node, lslot, seq⟩, pinSeq := tabSet l.pinSeq k seq }
    let l2 := (l1.path (2 ^ 20) node).foldl (fun (l : Lifeline) (i : Nat) =>
      l.modNode i (fun x => { x with refs := x.refs + 1, stamp := l.clock })) l1
    some (k + 2 ^ 12 * q + 2 ^ 14 * lslot + 2 ^ 24 * seq, setLife s q l2)

/-- LFIND at its shard (R387). -/
def performFind (s : State) (q : Nat) (r : LifeReq) : Option State :=
  match treeOf s q r with
  | none => some (lifeFail s q r 6 false)
  | some t =>
    let n := 4 * t.chunk
    let j := r.count / t.chunk
    match lifeRead s r r.sym (j * n) with
    | .wait => none
    | .fail s1 stale => some (lifeFail s1 q r 8 stale)
    | .ok s1 b =>
      let m := walkTree s1 q r.tree n (chunkKeys n j b) b ⟨none, 0, false⟩
      let s1 := touchWalk s1 q r.tree n (chunkKeys n j b) b
      let s2 := countLife (countLife (countLife s1 q r.tree 0 1) q r.tree 1 m.depth) q r.tree 2 m.collision.toNat
      let st := if m.collision then 3 else 0
      match m.node.bind (fun i => (tabFind (lifeAt s2 q).nodes i).map (fun x => (i, x))) with
      | none => some (lifeFail (tickLife s2 q) q r st false)
      | some (i, x) =>
        match pinPath s2 q r.lslot i with
        | none => some (lifeAnswer (tickLife s2 q) q r 5 false (nodeResult 5 t q i x 0 false))
        | some (pin, s3) => some (lifeAnswer (tickLife s3 q) q r st false (nodeResult st t q i x pin true))

/-- LFIND_PERFORM (R387): `who` is the controller. -/
def tryLfindPerform (s : State) : Option State :=
  match takeLife s 0xF3 0 with
  | some (q, r, s1) => performFind s1 q r
  | none => none

/-- LFIND_PERFORM (R387). -/
def execLfindPerform (s : State) : Outcome State Fault Refusal := eventStep tryLfindPerform s

/-- Whether a page list is well formed: unused entries zero, used ones 64 KiB aligned (R388). -/
def listOk (b : List Byte) (n : Nat) : Bool :=
  (List.range 16).all (fun i => if i < n then natAt b (8 * i) 8 % 65536 == 0 else natAt b (8 * i) 8 == 0)

/-- Creates a node under its parent (R382). -/
def createNode (s : State) (q : Nat) (r : LifeReq) (par : Option Nat) (h depth : Nat) (place : Nat × Nat)
    (chunk snap : List Byte) : State × Nat × Node :=
  let l := lifeAt s q
  let i := lowestFree l.nodes (2 ^ 20) 0
  let n : Node := ⟨BitVec.ofNat 64 h, par, r.tree, depth, natAt r.block 13 1 == 3, 0, 0, l.clock, place.1, place.2,
    natAt r.block 24 4, natAt r.block 28 4⟩
  let l1 := { l with nodes := tabSet l.nodes i n }
  let l2 := match par with
    | some p => l1.modNode p (fun x => { x with nchild := x.nchild + 1 })
    | none => l1
  (poolWrite (poolWrite (setLife s q l2) q place.1 chunk 64) q place.2 snap 256, i, n)

/-- The indivisible step of LPUT, and its reply (R388). -/
def putStep (s : State) (q : Nat) (r : LifeReq) (t : Tree) (b snap : List Byte) : State :=
  let n := 4 * t.chunk
  let j := r.count / t.chunk
  let ks := chunkKeys n j b
  let m := walkTree s q r.tree n (ks.take (j - 1)) b ⟨none, 0, false⟩
  let s := touchWalk s q r.tree n ks b
  let chunk := b.drop ((j - 1) * n)
  let h := ks.getD (j - 1) 0
  let fin := fun (s : State) (st : Nat) (data : List Byte) =>
    lifeAnswer (countLife (tickLife s q) q r.tree (if st = 0 then 3 else 4) 1) q r st false data
  if m.collision then fin (countLife s q r.tree 2 1) 3 (bareResult 3)
  else if m.depth + 1 < j then fin s 2 (bareResult 2)
  else
    match (lifeAt s q).find r.tree h with
    | some (i, x) =>
      let st := if memRead s.mem (poolKey s q x.syms) n = chunk then 1 else 3
      fin s st (nodeResult st t q i x 0 true)
    | none =>
      match makeRoom s q r.tree t.nmax n snap.length m.node (2 ^ 20 + 1) with
      | (s1, none) => fin s1 4 (bareResult 4)
      | (s1, some p) =>
        let (s2, i, x) := createNode s1 q r m.node h j p chunk snap
        fin s2 0 (nodeResult 0 t q i x 0 true)

/-- LPUT at its shard (R388). -/
def performPut (s : State) (q : Nat) (r : LifeReq) : Option State :=
  match treeOf s q r with
  | none => some (lifeFail s q r 6 false)
  | some t =>
    let pages := natAt r.block 13 1 == 3
    let len := natAt r.block 24 4
    match lifeRead s r r.sym (4 * r.count) with
    | .wait => none
    | .fail s1 stale => some (lifeFail (countLife s1 q r.tree 4 1) q r 8 stale)
    | .ok s1 b =>
      match lifeRead s1 r (natAt r.block 16 8) (if pages then 128 else len) with
      | .wait => none
      | .fail s2 stale => some (lifeFail (countLife s2 q r.tree 4 1) q r 8 stale)
      | .ok s2 snap =>
        if pages && !listOk snap len then some (lifeFail (countLife s2 q r.tree 4 1) q r 7 false)
        else some (putStep s2 q r t b snap)

/-- LPUT_PERFORM (R388): `who` is the controller. -/
def tryLputPerform (s : State) : Option State :=
  match takeLife s 0xF4 0 with
  | some (q, r, s1) => performPut s1 q r
  | none => none

/-- LPUT_PERFORM (R388). -/
def execLputPerform (s : State) : Outcome State Fault Refusal := eventStep tryLputPerform s

/-- Releases pin entry `k` (R389). -/
def Lifeline.unpin (l : Lifeline) (k : Nat) : Lifeline :=
  match tabFind l.pins k with
  | none => l
  | some p =>
    (l.path (2 ^ 20) p.node).foldl (fun (l : Lifeline) (i : Nat) =>
      l.modNode i (fun x => { x with refs := x.refs - 1 })) { l with pins := tabDel l.pins k }

/-- The pins that a completed launch still holds are released (R389). -/
def releasePins (l : Lifeline) (lslot : Nat) : Lifeline :=
  (l.pins.filter (fun (e : Nat × Pin) => e.2.lslot == lslot)).foldl
    (fun (l : Lifeline) (e : Nat × Pin) => l.unpin e.1) l

/-- Whether a token names a held pin of the issuer's launch. -/
def Lifeline.holds (l : Lifeline) (token lslot : Nat) : Bool :=
  match tabFind l.pins (token % 4096) with
  | some p => p.lslot == lslot && nfld token 14 10 == lslot && nfld token 24 8 == p.seq
  | none => false

/-- LREL_PERFORM (R389): `who` is the controller. -/
def tryLrelPerform (s : State) : Option State :=
  match takeLife s 0xF5 0 with
  | none => none
  | some (q, r, s1) =>
    if r.pin = 0 then some (lifeFail s1 q r 0 false)
    else if (lifeAt s1 q).holds r.pin r.lslot then
      some (lifeFail (setLife s1 q ((lifeAt s1 q).unpin (r.pin % 4096))) q r 0 false)
    else some (lifeFail s1 q r 10 false)

/-- LREL_PERFORM (R389). -/
def execLrelPerform (s : State) : Outcome State Fault Refusal := eventStep tryLrelPerform s

/-- The eight numbers of a tree at a controller (R390). -/
def Lifeline.report (l : Lifeline) (t : Nat) : List Nat :=
  l.counts t ++ [(l.nodes.filter (fun (e : Nat × Node) => e.2.tree == t)).length,
    (l.pins.filter (fun (e : Nat × Pin) => match tabFind l.nodes e.2.node with
      | some n => n.tree == t
      | none => false)).length]

/-- LSTAT_READ_PERFORM (R390): the sums over the four controllers; `who` is the controller. -/
def tryLstatReadPerform (s : State) : Option State :=
  match takeLife s 0xF6 0 with
  | none => none
  | some (q, r, s1) =>
    match treeOf s1 q r with
    | none => some (lifeAnswer s1 q r 6 false (List.replicate 64 0))
    | some _ =>
      let sum := fun (i : Nat) => (s1.life.map (fun l => (l.report r.tree).getD i 0)).sum % 2 ^ 64
      some (lifeAnswer s1 q r 0 false ((List.range 8).flatMap (fun i => bytesLE 8 (sum i))))

/-- LSTAT_READ_PERFORM (R390). -/
def execLstatReadPerform (s : State) : Outcome State Fault Refusal := eventStep tryLstatReadPerform s

/-- The tree that a descriptor describes (R390). -/
def treeFrom (b : List Byte) : Tree :=
  { g := natAt b 1 1, asid := natAt b 2 1, nmax := natAt b 4 4, poolva := natAt b 8 8,
    ringTile := tileAt (natAt b 16 1) (natAt b 17 1), ringOff := 16 * natAt b 20 4 }

/-- LSTAT_CONFIG_PERFORM (R390): `who` is the controller. -/
def tryLstatConfigPerform (s : State) : Option State :=
  match takeLife s 0xF6 1 with
  | none => none
  | some (q, r, s1) =>
    if (tabFind (lifeAt s1 q).trees r.tree).isSome then some (lifeAnswer s1 q r 9 false (bytesLE 1 9))
    else
      some (lifeAnswer { s1 with life := s1.life.map (fun l => { l with
        trees := tabSet l.trees r.tree (treeFrom r.block), stats := tabDel l.stats r.tree }) } q r 0 false (bytesLE 1 0))

/-- LSTAT_CONFIG_PERFORM (R390). -/
def execLstatConfigPerform (s : State) : Outcome State Fault Refusal := eventStep tryLstatConfigPerform s

/-- Evicts the nodes of a tree at a controller, the deepest first. -/
def evictTree (s : State) (q t : Nat) : Nat → State
  | 0 => s
  | n + 1 =>
    match (lifeAt s q).nodes.find? (fun (e : Nat × Node) => e.2.tree == t && e.2.nchild == 0) with
    | some (i, _) => evictTree (evict s q i) q t n
    | none => s

/-- LSTAT_CLOSE_PERFORM (R390): `who` is the controller. -/
def tryLstatClosePerform (s : State) : Option State :=
  match takeLife s 0xF6 2 with
  | none => none
  | some (q, r, s1) =>
    match treeOf s1 q r with
    | none => some (lifeAnswer s1 q r 6 false (bytesLE 1 6))
    | some _ =>
      if s1.life.any (fun l => (l.report r.tree).getD 7 0 != 0) then some (lifeAnswer s1 q r 9 false (bytesLE 1 9))
      else
        let s2 := (List.range 4).foldl (fun (s : State) (k : Nat) =>
          evictTree s k r.tree (lifeAt s k).nodes.length) s1
        some (lifeAnswer { s2 with life := s2.life.map (fun l => { l with trees := tabDel l.trees r.tree }) } q r 0
          false (bytesLE 1 0))

/-- LSTAT_CLOSE_PERFORM (R390). -/
def execLstatClosePerform (s : State) : Outcome State Fault Refusal := eventStep tryLstatClosePerform s

/-! ### Replies (R385) -/

/-- LIFELINE_REPLY (R385): the issuing tile writes the bytes at L, and only then makes the arrival; a
keyed launch keeps its block, with DEPTH 0 where the lookup has failed (R394). A guarded L takes no bytes (R256). -/
def tryLifelineReply (s : State) : Option State :=
  let t := s.ev.who
  match item s t s.ev.idx with
  | none => none
  | some (id, p) =>
    match p.work with
    | .lifeReply r st cls data =>
      let s1 := finish s id none
      match r.keyed with
      | some slot =>
        match s1.launch slot with
        | some l => some (s1.setLaunch slot { l with
            lookup := if st < 4 then data else data.take 4 ++ List.replicate 4 0 ++ data.drop 8 })
        | none => some s1
      | none =>
        let k := keyScratch t r.l
        let g := guarded s1 k data.length
        let s2 := if g then s1 else arrayStore s1 k data 0
        let c := if g && cls == 0 then 1 else cls
        some (sendArrival s2 t r.lslot r.bar (c != 0) c 0)
    | _ => none

/-- LIFELINE_REPLY (R385). -/
def execLifelineReply (s : State) : Outcome State Fault Refusal := eventStep tryLifelineReply s

end Sys2Proof.Machine
end

