-- ==== Sys2Proof/Machine/MatrixUnit.lean ====
section
/-! DEFINITION. The matrix unit: its queue (R218), arrival checks (R217), carriage steps
(R222-R235, R238, R239), the ring and the cast-off engine (R236, R237). -/

namespace Sys2Proof.Machine

open Host (Outcome)

/-! ### Fields of a command -/

/-- B of a product. -/
def MatCmd.fB (c : MatCmd) : Nat := nfld c.ctl 8 4
/-- K of a product. -/
def MatCmd.fK (c : MatCmd) : Nat := nfld c.ctl 6 2
/-- RING. -/
def MatCmd.fRing (c : MatCmd) : Bool := c.ctl.testBit 5
/-- P. -/
def MatCmd.fP (c : MatCmd) : Nat := nfld c.ctl 0 5
/-- K of TDRAIN and TCHK. -/
def MatCmd.dK (c : MatCmd) : Nat := nfld c.ctl 14 2
/-- OFMT of TDRAIN. -/
def MatCmd.dFmt (c : MatCmd) : Nat := nfld c.ctl 10 4
/-- ZD. -/
def MatCmd.dZd (c : MatCmd) : Bool := c.ctl.testBit 9
/-- Rows of TDRAIN. -/
def MatCmd.dRows (c : MatCmd) : Nat := nfld c.ctl 3 6 + 1
/-- Columns of TDRAIN. -/
def MatCmd.dCols (c : MatCmd) : Nat := 4 * (c.modf / 16 % 16 + 1)
/-- The pair number of a product (R230, R234). -/
def MatCmd.pair (c : MatCmd) : Nat := if c.opc = 0xA6 then c.modf % 32 else c.opc % 32 - 7
/-- The tag of the command's memory accesses (R220, R294). -/
def MatCmd.tag (c : MatCmd) : GenTag := some (c.asid, c.gen)

/-- A and B side of a pair: element format and block scale (R110, R231). -/
def pairSides (p : Nat) : (Nat × Nat) × (Nat × Nat) :=
  match p with
  | 1 => ((0, 0), (0, 0))
  | 2 => ((1, 0), (1, 0))
  | 3 => ((3, 1), (3, 1))
  | 4 => ((3, 1), (2, 1))
  | 5 => ((2, 1), (3, 1))
  | 6 => ((2, 1), (2, 1))
  | 7 => ((4, 1), (4, 1))
  | 8 => ((5, 1), (5, 1))
  | 9 => ((5, 1), (3, 1))
  | 10 => ((3, 1), (5, 1))
  | 11 => ((6, 1), (6, 1))
  | 12 => ((6, 1), (3, 1))
  | 13 => ((3, 1), (6, 1))
  | 14 => ((6, 1), (5, 1))
  | 15 => ((5, 1), (6, 1))
  | 16 => ((7, 0), (7, 0))
  | 17 => ((3, 2), (3, 2))
  | 18 => ((5, 2), (5, 2))
  | 19 => ((4, 2), (4, 2))
  | 20 => ((5, 2), (3, 2))
  | 21 => ((3, 2), (5, 2))
  | 22 => ((2, 2), (2, 2))
  | 23 => ((0, 0), (3, 1))
  | _ => ((0, 0), (6, 1))

/-- The pairs whose block sum is exact in its window (R126); the others use the tree of R127. -/
def pairExact (p : Nat) : Bool := p == 3 || decide (7 ≤ p ∧ p ≤ 21)

/-- The format of an FMT or OFMT code. -/
def fmtOf : Nat → Fmt
  | 0 => .bf16
  | 1 => .fp16
  | 2 => .e5m2
  | 3 => .e4m3
  | 4 => .e2m3
  | 5 => .e2m1
  | 6 => .lg6
  | 7 => .int8
  | _ => .fp32

/-! ### Reading and changing the unit -/

/-- Whether a row of a register is poisoned. -/
def MatUnit.bad (u : MatUnit) (n i : Nat) : Bool := storeGet false u.poison (n * 64 + i)
/-- Word (i, j) of an accumulator. -/
def MatUnit.word (u : MatUnit) (a i j : Nat) : BitVec 32 := storeGet 0 u.acc (4096 * a + 64 * i + j)
/-- Checksum i. -/
def MatUnit.sum (u : MatUnit) (a i : Nat) : BitVec 32 := storeGet 0 u.csum (a * 64 + i)
/-- Sets sticky bits of an accumulator (R214). -/
def MatUnit.stick (u : MatUnit) (a bits : Nat) : MatUnit :=
  { u with sticky := u.sticky ||| BitVec.ofNat 16 (bits * 2 ^ (4 * a)) }

/-- A write of an accumulator word, with its checksum (R212). -/
def MatUnit.setWord (u : MatUnit) (a i j : Nat) (v : BitVec 32) : MatUnit :=
  { u with
    csum := storeSet 0 u.csum (a * 64 + i) (u.sum a i + v - u.word a i j)
    acc := storeSet 0 u.acc (4096 * a + 64 * i + j) v }

/-- Whether a row's recomputed checksum agrees (R228). -/
def MatUnit.rowOk (u : MatUnit) (a i : Nat) : Bool :=
  ((List.range 64).foldl (fun (x : BitVec 32) j => x + u.word a i j) 0) == u.sum a i

/-- The elements of block `b` of row `i` of a register, as codes (R118, R208). -/
def MatUnit.block (u : MatUnit) (n i b : Nat) : List Nat :=
  let w := u.cfg n
  let bb := blockBytes (cfgFmt w)
  let v := natLE (storeRead 0 u.tr (8192 * n + i * cfgRsz w + b * bb) bb)
  let bits := (fmtOf (cfgFmt w)).bits
  (List.range 32).map (fun k => nfld v (bits * k) bits)

/-- The decoded scale of a block, or 1 (R128). -/
def MatUnit.scaleVal (u : MatUnit) (n i b : Nat) : Val :=
  let code := (storeGet 0 u.scale (512 * n + 8 * i + b)).toNat
  match cfgScl (u.cfg n) with
  | 1 => decodeFmt .ue4m3 code
  | 2 => decodeFmt .e8m0 code
  | _ => .fin (Q.ofInt 1)

/-- Whether an error word of the registers' storage lies in what a read of row `i` of register `n` reads: its
elements, and its scales where it has some. -/
def MatUnit.errHits (u : MatUnit) (n i : Nat) (e : Nat × Bool) : Bool :=
  let rsz := cfgRsz (u.cfg n)
  if e.1 < 8192 then e.1 / 512 == n && overlaps (16 * (e.1 % 512)) 16 (i * rsz) rsz
  else cfgScl (u.cfg n) != 0 && e.1 - 8192 == 32 * n + i / 2

/-- Rows of a register are read: each that meets an uncorrectable error of the register's storage is poisoned
(R211, R252). The error stays until it is overwritten, so that every row which shares its word meets it. The
flag says that a row has met one for the first time. -/
def MatUnit.findRegs (u : MatUnit) (n : Nat) (rows : List Nat) : MatUnit × Bool :=
  let bad := rows.filter (fun i => u.regErr.any (u.errHits n i))
  ({ u with poison := storePuts false u.poison (bad.map (fun i => (64 * n + i, true))) }, bad.any (fun i => !u.bad n i))

/-- Rows of an accumulator are read: a parity error in one is found (R252). Its checksum shows it too (R212). -/
def MatUnit.findAcc (u : MatUnit) (a : Nat) (rows : List Nat) : MatUnit × Bool :=
  let hit := fun (e : Nat × Bool) => e.1 / 1024 == a && rows.contains (e.1 / 16 % 64)
  ({ u with accErr := u.accErr.filter (fun e => !hit e) }, u.accErr.any hit)

/-- Replaces the unit state of a tile. -/
def setUnit (s : State) (t : Nat) (u : MatUnit) : State :=
  s.modTile t (fun x => { x with matrix := { x.matrix with unit := u } })
/-- The unit state of a tile. -/
def unitOf (s : State) (t : Nat) : MatUnit := (s.tile t).matrix.unit
/-- What a read of the unit's storage has found: the new state of the unit, and an entry for an error (R252). -/
def foundIn (s : State) (t lslot : Nat) (r : MatUnit × Bool) : State :=
  let s1 := setUnit s t r.1
  if r.2 then logAt s1 0x0C Cause.uncorrectable.code t lslot 0 0 else s1
/-- The unit reads rows of a register. -/
def readRows (s : State) (t lslot n : Nat) (rows : List Nat) : State := foundIn s t lslot ((unitOf s t).findRegs n rows)
/-- The unit reads rows of an accumulator. -/
def readAcc (s : State) (t lslot a : Nat) (rows : List Nat) : State := foundIn s t lslot ((unitOf s t).findAcc a rows)
/-- Replaces the current command of a tile. -/
def setCur (s : State) (t : Nat) (c : Option Current) : State :=
  s.modTile t (fun x => { x with matrix := { x.matrix with cur := c } })

/-! ### Products (R125-R129) -/

/-- The exact product of two elements (R125). -/
def prodVal (fa fb : Fmt) (a b : Nat) : Val :=
  if fa = .lg6 ∧ fb = .lg6 then
    if a = 0x30 ∨ b = 0x30 then .nan false
    else if a = 0x10 ∨ b = 0x10 then .fin ⟨false, 0, 1, 0⟩
    else .fin (lgMul (decide (32 ≤ a) != decide (32 ≤ b)) (sint 5 a) (sint 5 b))
  else mulV (decodeFmt fa a) (decodeFmt fb b)

/-- Round(A40, v, RNE, 0), as a value. -/
def roundA (v : Val) : Val := decodeFmt .a40 (round .a40 v .rne false).code

/-- One level of the tree of R127. -/
def treeLevel : List Val → List Val
  | a :: b :: r => roundA (addV .rne a b) :: treeLevel r
  | l => l

/-- BlockSum of 32 products (R126, R127). -/
def blockSum (exact : Bool) (p : List Val) : Val :=
  if exact then
    if p.any (·.isNaN) then .nan false
    else
      match p.foldl (addV .rne) (.fin ⟨false, 0, 1, 0⟩) with
      | .fin q => if q.num = 0 then .fin ⟨false, 0, 1, 0⟩ else .fin q
      | v => v
  else (treeLevel (treeLevel (treeLevel (treeLevel (treeLevel p))))).headD (.fin ⟨false, 0, 1, 0⟩)

/-- The block sum of row `i` of register `ra` and row `j` of register `rb`; a poisoned row makes
every product NaN (R125, R211). -/
def MatUnit.blockVal (u : MatUnit) (pair ra rb i j b : Nat) : Val :=
  if u.bad ra i || u.bad rb j then .nan false
  else
    let sides := pairSides pair
    blockSum (pairExact pair) ((List.zip (u.block ra i b) (u.block rb j b)).map
      (fun (e : Nat × Nat) => prodVal (fmtOf sides.1.1) (fmtOf sides.2.1) e.1 e.2))

/-- The partial after a block (R128). -/
def MatUnit.nextPart (u : MatUnit) (pair k ra rb i j r b : Nat) : Val :=
  let p := decodeFmt .a40 (storeGet 0 u.part (4096 * k + 64 * r + j)).toNat
  let sb := roundA (mulV (mulV (u.blockVal pair ra rb i j b) (u.scaleVal ra i b)) (u.scaleVal rb j b))
  roundA (addV .rne p sb)

/-- Promote (R129): the new word, and whether OF and INV rise. -/
def promote (acc : BitVec 32) (p : Val) (tsA tsB : Nat) : BitVec 32 × Nat :=
  let a := decodeFmt .fp32 acc.toNat
  let x := mulV (mulV p (decodeFmt .fp32 tsA)) (decodeFmt .fp32 tsB)
  let r := (round .fp32 (addV .rne a x) .rne false).code
  let fin := fun (v : Val) => match v with
    | .fin _ => true
    | _ => false
  let isInf := decide (r % 2 ^ 31 = 0x7F800000)
  let isNaN := (decodeFmt .fp32 r).isNaN
  (BitVec.ofNat 32 r, (fin a && fin x && isInf).toNat + 4 * (isNaN && !a.isNaN).toNat)

/-- One element of a step: the partial, and the promotion when it is due. Row `i` of A goes to row
`r` of the accumulator. -/
def mmaElem (pair k ra rb b : Nat) (due : Bool) (tsA tsB : Nat) (u : MatUnit) (e : Nat × Nat) : MatUnit :=
  let v := u.nextPart pair k ra rb e.1 e.2 e.1 b
  let key := 4096 * k + 64 * e.1 + e.2
  if due then
    let (w, f) := promote (u.word k e.1 e.2) v tsA tsB
    { (u.setWord k e.1 e.2 w).stick k f with part := storeSet 0 u.part key 0 }
  else { u with part := storeSet 0 u.part key (BitVec.ofNat 40 (round .a40 v .rne false).code) }

/-- The elements (i, j) of rows `lo` to `lo + m - 1` and `n` columns. -/
def corner (lo m n : Nat) : List (Nat × Nat) :=
  (List.range m).flatMap (fun i => (List.range n).map (fun j => (lo + i, j)))

/-- One step: block `b` of rows `lo` to `lo + m - 1` of `ra` against all rows of `rb` (R232). The
flag says that a poisoned row was consumed. -/
def mmaBlock (u : MatUnit) (c : MatCmd) (ra rb lo m b : Nat) : MatUnit × Bool :=
  let n := cfgRows (u.cfg rb)
  let kb := cfgKb (u.cfg ra)
  let due := (b + 1) % c.fP == 0 || b + 1 == kb
  let u1 := (corner lo m n).foldl (mmaElem c.pair c.fK ra rb b due (fld c.c 0 32) (fld c.c 32 32)) u
  let bad := (List.range m).any (fun i => u.bad ra (lo + i)) || (List.range n).any (fun j => u.bad rb j)
  (if bad then u1.stick c.fK 4 else u1, bad)

/-! ### Conversion (R214, R228, R237) -/

/-- A conversion of an FP32 word for a drain: the code, and the sticky bits OF, SAT and INV. -/
def drainConv (ofmt rm : Nat) (sat ftz : Bool) (w : Nat) : Nat × Nat :=
  if ofmt = 15 then (ftzCode ftz .fp32 w, 0)
  else
    let F := fmtOf ofmt
    let r := round F (decodeFmt .fp32 w) (rmOf rm) sat
    (ftzCode ftz F r.code, ((r.fl &&& flOF) != 0).toNat + 2 * (sat && r.ovf).toNat + 4 * ((r.fl &&& flNV) != 0).toNat)

/-- Codes packed little-endian, `w` bits each (R118). -/
def packCodes (w : Nat) (l : List Nat) : List Byte :=
  bytesLE ((l.length * w + 7) / 8) (l.foldr (fun c acc => c % 2 ^ w + 2 ^ w * acc) 0)

/-- Bits of an output element. -/
def ofmtBits (ofmt : Nat) : Nat := if ofmt = 15 then 32 else (fmtOf ofmt).bits

/-- Whether N columns pack whole (R118, R231). -/
def packsWhole (ofmt n : Nat) : Bool := n * ofmtBits ofmt % 8 == 0 && !((ofmtBits ofmt == 6) && n % 4 != 0)

/-! ### Arrival and the choice of the next command (R217, R218, R221) -/

/-- The ring's OFMT, if a ring is installed. -/
def MatUnit.ringFmt (u : MatUnit) : Option Nat := u.ring.map (fun d => natAt d 5 1)

/-- The checks of R231 for a product of `ra` and `rb`. -/
def pairOk (u : MatUnit) (c : MatCmd) (ra rb : Nat) : Bool :=
  let a := u.cfg ra
  let b := u.cfg rb
  let x := pairSides c.pair
  cfgFmt a == x.1.1 && cfgScl a == x.1.2 && cfgFmt b == x.2.1 && cfgScl b == x.2.2 && cfgKb a == cfgKb b &&
  (!c.fRing || (match u.ringFmt with
    | some f => packsWhole f (cfgRows b)
    | none => false))

/-- The arrival checks of the products (R231, R235). -/
def productOk (u : MatUnit) (c : MatCmd) : Bool :=
  if c.opc = 0xA6 then
    decide (c.groups.sum ≤ cfgRows (u.cfg c.fA)) &&
      c.groups.zipIdx.all (fun (e : Nat × Nat) => e.1 == 0 || pairOk u c c.fA ((c.fB + e.2) % 16))
  else if 0xA8 ≤ c.opc then pairOk u c c.fA c.fB
  else true

/-- Why a command is rejected at its arrival check, as a cause code (R217). -/
def arrivalFault (s : State) (t : Nat) (c : MatCmd) : Option Nat :=
  match checkHandle s t (fld c.cap 8 8) (fld c.cap 0 8) 25 with
  | some .capability => some Cause.capability.code
  | some .stale => some Cause.staleHandle.code
  | none => if productOk (unitOf s t) c then none else some Cause.shape.code

/-- `n` equal reports of a command. -/
def matArriveN (s : State) (t : Nat) (c : MatCmd) (cls ab : Nat) : Nat → State
  | 0 => s
  | n + 1 => matArriveN (matArrive s t c cls ab) t c cls ab n

/-- The arrivals that a command makes in all (R219). -/
def MatCmd.arrivals (c : MatCmd) : Nat := if c.bar.isSome && c.opc == 0xA6 then c.groups.length else 1

/-- MATRIX_CMD_ARRIVAL (R218): `who` is the target, `idx` its item. Entering the queue is the
command's acceptance (R279); a command of a stale generation is refused (R294). -/
def tryMatrixCmdArrival (s : State) : Option State :=
  let t := s.ev.who
  match item s t s.ev.idx with
  | none => none
  | some (id, p) =>
    match p.work with
    | .matrix c =>
      if pktStale s p then some (matArriveN (finish s id (some (2, 0))) t c 2 0 c.arrivals)
      else if 64 ≤ (s.tile t).matrix.queue.length then none
      else some (finish (s.modTile t (fun x => { x with
        matrix := { x.matrix with queue := x.matrix.queue ++ [c] } })) id none)
    | _ => none

/-- MATRIX_CMD_ARRIVAL (R218). -/
def execMatrixCmdArrival (s : State) : Outcome State Fault Refusal := eventStep tryMatrixCmdArrival s

/-- A rejected command: every arrival it would have made, and the log (R217). -/
def rejectCmd (s : State) (t : Nat) (c : MatCmd) (cause : Nat) : State :=
  let s1 := logAt s 8 cause t c.lslot c.route.toNat c.logCode
  if c.bar.isSome then matArriveN s1 t c 1 0 c.arrivals else s1

/-- The first group from `g` that has rows. -/
def nextGroup (l : List Nat) (g : Nat) : Option Nat :=
  (l.zipIdx.find? (fun (e : Nat × Nat) => decide (g ≤ e.2) && e.1 != 0)).map (·.2)

/-- A command that passed its checks becomes current; MMAG's zero groups arrive at once. -/
def startCmd (s : State) (t : Nat) (c : MatCmd) : State :=
  let s1 := s.modTile t (fun x => { x with matrix := { x.matrix with holder := some c.lslot } })
  let cur : Current := ⟨s.cycle, c, 0, 0, 0, [], false, 0, false⟩
  if c.opc = 0xA6 then
    let s2 := matArriveN s1 t c 0 0 (c.groups.filter (· == 0)).length
    match nextGroup c.groups 0 with
    | some g => setCur s2 t (some { cur with group := g })
    | none => s2
  else setCur s1 t (some cur)

/-- The saved image of a launch for a tile, if it has one. -/
def imageOf (s : State) (slot t : Nat) : Option (MatUnit × Option Current × List MatCmd) :=
  match s.launch slot with
  | some l => tabFind l.images t
  | none => none

/-- Whether a command touches no memory byte, no ring, and no sticky bit that another command could observe
before a cast-off store sets it: it may overlap such a store (R218). A product with RING does not: it shares the
ring with the product before it. TRING waits for the stores itself (R236). -/
def MatCmd.mayOverlap (c : MatCmd) : Bool :=
  c.opc == 0xA0 || (c.opc == 0xA3 && !c.modf.testBit 4) || c.opc == 0xA7 || (decide (0xA6 ≤ c.opc) && !c.fRing)

/-- Whether the unit may take a command from its queue: it is idle, and the earlier commands are complete,
but for the cast-off stores of products where the command may overlap them (R218). -/
def mayTake (m : Matrix) (c : MatCmd) : Bool :=
  m.cur.isNone && (if c.mayOverlap then
      !m.pending.any (fun (e : Nat × MatCmd × Nat × Nat × List Nat) => e.2.1.opc == 0xA2 || e.2.1.opc == 0xA4 || e.2.1.opc == 0xA5)
    else m.pending.isEmpty && m.unit.tiles.isEmpty)

/-- MATRIX_CMD_TAKE (R217, R221): `who` is the tile. A unit without a holder is in its clear state;
a command of another launch than the holder waits for the swap. One whose launch is pre-empted, with a saved
image, waits at the head of the queue until the launch goes on, and those behind it wait with it (DESIGN CHOICE,
log 85). -/
def tryMatrixCmdTake (s : State) : Option State :=
  let t := s.ev.who
  let m := (s.tile t).matrix
  match m.queue with
  | [] => none
  | c :: r =>
    if !mayTake m c then none
    else if m.holder.isSome && m.holder != some c.lslot then none
    else if m.holder.isNone && (imageOf s c.lslot t).isSome then none
    else
      let s1 := s.modTile t (fun x => { x with matrix := { x.matrix with queue := r } })
      let s2 := if m.holder.isNone then setUnit s1 t MatUnit.clear else s1
      match arrivalFault s2 t c with
      | some cause => some (rejectCmd s2 t c cause)
      | none => some (startCmd s2 t c)

/-- MATRIX_CMD_TAKE (R217). -/
def execMatrixCmdTake (s : State) : Outcome State Fault Refusal := eventStep tryMatrixCmdTake s

/-! ### Steps in common (R238, R239) -/

/-- The current command of the tile of the event when it has an opcode and the carriage does not
wait. -/
def stepOf (s : State) (opc : Nat) : Option Current :=
  let m := (s.tile s.ev.who).matrix
  match m.cur with
  | some c => if m.stall = 0 ∧ c.cmd.opc = opc ∧ c.copying = false then some c else none
  | none => none

/-- The current command is over: its report (R219). -/
def endCmd (s : State) (t : Nat) (c : Current) : State := matDone (setCur s t none) t c.id c.cmd c.cls 0 c.refused

/-- A step is done: counted, and the next one or the end. -/
def stepDone (s : State) (t : Nat) (c : Current) (steps : Nat) : State :=
  let s1 := countPerf s t 5 1
  if c.step + 1 < steps then setCur s1 t (some { c with step := c.step + 1 }) else endCmd s1 t c

/-- The sectors that address ranges touch, each once, but for those already refused. -/
def leftSectors (s : State) (t : Nat) (c : MatCmd) (write : Bool) (refused : List Nat) (l : List (Nat × Nat)) : Nat :=
  (((l.flatMap (fun e => sectorRange e.1 e.2)).dedup).filter (fun a => match engineLoc s t c.asid (32 * a) write false with
    | some x => !refused.contains (x.key / 32)
    | none => true)).length

/-- The address ranges of rows `i` to `rows - 1`. -/
def rowsLeft (f : Nat → List (Nat × Nat)) (i rows : Nat) : List (Nat × Nat) :=
  (List.range (rows - i)).flatMap (fun j => f (i + j))

/-- A transfer stops: the class, and the address ranges that it leaves (R224, R296). -/
def stopCmd (s : State) (t : Nat) (c : Current) (cls : Nat) (write : Bool) (l : List (Nat × Nat)) : State :=
  matDone (setCur (countPerf s t 5 1) t none) t c.id c.cmd cls (leftSectors s t c.cmd write c.refused l) c.refused

/-- The carriage takes ROW_REMAP (1) or THERMAL_HOLD (2) and waits (R239). -/
def carriageTrap (s : State) (t k : Nat) : State :=
  countEvent (s.modTile t (fun x => { x with matrix := { x.matrix with stall := k } })) t (if k = 1 then 0 else 2)

/-- Whether the generation that the target now issues is still the command's (R220). -/
def genNow (s : State) (t : Nat) (c : MatCmd) : Bool :=
  genV (genEntry s t c.asid) && igen (genEntry s t c.asid) == c.gen

/-- What a step meets before it moves `n` bytes at its pieces. -/
inductive StepGate where
  | wait
  | trap (k : Nat)
  | stop (cls : Nat)
  | go (l : List Piece)
  deriving DecidableEq, Repr

/-- The gate of a step: exchanges, holds, spaces and generations (R224, R239, R220). -/
def stepGate (s : State) (t : Nat) (c : Current) (l : Option (List Piece)) (n : Nat) : StepGate :=
  match l with
  | none => .stop 1
  | some l =>
    if (c.cmd.opc = 0xA1 ∨ c.cmd.opc = 0xA2) ∧ (s.tile t).thermal = .hold then .trap 2
    else if piecesRow s l then .trap 1
    else if piecesWait s l then .wait
    else if ((c.moved + n) / 4096 ≠ c.moved / 4096 && !genNow s t c.cmd) || piecesStale s l c.cmd.tag then .stop 2
    else .go l

/-- The first failure class of a command stays. -/
def Current.fail (c : Current) (cls : Nat) : Current := { c with cls := if c.cls = 0 then cls else c.cls }

/-- Sectors that guarded granules have refused (R256). -/
def Current.guards (c : Current) (l : List Nat) : Current :=
  if l.isEmpty then c else { c.fail 1 with refused := (c.refused ++ l).dedup }

/-! ### TCFG, TZERO, ACLR, TCHK (R222, R226, R229) -/

/-- TCFG_PERFORM (R222): `who` is the tile. -/
def tryTcfgPerform (s : State) : Option State :=
  let t := s.ev.who
  (stepOf s 0xA0).map (fun c =>
    let u := unitOf s t
    stepDone (setUnit s t { u with tcfg := u.tcfg.setIfInBounds c.cmd.fA (BitVec.ofNat 32 c.cmd.b.toNat) }) t c 1)

/-- TCFG_PERFORM (R222). -/
def execTcfgPerform (s : State) : Outcome State Fault Refusal := eventStep tryTcfgPerform s

/-- Whether a TZERO or ACLR command is ACLR: modifier bit [28]. -/
def MatCmd.isAclr (c : MatCmd) : Bool := c.modf.testBit 4

/-- Registers masked by `m` zeroed (R226). -/
def MatUnit.tzero (u : MatUnit) (m : Nat) : MatUnit :=
  { u with
    tr := u.tr.filter (fun e => !m.testBit (e.1 / 8192))
    scale := u.scale.filter (fun e => !m.testBit (e.1 / 512))
    poison := u.poison.filter (fun e => !m.testBit (e.1 / 64))
    regErr := u.regErr.filter (fun e => !m.testBit (if e.1 < 8192 then e.1 / 512 else (e.1 - 8192) / 32)) }

/-- Accumulators masked by `m` cleared (R226). -/
def MatUnit.aclr (u : MatUnit) (m : Nat) : MatUnit :=
  let bits := ((List.range 4).filter (fun a => m.testBit a)).foldl (fun (b : Nat) a => b + 15 * 2 ^ (4 * a)) 0
  { u with
    acc := u.acc.filter (fun e => !m.testBit (e.1 / 4096))
    csum := u.csum.filter (fun e => !m.testBit (e.1 / 64))
    part := u.part.filter (fun e => !m.testBit (e.1 / 4096))
    accErr := u.accErr.filter (fun e => !m.testBit (e.1 / 1024))
    sticky := u.sticky &&& ~~~BitVec.ofNat 16 bits }

/-- TZERO_PERFORM (R226). -/
def tryTzeroPerform (s : State) : Option State :=
  let t := s.ev.who
  match stepOf s 0xA3 with
  | some c => if c.cmd.isAclr then none
    else some (stepDone (setUnit s t ((unitOf s t).tzero (c.cmd.ctl % 2 ^ 16))) t c 1)
  | none => none

/-- TZERO_PERFORM (R226). -/
def execTzeroPerform (s : State) : Outcome State Fault Refusal := eventStep tryTzeroPerform s

/-- ACLR_PERFORM (R226). -/
def tryAclrPerform (s : State) : Option State :=
  let t := s.ev.who
  match stepOf s 0xA3 with
  | some c => if c.cmd.isAclr then some (stepDone (setUnit s t ((unitOf s t).aclr (c.cmd.ctl % 16))) t c 1)
    else none
  | none => none

/-- ACLR_PERFORM (R226). -/
def execAclrPerform (s : State) : Outcome State Fault Refusal := eventStep tryAclrPerform s

/-- The rows of an accumulator whose checksum disagrees, among `rows`. -/
def badRows (u : MatUnit) (k : Nat) (rows : List Nat) : List Nat := rows.filter (fun i => !u.rowOk k i)

/-- CKERR and a silent-error event for each row that disagrees (R228). -/
def reportRows (s : State) (t k lslot : Nat) (l : List Nat) : State :=
  let s1 := if l.isEmpty then s else setUnit s t ((unitOf s t).stick k 8)
  l.foldl (fun s i => logAt (countEvent s t 6) 0x0A 0 t lslot i k) s1

/-- The status word of TCHK (R229). -/
def chkStatus (u : MatUnit) (n : Nat) : List Byte := bytesLE 8 (u.sticky.toNat + 2 ^ 32 * n)

/-- TCHK_PERFORM (R229). -/
def tryTchkPerform (s : State) : Option State :=
  let t := s.ev.who
  match stepOf s 0xA5 with
  | none => none
  | some c =>
    let k := c.cmd.dK
    let bad := badRows (unitOf s t) k (List.range 64)
    let check := fun (s : State) => reportRows (readAcc s t c.cmd.lslot k (List.range 64)) t k c.cmd.lslot bad
    if c.cmd.nob then some (stepDone (check s) t c 1)
    else
      let gate := stepGate s t c (engPieces s t c.cmd.asid c.cmd.b.toNat 8 true false) 8
      let s := engineWalks s t c.cmd.asid c.cmd.b.toNat 8
      match gate with
      | .wait => none
      | .trap k => some (carriageTrap s t k)
      | .stop cls => some (stopCmd (check s) t c cls true [(c.cmd.b.toNat, 8)])
      | .go l =>
        let s1 := check s
        let (s2, n) := writePieces s1 t (.matrix t c.id) c.cmd.lslot c.cmd.tag l (chkStatus (unitOf s1 t) bad.length)
        some (stepDone s2 t (c.guards n) 1)

/-- TCHK_PERFORM (R229). -/
def execTchkPerform (s : State) : Outcome State Fault Refusal := eventStep tryTchkPerform s

/-! ### TLD and TST (R223-R225) -/

/-- The signed 32-bit field of a descriptor. -/
def descInt (d : List Byte) (o n : Nat) : Int := sint (8 * n) (natAt d o n)

/-- An address with a signed displacement, modulo 2^64. -/
def addrPlus (base : Nat) (d : Int) : Nat := wrapInt 64 ((base : Int) + d)

/-- Joins lists of pieces where all exist. -/
def joinPieces : List (Option (List Piece)) → Option (List Piece)
  | [] => some []
  | none :: _ => none
  | some l :: r => (joinPieces r).map (fun x => l ++ x)

/-- The address ranges of row `row` of a TLD's source: of its blocks and of their scales (R223, R224). -/
def tldSpans (c : MatCmd) (w row : Nat) : List (Nat × Nat) × List (Nat × Nat) :=
  let d := c.desc
  ((List.range (cfgKb w)).map (fun b =>
     (addrPlus (natAt d 0 8) ((row : Int) * descInt d 8 4 + (b : Int) * descInt d 12 4), blockBytes (cfgFmt w))),
   if cfgScl w = 0 then []
   else (List.range (cfgKb w)).map (fun b => (addrPlus (natAt d 16 8) ((row : Int) * descInt d 24 2 + (b : Int)), 1)))

/-- What the translations of address ranges leave behind (R370, R396). -/
def walkSpans (s : State) (t asid : Nat) (l : List (Nat × Nat)) : State :=
  l.foldl (fun s e => engineWalks s t asid e.1 e.2) s

/-- The pieces of address ranges. -/
def spanPieces (s : State) (t asid : Nat) (write : Bool) (l : List (Nat × Nat)) : List (Option (List Piece)) :=
  l.map (fun e => engPieces s t asid e.1 e.2 write false)

/-- Reads one range after the other, with a flag for each that met an uncorrectable error. -/
def readSpans (s : State) : List (Option (List Piece)) → State × List Byte × List Bool
  | [] => (s, [], [])
  | p :: r =>
    let (s1, b, bad) := readPieces s (p.getD [])
    let (s2, rest, l) := readSpans s1 r
    (s2, b ++ rest, bad :: l)

/-- The errors that the vertical port finds in ranges go to containment by owner tag (R117, R254). -/
def containSpans (s : State) (l : List (Option (List Piece) × Bool)) : State :=
  l.foldl (fun (s : State) (e : Option (List Piece) × Bool) => if e.2 then
      (e.1.getD []).foldl (fun (s : State) (p : Piece) =>
        if poisoned s p.loc.key p.len then poisonFound s (badUnit s p.loc.key p.len) else s) s
    else s) s

/-- A malformed scale code (R117). -/
def scaleBad (scl code : Nat) : Bool := if scl = 2 then code == 255 else decide (128 ≤ code) || code == 127

/-- Whether the loading of row `i` of register `n`, after the rows before it, has overwritten an error word
whole. -/
def loadCovers (n i w : Nat) (e : Nat × Bool) : Bool :=
  if e.1 < 8192 then
    e.1 / 512 == n && decide (i * cfgRsz w < 16 * (e.1 % 512) + 16 ∧ 16 * (e.1 % 512) + 16 ≤ (i + 1) * cfgRsz w)
  else cfgScl w != 0 && e.1 - 8192 == 32 * n + i / 2 && (i % 2 == 1 || i + 1 == cfgRows w)

/-- A row is loaded: elements, scales and the poison bit (R211, R224). -/
def MatUnit.loadRow (u : MatUnit) (n i w : Nat) (els scs : List Byte) (bad : Bool) : MatUnit :=
  { u with
    tr := storeWrite 0 u.tr (8192 * n + i * cfgRsz w) els
    scale := storeWrite 0 u.scale (512 * n + 8 * i) scs
    poison := storeSet false u.poison (n * 64 + i) bad
    regErr := u.regErr.filter (fun e => !loadCovers n i w e) }

/-- The rows that a stopped TLD leaves are poisoned. -/
def MatUnit.leaveRows (u : MatUnit) (n i rows : Nat) : MatUnit :=
  { u with poison := storePuts false u.poison ((List.range (rows - i)).map (fun j => (n * 64 + i + j, true))) }

/-- Counts SCALE_MALFORMED events. -/
def countN (s : State) (t i : Nat) : Nat → State
  | 0 => s
  | n + 1 => countN (countEvent s t i) t i n

/-- A TLD's step `c` loads its row of a register of configuration `w` from element pieces `pe` and scale
pieces `pc` (R117, R224). A malformed block that RB or a stride of zero feeds to several rows is read, and counted,
for each of them (DESIGN CHOICE, log 80). -/
def loadRowStep (s : State) (t : Nat) (c : Current) (w : Nat) (pe pc : List (Option (List Piece))) : State :=
  let (s1, els, bad1) := readSpans s pe
  let (s2, scs, bad2) := readSpans s1 pc
  let err := bad1.any id || bad2.any id
  let mal := ((List.range (cfgKb w)).filter (fun b => bad1.getD b false || bad2.getD b false ||
    (cfgScl w != 0 && scaleBad (cfgScl w) (scs.getD b 0).toNat))).length
  let s3 := if err then
      containSpans (logAt s2 0x0C Cause.uncorrectable.code t c.cmd.lslot c.step c.cmd.logCode) ((pe ++ pc).zip (bad1 ++ bad2))
    else s2
  let s4 := countN (setUnit s3 t ((unitOf s3 t).loadRow c.cmd.fA c.step w els scs (mal != 0))) t 5 mal
  stepDone s4 t { (if mal = 0 then c else c.fail 4) with moved := c.moved + cfgRsz w } (cfgRows w)

/-- TLD_STEP (R224): `who` is the tile. A block whose scale is malformed, or that meets an uncorrectable error
in its elements or its scale, poisons the row and counts one event (R117). -/
def tryTldStep (s : State) : Option State :=
  let t := s.ev.who
  match stepOf s 0xA1 with
  | none => none
  | some c =>
    let n := c.cmd.fA
    let w := (unitOf s t).cfg n
    let rows := cfgRows w
    let i := c.step
    let rb := if natAt c.cmd.desc 26 1 = 0 then rows else natAt c.cmd.desc 26 1
    let spans := fun (i : Nat) => tldSpans c.cmd w (min i (rb - 1))
    let pe := spanPieces s t c.cmd.asid false (spans i).1
    let pc := spanPieces s t c.cmd.asid false (spans i).2
    let gate := stepGate s t c (joinPieces (pe ++ pc)) (cfgRsz w)
    let s := walkSpans s t c.cmd.asid ((spans i).1 ++ (spans i).2)
    match gate with
    | .wait => none
    | .trap k => some (carriageTrap s t k)
    | .stop cls =>
      some (stopCmd (setUnit s t ((unitOf s t).leaveRows n i rows)) t c cls false
        (rowsLeft (fun i => (spans i).1 ++ (spans i).2) i rows))
    | .go _ =>
      some (loadRowStep s t c w pe pc)

/-- TLD_STEP (R224). -/
def execTldStep (s : State) : Outcome State Fault Refusal := eventStep tryTldStep s

/-- The address ranges of row `i` of a TST (R225). -/
def tstSpans (c : MatCmd) (w i : Nat) : List (Nat × Nat) :=
  (addrPlus (natAt c.desc 0 8) ((i : Int) * descInt c.desc 8 4), cfgRsz w) ::
    (if cfgScl w = 0 then [] else [(addrPlus (natAt c.desc 16 8) ((i : Int) * descInt c.desc 24 2), cfgKb w)])

/-- TST_STEP (R225): `who` is the tile. -/
def tryTstStep (s : State) : Option State :=
  let t := s.ev.who
  match stepOf s 0xA2 with
  | none => none
  | some c =>
    let n := c.cmd.fA
    let w := (unitOf s t).cfg n
    let i := c.step
    let left := rowsLeft (tstSpans c.cmd w) i (cfgRows w)
    if c.stopped then some (stopCmd s t c c.cls true left)
    else
    let gate := stepGate s t c (joinPieces (spanPieces s t c.cmd.asid true (tstSpans c.cmd w i))) (cfgRsz w)
    let s := walkSpans s t c.cmd.asid (tstSpans c.cmd w i)
    match gate with
    | .wait => none
    | .trap k => some (carriageTrap s t k)
    | .stop cls => some (stopCmd s t c cls true left)
    | .go l =>
      let s0 := readRows s t c.cmd.lslot n [i]
      let u := unitOf s0 t
      let bytes := storeRead 0 u.tr (8192 * n + i * cfgRsz w) (cfgRsz w) ++
        (if cfgScl w = 0 then [] else storeRead 0 u.scale (512 * n + 8 * i) (cfgKb w))
      let (s1, g) := writePieces s0 t (.matrix t c.id) c.cmd.lslot c.cmd.tag l bytes
      let c1 := if u.bad n i then c.fail 4 else c
      some (stepDone s1 t { c1.guards g with moved := c.moved + cfgRsz w } (cfgRows w))

/-- TST_STEP (R225). -/
def execTstStep (s : State) : Outcome State Fault Refusal := eventStep tryTstStep s

/-! ### TDRAIN (R227, R228) -/

/-- A row's words converted: the codes and the sticky bits. -/
def drainRow (u : MatUnit) (c : MatCmd) (i : Nat) : List Nat × Nat :=
  let l := (List.range c.dCols).map (fun j =>
    drainConv c.dFmt (c.modf % 8) (c.modf.testBit 3) c.ftz (u.word c.dK i j).toNat)
  (l.map (·.1), l.foldl (fun acc e => acc ||| e.2) 0)

/-- A row zeroed after its drain. -/
def MatUnit.zeroRow (u : MatUnit) (a i : Nat) : MatUnit :=
  { u with
    acc := u.acc.filter (fun e => e.1 / 64 != a * 64 + i)
    csum := storeSet 0 u.csum (a * 64 + i) 0 }

/-- The check and the conversion of a row, which come before its write (R228). -/
def drainCheck (s : State) (t : Nat) (c : MatCmd) (i : Nat) : State :=
  let s1 := reportRows (readAcc s t c.lslot c.dK [i]) t c.dK c.lslot (badRows (unitOf s t) c.dK [i])
  setUnit s1 t ((unitOf s1 t).stick c.dK (drainRow (unitOf s t) c i).2)

/-- TDRAIN_STEP (R228): `who` is the tile. -/
def tryTdrainStep (s : State) : Option State :=
  let t := s.ev.who
  match stepOf s 0xA4 with
  | none => none
  | some c =>
    let i := c.step
    let n := c.cmd.dCols * ofmtBits c.cmd.dFmt / 8
    let dst := fun (i : Nat) => addrPlus c.cmd.b.toNat ((i : Int) * sint 64 c.cmd.c.toNat)
    let left := rowsLeft (fun i => [(dst i, n)]) i c.cmd.dRows
    if c.stopped then some (stopCmd s t c c.cls true left)
    else
    let gate := stepGate s t c (engPieces s t c.cmd.asid (dst i) n true false) n
    let s := engineWalks s t c.cmd.asid (dst i) n
    match gate with
    | .wait => none
    | .trap k => some (carriageTrap s t k)
    | .stop cls => some (stopCmd (drainCheck s t c.cmd i) t c cls true left)
    | .go l =>
      let codes := (drainRow (unitOf s t) c.cmd i).1
      let s1 := drainCheck s t c.cmd i
      let s2 := setUnit s1 t (if c.cmd.dZd then (unitOf s1 t).zeroRow c.cmd.dK i else unitOf s1 t)
      let (s3, g) := writePieces s2 t (.matrix t c.id) c.cmd.lslot c.cmd.tag l (packCodes (ofmtBits c.cmd.dFmt) codes)
      some (stepDone s3 t { c.guards g with moved := c.moved + n } c.cmd.dRows)

/-- TDRAIN_STEP (R228). -/
def execTdrainStep (s : State) : Outcome State Fault Refusal := eventStep tryTdrainStep s

/-! ### Products (R232, R233, R235) -/

/-- The steps of a product are done: its report, or with RING the copy into a slot. -/
def productDone (s : State) (t : Nat) (c : Current) : State :=
  if c.cmd.fRing then setCur s t (some { c with copying := true })
  else endCmd s t c

/-- What a step of a product reads: rows of A and of the accumulator, and the whole of B. -/
def readProduct (s : State) (t : Nat) (c : MatCmd) (rb : Nat) (rows : List Nat) : State :=
  let s1 := readRows s t c.lslot c.fA rows
  readAcc (readRows s1 t c.lslot rb (List.range (cfgRows ((unitOf s1 t).cfg rb)))) t c.lslot c.fK rows

/-- MMA_STEP (R232): `who` is the tile. -/
def tryMmaStep (s : State) : Option State :=
  let t := s.ev.who
  let m := (s.tile t).matrix
  match m.cur with
  | none => none
  | some c =>
    if m.stall ≠ 0 ∨ c.cmd.opc < 0xA8 ∨ c.copying = true then none
    else
      let rows := cfgRows (m.unit.cfg c.cmd.fA)
      let s0 := readProduct s t c.cmd c.cmd.fB (List.range rows)
      let (u, bad) := mmaBlock (unitOf s0 t) c.cmd c.cmd.fA c.cmd.fB 0 rows c.step
      let c1 := if bad then c.fail 4 else c
      let s1 := countPerf (setUnit s0 t u) t 5 1
      if c.step + 1 < cfgKb (m.unit.cfg c.cmd.fA) then some (setCur s1 t (some { c1 with step := c.step + 1 }))
      else some (productDone s1 t c1)

/-- MMA_STEP (R232). -/
def execMmaStep (s : State) : Outcome State Fault Refusal := eventStep tryMmaStep s

/-- The command goes on with its next group that has rows, or is over; each group reports on its
own (R235). -/
def groupDone (s : State) (t : Nat) (c : Current) : State :=
  match nextGroup c.cmd.groups (c.group + 1) with
  | some g => setCur s t (some { c with group := g, step := 0, cls := 0, refused := [], copying := false })
  | none => setCur s t none

/-- MMAG_STEP (R235): `who` is the tile. -/
def tryMmagStep (s : State) : Option State :=
  let t := s.ev.who
  match stepOf s 0xA6 with
  | none => none
  | some c =>
    let lo := (c.cmd.groups.take c.group).sum
    let m := c.cmd.groups.getD c.group 0
    let rb := (c.cmd.fB + c.group) % 16
    let s0 := readProduct s t c.cmd rb ((List.range m).map (fun i => lo + i))
    let u0 := unitOf s0 t
    let (u, bad) := mmaBlock u0 c.cmd c.cmd.fA rb lo m c.step
    let c1 := if bad then c.fail 4 else c
    let s1 := countPerf (setUnit s0 t u) t 5 1
    if c.step + 1 < cfgKb (u0.cfg c.cmd.fA) then some (setCur s1 t (some { c1 with step := c.step + 1 }))
    else if c.cmd.fRing then some (setCur s1 t (some { c1 with copying := true }))
    else some (groupDone (matArrive s1 t c.cmd c1.cls 0) t c1)

/-- MMAG_STEP (R235). -/
def execMmagStep (s : State) : Outcome State Fault Refusal := eventStep tryMmagStep s

/-! ### The ring and the cast-off engine (R233, R236, R237) -/

/-- Slots of a ring. -/
def ringSlots (d : List Byte) : Nat := natAt d 4 1
/-- The address of a slot. -/
def slotBase (d : List Byte) (i : Nat) : Nat := natAt d 0 4 + 16384 * i

/-- The corner that a finished product leaves: first row, rows, columns. -/
def productCorner (u : MatUnit) (c : Current) : Nat × Nat × Nat :=
  if c.cmd.opc = 0xA6 then
    ((c.cmd.groups.take c.group).sum, c.cmd.groups.getD c.group 0, cfgRows (u.cfg ((c.cmd.fB + c.group) % 16)))
  else (0, cfgRows (u.cfg c.cmd.fA), cfgRows (u.cfg c.cmd.fB))

/-- RING_SLOT_COPY (R233): `who` is the tile. -/
def tryRingSlotCopy (s : State) : Option State :=
  let t := s.ev.who
  let u := unitOf s t
  match (s.tile t).matrix.cur, u.ring with
  | some c, some d =>
    if !c.copying || decide (ringSlots d ≤ u.tiles.length) then none
    else
      let (lo, m, n) := productCorner u c
      let k := c.cmd.fK
      let s := readAcc s t c.cmd.lslot k ((List.range m).map (fun i => lo + i))
      let words := (corner lo m n).flatMap (fun e => bytesLE 4 (u.word k e.1 e.2).toNat)
      let ps := engPieces s t c.cmd.asid (slotBase d u.fill) words.length true false
      let (s1, g) := match ps with
        | some l => writePieces s t (.matrix t c.id) c.cmd.lslot c.cmd.tag l words
        | none => (s, [])
      let cls := if c.cls = 0 ∧ (ps.isNone = true ∨ g.isEmpty = false) then 1 else c.cls
      let u1 := (corner lo m n).foldl (fun (u : MatUnit) (e : Nat × Nat) => u.setWord k e.1 e.2 0) (unitOf s1 t)
      let s2 := setUnit s1 t { u1 with
        fill := (u.fill + 1) % ringSlots d
        tiles := u.tiles ++ [⟨c.cmd, m, n, k, cls⟩] }
      some (if c.cmd.opc = 0xA6 then groupDone s2 t c else setCur s2 t none)
  | _, _ => none

/-- RING_SLOT_COPY (R233). -/
def execRingSlotCopy (s : State) : Outcome State Fault Refusal := eventStep tryRingSlotCopy s

/-- TRING_INSTALL (R236): `who` is the tile; the previous ring has been stored. -/
def tryTringInstall (s : State) : Option State :=
  let t := s.ev.who
  match stepOf s 0xA7 with
  | none => none
  | some c =>
    let m := (s.tile t).matrix
    if !m.unit.tiles.isEmpty || !m.pending.isEmpty then none
    else some (stepDone (setUnit s t { m.unit with ring := some c.cmd.desc, fill := 0, drain := 0, tiles := [], ringT := 0 }) t c 1)

/-- TRING_INSTALL (R236). -/
def execTringInstall (s : State) : Outcome State Fault Refusal := eventStep tryTringInstall s

/-- One element of the cast-off engine: the code and the sticky bits (R237, R214). -/
def castElem (d : List Byte) (ftz : Bool) (x bias : Val) : Nat × Nat :=
  let cv := natAt d 6 1
  let r := round .fp32 (addV (rmOf (cv % 8)) (mulV x (decodeFmt .fp32 (natAt d 8 4))) bias) (rmOf (cv % 8)) false
  let y := ftzCode ftz .fp32 r.code
  let v := decodeFmt .fp32 y
  let y2 := if cv / 16 % 4 = 1 ∧ v.isNaN = false ∧ v.isNeg = true then 0 else y
  let o := drainConv (natAt d 5 1) (cv % 8) (cv.testBit 3) ftz y2
  (o.1, o.2 ||| (((r.fl &&& flOF) != 0).toNat + 4 * ((r.fl &&& flNV) != 0).toNat))

/-- The pieces of the biases of `n` columns. -/
def biasPieces (s : State) (t : Nat) (c : MatCmd) (d : List Byte) (n : Nat) : Option (List Piece) :=
  if natAt d 16 8 = 0 then some [] else engPieces s t c.asid (natAt d 16 8) (4 * n) false false

/-- What stops an access of the cast-off engine: a class, as for TLD and TST (R224, R237). -/
def castStop (s : State) (t : Nat) (c : MatCmd) : Option (List Piece) → Option Nat
  | none => some 1
  | some l => if piecesStale s l c.tag || !genNow s t c then some 2 else none

/-- The biases of `n` columns; the flag says that one met an uncorrectable error, which makes it NaN. -/
def castBias (s : State) (d : List Byte) (n : Nat) (l : List Piece) : State × List Val × Bool :=
  if natAt d 16 8 = 0 then (s, List.replicate n (.fin ⟨false, 0, 1, 0⟩), false)
  else
    let (s1, b, bad) := readPieces s l
    (s1, (List.range n).map (fun j => if bad then .nan false else decodeFmt .fp32 (natAt b (4 * j) 4)), bad)

/-- What a tile's store has done so far: state, class, the first row that it left, the sectors refused, and
sticky bits. -/
structure Cast where
  s : State
  cls : Nat
  left : Option Nat
  refused : List Nat
  sticky : Nat

/-- Where row `i` of tile `k` of a ring goes: address and length (R237). -/
def castSpan (d : List Byte) (k n i : Nat) : Nat × Nat :=
  (addrPlus (natAt d 24 8) (k * sint 64 (natAt d 40 8) + (i : Int) * sint 64 (natAt d 32 8)),
   n * ofmtBits (natAt d 5 1) / 8)

/-- Row `i` of a tile, converted: codes and sticky bits. -/
def castRow (r : RingTile) (d : List Byte) (bias : List Val) (words : List Byte) (bad : Bool) (i : Nat) :
    List (Nat × Nat) :=
  (List.range r.n).map (fun j =>
    castElem d r.cmd.ftz (if bad then .nan false else decodeFmt .fp32 (natAt words (4 * (i * r.n + j)) 4))
      (bias.getD j (.fin ⟨false, 0, 1, 0⟩)))

/-- The rows of a tile from row `i`: `left` rows are left. A row that cannot be stored stops the tile's stores,
not its conversion (R237). -/
def castRows (t id : Nat) (r : RingTile) (d : List Byte) (bias : List Val) (words : List Byte) (bad : Bool) :
    Nat → Nat → Cast → Cast
  | 0, _, k => k
  | left + 1, i, k =>
    let es := castRow r d bias words bad i
    let k1 := { k with sticky := es.foldl (fun acc e => acc ||| e.2) k.sticky }
    if k.left.isSome then castRows t id r d bias words bad left (i + 1) k1
    else
      let span := castSpan d (unitOf k.s t).ringT r.n i
      let ps := engPieces k.s t r.cmd.asid span.1 span.2 true false
      let s0 := engineWalks k.s t r.cmd.asid span.1 span.2
      match castStop k.s t r.cmd ps with
      | some cls =>
        castRows t id r d bias words bad left (i + 1)
          { k1 with s := s0, cls := if k.cls = 0 then cls else k.cls, left := some i }
      | none =>
        let (s1, g) := writePieces s0 t (.matrix t id) r.cmd.lslot r.cmd.tag (ps.getD [])
          (packCodes (ofmtBits (natAt d 5 1)) (es.map (·.1)))
        castRows t id r d bias words bad left (i + 1)
          { k1 with
            s := s1, cls := if k.cls = 0 ∧ g.isEmpty = false then 1 else k.cls, refused := (k.refused ++ g).dedup }

/-- Whether some access of a tile's store, or of its biases, must wait for an exchange or a row repair. -/
def castWaits (s : State) (t : Nat) (r : RingTile) (d : List Byte) : Bool :=
  let waits := fun (l : Option (List Piece)) => match l with
    | some l => piecesWait s l || piecesRow s l
    | none => false
  waits (biasPieces s t r.cmd d r.n) || (List.range r.m).any (fun i =>
    let span := castSpan d (unitOf s t).ringT r.n i
    waits (engPieces s t r.cmd.asid span.1 span.2 true false))

/-- The FP32 words of the tile at the head of the ring. -/
def slotWords (s : State) (t : Nat) (r : RingTile) (d : List Byte) : State × List Byte × Bool :=
  match engPieces s t r.cmd.asid (slotBase d (unitOf s t).drain) (4 * r.m * r.n) false false with
  | some l => readPieces s l
  | none => (s, [], false)

/-- Converts and stores a tile (R237). -/
def castTile (s : State) (t id : Nat) (r : RingTile) (d : List Byte) : Cast :=
  let (s1, words, bad) := slotWords s t r d
  let bp := biasPieces s1 t r.cmd d r.n
  let s1 := if natAt d 16 8 = 0 then s1 else engineWalks s1 t r.cmd.asid (natAt d 16 8) (4 * r.n)
  match if natAt d 16 8 = 0 then none else castStop s1 t r.cmd bp with
  | some cls => { s := s1, cls := if r.cls = 0 then cls else r.cls, left := some 0, refused := [], sticky := 0 }
  | none =>
    let (s2, bias, bad2) := castBias s1 d r.n (bp.getD [])
    castRows t id r d bias words bad r.m 0
      { s := s2, cls := if r.cls = 0 ∧ (bad || bad2) = true then 4 else r.cls, left := none, refused := [], sticky := 0 }

/-- CASTOFF_TILE (R237): `who` is the tile; the oldest filled slot is converted, stored and freed. -/
def tryCastoffTile (s : State) : Option State :=
  let t := s.ev.who
  let u := unitOf s t
  match u.tiles, u.ring with
  | r :: rest, some d =>
    if castWaits s t r d then none
    else
      let k := castTile s t s.cycle r d
      let left := match k.left with
        | some i => leftSectors k.s t r.cmd true k.refused (rowsLeft (fun i => [castSpan d u.ringT r.n i]) i r.m)
        | none => 0
      let u1 := (unitOf k.s t).stick r.acc k.sticky
      let s3 := setUnit k.s t { u1 with tiles := rest, drain := (u.drain + 1) % ringSlots d, ringT := (u.ringT + 1) % 2 ^ 32 }
      some (matDone s3 t s.cycle r.cmd k.cls left k.refused)
  | _, _ => none

/-- CASTOFF_TILE (R237). -/
def execCastoffTile (s : State) : Outcome State Fault Refusal := eventStep tryCastoffTile s

/-! ### Waits of the carriage (R239) -/

/-- CARRIAGE_STEP_RESUME (R239): `who` is the tile; the row is in service again, or the vault has
left its hold, and the step is repeated. -/
def tryCarriageStepResume (s : State) : Option State :=
  let t := s.ev.who
  let x := s.tile t
  let go := some (s.modTile t (fun x => { x with matrix := { x.matrix with stall := 0 } }))
  match x.matrix.stall with
  | 0 => none
  | 1 => if x.repair.isNone then go else none
  | _ => if x.thermal = .hold then none else go

/-- CARRIAGE_STEP_RESUME (R239). -/
def execCarriageStepResume (s : State) : Outcome State Fault Refusal := eventStep tryCarriageStepResume s

end Sys2Proof.Machine
end

