-- ==== Sys2Proof/Machine/MatrixSwap.lean ====
section
/-! DEFINITION. The matrix-unit swap (R221, R240): the save image and the change of holder. -/

namespace Sys2Proof.Machine

open Host (Outcome)

/-! ### The image (R240) -/

/-- Entries of a store of `w`-bit words as bytes from offset `o`, `n` bytes each. -/
def wordBytes {w : Nat} (o n : Nat) (l : List (Nat × BitVec w)) : List (Nat × Byte) :=
  l.flatMap (fun (e : Nat × BitVec w) => (bytesLE n e.2.toNat).zipIdx.map (fun (b : Byte × Nat) => (o + n * e.1 + b.2, b.1)))

/-- Bytes from an offset, as pairs. -/
def bytesAt (o : Nat) (l : List Byte) : List (Nat × Byte) := l.zipIdx.map (fun (b : Byte × Nat) => (o + b.2, b.1))

/-- The poison row bits of a register. -/
def MatUnit.poisonWord (u : MatUnit) (n : Nat) : Nat :=
  ((List.range 64).map (fun i => (u.bad n i).toNat * 2 ^ i)).sum

/-- The ring state word. -/
def MatUnit.ringState (u : MatUnit) : Nat :=
  u.fill % 16 + u.drain % 16 * 2 ^ 8 + u.tiles.length % 32 * 2 ^ 16 + u.ringT % 2 ^ 32 * 2 ^ 32

/-- A command message as the image holds it: the effect's data of R216 behind its tail fields
(DEDUCED, log 14). -/
def cmdBytes (c : MatCmd) : List Byte :=
  padTo 128 (bytesLE 1 c.opc ++ bytesLE 1 c.modf ++ bytesLE 2 c.ctl ++ bytesLE 2 (tileField c.tile) ++
    bytesLE 1 c.ctx ++ bytesLE 1 c.ftz.toNat ++ bytesLE 8 c.route.toNat ++ bytesLE 8 c.b.toNat ++
    bytesLE 8 c.c.toNat ++ bytesLE 4 c.cap.toNat ++ bytesLE 2 c.asid ++ bytesLE 2 c.gen ++ bytesLE 4 c.lslot ++
    bytesLE 4 c.nob.toNat ++ c.desc)

/-- A command at a step index. -/
def Current.atIndex (c : Current) (u : MatUnit) (n : Nat) : Current :=
  if c.cmd.opc = 0xA6 then
    let kb := cfgKb (u.cfg c.cmd.fA)
    let gs := c.cmd.groups.zipIdx.filter (fun e => e.1 != 0)
    { c with step := n % kb, group := ((gs.map (fun e => e.2))[n / kb]?).getD c.group }
  else { c with step := n }

/-- The nonzero bytes of the 512 KiB image, by offset. -/
def unitImage (u : MatUnit) (cur : Option Current) (cmds : List MatCmd) : List (Nat × Byte) :=
  u.tr ++ u.scale.map (fun (e : Nat × Byte) => (0x20000 + e.1, e.2)) ++
  bytesAt 0x22000 (u.tcfg.toList.flatMap (fun v => bytesLE 4 v.toNat)) ++
  bytesAt 0x22040 ((List.range 16).flatMap (fun n => bytesLE 8 (u.poisonWord n))) ++
  bytesAt 0x220C0 (bytesLE 8 u.sticky.toNat ++ bytesLE 8 (match cur with
    | some c => c.index u % 65536 + 2 ^ 63
    | none => 0)) ++
  bytesAt 0x22100 (padTo 64 (u.ring.getD [])) ++ bytesAt 0x22140 (bytesLE 8 u.ringState) ++
  bytesAt 0x22180 (match cur with
    | some c => cmdBytes c.cmd
    | none => []) ++
  wordBytes 0x22200 4 u.csum ++ wordBytes 0x22600 4 u.acc ++ wordBytes 0x32600 8 u.part ++
  bytesAt 0x52600 (cmds.flatMap cmdBytes)

/-- Bytes of a save area. -/
def saveArea : Nat := 524288

/-- The save area of a launch for a tile (R221): 0 where it has none. -/
def msaveOf (l : Launch) (t : Nat) : Nat :=
  let b := natAt l.desc 240 8
  if b = 0 then 0 else b + saveArea * rectIndex l t

/-- The pieces of a save area in order, as keys and lengths, where every one can be reached: a page each, or in
the cluster window a granule (R240, R244). -/
def saveKeys (s : State) (t asid va : Nat) (write : Bool) : Option (List (Nat × Nat)) :=
  let u := if 2 ^ 24 ≤ va ∧ va < 2 ^ 25 then 128 else 65536
  (List.range (saveArea / u)).foldr (fun (i : Nat) (acc : Option (List (Nat × Nat))) =>
    match engineLoc s t asid (va + u * i) write true, acc with
    | some l, some r => some ((l.key, u) :: r)
    | _, _ => none) (some [])

/-- Whether an access to a save area stalls (R246, R249). -/
def saveStalls (s : State) (keys : Option (List (Nat × Nat))) : Bool :=
  (keys.getD []).any (fun k => stalledOver s k.1 k.2)

/-- The pieces of a save area with their offsets. -/
def saveAt : Nat → List (Nat × Nat) → List (Nat × Nat × Nat)
  | _, [] => []
  | o, k :: r => (o, k) :: saveAt (o + k.2) r

/-- Writes an image over a save area; where it cannot be reached, nothing is written (DEDUCED, log 14), and in a
guarded granule nothing either (R256). -/
def writeUnit (s : State) (keys : Option (List (Nat × Nat))) (img : List (Nat × Byte)) : State :=
  (saveAt 0 (keys.getD [])).foldl (fun (s : State) (k : Nat × Nat × Nat) =>
    let s1 := blockWrite s k.2.1 k.2.2 []
    let bytes := (img.filter (fun (e : Nat × Byte) => decide (k.1 ≤ e.1 ∧ e.1 < k.1 + k.2.2))).map
      (fun (e : Nat × Byte) => (k.2.1 + (e.1 - k.1), e.2))
    keepGuarded { s1 with mem := storePuts 0 s1.mem bytes } s.mem k.2.1 k.2.2) s

/-- The nonzero bytes of a save area, by offset. -/
def readUnit (s : State) (ks : List (Nat × Nat)) : List (Nat × Byte) :=
  (saveAt 0 ks).flatMap (fun (k : Nat × Nat × Nat) =>
    (s.mem.filter (fun (e : Nat × Byte) => decide (k.2.1 ≤ e.1 ∧ e.1 < k.2.1 + k.2.2))).map
      (fun (e : Nat × Byte) => (k.1 + (e.1 - k.2.1), e.2)))

/-- The reads of a save area count as accesses to its pages (R373). -/
def touchUnit (s : State) (ks : List (Nat × Nat)) : State := ks.foldl (fun s k => touchPage s k.1 k.2) s

/-- The words of `n` bytes that a region of an image holds, by index. -/
def imageWords (w n o len : Nat) (img : List (Nat × Byte)) : List (Nat × BitVec w) :=
  let r := img.filter (fun (e : Nat × Byte) => decide (o ≤ e.1 ∧ e.1 < o + len))
  let idx := (r.map (fun (e : Nat × Byte) => (e.1 - o) / n)).dedup
  storePuts 0 [] (idx.map (fun i => (i, BitVec.ofNat w (natLE ((List.range n).map (fun j => storeGet 0 r (o + n * i + j)))))))

/-- The bytes of a region of an image, by offset in it. -/
def imageRegion (o len : Nat) (img : List (Nat × Byte)) : List (Nat × Byte) :=
  (img.filter (fun (e : Nat × Byte) => decide (o ≤ e.1 ∧ e.1 < o + len))).map (fun (e : Nat × Byte) => (e.1 - o, e.2))

/-- A number in an image. -/
def imageNat (img : List (Nat × Byte)) (o n : Nat) : Nat := natLE ((List.range n).map (fun j => storeGet 0 img (o + j)))

/-- The unit that an image holds, with the reserved bits of the TCFG words zero (R8, R209); the tiles of its ring
are those that the carriage kept. -/
def unitFrom (u : MatUnit) (img : List (Nat × Byte)) : MatUnit :=
  let st := imageNat img 0x22140 8
  { u with
    tr := imageRegion 0 0x20000 img, scale := imageRegion 0x20000 0x2000 img
    tcfg := Vector.ofFn (fun i => BitVec.ofNat 32 (imageNat img (0x22000 + 4 * i.val) 4) &&& 0x000FFF07#32)
    poison := storePuts false [] ((List.range 1024).filterMap (fun i =>
      if (imageNat img (0x22040 + i / 8) 1).testBit (i % 8) then some (i, true) else none))
    sticky := BitVec.ofNat 16 (imageNat img 0x220C0 2)
    ring := u.ring.map (fun _ => (List.range 64).map (fun j => storeGet 0 img (0x22100 + j)))
    fill := nfld st 0 4, drain := nfld st 8 4, ringT := nfld st 32 32
    csum := imageWords 32 4 0x22200 0x400 img, acc := imageWords 32 4 0x22600 0x10000 img
    part := imageWords 40 8 0x32600 0x20000 img
    regErr := [], accErr := [] }

/-! ### The swap -/

/-- The swap reads the whole of the unit: it finds the errors in its storage (R211, R252). -/
def readWhole (s : State) (t lslot : Nat) : State :=
  (List.range 4).foldl (fun (s : State) (a : Nat) => readAcc s t lslot a (List.range 64))
    ((List.range 16).foldl (fun (s : State) (n : Nat) => readRows s t lslot n (List.range 64)) s)

/-- Saves the holder's state, with its current and queued commands, and leaves the unit clear. -/
def swapOut (s : State) (t h : Nat) (l : Launch) : State :=
  let s := readWhole s t h
  let m := (s.tile t).matrix
  let mine := m.queue.filter (fun c => c.lslot == h)
  let s1 := writeUnit (engineWalks s t l.asid (msaveOf l t) saveArea) (saveKeys s t l.asid (msaveOf l t) true)
    (unitImage m.unit m.cur mine)
  let s2 := s1.modTile t (fun x => { x with matrix := { x.matrix with
    unit := MatUnit.clear, holder := none, cur := none, stall := 0
    queue := m.queue.filter (fun c => c.lslot != h) } })
  s2.setLaunch h { l with images := tabSet l.images t (m.unit, m.cur, mine) }

/-- Loads a launch's image: its unit state, its current command and, in front of the queue, its saved
commands. -/
def swapIn (s : State) (t slot : Nat) (l : Launch) (img : MatUnit × Option Current × List MatCmd) : State :=
  let s0 := engineWalks s t l.asid (msaveOf l t) saveArea
  let (s0, u, cur) := match saveKeys s t l.asid (msaveOf l t) false with
    | some ks =>
      let b := readUnit s0 ks
      let u := unitFrom img.1 b
      (touchUnit s0 ks, u, img.2.1.map (fun (c : Current) => if c.copying then c else c.atIndex u (imageNat b 0x220C8 2)))
    | none => (s0, img.1, img.2.1)
  let s1 := s0.modTile t (fun x => { x with matrix := { x.matrix with
    unit := u, holder := some slot, cur := cur, queue := img.2.2 ++ x.matrix.queue } })
  s1.setLaunch slot { l with images := tabDel l.images t }

/-- The launch that the unit is to serve next: that of the head of its queue, else a running launch
whose image holds a command or a filled slot to go on with. -/
def wanted (s : State) (t : Nat) : Option Nat :=
  match (s.tile t).matrix.queue with
  | c :: _ => some c.lslot
  | [] =>
    (s.launches.find? (fun (e : Nat × Launch) => e.2.state == .running &&
      (match tabFind e.2.images t with
       | some (u, cur, q) => cur.isSome || !q.isEmpty || !u.tiles.isEmpty
       | none => false))).map (fun e => e.1)

/-- Whether a launch stands pre-empted. -/
def Launch.saved (l : Launch) : Bool :=
  match l.state with
  | .preempted _ => true
  | _ => false

/-- An access to a launch's matrix save area waits for a swap or a repair (R246, R249). -/
def saveWaits (s : State) (t : Nat) (l : Launch) : Bool :=
  saveStalls s (saveKeys s t l.asid (msaveOf l t) false)

/-- The unit loads the image of the launch whose command it is to start, if it holds one (R221, R240). -/
def loadWanted (s : State) (t : Nat) : Option State :=
  match wanted s t with
  | none => none
  | some w =>
    match s.launch w with
    | none => none
    | some l => if l.saved || saveWaits s t l then none else (tabFind l.images t).map (swapIn s t w l)

/-- MATRIX_SWAP (R221, R240): `who` is the tile. A pre-empted holder is saved at the step boundary;
an idle unit saves its holder when another launch is to be served, and loads that launch's image. A
holder without a save area stays. A save area whose page is being exchanged, or has a row being retired, is waited
for (R246, R249). The image of a pre-empted launch is loaded only once the launch goes on, though a command of it
has arrived (DESIGN CHOICE, log 85). After its holder has completed the unit takes its clear state (R221). -/
def tryMatrixSwap (s : State) : Option State :=
  let t := s.ev.who
  let m := (s.tile t).matrix
  match m.holder with
  | none => if m.cur.isSome || !m.pending.isEmpty then none else loadWanted s t
  | some h =>
    match s.launch h with
    | none =>
      if m.cur.isSome || !m.pending.isEmpty then none
      else
        let s1 := s.modTile t (fun x => { x with matrix := { x.matrix with unit := MatUnit.clear, holder := none } })
        some ((loadWanted s1 t).getD s1)
    | some l =>
      if msaveOf l t = 0 || !m.pending.isEmpty || saveWaits s t l then none
      else if l.saved then some (swapOut s t h l)
      else if m.cur.isSome then none
      else
        match wanted s t with
        | some w => if w = h then none else
            let s1 := swapOut s t h l
            some ((loadWanted s1 t).getD s1)
        | none => none

/-- MATRIX_SWAP (R240). -/
def execMatrixSwap (s : State) : Outcome State Fault Refusal := eventStep tryMatrixSwap s

end Sys2Proof.Machine
end

