-- ==== Sys2Proof/Machine/Preempt.lean ====
section
/-! DEFINITION. Pre-emption, the context save image and restore (R57, R142, R170, R412), commanded
kills and the time limit of a blocking form (R404). -/

namespace Sys2Proof.Machine

open Host (Outcome)

/-! ### The save image (R142) -/

/-- Bytes of the save image that its two parts hold: 0x0040-0x043F and the effects buffer. -/
def saveBase : Nat := 0x40

/-- The position from which a restored record goes on: its next undelivered element, or, for an
index source, that of the record that consumes it (R349). -/
def streamPos (c : Ctx) (k : Nat) : Nat :=
  match c.streams.toList.find? (fun r => r.idx && r.isrc == k && decide (r.popped < r.count)) with
  | some r => r.popped
  | none => (c.streams.toList.getD k Stream.idle).popped

/-- The 64 bytes of a stream record: its descriptor's layout, then its position (DEDUCED, log 14). -/
def streamBytes (c : Ctx) (k : Nat) : List Byte :=
  let r := c.streams.toList.getD k Stream.idle
  bytesLE 8 r.base ++ bytesLE 1 (r.log2sz + r.sext.toNat * 4 + r.idx.toNat * 8 + r.isrc * 16) ++
  bytesLE 1 r.shift ++ bytesLE 2 0 ++ bytesLE 4 r.count ++ bytesLE 2 (if r.idx then 0 else r.n0) ++ bytesLE 2 0 ++
  bytesLE 4 (wrapInt 32 r.s0) ++ bytesLE 4 (wrapInt 32 r.s1) ++ bytesLE 4 0 ++
  bytesLE 4 (streamPos c k) ++ bytesLE 28 0

/-- The loop-buffer state (R170). -/
def loopState (c : Ctx) : Nat :=
  match c.loops with
  | [] => 0
  | l :: _ => l.start % 2 ^ 48 + ((c.loops.getLast?.map (fun x => x.exit)).getD 0) % 2 ^ 48 * 2 ^ 64 +
      c.loops.length * 2 ^ 112

/-- The step index of the carriage command that a waiting context awaits: the one that reports to
its barrier (R57). -/
def awaitedStep (s : State) (g : Nat) : Nat :=
  match (s.ctx g).waiting with
  | .barrier off _ _ =>
    match s.tiles.findSome? (fun (e : Nat × Tile) => e.2.matrix.cur.bind (fun m =>
        if m.cmd.bar == some ⟨tileOf g, off⟩ then some (m.index e.2.matrix.unit) else none)) with
    | some n => n
    | none => 2 ^ 64 - 1
  | _ => 2 ^ 64 - 1

/-- Bytes 0x0040 to 0x043F of the image. -/
def imageBytes (s : State) (g : Nat) : List Byte :=
  let c := s.ctx g
  bytesLE 8 c.pc ++ bytesLE 8 c.status.toNat ++ bytesLE 8 c.fpctl.toNat ++ bytesLE 8 c.pri.toNat ++
  bytesLE 8 c.cap.toNat ++ bytesLE 8 c.trapvec.toNat ++
  bytesLE 8 (heldBytes c.held % 2 ^ 13 + c.group % 2 ^ 16 * 2 ^ 16) ++ bytesLE 8 (awaitedStep s g) ++
  c.n.toList.flatMap (fun v => bytesLE 8 v.toNat) ++
  (padTo 128 (c.q.flatMap (fun v => bytesLE 8 v.toNat))).take 128 ++
  bytesLE 8 c.p.toNat ++ bytesLE 8 c.vshape.toNat ++ c.lc.toList.flatMap (fun v => bytesLE 8 v.toNat) ++
  bytesLE 16 (loopState c) ++ bytesLE 8 0 ++ (List.range 8).flatMap (streamBytes c)

/-- The held entries as the image holds them: header, then data padded to 16 bytes. -/
def bufferImage (l : List Effect) : List Byte :=
  l.flatMap (fun e => e.header ++ padTo (roundUp 16 e.data.length) e.data)

/-- Whether an exchange or a row repair holds the save area of a context (R246, R249). -/
def saveStalled (s : State) (g : Nat) : Bool :=
  match locate s g .plain (s.ctx g).saveptr.toNat 16384 16384 false with
  | .error _ => false
  | .ok l => (List.range 8).any (fun i => stalled s (l.key + 2048 * i))

/-- Writes the save image at CTX_SAVEPTR + 0x0040, where the address serves (DEDUCED, log 14). A guarded granule
keeps its bytes (R256). -/
def writeImage (s : State) (g : Nat) : State :=
  let c := s.ctx g
  let s0 := engineWalk s (tileOf g) c.asid c.saveptr.toNat
  match locate s0 g .plain c.saveptr.toNat 16384 16384 true with
  | .error _ => s0
  | .ok l =>
    let s1 := drainN s0 (homeTile l.key) (s0.tile (homeTile l.key)).merge.length
    let s2 := blockWrite s1 (l.key + saveBase) (16384 - saveBase) (imageBytes s g)
    let m2 := storePuts 0 s2.mem (c.v.map (fun e => (l.key + 0x440 + e.1, e.2)))
    keepGuarded { s2 with mem := memWrite m2 (l.key + 0x2440) (bufferImage c.held) } s1.mem (l.key + saveBase)
      (16384 - saveBase)

/-- A stream record of an image: as saved, to be read again from its position (R349). -/
def streamFrom (r : Stream) (b : List Byte) (k : Nat) : Stream :=
  match streamOf (sliceB b (0x200 + 64 * k) 32) with
  | some x =>
    let p := natAt b (0x200 + 64 * k + 32) 4
    { x with fetched := p, popped := p }
  | none => { r with queue := [], fetched := r.popped }

/-- The head before one in sequential order: a level's LOOP or LOOPR before its start (R108, R166). -/
def headBefore (s : State) (g a : Nat) : Nat :=
  if 1 < headOf a then a - 2
  else
    match fetchLine s g (lineOf a - 64) with
    | .line b => lineOf a - 64 + 2 * lineH (BitVec.ofNat 16 (natAt b 0 2))
    | _ => a

/-- The level that the LOOP or LOOPR head at an address of a line opens (R164, R165). -/
def levelAt (s : State) (g : Nat) (line : List Byte) (a : Nat) : Option LoopLevel :=
  let start := nextHead a (lineH (BitVec.ofNat 16 (natAt line 0 2)))
  match decodeLineHead line (headOf a) with
  | .ok (.loop _ t) => some ⟨start, immTarget a (tailLit t)⟩
  | .ok (.loopr _ t) =>
    match loopAfter s g 257 start (tailF t).toNat with
    | .ok (some e) => some ⟨start, e⟩
    | _ => none
  | _ => none

/-- The levels that the heads from an address to `exit` would open, in order. -/
def bodyLevels (s : State) (g exit : Nat) : Nat → Nat → List LoopLevel
  | 0, _ => []
  | n + 1, a =>
    if a = exit then []
    else
      match fetchLine s g a with
      | .line b => (levelAt s g b a).toList ++ bodyLevels s g exit n (nextHead a (lineH (BitVec.ofNat 16 (natAt b 0 2))))
      | _ => []

/-- The last level of a list that satisfies a test, or one given. -/
def lastLevel (l : List LoopLevel) (ok : LoopLevel → Bool) (dflt : LoopLevel) : LoopLevel :=
  ((l.filter ok).getLast?).getD dflt

/-- The loop levels of an image (R170): level 0's start and the innermost exit are the saved ones, and the
rest is recovered from the code. Where the code no longer holds such a head, a level keeps what the
context had (DEDUCED, log 14). A head whose exit lies behind it opens no level (R166). -/
def loopsFrom (s : State) (g w : Nat) : List LoopLevel :=
  let old := fun (k : Nat) => (s.ctx g).loops.getD k ⟨nfld w 0 48, nfld w 64 48⟩
  let start := nfld w 0 48
  let exit := nfld w 64 48
  let own := headBefore s g start
  let l0 : LoopLevel := ⟨start, match fetchLine s g own with
    | .line b => ((levelAt s g b own).map (fun l => l.exit)).getD (old 0).exit
    | _ => (old 0).exit⟩
  let body := bodyLevels s g l0.exit 256 start
  match nfld w 112 2 with
  | 0 => []
  | 1 => [⟨start, exit⟩]
  | 2 => [l0, lastLevel body (fun l => l.exit == exit && decide (l.start < l.exit)) (old 1)]
  | _ =>
    let l2 := lastLevel body (fun l => l.exit == exit && decide (l.start < l.exit)) (old 2)
    [l0, lastLevel (body.takeWhile (fun l => l != l2)) (fun l => decide (l.start ≤ l2.start ∧ l2.exit ≤ l.exit)) (old 1), l2]

/-- The lines of the loop buffer, fetched again for a restored context (R142, R170). A line that cannot be fetched
now is fetched when it is executed. -/
def bodyFrom (s : State) (g : Nat) : List LoopLevel → List (Nat × List Byte)
  | [] => []
  | l :: _ => ((List.range 257).map (fun i => lineOf l.start + 64 * i)).filterMap (fun a =>
    if a < l.exit then
      match fetchLine s g a with
      | .line b => some (a, b)
      | _ => none
    else none)

/-- An effect of an image. One that the context held goes on as it was; a store that software has
changed there is addressed again, and any other changed entry asks nothing of a home (DESIGN CHOICE,
log 61). -/
def imageEffect (s : State) (g : Nat) (hdr data : List Byte) : Effect :=
  match (s.ctx g).held.find? (fun e => e.header ++ e.data == hdr ++ data) with
  | some e => e
  | none =>
    let opc := natAt hdr 0 1
    let ea := natAt hdr 8 8
    let tag := tagOf s (tileOf g) (s.ctx g).asid
    let parts := if opc = 0xC1 ∨ opc = 0xC3 then
        match locate s g .plain ea data.length 1 true with
        | .ok l => storeParts tag l.home l.key ea data 32
        | .error _ => []
      else []
    ⟨opc, natAt hdr 1 1, natAt hdr 4 2, natAt hdr 6 2, BitVec.ofNat 64 ea, data, parts, tag⟩

/-- The held entries in the bytes of an effects buffer (R36, R142). -/
def imageBuffer (s : State) (g : Nat) : Nat → List Byte → List Effect
  | 0, _ => []
  | n + 1, b =>
    if b.length < 16 then []
    else
      let len := natAt b 2 2
      imageEffect s g (b.take 16) (sliceB b 16 len) :: imageBuffer s g n (b.drop (16 + roundUp 16 len))

/-- What a context takes from its save image (R142): `b` are the bytes from 0x0040 to 0x043F. Reserved
bits read as zero whatever the image holds (R8). -/
def fromImage (c : Ctx) (b : List Byte) (v : List (Nat × Byte)) (k : List (BitVec 32)) (loops : List LoopLevel)
    (held : List Effect) : Ctx :=
  { c with
    pc := natAt b 0 6, status := BitVec.ofNat 64 (natAt b 8 8 &&& 0xF0F8F0)
    fpctl := BitVec.ofNat 64 (natAt b 16 8 &&& 0x11F)
    pri := BitVec.ofNat 64 (natAt b 24 8 % 16), cap := BitVec.ofNat 64 (natAt b 32 2)
    trapvec := BitVec.ofNat 64 (natAt b 40 6)
    held := held, group := natAt b 50 2
    n := Vector.ofFn (fun i => BitVec.ofNat 64 (natAt b (64 + 8 * i.val) 8))
    q := (List.range 16).map (fun i => BitVec.ofNat 64 (natAt b (320 + 8 * i) 8))
    p := BitVec.ofNat 8 (natAt b 448 1 / 2 * 2 + 1)
    vshape := BitVec.ofNat 14 (natAt b 456 8)
    lc := Vector.ofFn (fun i => BitVec.ofNat 32 (natAt b (464 + 8 * i.val) 4))
    loops := loops, line := none, body := []
    streams := Vector.ofFn (fun i => streamFrom (c.streams[i]) b i.val)
    v := v, k := k }

/-- The context's registers, read back from its image where the address serves. -/
def readImage (s : State) (g : Nat) (c : Ctx) : Ctx :=
  let k := match s.launch c.lslot with
    | some l => l.konst
    | none => c.k
  match locate s g .plain c.saveptr.toNat 16384 16384 false with
  | .error _ => { c with k := k }
  | .ok l =>
    let base := l.key + 0x440
    let drained := (drainN s (homeTile l.key) (s.tile (homeTile l.key)).merge.length).mem
    let v := (drained.filter (fun e => decide (base ≤ e.1 ∧ e.1 < base + 8192))).map (fun e => (e.1 - base, e.2))
    let b := memRead drained (l.key + saveBase) 0x400
    let buf := memRead drained (l.key + 0x2440) (min Config.bufferBytes (nfld (natAt b 48 8) 0 13))
    let c1 := fromImage c b v k (loopsFrom s g (natAt b 488 16)) (imageBuffer s g 256 buf)
    { c1 with body := bodyFrom s g c1.loops }

/-- What the reading of a save image leaves behind: a walk (R396), and LAST and the bytes moved of its page
(R373). -/
def touchImage (s : State) (g : Nat) : State :=
  let c := s.ctx g
  let s1 := engineWalk s (tileOf g) c.asid c.saveptr.toNat
  match locate s1 g .plain c.saveptr.toNat 16384 16384 false with
  | .error _ => s1
  | .ok l => touchPage s1 l.key (16384 - saveBase)

/-! ### Saving (R412) -/

/-- Orders a context saved, with its twin (R57). A RELEASING context is not saved. The bundle at its PC
is to be tested first (R410). -/
def orderSave (s : State) (g : Nat) : State :=
  let mark := fun (s : State) (g : Nat) => s.modCtx g (fun c =>
    if c.st = .run ∨ c.st = .wait then { c with saveDue := true, tested := false } else c)
  match (s.ctx g).twin with
  | some t => mark (mark s g) t
  | none => mark s g

/-- PREEMPTION (R57): `who` is the context. -/
def tryPreemption (s : State) : Option State :=
  let c := s.ctx s.ev.who
  if c.st = .run ∨ c.st = .wait then some (orderSave s s.ev.who) else none

/-- PREEMPTION (R57). -/
def execPreemption (s : State) : Outcome State Fault Refusal := eventStep tryPreemption s

/-- Whether a context stands where it can be saved (R412): in RUN at a boundary whose bundle has been found
to raise nothing (R410). What the network interface holds of it is forwarded first, for a span after its
compare (R57). -/
def saveable (c : Ctx) : Bool :=
  c.groups.isEmpty && c.trapDue.isNone &&
  match c.st, c.waiting with
  | .run, _ => c.stage.isNone && c.tested
  | .wait, .join _ | .wait, .barrier .. | .wait, .stackGrow _ => true
  | _, _ => false

/-- A pre-empted launch takes its place in the order of the saves (R427). -/
def markSaved (s : State) (slot : Nat) : State :=
  match s.launch slot with
  | some l => ({ s with mgmt := { s.mgmt with order := s.mgmt.order + 1 } }).setLaunch slot { l with savedAt := s.mgmt.order }
  | none => s

/-- Whether the twin of a context can release nothing more before it is saved too: it is saved, or stands where it
can be (R57). -/
def twinStill (s : State) (g : Nat) : Bool :=
  match (s.ctx g).twin with
  | none => true
  | some w =>
    let d := s.ctx w
    decide (numCtxs ≤ w) || d.st == .saved || (d.saveDue && saveable d && !owesGroup s w)

/-- CONTEXT_SAVE (R412): `who` is the context. -/
def tryContextSave (s : State) : Option State :=
  let g := s.ev.who
  let c := s.ctx g
  if c.saveDue && saveable c && !owesGroup s g && twinStill s g && !saveStalled s g then
    some (markSaved ((writeImage s g).modCtx g (fun c => { c with st := .saved, saveDue := false, pause := 0 })) c.lslot)
  else none

/-- CONTEXT_SAVE (R412). -/
def execContextSave (s : State) : Outcome State Fault Refusal := eventStep tryContextSave s

/-! ### Restoring -/

/-- The state a restored context returns to: RUN, or the same wait. -/
def restoredState (w : Waiting) : CtxState := if w = .none then .run else .wait

/-- Moves a saved context's activation to context `d` and resumes it there: PROC and CTX name the
new place, and `d` gives its own frame and stack in exchange (DESIGN CHOICE, log 10). -/
def placeCtx (s : State) (g d : Nat) (twin : Option Nat) : State :=
  let s := touchImage s g
  let c := readImage s g (s.ctx g)
  let other := s.ctx d
  let new := { c with
    st := restoredState c.waiting, twin := twin
    status := putFld (putFld c.status 6 2 (d % 16 / 4)) 4 2 (d % 4) }
  if g = d then s.setCtx d new
  else (s.setCtx g { Ctx.reset g with place := other.place, addrPlace := other.place }).setCtx d new

/-- Whether context `d` may take a restored activation that stands on `g`. Contexts that the scheduler keeps
for a trigger are not taken (R54). -/
def restoreTo (s : State) (g d : Nat) : Bool :=
  decide (tileOf d = tileOf g) && (d == g || (freeFor s d && !keeps s (tileOf g)))

/-- Whether a launch waits for the restore of another that was saved before it, at the return to ACTIVE
(R427). -/
def restoreWaits (s : State) (slot : Nat) : Bool :=
  s.mgmt.restoring.contains slot &&
  (s.mgmt.restoring.takeWhile (fun i => i != slot)).any (fun i =>
    s.ctxs.any (fun (e : Nat × Ctx) => e.2.st == .saved && e.2.lslot == i))

/-- CONTEXT_RESTORE (R412): `who` is the saved (owning) context; `idx` gives the destination's
index in its tile, and for a span the twin's index in `idx` div 16. A copy whose twin has ended is restored
alone. -/
def tryContextRestore (s : State) : Option State :=
  let g := s.ev.who
  let c := s.ctx g
  let d := 16 * tileOf g + s.ev.idx % 16
  let ok := (match s.launch c.lslot with
    | some l => l.state == .running
    | none => true) && !saveStalled s g && !restoreWaits s c.lslot
  if c.st != .saved || !ok then none
  else
    match c.twin with
    | none => if restoreTo s g d then some (placeCtx s g d none) else none
    | some w =>
      let e := 16 * tileOf g + s.ev.idx / 16 % 16
      if numCtxs ≤ w then
        if restoreTo s g d && (decide (d % 16 / 4 < 2) != c.isTwin) then
          some ((placeCtx s g d (some w)).modCtx w (fun c => { c with twin := some d }))
        else none
      else if !c.isTwin && (s.ctx w).st == .saved && restoreTo s g d && restoreTo s w e && decide (d % 16 / 4 < 2) &&
          e % 16 / 4 == 3 - d % 16 / 4 && !saveStalled s w then
        some (placeCtx (placeCtx s g d (some e)) w e (some d))
      else none

/-- CONTEXT_RESTORE (R412). -/
def execContextRestore (s : State) : Outcome State Fault Refusal := eventStep tryContextRestore s

/-! ### Kills and time limits (R404) -/

/-- CONTEXT_KILL (R404): a kill that the host or the runtime commands. `who` is the context. A bundle
in progress has had no effect yet and is discarded: the boundary is the one before it. -/
def tryContextKill (s : State) : Option State :=
  let g := s.ev.who
  let c := s.ctx g
  match c.st with
  | .run | .wait | .saved =>
    some (commandKill s g)
  | _ => none

/-- CONTEXT_KILL (R404). -/
def execContextKill (s : State) : Outcome State Fault Refusal := eventStep tryContextKill s

/-- BLOCKING_TIMEOUT (R404): `who` is a context that has waited 10 ms for a reply. -/
def tryBlockingTimeout (s : State) : Option State :=
  let g := s.ev.who
  let c := s.ctx g
  match c.st, c.waiting with
  | .wait, .reply _ => some (endKilled s g (endingBy s (ownerOf s g) .timeout))
  | _, _ => none

/-- BLOCKING_TIMEOUT (R404). -/
def execBlockingTimeout (s : State) : Outcome State Fault Refusal := eventStep tryBlockingTimeout s

end Sys2Proof.Machine
end

