-- ==== Sys2Proof/Machine/Vault.lean ====
section
/-! DEFINITION. The vault controllers and the walker: page exchanges, refresh, heat, scrubbing,
row and wire repair, tile retirement, and walks (R245-R256, R281, R371-R374). -/

namespace Sys2Proof.Machine

open Host (Outcome)

/-! ### The cable engine (R246, R281) -/

/-- Whether a row of a page is being retired. -/
def pageRepair (x : Tile) (p : Nat) : Bool :=
  match x.repair with
  | some r => (remapOf x p).layer == r.layer && (remapOf x p).slot == r.row / 2
  | none => false

/-- Whether an exchange of a page must wait (R246, R249). -/
def swapWaits (x : Tile) (p : Nat) : Bool := (remapOf x p).busy || pageRepair x p

/-- How long ago a page was last accessed, in µs: LAST counts modulo 2^32 (R373). -/
def pageAge (x : Tile) (now p : Nat) : Nat := (now % 2 ^ 32 + 2 ^ 32 - (remapOf x p).last) % 2 ^ 32

/-- The near page whose last access is oldest and whose entry is not busy (R281), in the lowest slot among those
of one age (DESIGN CHOICE, log 88); an offline page is absent (R373). `now` is the time in µs. -/
def coldest (x : Tile) (now : Nat) : Option Nat :=
  ((List.range 1024).map (pageInSlot x 0)).foldl (fun (best : Option Nat) (p : Nat) =>
    if (remapOf x p).busy || !(remapOf x p).v then best
    else match best with
      | some b => if pageAge x now b < pageAge x now p then some p else best
      | none => some p) none

/-- Marks the entries of two pages. -/
def markBusy (x : Tile) (p q : Nat) (b : Bool) : Tile :=
  let r1 := tabSet x.remap p { remapOf x p with busy := b }
  let x1 := { x with remap := r1 }
  { x1 with remap := tabSet x1.remap q { remapOf x1 q with busy := b } }

/-- What the head of the engine's queue does next. -/
def startSwap (s : State) (t : Nat) : Option State :=
  let x := s.tile t
  match x.swaps with
  | [] => none
  | w :: r =>
    let ends := fun (flt : Bool) => some (
      let s1 := s.setTile t { x with swaps := r }
      if flt && w.bar.isNone then logAt s1 8 Cause.abandon.code t w.lslot (w.p * 65536) 0xD7
      else sendArrival s1 t w.lslot w.bar flt (if flt then 1 else 0) 0)
    let off := !(remapOf x w.p).v || (match w.q with
      | some q => !(remapOf x q).v
      | none => false)
    if w.busy then none
    else if off then ends true
    else
      match w.q with
      | some q =>
        if (remapOf x w.p).layer = (remapOf x q).layer then ends false
        else if swapWaits x w.p || swapWaits x q then none
        else some (s.setTile t { markBusy x w.p q true with swaps := { w with busy := true } :: r })
      | none =>
        if (remapOf x w.p).layer = 0 then ends false
        else if swapWaits x w.p then none
        else
          match coldest x (s.cycle / 1200) with
          | none => none
          | some q =>
            if swapWaits x q then none
            else some (s.setTile t { markBusy x w.p q true with swaps := { w with q := some q, busy := true } :: r })

/-- The first CSWAP at a tile's interface whose turn it is. -/
def swapItem (s : State) (t : Nat) : Option (Nat × Packet × Swap) :=
  (List.range (inboxAt s t).length).findSome? (fun i =>
    match item s t i with
    | some (id, p) => (match p.work with
      | .cswap w => some (id, p, w)
      | _ => none)
    | none => none)

/-- CABLE_SWAP_START (R281): `who` is the tile. The engine takes a CSWAP that has arrived, and begins
the exchange at the head of its queue. -/
def tryCableSwapStart (s : State) : Option State :=
  let t := s.ev.who
  match swapItem s t with
  | some (id, p, w) =>
    if pktStale s p then some (rejectStale s id p)
    else
      let s1 := (finish s id none).modTile t (fun x => { x with swaps := x.swaps ++ [w] })
      some ((startSwap s1 t).getD s1)
  | none => startSwap s t

/-- CABLE_SWAP_START (R281). -/
def execCableSwapStart (s : State) : Outcome State Fault Refusal := eventStep tryCableSwapStart s

/-- Exchanges the places of two pages (R373): keys name logical pages, so no byte moves. -/
def exchange (x : Tile) (p q : Nat) : Tile :=
  let a := remapOf x p
  let b := remapOf x q
  let r1 := tabSet x.remap p { a with layer := b.layer, slot := b.slot, busy := false }
  { x with remap := tabSet r1 q { b with layer := a.layer, slot := a.slot, busy := false } }

/-- CABLE_SWAP_COMPLETE (R246): `who` is the tile. -/
def tryCableSwapComplete (s : State) : Option State :=
  let t := s.ev.who
  let x := s.tile t
  match x.swaps with
  | ⟨p, some q, bar, true, lslot⟩ :: r =>
    let s1 := s.setTile t { exchange x p q with swaps := r }
    some (startRepair (sendArrival s1 t lslot bar false 0 0) t)
  | _ => none

/-- CABLE_SWAP_COMPLETE (R246). -/
def execCableSwapComplete (s : State) : Outcome State Fault Refusal := eventStep tryCableSwapComplete s

/-! ### Refresh and heat (R247, R248) -/

/-- The vault keys that a packet's work touches at its home. -/
def Work.vaultKey : Work → Option Nat
  | .store k _ _ _ _ | .engWrite k _ _ | .outWrite ((k, _) :: _) _ | .atomic k _ _ _ _ _ _ _ _ =>
    if isVault k then some k else none
  | .remote r => if isVault r.key then some r.key else none
  | _ => none

/-- REFRESH (R247): `who` is the tile and `idx` the bank, 16 × layer + bank. Each access that the refresh
stalls counts: those that wait at the home for that bank, and the others (loads, fetches, engine and agent
steps), whose number `val` gives (DESIGN CHOICE, log 65). -/
def tryRefresh (s : State) : Option State :=
  let t := s.ev.who
  let n := ((inboxAt s t).filter (fun (e : Nat × Packet) => match e.2.work.vaultKey with
    | some k => (rowOf s k).layer * 16 + (rowOf s k).bank == s.ev.idx
    | none => false)).length + s.ev.val
  some ((List.range n).foldl (fun (s : State) (_ : Nat) => countEvent s t 1) s)

/-- REFRESH (R247). -/
def execRefresh (s : State) : Outcome State Fault Refusal := eventStep tryRefresh s

/-- The thermal state after a sample of a temperature in °C (R248). -/
def thermalNext (x : Thermal) (temp : Nat) : Thermal :=
  match x with
  | .normal => if 95 ≤ temp then .hold else if 85 ≤ temp then .throttle else .normal
  | .throttle => if 95 ≤ temp then .hold else if temp < 85 then .normal else .throttle
  | .hold => if temp < 90 then .throttle else .hold

/-- The number of a thermal state in an entry and in READ_THERMAL. -/
def Thermal.num : Thermal → Nat
  | .normal => 0
  | .throttle => 1
  | .hold => 2

/-- THERMAL_SAMPLE (R248): `who` is the tile and `idx` the temperature. -/
def tryThermalSample (s : State) : Option State :=
  let t := s.ev.who
  let x := s.tile t
  let n := thermalNext x.thermal s.ev.idx
  let s1 := s.setTile t { x with dramTemp := s.ev.idx, thermal := n }
  some (if n = x.thermal then s1 else logAt (countEvent s1 t 2) 7 2 t 0 s.ev.idx n.num)

/-- THERMAL_SAMPLE (R248). -/
def execThermalSample (s : State) : Outcome State Fault Refusal := eventStep tryThermalSample s

/-! ### Scrubbing and row repair (R249, R254, R255) -/

/-- The poisoned units of `n` bytes from a key. -/
def badUnits (s : State) (k n : Nat) : List Nat :=
  ((s.tile (homeTile k)).poison.filter (fun e => overlaps (16 * e.1) 16 k n)).map (fun e => 16 * e.1)

/-- The scrubber finds the poisoned units of a line: a free line has each rewritten, any other is handled
once by its owner tag (R254). -/
def lineFound (s : State) (k n : Nat) : State :=
  if ownerTag s k / 1024 % 4 = 0 then (badUnits s k n).foldl poisonFound s else poisonFound s (badUnit s k n)

/-- The matrix unit of a tile. -/
def modUnit (s : State) (t : Nat) (f : MatUnit → MatUnit) : State :=
  s.modTile t (fun x => { x with matrix := { x.matrix with unit := f x.matrix.unit } })

/-- An uncorrectable error arises in a 16-byte word of the matrix unit's registers (3), accumulators (4) or scale
stores (6), or in the effects buffer of a context (5); the next read of it finds the error (R211, R252). The
word's bytes are free values from then on. Or a single bit of a register's word (7) is corrected as it is read:
the word is written back, and the error counted and logged (R252). -/
def storageError (s : State) (t a : Nat) : Nat → State
  | 3 => modUnit s t (fun u => { u with
      tr := storeWrite 0 u.tr (16 * a) (Config.freeBytes s.fresh (16 * a) 16), regErr := tabSet u.regErr a true })
  | 4 => modUnit s t (fun u => { u with
      acc := storeWrite 0 u.acc (4 * a) ((List.range 4).map (fun i => BitVec.ofNat 32 (natLE (Config.freeBytes s.fresh (2 ^ 20 + 16 * a + 4 * i) 4))))
      accErr := tabSet u.accErr a true })
  | 6 => modUnit s t (fun u => { u with
      scale := storeWrite 0 u.scale (16 * a) (Config.freeBytes s.fresh (2 ^ 21 + 16 * a) 16)
      regErr := tabSet u.regErr (8192 + a) true })
  | 7 => (logAt s 0x0C 0 t 0 (16 * a) 0).modTile t (fun x => { x with fixes := x.fixes + 1 })
  | _ => s.modCtx (16 * t + a % 16) (fun c => { c with bufErr := true })

/-- SCRUB_READ (R255): `who` is the tile; `idx` is a tile-local offset, or 2^21 plus a byte of the
vault by logical page; `val` is 0 for no error, 1 for one that is corrected and written back, 2 for an
uncorrectable one in the unit that `idx` names; 3 to 7 an error in storage that is not scrubbed, `idx` being
the word or the context (DESIGN CHOICE, log 67). A vault read below the last one begins a new pass; a row
that already waits for its repair stays (R249). -/
def tryScrubRead (s : State) : Option State :=
  let t := s.ev.who
  let a := s.ev.idx
  let sp : Bool := decide (a < 2 ^ 21)
  let o := (a + (2 ^ 29 - 2 ^ 21)) % 2 ^ 29 / 32 * 32
  let k := if sp then keyScratch t (a / 128 * 128) else keyVault t (o / 2 ^ 16) (o % 2 ^ 16)
  let n := if sp then 128 else 32
  if 3 ≤ s.ev.val then some (storageError s t a s.ev.val)
  else
    let s1 := if sp then s else s.modTile t (fun x => { x with
      scrubbed := o
      corrected := if o < x.scrubbed then x.corrected.filter (fun e => decide (4 ≤ e.2)) else x.corrected })
    let (s2, inj) := unitRead s1 k n
    let s3 := if s.ev.val = 2 then setPoison s2 (if sp then keyScratch t (a / 16 * 16) else k) (if sp then 16 else 32) else s2
    if poisoned s3 k n then some (lineFound s3 k n)
    else if inj then some (poisonFound s3 k)
    else if s.ev.val = 1 then some (logCorrected s3 t k k)
    else some s3

/-- SCRUB_READ (R255). -/
def execScrubRead (s : State) : Outcome State Fault Refusal := eventStep tryScrubRead s

/-- ROW_REPAIR_COMPLETE (R249): `who` is the tile; a spare row of the bank takes the place of the row. -/
def tryRowRepairComplete (s : State) : Option State :=
  let t := s.ev.who
  let x := s.tile t
  match x.repair with
  | none => none
  | some r =>
    let s1 := s.setTile t { x with
      repair := none, retired := (r, nextSpare x r) :: x.retired, corrected := x.corrected.filter (fun e => e.1 != r) }
    some (startRepair (logAt (countEvent s1 t 0) 7 0 t 0 0 (rowCode r)) t)

/-- ROW_REPAIR_COMPLETE (R249). -/
def execRowRepairComplete (s : State) : Outcome State Fault Refusal := eventStep tryRowRepairComplete s

/-! ### Wires, and tiles that are lost (R250, R251, R374) -/

/-- Pre-empts every context of a launch and holds it, unless it is held already (R57, R412). -/
def preemptLaunch (s : State) (slot : Nat) (byHost : Bool) : State :=
  match s.launch slot with
  | none => s
  | some l =>
    if l.saved then s
    else
      let s1 := s.ctxs.foldl (fun (s : State) (e : Nat × Ctx) =>
        if e.2.lslot = slot && e.2.act != 0 then orderSave s e.1 else s) s
      { s1 with
        tiles := s1.tiles.map (fun (e : Nat × Tile) => (e.1, unstage slot e.2))
        mgmt := { s1.mgmt with
        order := s1.mgmt.order + 1, restoring := s1.mgmt.restoring.filter (fun i => i != slot) } }.setLaunch slot { l with
        state := .preempted byHost, resume := l.state, savedAt := s1.mgmt.order }

/-- A held launch goes on: its contexts may be restored (R412). -/
def resumeLaunch (s : State) (slot : Nat) : State :=
  match s.launch slot with
  | some l => if l.saved then s.setLaunch slot { l with state := l.resume } else s
  | none => s

/-- The launches resident on a tile. -/
def residentOn (s : State) (t : Nat) : List (Nat × Launch) :=
  s.launches.filter (fun (e : Nat × Launch) => inRect e.2.record t)

/-- VAULT_BUS_PARITY_ERROR (R250, R251): `who` is the tile, `idx` the group; `flag` says that a wire
of it has failed for good. A group of the other half has exhausted its spares when a wire fails after its last
spare is in use, as for the first half (DESIGN CHOICE, log 87). -/
def tryVaultBusParityError (s : State) : Option State :=
  let t := s.ev.who
  let g := s.ev.idx % 16
  let s1 := countEvent s t 7
  let x := s1.tile t
  let n := x.spare.getD g 0
  if !s.ev.flag then some s1
  else if 0 < n then some (s1.setTile t { x with spare := x.spare.set g (n - 1) })
  else
    match x.badHalf with
    | none => some (logAt (s1.setTile t { x with badHalf := some (g / 8) }) 7 3 t 0 0 g)
    | some h =>
      if h = g / 8 || x.offline then some s1
      else
        let s2 := logAt (s1.setTile t { x with offline := true }) 7 4 t 0 0 g
        some ((residentOn s2 t).foldl (fun (s : State) (e : Nat × Launch) => preemptLaunch s e.1 false) s2)

/-- VAULT_BUS_PARITY_ERROR (R250). -/
def execVaultBusParityError (s : State) : Outcome State Fault Refusal := eventStep tryVaultBusParityError s

/-- The index of a tile in its stack's map (R374). -/
def mapIndex (t : Nat) : Nat := 16 * (tileY t % 16) + tileX t % 16
/-- The tile-map entry of a tile. -/
def mapEntry (s : State) (t : Nat) : BitVec 16 := (s.tileMap.getD (stackOf t) []).getD (mapIndex t) 0

/-- The unused physical tile of a stack that takes the place of a retired one: the lowest-numbered one, since
R374 names none (DESIGN CHOICE, log 68). -/
def unusedPhys (s : State) (st : Nat) : Option Nat :=
  let m := s.tileMap.getD st []
  (List.range 264).find? (fun p =>
    !m.any (fun e => e.getLsbD 15 && fld e 0 9 == p) && !s.mgmt.badTiles.contains (st, p))

/-- Whether what an interface keeps of an ended copy is compared: no group of it is left (R57). -/
def parkedDone (e : Nat × Ctx) : Bool := decide (numCtxs ≤ e.1) && e.2.groups.isEmpty

/-- Whether no launch runs on a tile: each is held and saved. -/
def tileQuiet (s : State) (t : Nat) : Bool :=
  (residentOn s t).all (fun (e : Nat × Launch) => e.2.saved) &&
  s.ctxs.all (fun (e : Nat × Ctx) => tileOf (e.1 % numCtxs) != t || parkedDone e || e.2.st == .free || e.2.st == .saved)

/-- The launches that a lost tile held go on, once no tile of theirs is offline (R251). -/
def resumeOn (s : State) (t : Nat) : State :=
  (residentOn s t).foldl (fun (s : State) (e : Nat × Launch) =>
    if e.2.state == .preempted false && (s.mgmt.power == .active || s.mgmt.power == .reduced) &&
        !s.tiles.any (fun (x : Nat × Tile) => x.2.offline && inRect e.2.record x.1) then resumeLaunch s e.1 else s) s

/-- TILE_RETIRE (R374): `who` is a logical tile that is offline, with no launch running on it. A
spare takes its place with the contents that the runtime has copied (R251, DEDUCED, log 33). -/
def tryTileRetire (s : State) : Option State :=
  let t := s.ev.who
  let st := stackOf t
  let x := s.tile t
  let e := mapEntry s t
  if !x.offline || !tileQuiet s t || decide (1024 ≤ t) || !e.getLsbD 15 then none
  else
    let s0 := { s with mgmt := { s.mgmt with badTiles := (st, fld e 0 9) :: s.mgmt.badTiles } }
    let put := fun (s : State) (v : BitVec 16) =>
      { s with tileMap := s.tileMap.set st ((s.tileMap.getD st []).set (mapIndex t) v) }
    match unusedPhys s0 st with
    | some p =>
      let s1 := put s0 (BitVec.ofNat 16 (0x8000 + p))
      let s2 := s1.setTile t { x with
        tlb := [], remap := [], retired := [], corrected := [], repair := none, spare := List.replicate 16 4
        badHalf := none, offline := false, halvedMatrix := List.replicate 4 false, openRows := [], scrubbed := 0
        thermal := .normal, dramTemp := 0 }
      some (resumeOn (logAt s2 7 5 t 0 0 p) t)
    | none => some (logAt (put s0 (BitVec.ofNat 16 (fld e 0 9))) 7 5 t 0 0 0x8000)

/-- TILE_RETIRE (R374). -/
def execTileRetire (s : State) : Outcome State Fault Refusal := eventStep tryTileRetire s

/-! ### The walker (R371) -/

/-- TLB_WALK (R371): `who` is the tile, `idx` the ASID and `val` the address. A walk that finds a
leaf replaces the page's entry. -/
def tryTlbWalk (s : State) : Option State :=
  let t := s.ev.who
  let asid := s.ev.idx
  if !genV (genEntry s t asid) || decide (256 ≤ asid) then none else some (walkLogged s t asid s.ev.val)

/-- TLB_WALK (R371). -/
def execTlbWalk (s : State) : Outcome State Fault Refusal := eventStep tryTlbWalk s

end Sys2Proof.Machine
end

