-- ==== Sys2Proof/Machine/Launches.lean ====
section
/-! DEFINITION. The control plane: taking launch records, keyed lookups, and the completion of
launches (R325-R328, R376, R389, R394). -/

namespace Sys2Proof.Machine

open Host (Outcome)

/-! ### Reading a descriptor -/

/-- What a read of the control plane gives. -/
inductive CtlRead where
  | ok (s : State) (b : List Byte)
  | wait
  | fail (s : State)

/-- Reads pieces as a home returns them. -/
def ctlPieces (s : State) : List Piece → State × List Byte × Bool
  | [] => (s, [], false)
  | p :: r =>
    let (s1, bad) := unitRead s p.loc.key p.len
    let b := visRead s1 p.loc.key p.len
    let (s2, rest, bad2) := ctlPieces (touchPage s1 p.loc.key p.len) r
    (s2, b ++ rest, bad || bad2)

/-- The control plane reads device memory through the origin tile's translation (R376). -/
def ctlRead (s : State) (t asid a n : Nat) : CtlRead :=
  if a < 2 ^ 32 then .fail s
  else
    let ps := pieces s t asid false true (n / 128 + 3) a n
    let s := engineWalks s t asid a n
    match ps with
    | none => .fail s
    | some l =>
      if l.any (fun p => decide (1024 ≤ p.loc.home)) then .fail s
      else if piecesWait s l || piecesRow s l then .wait
      else
        match ctlPieces s l with
        | (s1, _, true) => .fail s1
        | (s1, b, false) => .ok s1 b

/-! ### The checks of R327 -/

/-- The origin tile of a record. -/
def recordOrigin (r : List Byte) : Nat := tileAt (natAt r 0 1 % 32) (natAt r 1 1 % 32)

/-- Check 1: zero fields, and fields within their limits (R326). -/
def recordOk (r : List Byte) : Bool :=
  let done := natAt r 40 8
  let keyed := (natAt r 3 1).testBit 3
  decide (natAt r 0 1 < 32 ∧ natAt r 1 1 < 32) && (natAt r 2 1 &&& 0x88) == 0 && decide (natAt r 3 1 < 16) &&
  decide (natAt r 4 2 < 1024) && zeroBytes r 7 8 && decide (natAt r 16 4 < 2 ^ 16 ∧ natAt r 20 4 < 2 ^ 9) &&
  zeroBytes r 50 52 && zeroBytes r 96 126 &&
  nfld done 1 3 == 0 && nfld done 21 11 == 0 && nfld done 37 3 == 0 && nfld done 45 19 == 0 &&
  (!done.testBit 0 || inRect r (tileAt (nfld done 32 5) (nfld done 40 5))) &&
  (!keyed || decide (natAt r 48 2 < 64 ∧ natAt r 52 4 ≤ 2 ^ 20 ∧ natAt r 56 8 % 4 = 0))

/-- Check 2: the rectangle (R47), over mapped tiles (R374). -/
def rectOk (s : State) (r : List Byte) : Bool :=
  let a := natAt r 2 1 % 8
  let b := natAt r 2 1 / 16 % 8
  decide (a ≤ 5 ∧ b ≤ 5 ∧ natAt r 0 1 % 2 ^ a = 0 ∧ natAt r 1 1 % 2 ^ b = 0) &&
  ((List.range 1024).filter (inRect r)).all (fun t => (mapEntry s t).getLsbD 15)

/-- A handler or member entry: its reserved bits are zero. -/
def entryOk (w : Nat) : Bool := nfld w 48 15 == 0

/-- A PIPE entry (R376). -/
def pipeOk (d : List Byte) (w : Nat) : Bool :=
  let lg := nfld w 30 4
  nfld w 38 25 == 0 &&
  (!w.testBit 63 ||
    ((natAt d (176 + 8 * nfld w 34 2) 8).testBit 63 && (natAt d (176 + 8 * nfld w 36 2) 8).testBit 63 &&
      decide (lg ≤ 12) && nfld w 17 13 * 256 % 2 ^ (lg + 8) == 0))

/-- The descriptor is not refused (R376). -/
def descOk (d : List Byte) : Bool :=
  (List.range 16).all (fun c => entryOk (natAt d (8 * c) 8)) &&
  !(natAt d 112 8).testBit 63 && !(natAt d 120 8).testBit 63 &&
  (List.range 8).all (fun k => nfld (natAt d (128 + 4 * k) 4) 17 14 == 0) &&
  decide (1 ≤ natAt d 168 4) && zeroBytes d 172 176 &&
  (List.range 4).all (fun m => entryOk (natAt d (176 + 8 * m) 8)) &&
  (List.range 4).all (fun p => pipeOk d (natAt d (208 + 8 * p) 8)) &&
  natAt d 240 8 % 2 ^ 19 == 0 && zeroBytes d 248 256

/-! ### Acceptance -/

/-- The lowest handler block that is free on a tile (R376; DESIGN CHOICE, log 73). -/
def freeBlock (s : State) (t : Nat) : Option Nat := (List.range 16).find? (fun k => (blockOwner s t k).isNone)

/-- A free handler block on each tile of a rectangle, if every one has one (R376). -/
def freeBlocks (s : State) (r : List Byte) : Option (List (Nat × Nat)) :=
  ((List.range 1024).filter (inRect r)).foldr (fun (t : Nat) (acc : Option (List (Nat × Nat))) =>
    match freeBlock s t, acc with
    | some k, some l => some ((t, k) :: l)
    | _, _ => none) (some [])

/-- The 256 words of a constant page. -/
def constWords (b : List Byte) : List (BitVec 32) := (List.range 256).map (fun i => BitVec.ofNat 32 (natAt b (4 * i) 4))

/-- Registers a QCB with a tile's outrider, in the lowest free place (R328). -/
def registerQcb (o : Outrider) (off lslot : Nat) : Outrider :=
  if o.queues.any (fun (e : Nat × Queue) => decide (e.1 < 8) && e.2.qcb == off) then o
  else
    match (List.range 8).find? (fun k => (tabFind o.queues k).isNone) with
    | some k => { o with queues := tabSet o.queues k ⟨off, lslot, ⟨0xFFFFFFFF, false, false⟩, none, 0, []⟩ }
    | none => o

/-- Registers the QCBs of a launch on each of its tiles. -/
def registerAll (s : State) (r d : List Byte) (lslot : Nat) : State :=
  ((List.range 1024).filter (inRect r)).foldl (fun (s : State) (t : Nat) =>
    (List.range 8).foldl (fun (s : State) (k : Nat) =>
      let w := natAt d (128 + 4 * k) 4
      if w.testBit 31 then modOut s t (fun o => registerQcb o (16 * nfld w 0 17) lslot) else s) s) s

/-- A launch that may start: a gang waits for admission, any other sends its messages (R53,
R327). -/
def startLaunch (s : State) (slot : Nat) (l : Launch) : State :=
  if l.gang then s.setLaunch slot { l with state := .admission }
  else sendStart (s.setLaunch slot { l with state := .running }) l slot

/-- The lookup of a keyed launch, asked of the entry controller of the origin tile (R394). The port of the
launch's queue injects it (R26). -/
def sendLookup (s : State) (slot : Nat) (l : Launch) : State :=
  let t := recordOrigin l.record
  let r : LifeReq :=
    { opc := 0xF3, op := 0, tile := t, ctx := 0, gen := igen (genEntry s t l.asid), l := 0, bar := none, lslot := slot,
      asid := l.asid, keyed := some slot
      block := sliceB l.record 56 8 ++ sliceB l.record 52 4 ++ sliceB l.record 48 1 ++ List.replicate 19 0 }
  sendWork s (homeTile l.statusKey) (lifeEnd (stackOf t)) .none slot (.lifeline r)

/-- What the control plane decides about a record: it waits, or the STATUS and the launch. -/
inductive Taken where
  | wait
  | refuse (s : State) (status : Nat)
  | accept (s : State) (slot : Nat) (l : Launch)

/-- The checks in the order of R327. -/
def judge (s : State) (r : List Byte) (statusKey : Nat) : Taken :=
  let t := recordOrigin r
  let asid := natAt r 6 1
  let slot := natAt r 4 2
  if !recordOk r then .refuse s 3
  else if !rectOk s r then .refuse s 2
  else if (s.launch slot).isSome then .refuse s 4
  else
    match ctlRead s t asid (natAt r 8 8) 256 with
    | .wait => .wait
    | .fail s1 => .refuse s1 3
    | .ok s1 d =>
      if !descOk d then .refuse s1 3
      else
        let konst := if natAt d 160 8 = 0 then .ok s1 (List.replicate 1024 0) else ctlRead s1 t asid (natAt d 160 8) 1024
        match konst, freeBlocks s r with
        | .wait, _ => .wait
        | .fail s2, _ => .refuse s2 3
        | .ok _ _, none => .wait
        | .ok s2 k, some bs =>
          .accept { s2 with mgmt := { s2.mgmt with order := s2.mgmt.order + 1 } } slot
            { record := r, desc := d, konst := constWords k, statusKey := statusKey, state := .running,
              failed := false, lookup := [], images := [], order := s2.mgmt.order, blocks := bs, resume := .running,
              savedAt := 0 }

/-- Ends the taking of a record: its STATUS, and the arrival that a LAUNCH awaits, which the queue's port
injects (R26, R325, R327). -/
def answerRecord (s : State) (k : Nat) (q : LaunchQueue) (status : Nat) : State :=
  let s1 := homeWrite s (slotKey q q.next + 126) (bytesLE 1 status)
  let bar := (q.bars.find? (fun (e : Nat × Bar) => e.1 == q.next)).map (fun e => e.2)
  let s2 := setQueue s1 k { q with next := q.next + 1, bars := q.bars.filter (fun (e : Nat × Bar) => e.1 != q.next) }
  sendArrival s2 q.tile 0 bar (status != 1) (if status = 1 then 0 else 1) 0

/-- A matrix unit whose holder has completed takes its clear state, at the latest when another launch takes the
slot (R221). -/
def clearHolder (slot : Nat) (m : Matrix) : Matrix :=
  if m.holder = some slot then { m with unit := MatUnit.clear, holder := none } else m

/-- Begins an accepted launch. -/
def beginLaunch (s : State) (slot : Nat) (l : Launch) : State :=
  let s1 := registerAll { s with tiles := s.tiles.map (fun (e : Nat × Tile) =>
    (e.1, { e.2 with masks := tabDel e.2.masks slot, matrix := clearHolder slot e.2.matrix })) } l.record l.desc slot
  if (natAt l.record 3 1).testBit 3 then
    sendLookup (s1.setLaunch slot { l with state := .lookup }) slot l
  else startLaunch s1 slot l

/-- Whether the launch queues are taken (R426, R427). -/
def taking (s : State) : Bool := s.booted && (s.mgmt.power == .active || s.mgmt.power == .reduced)

/-- LAUNCH_RECORD_TAKE (R326, R327): `who` is the queue. From an offline page nothing is taken (R373). -/
def tryLaunchRecordTake (s : State) : Option State :=
  let k := s.ev.who
  match s.queues[k]? with
  | none => none
  | some q =>
    let a := slotKey q q.next
    if !taking s || stalled s a || pageOff s a || natLE (visRead s (a + 127) 1) != q.next % 255 + 1 then none
    else
      let (s1, bad) := unitRead s a 128
      if bad then some (answerRecord (logAt s1 0x0C Cause.uncorrectable.code q.tile 0 a k) k q 3)
      else
        match judge s1 (visRead s1 a 128) (a + 126) with
        | .wait => none
        | .refuse s2 st => some (answerRecord s2 k q st)
        | .accept s2 slot l => some (beginLaunch (answerRecord s2 k q 1) slot l)

/-- LAUNCH_RECORD_TAKE (R327). -/
def execLaunchRecordTake (s : State) : Outcome State Fault Refusal := eventStep tryLaunchRecordTake s

/-- KEYED_LOOKUP_RESULT (R394): `who` is the launch slot. The result block goes with the origin's
launch message, for offset 224 of the frame. -/
def tryKeyedLookupResult (s : State) : Option State :=
  match s.launch s.ev.who with
  | some l => if l.state == .lookup && !l.lookup.isEmpty then some (startLaunch s s.ev.who l) else none
  | none => none

/-- KEYED_LOOKUP_RESULT (R394). -/
def execKeyedLookupResult (s : State) : Outcome State Fault Refusal := eventStep tryKeyedLookupResult s

/-! ### Completion (R327) -/

/-- Whether a tile holds a trigger of a launch, or work of it for its matrix unit. -/
def tileHolds (x : Tile) (slot : Nat) : Bool :=
  let of := fun (t : Trigger) => t.lslot == slot
  x.arrival.any of || x.conts.any of || x.redeliver.any of || x.deques.any (fun d => d.any of) ||
  x.pushWait.any (fun (e : Trigger × Nat) => of e.1) || x.ready.any (fun (e : Nat × Nat) => e.2 == slot) ||
  x.staging.any (fun e => of e.1) || !x.joinSubs.isEmpty || x.matrix.queue.any (fun c => c.lslot == slot) ||
  x.matrix.pending.any (fun e => e.2.1.lslot == slot) ||
  (x.matrix.holder == some slot && (x.matrix.cur.isSome || !x.matrix.unit.tiles.isEmpty))

/-- Whether a packet carries a trigger of a launch. -/
def workHolds (w : Work) (slot : Nat) : Bool :=
  match w with
  | .msg t | .task t | .joinAdd _ t _ => t.lslot == slot
  | .decz _ l _ => l == slot
  | .matrix c => c.lslot == slot
  | _ => false

/-- Whether a packet carries an effect of an activation of a launch that is not yet performed (R327, R434). What a
submission asks for goes on without the launch, whose queues end with it (R328). -/
def effectFlies (p : Packet) (slot : Nat) : Bool :=
  p.lslot == slot && p.place != .done &&
  (match p.owner, p.work with
   | .act _, .osub _ => false
   | .act _, _ => true
   | _, _ => false)

/-- Nothing of a launch is left (R327). -/
def launchDone (s : State) (slot : Nat) (l : Launch) : Bool :=
  l.state == .running &&
  s.ctxs.all (fun (e : Nat × Ctx) => e.2.st == .free || e.2.lslot != slot) &&
  s.tiles.all (fun (e : Nat × Tile) => !(inRect l.record e.1 && tileHolds e.2 slot)) &&
  l.images.all (fun (e : Nat × MatUnit × Option Current × List MatCmd) =>
    e.2.1.tiles.isEmpty && e.2.2.1.isNone && e.2.2.2.isEmpty) &&
  s.pkts.all (fun (e : Nat × Packet) => !workHolds e.2.work slot && !effectFlies e.2 slot) &&
  s.steals.all (fun m => match m with
    | .reply _ (some t) => t.lslot != slot
    | _ => true)

/-- The queues of a completed launch are registered no more. One that still has commands keeps its chain for
them under a number of its own, at which nothing is accepted (log 27). -/
def retireQueues (slot : Nat) (o : Outrider) : Outrider :=
  o.queues.foldl (fun (o : Outrider) (e : Nat × Queue) =>
    if e.2.lslot ≠ slot ∨ 8 ≤ e.1 then o
    else
      let rest := tabDel o.queues e.1
      if o.cmds.any (fun c => c.queue == e.1) then
        let j := 8 + (o.queues.map (fun (q : Nat × Queue) => q.1)).foldl max 0
        { o with
          queues := tabSet rest j { e.2 with pend := [] }
          cmds := o.cmds.map (fun c => if c.queue = e.1 then { c with queue := j } else c) }
      else { o with queues := rest }) o

/-- What a completed launch leaves at a tile: no mask, reservation or queue of it. A matrix unit that it held
takes its clear state with its next swap: what it holds as the launch completes still stands then (R221, R453;
DEDUCED, log 91). -/
def dropAtTile (slot : Nat) (x : Tile) : Tile :=
  { x with
    masks := tabDel x.masks slot
    reserved := x.reserved.filter (fun (e : Nat × Nat) => e.2 != slot)
    out := retireQueues slot x.out }

/-- The submissions to a completed launch's queues that were not accepted are acknowledged. -/
def ackDropped (s : State) (slot : Nat) : State :=
  (s.tiles.flatMap (fun (e : Nat × Tile) => e.2.out.queues.flatMap (fun (q : Nat × Queue) =>
    if q.2.lslot = slot then q.2.pend.map (fun (p : Nat × Nat) => p.2) else []))).foldl
    (fun (s : State) (id : Nat) => finish s id none) s

/-- The pins that a completed launch holds at each controller are released (R389). -/
def dropPins (s : State) (slot : Nat) : State :=
  (List.range 4).foldl (fun (s : State) (q : Nat) => setLife s q (releasePins (lifeAt s q) slot)) s

/-- Whether a controller at which a launch holds pins must wait for a page (R246). -/
def pinsWait (s : State) (slot : Nat) : Bool :=
  (List.range 4).any (fun q => lifeStalls s q && (lifeAt s q).pins.any (fun (e : Nat × Pin) => e.2.lslot == slot))

/-- LAUNCH_COMPLETE (R327): `who` is the launch slot. The port of the launch's queue injects the arrival at
DONE (R26). STATUS waits for an exchange or a repair that holds its row, and an offline page takes none (R246,
R249, R373). -/
def tryLaunchComplete (s : State) : Option State :=
  let slot := s.ev.who
  match s.launch slot with
  | none => none
  | some l =>
    if !launchDone s slot l || stalled s l.statusKey || pinsWait s slot then none
    else
      let s0 := dropPins (ackDropped s slot) slot
      let st := bytesLE 1 (if l.failed then 6 else 5)
      let s1 := { (if pageOff s0 l.statusKey then s0 else homeWrite s0 l.statusKey st) with
        launches := tabDel s0.launches slot
        mgmt := { s0.mgmt with restoring := s0.mgmt.restoring.filter (fun i => i != slot) } }
      let s2 := { s1 with tiles := s1.tiles.map (fun (e : Nat × Tile) => (e.1, dropAtTile slot e.2)) }
      let done := natAt l.record 40 8
      let bar : Option Bar := if done.testBit 0 then some ⟨tileAt (nfld done 32 5) (nfld done 40 5), 16 * nfld done 4 17⟩
        else none
      some (sendArrival s2 (homeTile l.statusKey) slot bar l.failed l.failed.toNat 0)

/-- LAUNCH_COMPLETE (R327). -/
def execLaunchComplete (s : State) : Outcome State Fault Refusal := eventStep tryLaunchComplete s

end Sys2Proof.Machine
end

