-- ==== Sys2Proof/Machine/Mgmt.lean ====
section
/-! DEFINITION. The host and the management controller: device memory over CXL.mem, the Xaold
ports, the mailbox and its commands, the error log, boot, power and heat (R416-R429). -/

namespace Sys2Proof.Machine

open Host (Outcome)

/-! ### Device memory from outside (R417, R424, R427) -/

/-- The key of an HDM offset (R417). -/
def hdmKey (o : Nat) : Nat := keyVault (o / 2 ^ 29) (o / 2 ^ 16 % 8192) (o % 2 ^ 16)

/-- The bytes of an access that lie in one 64-byte line. -/
def lineLen (o n : Nat) : Nat := min n (64 - o % 64)

/-- What an outside access returned. -/
def busReturn (s : State) (b : List Byte) (bad : Bool) : State :=
  { s with mgmt := { s.mgmt with busReply := b, busError := bad } }

/-- Whether CXL.mem and peer accesses are not performed: in SLEEP (R427), and where the boot has failed (R426),
where they complete with poison too (DESIGN CHOICE, log 69). -/
def memoryClosed (s : State) : Bool := !s.booted || s.mgmt.power == .sleep

/-- A read at an HDM offset, performed at its home; a page with V = 0, and any access in SLEEP, returns
poison (R417, R427). -/
def outsideRead (s : State) (o n : Nat) : Option State :=
  let k := hdmKey o
  let m := lineLen o n
  if 2 ^ 39 ≤ o || decide (m = 0) then none
  else if pageOff s k || memoryClosed s then some (busReturn s (Config.freeBytes s.fresh 0 m) true)
  else if stalled s k then none
  else
    let (s1, bad) := unitRead s k m
    some (busReturn (touchPage s1 k m) (if bad then Config.freeBytes s.fresh 0 m else visRead s1 k m) bad)

/-- A write at an HDM offset. A write to a page with V = 0 is dropped and logged (R417); in SLEEP it
completes with poison and nothing is written (R427). -/
def outsideWrite (s : State) (o : Nat) (b : List Byte) : Option State :=
  let k := hdmKey o
  let w := b.take (lineLen o b.length)
  if 2 ^ 39 ≤ o || w.isEmpty then none
  else if memoryClosed s then some (busReturn s [] true)
  else if pageOff s k then some (busReturn (logAt s 0x0C Cause.page.code (homeTile k) 0 o 0) [] false)
  else if stalled s k then none
  else some (busReturn (performStore s k w 0) [] false)

/-- HDM_READ (R417): `who` is the bridge, `idx` the offset and `val` the length, within one 64-byte
line. -/
def execHdmRead (s : State) : Outcome State Fault Refusal := eventStep (fun s => outsideRead s s.ev.idx s.ev.val) s

/-- HDM_WRITE (R417): `who` is the bridge, `idx` the offset, `bytes` the data, within one 64-byte
line. -/
def execHdmWrite (s : State) : Outcome State Fault Refusal := eventStep (fun s => outsideWrite s s.ev.idx s.ev.bytes) s

/-- An atomic add of 8 bytes (R330, R424); the old value returns. -/
def outsideAdd (s : State) (o : Nat) (b : List Byte) : Option State :=
  match outsideRead s o 8 with
  | none => none
  | some s1 =>
    if s1.mgmt.busError || o % 8 ≠ 0 then some s1
    else
      let old := natLE s1.mgmt.busReply
      (outsideWrite s1 o (bytesLE 8 ((old + natLE b) % 2 ^ 64))).map (fun s2 => busReturn s2 (bytesLE 8 old) false)

/-- PEER_INBOUND_ACCESS (R424): `who` is the port. -/
def tryPeerInboundAccess (s : State) : Option State :=
  let p := s.ev.who
  let s := crossPort s (1032 + p)
  if 8 ≤ p then none
  else if !s.mgmt.peerMask.testBit p || s.mgmt.portDown.contains p then some (busReturn s [] true)
  else if !s.ev.flag then outsideRead s s.ev.idx s.ev.val
  else if s.ev.flag2 then outsideAdd s s.ev.idx s.ev.bytes
  else outsideWrite s s.ev.idx s.ev.bytes

/-- PEER_INBOUND_ACCESS (R424). -/
def execPeerInboundAccess (s : State) : Outcome State Fault Refusal := eventStep tryPeerInboundAccess s

/-- The packets in flight on the link of a Xaold port. -/
def portPackets (s : State) (p : Nat) : List Nat :=
  (s.pkts.filter (fun (e : Nat × Packet) => e.2.dst == 1032 + p && e.2.place != .done && e.2.place != .source &&
    e.2.place != .lost)).map (fun e => e.1)

/-- The replays of flit `i` at a Xaold port are counted under this key (R424). -/
def xaoldKey (p i : Nat) : Nat := 2 ^ 20 + 8 * i + p

/-- XAOLD_FLIT_ERROR (R424, R425, R429): `who` is the port and `idx` the flit's number there. The flit is
replayed; after 16 replays the link goes down, and what is in flight on it is NACKed. -/
def tryXaoldFlitError (s : State) : Option State :=
  let p := s.ev.who
  if 8 ≤ p || s.mgmt.portDown.contains p then none
  else
    let s1 := if injHits s 4 p 0 then injFire s 0 p else s
    let k := xaoldKey p s.ev.idx
    let n := tabGet 0 s1.mgmt.replays k + 1
    if n ≤ 16 then some { s1 with mgmt := { s1.mgmt with replays := tabSet s1.mgmt.replays k n } }
    else
      let s2 := logAt { s1 with mgmt := { s1.mgmt with
        replays := tabDel s1.mgmt.replays k, portDown := p :: s1.mgmt.portDown } } 9 0 0 0 p 1
      some ((portPackets s2 p).foldl (fun (s : State) (id : Nat) => lose s id (1032 + p) false) s2)

/-- XAOLD_FLIT_ERROR (R424). -/
def execXaoldFlitError (s : State) : Outcome State Fault Refusal := eventStep tryXaoldFlitError s

/-! ### The mailbox (R419, R420) -/

/-- BUSY. -/
def Mgmt.busy (m : Mgmt) : Bool := m.mbStatus.getLsbD 0
/-- OPC. -/
def Mgmt.opc (m : Mgmt) : Nat := fld m.mbCmd 0 16
/-- TAG. -/
def Mgmt.tag (m : Mgmt) : Nat := fld m.mbCmd 16 16
/-- LEN. -/
def Mgmt.len (m : Mgmt) : Nat := fld m.mbCmd 32 12
/-- Byte `i` of the payload buffer. -/
def Mgmt.buf (m : Mgmt) (i : Nat) : Nat := (storeGet (0 : Byte) m.mbBuf i).toNat
/-- The little-endian number in `n` bytes of the buffer. -/
def Mgmt.bufAt (m : Mgmt) (i n : Nat) : Nat := natLE (storeRead 0 m.mbBuf i n)

/-- A byte of BAR0 as the host reads it (R7, R419): MB_CMD, MB_STATUS with BUSY from GO on, and the payload
buffer; MB_GO is write-only and every other offset reads as zero. -/
def bar0Byte (m : Mgmt) (o : Nat) : Byte :=
  if o < 8 then (bytesLE 8 m.mbCmd.toNat).getD o 0
  else if 0x10 ≤ o ∧ o < 0x18 then
    (bytesLE 8 (m.mbStatus ||| BitVec.ofNat 64 m.go.toNat).toNat).getD (o - 0x10) 0
  else if 0x100 ≤ o ∧ o < 0x1000 then storeGet (0 : Byte) m.mbBuf (o - 0x100)
  else 0

/-- What a host read of `n` bytes of BAR0 returns (R419); it changes nothing. -/
def bar0Read (m : Mgmt) (o n : Nat) : List Byte := (List.range n).map (fun i => bar0Byte m (o + i))

/-- Whether a write of bytes at an offset of BAR0 writes 1 to GO (R419). -/
def writesGo (o : Nat) (b : List Byte) : Bool := decide (o ≤ 8) && (b.getD (8 - o) 0).getLsbD 0

/-- MAILBOX_REGISTER_WRITE (R419): `who` is the offset in BAR0. MB_CMD and the payload buffer take a write,
and 1 in MB_GO starts the command in MB_CMD, unless BUSY (R420). -/
def tryMailboxRegisterWrite (s : State) : Option State :=
  let o := s.ev.who
  let b := s.ev.bytes
  let m := s.mgmt
  let cmd := overlay (bytesLE 8 m.mbCmd.toNat) 0 o b
  let buf := storePuts (0 : Byte) m.mbBuf ((b.zipIdx.filter (fun (e : Byte × Nat) =>
    decide (0x100 ≤ o + e.2 ∧ o + e.2 < 0x1000))).map (fun (e : Byte × Nat) => (o + e.2 - 0x100, e.1)))
  some { s with mgmt := { m with
      mbCmd := BitVec.ofNat 64 (natLE cmd % 2 ^ 44), mbBuf := buf
      go := m.go || (!m.busy && writesGo o b) } }

/-- MAILBOX_REGISTER_WRITE (R419). -/
def execMailboxRegisterWrite (s : State) : Outcome State Fault Refusal := eventStep tryMailboxRegisterWrite s

/-- A command completes: the result in the buffer, then MB_STATUS, then vector 0 (R420). -/
def complete (s : State) (tag result : Nat) (out : List Byte) : State :=
  let m := s.mgmt
  { s with mgmt := { m with
    mbBuf := storeWrite (0 : Byte) m.mbBuf 0 out
    mbStatus := BitVec.ofNat 64 (tag * 2 ^ 16 + result * 2 ^ 8)
    msix0 := m.msix0 + 1 } }

/-- A command that ends at once, with its TAG. -/
def answer (s : State) (result : Nat) (out : List Byte) : State := complete s s.mgmt.tag result out

/-- The command that GO has started: it runs alone (R420); refused where the boot has failed
(R426); BAD_ARG where LEN is out of range or the payload is too short (R421). -/
def mailCmd (opc need : Nat) (f : State → State) (s : State) : Option State :=
  let s1 := { s with mgmt := { s.mgmt with go := false } }
  if !s.mgmt.go || s.mgmt.busy || s.mgmt.opc != opc then none
  else if !s.booted && opc != 1 then some (answer s1 3 [])
  else if 3840 < s.mgmt.len || decide (s.mgmt.len < need) then some (answer s1 2 [])
  else some (f s1)

/-- READ_LOG (R421): up to 60 entries, oldest first, removed; LEN becomes their bytes. -/
def execReadLog (s : State) : Outcome State Fault Refusal :=
  eventStep (mailCmd 1 0 (fun s =>
    let l := s.mgmt.log.take 60
    let s1 := answer s 0 l.flatten
    { s1 with mgmt := { s1.mgmt with log := s.mgmt.log.drop 60, mbCmd := putFld s1.mgmt.mbCmd 32 12 (64 * l.length) } })) s

/-- READ_COUNTERS (R421): the event counters, then the performance counters, of tile (x, y). -/
def execReadCounters (s : State) : Outcome State Fault Refusal :=
  eventStep (mailCmd 2 2 (fun s =>
    let x := s.mgmt.buf 0
    let y := s.mgmt.buf 1
    if 32 ≤ x ∨ 32 ≤ y then answer s 2 []
    else
      let t := s.tile (tileAt x y)
      answer s 0 ((t.evc ++ t.perf).flatMap (bytesLE 8)))) s

/-- Selects the performance events of a tile; its counters restart. -/
def selectAt (sel : List Nat) (x : Tile) : Tile := { x with perfSel := sel, perf := List.replicate 8 0 }

/-- SELECT_PERF (R421): one tile, or every tile. -/
def execSelectPerf (s : State) : Outcome State Fault Refusal :=
  eventStep (mailCmd 3 10 (fun s =>
    let x := s.mgmt.buf 0
    let y := s.mgmt.buf 1
    let sel := (List.range 8).map (fun i => s.mgmt.buf (2 + i))
    if sel.any (fun v => decide (8 ≤ v)) then answer s 2 []
    else if x = 0xFF ∧ y = 0xFF then
      answer ((List.range 1024).foldl (fun (s : State) (t : Nat) => s.modTile t (selectAt sel)) s) 0 []
    else if 32 ≤ x ∨ 32 ≤ y then answer s 2 []
    else answer (s.modTile (tileAt x y) (selectAt sel)) 0 [])) s

/-! ### Power (R427, R428) -/

/-- Whether a tile of a launch is offline. -/
def onLostTile (s : State) (l : Launch) : Bool :=
  s.tiles.any (fun (x : Nat × Tile) => x.2.offline && inRect l.record x.1)

/-- Inserts a launch by the time it was saved. -/
def insertSaved (e : Nat × Launch) : List (Nat × Launch) → List (Nat × Launch)
  | [] => [e]
  | x :: r => if e.2.savedAt ≤ x.2.savedAt then e :: x :: r else x :: insertSaved e r

/-- The launches that the scheduler holds, in the order in which they were saved. -/
def heldLaunches (s : State) : List Nat :=
  ((s.launches.filter (fun (e : Nat × Launch) => e.2.state == .preempted false && !onLostTile s e.2)).foldr
    insertSaved []).map (fun e => e.1)

/-- SET_POWER (R427). -/
def setPowerTo (s : State) (goal : Nat) : State :=
  let set := fun (s : State) (p : Power) => { s with mgmt := { s.mgmt with power := p } }
  match goal, s.mgmt.power with
  | 0, .reduced => answer (set s .active) 0 []
  | 0, .quiesced =>
    let s1 := { s with mgmt := { s.mgmt with power := .active, restoring := heldLaunches s } }
    answer ((heldLaunches s).foldl (fun (s : State) (l : Nat) => resumeLaunch s l) s1) 0 []
  | 1, .active => answer (set s .reduced) 0 []
  | 2, .active | 2, .reduced =>
    let s1 := s.launches.foldl (fun (s : State) (e : Nat × Launch) => preemptLaunch s e.1 false) s
    { s1 with mgmt := { s1.mgmt with
      power := .quiescing, quiesceTag := s.mgmt.tag, mbStatus := s1.mgmt.mbStatus ||| 1 } }
  | 2, .sleep => answer (set s .quiesced) 0 []
  | 3, .quiesced => answer (set s .sleep) 0 []
  | n, _ => answer s (if 4 ≤ n then 2 else 3) []

/-- SET_POWER (R427): the state is byte 0 of the payload. -/
def execSetPower (s : State) : Outcome State Fault Refusal :=
  eventStep (mailCmd 0x10 1 (fun s => setPowerTo s (s.mgmt.buf 0))) s

/-- Whether every save is done: no context runs, waits or releases, what the interfaces keep of ended copies is
compared (R57), and no pre-empted launch with a
save area holds a matrix unit (R412, R427). -/
def allSaved (s : State) : Bool :=
  s.ctxs.all (fun (e : Nat × Ctx) => parkedDone e || e.2.st == .free || e.2.st == .saved) &&
  s.tiles.all (fun (e : Nat × Tile) => match e.2.matrix.holder.bind s.launch with
    | some l => msaveOf l e.1 == 0
    | none => true)

/-- QUIESCE_COMPLETE (R427). -/
def tryQuiesceComplete (s : State) : Option State :=
  if s.mgmt.power == .quiescing && allSaved s then
    some (complete { s with mgmt := { s.mgmt with power := .quiesced } } s.mgmt.quiesceTag 0 [])
  else none

/-- QUIESCE_COMPLETE (R427). -/
def execQuiesceComplete (s : State) : Outcome State Fault Refusal := eventStep tryQuiesceComplete s

/-- READ_THERMAL (R421): for each stack the highest temperature and state of its vaults and the
temperature of its compute die, a byte each. -/
def execReadThermal (s : State) : Outcome State Fault Refusal :=
  eventStep (mailCmd 0x11 0 (fun s =>
    answer s 0 ((List.range 4).flatMap (fun q =>
      let ts := s.tiles.filter (fun (e : Nat × Tile) => stackOf e.1 == q)
      let temp := ts.foldl (fun (m : Nat) (e : Nat × Tile) => max m e.2.dramTemp) 0
      let st := ts.foldl (fun (m : Nat) (e : Nat × Tile) => max m e.2.thermal.num) 0
      bytesLE 1 temp ++ bytesLE 1 st ++ bytesLE 1 (s.mgmt.dieTemp.getD q 0))))) s

/-! ### Launches (R404, R412, R421) -/

/-- A command that names a resident launch by its slot. -/
def slotCmd (opc : Nat) (f : State → Nat → Launch → State) (s : State) : Option State :=
  mailCmd opc 2 (fun s =>
    let slot := s.mgmt.bufAt 0 2
    match s.launch slot with
    | some l => f s slot l
    | none => answer s 2 []) s

/-- PREEMPT (R412). A launch that the scheduler holds then waits for the host's RESUME. -/
def execPreempt (s : State) : Outcome State Fault Refusal :=
  eventStep (slotCmd 0x20 (fun s slot l =>
    answer (if l.saved then s.setLaunch slot { l with state := .preempted true } else preemptLaunch s slot true) 0 [])) s

/-- Cancels the orders to save that have not been met. -/
def cancelSaves (s : State) (slot : Nat) : State :=
  { s with ctxs := s.ctxs.map (fun (e : Nat × Ctx) =>
      if e.2.lslot = slot then (e.1, { e.2 with saveDue := false }) else e) }

/-- RESUME (R412, R427): a launch that PREEMPT saved. While the module is quiesced the launch waits for
the return to ACTIVE. -/
def execResume (s : State) : Outcome State Fault Refusal :=
  eventStep (slotCmd 0x21 (fun s slot l =>
    if l.state != .preempted true then answer s 3 []
    else if (s.mgmt.power == .active || s.mgmt.power == .reduced) && !onLostTile s l then
      answer (cancelSaves (resumeLaunch s slot) slot) 0 []
    else answer (s.setLaunch slot { l with state := .preempted false }) 0 [])) s

/-- Kills the contexts of a launch (R404). -/
def killLaunch (s : State) (slot : Nat) : State :=
  s.ctxs.foldl (fun (s : State) (e : Nat × Ctx) =>
    let c := s.ctx e.1
    if c.lslot = slot && c.act != 0 && (c.st == .run || c.st == .wait || c.st == .saved) then
      commandKill s e.1
    else s) s

/-- KILL (R404, R421). -/
def execKill (s : State) : Outcome State Fault Refusal :=
  eventStep (slotCmd 0x22 (fun s slot _ => answer (killLaunch s slot) 0 [])) s

/-! ### Routes, peers, attestation, injection -/

/-- Whether the controller refuses a route-class entry (R375). -/
def routeBad (cls e : Nat) : Bool :=
  let urg := e.testBit 3
  nfld e 4 2 == 3 || (urg && (decide (cls ≤ 11) || cls == 14)) || (cls == 15 && !urg)

/-- SET_ROUTE (R375): a change applies only while every launch is pre-empted. -/
def execSetRoute (s : State) : Outcome State Fault Refusal :=
  eventStep (mailCmd 0x30 2 (fun s =>
    let c := s.mgmt.buf 0
    let e := s.mgmt.buf 1 &&& 0x3B
    if 16 ≤ c then answer s 2 []
    else if routeBad c e || s.launches.any (fun (x : Nat × Launch) => !x.2.saved) then answer s 3 []
    else answer { s with routes := s.routes.set c (BitVec.ofNat 8 e) } 0 [])) s

/-- PEER_ENABLE (R424). -/
def execPeerEnable (s : State) : Outcome State Fault Refusal :=
  eventStep (mailCmd 0x31 1 (fun s =>
    answer { s with mgmt := { s.mgmt with peerMask := s.mgmt.buf 0 } } 0 [])) s

/-- ATTEST (R426): the nonce, the digests of both images, which the boot has made, the index, and the
signature, a free value (DESIGN CHOICE, log 6). The stored index advances before the
report is given. -/
def execAttest (s : State) : Outcome State Fault Refusal :=
  eventStep (mailCmd 0x40 32 (fun s =>
    let i := s.mgmt.oneTimeKey
    if 2 ^ 20 ≤ i then answer s 4 []
    else
      let report := storeRead 0 s.mgmt.mbBuf 0 32 ++ (padTo 64 s.mgmt.digest).take 64 ++ bytesLE 4 i ++
        Config.freeBytes s.fresh 64 2820
      answer { s with mgmt := { s.mgmt with oneTimeKey := i + 1 } } 0 report)) s

/-- Whether an injection word is outside its limits (R429). -/
def injectBad (w : Nat) : Bool :=
  let k := nfld w 60 3
  decide (5 ≤ k) || (w.testBit 59 && decide (2 ≤ k)) || (k == 0 && decide (128 ≤ nfld w 37 8)) ||
  (k == 4 && (nfld w 50 5 != 0 || decide (8 ≤ nfld w 45 5)))

/-- INJECT (R429): a new word replaces the old; its reserved bits stay zero. -/
def execInject (s : State) : Outcome State Fault Refusal :=
  eventStep (mailCmd 0x50 8 (fun s =>
    let w := s.mgmt.bufAt 0 8
    if injectBad w then answer s 2 []
    else answer { s with mgmt := { s.mgmt with inject := BitVec.ofNat 64 (w / 2 ^ 37 * 2 ^ 37) } } 0 [])) s

/-- The command codes of R421. -/
def mailCodes : List Nat := [1, 2, 3, 0x10, 0x11, 0x20, 0x21, 0x22, 0x30, 0x31, 0x40, 0x50]

/-- BAD_OPC (R420, R421): GO with an undefined command code. -/
def tryBadOpc (s : State) : Option State :=
  if !s.mgmt.go || s.mgmt.busy || mailCodes.contains s.mgmt.opc then none
  else some (answer { s with mgmt := { s.mgmt with go := false } } (if s.booted then 1 else 3) [])

/-- BAD_OPC (R420). -/
def execBadOpc (s : State) : Outcome State Fault Refusal := eventStep tryBadOpc s

/-- IDE_KM (R416): `bytes` are the keys. -/
def execIdeKm (s : State) : Outcome State Fault Refusal :=
  eventStep (fun s => some { s with mgmt := { s.mgmt with ideKeys := s.ev.bytes } }) s

/-! ### The error log (R422) -/

/-- The kill reports whose activations have nothing left to be performed are posted (R297). -/
def postKills (s : State) : State :=
  let due := s.mgmt.kills.filter (fun (e : Nat × List Byte) => !actFlying s e.1)
  due.foldl (fun (s : State) (e : Nat × List Byte) => postLog s e.2)
    { s with mgmt := { s.mgmt with kills := s.mgmt.kills.filter (fun (e : Nat × List Byte) => actFlying s e.1) } }

/-- ERROR_LOG_POST (R422): the oldest waiting entry enters the log when there is room; vector 1 is
raised (R416). -/
def tryErrorLogPost (s : State) : Option State :=
  let s1 := postKills s
  match s1.mgmt.logWait with
  | [] => none
  | e :: r =>
    if 4096 ≤ s1.mgmt.log.length then none
    else some { s1 with mgmt := { s1.mgmt with
      log := s1.mgmt.log ++ [e], logWait := r, msix1 := s1.mgmt.msix1 + 1 } }

/-- ERROR_LOG_POST (R422). -/
def execErrorLogPost (s : State) : Outcome State Fault Refusal := eventStep tryErrorLogPost s

/-! ### Boot (R426) -/

/-- The step at which the boot fails: 1 the firmware image, 2 the configuration image, 3 its version;
0 where it succeeds. -/
def bootFailure (s : State) : Nat :=
  if !s.ev.flag then 1 else if !s.ev.flag2 then 2 else if s.ev.img.version < s.mgmt.minVersion then 3 else 0

/-- The module after reset, before the boot verification: what the non-volatile store keeps, and the
model's own schedule. -/
def resetState (s : State) : State :=
  let r := { State.reset with
    agenda := s.agenda, ev := s.ev, fresh := s.fresh
    mgmt := { Mgmt.reset with minVersion := s.mgmt.minVersion, oneTimeKey := s.mgmt.oneTimeKey } }
  match s.mgmt.overtemp with
  | some (q, temp) => logAt r 0x0C 0 0 0 q temp
  | none => r

/-- The tiles with the rows that the repair data retires (R249). -/
def repaired (l : List (Nat × Nat × Nat × Nat)) : List (Nat × Tile) :=
  l.foldl (fun (ts : List (Nat × Tile)) (e : Nat × Nat × Nat × Nat) =>
    let x := tabGet Tile.reset ts e.1
    let r : Row := ⟨e.2.1, e.2.2.1, e.2.2.2⟩
    tabSet ts e.1 { x with retired := (r, nextSpare x r) :: x.retired }) []

/-- A tile-map entry that the image gives: reserved bits are zero (R8), and a PHYS that names no physical tile
leaves the logical tile unmapped (R374; DESIGN CHOICE, log 74). -/
def mapFrom (e : BitVec 16) : BitVec 16 := if 264 ≤ fld e 0 9 then 0 else e &&& 0x81FF

/-- Route-class entry `c` that the image gives: one that the table refuses leaves the value before the boot
(R365; DESIGN CHOICE, log 74). -/
def routeFrom (l : List (BitVec 8)) (c : Nat) : BitVec 8 :=
  let e := l.getD c 0 &&& 0x3B
  if routeBad c e.toNat then State.reset.routes.getD c 0 else e

/-- The SHAKE256 digests of the two images (R426): functions of the images alone that the model leaves open
(DESIGN CHOICE, log 6). -/
def imageDigests (firmware : List Byte) (img : CfgImage) : List Byte :=
  (List.range 32).map (Config.firmwareDigest firmware) ++ (List.range 32).map (Config.configDigest img)

/-- MODULE_RESET (R426): `flag` and `flag2` say that the signatures of the firmware and of the
configuration image hold; `bytes` is the firmware image and `img` the configuration. -/
def tryModuleReset (s : State) : Option State :=
  let r := resetState s
  let c := s.ev.img
  match bootFailure s with
  | 0 =>
    some { r with
      tiles := repaired c.repair, tileMap := c.tileMap.map (fun m => m.map mapFrom)
      routes := (List.range 16).map (routeFrom c.routes), pools := c.pools, nodeAreas := c.nodes
      queues := (List.range 16).map (fun i =>
        let q := c.queues.getD i (0, 0)
        (⟨q.1, q.2, 0, 0, [], []⟩ : LaunchQueue))
      booted := true
      mgmt := { r.mgmt with minVersion := c.version, version := c.version, power := .active, digest := imageDigests s.ev.bytes c } }
  | n => some (logAt r 0x0C 0 0 0 0 n)

/-- MODULE_RESET (R426). -/
def execModuleReset (s : State) : Outcome State Fault Refusal := eventStep tryModuleReset s

/-! ### The interlock and the compute dies (R428) -/

/-- HOBBLE_WINDOW (R428): `who` is the tile and `idx` the quadrant whose two members contend; `flag` says
that the matrix array's oldest operation is the older, `flag2` that they tie. -/
def tryHobbleWindow (s : State) : Option State :=
  let t := s.ev.who
  let k := s.ev.idx % 4
  let x := s.tile t
  let halve : Bool := if s.ev.flag2 then !(x.halvedMatrix.getD k false) else !s.ev.flag
  some (countEvent (s.setTile t { x with halvedMatrix := x.halvedMatrix.set k halve }) t 3)

/-- HOBBLE_WINDOW (R428). -/
def execHobbleWindow (s : State) : Outcome State Fault Refusal := eventStep tryHobbleWindow s

/-- COMPUTE_DIE_OVERTEMP (R428): `who` is the stack and `idx` the temperature of its compute die. -/
def tryComputeDieOvertemp (s : State) : Option State :=
  let q := s.ev.who
  let temp := s.ev.idx
  let s1 := { s with mgmt := { s.mgmt with dieTemp := s.mgmt.dieTemp.set q temp } }
  let s2 := if 110 ≤ temp then logAt s1 0x0C 0 0 0 q temp else s1
  some (if 125 ≤ temp then { s2 with mgmt := { s2.mgmt with power := .removed, overtemp := some (q, temp) } } else s2)

/-- COMPUTE_DIE_OVERTEMP (R428). -/
def execComputeDieOvertemp (s : State) : Outcome State Fault Refusal := eventStep tryComputeDieOvertemp s

end Sys2Proof.Machine
end

