-- ==== Sys2Proof/Machine/Auto.lean ====
section
/-! DEFINITION. Whose turn it is: the bundle in progress, then the agenda, then by turns the default
progress of the units and the contexts (DESIGN CHOICE, log 1). -/

namespace Sys2Proof.Machine

/-- Counts a pcyc of each context in WAIT (R396). -/
def countWaits (s : State) : State :=
  s.ctxs.foldl (fun (s : State) (e : Nat × Ctx) => if e.2.st = .wait then countPerf s (tileOf e.1) 1 1 else s) s

/-- One pcyc passes (R24, DESIGN CHOICE, log 7); the counter of the free values advances (DESIGN CHOICE, log 6). -/
def tick (s : State) : State := countWaits { s with cycle := s.cycle + 1, fresh := s.fresh + 1 }

/-- Whether an instruction is a device event: no head encodes it. -/
def isEvent (i : Instr) : Bool :=
  match i with
  | .illegalOpcode .. => false
  | i => (instrParts i).isNone

/-- The first context from a list of table entries that may go on. -/
def firstCtx (l : List (Nat × Ctx)) : Option Nat :=
  (l.find? (fun (e : Nat × Ctx) => e.2.st == .run || e.2.st == .wait)).map (fun e => e.1)

/-- The next context after the current one, in turn. -/
def nextCtx (s : State) : Option Nat :=
  match firstCtx (s.ctxs.filter (fun (e : Nat × Ctx) => decide (s.cur < e.1))) with
  | some g => some g
  | none => firstCtx s.ctxs

/-! ### The processors (R29) -/

/-- Whether a context is in RUN with a bundle to issue. -/
def canIssue (s : State) (g : Nat) : Bool := (s.ctx g).st == .run && !heldBack s g

/-- The context that the processor of context `g` issues from: round-robin, starting after the one that issued
last (R29). -/
def pickCtx (s : State) (g : Nat) : Option Nat :=
  let last := (s.tile (tileOf g)).lastIssued.getD (g % 16 / 4) 0
  ((List.range 4).map (fun i => g / 4 * 4 + (last + 1 + i) % 4)).find? (canIssue s)

/-- A context issues: its processor goes on after it. -/
def noteIssue (s : State) (g : Nat) : State :=
  s.modTile (tileOf g) (fun x => { x with lastIssued := x.lastIssued.set (g % 16 / 4) (g % 4) })

/-- A turn that names a context: a waiting one tests its wait, for a running one its processor issues
(R29). -/
def turnOf (s : State) (g : Nat) : Issue :=
  if (s.ctx g).st == .run then
    match pickCtx s g with
    | some h => issueCtx (noteIssue { s with cur := h } h) h
    | none => .done s
  else issueCtx s g

/-! ### The default schedule of the units (DESIGN CHOICE, log 1) -/

/-- A candidate: an event, what it concerns, and what it would do. -/
abbrev Cand := Instr × EventArg × (State → Option State)

/-- A candidate for agent `who` and entry `idx`. -/
def cand (i : Instr) (who idx : Nat) (f : State → Option State) : Cand := (i, { EventArg.none with who := who, idx := idx }, f)

/-- The event by which a home performs item `i`. -/
def itemCand (h i : Nat) : Work → Cand
  | .store .. | .engWrite .. | .outWrite .. | .nothing => cand .storePerform h i tryStorePerform
  | .atomic .. => cand .localAtomicPerform h i tryLocalAtomicPerform
  | .remote r =>
    if r.opc = 0xCF then cand .agentRld h i (takeRequest 0xCF)
    else if r.opc = 0xD0 then cand .agentRst h i (takeRequest 0xD0)
    else if r.opc = 0xD1 then cand .agentRred h i (takeRequest 0xD1)
    else if r.opc = 0xD2 then cand .agentRredRk h i (takeRequest 0xD2)
    else if r.opc = 0xD3 then cand .agentRcas h i (takeRequest 0xD3)
    else if r.opc = 0xD4 then cand .agentRsax h i (takeRequest 0xD4)
    else if r.opc = 0xDA then cand .agentRfill h i (takeRequest 0xDA)
    else cand .agentRldb h i (takeRequest 0xDB)
  | .guardBits .. => cand .guardBitsPerform h i tryGuardBitsPerform
  | .msg _ => cand .messageArrival h i tryMessageArrival
  | .joinAdd .. => cand .joinCountAdd h i tryJoinCountAdd
  | .task _ => cand .dequePush h i tryDequePush
  | .decz .. => cand .deczPerform h i tryDeczPerform
  | .ringPut _ => cand .ringPutPerform h i tryRingPutPerform
  | .launchRec w => cand .launchQueueWrite w.queue 0 (fun s => (tryLaunchQueueWrite s).or (tryLaunchHold s))
  | .matrix _ => cand .matrixCmdArrival h i tryMatrixCmdArrival
  | .osub _ => cand .osubPerform h i tryOsubPerform
  | .cswap _ => cand .cableSwapStart h i tryCableSwapStart
  | .tbinit .. => cand .tbinitPerform h i (fun s => (item s h i).map (fun _ => s))
  | .tbexp .. => cand .tbexpPerform h i (fun s => (item s h i).map (fun _ => s))
  | .arrival .. => cand .barrierArrival h i (fun s => (item s h i).map (fun _ => s))
  | .sectors .. => cand .sectorCompletion h i (fun s => (item s h i).map (fun _ => s))
  | .lifeline _ => cand .lifelineEntryRequest h i tryLifelineEntryRequest
  | .reply _ => cand .replyArrival h i tryReplyArrival
  | .lifeReply .. => cand .lifelineReply h i tryLifelineReply

/-- The items of every home. -/
def itemCands (s : State) : List Cand :=
  s.inbox.zipIdx.filterMap (fun (e : (Nat × Nat) × Nat) =>
    (s.pkt e.1.2).map (fun p =>
      itemCand e.1.1 ((s.inbox.take e.2).filter (fun x => x.1 == e.1.1)).length p.work))

/-- The movements of a packet. -/
def pktCands (id : Nat) (p : Packet) : List Cand :=
  match p.place with
  | .source => [cand .packetInject id 0 tryPacketInject]
  | .round .. =>
    cand .escapeArrival id 0 tryEscapeArrival :: cand .escapeEnter id 0 tryEscapeEnter ::
      cand .packetInject id 0 tryPacketInject ::
      (if 16 ≤ p.waited then [cand .ejectTimeout id 0 tryEjectTimeout] else []) ++
      (List.range p.flits.length).map (fun i => cand .flitAdvance id i tryFlitAdvance)
  | .clos .. => [cand .closForward id 0 tryClosForward]
  | .ejected => [cand .packetArrival id 0 tryPacketArrival]
  | _ => []

/-- The contexts' units. -/
def ctxCands (g : Nat) (c : Ctx) : List Cand :=
  (if c.groups.isEmpty then [] else
    [cand .releaseAccept g 0 tryReleaseAccept, cand .spanHashCompare g 0 trySpanHashCompare]) ++
  (if c.saveDue then [cand .contextSave g 0 tryContextSave] else []) ++
  (match c.waiting with
   | .stackGrow _ => [cand .stackGrowService g 0 tryStackGrowService]
   | _ => []) ++
  (if c.st = .saved then [cand .contextRestore g (g % 16 + 16 * ((c.twin.getD 0) % 16)) tryContextRestore] else []) ++
  ((List.range 8).filter (fun k => !(c.streams.toList.getD k Stream.idle).isIdle)).map (fun k =>
    cand .pacerRead g k tryPacerRead)

/-- The units of a tile. -/
def tileCands (t : Nat) (x : Tile) : List Cand :=
  let u := fun (b : Bool) (l : List Cand) => if b then l else []
  u (!x.merge.isEmpty) [cand .writeMergeDrain t 0 (fun s => drainOne s t)] ++
  u (x.agent.isSome) [cand .agentRfill t 0 (continueBlock 0xDA), cand .agentRldb t 0 (continueBlock 0xDB),
    cand .agentRemapResume t 0 tryAgentRemapResume] ++
  u (!x.joinSubs.isEmpty) [cand .taskJoinSubtract t 0 tryTaskJoinSubtract] ++
  u (!x.ready.isEmpty) [cand .readyRingConvert t 0 tryReadyRingConvert] ++
  u (!x.pushWait.isEmpty || !x.redeliver.isEmpty) [cand .dequePush t 0 tryDequePush] ++
  u (!x.redeliver.isEmpty) [cand .messageArrival t 0 tryMessageArrival] ++
  u (!x.puts.isEmpty) [cand .ringPutRetry t 0 tryRingPutRetry] ++
  u (!x.swaps.isEmpty) [cand .cableSwapComplete t 0 tryCableSwapComplete, cand .cableSwapStart t 0 tryCableSwapStart] ++
  u (x.repair.isSome) [cand .rowRepairComplete t 0 tryRowRepairComplete] ++
  u (!x.staging.isEmpty) [cand .stageWaitExpire t 0 tryStageWaitExpire] ++
  [cand .continuationEnqueue t 0 tryContinuationEnqueue, cand .dispatch t 0 tryDispatch]

/-- The matrix unit of a tile. -/
def matrixCands (t : Nat) (x : Tile) : List Cand :=
  let m := x.matrix
  if m.queue.isEmpty && m.cur.isNone && m.unit.tiles.isEmpty && m.holder.isNone then []
  else
    [cand .carriageStepResume t 0 tryCarriageStepResume, cand .castoffTile t 0 tryCastoffTile,
     cand .ringSlotCopy t 0 tryRingSlotCopy, cand .tringInstall t 0 tryTringInstall, cand .tldStep t 0 tryTldStep,
     cand .tstStep t 0 tryTstStep, cand .tdrainStep t 0 tryTdrainStep, cand .mmaStep t 0 tryMmaStep,
     cand .mmagStep t 0 tryMmagStep, cand .tcfgPerform t 0 tryTcfgPerform, cand .tzeroPerform t 0 tryTzeroPerform,
     cand .aclrPerform t 0 tryAclrPerform, cand .tchkPerform t 0 tryTchkPerform,
     cand .matrixCmdTake t 0 tryMatrixCmdTake, cand .matrixSwap t 0 tryMatrixSwap]

/-- The outrider of a tile. A queue whose control block holds an error waits for its repair. -/
def outCands (s : State) (t : Nat) (x : Tile) : List Cand :=
  (if x.subs.isEmpty then [] else [cand .osubPerform t 0 tryOsubPerform]) ++
  (x.out.queues.filter (fun (e : Nat × Queue) => !poisoned s (keyScratch t e.2.qcb) 32)).map (fun (e : Nat × Queue) =>
    cand .outriderAccept t e.1 tryOutriderAccept) ++
  (List.range x.out.cmds.length).flatMap (fun i =>
    [cand .outriderCmdStart t i tryOutriderCmdStart, cand .streamSlotFill t i tryStreamSlotFill,
     cand .copyTransfer t i tryCopyTransfer, cand .copyComplete t i tryCopyComplete, cand .listEnd t i tryListEnd,
     cand .listBranch t i tryListBranch, cand .listStart t i tryListStart])

/-- Idle tiles of a cluster in which a deque holds a record ask for one (R51). -/
def stealCands (s : State) : List Cand :=
  (s.tiles.filter (fun (e : Nat × Tile) => e.2.deques.any (fun d => !d.isEmpty))).flatMap (fun (e : Nat × Tile) =>
    (List.range 8).map (fun i => cand .stealRequest (tileOfStop (clusterOf e.1) i) s.cycle tryStealRequest))

/-- The control plane and the lifeline controllers. -/
def planeCands (s : State) : List Cand :=
  stealCands s ++
  (if s.mgmt.logWait.isEmpty && s.mgmt.kills.isEmpty then [] else [cand .errorLogPost 0 0 tryErrorLogPost]) ++
  (if s.mgmt.power = .quiescing then [cand .quiesceComplete 0 0 tryQuiesceComplete] else []) ++
  (if s.steals.isEmpty then [] else
    (List.range 1024).flatMap (fun t => [cand .stealServe t 0 tryStealServe, cand .stealReply t 0 tryStealReply])) ++
  (List.range s.queues.length).map (fun k => cand .launchRecordTake k 0 tryLaunchRecordTake) ++
  s.launches.flatMap (fun (e : Nat × Launch) =>
    [cand .keyedLookupResult e.1 0 tryKeyedLookupResult, cand .gangAdmit e.1 0 tryGangAdmit,
     cand .launchComplete e.1 0 tryLaunchComplete]) ++
  (List.range 4).flatMap (fun q => if (lifeAt s q).queue.isEmpty then [] else
    [cand .lfindPerform q 0 tryLfindPerform, cand .lputPerform q 0 tryLputPerform, cand .lrelPerform q 0 tryLrelPerform,
     cand .lstatReadPerform q 0 tryLstatReadPerform, cand .lstatConfigPerform q 0 tryLstatConfigPerform,
     cand .lstatClosePerform q 0 tryLstatClosePerform])

/-- The command that GO has started (R420). -/
def mailCands (s : State) : List Cand :=
  let start := fun (i : Instr) => [cand i 0 0 (fun s => if s.mgmt.busy then none else some s)]
  if !s.mgmt.go then []
  else
    match s.mgmt.opc with
    | 1 => start .readLog
    | 2 => start .readCounters
    | 3 => start .selectPerf
    | 0x10 => start .setPower
    | 0x11 => start .readThermal
    | 0x20 => start .preempt
    | 0x21 => start .resume
    | 0x22 => start .kill
    | 0x30 => start .setRoute
    | 0x31 => start .peerEnable
    | 0x40 => start .attest
    | 0x50 => start .inject
    | _ => start .badOpc

/-- The answers on their way. -/
def answerCands (s : State) : List Cand :=
  s.answers.zipIdx.map (fun (e : Answer × Nat) =>
    if e.1.ack then cand .ackArrival e.2 0 tryAckArrival else cand .nackArrival e.2 0 tryNackArrival)

/-- Every candidate, in the order of the default schedule. No time limit expires, no error arises
and nothing comes from outside by default: those events stand in the agenda only. -/
def candidates (s : State) : List Cand :=
  answerCands s ++ itemCands s ++ s.pkts.flatMap (fun (e : Nat × Packet) => pktCands e.1 e.2) ++
  s.ctxs.flatMap (fun (e : Nat × Ctx) => ctxCands e.1 e.2) ++
  s.tiles.flatMap (fun (e : Nat × Tile) => tileCands e.1 e.2 ++ matrixCands e.1 e.2 ++ outCands s e.1 e.2) ++ mailCands s ++ planeCands s

/-- The next unit event that the default schedule makes, if one is due. -/
def autoEvent (s : State) : Option (Instr × EventArg) :=
  ((candidates s).find? (fun (c : Cand) => (c.2.2 { s with ev := c.2.1 }).isSome)).map (fun c => (c.1, c.2.1))

/-- The turn of the next context. -/
def ctxTurn (s : State) : Option Issue := (nextCtx s).map (fun g => turnOf { s with cur := g } g)

/-- The turn of a unit. -/
def unitTurn (s : State) : Option Issue := (autoEvent s).map (fun e => .run e.1 { s with ev := e.2 })

/-- What happens next (DESIGN CHOICE, log 1). -/
def plan (s : State) : Issue :=
  if (s.ctx s.cur).st == .run && (s.ctx s.cur).stage.isSome && (s.ctx s.cur).waiting != .stall then issueCtx s s.cur
  else
    match s.agenda with
    | .event i a :: r =>
      if isEvent i then .run i { s with agenda := r, ev := a } else .done { s with agenda := r }
    | .ctx g :: r => turnOf { s with agenda := r } g
    | [] =>
      let first := if s.cycle % 2 = 0 then unitTurn s else ctxTurn s
      match first with
      | some x => x
      | none => ((if s.cycle % 2 = 0 then ctxTurn s else unitTurn s).getD (.done s))

end Sys2Proof.Machine
end

