-- ==== Sys2Proof/Machine/Dispatch.lean ====
section
/-! DEFINITION. The one dispatch: every constructor of Instr and the meaning it has. -/

namespace Sys2Proof.Machine

open Host (Outcome)

/-- The meaning of an instruction in a state. -/
def exec (i : Instr) (s : State) : Host.Outcome State Fault Refusal :=
  match i with
  | .add h t => Sys2Proof.Machine.execAdd h t s
  | .sub h t => Sys2Proof.Machine.execSub h t s
  | .mul h t => Sys2Proof.Machine.execMul h t s
  | .mulh h t => Sys2Proof.Machine.execMulh h t s
  | .madd h t => Sys2Proof.Machine.execMadd h t s
  | .div h t => Sys2Proof.Machine.execDiv h t s
  | .rem h t => Sys2Proof.Machine.execRem h t s
  | .neg h t => Sys2Proof.Machine.execNeg h t s
  | .abs h t => Sys2Proof.Machine.execAbs h t s
  | .min h t => Sys2Proof.Machine.execMin h t s
  | .max h t => Sys2Proof.Machine.execMax h t s
  | .adds h t => Sys2Proof.Machine.execAdds h t s
  | .subs h t => Sys2Proof.Machine.execSubs h t s
  | .and h t => Sys2Proof.Machine.execAnd h t s
  | .or h t => Sys2Proof.Machine.execOr h t s
  | .xor h t => Sys2Proof.Machine.execXor h t s
  | .andn h t => Sys2Proof.Machine.execAndn h t s
  | .orn h t => Sys2Proof.Machine.execOrn h t s
  | .not h t => Sys2Proof.Machine.execNot h t s
  | .shl h t => Sys2Proof.Machine.execShl h t s
  | .shr h t => Sys2Proof.Machine.execShr h t s
  | .sar h t => Sys2Proof.Machine.execSar h t s
  | .rol h t => Sys2Proof.Machine.execRol h t s
  | .ror h t => Sys2Proof.Machine.execRor h t s
  | .clz h t => Sys2Proof.Machine.execClz h t s
  | .ctz h t => Sys2Proof.Machine.execCtz h t s
  | .popc h t => Sys2Proof.Machine.execPopc h t s
  | .brev h t => Sys2Proof.Machine.execBrev h t s
  | .bswap h t => Sys2Proof.Machine.execBswap h t s
  | .bfx h t => Sys2Proof.Machine.execBfx h t s
  | .bfi h t => Sys2Proof.Machine.execBfi h t s
  | .ext h t => Sys2Proof.Machine.execExt h t s
  | .cmp h t => Sys2Proof.Machine.execCmp h t s
  | .test h t => Sys2Proof.Machine.execTest h t s
  | .sel h t => Sys2Proof.Machine.execSel h t s
  | .mov h t => Sys2Proof.Machine.execMov h t s
  | .ldi h t => Sys2Proof.Machine.execLdi h t s
  | .ldih h t => Sys2Proof.Machine.execLdih h t s
  | .ldk h t => Sys2Proof.Machine.execLdk h t s
  | .lea h t => Sys2Proof.Machine.execLea h t s
  | .crc h t => Sys2Proof.Machine.execCrc h t s
  | .fnv h t => Sys2Proof.Machine.execFnv h t s
  | .coord h t => Sys2Proof.Machine.execCoord h t s
  | .alignup h t => Sys2Proof.Machine.execAlignup h t s
  | .aligndn h t => Sys2Proof.Machine.execAligndn h t s
  | .bound h t => Sys2Proof.Machine.execBound h t s
  | .bset h t => Sys2Proof.Machine.execBset h t s
  | .bclr h t => Sys2Proof.Machine.execBclr h t s
  | .btst h t => Sys2Proof.Machine.execBtst h t s
  | .binv h t => Sys2Proof.Machine.execBinv h t s
  | .perm h t => Sys2Proof.Machine.execPerm h t s
  | .cls h t => Sys2Proof.Machine.execCls h t s
  | .absd h t => Sys2Proof.Machine.execAbsd h t s
  | .avg h t => Sys2Proof.Machine.execAvg h t s
  | .mulw h t => Sys2Proof.Machine.execMulw h t s
  | .shladd h t => Sys2Proof.Machine.execShladd h t s
  | .fadd h t => Sys2Proof.Machine.execFadd h t s
  | .fsub h t => Sys2Proof.Machine.execFsub h t s
  | .fmul h t => Sys2Proof.Machine.execFmul h t s
  | .fdiv h t => Sys2Proof.Machine.execFdiv h t s
  | .fsqrt h t => Sys2Proof.Machine.execFsqrt h t s
  | .fma h t => Sys2Proof.Machine.execFma h t s
  | .fms h t => Sys2Proof.Machine.execFms h t s
  | .fnma h t => Sys2Proof.Machine.execFnma h t s
  | .fmin h t => Sys2Proof.Machine.execFmin h t s
  | .fmax h t => Sys2Proof.Machine.execFmax h t s
  | .fabs h t => Sys2Proof.Machine.execFabs h t s
  | .fneg h t => Sys2Proof.Machine.execFneg h t s
  | .fcpys h t => Sys2Proof.Machine.execFcpys h t s
  | .fcmp h t => Sys2Proof.Machine.execFcmp h t s
  | .fclass h t => Sys2Proof.Machine.execFclass h t s
  | .frint h t => Sys2Proof.Machine.execFrint h t s
  | .fcvt h t => Sys2Proof.Machine.execFcvt h t s
  | .fcvti h t => Sys2Proof.Machine.execFcvti h t s
  | .icvtf h t => Sys2Proof.Machine.execIcvtf h t s
  | .fcvtn h t => Sys2Proof.Machine.execFcvtn h t s
  | .fcvtw h t => Sys2Proof.Machine.execFcvtw h t s
  | .fminnum h t => Sys2Proof.Machine.execFminnum h t s
  | .fmaxnum h t => Sys2Proof.Machine.execFmaxnum h t s
  | .fscale h t => Sys2Proof.Machine.execFscale h t s
  | .flogb h t => Sys2Proof.Machine.execFlogb h t s
  | .fexp2 h t => Sys2Proof.Machine.execFexp2 h t s
  | .frcp h t => Sys2Proof.Machine.execFrcp h t s
  | .frsq h t => Sys2Proof.Machine.execFrsq h t s
  | .br h t => Sys2Proof.Machine.execBr h t s
  | .brz h t => Sys2Proof.Machine.execBrz h t s
  | .brnz h t => Sys2Proof.Machine.execBrnz h t s
  | .jmp h t => Sys2Proof.Machine.execJmp h t s
  | .call h t => Sys2Proof.Machine.execCall h t s
  | .calli h t => Sys2Proof.Machine.execCalli h t s
  | .ret h t => Sys2Proof.Machine.execRet h t s
  | .loop h t => Sys2Proof.Machine.execLoop h t s
  | .loopr h t => Sys2Proof.Machine.execLoopr h t s
  | .lbrk h t => Sys2Proof.Machine.execLbrk h t s
  | .pand h t => Sys2Proof.Machine.execPand h t s
  | .por h t => Sys2Proof.Machine.execPor h t s
  | .pxor h t => Sys2Proof.Machine.execPxor h t s
  | .pnot h t => Sys2Proof.Machine.execPnot h t s
  | .pset h t => Sys2Proof.Machine.execPset h t s
  | .pmov h t => Sys2Proof.Machine.execPmov h t s
  | .trap h t => Sys2Proof.Machine.execTrap h t s
  | .syscall h t => Sys2Proof.Machine.execSyscall h t s
  | .sysret h t => Sys2Proof.Machine.execSysret h t s
  | .crd h t => Sys2Proof.Machine.execCrd h t s
  | .cwr h t => Sys2Proof.Machine.execCwr h t s
  | .halt h t => Sys2Proof.Machine.execHalt h t s
  | .nop h t => Sys2Proof.Machine.execNop h t s
  | .pause h t => Sys2Proof.Machine.execPause h t s
  | .rdcyc h t => Sys2Proof.Machine.execRdcyc h t s
  | .psave h t => Sys2Proof.Machine.execPsave h t s
  | .pload h t => Sys2Proof.Machine.execPload h t s
  | .bkpt h t => Sys2Proof.Machine.execBkpt h t s
  | .vshape h t => Sys2Proof.Machine.execVshape h t s
  | .vld h t => Sys2Proof.Machine.execVld h t s
  | .vst h t => Sys2Proof.Machine.execVst h t s
  | .vgath h t => Sys2Proof.Machine.execVgath h t s
  | .vadd h t => Sys2Proof.Machine.execVadd h t s
  | .vsub h t => Sys2Proof.Machine.execVsub h t s
  | .vmul h t => Sys2Proof.Machine.execVmul h t s
  | .vfma h t => Sys2Proof.Machine.execVfma h t s
  | .vmin h t => Sys2Proof.Machine.execVmin h t s
  | .vmax h t => Sys2Proof.Machine.execVmax h t s
  | .vdiv h t => Sys2Proof.Machine.execVdiv h t s
  | .vcmp h t => Sys2Proof.Machine.execVcmp h t s
  | .vsel h t => Sys2Proof.Machine.execVsel h t s
  | .vredr h t => Sys2Proof.Machine.execVredr h t s
  | .vredc h t => Sys2Proof.Machine.execVredc h t s
  | .vbcastSc h t => Sys2Proof.Machine.execVbcastSc h t s
  | .vbcastRow h t => Sys2Proof.Machine.execVbcastRow h t s
  | .vbcastCol h t => Sys2Proof.Machine.execVbcastCol h t s
  | .vtran h t => Sys2Proof.Machine.execVtran h t s
  | .vcvt h t => Sys2Proof.Machine.execVcvt h t s
  | .vpack h t => Sys2Proof.Machine.execVpack h t s
  | .vunpk h t => Sys2Proof.Machine.execVunpk h t s
  | .vexp2 h t => Sys2Proof.Machine.execVexp2 h t s
  | .vlog2 h t => Sys2Proof.Machine.execVlog2 h t s
  | .vrcp h t => Sys2Proof.Machine.execVrcp h t s
  | .vrsq h t => Sys2Proof.Machine.execVrsq h t s
  | .vwfu h t => Sys2Proof.Machine.execVwfu h t s
  | .vwfm h t => Sys2Proof.Machine.execVwfm h t s
  | .vmovsGet h t => Sys2Proof.Machine.execVmovsGet h t s
  | .vmovsPut h t => Sys2Proof.Machine.execVmovsPut h t s
  | .vspop h t => Sys2Proof.Machine.execVspop h t s
  | .tcfg h t => Sys2Proof.Machine.execTcfg h t s
  | .tld h t => Sys2Proof.Machine.execTld h t s
  | .tst h t => Sys2Proof.Machine.execTst h t s
  | .tzero h t => Sys2Proof.Machine.execTzero h t s
  | .aclr h t => Sys2Proof.Machine.execAclr h t s
  | .tdrain h t => Sys2Proof.Machine.execTdrain h t s
  | .tchk h t => Sys2Proof.Machine.execTchk h t s
  | .mmag h t => Sys2Proof.Machine.execMmag h t s
  | .tring h t => Sys2Proof.Machine.execTring h t s
  | .mmaBf16Bf16 h t => Sys2Proof.Machine.execMmaBf16Bf16 h t s
  | .mmaF16F16 h t => Sys2Proof.Machine.execMmaF16F16 h t s
  | .mmaE4m3E4m3 h t => Sys2Proof.Machine.execMmaE4m3E4m3 h t s
  | .mmaE4m3E5m2 h t => Sys2Proof.Machine.execMmaE4m3E5m2 h t s
  | .mmaE5m2E4m3 h t => Sys2Proof.Machine.execMmaE5m2E4m3 h t s
  | .mmaE5m2E5m2 h t => Sys2Proof.Machine.execMmaE5m2E5m2 h t s
  | .mmaE2m3E2m3 h t => Sys2Proof.Machine.execMmaE2m3E2m3 h t s
  | .mmaE2m1E2m1 h t => Sys2Proof.Machine.execMmaE2m1E2m1 h t s
  | .mmaE2m1E4m3 h t => Sys2Proof.Machine.execMmaE2m1E4m3 h t s
  | .mmaE4m3E2m1 h t => Sys2Proof.Machine.execMmaE4m3E2m1 h t s
  | .mmaLg6Lg6 h t => Sys2Proof.Machine.execMmaLg6Lg6 h t s
  | .mmaLg6E4m3 h t => Sys2Proof.Machine.execMmaLg6E4m3 h t s
  | .mmaE4m3Lg6 h t => Sys2Proof.Machine.execMmaE4m3Lg6 h t s
  | .mmaLg6E2m1 h t => Sys2Proof.Machine.execMmaLg6E2m1 h t s
  | .mmaE2m1Lg6 h t => Sys2Proof.Machine.execMmaE2m1Lg6 h t s
  | .mmaInt8Int8 h t => Sys2Proof.Machine.execMmaInt8Int8 h t s
  | .mmaMxe4m3Mxe4m3 h t => Sys2Proof.Machine.execMmaMxe4m3Mxe4m3 h t s
  | .mmaMxe2m1Mxe2m1 h t => Sys2Proof.Machine.execMmaMxe2m1Mxe2m1 h t s
  | .mmaMxe2m3Mxe2m3 h t => Sys2Proof.Machine.execMmaMxe2m3Mxe2m3 h t s
  | .mmaMxe2m1Mxe4m3 h t => Sys2Proof.Machine.execMmaMxe2m1Mxe4m3 h t s
  | .mmaMxe4m3Mxe2m1 h t => Sys2Proof.Machine.execMmaMxe4m3Mxe2m1 h t s
  | .mmaMxe5m2Mxe5m2 h t => Sys2Proof.Machine.execMmaMxe5m2Mxe5m2 h t s
  | .mmaBf16E4m3 h t => Sys2Proof.Machine.execMmaBf16E4m3 h t s
  | .mmaBf16Lg6 h t => Sys2Proof.Machine.execMmaBf16Lg6 h t s
  | .ld h t => Sys2Proof.Machine.execLd h t s
  | .st h t => Sys2Proof.Machine.execSt h t s
  | .ldp h t => Sys2Proof.Machine.execLdp h t s
  | .stp h t => Sys2Proof.Machine.execStp h t s
  | .ldx h t => Sys2Proof.Machine.execLdx h t s
  | .ldxTag h t => Sys2Proof.Machine.execLdxTag h t s
  | .stx h t => Sys2Proof.Machine.execStx h t s
  | .stxTag h t => Sys2Proof.Machine.execStxTag h t s
  | .aadd h t => Sys2Proof.Machine.execAadd h t s
  | .aand h t => Sys2Proof.Machine.execAand h t s
  | .aor h t => Sys2Proof.Machine.execAor h t s
  | .axor h t => Sys2Proof.Machine.execAxor h t s
  | .amin h t => Sys2Proof.Machine.execAmin h t s
  | .amax h t => Sys2Proof.Machine.execAmax h t s
  | .aswap h t => Sys2Proof.Machine.execAswap h t s
  | .acas h t => Sys2Proof.Machine.execAcas h t s
  | .act h t => Sys2Proof.Machine.execAct h t s
  | .rld h t => Sys2Proof.Machine.execRld h t s
  | .rst h t => Sys2Proof.Machine.execRst h t s
  | .rred h t => Sys2Proof.Machine.execRred h t s
  | .rredRk h t => Sys2Proof.Machine.execRredRk h t s
  | .rcas h t => Sys2Proof.Machine.execRcas h t s
  | .rsax h t => Sys2Proof.Machine.execRsax h t s
  | .fence h t => Sys2Proof.Machine.execFence h t s
  | .fenceXp h t => Sys2Proof.Machine.execFenceXp h t s
  | .cswap h t => Sys2Proof.Machine.execCswap h t s
  | .gset h t => Sys2Proof.Machine.execGset h t s
  | .gclr h t => Sys2Proof.Machine.execGclr h t s
  | .rfill h t => Sys2Proof.Machine.execRfill h t s
  | .rldb h t => Sys2Proof.Machine.execRldb h t s
  | .send h t => Sys2Proof.Machine.execSend h t s
  | .yield h t => Sys2Proof.Machine.execYield h t s
  | .yieldImm h t => Sys2Proof.Machine.execYieldImm h t s
  | .cmask h t => Sys2Proof.Machine.execCmask h t s
  | .cunmask h t => Sys2Proof.Machine.execCunmask h t s
  | .fork h t => Sys2Proof.Machine.execFork h t s
  | .join h t => Sys2Proof.Machine.execJoin h t s
  | .post h t => Sys2Proof.Machine.execPost h t s
  | .decz h t => Sys2Proof.Machine.execDecz h t s
  | .rngput h t => Sys2Proof.Machine.execRngput h t s
  | .rngget h t => Sys2Proof.Machine.execRngget h t s
  | .osub h t => Sys2Proof.Machine.execOsub h t s
  | .srset h t => Sys2Proof.Machine.execSrset h t s
  | .srctlQuery h t => Sys2Proof.Machine.execSrctlQuery h t s
  | .srctlStop h t => Sys2Proof.Machine.execSrctlStop h t s
  | .srctlRewind h t => Sys2Proof.Machine.execSrctlRewind h t s
  | .tbinit h t => Sys2Proof.Machine.execTbinit h t s
  | .tbarr h t => Sys2Proof.Machine.execTbarr h t s
  | .tbexp h t => Sys2Proof.Machine.execTbexp h t s
  | .tbwait h t => Sys2Proof.Machine.execTbwait h t s
  | .tbwaitB h t => Sys2Proof.Machine.execTbwaitB h t s
  | .tbtest h t => Sys2Proof.Machine.execTbtest h t s
  | .lfind h t => Sys2Proof.Machine.execLfind h t s
  | .lput h t => Sys2Proof.Machine.execLput h t s
  | .lrel h t => Sys2Proof.Machine.execLrel h t s
  | .lstatRead h t => Sys2Proof.Machine.execLstatRead h t s
  | .lstatConfig h t => Sys2Proof.Machine.execLstatConfig h t s
  | .lstatClose h t => Sys2Proof.Machine.execLstatClose h t s
  | .launch h t => Sys2Proof.Machine.execLaunch h t s
  | .illegalOpcode h opc tlen d raw => Sys2Proof.Machine.execIllegalOpcode h opc tlen d raw s
  | .pauseExpire => Sys2Proof.Machine.execPauseExpire s
  | .dispatch => Sys2Proof.Machine.execDispatch s
  | .stageWaitExpire => Sys2Proof.Machine.execStageWaitExpire s
  | .stealRequest => Sys2Proof.Machine.execStealRequest s
  | .stealServe => Sys2Proof.Machine.execStealServe s
  | .stealReply => Sys2Proof.Machine.execStealReply s
  | .releaseAccept => Sys2Proof.Machine.execReleaseAccept s
  | .spanHashCompare => Sys2Proof.Machine.execSpanHashCompare s
  | .spanTwinTimeout => Sys2Proof.Machine.execSpanTwinTimeout s
  | .continuationEnqueue => Sys2Proof.Machine.execContinuationEnqueue s
  | .gangAdmit => Sys2Proof.Machine.execGangAdmit s
  | .taskJoinSubtract => Sys2Proof.Machine.execTaskJoinSubtract s
  | .stackGrowService => Sys2Proof.Machine.execStackGrowService s
  | .preemption => Sys2Proof.Machine.execPreemption s
  | .contextSave => Sys2Proof.Machine.execContextSave s
  | .contextRestore => Sys2Proof.Machine.execContextRestore s
  | .contextKill => Sys2Proof.Machine.execContextKill s
  | .blockingTimeout => Sys2Proof.Machine.execBlockingTimeout s
  | .packetResendTimeout => Sys2Proof.Machine.execPacketResendTimeout s
  | .storePerform => Sys2Proof.Machine.execStorePerform s
  | .localAtomicPerform => Sys2Proof.Machine.execLocalAtomicPerform s
  | .guardBitsPerform => Sys2Proof.Machine.execGuardBitsPerform s
  | .writeMergeDrain => Sys2Proof.Machine.execWriteMergeDrain s
  | .messageArrival => Sys2Proof.Machine.execMessageArrival s
  | .joinCountAdd => Sys2Proof.Machine.execJoinCountAdd s
  | .dequePush => Sys2Proof.Machine.execDequePush s
  | .deczPerform => Sys2Proof.Machine.execDeczPerform s
  | .readyRingConvert => Sys2Proof.Machine.execReadyRingConvert s
  | .ringPutPerform => Sys2Proof.Machine.execRingPutPerform s
  | .ringPutRetry => Sys2Proof.Machine.execRingPutRetry s
  | .ringPutAbandon => Sys2Proof.Machine.execRingPutAbandon s
  | .launchQueueWrite => Sys2Proof.Machine.execLaunchQueueWrite s
  | .launchWriteAbandon => Sys2Proof.Machine.execLaunchWriteAbandon s
  | .launchRecordTake => Sys2Proof.Machine.execLaunchRecordTake s
  | .keyedLookupResult => Sys2Proof.Machine.execKeyedLookupResult s
  | .launchComplete => Sys2Proof.Machine.execLaunchComplete s
  | .pacerRead => Sys2Proof.Machine.execPacerRead s
  | .osubPerform => Sys2Proof.Machine.execOsubPerform s
  | .osubAbandon => Sys2Proof.Machine.execOsubAbandon s
  | .outriderAccept => Sys2Proof.Machine.execOutriderAccept s
  | .outriderCmdStart => Sys2Proof.Machine.execOutriderCmdStart s
  | .copyTransfer => Sys2Proof.Machine.execCopyTransfer s
  | .copyComplete => Sys2Proof.Machine.execCopyComplete s
  | .streamSlotFill => Sys2Proof.Machine.execStreamSlotFill s
  | .listStart => Sys2Proof.Machine.execListStart s
  | .listBranch => Sys2Proof.Machine.execListBranch s
  | .listEnd => Sys2Proof.Machine.execListEnd s
  | .stalledSlot => Sys2Proof.Machine.execStalledSlot s
  | .agentRld => Sys2Proof.Machine.execAgentRld s
  | .agentRst => Sys2Proof.Machine.execAgentRst s
  | .agentRred => Sys2Proof.Machine.execAgentRred s
  | .agentRredRk => Sys2Proof.Machine.execAgentRredRk s
  | .rredRkExpire => Sys2Proof.Machine.execRredRkExpire s
  | .agentRcas => Sys2Proof.Machine.execAgentRcas s
  | .agentRsax => Sys2Proof.Machine.execAgentRsax s
  | .agentRfill => Sys2Proof.Machine.execAgentRfill s
  | .agentRldb => Sys2Proof.Machine.execAgentRldb s
  | .agentRemapResume => Sys2Proof.Machine.execAgentRemapResume s
  | .replyArrival => Sys2Proof.Machine.execReplyArrival s
  | .barrierArrival => Sys2Proof.Machine.execBarrierArrival s
  | .sectorCompletion => Sys2Proof.Machine.execSectorCompletion s
  | .tbinitPerform => Sys2Proof.Machine.execTbinitPerform s
  | .tbexpPerform => Sys2Proof.Machine.execTbexpPerform s
  | .matrixCmdArrival => Sys2Proof.Machine.execMatrixCmdArrival s
  | .matrixCmdTake => Sys2Proof.Machine.execMatrixCmdTake s
  | .matrixSwap => Sys2Proof.Machine.execMatrixSwap s
  | .tcfgPerform => Sys2Proof.Machine.execTcfgPerform s
  | .tldStep => Sys2Proof.Machine.execTldStep s
  | .tstStep => Sys2Proof.Machine.execTstStep s
  | .tzeroPerform => Sys2Proof.Machine.execTzeroPerform s
  | .aclrPerform => Sys2Proof.Machine.execAclrPerform s
  | .tdrainStep => Sys2Proof.Machine.execTdrainStep s
  | .tchkPerform => Sys2Proof.Machine.execTchkPerform s
  | .mmaStep => Sys2Proof.Machine.execMmaStep s
  | .mmagStep => Sys2Proof.Machine.execMmagStep s
  | .ringSlotCopy => Sys2Proof.Machine.execRingSlotCopy s
  | .tringInstall => Sys2Proof.Machine.execTringInstall s
  | .castoffTile => Sys2Proof.Machine.execCastoffTile s
  | .carriageStepResume => Sys2Proof.Machine.execCarriageStepResume s
  | .cableSwapStart => Sys2Proof.Machine.execCableSwapStart s
  | .cableSwapComplete => Sys2Proof.Machine.execCableSwapComplete s
  | .refresh => Sys2Proof.Machine.execRefresh s
  | .thermalSample => Sys2Proof.Machine.execThermalSample s
  | .scrubRead => Sys2Proof.Machine.execScrubRead s
  | .rowRepairComplete => Sys2Proof.Machine.execRowRepairComplete s
  | .vaultBusParityError => Sys2Proof.Machine.execVaultBusParityError s
  | .tileRetire => Sys2Proof.Machine.execTileRetire s
  | .tlbWalk => Sys2Proof.Machine.execTlbWalk s
  | .packetInject => Sys2Proof.Machine.execPacketInject s
  | .flitAdvance => Sys2Proof.Machine.execFlitAdvance s
  | .escapeEnter => Sys2Proof.Machine.execEscapeEnter s
  | .ejectTimeout => Sys2Proof.Machine.execEjectTimeout s
  | .escapeSlotReserve => Sys2Proof.Machine.execEscapeSlotReserve s
  | .escapeArrival => Sys2Proof.Machine.execEscapeArrival s
  | .closForward => Sys2Proof.Machine.execClosForward s
  | .closEvict => Sys2Proof.Machine.execClosEvict s
  | .packetArrival => Sys2Proof.Machine.execPacketArrival s
  | .ackArrival => Sys2Proof.Machine.execAckArrival s
  | .nackArrival => Sys2Proof.Machine.execNackArrival s
  | .lifelineEntryRequest => Sys2Proof.Machine.execLifelineEntryRequest s
  | .lfindPerform => Sys2Proof.Machine.execLfindPerform s
  | .lputPerform => Sys2Proof.Machine.execLputPerform s
  | .lrelPerform => Sys2Proof.Machine.execLrelPerform s
  | .lstatReadPerform => Sys2Proof.Machine.execLstatReadPerform s
  | .lstatConfigPerform => Sys2Proof.Machine.execLstatConfigPerform s
  | .lstatClosePerform => Sys2Proof.Machine.execLstatClosePerform s
  | .lifelineReply => Sys2Proof.Machine.execLifelineReply s
  | .hdmRead => Sys2Proof.Machine.execHdmRead s
  | .hdmWrite => Sys2Proof.Machine.execHdmWrite s
  | .peerInboundAccess => Sys2Proof.Machine.execPeerInboundAccess s
  | .xaoldFlitError => Sys2Proof.Machine.execXaoldFlitError s
  | .mailboxRegisterWrite => Sys2Proof.Machine.execMailboxRegisterWrite s
  | .readLog => Sys2Proof.Machine.execReadLog s
  | .readCounters => Sys2Proof.Machine.execReadCounters s
  | .selectPerf => Sys2Proof.Machine.execSelectPerf s
  | .setPower => Sys2Proof.Machine.execSetPower s
  | .quiesceComplete => Sys2Proof.Machine.execQuiesceComplete s
  | .readThermal => Sys2Proof.Machine.execReadThermal s
  | .preempt => Sys2Proof.Machine.execPreempt s
  | .resume => Sys2Proof.Machine.execResume s
  | .kill => Sys2Proof.Machine.execKill s
  | .setRoute => Sys2Proof.Machine.execSetRoute s
  | .peerEnable => Sys2Proof.Machine.execPeerEnable s
  | .attest => Sys2Proof.Machine.execAttest s
  | .inject => Sys2Proof.Machine.execInject s
  | .errorLogPost => Sys2Proof.Machine.execErrorLogPost s
  | .moduleReset => Sys2Proof.Machine.execModuleReset s
  | .hobbleWindow => Sys2Proof.Machine.execHobbleWindow s
  | .computeDieOvertemp => Sys2Proof.Machine.execComputeDieOvertemp s
  | .badOpc => Sys2Proof.Machine.execBadOpc s
  | .ideKm => Sys2Proof.Machine.execIdeKm s

end Sys2Proof.Machine
end

