-- ==== Sys2Proof/Machine/Step.lean ====
section
/-! DEFINITION. One step of the module, and the placing of one instruction where the next step
fetches. -/

namespace Sys2Proof.Machine

/-- One step: a pcyc passes and one agent acts (DESIGN CHOICE, log 1). After the controller has removed module
power only a module reset acts (R426, R428). -/
def step (s : State) : Host.Outcome State Fault Refusal :=
  if s.mgmt.power = .removed then
    match s.agenda with
    | [] => .fault .powerRemoved
    | .event .moduleReset a :: r => exec .moduleReset { tick s with agenda := r, ev := a }
    | _ :: r => .next { s with agenda := r }
  else
    match plan (tick s) with
    | .done s' => .next s'
    | .run i s' => exec i s'

/-- The tile-local address at which `withFetchWord` places its line. -/
def fetchBase : Nat := 0x10000

/-- Whether a list entry by 16-byte word lies outside the line of `withFetchWord`. -/
def offLine (w : Nat) : Bool := !overlaps (16 * w) 16 (keyScratch 0 fetchBase) 64

/-- `s` with one instruction in a line of its own at `fetchBase` of tile 0, context 0 of that
tile in RUN at it with a valid address space 0, and the next turn given to that context, which is the next of
its processor (DESIGN CHOICE, log 5). No guard bit, error or undrained store stands over the line. -/
def State.withFetchWord (s : State) (nbits w : Nat) : State :=
  let v := w % 2 ^ nbits
  let line := oneHeadLine (BitVec.ofNat 16 v) (BitVec.ofNat 48 (v / 2 ^ 16))
  let m1 := memWrite s.mem (keyScratch 0 fetchBase) line
  let m2 := memWrite m1 (keyScratch 0 0x1E0400) (bytesLE 8 (2 ^ 47))
  { s with
    mem := m2
    tiles := tabSet s.tiles 0 { s.tile 0 with
      lastIssued := (s.tile 0).lastIssued.set 0 3
      guardBits := storePuts false (s.tile 0).guardBits [(fetchBase / 128, false)]
      poison := (s.tile 0).poison.filter (fun e => offLine e.1)
      merge := (s.tile 0).merge.filter (fun e => !overlaps e.key e.bytes.length (keyScratch 0 fetchBase) 64) }
    ctxs := tabSet s.ctxs 0 { s.ctx 0 with
      st := .run, waiting := .none, stage := none, pc := fetchBase + 2, asid := 0, pause := 0,
      saveDue := false, tested := false, guard := none, isTwin := false, line := none, body := []
      resume := none, trapDue := none }
    cur := 0
    agenda := [.ctx 0]
    mgmt := if s.mgmt.power = .removed then { s.mgmt with power := .active } else s.mgmt }

end Sys2Proof.Machine
end

