-- ==== Sys2Proof/Laws/Exec.lean ====
section
/-! SUPPORT. What `exec` is at each constructor: one equation per arm. -/

namespace Sys2Proof.Laws

open Sys2Proof.Machine

@[simp] theorem exec_add (h : Head) (t : Tail) (s : State) :
    exec (.add h t) s = execAdd h t s := rfl
@[simp] theorem exec_sub (h : Head) (t : Tail) (s : State) :
    exec (.sub h t) s = execSub h t s := rfl
@[simp] theorem exec_mul (h : Head) (t : Tail) (s : State) :
    exec (.mul h t) s = execMul h t s := rfl
@[simp] theorem exec_mulh (h : Head) (t : Tail) (s : State) :
    exec (.mulh h t) s = execMulh h t s := rfl
@[simp] theorem exec_madd (h : Head) (t : Tail) (s : State) :
    exec (.madd h t) s = execMadd h t s := rfl
@[simp] theorem exec_div (h : Head) (t : Tail) (s : State) :
    exec (.div h t) s = execDiv h t s := rfl
@[simp] theorem exec_rem (h : Head) (t : Tail) (s : State) :
    exec (.rem h t) s = execRem h t s := rfl
@[simp] theorem exec_neg (h : Head) (t : Tail) (s : State) :
    exec (.neg h t) s = execNeg h t s := rfl
@[simp] theorem exec_abs (h : Head) (t : Tail) (s : State) :
    exec (.abs h t) s = execAbs h t s := rfl
@[simp] theorem exec_min (h : Head) (t : Tail) (s : State) :
    exec (.min h t) s = execMin h t s := rfl
@[simp] theorem exec_max (h : Head) (t : Tail) (s : State) :
    exec (.max h t) s = execMax h t s := rfl
@[simp] theorem exec_adds (h : Head) (t : Tail) (s : State) :
    exec (.adds h t) s = execAdds h t s := rfl
@[simp] theorem exec_subs (h : Head) (t : Tail) (s : State) :
    exec (.subs h t) s = execSubs h t s := rfl
@[simp] theorem exec_and (h : Head) (t : Tail) (s : State) :
    exec (.and h t) s = execAnd h t s := rfl
@[simp] theorem exec_or (h : Head) (t : Tail) (s : State) :
    exec (.or h t) s = execOr h t s := rfl
@[simp] theorem exec_xor (h : Head) (t : Tail) (s : State) :
    exec (.xor h t) s = execXor h t s := rfl
@[simp] theorem exec_andn (h : Head) (t : Tail) (s : State) :
    exec (.andn h t) s = execAndn h t s := rfl
@[simp] theorem exec_orn (h : Head) (t : Tail) (s : State) :
    exec (.orn h t) s = execOrn h t s := rfl
@[simp] theorem exec_not (h : Head) (t : Tail) (s : State) :
    exec (.not h t) s = execNot h t s := rfl
@[simp] theorem exec_shl (h : Head) (t : Tail) (s : State) :
    exec (.shl h t) s = execShl h t s := rfl
@[simp] theorem exec_shr (h : Head) (t : Tail) (s : State) :
    exec (.shr h t) s = execShr h t s := rfl
@[simp] theorem exec_sar (h : Head) (t : Tail) (s : State) :
    exec (.sar h t) s = execSar h t s := rfl
@[simp] theorem exec_rol (h : Head) (t : Tail) (s : State) :
    exec (.rol h t) s = execRol h t s := rfl
@[simp] theorem exec_ror (h : Head) (t : Tail) (s : State) :
    exec (.ror h t) s = execRor h t s := rfl
@[simp] theorem exec_clz (h : Head) (t : Tail) (s : State) :
    exec (.clz h t) s = execClz h t s := rfl
@[simp] theorem exec_ctz (h : Head) (t : Tail) (s : State) :
    exec (.ctz h t) s = execCtz h t s := rfl
@[simp] theorem exec_popc (h : Head) (t : Tail) (s : State) :
    exec (.popc h t) s = execPopc h t s := rfl
@[simp] theorem exec_brev (h : Head) (t : Tail) (s : State) :
    exec (.brev h t) s = execBrev h t s := rfl
@[simp] theorem exec_bswap (h : Head) (t : Tail) (s : State) :
    exec (.bswap h t) s = execBswap h t s := rfl
@[simp] theorem exec_bfx (h : Head) (t : Tail) (s : State) :
    exec (.bfx h t) s = execBfx h t s := rfl
@[simp] theorem exec_bfi (h : Head) (t : Tail) (s : State) :
    exec (.bfi h t) s = execBfi h t s := rfl
@[simp] theorem exec_ext (h : Head) (t : Tail) (s : State) :
    exec (.ext h t) s = execExt h t s := rfl
@[simp] theorem exec_cmp (h : Head) (t : Tail) (s : State) :
    exec (.cmp h t) s = execCmp h t s := rfl
@[simp] theorem exec_test (h : Head) (t : Tail) (s : State) :
    exec (.test h t) s = execTest h t s := rfl
@[simp] theorem exec_sel (h : Head) (t : Tail) (s : State) :
    exec (.sel h t) s = execSel h t s := rfl
@[simp] theorem exec_mov (h : Head) (t : Tail) (s : State) :
    exec (.mov h t) s = execMov h t s := rfl
@[simp] theorem exec_ldi (h : Head) (t : Tail) (s : State) :
    exec (.ldi h t) s = execLdi h t s := rfl
@[simp] theorem exec_ldih (h : Head) (t : Tail) (s : State) :
    exec (.ldih h t) s = execLdih h t s := rfl
@[simp] theorem exec_ldk (h : Head) (t : Tail) (s : State) :
    exec (.ldk h t) s = execLdk h t s := rfl
@[simp] theorem exec_lea (h : Head) (t : Tail) (s : State) :
    exec (.lea h t) s = execLea h t s := rfl
@[simp] theorem exec_crc (h : Head) (t : Tail) (s : State) :
    exec (.crc h t) s = execCrc h t s := rfl
@[simp] theorem exec_fnv (h : Head) (t : Tail) (s : State) :
    exec (.fnv h t) s = execFnv h t s := rfl
@[simp] theorem exec_coord (h : Head) (t : Tail) (s : State) :
    exec (.coord h t) s = execCoord h t s := rfl
@[simp] theorem exec_alignup (h : Head) (t : Tail) (s : State) :
    exec (.alignup h t) s = execAlignup h t s := rfl
@[simp] theorem exec_aligndn (h : Head) (t : Tail) (s : State) :
    exec (.aligndn h t) s = execAligndn h t s := rfl
@[simp] theorem exec_bound (h : Head) (t : Tail) (s : State) :
    exec (.bound h t) s = execBound h t s := rfl
@[simp] theorem exec_bset (h : Head) (t : Tail) (s : State) :
    exec (.bset h t) s = execBset h t s := rfl
@[simp] theorem exec_bclr (h : Head) (t : Tail) (s : State) :
    exec (.bclr h t) s = execBclr h t s := rfl
@[simp] theorem exec_btst (h : Head) (t : Tail) (s : State) :
    exec (.btst h t) s = execBtst h t s := rfl
@[simp] theorem exec_binv (h : Head) (t : Tail) (s : State) :
    exec (.binv h t) s = execBinv h t s := rfl
@[simp] theorem exec_perm (h : Head) (t : Tail) (s : State) :
    exec (.perm h t) s = execPerm h t s := rfl
@[simp] theorem exec_cls (h : Head) (t : Tail) (s : State) :
    exec (.cls h t) s = execCls h t s := rfl
@[simp] theorem exec_absd (h : Head) (t : Tail) (s : State) :
    exec (.absd h t) s = execAbsd h t s := rfl
@[simp] theorem exec_avg (h : Head) (t : Tail) (s : State) :
    exec (.avg h t) s = execAvg h t s := rfl
@[simp] theorem exec_mulw (h : Head) (t : Tail) (s : State) :
    exec (.mulw h t) s = execMulw h t s := rfl
@[simp] theorem exec_shladd (h : Head) (t : Tail) (s : State) :
    exec (.shladd h t) s = execShladd h t s := rfl
@[simp] theorem exec_fadd (h : Head) (t : Tail) (s : State) :
    exec (.fadd h t) s = execFadd h t s := rfl
@[simp] theorem exec_fsub (h : Head) (t : Tail) (s : State) :
    exec (.fsub h t) s = execFsub h t s := rfl
@[simp] theorem exec_fmul (h : Head) (t : Tail) (s : State) :
    exec (.fmul h t) s = execFmul h t s := rfl
@[simp] theorem exec_fdiv (h : Head) (t : Tail) (s : State) :
    exec (.fdiv h t) s = execFdiv h t s := rfl
@[simp] theorem exec_fsqrt (h : Head) (t : Tail) (s : State) :
    exec (.fsqrt h t) s = execFsqrt h t s := rfl
@[simp] theorem exec_fma (h : Head) (t : Tail) (s : State) :
    exec (.fma h t) s = execFma h t s := rfl
@[simp] theorem exec_fms (h : Head) (t : Tail) (s : State) :
    exec (.fms h t) s = execFms h t s := rfl
@[simp] theorem exec_fnma (h : Head) (t : Tail) (s : State) :
    exec (.fnma h t) s = execFnma h t s := rfl
@[simp] theorem exec_fmin (h : Head) (t : Tail) (s : State) :
    exec (.fmin h t) s = execFmin h t s := rfl
@[simp] theorem exec_fmax (h : Head) (t : Tail) (s : State) :
    exec (.fmax h t) s = execFmax h t s := rfl
@[simp] theorem exec_fabs (h : Head) (t : Tail) (s : State) :
    exec (.fabs h t) s = execFabs h t s := rfl
@[simp] theorem exec_fneg (h : Head) (t : Tail) (s : State) :
    exec (.fneg h t) s = execFneg h t s := rfl
@[simp] theorem exec_fcpys (h : Head) (t : Tail) (s : State) :
    exec (.fcpys h t) s = execFcpys h t s := rfl
@[simp] theorem exec_fcmp (h : Head) (t : Tail) (s : State) :
    exec (.fcmp h t) s = execFcmp h t s := rfl
@[simp] theorem exec_fclass (h : Head) (t : Tail) (s : State) :
    exec (.fclass h t) s = execFclass h t s := rfl
@[simp] theorem exec_frint (h : Head) (t : Tail) (s : State) :
    exec (.frint h t) s = execFrint h t s := rfl
@[simp] theorem exec_fcvt (h : Head) (t : Tail) (s : State) :
    exec (.fcvt h t) s = execFcvt h t s := rfl
@[simp] theorem exec_fcvti (h : Head) (t : Tail) (s : State) :
    exec (.fcvti h t) s = execFcvti h t s := rfl
@[simp] theorem exec_icvtf (h : Head) (t : Tail) (s : State) :
    exec (.icvtf h t) s = execIcvtf h t s := rfl
@[simp] theorem exec_fcvtn (h : Head) (t : Tail) (s : State) :
    exec (.fcvtn h t) s = execFcvtn h t s := rfl
@[simp] theorem exec_fcvtw (h : Head) (t : Tail) (s : State) :
    exec (.fcvtw h t) s = execFcvtw h t s := rfl
@[simp] theorem exec_fminnum (h : Head) (t : Tail) (s : State) :
    exec (.fminnum h t) s = execFminnum h t s := rfl
@[simp] theorem exec_fmaxnum (h : Head) (t : Tail) (s : State) :
    exec (.fmaxnum h t) s = execFmaxnum h t s := rfl
@[simp] theorem exec_fscale (h : Head) (t : Tail) (s : State) :
    exec (.fscale h t) s = execFscale h t s := rfl
@[simp] theorem exec_flogb (h : Head) (t : Tail) (s : State) :
    exec (.flogb h t) s = execFlogb h t s := rfl
@[simp] theorem exec_fexp2 (h : Head) (t : Tail) (s : State) :
    exec (.fexp2 h t) s = execFexp2 h t s := rfl
@[simp] theorem exec_frcp (h : Head) (t : Tail) (s : State) :
    exec (.frcp h t) s = execFrcp h t s := rfl
@[simp] theorem exec_frsq (h : Head) (t : Tail) (s : State) :
    exec (.frsq h t) s = execFrsq h t s := rfl
@[simp] theorem exec_br (h : Head) (t : Tail) (s : State) :
    exec (.br h t) s = execBr h t s := rfl
@[simp] theorem exec_brz (h : Head) (t : Tail) (s : State) :
    exec (.brz h t) s = execBrz h t s := rfl
@[simp] theorem exec_brnz (h : Head) (t : Tail) (s : State) :
    exec (.brnz h t) s = execBrnz h t s := rfl
@[simp] theorem exec_jmp (h : Head) (t : Tail) (s : State) :
    exec (.jmp h t) s = execJmp h t s := rfl
@[simp] theorem exec_call (h : Head) (t : Tail) (s : State) :
    exec (.call h t) s = execCall h t s := rfl
@[simp] theorem exec_calli (h : Head) (t : Tail) (s : State) :
    exec (.calli h t) s = execCalli h t s := rfl
@[simp] theorem exec_ret (h : Head) (t : Tail) (s : State) :
    exec (.ret h t) s = execRet h t s := rfl
@[simp] theorem exec_loop (h : Head) (t : Tail) (s : State) :
    exec (.loop h t) s = execLoop h t s := rfl
@[simp] theorem exec_loopr (h : Head) (t : Tail) (s : State) :
    exec (.loopr h t) s = execLoopr h t s := rfl
@[simp] theorem exec_lbrk (h : Head) (t : Tail) (s : State) :
    exec (.lbrk h t) s = execLbrk h t s := rfl
@[simp] theorem exec_pand (h : Head) (t : Tail) (s : State) :
    exec (.pand h t) s = execPand h t s := rfl
@[simp] theorem exec_por (h : Head) (t : Tail) (s : State) :
    exec (.por h t) s = execPor h t s := rfl
@[simp] theorem exec_pxor (h : Head) (t : Tail) (s : State) :
    exec (.pxor h t) s = execPxor h t s := rfl
@[simp] theorem exec_pnot (h : Head) (t : Tail) (s : State) :
    exec (.pnot h t) s = execPnot h t s := rfl
@[simp] theorem exec_pset (h : Head) (t : Tail) (s : State) :
    exec (.pset h t) s = execPset h t s := rfl
@[simp] theorem exec_pmov (h : Head) (t : Tail) (s : State) :
    exec (.pmov h t) s = execPmov h t s := rfl
@[simp] theorem exec_trap (h : Head) (t : Tail) (s : State) :
    exec (.trap h t) s = execTrap h t s := rfl
@[simp] theorem exec_syscall (h : Head) (t : Tail) (s : State) :
    exec (.syscall h t) s = execSyscall h t s := rfl
@[simp] theorem exec_sysret (h : Head) (t : Tail) (s : State) :
    exec (.sysret h t) s = execSysret h t s := rfl
@[simp] theorem exec_crd (h : Head) (t : Tail) (s : State) :
    exec (.crd h t) s = execCrd h t s := rfl
@[simp] theorem exec_cwr (h : Head) (t : Tail) (s : State) :
    exec (.cwr h t) s = execCwr h t s := rfl
@[simp] theorem exec_halt (h : Head) (t : Tail) (s : State) :
    exec (.halt h t) s = execHalt h t s := rfl
@[simp] theorem exec_nop (h : Head) (t : Tail) (s : State) :
    exec (.nop h t) s = execNop h t s := rfl
@[simp] theorem exec_pause (h : Head) (t : Tail) (s : State) :
    exec (.pause h t) s = execPause h t s := rfl
@[simp] theorem exec_rdcyc (h : Head) (t : Tail) (s : State) :
    exec (.rdcyc h t) s = execRdcyc h t s := rfl
@[simp] theorem exec_psave (h : Head) (t : Tail) (s : State) :
    exec (.psave h t) s = execPsave h t s := rfl
@[simp] theorem exec_pload (h : Head) (t : Tail) (s : State) :
    exec (.pload h t) s = execPload h t s := rfl
@[simp] theorem exec_bkpt (h : Head) (t : Tail) (s : State) :
    exec (.bkpt h t) s = execBkpt h t s := rfl
@[simp] theorem exec_vshape (h : Head) (t : Tail) (s : State) :
    exec (.vshape h t) s = execVshape h t s := rfl
@[simp] theorem exec_vld (h : Head) (t : Tail) (s : State) :
    exec (.vld h t) s = execVld h t s := rfl
@[simp] theorem exec_vst (h : Head) (t : Tail) (s : State) :
    exec (.vst h t) s = execVst h t s := rfl
@[simp] theorem exec_vgath (h : Head) (t : Tail) (s : State) :
    exec (.vgath h t) s = execVgath h t s := rfl
@[simp] theorem exec_vadd (h : Head) (t : Tail) (s : State) :
    exec (.vadd h t) s = execVadd h t s := rfl
@[simp] theorem exec_vsub (h : Head) (t : Tail) (s : State) :
    exec (.vsub h t) s = execVsub h t s := rfl
@[simp] theorem exec_vmul (h : Head) (t : Tail) (s : State) :
    exec (.vmul h t) s = execVmul h t s := rfl
@[simp] theorem exec_vfma (h : Head) (t : Tail) (s : State) :
    exec (.vfma h t) s = execVfma h t s := rfl
@[simp] theorem exec_vmin (h : Head) (t : Tail) (s : State) :
    exec (.vmin h t) s = execVmin h t s := rfl
@[simp] theorem exec_vmax (h : Head) (t : Tail) (s : State) :
    exec (.vmax h t) s = execVmax h t s := rfl
@[simp] theorem exec_vdiv (h : Head) (t : Tail) (s : State) :
    exec (.vdiv h t) s = execVdiv h t s := rfl
@[simp] theorem exec_vcmp (h : Head) (t : Tail) (s : State) :
    exec (.vcmp h t) s = execVcmp h t s := rfl
@[simp] theorem exec_vsel (h : Head) (t : Tail) (s : State) :
    exec (.vsel h t) s = execVsel h t s := rfl
@[simp] theorem exec_vredr (h : Head) (t : Tail) (s : State) :
    exec (.vredr h t) s = execVredr h t s := rfl
@[simp] theorem exec_vredc (h : Head) (t : Tail) (s : State) :
    exec (.vredc h t) s = execVredc h t s := rfl
@[simp] theorem exec_vbcastSc (h : Head) (t : Tail) (s : State) :
    exec (.vbcastSc h t) s = execVbcastSc h t s := rfl
@[simp] theorem exec_vbcastRow (h : Head) (t : Tail) (s : State) :
    exec (.vbcastRow h t) s = execVbcastRow h t s := rfl
@[simp] theorem exec_vbcastCol (h : Head) (t : Tail) (s : State) :
    exec (.vbcastCol h t) s = execVbcastCol h t s := rfl
@[simp] theorem exec_vtran (h : Head) (t : Tail) (s : State) :
    exec (.vtran h t) s = execVtran h t s := rfl
@[simp] theorem exec_vcvt (h : Head) (t : Tail) (s : State) :
    exec (.vcvt h t) s = execVcvt h t s := rfl
@[simp] theorem exec_vpack (h : Head) (t : Tail) (s : State) :
    exec (.vpack h t) s = execVpack h t s := rfl
@[simp] theorem exec_vunpk (h : Head) (t : Tail) (s : State) :
    exec (.vunpk h t) s = execVunpk h t s := rfl
@[simp] theorem exec_vexp2 (h : Head) (t : Tail) (s : State) :
    exec (.vexp2 h t) s = execVexp2 h t s := rfl
@[simp] theorem exec_vlog2 (h : Head) (t : Tail) (s : State) :
    exec (.vlog2 h t) s = execVlog2 h t s := rfl
@[simp] theorem exec_vrcp (h : Head) (t : Tail) (s : State) :
    exec (.vrcp h t) s = execVrcp h t s := rfl
@[simp] theorem exec_vrsq (h : Head) (t : Tail) (s : State) :
    exec (.vrsq h t) s = execVrsq h t s := rfl
@[simp] theorem exec_vwfu (h : Head) (t : Tail) (s : State) :
    exec (.vwfu h t) s = execVwfu h t s := rfl
@[simp] theorem exec_vwfm (h : Head) (t : Tail) (s : State) :
    exec (.vwfm h t) s = execVwfm h t s := rfl
@[simp] theorem exec_vmovsGet (h : Head) (t : Tail) (s : State) :
    exec (.vmovsGet h t) s = execVmovsGet h t s := rfl
@[simp] theorem exec_vmovsPut (h : Head) (t : Tail) (s : State) :
    exec (.vmovsPut h t) s = execVmovsPut h t s := rfl
@[simp] theorem exec_vspop (h : Head) (t : Tail) (s : State) :
    exec (.vspop h t) s = execVspop h t s := rfl
@[simp] theorem exec_tcfg (h : Head) (t : Tail) (s : State) :
    exec (.tcfg h t) s = execTcfg h t s := rfl
@[simp] theorem exec_tld (h : Head) (t : Tail) (s : State) :
    exec (.tld h t) s = execTld h t s := rfl
@[simp] theorem exec_tst (h : Head) (t : Tail) (s : State) :
    exec (.tst h t) s = execTst h t s := rfl
@[simp] theorem exec_tzero (h : Head) (t : Tail) (s : State) :
    exec (.tzero h t) s = execTzero h t s := rfl
@[simp] theorem exec_aclr (h : Head) (t : Tail) (s : State) :
    exec (.aclr h t) s = execAclr h t s := rfl
@[simp] theorem exec_tdrain (h : Head) (t : Tail) (s : State) :
    exec (.tdrain h t) s = execTdrain h t s := rfl
@[simp] theorem exec_tchk (h : Head) (t : Tail) (s : State) :
    exec (.tchk h t) s = execTchk h t s := rfl
@[simp] theorem exec_mmag (h : Head) (t : Tail) (s : State) :
    exec (.mmag h t) s = execMmag h t s := rfl
@[simp] theorem exec_tring (h : Head) (t : Tail) (s : State) :
    exec (.tring h t) s = execTring h t s := rfl
@[simp] theorem exec_mmaBf16Bf16 (h : Head) (t : Tail) (s : State) :
    exec (.mmaBf16Bf16 h t) s = execMmaBf16Bf16 h t s := rfl
@[simp] theorem exec_mmaF16F16 (h : Head) (t : Tail) (s : State) :
    exec (.mmaF16F16 h t) s = execMmaF16F16 h t s := rfl
@[simp] theorem exec_mmaE4m3E4m3 (h : Head) (t : Tail) (s : State) :
    exec (.mmaE4m3E4m3 h t) s = execMmaE4m3E4m3 h t s := rfl
@[simp] theorem exec_mmaE4m3E5m2 (h : Head) (t : Tail) (s : State) :
    exec (.mmaE4m3E5m2 h t) s = execMmaE4m3E5m2 h t s := rfl
@[simp] theorem exec_mmaE5m2E4m3 (h : Head) (t : Tail) (s : State) :
    exec (.mmaE5m2E4m3 h t) s = execMmaE5m2E4m3 h t s := rfl
@[simp] theorem exec_mmaE5m2E5m2 (h : Head) (t : Tail) (s : State) :
    exec (.mmaE5m2E5m2 h t) s = execMmaE5m2E5m2 h t s := rfl
@[simp] theorem exec_mmaE2m3E2m3 (h : Head) (t : Tail) (s : State) :
    exec (.mmaE2m3E2m3 h t) s = execMmaE2m3E2m3 h t s := rfl
@[simp] theorem exec_mmaE2m1E2m1 (h : Head) (t : Tail) (s : State) :
    exec (.mmaE2m1E2m1 h t) s = execMmaE2m1E2m1 h t s := rfl
@[simp] theorem exec_mmaE2m1E4m3 (h : Head) (t : Tail) (s : State) :
    exec (.mmaE2m1E4m3 h t) s = execMmaE2m1E4m3 h t s := rfl
@[simp] theorem exec_mmaE4m3E2m1 (h : Head) (t : Tail) (s : State) :
    exec (.mmaE4m3E2m1 h t) s = execMmaE4m3E2m1 h t s := rfl
@[simp] theorem exec_mmaLg6Lg6 (h : Head) (t : Tail) (s : State) :
    exec (.mmaLg6Lg6 h t) s = execMmaLg6Lg6 h t s := rfl
@[simp] theorem exec_mmaLg6E4m3 (h : Head) (t : Tail) (s : State) :
    exec (.mmaLg6E4m3 h t) s = execMmaLg6E4m3 h t s := rfl
@[simp] theorem exec_mmaE4m3Lg6 (h : Head) (t : Tail) (s : State) :
    exec (.mmaE4m3Lg6 h t) s = execMmaE4m3Lg6 h t s := rfl
@[simp] theorem exec_mmaLg6E2m1 (h : Head) (t : Tail) (s : State) :
    exec (.mmaLg6E2m1 h t) s = execMmaLg6E2m1 h t s := rfl
@[simp] theorem exec_mmaE2m1Lg6 (h : Head) (t : Tail) (s : State) :
    exec (.mmaE2m1Lg6 h t) s = execMmaE2m1Lg6 h t s := rfl
@[simp] theorem exec_mmaInt8Int8 (h : Head) (t : Tail) (s : State) :
    exec (.mmaInt8Int8 h t) s = execMmaInt8Int8 h t s := rfl
@[simp] theorem exec_mmaMxe4m3Mxe4m3 (h : Head) (t : Tail) (s : State) :
    exec (.mmaMxe4m3Mxe4m3 h t) s = execMmaMxe4m3Mxe4m3 h t s := rfl
@[simp] theorem exec_mmaMxe2m1Mxe2m1 (h : Head) (t : Tail) (s : State) :
    exec (.mmaMxe2m1Mxe2m1 h t) s = execMmaMxe2m1Mxe2m1 h t s := rfl
@[simp] theorem exec_mmaMxe2m3Mxe2m3 (h : Head) (t : Tail) (s : State) :
    exec (.mmaMxe2m3Mxe2m3 h t) s = execMmaMxe2m3Mxe2m3 h t s := rfl
@[simp] theorem exec_mmaMxe2m1Mxe4m3 (h : Head) (t : Tail) (s : State) :
    exec (.mmaMxe2m1Mxe4m3 h t) s = execMmaMxe2m1Mxe4m3 h t s := rfl
@[simp] theorem exec_mmaMxe4m3Mxe2m1 (h : Head) (t : Tail) (s : State) :
    exec (.mmaMxe4m3Mxe2m1 h t) s = execMmaMxe4m3Mxe2m1 h t s := rfl
@[simp] theorem exec_mmaMxe5m2Mxe5m2 (h : Head) (t : Tail) (s : State) :
    exec (.mmaMxe5m2Mxe5m2 h t) s = execMmaMxe5m2Mxe5m2 h t s := rfl
@[simp] theorem exec_mmaBf16E4m3 (h : Head) (t : Tail) (s : State) :
    exec (.mmaBf16E4m3 h t) s = execMmaBf16E4m3 h t s := rfl
@[simp] theorem exec_mmaBf16Lg6 (h : Head) (t : Tail) (s : State) :
    exec (.mmaBf16Lg6 h t) s = execMmaBf16Lg6 h t s := rfl
@[simp] theorem exec_ld (h : Head) (t : Tail) (s : State) :
    exec (.ld h t) s = execLd h t s := rfl
@[simp] theorem exec_st (h : Head) (t : Tail) (s : State) :
    exec (.st h t) s = execSt h t s := rfl
@[simp] theorem exec_ldp (h : Head) (t : Tail) (s : State) :
    exec (.ldp h t) s = execLdp h t s := rfl
@[simp] theorem exec_stp (h : Head) (t : Tail) (s : State) :
    exec (.stp h t) s = execStp h t s := rfl
@[simp] theorem exec_ldx (h : Head) (t : Tail) (s : State) :
    exec (.ldx h t) s = execLdx h t s := rfl
@[simp] theorem exec_ldxTag (h : Head) (t : Tail) (s : State) :
    exec (.ldxTag h t) s = execLdxTag h t s := rfl
@[simp] theorem exec_stx (h : Head) (t : Tail) (s : State) :
    exec (.stx h t) s = execStx h t s := rfl
@[simp] theorem exec_stxTag (h : Head) (t : Tail) (s : State) :
    exec (.stxTag h t) s = execStxTag h t s := rfl
@[simp] theorem exec_aadd (h : Head) (t : Tail) (s : State) :
    exec (.aadd h t) s = execAadd h t s := rfl
@[simp] theorem exec_aand (h : Head) (t : Tail) (s : State) :
    exec (.aand h t) s = execAand h t s := rfl
@[simp] theorem exec_aor (h : Head) (t : Tail) (s : State) :
    exec (.aor h t) s = execAor h t s := rfl
@[simp] theorem exec_axor (h : Head) (t : Tail) (s : State) :
    exec (.axor h t) s = execAxor h t s := rfl
@[simp] theorem exec_amin (h : Head) (t : Tail) (s : State) :
    exec (.amin h t) s = execAmin h t s := rfl
@[simp] theorem exec_amax (h : Head) (t : Tail) (s : State) :
    exec (.amax h t) s = execAmax h t s := rfl
@[simp] theorem exec_aswap (h : Head) (t : Tail) (s : State) :
    exec (.aswap h t) s = execAswap h t s := rfl
@[simp] theorem exec_acas (h : Head) (t : Tail) (s : State) :
    exec (.acas h t) s = execAcas h t s := rfl
@[simp] theorem exec_act (h : Head) (t : Tail) (s : State) :
    exec (.act h t) s = execAct h t s := rfl
@[simp] theorem exec_rld (h : Head) (t : Tail) (s : State) :
    exec (.rld h t) s = execRld h t s := rfl
@[simp] theorem exec_rst (h : Head) (t : Tail) (s : State) :
    exec (.rst h t) s = execRst h t s := rfl
@[simp] theorem exec_rred (h : Head) (t : Tail) (s : State) :
    exec (.rred h t) s = execRred h t s := rfl
@[simp] theorem exec_rredRk (h : Head) (t : Tail) (s : State) :
    exec (.rredRk h t) s = execRredRk h t s := rfl
@[simp] theorem exec_rcas (h : Head) (t : Tail) (s : State) :
    exec (.rcas h t) s = execRcas h t s := rfl
@[simp] theorem exec_rsax (h : Head) (t : Tail) (s : State) :
    exec (.rsax h t) s = execRsax h t s := rfl
@[simp] theorem exec_fence (h : Head) (t : Tail) (s : State) :
    exec (.fence h t) s = execFence h t s := rfl
@[simp] theorem exec_fenceXp (h : Head) (t : Tail) (s : State) :
    exec (.fenceXp h t) s = execFenceXp h t s := rfl
@[simp] theorem exec_cswap (h : Head) (t : Tail) (s : State) :
    exec (.cswap h t) s = execCswap h t s := rfl
@[simp] theorem exec_gset (h : Head) (t : Tail) (s : State) :
    exec (.gset h t) s = execGset h t s := rfl
@[simp] theorem exec_gclr (h : Head) (t : Tail) (s : State) :
    exec (.gclr h t) s = execGclr h t s := rfl
@[simp] theorem exec_rfill (h : Head) (t : Tail) (s : State) :
    exec (.rfill h t) s = execRfill h t s := rfl
@[simp] theorem exec_rldb (h : Head) (t : Tail) (s : State) :
    exec (.rldb h t) s = execRldb h t s := rfl
@[simp] theorem exec_send (h : Head) (t : Tail) (s : State) :
    exec (.send h t) s = execSend h t s := rfl
@[simp] theorem exec_yield (h : Head) (t : Tail) (s : State) :
    exec (.yield h t) s = execYield h t s := rfl
@[simp] theorem exec_yieldImm (h : Head) (t : Tail) (s : State) :
    exec (.yieldImm h t) s = execYieldImm h t s := rfl
@[simp] theorem exec_cmask (h : Head) (t : Tail) (s : State) :
    exec (.cmask h t) s = execCmask h t s := rfl
@[simp] theorem exec_cunmask (h : Head) (t : Tail) (s : State) :
    exec (.cunmask h t) s = execCunmask h t s := rfl
@[simp] theorem exec_fork (h : Head) (t : Tail) (s : State) :
    exec (.fork h t) s = execFork h t s := rfl
@[simp] theorem exec_join (h : Head) (t : Tail) (s : State) :
    exec (.join h t) s = execJoin h t s := rfl
@[simp] theorem exec_post (h : Head) (t : Tail) (s : State) :
    exec (.post h t) s = execPost h t s := rfl
@[simp] theorem exec_decz (h : Head) (t : Tail) (s : State) :
    exec (.decz h t) s = execDecz h t s := rfl
@[simp] theorem exec_rngput (h : Head) (t : Tail) (s : State) :
    exec (.rngput h t) s = execRngput h t s := rfl
@[simp] theorem exec_rngget (h : Head) (t : Tail) (s : State) :
    exec (.rngget h t) s = execRngget h t s := rfl
@[simp] theorem exec_osub (h : Head) (t : Tail) (s : State) :
    exec (.osub h t) s = execOsub h t s := rfl
@[simp] theorem exec_srset (h : Head) (t : Tail) (s : State) :
    exec (.srset h t) s = execSrset h t s := rfl
@[simp] theorem exec_srctlQuery (h : Head) (t : Tail) (s : State) :
    exec (.srctlQuery h t) s = execSrctlQuery h t s := rfl
@[simp] theorem exec_srctlStop (h : Head) (t : Tail) (s : State) :
    exec (.srctlStop h t) s = execSrctlStop h t s := rfl
@[simp] theorem exec_srctlRewind (h : Head) (t : Tail) (s : State) :
    exec (.srctlRewind h t) s = execSrctlRewind h t s := rfl
@[simp] theorem exec_tbinit (h : Head) (t : Tail) (s : State) :
    exec (.tbinit h t) s = execTbinit h t s := rfl
@[simp] theorem exec_tbarr (h : Head) (t : Tail) (s : State) :
    exec (.tbarr h t) s = execTbarr h t s := rfl
@[simp] theorem exec_tbexp (h : Head) (t : Tail) (s : State) :
    exec (.tbexp h t) s = execTbexp h t s := rfl
@[simp] theorem exec_tbwait (h : Head) (t : Tail) (s : State) :
    exec (.tbwait h t) s = execTbwait h t s := rfl
@[simp] theorem exec_tbwaitB (h : Head) (t : Tail) (s : State) :
    exec (.tbwaitB h t) s = execTbwaitB h t s := rfl
@[simp] theorem exec_tbtest (h : Head) (t : Tail) (s : State) :
    exec (.tbtest h t) s = execTbtest h t s := rfl
@[simp] theorem exec_lfind (h : Head) (t : Tail) (s : State) :
    exec (.lfind h t) s = execLfind h t s := rfl
@[simp] theorem exec_lput (h : Head) (t : Tail) (s : State) :
    exec (.lput h t) s = execLput h t s := rfl
@[simp] theorem exec_lrel (h : Head) (t : Tail) (s : State) :
    exec (.lrel h t) s = execLrel h t s := rfl
@[simp] theorem exec_lstatRead (h : Head) (t : Tail) (s : State) :
    exec (.lstatRead h t) s = execLstatRead h t s := rfl
@[simp] theorem exec_lstatConfig (h : Head) (t : Tail) (s : State) :
    exec (.lstatConfig h t) s = execLstatConfig h t s := rfl
@[simp] theorem exec_lstatClose (h : Head) (t : Tail) (s : State) :
    exec (.lstatClose h t) s = execLstatClose h t s := rfl
@[simp] theorem exec_launch (h : Head) (t : Tail) (s : State) :
    exec (.launch h t) s = execLaunch h t s := rfl
@[simp] theorem exec_illegalOpcode (h : Head) (opc : BitVec 8) (tlen : BitVec 2) (d : Bool) (raw : BitVec 48) (s : State) :
    exec (.illegalOpcode h opc tlen d raw) s = execIllegalOpcode h opc tlen d raw s := rfl
@[simp] theorem exec_pauseExpire (s : State) :
    exec (.pauseExpire) s = execPauseExpire s := rfl
@[simp] theorem exec_dispatch (s : State) :
    exec (.dispatch) s = execDispatch s := rfl
@[simp] theorem exec_stageWaitExpire (s : State) :
    exec (.stageWaitExpire) s = execStageWaitExpire s := rfl
@[simp] theorem exec_stealRequest (s : State) :
    exec (.stealRequest) s = execStealRequest s := rfl
@[simp] theorem exec_stealServe (s : State) :
    exec (.stealServe) s = execStealServe s := rfl
@[simp] theorem exec_stealReply (s : State) :
    exec (.stealReply) s = execStealReply s := rfl
@[simp] theorem exec_releaseAccept (s : State) :
    exec (.releaseAccept) s = execReleaseAccept s := rfl
@[simp] theorem exec_spanHashCompare (s : State) :
    exec (.spanHashCompare) s = execSpanHashCompare s := rfl
@[simp] theorem exec_spanTwinTimeout (s : State) :
    exec (.spanTwinTimeout) s = execSpanTwinTimeout s := rfl
@[simp] theorem exec_continuationEnqueue (s : State) :
    exec (.continuationEnqueue) s = execContinuationEnqueue s := rfl
@[simp] theorem exec_gangAdmit (s : State) :
    exec (.gangAdmit) s = execGangAdmit s := rfl
@[simp] theorem exec_taskJoinSubtract (s : State) :
    exec (.taskJoinSubtract) s = execTaskJoinSubtract s := rfl
@[simp] theorem exec_stackGrowService (s : State) :
    exec (.stackGrowService) s = execStackGrowService s := rfl
@[simp] theorem exec_preemption (s : State) :
    exec (.preemption) s = execPreemption s := rfl
@[simp] theorem exec_contextSave (s : State) :
    exec (.contextSave) s = execContextSave s := rfl
@[simp] theorem exec_contextRestore (s : State) :
    exec (.contextRestore) s = execContextRestore s := rfl
@[simp] theorem exec_contextKill (s : State) :
    exec (.contextKill) s = execContextKill s := rfl
@[simp] theorem exec_blockingTimeout (s : State) :
    exec (.blockingTimeout) s = execBlockingTimeout s := rfl
@[simp] theorem exec_packetResendTimeout (s : State) :
    exec (.packetResendTimeout) s = execPacketResendTimeout s := rfl
@[simp] theorem exec_storePerform (s : State) :
    exec (.storePerform) s = execStorePerform s := rfl
@[simp] theorem exec_localAtomicPerform (s : State) :
    exec (.localAtomicPerform) s = execLocalAtomicPerform s := rfl
@[simp] theorem exec_guardBitsPerform (s : State) :
    exec (.guardBitsPerform) s = execGuardBitsPerform s := rfl
@[simp] theorem exec_writeMergeDrain (s : State) :
    exec (.writeMergeDrain) s = execWriteMergeDrain s := rfl
@[simp] theorem exec_messageArrival (s : State) :
    exec (.messageArrival) s = execMessageArrival s := rfl
@[simp] theorem exec_joinCountAdd (s : State) :
    exec (.joinCountAdd) s = execJoinCountAdd s := rfl
@[simp] theorem exec_dequePush (s : State) :
    exec (.dequePush) s = execDequePush s := rfl
@[simp] theorem exec_deczPerform (s : State) :
    exec (.deczPerform) s = execDeczPerform s := rfl
@[simp] theorem exec_readyRingConvert (s : State) :
    exec (.readyRingConvert) s = execReadyRingConvert s := rfl
@[simp] theorem exec_ringPutPerform (s : State) :
    exec (.ringPutPerform) s = execRingPutPerform s := rfl
@[simp] theorem exec_ringPutRetry (s : State) :
    exec (.ringPutRetry) s = execRingPutRetry s := rfl
@[simp] theorem exec_ringPutAbandon (s : State) :
    exec (.ringPutAbandon) s = execRingPutAbandon s := rfl
@[simp] theorem exec_launchQueueWrite (s : State) :
    exec (.launchQueueWrite) s = execLaunchQueueWrite s := rfl
@[simp] theorem exec_launchWriteAbandon (s : State) :
    exec (.launchWriteAbandon) s = execLaunchWriteAbandon s := rfl
@[simp] theorem exec_launchRecordTake (s : State) :
    exec (.launchRecordTake) s = execLaunchRecordTake s := rfl
@[simp] theorem exec_keyedLookupResult (s : State) :
    exec (.keyedLookupResult) s = execKeyedLookupResult s := rfl
@[simp] theorem exec_launchComplete (s : State) :
    exec (.launchComplete) s = execLaunchComplete s := rfl
@[simp] theorem exec_pacerRead (s : State) :
    exec (.pacerRead) s = execPacerRead s := rfl
@[simp] theorem exec_osubPerform (s : State) :
    exec (.osubPerform) s = execOsubPerform s := rfl
@[simp] theorem exec_osubAbandon (s : State) :
    exec (.osubAbandon) s = execOsubAbandon s := rfl
@[simp] theorem exec_outriderAccept (s : State) :
    exec (.outriderAccept) s = execOutriderAccept s := rfl
@[simp] theorem exec_outriderCmdStart (s : State) :
    exec (.outriderCmdStart) s = execOutriderCmdStart s := rfl
@[simp] theorem exec_copyTransfer (s : State) :
    exec (.copyTransfer) s = execCopyTransfer s := rfl
@[simp] theorem exec_copyComplete (s : State) :
    exec (.copyComplete) s = execCopyComplete s := rfl
@[simp] theorem exec_streamSlotFill (s : State) :
    exec (.streamSlotFill) s = execStreamSlotFill s := rfl
@[simp] theorem exec_listStart (s : State) :
    exec (.listStart) s = execListStart s := rfl
@[simp] theorem exec_listBranch (s : State) :
    exec (.listBranch) s = execListBranch s := rfl
@[simp] theorem exec_listEnd (s : State) :
    exec (.listEnd) s = execListEnd s := rfl
@[simp] theorem exec_stalledSlot (s : State) :
    exec (.stalledSlot) s = execStalledSlot s := rfl
@[simp] theorem exec_agentRld (s : State) :
    exec (.agentRld) s = execAgentRld s := rfl
@[simp] theorem exec_agentRst (s : State) :
    exec (.agentRst) s = execAgentRst s := rfl
@[simp] theorem exec_agentRred (s : State) :
    exec (.agentRred) s = execAgentRred s := rfl
@[simp] theorem exec_agentRredRk (s : State) :
    exec (.agentRredRk) s = execAgentRredRk s := rfl
@[simp] theorem exec_rredRkExpire (s : State) :
    exec (.rredRkExpire) s = execRredRkExpire s := rfl
@[simp] theorem exec_agentRcas (s : State) :
    exec (.agentRcas) s = execAgentRcas s := rfl
@[simp] theorem exec_agentRsax (s : State) :
    exec (.agentRsax) s = execAgentRsax s := rfl
@[simp] theorem exec_agentRfill (s : State) :
    exec (.agentRfill) s = execAgentRfill s := rfl
@[simp] theorem exec_agentRldb (s : State) :
    exec (.agentRldb) s = execAgentRldb s := rfl
@[simp] theorem exec_agentRemapResume (s : State) :
    exec (.agentRemapResume) s = execAgentRemapResume s := rfl
@[simp] theorem exec_replyArrival (s : State) :
    exec (.replyArrival) s = execReplyArrival s := rfl
@[simp] theorem exec_barrierArrival (s : State) :
    exec (.barrierArrival) s = execBarrierArrival s := rfl
@[simp] theorem exec_sectorCompletion (s : State) :
    exec (.sectorCompletion) s = execSectorCompletion s := rfl
@[simp] theorem exec_tbinitPerform (s : State) :
    exec (.tbinitPerform) s = execTbinitPerform s := rfl
@[simp] theorem exec_tbexpPerform (s : State) :
    exec (.tbexpPerform) s = execTbexpPerform s := rfl
@[simp] theorem exec_matrixCmdArrival (s : State) :
    exec (.matrixCmdArrival) s = execMatrixCmdArrival s := rfl
@[simp] theorem exec_matrixCmdTake (s : State) :
    exec (.matrixCmdTake) s = execMatrixCmdTake s := rfl
@[simp] theorem exec_matrixSwap (s : State) :
    exec (.matrixSwap) s = execMatrixSwap s := rfl
@[simp] theorem exec_tcfgPerform (s : State) :
    exec (.tcfgPerform) s = execTcfgPerform s := rfl
@[simp] theorem exec_tldStep (s : State) :
    exec (.tldStep) s = execTldStep s := rfl
@[simp] theorem exec_tstStep (s : State) :
    exec (.tstStep) s = execTstStep s := rfl
@[simp] theorem exec_tzeroPerform (s : State) :
    exec (.tzeroPerform) s = execTzeroPerform s := rfl
@[simp] theorem exec_aclrPerform (s : State) :
    exec (.aclrPerform) s = execAclrPerform s := rfl
@[simp] theorem exec_tdrainStep (s : State) :
    exec (.tdrainStep) s = execTdrainStep s := rfl
@[simp] theorem exec_tchkPerform (s : State) :
    exec (.tchkPerform) s = execTchkPerform s := rfl
@[simp] theorem exec_mmaStep (s : State) :
    exec (.mmaStep) s = execMmaStep s := rfl
@[simp] theorem exec_mmagStep (s : State) :
    exec (.mmagStep) s = execMmagStep s := rfl
@[simp] theorem exec_ringSlotCopy (s : State) :
    exec (.ringSlotCopy) s = execRingSlotCopy s := rfl
@[simp] theorem exec_tringInstall (s : State) :
    exec (.tringInstall) s = execTringInstall s := rfl
@[simp] theorem exec_castoffTile (s : State) :
    exec (.castoffTile) s = execCastoffTile s := rfl
@[simp] theorem exec_carriageStepResume (s : State) :
    exec (.carriageStepResume) s = execCarriageStepResume s := rfl
@[simp] theorem exec_cableSwapStart (s : State) :
    exec (.cableSwapStart) s = execCableSwapStart s := rfl
@[simp] theorem exec_cableSwapComplete (s : State) :
    exec (.cableSwapComplete) s = execCableSwapComplete s := rfl
@[simp] theorem exec_refresh (s : State) :
    exec (.refresh) s = execRefresh s := rfl
@[simp] theorem exec_thermalSample (s : State) :
    exec (.thermalSample) s = execThermalSample s := rfl
@[simp] theorem exec_scrubRead (s : State) :
    exec (.scrubRead) s = execScrubRead s := rfl
@[simp] theorem exec_rowRepairComplete (s : State) :
    exec (.rowRepairComplete) s = execRowRepairComplete s := rfl
@[simp] theorem exec_vaultBusParityError (s : State) :
    exec (.vaultBusParityError) s = execVaultBusParityError s := rfl
@[simp] theorem exec_tileRetire (s : State) :
    exec (.tileRetire) s = execTileRetire s := rfl
@[simp] theorem exec_tlbWalk (s : State) :
    exec (.tlbWalk) s = execTlbWalk s := rfl
@[simp] theorem exec_packetInject (s : State) :
    exec (.packetInject) s = execPacketInject s := rfl
@[simp] theorem exec_flitAdvance (s : State) :
    exec (.flitAdvance) s = execFlitAdvance s := rfl
@[simp] theorem exec_escapeEnter (s : State) :
    exec (.escapeEnter) s = execEscapeEnter s := rfl
@[simp] theorem exec_ejectTimeout (s : State) :
    exec (.ejectTimeout) s = execEjectTimeout s := rfl
@[simp] theorem exec_escapeSlotReserve (s : State) :
    exec (.escapeSlotReserve) s = execEscapeSlotReserve s := rfl
@[simp] theorem exec_escapeArrival (s : State) :
    exec (.escapeArrival) s = execEscapeArrival s := rfl
@[simp] theorem exec_closForward (s : State) :
    exec (.closForward) s = execClosForward s := rfl
@[simp] theorem exec_closEvict (s : State) :
    exec (.closEvict) s = execClosEvict s := rfl
@[simp] theorem exec_packetArrival (s : State) :
    exec (.packetArrival) s = execPacketArrival s := rfl
@[simp] theorem exec_ackArrival (s : State) :
    exec (.ackArrival) s = execAckArrival s := rfl
@[simp] theorem exec_nackArrival (s : State) :
    exec (.nackArrival) s = execNackArrival s := rfl
@[simp] theorem exec_lifelineEntryRequest (s : State) :
    exec (.lifelineEntryRequest) s = execLifelineEntryRequest s := rfl
@[simp] theorem exec_lfindPerform (s : State) :
    exec (.lfindPerform) s = execLfindPerform s := rfl
@[simp] theorem exec_lputPerform (s : State) :
    exec (.lputPerform) s = execLputPerform s := rfl
@[simp] theorem exec_lrelPerform (s : State) :
    exec (.lrelPerform) s = execLrelPerform s := rfl
@[simp] theorem exec_lstatReadPerform (s : State) :
    exec (.lstatReadPerform) s = execLstatReadPerform s := rfl
@[simp] theorem exec_lstatConfigPerform (s : State) :
    exec (.lstatConfigPerform) s = execLstatConfigPerform s := rfl
@[simp] theorem exec_lstatClosePerform (s : State) :
    exec (.lstatClosePerform) s = execLstatClosePerform s := rfl
@[simp] theorem exec_lifelineReply (s : State) :
    exec (.lifelineReply) s = execLifelineReply s := rfl
@[simp] theorem exec_hdmRead (s : State) :
    exec (.hdmRead) s = execHdmRead s := rfl
@[simp] theorem exec_hdmWrite (s : State) :
    exec (.hdmWrite) s = execHdmWrite s := rfl
@[simp] theorem exec_peerInboundAccess (s : State) :
    exec (.peerInboundAccess) s = execPeerInboundAccess s := rfl
@[simp] theorem exec_xaoldFlitError (s : State) :
    exec (.xaoldFlitError) s = execXaoldFlitError s := rfl
@[simp] theorem exec_mailboxRegisterWrite (s : State) :
    exec (.mailboxRegisterWrite) s = execMailboxRegisterWrite s := rfl
@[simp] theorem exec_readLog (s : State) :
    exec (.readLog) s = execReadLog s := rfl
@[simp] theorem exec_readCounters (s : State) :
    exec (.readCounters) s = execReadCounters s := rfl
@[simp] theorem exec_selectPerf (s : State) :
    exec (.selectPerf) s = execSelectPerf s := rfl
@[simp] theorem exec_setPower (s : State) :
    exec (.setPower) s = execSetPower s := rfl
@[simp] theorem exec_quiesceComplete (s : State) :
    exec (.quiesceComplete) s = execQuiesceComplete s := rfl
@[simp] theorem exec_readThermal (s : State) :
    exec (.readThermal) s = execReadThermal s := rfl
@[simp] theorem exec_preempt (s : State) :
    exec (.preempt) s = execPreempt s := rfl
@[simp] theorem exec_resume (s : State) :
    exec (.resume) s = execResume s := rfl
@[simp] theorem exec_kill (s : State) :
    exec (.kill) s = execKill s := rfl
@[simp] theorem exec_setRoute (s : State) :
    exec (.setRoute) s = execSetRoute s := rfl
@[simp] theorem exec_peerEnable (s : State) :
    exec (.peerEnable) s = execPeerEnable s := rfl
@[simp] theorem exec_attest (s : State) :
    exec (.attest) s = execAttest s := rfl
@[simp] theorem exec_inject (s : State) :
    exec (.inject) s = execInject s := rfl
@[simp] theorem exec_errorLogPost (s : State) :
    exec (.errorLogPost) s = execErrorLogPost s := rfl
@[simp] theorem exec_moduleReset (s : State) :
    exec (.moduleReset) s = execModuleReset s := rfl
@[simp] theorem exec_hobbleWindow (s : State) :
    exec (.hobbleWindow) s = execHobbleWindow s := rfl
@[simp] theorem exec_computeDieOvertemp (s : State) :
    exec (.computeDieOvertemp) s = execComputeDieOvertemp s := rfl
@[simp] theorem exec_badOpc (s : State) :
    exec (.badOpc) s = execBadOpc s := rfl
@[simp] theorem exec_ideKm (s : State) :
    exec (.ideKm) s = execIdeKm s := rfl

end Sys2Proof.Laws
end

