-- ==== Sys2Proof/Laws/Head.lean ====
section
/-! SUPPORT. What running one head can do: one lemma per outcome of `runHead`, and the same for
every mould of the instruction families. -/

namespace Sys2Proof.Laws

open Sys2Proof.Machine

section

variable {s : State} {h : Head} {t : Tail} {n : Nat} {cl : LitClass} {a b d : Word} {st st' : Stage}

/-- A context that is not in RUN issues nothing. -/
theorem runHead_idle {f : State → Nat → Ctx → Stage → HeadResult} (hr : (s.ctx s.cur).st ≠ .run) :
    runHead s h n f = .next s := by simp [runHead, hr]

/-- A false guard: the zeros of the form are pushed (R91). -/
theorem runHead_false {f : State → Nat → Ctx → Stage → HeadResult} (hr : (s.ctx s.cur).st = .run)
    (hg : guardHolds (s.ctx s.cur) h = false) :
    runHead s h n f = .next (afterHead s s.cur h (((s.ctx s.cur).stageNow s.cycle).pushZeros n)) := by
  simp [runHead, hr, hg]

/-- A head whose guard holds does what its body gives. -/
theorem runHead_true {f : State → Nat → Ctx → Stage → HeadResult} (hr : (s.ctx s.cur).st = .run)
    (hg : guardHolds (s.ctx s.cur) h = true) :
    runHead s h n f =
      .next (match f s s.cur (s.ctx s.cur) ((s.ctx s.cur).stageNow s.cycle) with
        | .ok st1 => afterHead s s.cur h st1
        | .stop x => stopHead s s.cur h.chain ((s.ctx s.cur).stageNow s.cycle) x
        | .trap cause code =>
          let st := (s.ctx s.cur).stageNow s.cycle
          afterHead s s.cur h { st with trap := st.trap.or (some (st.at_, cause, code)) }
        | .guard =>
          let st := (s.ctx s.cur).stageNow s.cycle
          afterHead s s.cur h { st with guardAt := st.guardAt.or (some st.at_) }) := by
  simp only [runHead, hr, hg]
  cases f s s.cur (s.ctx s.cur) ((s.ctx s.cur).stageNow s.cycle) <;> simp

/-- Every head answers a next state. -/
theorem runHead_next {f : State → Nat → Ctx → Stage → HeadResult} : ∃ s', runHead s h n f = .next s' := by
  by_cases hr : (s.ctx s.cur).st = .run
  · cases hg : guardHolds (s.ctx s.cur) h
    · exact ⟨_, runHead_false hr hg⟩
    · exact ⟨_, runHead_true hr hg⟩
  · exact ⟨_, runHead_idle hr⟩

/-- A head that completes. -/
theorem runHead_ok {f : State → Nat → Ctx → Stage → HeadResult} (hr : (s.ctx s.cur).st = .run)
    (hg : guardHolds (s.ctx s.cur) h = true)
    (hf : f s s.cur (s.ctx s.cur) ((s.ctx s.cur).stageNow s.cycle) = .ok st) :
    runHead s h n f = .next (afterHead s s.cur h st) := by rw [runHead_true hr hg, hf]

/-- A head that stops. -/
theorem runHead_stop {f : State → Nat → Ctx → Stage → HeadResult} {x : Stop} (hr : (s.ctx s.cur).st = .run)
    (hg : guardHolds (s.ctx s.cur) h = true)
    (hf : f s s.cur (s.ctx s.cur) ((s.ctx s.cur).stageNow s.cycle) = .stop x) :
    runHead s h n f = .next (stopHead s s.cur h.chain ((s.ctx s.cur).stageNow s.cycle) x) := by
  rw [runHead_true hr hg, hf]

/-- A fault waits for the end of the bundle: the next head runs, or the bundle ends (R95, R96). -/
@[simp] theorem stopHead_fault {g : Nat} {chain : Bool} {f : HeadFault} :
    stopHead s g chain st (.fault f) =
      nextHeadOf s g chain { st with pend := st.pend.or (some (st.at_, f)) } := rfl

/-- At the last head a bundle with a fault and no pending GUARD takes the lowest head's fault (R96). -/
theorem finishBundle_fault {g i : Nat} {f : HeadFault} (hg : st.guardAt = none) (hp : st.pend = some (i, f)) :
    finishBundle s g st = faultHead s g { st with at_ := i } f := by simp [finishBundle, hg, hp]

/-- At the last head a bundle with no fault and no pending GUARD takes the lowest head's trap (R95, R174). -/
theorem finishBundle_trap {g i : Nat} {cause : Cause} {code : Word} (hg : st.guardAt = none) (hp : st.pend = none)
    (ht : st.trap = some (i, cause, code)) :
    finishBundle s g st = instrTrap s g { st with at_ := i } cause code := by simp [finishBundle, hg, hp, ht]

/-! ### The moulds -/

/-- A form that pushes one value. -/
theorem pushForm_ok {f : State → Nat → Ctx → Word → Word → Word → Word} (hr : (s.ctx s.cur).st = .run)
    (hg : guardHolds (s.ctx s.cur) h = true)
    (ho : operands cl (s.ctx s.cur) t ((s.ctx s.cur).stageNow s.cycle) = .ok (a, b, d, st)) :
    pushForm cl h t s f = .next (afterHead s s.cur h (st.push (f s s.cur (s.ctx s.cur) a b d) (tailD t))) :=
  runHead_ok hr hg (by simp [pushBody, ho])

/-- An integer form (R143). -/
theorem intForm_ok {f : Nat → Int → Int → Int → Int} (hr : (s.ctx s.cur).st = .run)
    (hg : guardHolds (s.ctx s.cur) h = true)
    (ho : operands (.int (tailSigned t)) (s.ctx s.cur) t ((s.ctx s.cur).stageNow s.cycle) = .ok (a, b, d, st)) :
    intForm h t s f = .next (afterHead s s.cur h (st.push (intPush (tailSigned t) (tailW t)
      (f (tailW t) (intOf (tailSigned t) (tailW t) a) (intOf (tailSigned t) (tailW t) b)
        (intOf (tailSigned t) (tailW t) d))) (tailD t))) := pushForm_ok hr hg ho

/-- A form on bit patterns (R143). -/
theorem bitForm_ok {f : Nat → Nat → Nat → Nat → Nat} (hr : (s.ctx s.cur).st = .run)
    (hg : guardHolds (s.ctx s.cur) h = true)
    (ho : operands (.int (tailSigned t)) (s.ctx s.cur) t ((s.ctx s.cur).stageNow s.cycle) = .ok (a, b, d, st)) :
    bitForm h t s f = .next (afterHead s s.cur h (st.push (intPush (tailSigned t) (tailW t)
      (f (tailW t) (a.toNat % 2 ^ tailW t) b.toNat d.toNat : Nat)) (tailD t))) := pushForm_ok hr hg ho

/-- A form that sets a predicate (R149, R157). -/
theorem predForm_ok {f : Ctx → Word → Word → Bool × Flags} (hr : (s.ctx s.cur).st = .run)
    (hg : guardHolds (s.ctx s.cur) h = true)
    (ho : operands cl (s.ctx s.cur) t ((s.ctx s.cur).stageNow s.cycle) = .ok (a, b, d, st)) :
    predForm cl h t s f = .next (afterHead s s.cur h ((st.setPred (tailM t / 32)
      (f (s.ctx s.cur) a b).1).raise (f (s.ctx s.cur) a b).2)) :=
  runHead_ok hr hg (by simp [ho])

/-- A floating-point form (R154). -/
theorem fpForm_ok {f : Rm → Bool → Nat → Nat → Nat → Nat × Flags} (hr : (s.ctx s.cur).st = .run)
    (hg : guardHolds (s.ctx s.cur) h = true)
    (ho : operands .fp (s.ctx s.cur) t ((s.ctx s.cur).stageNow s.cycle) = .ok (a, b, d, st)) :
    fpForm h t s f = .next (afterHead s s.cur h ((st.push (BitVec.ofNat 64
      (f (rmOf (tailM t)) (s.ctx s.cur).ftz (a.toNat % 2 ^ 32) (b.toNat % 2 ^ 32) (d.toNat % 2 ^ 32)).1)
      (tailD t)).raise
      (f (rmOf (tailM t)) (s.ctx s.cur).ftz (a.toNat % 2 ^ 32) (b.toNat % 2 ^ 32) (d.toNat % 2 ^ 32)).2)) :=
  runHead_ok hr hg (by simp only [ho])

/-- A form that reads srcA. -/
theorem aForm_ok {f : State → Nat → Ctx → Stage → Word → HeadResult} (hr : (s.ctx s.cur).st = .run)
    (hg : guardHolds (s.ctx s.cur) h = true)
    (ho : operands (.int false) (s.ctx s.cur) t ((s.ctx s.cur).stageNow s.cycle) = .ok (a, b, d, st))
    (hf : f s s.cur (s.ctx s.cur) st a = .ok st') :
    aForm h t s f = .next (afterHead s s.cur h st') := runHead_ok hr hg (by simp [ho, hf])

/-- A privileged form in system mode, or one that user mode is not denied. -/
theorem privForm_ok {f : State → Nat → Ctx → Stage → Word → HeadResult} {denied : Bool} (hr : (s.ctx s.cur).st = .run)
    (hg : guardHolds (s.ctx s.cur) h = true) (hp : (denied && !(s.ctx s.cur).sys) = false)
    (ho : operands (.int false) (s.ctx s.cur) t ((s.ctx s.cur).stageNow s.cycle) = .ok (a, b, d, st))
    (hf : f s s.cur (s.ctx s.cur) st a = .ok st') :
    privForm h t s denied f = .next (afterHead s s.cur h st') := runHead_ok hr hg (by simp [hp, ho, hf])

/-- User mode takes PRIVILEGE before any operand is read (R109, R405). -/
theorem privForm_denied {f : State → Nat → Ctx → Stage → Word → HeadResult} (hr : (s.ctx s.cur).st = .run)
    (hg : guardHolds (s.ctx s.cur) h = true) (hp : (s.ctx s.cur).sys = false) :
    privForm h t s true f =
      .next (stopHead s s.cur h.chain ((s.ctx s.cur).stageNow s.cycle) (.of .privilege)) :=
  runHead_stop hr hg (by simp [hp])

/-- A privileged memory form in system mode. -/
theorem sysForm_ok {f : State → Nat → Ctx → Word → Word → Word → Stage → HeadResult} (hr : (s.ctx s.cur).st = .run)
    (hg : guardHolds (s.ctx s.cur) h = true) (hp : (s.ctx s.cur).sys = true)
    (ho : operands (.int false) (s.ctx s.cur) t ((s.ctx s.cur).stageNow s.cycle) = .ok (a, b, d, st))
    (hf : f s s.cur (s.ctx s.cur) a b d st = .ok st') :
    sysForm h t s n f = .next (afterHead s s.cur h st') := runHead_ok hr hg (by simp [hp, ho, hf])

/-- A privileged memory form in user mode takes PRIVILEGE (R109, R405). -/
theorem sysForm_denied {f : State → Nat → Ctx → Word → Word → Word → Stage → HeadResult} (hr : (s.ctx s.cur).st = .run)
    (hg : guardHolds (s.ctx s.cur) h = true) (hp : (s.ctx s.cur).sys = false) :
    sysForm h t s n f =
      .next (stopHead s s.cur h.chain ((s.ctx s.cur).stageNow s.cycle) (.of .privilege)) :=
  runHead_stop hr hg (by simp [hp])

/-- A memory form. -/
theorem memForm_ok {f : State → Nat → Ctx → Word → Word → Word → Stage → HeadResult} (hr : (s.ctx s.cur).st = .run)
    (hg : guardHolds (s.ctx s.cur) h = true)
    (ho : operands (.int false) (s.ctx s.cur) t ((s.ctx s.cur).stageNow s.cycle) = .ok (a, b, d, st))
    (hf : f s s.cur (s.ctx s.cur) a b d st = .ok st') :
    memForm h t s n f = .next (afterHead s s.cur h st') := runHead_ok hr hg (by simp [ho, hf])

/-- A form on queues. -/
theorem queueForm_ok {f : State → Nat → Ctx → Word → Word → Word → Stage → Except Stop Stage}
    (hr : (s.ctx s.cur).st = .run) (hg : guardHolds (s.ctx s.cur) h = true)
    (ho : operands (.int false) (s.ctx s.cur) t ((s.ctx s.cur).stageNow s.cycle) = .ok (a, b, d, st))
    (hf : f s s.cur (s.ctx s.cur) a b d st = .ok st') :
    queueForm h t s n f = .next (afterHead s s.cur h st') :=
  runHead_ok hr hg (by simp [ho, hf, HeadResult.of])

/-- A vector form. -/
theorem vecForm_ok {f : State → Nat → Ctx → Shape → Word → Word → Word → Stage → HeadResult}
    (hr : (s.ctx s.cur).st = .run) (hg : guardHolds (s.ctx s.cur) h = true)
    (ho : operands (.int false) (s.ctx s.cur) t ((s.ctx s.cur).stageNow s.cycle) = .ok (a, b, d, st))
    (hf : f s s.cur (s.ctx s.cur) (s.ctx s.cur).shape a b d st = .ok st') :
    vecForm h t s n f = .next (afterHead s s.cur h st') := runHead_ok hr hg (by simp [ho, hf])

/-- A vector form whose TYPE matches the width of %vshape (R186). -/
theorem typedForm_ok {f : State → Nat → Ctx → Shape → Word → Word → Word → Stage → HeadResult}
    (hr : (s.ctx s.cur).st = .run) (hg : guardHolds (s.ctx s.cur) h = true)
    (ho : operands (.int false) (s.ctx s.cur) t ((s.ctx s.cur).stageNow s.cycle) = .ok (a, b, d, st))
    (ht : tyBytes (vTy t) = (s.ctx s.cur).shape.e)
    (hf : f s s.cur (s.ctx s.cur) (s.ctx s.cur).shape a b d st = .ok st') :
    typedForm h t s n f = .next (afterHead s s.cur h st') := vecForm_ok hr hg ho (by simp [ht, hf])

end

end Sys2Proof.Laws
end

