-- ==== Sys2Proof/Laws/Width.lean ====
section
/-! SUPPORT. The numbers of W bits that the integer forms read and push, as bit vectors. -/

namespace Sys2Proof.Laws

open Sys2Proof.Machine

/-- W is 64, 32, 16 or 8. -/
theorem tailW_cases (t : Tail) : tailW t = 64 ∨ tailW t = 32 ∨ tailW t = 16 ∨ tailW t = 8 := by
  unfold tailW
  have : tailM t % 4 < 4 := Nat.mod_lt _ (by decide)
  interval_cases (tailM t % 4) <;> decide

theorem tailW_pos (t : Tail) : 0 < tailW t := by rcases tailW_cases t with h | h | h | h <;> omega

theorem tailW_le (t : Tail) : tailW t ≤ 64 := by rcases tailW_cases t with h | h | h | h <;> omega

/-- Two's complement of `w` bits. -/
theorem sint_eq (w v : Nat) : sint w v = (BitVec.ofNat w v).toInt := by
  simp only [sint, BitVec.toInt_eq_toNat_cond, BitVec.toNat_ofNat]
  split <;> split <;> omega

/-- r mod 2^w. -/
theorem wrapInt_eq (w : Nat) (r : Int) : wrapInt w r = (BitVec.ofInt w r).toNat := by
  simp [wrapInt, BitVec.toNat_ofInt]

theorem intOf_true (w : Nat) (a : Word) : intOf true w a = (a.setWidth w).toInt := by
  simp [intOf, sint_eq, BitVec.ofNat_toNat]

theorem intOf_false (w : Nat) (a : Word) : intOf false w a = ((a.setWidth w).toNat : Int) := by
  simp [intOf]

theorem intPush_true (w : Nat) (r : Int) : intPush true w r = (BitVec.ofInt w r).signExtend 64 := by
  have h : (BitVec.ofNat w (BitVec.ofInt w r).toNat) = BitVec.ofInt w r := by
    apply BitVec.eq_of_toNat_eq; rw [BitVec.toNat_ofNat]; exact Nat.mod_eq_of_lt (BitVec.isLt _)
  simp only [intPush, wrapInt_eq, sint_eq, h, BitVec.signExtend, if_true]

theorem intPush_false (w : Nat) (r : Int) : intPush false w r = (BitVec.ofInt w r).setWidth 64 := by
  simp only [intPush, wrapInt_eq]
  apply BitVec.eq_of_toNat_eq
  simp [BitVec.toNat_setWidth]

/-- A bit pattern pushed is the vector of its low bits. -/
theorem intPush_nat (sg : Bool) (w n : Nat) : intPush sg w (n : Int) =
    if sg then (BitVec.ofNat w n).signExtend 64 else (BitVec.ofNat w n).setWidth 64 := by
  cases sg
  · rw [intPush_false, BitVec.ofInt_natCast]; rfl
  · rw [intPush_true, BitVec.ofInt_natCast]; rfl

end Sys2Proof.Laws
end

