-- ==== Sys2Proof/Safety.lean ====
section
/-! DEFINITION. What counts as a safe run, in the terms that statements use: the canonical forms
of the machine's memory and of its tables. -/

namespace Sys2Proof.Machine

/-- Memory is in its canonical form. -/
abbrev State.MemOk (s : State) : Prop := memWf s.mem = true

end Sys2Proof.Machine
end

