-- ==== Sys2Proof/Certificates/Slice0/Obligations.lean ====
section
/-! DEFINITION. The statements about the model, with the vocabulary they are written in. -/

namespace Sys2Proof.Stated

open Sys2Proof.Machine

/-! ### A head at its turn -/

/-- The context whose turn it is. -/
abbrev me (s : State) : Ctx := s.ctx s.cur

/-- The bundle in progress of that context, as it stands before the head (R94). -/
abbrev bundle (s : State) : Stage := (me s).stageNow s.cycle

/-- The context whose turn it is runs, and the guard of the head holds (R28, R90). -/
def Issues (s : State) (h : Head) : Prop := (me s).st = .run ∧ guardHolds (me s) h = true

/-- The head reads `a`, `b` and `c` from its sources; `st` is the bundle with its pops (R94, R97). -/
def Reads (cl : LitClass) (s : State) (t : Tail) (a b c : Word) (st : Stage) : Prop :=
  operands cl (me s) t (bundle s) = .ok (a, b, c, st)

/-- The head has completed with the bundle `st`: the next head of the bundle, or its end. -/
abbrev after (s : State) (h : Head) (st : Stage) : State := afterHead s s.cur h st

/-- The head faults with `f`: the rest of the bundle runs first, and the fault of the lowest-numbered head is
taken at its end (R96). -/
abbrev faulting (s : State) (h : Head) (f : HeadFault) : State :=
  after s h { bundle s with pend := (bundle s).pend.or (some ((bundle s).at_, f)) }

/-- A target is refused with `cause`. -/
abbrev refuses (cause : Cause) : Target := .err ⟨cause, none, false⟩

/-- `v` is pushed, and written to the destination when there is one (R92, R98). -/
abbrev pushed (st : Stage) (t : Tail) (v : Word) : Stage := st.push v (tailD t)

/-- One effect enters the buffer (R36). -/
abbrev holds (st : Stage) (e : Effect) : Stage := st.act (.effects [e])

/-! ### Numbers of W bits (R143) -/

/-- An operand as its low W bits, read under the suffix. -/
def rd (sg : Bool) (w : Nat) (a : Word) : Int :=
  if sg then (a.setWidth w).toInt else ((a.setWidth w).toNat : Int)

/-- W bits extended to 64 under the suffix. -/
def ext {w : Nat} (sg : Bool) (x : BitVec w) : Word := if sg then x.signExtend 64 else x.setWidth 64

/-- An exact result r pushed: r mod 2^W, extended under the suffix. -/
def wr (sg : Bool) (w : Nat) (r : Int) : Word := ext sg (BitVec.ofInt w r)

/-- The range of W bits under the suffix (R146). -/
def least (sg : Bool) (w : Nat) : Int := if sg then -(2 ^ (w - 1)) else 0
/-- Its greatest value. -/
def greatest (sg : Bool) (w : Nat) : Int := if sg then 2 ^ (w - 1) - 1 else 2 ^ w - 1

/-- `n` is the number of leading zeros of `x`. -/
def LeadingZeros {w : Nat} (x : BitVec w) (n : Nat) : Prop :=
  n ≤ w ∧ (∀ i, w - n ≤ i → x.getLsbD i = false) ∧ (n < w → x.getLsbD (w - 1 - n) = true)

/-- `n` is the number of trailing zeros of `x`. -/
def TrailingZeros {w : Nat} (x : BitVec w) (n : Nat) : Prop :=
  n ≤ w ∧ (∀ i, i < n → x.getLsbD i = false) ∧ (n < w → x.getLsbD n = true)

/-- `n` is the number of bits below the top bit of `x` that equal it without a break. -/
def SignRun {w : Nat} (x : BitVec w) (n : Nat) : Prop :=
  n ≤ w - 1 ∧ (∀ i, w - 1 - n ≤ i → i < w → x.getLsbD i = x.msb) ∧
    (n < w - 1 → x.getLsbD (w - 2 - n) = !x.msb)

/-! ### Memory at a head -/

/-- The bytes lie at `l`, and nothing hinders a load of them: no row repair or busy page, no guard, no
stale generation, no armed injection, no poison (R259, R261, R256, R294, R429, R254). -/
def Readable (s : State) (r : Reach) (ea n al : Nat) (l : Loc) : Prop :=
  locate s s.cur r ea n al false = .ok l ∧ stalledOver s l.key n = false ∧ guarded s l.key n = false ∧
    staleAt s l.home (tagOf s (tileOf s.cur) (me s).asid) = false ∧ injRead s l.key = false ∧
    poisoned s l.key n = false

/-- Nothing hinders a direct store of `n` bytes at `l`. -/
def Writable (s : State) (l : Loc) (n : Nat) : Prop :=
  stalledOver s l.key n = false ∧ guarded s l.key n = false ∧
    staleAt s l.home (tagOf s (tileOf s.cur) (me s).asid) = false

/-- The bytes that a load of the context sees: its home's, with the context's own stores over them (R36). -/
abbrev seen (s : State) (st : Stage) (k n : Nat) : List Byte :=
  forward (ownStores s (me s) st) k (visRead s k n)

/-- A translated address that the TLB does not hold takes a walk (R371). -/
abbrev walks (s : State) (ea : Nat) (st : Stage) : Stage :=
  if tlbMiss s (tileOf s.cur) (me s).asid ea then st.act (.walk (me s).asid ea) else st

/-- A load takes its walk, and updates LAST of a vault page (R371, R373). -/
abbrev touched (s : State) (ea : Nat) (st : Stage) (l : Loc) (n : Nat) : Stage :=
  if isVault l.key then (walks s ea st).act (.touch l.key n) else walks s ea st

/-- The bundle after a remote form whose R lies at `lr`: one effect that carries the request, which a
non-blocking form holds and a blocking form waits for; `val` when the reply brings a value (R275, R276). -/
def requests (s : State) (t : Tail) (opc lbytes : Nat) (lr : Loc) (r : Word) (l : Option Word) (bar : Option Bar)
    (barWord v : Word) (data : List Byte) (val : Bool) (st : Stage) : Stage :=
  let keys := l.map (fun x => localKeys s s.cur x.toNat lbytes)
  let e := mkEffect opc t 0 r.toNat
    (bytesLE 8 (l.getD 0).toNat ++ bytesLE 8 barWord.toNat ++ bytesLE 8 v.toNat ++ data)
    [(lr.home, .remote
      { opc := opc, modf := effMod t, ctl := (tailF t).toNat, key := lr.key,
        tag := tagOf s (tileOf s.cur) (me s).asid, tile := tileOf s.cur, ctx := ownerOf s s.cur,
        act := (me s).act, l := keys.map (·.1), lp := keys.bind (·.2), bar := bar, v := v, data := data,
        time := 0, pkt := 0 })]
  if rNB t then holds st e
  else if val then (pushed st t 0).act (.blocking e (some st.pushes.length) ((tailD t).map (fun _ => st.regs.length)))
  else st.act (.blocking e none none)

/-- Nothing hinders a direct read of `n` tile-local bytes (R256, R294, R429, R254). -/
def plainOk (s : State) (ea n : Nat) : Bool :=
  let k := keyScratch (tileOf s.cur) ea
  !guarded s k n && !staleAt s (tileOf s.cur) (tagOf s (tileOf s.cur) (me s).asid) && !injRead s k &&
    !poisoned s k n

/-- The effect of a matrix instruction (R216): its command with the values as read at issue. -/
def matrixEffect (s : State) (t : Tail) (opc tgt : Nat) (r b cv : Word) (asid : Nat) (desc : List Byte) : Effect :=
  let here := tileOf s.cur
  let gen := igen (genEntry s here asid)
  let ftz := (me s).fpctl.getLsbD 8
  mkEffect opc t 0 r.toNat
    (bytesLE 8 r.toNat ++ bytesLE 8 b.toNat ++ bytesLE 8 cv.toNat ++ bytesLE 4 (me s).cap.toNat ++
      bytesLE 1 ftz.toNat ++ bytesLE 1 asid ++ bytesLE 2 gen ++ desc)
    [(tgt, .matrix
      { opc := opc, modf := effMod t, ctl := (tailF t).toNat, route := r, b := b, nob := tailB t = .zero,
        c := cv, cap := (me s).cap, ftz := ftz, asid := asid, gen := gen, desc := desc, tile := here,
        ctx := ownerOf s s.cur % 16, lslot := (me s).lslot,
        bar := if r.getLsbD 0 then some ⟨here, (r.extractLsb' 4 17).toNat * 16⟩ else none })]

/-- The values that a form pushes, by its opcode (R91, R144-R402). -/
def pushes (opc : Nat) (i : Instr) : Nat :=
  match i with
  | .ldp .. => 2
  | .rld _ t | .rcas _ t => if rNB t then 0 else 1
  | .cmp .. | .test .. | .btst .. | .fcmp .. => 0
  | .crd .. | .rdcyc .. | .psave .. | .vmovsGet .. | .vspop .. | .ld .. | .ldx .. | .ldxTag .. | .aadd .. | .aand ..
  | .aor .. | .axor .. | .amin .. | .amax .. | .aswap .. | .acas .. | .cmask .. | .cunmask .. | .join ..
  | .rngget .. | .srctlQuery .. | .srctlStop .. | .srctlRewind .. | .tbwait .. | .tbwaitB .. | .tbtest .. => 1
  | _ => if opc < 0x60 then 1 else 0

/-- The integer instructions that read their operands under their suffix. -/
def intInstrs (h : Head) (t : Tail) : List Instr :=
  [Instr.add h t, .sub h t, .mul h t, .mulh h t, .madd h t, .div h t, .rem h t, .neg h t, .abs h t,
   .min h t, .max h t, .adds h t, .subs h t, .and h t, .or h t, .xor h t, .andn h t, .orn h t,
   .not h t, .shl h t, .shr h t, .sar h t, .rol h t, .ror h t, .clz h t, .ctz h t, .popc h t,
   .brev h t, .bswap h t, .bfx h t, .bfi h t, .ext h t, .cmp h t, .test h t, .btst h t, .sel h t,
   .mov h t, .ldi h t, .ldk h t, .lea h t, .alignup h t, .aligndn h t, .bound h t, .bset h t,
   .bclr h t, .binv h t, .perm h t, .cls h t, .absd h t, .avg h t, .mulw h t, .shladd h t, .pset h t]

/-- The floating-point instructions that read FP32 operands. -/
def fpInstrs (h : Head) (t : Tail) : List Instr :=
  [Instr.fadd h t, .fsub h t, .fmul h t, .fdiv h t, .fsqrt h t, .fma h t, .fms h t, .fnma h t,
   .fmin h t, .fmax h t, .fabs h t, .fneg h t, .fcpys h t, .fcmp h t, .fclass h t, .frint h t,
   .fcvt h t, .fcvti h t, .icvtf h t, .fcvtn h t, .fcvtw h t, .fminnum h t, .fmaxnum h t, .flogb h t,
   .fexp2 h t, .frcp h t, .frsq h t]

/-- The bundle of the context whose turn it is ends with nothing but its own results: no report, fault or
trap is staged, no wait checked a reply, no earlier head of it waits, and no pre-emption is due. -/
def Clean (s : State) (st : Stage) : Prop :=
  st.guardAt = none ∧ st.pend = none ∧ st.trap = none ∧ st.checks = [] ∧ (me s).saveDue = false ∧
    (me s).waiting = .none ∧ (me s).resume = none

/-- The state at the check of CTX_TRAPVEC: the trap record is written at `l` and the context is in
system mode (R406). -/
def trapped (s : State) (g : Nat) (i : TrapInfo) (l : Loc) : State :=
  (performStore s l.key (trapRecord i (s.ctx g).status s.cycle) 0).modCtx g (fun c => { c with
      status := putFld c.status 15 1 1, st := .run, waiting := .none, stage := none, resume := none, line := none,
      trapDue := none, lastBpc := i.bpc, tested := true,
      faulted := if i.imprecise || i.reply || i.cause == .trap || i.cause == .syscall || i.cause == .bkpt then none
        else some (i.ending false) })

end Sys2Proof.Stated

section

open Sys2Proof Sys2Proof.Machine Sys2Proof.Stated

/-! ### Integer instructions -/

/-- R143, R145, R146: what the arithmetic forms push. -/
def Obligations.IntegerArithmetic : Prop :=
  ∀ (s : State) (h : Head) (t : Tail) (a b c : Word) (st : Stage),
    let sg := tailSigned t
    let w := tailW t
    let x := rd sg w a
    let y := rd sg w b
    let z := rd sg w c
    let is (i : Instr) (r : Int) : Prop := exec i s = .next (after s h (pushed st t (wr sg w r)))
    Issues s h → Reads (.int sg) s t a b c st →
    is (.add h t) (x + y) ∧ is (.sub h t) (x - y) ∧ is (.mul h t) (x * y) ∧
    is (.mulh h t) (Int.fdiv (x * y) (2 ^ w)) ∧ is (.madd h t) (x * y + z) ∧
    is (.div h t) (if y = 0 then 2 ^ w - 1 else Int.tdiv x y) ∧
    is (.rem h t) (if y = 0 then x else x - y * Int.tdiv x y) ∧
    is (.neg h t) (-x) ∧ is (.abs h t) |x| ∧ is (.min h t) (min x y) ∧ is (.max h t) (max x y) ∧
    is (.adds h t) (max (least sg w) (min (greatest sg w) (x + y))) ∧
    is (.subs h t) (max (least sg w) (min (greatest sg w) (x - y))) ∧
    is (.mov h t) x ∧ is (.avg h t) (Int.fdiv (x + y + 1) 2) ∧
    is (.lea h t) (x + y * 2 ^ (tailM t / 16 % 4) + z) ∧
    is (.bound h t) (if y ≤ 0 then 0 else max 0 (min x (y - 1))) ∧
    is (.shladd h t) (x * 2 ^ (c.toNat % 64) + y) ∧
    exec (.absd h t) s = .next (after s h (pushed st t (wr false w |x - y|))) ∧
    exec (.mulw h t) s = .next (after s h (pushed st t (wr sg (2 * w) (x * y))))

/-- R145: what the logic, shift and bit forms push, as W-bit vectors. -/
def Obligations.IntegerBits : Prop :=
  ∀ (s : State) (h : Head) (t : Tail) (a b c : Word) (st : Stage),
    let sg := tailSigned t
    let w := tailW t
    let x := a.setWidth w
    let y := b.setWidth w
    let n := b.toNat % w
    let k := b.toNat % 64
    let is (i : Instr) (r : BitVec w) : Prop := exec i s = .next (after s h (pushed st t (ext sg r)))
    Issues s h → Reads (.int sg) s t a b c st →
    is (.and h t) (x &&& y) ∧ is (.or h t) (x ||| y) ∧ is (.xor h t) (x ^^^ y) ∧
    is (.andn h t) (x &&& ~~~y) ∧ is (.orn h t) (x ||| ~~~y) ∧ is (.not h t) (~~~x) ∧
    is (.shl h t) (x <<< n) ∧ is (.shr h t) (x >>> n) ∧ is (.sar h t) (x.sshiftRight n) ∧
    is (.rol h t) (x.rotateLeft n) ∧ is (.ror h t) (x.rotateRight n) ∧
    is (.bset h t) (x ||| BitVec.twoPow w n) ∧ is (.bclr h t) (x &&& ~~~(BitVec.twoPow w n)) ∧
    is (.binv h t) (x ^^^ BitVec.twoPow w n) ∧
    is (.brev h t) (BitVec.ofBoolListLE ((List.range w).map (fun i => x.getLsbD (w - 1 - i)))  |>.setWidth w) ∧
    is (.bswap h t) (BitVec.ofBoolListLE ((List.range w).map (fun i =>
      x.getLsbD (8 * (w / 8 - 1 - i / 8) + i % 8))) |>.setWidth w) ∧
    (tailM t % 4 = 0 →
      is (.alignup h t) (BitVec.ofNat w ((a.toNat + (2 ^ k - 1)) / 2 ^ k * 2 ^ k)) ∧
      is (.aligndn h t) (x >>> k <<< k) ∧
      is (.perm h t) (BitVec.ofBoolListLE ((List.range 64).map (fun i =>
        let f := b.toNat / 16 ^ (i / 8) % 16
        decide (f < 8) && a.getLsbD (8 * f + i % 8))) |>.setWidth w))

/-- R145, R147: what the counting and bit-field forms push. -/
def Sys2Proof.Stated.IntegerCountsAndFields : Prop :=
  ∀ (s : State) (h : Head) (t : Tail) (a b c : Word) (st : Stage),
    let sg := tailSigned t
    let w := tailW t
    let x := a.setWidth w
    let is (i : Instr) (v : Word) : Prop := exec i s = .next (after s h (pushed st t v))
    Issues s h → Reads (.int sg) s t a b c st →
    (∃ n, LeadingZeros x n ∧ is (.clz h t) (wr sg w n)) ∧
    (∃ n, TrailingZeros x n ∧ is (.ctz h t) (wr sg w n)) ∧
    (∃ n, SignRun x n ∧ is (.cls h t) (wr sg w n)) ∧
    is (.popc h t) (wr sg w ((List.range w).filter (fun i => x.getLsbD i)).length) ∧
    is (.ext h t) (wr sg (b.toNat % 64 + 1) a.toNat) ∧
    (let pos := (b.extractLsb' 0 7).toNat
     let len := (b.extractLsb' 8 7).toNat
     is (.bfx h t) (if len = 0 ∨ 64 ≤ pos then 0 else ext sg (a.extractLsb' pos (min len (64 - pos))))) ∧
    (let pos := (c.extractLsb' 0 7).toNat
     let len := (c.extractLsb' 8 7).toNat
     tailM t % 4 = 0 →
     ∃ v : Word, is (.bfi h t) v ∧ ∀ i, i < 64 → v.getLsbD i =
       if pos ≤ i ∧ i < pos + len then b.getLsbD (i - pos) else a.getLsbD i)

/-- R148, R151-R153: checksums, selection and loads of constants. -/
def Sys2Proof.Stated.MovesAndHashes : Prop :=
  ∀ (s : State) (h : Head) (t : Tail) (a b c : Word) (st : Stage),
    let sg := tailSigned t
    let w := tailW t
    let g := tileOf s.cur
    let is (i : Instr) (v : Word) : Prop := exec i s = .next (after s h (pushed st t v))
    let byte (j : Nat) : Nat := b.toNat / 256 ^ j % 256
    let crcStep (r : Nat) : Nat := r / 2 ^^^ (if r % 2 = 1 then 0x82F63B78 else 0)
    Issues s h →
    (Reads (.int sg) s t a b c st →
      is (.sel h t) (wr sg w (rd sg w
        (if (me s).p.getLsbD (tailM t / 32) = !(tailM t).testBit 4 then a else b))) ∧
      is (.ldi h t) b ∧
      is (.ldk h t) (ext sg ((me s).k.getD (a.toNat % 256) 0))) ∧
    (Reads (.int false) s t a b c st →
      is (.ldih h t) (BitVec.ofNat 64 ((tailLit t).toNat * 2 ^ 32 + a.toNat % 2 ^ 32)) ∧
      is (.crc h t) (BitVec.ofNat 64 ((List.range (w / 8)).foldl
        (fun r j => (List.range 8).foldl (fun r _ => crcStep r) (r ^^^ byte j)) (a.toNat % 2 ^ 32))) ∧
      is (.fnv h t) (BitVec.ofNat 64 ((List.range (w / 8)).foldl
        (fun r j => (r ^^^ byte j) * 0x100000001B3 % 2 ^ 64) a.toNat)) ∧
      (tailM t % 4 = 0 → is (.coord h t) (BitVec.ofNat 64 (g % 32 + g / 32 * 256))) ∧
      (tailM t % 4 = 3 → is (.coord h t)
        (BitVec.ofNat 64 (stopOf g + clusterOf g % 8 * 256 + clusterOf g / 8 * 65536))) ∧
      (∀ l, s.launch (me s).lslot = some l →
        (tailM t % 4 = 1 → is (.coord h t) (BitVec.ofNat 64
          ((g % 32 - natAt l.record 0 1) + (g / 32 - natAt l.record 1 1) * 256))) ∧
        (tailM t % 4 = 2 → is (.coord h t) (BitVec.ofNat 64
          (2 ^ (natAt l.record 2 1 % 8) + 2 ^ (natAt l.record 2 1 / 16 % 8) * 256)))))

/-- R149, R171-R173: the predicates that comparisons and predicate forms set. -/
def Obligations.Predicates : Prop :=
  ∀ (s : State) (h : Head) (t : Tail) (a b c : Word) (st : Stage),
    let sg := tailSigned t
    let w := tailW t
    let x := rd sg w a
    let y := rd sg w b
    let cond := tailM t / 8 % 4
    let p := (me s).p
    let f := tailF t
    let pa := Bool.xor (p.getLsbD (f.extractLsb' 0 3).toNat) (f.getLsbD 3)
    let pb := Bool.xor (p.getLsbD (f.extractLsb' 4 3).toNat) (f.getLsbD 7)
    let pd := (f.extractLsb' 8 3).toNat
    let is (i : Instr) (st' : Stage) : Prop := exec i s = .next (after s h st')
    Issues s h →
    (Reads (.int sg) s t a b c st →
      let sets (i : Instr) (v : Bool) : Prop := is i ((st.setPred (tailM t / 32) v).raise 0)
      (cond = 0 → sets (.cmp h t) (decide (x = y))) ∧ (cond = 1 → sets (.cmp h t) (decide (x ≠ y))) ∧
      (cond = 2 → sets (.cmp h t) (decide (x < y))) ∧ (cond = 3 → sets (.cmp h t) (decide (y ≤ x))) ∧
      sets (.pset h t) (decide (a.setWidth w ≠ 0))) ∧
    (Reads (.int false) s t a b c st →
      let sets (i : Instr) (v : Bool) : Prop := is i ((st.setPred (tailM t / 32) v).raise 0)
      (cond = 0 → sets (.test h t) (decide (a.setWidth w &&& b.setWidth w ≠ 0))) ∧
      (cond = 1 → sets (.test h t) (decide (a.setWidth w &&& b.setWidth w = 0))) ∧
      (cond = 0 → sets (.btst h t) (a.getLsbD (b.toNat % w))) ∧
      (cond = 1 → sets (.btst h t) (!a.getLsbD (b.toNat % w)))) ∧
    is (.pand h t) ((bundle s).setPred pd (pa && pb)) ∧
    is (.por h t) ((bundle s).setPred pd (pa || pb)) ∧
    is (.pxor h t) ((bundle s).setPred pd (Bool.xor pa pb)) ∧
    is (.pmov h t) ((bundle s).setPred (tailM t / 32) (p.getLsbD (tailM t % 8))) ∧
    is (.pnot h t) ((bundle s).setPred (tailM t / 32) !(p.getLsbD (tailM t % 8))) ∧
    is (.psave h t) (pushed (bundle s) t (p.setWidth 64)) ∧
    (Reads (.int false) s t a b c st → is (.pload h t)
      { st with preds := st.preds ++ [(1, a.getLsbD 1), (2, a.getLsbD 2), (3, a.getLsbD 3),
        (4, a.getLsbD 4), (5, a.getLsbD 5), (6, a.getLsbD 6), (7, a.getLsbD 7)] })


/-! ### Floating-point instructions -/

/-- R154, R155, R156, R161, R130: what the FP32 forms push and the flags they raise. -/
def Obligations.FloatingArithmetic : Prop :=
  ∀ (s : State) (h : Head) (t : Tail) (a b c : Word) (st : Stage),
    let z := (me s).fpctl.getLsbD 8
    let rm := rmOf (tailM t)
    let x := srcVal z .fp32 (a.toNat % 2 ^ 32)
    let y := srcVal z .fp32 (b.toNat % 2 ^ 32)
    let u := srcVal z .fp32 (c.toNat % 2 ^ 32)
    let is (i : Instr) (v : Val) (f : Flags) : Prop :=
      exec i s = .next (after s h ((pushed st t (BitVec.ofNat 64 (roundFtz z .fp32 v rm false).code)).raise
        (f ||| (roundFtz z .fp32 v rm false).fl)))
    let gives (i : Instr) (r : Nat × Flags) : Prop :=
      exec i s = .next (after s h ((pushed st t (BitVec.ofNat 64 r.1)).raise r.2))
    let p := ftzCode z .fp32 (a.toNat % 2 ^ 32)
    let q := ftzCode z .fp32 (b.toNat % 2 ^ 32)
    Issues s h → Reads .fp s t a b c st →
    is (.fadd h t) (addV rm x y) 0 ∧ is (.fsub h t) (addV rm x (negV y)) 0 ∧ is (.fmul h t) (mulV x y) 0 ∧
    is (.fdiv h t) (divV x y).1 (divV x y).2 ∧ is (.fsqrt h t) (sqrtV x) 0 ∧
    is (.fma h t) (fmaV rm x y u) 0 ∧ is (.fms h t) (fmaV rm x y (negV u)) 0 ∧
    is (.fnma h t) (fmaV rm (negV x) y u) 0 ∧ is (.frint h t) (fpIntegral rm x) 0 ∧
    gives (.fmin h t) (minMax .fp32 false p q) ∧ gives (.fmax h t) (minMax .fp32 true p q) ∧
    gives (.fminnum h t) (minMaxNum .fp32 false p q) ∧ gives (.fmaxnum h t) (minMaxNum .fp32 true p q) ∧
    gives (.flogb h t) (fpLogb z (a.toNat % 2 ^ 32)) ∧ gives (.fexp2 h t) (fnExp2 z (a.toNat % 2 ^ 32)) ∧
    gives (.frcp h t) (fnRcp z (a.toNat % 2 ^ 32)) ∧ gives (.frsq h t) (fnRsq z (a.toNat % 2 ^ 32))

/-- R156: the forms that move bits. Under FTZ a subnormal source is a zero of its sign. -/
def Sys2Proof.Stated.FloatingBits : Prop :=
  ∀ (s : State) (h : Head) (t : Tail) (a b c : Word) (st : Stage),
    let x0 := a.setWidth 32
    let x := if (me s).fpctl.getLsbD 8 ∧ x0.extractLsb' 23 8 = 0 then x0 &&& 0x80000000#32 else x0
    let y := b.setWidth 32
    let is (i : Instr) (v : BitVec 32) : Prop := exec i s = .next (after s h ((pushed st t (v.setWidth 64)).raise 0))
    Issues s h → Reads .fp s t a b c st →
    is (.fabs h t) (x &&& 0x7FFFFFFF#32) ∧ is (.fneg h t) (x ^^^ 0x80000000#32) ∧
    is (.fcpys h t) ((x &&& 0x7FFFFFFF#32) ||| (y &&& 0x80000000#32))

/-- R158: FCLASS pushes a value with exactly one bit set, by the class of its source. Under FTZ a
subnormal source is classed as a zero of its sign, and no flag is raised. -/
def Obligations.FloatingClass : Prop :=
  ∀ (s : State) (h : Head) (t : Tail) (a b c : Word) (st : Stage),
    let x0 := a.setWidth 32
    let x := if (me s).fpctl.getLsbD 8 ∧ x0.extractLsb' 23 8 = 0 then x0 &&& 0x80000000#32 else x0
    let e := x.extractLsb' 23 8
    let m := x.extractLsb' 0 23
    let neg := x.getLsbD 31
    Issues s h → Reads .fp s t a b c st →
    exec (.fclass h t) s = .next (after s h ((pushed st t (BitVec.twoPow 64 (
      if e = 255 then
        (if m = 0 then (if neg then 0 else 7) else if m.getLsbD 22 then 9 else 8)
      else if e = 0 then
        (if m = 0 then (if neg then 3 else 4) else (if neg then 2 else 5))
      else (if neg then 1 else 6)))).raise 0))

/-- R157, R159, R160, R161: comparison and conversions. -/
def Sys2Proof.Stated.FloatingConversions : Prop :=
  ∀ (s : State) (h : Head) (t : Tail) (a b c : Word) (st : Stage),
    let z := (me s).fpctl.getLsbD 8
    let rm := rmOf (tailM t)
    let m := tailM t
    let F := cvtFormat (m / 16)
    let x := srcVal z .fp32 (a.toNat % 2 ^ 32)
    let y := srcVal z .fp32 (b.toNat % 2 ^ 32)
    let w := 64 / 2 ^ (m / 16 % 4)
    let sg := m.testBit 6
    let is (i : Instr) (st : Stage) (v : Word) (f : Flags) : Prop :=
      exec i s = .next (after s h ((pushed st t v).raise f))
    let r (v : Val) := roundFtz z F v rm (m.testBit 3)
    let el (n : Nat) := srcVal z .fp32 (n % 2 ^ 32)
    Issues s h →
    (Reads .fp s t a b c st →
      exec (.fcmp h t) s = .next (after s h ((st.setPred (m / 32) (fpRel (m % 8) x y)).raise
        (fpRelFlags (m.testBit 3) x y))) ∧
      is (.fcvt h t) st (BitVec.ofNat 64 (r x).code) (r x).fl ∧
      is (.fcvtw h t) st (BitVec.ofNat 64 (cvtFmt z F .fp32 (a.toNat % 2 ^ 32 % 2 ^ F.bits) rm false).code)
        (cvtFmt z F .fp32 (a.toNat % 2 ^ 32 % 2 ^ F.bits) rm false).fl ∧
      is (.fcvti h t) st (wr sg w (roundInt w sg x rm).1) (roundInt w sg x rm).2 ∧
      is (.icvtf h t) st (BitVec.ofNat 64 (roundFtz z .fp32 (.fin (Q.ofInt (rd sg w a))) rm false).code)
        (roundFtz z .fp32 (.fin (Q.ofInt (rd sg w a))) rm false).fl ∧
      (m / 16 < 2 → is (.fcvtn h t) st
        (BitVec.ofNat 64 ((r (el a.toNat)).code % 2 ^ 16 + (r (el (a.toNat / 2 ^ 32))).code % 2 ^ 16 * 2 ^ 16))
        ((r (el a.toNat)).fl ||| (r (el (a.toNat / 2 ^ 32))).fl)) ∧
      (2 ≤ m / 16 → is (.fcvtn h t) st
        (BitVec.ofNat 64 ((r (el a.toNat)).code % 2 ^ F.bits +
          (r (el (a.toNat / 2 ^ 32))).code % 2 ^ F.bits * 2 ^ F.bits +
          (r (el b.toNat)).code % 2 ^ F.bits * 2 ^ (2 * F.bits) +
          (r (el (b.toNat / 2 ^ 32))).code % 2 ^ F.bits * 2 ^ (3 * F.bits)))
        ((r (el a.toNat)).fl ||| (r (el (a.toNat / 2 ^ 32))).fl ||| (r (el b.toNat)).fl |||
          (r (el (b.toNat / 2 ^ 32))).fl))) ∧
    (Reads (.int true) s t a b c st →
      is (.fscale h t) st
        (BitVec.ofNat 64 (roundFtz z .fp32 (fpScale x b.toInt) rm false).code)
        (roundFtz z .fp32 (fpScale x b.toInt) rm false).fl)

/-! ### Transfers, loops and system instructions -/

/-- R105: the target that the literal of a T48-L tail names from a head at `p`: a line and a head. -/
def Sys2Proof.Stated.ImmediateTargets : Prop :=
  ∀ (p : Nat) (lit : BitVec 32) (d : Int) (n : Nat), p < 2 ^ 63 → n < 32 → -(2 ^ 26) ≤ d → d < 2 ^ 26 →
    lit = BitVec.ofInt 32 (d * 32 + n) → 0 ≤ (p / 64 * 64 : Int) + 64 * d →
    (immTarget p lit : Int) = p / 64 * 64 + 64 * d + 2 * n

/-- R106: the checks of a target, in their order, and what its fetch meets (R294, R41, R429). The line of a
target in an active body is the loop buffer's (R132, R164). -/
def Sys2Proof.Stated.TargetChecks : Prop :=
  ∀ (s : State) (g a : Nat),
    (a % 2 = 1 → checkTarget s g a = refuses .badTarget) ∧
    (a % 64 = 0 → checkTarget s g a = refuses .badTarget) ∧
    (a % 2 = 0 → a % 64 ≠ 0 →
      let inLine (b : List Byte) : Prop :=
        let H := natAt b 0 2 / 2048
        (lineValid b = false → checkTarget s g a = refuses .badLine) ∧
        (lineValid b = true → (H < a % 64 / 2 ∨ isBundleStart b (a % 64 / 2) = false) →
          checkTarget s g a = refuses .badTarget) ∧
        (lineValid b = true → a % 64 / 2 ≤ H → isBundleStart b (a % 64 / 2) = true →
          checkTarget s g a = .ok)
      (∀ b, (s.ctx g).bufferLine a = some b → inLine b) ∧
      ((s.ctx g).bufferLine a = none →
        (∀ e, codeLoc s g a = .error e → checkTarget s g a = if e.stall then .stall else .err e) ∧
        (∀ l, codeLoc s g a = .ok l →
          let waits := staleAt s l.home (tagOf s (tileOf g) (s.ctx g).asid) || stalled s l.key
          let bad := (injRead s l.key && injDbl s) || poisoned s l.key 64
          (waits = true → checkTarget s g a = .stall) ∧
          (waits = false → guarded s l.key 64 = false → bad = true → checkTarget s g a = .poison l.key) ∧
          (waits = false → guarded s l.key 64 = false → bad = false → inLine (visRead s l.key 64)))))

/-- R162, R163, R168, R169: transfers whose target passes its checks, and branches not taken. -/
def Obligations.Transfers : Prop :=
  ∀ (s : State) (h : Head) (t : Tail) (a b c : Word) (st : Stage),
    let imm := immTarget st.at_ (tailLit t)
    let good (x : Nat) : Prop := checkTarget s s.cur x = .ok
    let stays (x : Nat) : Prop := (me s).leavesBody st.bpc x = false
    let goes (i : Instr) (x : Nat) : Prop := exec i s = .next (after s h { st with xfer := some (.jump x) })
    let link := some (BitVec.ofNat 64 s.after)
    Issues s h → Reads (.int false) s t a b c st →
    (good imm → stays imm → goes (.br h t) imm) ∧
    (a = 0 → good imm → stays imm → goes (.brz h t) imm) ∧
    (a ≠ 0 → exec (.brz h t) s = .next (after s h st)) ∧
    (a ≠ 0 → good imm → stays imm → goes (.brnz h t) imm) ∧
    (a = 0 → exec (.brnz h t) s = .next (after s h st)) ∧
    (good a.toNat → stays a.toNat → goes (.jmp h t) a.toNat) ∧
    (good imm → exec (.call h t) s = .next (after s h { st with link := link, xfer := some (.jump imm) })) ∧
    (good a.toNat → exec (.calli h t) s =
      .next (after s h { st with link := link, xfer := some (.jump a.toNat) })) ∧
    (a ≠ 0 → good a.toNat → goes (.ret h t) a.toNat) ∧
    (a = 0 → exec (.ret h t) s = .next (after s h { st with xfer := some (.done none none) })) ∧
    (∀ k l, (me s).innermost = some (k, l) → l.start ≤ (bundle s).bpc → (bundle s).bpc < l.exit →
      exec (.lbrk h t) s = .next (after s h { bundle s with xfer := some (.breakLoop l.exit) }))

/-- R107, R166, R168, R169: failed target checks, and BAD_LOOP where a transfer leaves the innermost
body or breaks no level. -/
def Sys2Proof.Stated.TransferFaults : Prop :=
  ∀ (s : State) (h : Head) (t : Tail) (a b c : Word) (st : Stage) (e : TargetError),
    let imm := immTarget st.at_ (tailLit t)
    let faults (i : Instr) (f : HeadFault) : Prop := exec i s = .next (faulting s h f)
    let bad (x : Nat) : HeadFault := ⟨e.cause, some x, true, 0, e.pte⟩
    let loop : HeadFault := ⟨.badLoop, none, false, 0, none⟩
    Issues s h → Reads (.int false) s t a b c st → e.stall = false →
    (checkTarget s s.cur imm = .err e →
      faults (.br h t) (bad imm) ∧ faults (.call h t) (bad imm) ∧ faults (.loop h t) (bad imm) ∧
      (a = 0 → faults (.brz h t) (bad imm)) ∧ (a ≠ 0 → faults (.brnz h t) (bad imm))) ∧
    (checkTarget s s.cur a.toNat = .err e →
      faults (.jmp h t) (bad a.toNat) ∧ faults (.calli h t) (bad a.toNat) ∧
      (a ≠ 0 → faults (.ret h t) (bad a.toNat)) ∧
      ((me s).status.getLsbD 15 = true → faults (.sysret h t) (bad a.toNat))) ∧
    (checkTarget s s.cur imm = .ok → (me s).leavesBody st.bpc imm = true →
      faults (.br h t) loop ∧ (a = 0 → faults (.brz h t) loop) ∧ (a ≠ 0 → faults (.brnz h t) loop)) ∧
    (checkTarget s s.cur a.toNat = .ok → (me s).leavesBody st.bpc a.toNat = true → faults (.jmp h t) loop) ∧
    (checkTarget s s.cur imm = .ok →
      (tailM t % 4 ≠ (me s).loops.length ∨ tailM t % 4 = 3 ∨ h.chain = true ∨ a = 0 ∨ 2 ^ 32 ≤ a.toNat) →
      faults (.loop h t) loop) ∧
    ((tailM t % 4 ≠ (me s).loops.length ∨ tailM t % 4 = 3 ∨ h.chain = true ∨ a = 0 ∨ 2 ^ 32 ≤ a.toNat ∨
      tailF t = 0 ∨ 256 < (tailF t).toNat) → faults (.loopr h t) loop) ∧
    ((me s).loops = [] → faults (.lbrk h t) loop) ∧
    ((me s).status.getLsbD 15 = false →
      faults (.sysret h t) ⟨.privilege, none, false, 0, none⟩ ∧ faults (.halt h t) ⟨.privilege, none, false, 0, none⟩ ∧
      ((tailLit t).toNat ≠ 2 → faults (.cwr h t) ⟨.privilege, none, false, 0, none⟩))

/-- R132, R164-R166: opening a loop level; the first takes the lines of its body into the loop buffer. -/
def Sys2Proof.Stated.LoopsOpen : Prop :=
  ∀ (s : State) (h : Head) (t : Tail) (a b c : Word) (st : Stage),
    let k := tailM t % 4
    let inside (exit : Nat) : Prop :=
      ∀ j l, (me s).innermost = some (j, l) → l.start ≤ s.after ∧ exit < l.exit
    let opened (i : Instr) (exit : Nat) : Prop := exec i s = .next (after s h
      { st with
        loopOpen := some (k, a.toNat, ⟨s.after, exit⟩)
        body := if (me s).loops.isEmpty then bodyLines s s.cur s.after exit else [] })
    Issues s h → Reads (.int false) s t a b c st →
    k = (me s).loops.length → k < 3 → h.chain = false → 1 ≤ a.toNat → a.toNat < 2 ^ 32 →
    (let exit := immTarget st.at_ (tailLit t)
     checkTarget s s.cur exit = .ok → loopReaches s s.cur exit 257 s.after 0 = .ok true → inside exit →
     opened (.loop h t) exit) ∧
    (∀ exit, 1 ≤ (tailF t).toNat → (tailF t).toNat ≤ 256 →
      loopAfter s s.cur 257 s.after (tailF t).toNat = .ok (some exit) → inside exit → opened (.loopr h t) exit)

/-- R166: reaching the exit of a body that lies in one line. -/
def Sys2Proof.Stated.LoopBodyInOneLine : Prop :=
  ∀ (s : State) (g a exit : Nat), a % 2 = 0 → exit % 2 = 0 → a / 64 = exit / 64 → a < exit →
    loopReaches s g exit 257 a 0 = .ok true

/-- R174-R179, R135: the system instructions. -/
def Sys2Proof.Stated.SystemInstructions : Prop :=
  ∀ (s : State) (h : Head) (t : Tail) (a b c : Word) (st : Stage),
    let sys := (me s).status.getLsbD 15
    let is (i : Instr) (st' : Stage) : Prop := exec i s = .next (after s h st')
    let reads (i : Nat) (v : Word) : Prop := (tailLit t).toNat = i → is (.crd h t) (pushed (bundle s) t v)
    Issues s h → Reads (.int false) s t a b c st →
    is (.nop h t) (bundle s) ∧
    is (.rdcyc h t) (pushed (bundle s) t (BitVec.ofNat 64 (bundle s).issued)) ∧
    is (.pause h t) (st.act (.pause (min (max a.toNat 1) 4096))) ∧
    reads 0 (me s).status ∧ reads 1 (me s).trapvec ∧ reads 2 (me s).fpctl ∧ reads 3 (me s).cap ∧
    reads 4 (me s).pri ∧ reads 5 (me s).saveptr ∧
    reads 0x100 (BitVec.ofNat 64 (tileCoord s (tileOf s.cur))) ∧
    reads 0x101 (BitVec.ofNat 64 (bundle s).issued) ∧
    reads 0x102 (BitVec.ofNat 64 (ctxStates s (tileOf s.cur))) ∧
    ((tailLit t).toNat = 2 ∨ sys = true →
      is (.cwr h t) { st with cregs := st.cregs ++ [((tailLit t).toNat, a)] }) ∧
    (sys = true → is (.halt h t) { bundle s with xfer := some (.done none (some (bundle s).at_)) }) ∧
    (sys = true → checkTarget s s.cur a.toNat = .ok →
      is (.sysret h t) { st with xfer := some (.sysret a.toNat) })

/-- R174, R175, R95: TRAP, SYSCALL and BKPT stage their trap, which the end of the bundle takes. -/
def Sys2Proof.Stated.InstructionTraps : Prop :=
  ∀ (s : State) (h : Head) (t : Tail) (a b c : Word) (st : Stage),
    let takes (i : Instr) (cause : Cause) (code : Word) : Prop :=
      exec i s = .next (after s h
        { bundle s with trap := (bundle s).trap.or (some ((bundle s).at_, cause, code)) })
    Issues s h →
    takes (.bkpt h t) .bkpt 0 ∧
    (Reads (.int false) s t a b c st → takes (.trap h t) .trap a ∧ takes (.syscall h t) .syscall a)

/-- R95, R96, R174, R175, R256, R407, R410: the end of a bundle that reports a GUARD, has a fault or stages a
trap. The pending GUARD precedes the fault of the lowest-numbered head, and that the trap; nothing
else of the bundle has an effect. RPC is the bundle for a fault and for BKPT, and the address after it for
TRAP and SYSCALL. -/
def Sys2Proof.Stated.BundleStops : Prop :=
  ∀ (s : State) (h : Head) (st : Stage) (i : Nat) (f : HeadFault) (cause : Cause) (code : Word) (x off n : Nat),
    let g := s.cur
    let none' := s.modCtx g (fun c => { c with stage := none, resume := none })
    let issued := countPerf none' (tileOf g) 0 1
    h.chain = false →
    (st.guardAt = some i → (me s).guard = some (x, off, n) →
      after s h st = takeTrap (s.modCtx g (fun c => { c with stage := none, resume := none, guard := none })) g
        ⟨.guard, i % 64 / 2, some x, false, true, false, n, st.bpc, st.bpc, guardCode off, none⟩) ∧
    (st.guardAt = none → st.pend = some (i, f) → f.cause ≠ .page → f.cause ≠ .remoteVault →
      f.cause ≠ .stackGrow → f.cause ≠ .badLine →
      after s h st = takeTrap none' g
        ⟨f.cause, i % 64 / 2, f.addr, f.target, false, false, 0, st.bpc, st.bpc, f.code, f.pte⟩) ∧
    (st.guardAt = none → st.pend = some (i, f) → (f.cause = .page ∨ f.cause = .remoteVault) →
      after s h st = takeTrap ((noteWalk s (tileOf g) (me s).asid (f.addr.getD 0)).modCtx g
          (fun c => { c with stage := none, resume := none })) g
        ⟨f.cause, i % 64 / 2, f.addr, f.target, false, false, 0, st.bpc, st.bpc, f.code, f.pte⟩) ∧
    (st.guardAt = none → st.pend = some (i, f) → f.cause = .stackGrow →
      after s h st = s.modCtx g (fun c =>
        { c with st := .wait, waiting := .stackGrow (f.addr.getD 0), stage := none, resume := none })) ∧
    (st.guardAt = none → st.pend = none → st.trap = some (i, cause, code) →
      after s h st = takeTrap issued g
        ⟨cause, i % 64 / 2, none, false, false, false, 0, st.bpc, (if cause = .bkpt then st.bpc else s.after),
          code.toNat, none⟩)

/-! ### Memory instructions -/

/-- R257: the addresses that the layouts form, modulo 2^64. -/
def Sys2Proof.Stated.Addresses : Prop :=
  ∀ (a b c : Word) (m : BitVec 4) (m8 : BitVec 8) (v : BitVec 32) (f : BitVec 16) (d : Dest) (xa xb xc : Src),
    loadAddr (.t48l v m d xa) a b = (a + v.signExtend 64).toNat ∧
    loadAddr (.t32 m8 d xc xb xa) a b = (a + b <<< (m8.toNat / 16 % 4)).toNat ∧
    storeAddr (.t16 m xb xa) a c = a.toNat ∧
    storeAddr (.t32 m8 d xc xb xa) a c = (a + c <<< (m8.toNat / 16 % 4)).toNat ∧
    storeAddr (.t48x f m8 d xc xb xa) a c = (a + f.signExtend 64).toNat ∧
    baseAddr (.t48x f m8 d xc xb xa) a = (a + f.signExtend 64).toNat

/-- R36, R256, R259, R261, R294, R41, R429: what a direct load does in each case, and one that crosses a granule
of 128 bytes. -/
def Sys2Proof.Stated.DirectLoads : Prop :=
  ∀ (s : State) (r : Reach) (ea n al : Nat) (st : Stage),
    (∀ e, locate s s.cur r ea n al false = .error e → loadBytes s s.cur r ea n al st =
      .error (if e.stall then .stall else .fault ⟨e.cause, some ea, false, 0, e.pte⟩)) ∧
    (∀ l, locate s s.cur r ea n al false = .ok l →
      let st1 := touched s ea st l n
      let stale := staleAt s l.home (tagOf s (tileOf s.cur) (me s).asid)
      (stalledOver s l.key n = true → loadBytes s s.cur r ea n al st = .error .stall) ∧
      (stalledOver s l.key n = false → guarded s l.key n = true → ∃ bs, bs.length = n ∧
        loadBytes s s.cur r ea n al st = .ok (bs, st1.act (.guardTouch ea (keyOff l.key)))) ∧
      (stalledOver s l.key n = false → guarded s l.key n = false → stale = true → ∃ bs, bs.length = n ∧
        loadBytes s s.cur r ea n al st = .ok (bs, st1.act (.rejected 2))) ∧
      (Readable s r ea n al l → loadBytes s s.cur r ea n al st = .ok (seen s st l.key n, st1)) ∧
      (stalledOver s l.key n = false → guarded s l.key n = false → stale = false →
        (n = 0 ∨ covered (ownStores s (me s) st) l.key n = false) →
        (injRead s l.key = true → injDbl s = true →
          loadBytes s s.cur r ea n al st = .error (.poison ea (some l.key))) ∧
        (injRead s l.key = false → poisoned s l.key n = true →
          loadBytes s s.cur r ea n al st = .error (.poison ea none)))) ∧
    (n ≤ 128 - ea % 128 → loadSpan s s.cur r ea n al st = loadBytes s s.cur r ea n al st) ∧
    (128 - ea % 128 < n → n ≤ 128 →
      let k := 128 - ea % 128
      ∀ l l', Readable s r ea k al l → Readable s r (ea + k) (n - k) 1 l' →
        let st1 := touched s ea st l k
        loadSpan s s.cur r ea n al st =
          .ok (seen s st l.key k ++ seen s st1 l'.key (n - k), touched s (ea + k) st1 l' (n - k)))

/-- R262, R264: LD and LDP, where the bytes can be read. -/
def Obligations.Loads : Prop :=
  ∀ (s : State) (h : Head) (t : Tail) (a b c : Word) (st : Stage) (l : Loc),
    let w := tailW t
    let n := w / 8
    let ea := loadAddr t a b
    let sg := tailSigned t
    Issues s h → Reads (.int false) s t a b c st →
    (Readable s .plain ea n n l → exec (.ld h t) s = .next (after s h
      (pushed (touched s ea st l n) t (ext sg (BitVec.ofNat w (natLE (seen s st l.key n))))))) ∧
    (Readable s .plain ea (2 * n) (2 * n) l →
      let x := seen s st l.key (2 * n)
      let v0 := ext sg (BitVec.ofNat w (natLE (x.take n)))
      let v1 := ext sg (BitVec.ofNat w (natLE (x.drop n)))
      let st1 := touched s ea st l (2 * n)
      exec (.ldp h t) s = .next (after s h { st1 with
        pushes := st1.pushes ++ [v0, v1]
        regs := st1.regs ++ (match tailD t with
          | some r => [(r.toNat, v0), (r.toNat + 1, v1)]
          | none => []) }))

/-- R263, R264, R34: ST and STP hold an effect, or write their own frame or stack at once. -/
def Obligations.Stores : Prop :=
  ∀ (s : State) (h : Head) (t : Tail) (a b c : Word) (st : Stage) (l : Loc),
    let n := tailW t / 8
    let tag := tagOf s (tileOf s.cur) (me s).asid
    let one := bytesLE n b.toNat
    let two := bytesLE n b.toNat ++ bytesLE n c.toNat
    let ea2 := if layoutOf t = .t32 then a.toNat else baseAddr t a
    Issues s h → Reads (.int false) s t a b c st →
    (locate s s.cur .plain (storeAddr t a c) n n true = .ok l →
      (isPrivate (me s) (storeAddr t a c) n = false → exec (.st h t) s = .next (after s h (holds (walks s (storeAddr t a c) st)
        (mkEffect 0xC1 t 0 (storeAddr t a c) one [(l.home, .store l.key (storeAddr t a c) one tag false)])))) ∧
      (isPrivate (me s) (storeAddr t a c) n = true → Writable s l n →
        exec (.st h t) s = .next (after s h (st.act (.store l.key one))))) ∧
    (locate s s.cur .plain ea2 (2 * n) (2 * n) true = .ok l →
      (isPrivate (me s) ea2 (2 * n) = false → exec (.stp h t) s = .next (after s h (holds (walks s ea2 st)
        (mkEffect 0xC3 t 0 ea2 two [(l.home, .store l.key ea2 two tag false)])))) ∧
      (isPrivate (me s) ea2 (2 * n) = true → Writable s l (2 * n) →
        exec (.stp h t) s = .next (after s h (st.act (.store l.key two)))))

/-- R265, R253: LDX, STX and the owner tags, in system mode, and PRIVILEGE in user mode. -/
def Sys2Proof.Stated.PhysicalAccess : Prop :=
  ∀ (s : State) (h : Head) (t : Tail) (a b c : Word) (st : Stage),
    let w := tailW t
    let n := w / 8
    let tile := tileOf s.cur
    let sg := tailSigned t
    let ea := a.toNat
    Issues s h →
    (Reads (.int false) s t a b c st → (me s).status.getLsbD 15 = true →
      (ea % n = 0 → Config.tableArea ≤ ea → ea < 2 ^ 21 → stalled s (keyScratch tile ea) = false →
        exec (.ldx h t) s = .next (after s h
          (pushed st t (ext sg (BitVec.ofNat w (natLE (tableBytes s tile ea n)))))) ∧
        exec (.stx h t) s = .next (after s h (st.act (.physTable ea (bytesLE n b.toNat))))) ∧
      (∀ k, (ea < Config.tableArea ∧ k = keyScratch tile ea) ∨
          (2 ^ 63 ≤ ea ∧ ea < 2 ^ 63 + 2 ^ 29 ∧
            k = keyVault tile (pageInSlot (s.tile tile) (ea / 2 ^ 26 % 8) (ea / 2 ^ 16 % 1024)) (ea % 65536)) →
        ea % n = 0 → stalled s k = false →
        (injRead s k = false → poisoned s k n = false → exec (.ldx h t) s = .next (after s h
          (pushed (if isVault k then st.act (.touch k n) else st) t (ext sg (BitVec.ofNat w (natLE (seen s st k n))))))) ∧
        exec (.stx h t) s = .next (after s h (st.act (.store k (bytesLE n b.toNat))))) ∧
      (∀ k, (ea < 2 ^ 21 ∧ k = keyScratch tile ea) ∨
          (2 ^ 63 ≤ ea ∧ ea < 2 ^ 63 + 2 ^ 29 ∧
            k = keyVault tile (pageInSlot (s.tile tile) (ea / 2 ^ 26 % 8) (ea / 2 ^ 16 % 1024)) (ea % 65536)) →
        ea % 128 = 0 → stalled s k = false →
        exec (.ldxTag h t) s = .next (after s h (pushed st t (BitVec.ofNat 64 (ownerTag s k)))) ∧
        exec (.stxTag h t) s = .next (after s h (st.act (.physTag (k / 128) (b.toNat % 4096)))))) ∧
    ((me s).status.getLsbD 15 = false →
      ∀ i, i ∈ [Instr.ldx h t, .stx h t, .ldxTag h t, .stxTag h t, .gset h t, .gclr h t] →
        exec i s = .next (faulting s h ⟨.privilege, none, false, 0, none⟩))

/-- R266, R267: the local atomics. On the context's own frame or stack the exchange is at once; anywhere
else the request is the last effect of its group and the old value comes with the reply. -/
def Sys2Proof.Stated.LocalAtomics : Prop :=
  ∀ (s : State) (h : Head) (t : Tail) (a b c : Word) (st : Stage) (l : Loc),
    let w := tailW t
    let n := w / 8
    let sg := tailSigned t
    let ea := if layoutOf t = .t32 then a.toNat else baseAddr t a
    let tag := tagOf s (tileOf s.cur) (me s).asid
    let old := BitVec.ofNat w (natLE (seen s st l.key n))
    let x := b.setWidth w
    let lt (p q : BitVec w) : Bool := if sg then p.slt q else p.ult q
    let is (i : Instr) (opc : Nat) (new : BitVec w) : Prop :=
      (isPrivate (me s) ea n = true → Readable s .plain ea n n l → exec i s = .next (after s h
        ((pushed (touched s ea st l n) t (ext sg old)).act (.store l.key (bytesLE n new.toNat))))) ∧
      (isPrivate (me s) ea n = false →
        let data := bytesLE n b.toNat ++ (if opc = 0xCD then bytesLE n c.toNat else [])
        exec i s = .next (after s h ((pushed (walks s ea st) t 0).act (.blocking
          (mkEffect opc t 0 ea data [(l.home,
            .atomic l.key opc n sg b c tag (ownerOf s s.cur) (me s).act)])
          (some st.pushes.length) ((tailD t).map (fun _ => st.regs.length))))))
    Issues s h → Reads (.int false) s t a b c st → locate s s.cur .plain ea n n true = .ok l →
    is (.aadd h t) 0xC6 (old + x) ∧ is (.aand h t) 0xC7 (old &&& x) ∧ is (.aor h t) 0xC8 (old ||| x) ∧
    is (.axor h t) 0xC9 (old ^^^ x) ∧ is (.amin h t) 0xCA (if lt x old then x else old) ∧
    is (.amax h t) 0xCB (if lt old x then x else old) ∧ is (.aswap h t) 0xCC x ∧
    is (.acas h t) 0xCD (if old = x then c.setWidth w else old)

/-- R269-R273, R275, R276: the remote forms hold one request; a blocking form waits for its reply. -/
def Sys2Proof.Stated.RemoteRequests : Prop :=
  ∀ (s : State) (h : Head) (t : Tail) (a b c : Word) (st : Stage) (lr : Loc) (bar : Option Bar),
    let w := tailW t / 8
    let e := elemSize t
    let n := rCount t * e
    let nb := rNB t
    let st0 := walks s a.toNat st
    let at_ (r : Reach) (n al : Nat) (write : Bool) : Prop := locate s s.cur r a.toNat n al write = .ok lr
    let spot (n al : Nat) : Prop := ∃ l, locate s s.cur .remoteL b.toNat n al true = .ok l
    let is (i : Instr) (opc lbytes : Nat) (l : Option Word) (v : Word) (data : List Byte) (st1 : Stage) : Prop :=
      exec i s = .next (after s h (requests s t opc lbytes lr a l (if nb then bar else none)
        (if nb then c else 0) v data false st1))
    let word (i : Instr) (opc : Nat) (l : Option Word) (v : Word) (data : List Byte) (lb : Nat) (st1 : Stage) :
        Prop := exec i s = .next (after s h (requests s t opc lb lr a l (if nb then bar else none)
          (if nb then c else 0) v data true st1))
    Issues s h → Reads (.int false) s t a b c st →
    (nb = true → barOperand s s.cur .tileLocal (tailC t) c = .ok bar) →
    (at_ .remote w w false → (nb = true → spot w w) →
      word (.rld h t) 0xCF (if nb then some b else none) 0 [] w st0) ∧
    (at_ .remote w w true → is (.rst h t) 0xD0 0 none b [] st0) ∧
    (at_ .reduce n e true → spot n e → ∀ l, Readable s .remoteL b.toNat n e l →
      is (.rred h t) 0xD1 n (some b) 0 (seen s st0 l.key n) (touched s b.toNat st0 l n)) ∧
    (at_ .reduce n e true → spot (n + 8) 16 → ∀ l, Readable s .remoteL b.toNat (n + 8) 16 l →
      let bs := seen s st0 l.key (n + 8)
      (natAt bs 0 2 < natAt bs 2 2 → natAt bs 2 2 ≤ 1024 → natAt bs 4 4 = 0 →
        is (.rredRk h t) 0xD2 (n + 8) (some b) (BitVec.ofNat 64 (natAt bs 0 4)) (bs.drop 8)
          (touched s b.toNat st0 l (n + 8))) ∧
      (natAt bs 4 4 = 0 → is (.rsax h t) 0xD4 (n + 8) (some b) (BitVec.ofNat 64 (natAt bs 0 4)) (bs.drop 8)
          (touched s b.toNat st0 l (n + 8)))) ∧
    (at_ .reduce w w true →
      (nb = true → spot 16 16 → ∀ l, Readable s .remoteL b.toNat 16 16 l →
        word (.rcas h t) 0xD3 (some b) 0 (seen s st0 l.key 16) 16 (touched s b.toNat st0 l 16)) ∧
      (nb = false → word (.rcas h t) 0xD3 none b (bytesLE 8 c.toNat) 16 st0)) ∧
    (at_ .remote (32 * rCount t) 32 true → is (.rfill h t) 0xDA 0 none b [] st0) ∧
    (at_ .remote (32 * rCount t) 32 false → spot (32 * rCount t) 32 →
      is (.rldb h t) 0xDB (32 * rCount t) (some b) 0 [] st0)

/-- R268, R279-R282: row activation, fences, page exchanges and guard bits. -/
def Sys2Proof.Stated.FencesAndPages : Prop :=
  ∀ (s : State) (h : Head) (t : Tail) (a b c : Word) (st : Stage) (bar : Option Bar),
    let tile := tileOf s.cur
    let is (i : Instr) (st' : Stage) : Prop := exec i s = .next (after s h st')
    let ea := if layoutOf t = .t16 then a.toNat else loadAddr t a b
    Issues s h →
    ((me s).guard = none →
      is (.fence h t) ((bundle s).act (.fence (tailM t % 8) false)) ∧
      is (.fenceXp h t) ((bundle s).act (.fence (tailM t % 8) true))) ∧
    (Reads (.int false) s t a b c st →
      (∀ l, locate s s.cur .plain ea 1 1 false = .ok l → isVault l.key = true →
        is (.act h t) ((walks s ea st).act (.activate l.key))) ∧
      (∀ l, locate s s.cur .plain ea 1 1 false = .ok l → isVault l.key = false → is (.act h t) st) ∧
      (∀ e, locate s s.cur .plain ea 1 1 false = .error e → e.stall = false → is (.act h t) st) ∧
      (∀ p, swapPage s s.cur a = .ok p → barOperand s s.cur .tileLocal (tailC t) c = .ok bar →
        let swap (q : Option Nat) : Effect := mkEffect 0xD7 t 0 a.toNat (bytesLE 8 b.toNat ++ bytesLE 8 c.toNat)
          [(tile, .cswap ⟨p, q, bar, false, (me s).lslot⟩)]
        let st1 := walks s b.toNat (walks s a.toNat st)
        (tailB t = .zero → is (.cswap h t) (holds st1 (swap none))) ∧
        (tailB t ≠ .zero → ∀ q, swapPage s s.cur b = .ok q → is (.cswap h t) (holds st1 (swap (some q))))) ∧
      (let n := b.toNat % 512
       (me s).status.getLsbD 15 = true → a.toNat % 128 = 0 → a.toNat + 128 * n ≤ Config.tableArea →
       genV (genEntry s tile (me s).asid) = true →
       let gr := (List.range n).map (fun i => a.toNat / 128 + i)
       let parts (set : Bool) : List (Nat × Work) := if n = 0 then [] else [(tile, .guardBits set gr)]
       is (.gset h t) (holds st (mkEffect 0xD8 t 0 a.toNat (bytesLE 8 n) (parts true))) ∧
       is (.gclr h t) (holds st (mkEffect 0xD9 t 0 a.toNat (bytesLE 8 n) (parts false)))) ∧
      (let n := b.toNat % 512
       let gr := granules tile a.toNat n
       (me s).status.getLsbD 15 = true → (∃ l, locate s s.cur .windows a.toNat (128 * n) 128 true = .ok l) →
       is (.gset h t) (holds st (mkEffect 0xD8 t 0 a.toNat (bytesLE 8 n) (granuleParts true gr))) ∧
       is (.gclr h t) (holds st (mkEffect 0xD9 t 0 a.toNat (bytesLE 8 n) (granuleParts false gr)))))

/-- R256, R402, R410: a fence or barrier wait with a pending GUARD stages its report in place of its effect,
before any fault of its own operands or address. -/
def Sys2Proof.Stated.PendingGuard : Prop :=
  ∀ (s : State) (h : Head) (t : Tail),
    let reports (i : Instr) : Prop := exec i s = .next (after s h
      { bundle s with guardAt := (bundle s).guardAt.or (some (bundle s).at_) })
    Issues s h → (me s).guard.isSome = true →
    reports (.fence h t) ∧ reports (.fenceXp h t) ∧ reports (.tbwait h t) ∧ reports (.tbwaitB h t)

/-! ### Queues, barriers, streams, the lifeline and the matrix unit at their issue -/

/-- R315, R48: what a place word names, and how it is refused. -/
def Sys2Proof.Stated.PlaceWords : Prop :=
  ∀ (s : State) (g : Nat) (w : Word) (off0 : Bool),
    let off := (w.extractLsb' 4 17).toNat
    let x : Int := g / 16 % 32 + (w.extractLsb' 24 6).toInt
    let y : Int := g / 16 / 32 + (w.extractLsb' 32 6).toInt
    let zero : Prop := w &&& 0xFFFFFFC0C0E0000F = 0 ∧ (off0 = true → off = 0)
    (¬ zero → placeWord s g w off0 = .error (.of .illegalOperand)) ∧
    (zero → ∀ l, s.launch (s.ctx g).lslot = some l → 0 ≤ x → x < 32 → 0 ≤ y → y < 32 →
      inRect l.record (32 * y.toNat + x.toNat) = true →
      placeWord s g w off0 = .ok (32 * y.toNat + x.toNat, off * 16)) ∧
    (zero → (x < 0 ∨ 32 ≤ x ∨ y < 0 ∨ 32 ≤ y) → placeWord s g w off0 = .error (.of .placeRange)) ∧
    (zero → ∀ l, s.launch (s.ctx g).lslot = some l → 0 ≤ x → x < 32 → 0 ≤ y → y < 32 →
      inRect l.record (32 * y.toNat + x.toNat) = false → placeWord s g w off0 = .error (.of .placeRange)) ∧
    placeOf s g .zero w off0 = .ok (tileOf g, 0)

/-- R316-R318: messages, continuations and class masks. -/
def Sys2Proof.Stated.MessagesAndYields : Prop :=
  ∀ (s : State) (h : Head) (t : Tail) (a b c : Word) (st : Stage),
    let is (i : Instr) (st' : Stage) : Prop := exec i s = .next (after s h st')
    let len := (tailF t).toNat % 256
    let msg (data : List Byte) : Trigger := { Trigger.plain .msg 0 (me s).lslot data with cls := (tailF t).toNat / 4096 }
    let mask := tabGet (0 : BitVec 16) (s.tile (tileOf s.cur)).masks (me s).lslot
    let yields (i : Instr) (pc : Nat) : Prop := checkTarget s s.cur pc = .ok →
      let k := yieldCont (me s) pc ((tailM t).testBit 0)
      is i { st with xfer := some (.done (some (k, mkEffect 0xE1 t 0 0 (bytesLE 8 pc ++ k.payload) [])) none) }
    Issues s h → Reads (.int false) s t a b c st →
    (∀ tgt off, placeOf s s.cur (tailA t) a true = .ok (tgt, off) →
      (len = 0 → is (.send h t) (holds st (mkEffect 0xE0 t 0 a.toNat [] [(tgt, .msg (msg []))]))) ∧
      (len ≠ 0 → ∀ l, Readable s .tileLocal b.toNat len 8 l →
        let data := seen s st l.key len
        is (.send h t) (holds (touched s b.toNat st l len) (mkEffect 0xE0 t 0 a.toNat data [(tgt, .msg (msg data))])))) ∧
    yields (.yield h t) a.toNat ∧ yields (.yieldImm h t) (immTarget st.at_ (tailLit t)) ∧
    is (.cmask h t) ((pushed st t (mask.setWidth 64)).act (.mask true (a.toNat % 2 ^ 16))) ∧
    is (.cunmask h t) ((pushed st t (mask.setWidth 64)).act (.mask false (a.toNat % 2 ^ 16)))

/-- R319-R322: tasks and join counters. -/
def Sys2Proof.Stated.TasksAndJoins : Prop :=
  ∀ (s : State) (h : Head) (t : Tail) (a b c : Word) (st : Stage) (tgt off : Nat),
    let is (i : Instr) (st' : Stage) : Prop := exec i s = .next (after s h st')
    let here := tileOf s.cur
    let f := (tailF t).toNat
    let pc := a.toNat % 2 ^ 48
    let rec_ (join : Option (Nat × Nat)) : Trigger :=
      { Trigger.plain .task pc (me s).lslot (bytesLE 8 b.toNat ++ List.replicate 4 0) with
        pri := f % 4, eff := f % 4, cls := f % 4, nosteal := f.testBit 2, join := join }
    Issues s h → Reads (.int false) s t a b c st →
    (pc % 2 = 0 → pc % 64 ≠ 0 →
      let data := bytesLE 8 a.toNat ++ bytesLE 8 b.toNat ++ bytesLE 8 c.toNat
      (tailC t = .zero → is (.fork h t) (holds st (mkEffect 0xE4 t 0 0 data [(here, .task (rec_ none))]))) ∧
      (tailC t ≠ .zero → (∃ l, locate s s.cur .shared c.toNat 8 8 true = .ok l) →
        is (.fork h t) (holds st (mkEffect 0xE4 t 0 0 data
          [(here, .joinAdd c.toNat (rec_ (some (here, c.toNat))) here)])))) ∧
    (∀ l, locate s s.cur .shared a.toNat 8 8 false = .ok l → plainOk s a.toNat 8 = true →
      is (.join h t) ((pushed st t 0).act (.join a.toNat (some st.pushes.length)
        ((tailD t).map (fun _ => st.regs.length))))) ∧
    (placeOf s s.cur (tailB t) b true = .ok (tgt, off) → ∀ l, Readable s .tileLocal a.toNat 32 16 l →
      let card := seen s st l.key 32
      let tr := cardTrigger card (me s).lslot
      cardFault s s.cur tr card = none →
      is (.post h t) (holds (touched s a.toNat st l 32) (mkEffect 0xE6 t 0 b.toNat card
        [match tr.join with
          | some (home, o) => (home, .joinAdd o tr tgt)
          | none => (tgt, .task tr)]))) ∧
    (placeOf s s.cur (tailA t) a false = .ok (tgt, off) → ∀ bar, barOperand s s.cur .tileLocal (tailB t) b = .ok bar →
      is (.decz h t) (holds st (mkEffect 0xE7 t 0 a.toNat (bytesLE 8 b.toNat) [(tgt, .decz off (me s).lslot bar)])))

/-- R310: the fields of a task card. -/
def Sys2Proof.Stated.TaskCards : Prop :=
  ∀ (card : List Byte) (l : Nat),
    let tr := cardTrigger card l
    let ctl := natAt card 6 2
    let j := natAt card 8 4
    let hint (x : Nat) : List (Nat × Nat) := if x.testBit 20 then [(x % 2 ^ 13, x / 2 ^ 13 % 2 ^ 7 + 1)] else []
    tr.kind = .task ∧ tr.pc = natAt card 0 6 ∧ tr.lslot = l ∧ tr.pri = ctl / 2 ^ 10 % 4 ∧
    tr.nosteal = ctl.testBit 12 ∧ tr.hints = hint (natAt card 12 4) ++ hint (natAt card 16 4) ∧
    tr.payload = sliceB card 24 8 ++ sliceB card 20 4 ∧
    tr.join = (if ctl.testBit 13 then some (tileAt (j / 2 ^ 18 % 32) (j / 2 ^ 23 % 32), j % 2 ^ 18 * 8) else none)

/-- R304, R305, R323-R325, R344: rings, launches and command submissions at their issue. -/
def Sys2Proof.Stated.RingsAndSubmissions : Prop :=
  ∀ (s : State) (h : Head) (t : Tail) (a b c : Word) (st : Stage) (tgt off : Nat) (bar : Option Bar),
    let is (i : Instr) (st' : Stage) : Prop := exec i s = .next (after s h st')
    let f := (tailF t).toNat
    Issues s h → Reads (.int false) s t a b c st →
    (placeOf s s.cur (tailA t) a false = .ok (tgt, off) →
      (barOperand s s.cur .tileLocal (tailC t) c = .ok bar → ∀ l, Readable s .tileLocal b.toNat (tailM t) 8 l →
        let data := seen s st l.key (tailM t)
        let hdr := tailM t + f / 256 * 2 ^ 16 + f % 256 * 2 ^ 24
        is (.rngput h t) (holds (touched s b.toNat st l (tailM t)) (mkEffect 0xE8 t 0 a.toNat (bytesLE 8 c.toNat ++ data)
          [(tgt, .ringPut ⟨off, hdr, data, bar, (me s).lslot, 0, 0⟩)]))) ∧
      (∀ l, Readable s .tileLocal b.toNat (64 * (tailM t + 1)) 64 l →
        let data := seen s st l.key (64 * (tailM t + 1))
        is (.osub h t) (holds (touched s b.toNat st l (64 * (tailM t + 1))) (mkEffect 0xEA t 0 a.toNat data
          [(tgt, .osub ⟨off, data, (me s).lslot, tileOf s.cur, 0, 0⟩)])))) ∧
    (barOperand s s.cur .tileLocal (tailB t) b = .ok bar → ∀ l, Readable s .tileLocal a.toNat 128 16 l →
      ∀ q, s.queues[tailM t % 16]? = some q →
      let data := launchImage s (me s) (seen s st l.key 128)
      is (.launch h t) (holds (touched s a.toNat st l 128) (mkEffect 0xF7 t 0 a.toNat (bytesLE 8 b.toNat ++ data)
        [(q.tile, .launchRec ⟨tailM t % 16, data, bar, 0, 0⟩)]))) ∧
    (∀ l, Readable s .shared a.toNat 32 16 l → (∃ l', locate s s.cur .tileLocal b.toNat 0 8 true = .ok l') →
      ∀ r, rcbOf (seen s st l.key 32) = some r →
      let st1 := touched s a.toNat st l 32
      (r.pi = r.ci → is (.rngget h t) (pushed st1 t (BitVec.ofNat 64 (2 ^ 63)))) ∧
      (r.pi ≠ r.ci → ∀ l1, Readable s .tileLocal (r.base + r.ci % r.size) 4 4 l1 →
        let hdr := natLE (seen s st1 l1.key 4)
        let st2 := touched s (r.base + r.ci % r.size) st1 l1 4
        let skip := (r.ci + hdr % 65536 + 4) % 2 ^ 64
        (hdr / 65536 % 256 = 0 → r.pi = skip → is (.rngget h t) (pushed st2 t (BitVec.ofNat 64 (2 ^ 63)))) ∧
        (hdr / 65536 % 256 ≠ 0 → f % 256 < hdr % 65536 →
          is (.rngget h t) (pushed st2 t (BitVec.ofNat 64 (2 ^ 62 + hdr)))) ∧
        (hdr / 65536 % 256 ≠ 0 → hdr % 65536 = 0 → ∀ st3,
          storeBytes s s.cur 0xE9 t (a.toNat + 16) (bytesLE 8 (r.ci + 8)) 8 st2 = .ok st3 →
          is (.rngget h t) (pushed st3 t (BitVec.ofNat 64 hdr))) ∧
        (hdr / 65536 % 256 ≠ 0 → hdr % 65536 ≠ 0 → hdr % 65536 ≤ f % 256 →
          ∀ l2 st4 st5, Readable s .tileLocal (r.base + r.ci % r.size + 4) (hdr % 65536) 1 l2 →
          storeBytes s s.cur 0xE9 t b.toNat (seen s st2 l2.key (hdr % 65536)) 8
            (touched s (r.base + r.ci % r.size + 4) st2 l2 (hdr % 65536)) = .ok st4 →
          storeBytes s s.cur 0xE9 t (a.toNat + 16) (bytesLE 8 (r.ci + recSize (hdr % 65536))) 8 st4 = .ok st5 →
          is (.rngget h t) (pushed st5 t (BitVec.ofNat 64 hdr)))))

/-- R345-R347: stream records. -/
def Sys2Proof.Stated.Streams : Prop :=
  ∀ (s : State) (h : Head) (t : Tail) (a b c : Word) (st : Stage),
    let is (i : Instr) (st' : Stage) : Prop := exec i s = .next (after s h st')
    let k := tailM t % 8
    let r := (me s).streams.toList.getD k Stream.idle
    let st0 := pushed (bundle s) t r.status
    Issues s h →
    is (.srctlQuery h t) st0 ∧
    is (.srctlStop h t) { st0 with streams := st0.streams ++ [(k, Stream.idle)] } ∧
    is (.srctlRewind h t) { st0 with streams := st0.streams ++
      [(k, { r with queue := [], fetched := 0, popped := 0 })] } ∧
    (Reads (.int false) s t a b c st → ∀ d st1, loadSpan s s.cur .plain a.toNat 32 16 st = .ok (d, st1) →
      ∀ x, streamOf d = some x → indexOk (me s) k x = true →
      is (.srset h t) { st1 with streams := st1.streams ++ [(k, x)] })

/-- R400-R402: the barrier instructions. -/
def Sys2Proof.Stated.BarrierInstructions : Prop :=
  ∀ (s : State) (h : Head) (t : Tail) (a b c : Word) (st : Stage),
    let is (i : Instr) (st' : Stage) : Prop := exec i s = .next (after s h st')
    let here := tileOf s.cur
    let off := a.toNat
    let spot (write : Bool) : Prop := ∃ l, locate s s.cur .shared off 16 16 write = .ok l
    let n := if layoutOf t = .t16 then 1 else b.toNat
    let wait (i : Instr) (bit0 : Bool) : Prop := (me s).guard = none → spot false → plainOk s off 16 = true →
      is i ((pushed st t 0).act (.barrier off (b.toNat % 16) bit0 (some st.pushes.length)
        ((tailD t).map (fun _ => st.regs.length))))
    Issues s h → Reads (.int false) s t a b c st →
    (spot true → b.toNat < 2 ^ 20 →
      is (.tbinit h t) (holds st (mkEffect 0xED t 0 off (bytesLE 8 b.toNat) [(here, .tbinit off b.toNat)]))) ∧
    (spot true → b.toNat < 2 ^ 37 →
      is (.tbexp h t) (holds st (mkEffect 0xEF t 0 off (bytesLE 8 b.toNat) [(here, .tbexp off b.toNat)]))) ∧
    (∀ tgt o, placeOf s s.cur (tailA t) a false = .ok (tgt, o) → 1 ≤ n → n < 2 ^ 20 →
      is (.tbarr h t) (holds st (mkEffect 0xEE t 0 off (bytesLE 8 n) [(tgt, .arrival o n false 0 0)]))) ∧
    wait (.tbwait h t) false ∧ wait (.tbwaitB h t) true ∧
    (spot false → plainOk s off 16 = true →
      let w := barRead s here off
      let v := BitVec.ofNat 64 (w % 16 + w / 2 ^ 76 % 16 * 16 + w / 2 ^ 80 % 2 ^ 24 * 256 + w / 16 % 2 ^ 20 * 2 ^ 32)
      let st1 := pushed st t v
      (layoutOf t ≠ .t32 → is (.tbtest h t) st1) ∧
      (layoutOf t = .t32 → tailM t / 16 % 2 = 0 →
        is (.tbtest h t) (st1.setPred (tailM t / 32) (decide (w % 16 ≠ b.toNat % 16)))) ∧
      (layoutOf t = .t32 → tailM t / 16 % 2 = 1 →
        is (.tbtest h t) (st1.setPred (tailM t / 32) (decide (w % 2 ≠ b.toNat % 2)))))

/-- R384, R386, R388-R390: the lifeline instructions send their block to the controller of the issuer's
stack; CONFIG and CLOSE need system mode. -/
def Sys2Proof.Stated.LifelineInstructions : Prop :=
  ∀ (s : State) (h : Head) (t : Tail) (a b c : Word) (st : Stage) (bar : Option Bar) (l : Loc),
    let here := tileOf s.cur
    let is (i : Instr) (opc op n : Nat) (ok : List Byte → Bool) : Prop :=
      (∃ x, locate s s.cur .shared a.toNat n n true = .ok x) → Readable s .shared a.toNat n n l →
      let blk := seen s st l.key n
      ok blk = true →
      exec i s = .next (after s h (holds (touched s a.toNat st l n) (mkEffect opc t 0 a.toNat blk
        [(1026 + stackOf here, .lifeline
          { opc := opc, op := op, tile := here, ctx := ownerOf s s.cur % 16,
            gen := igen (genEntry s here (me s).asid), l := a.toNat, bar := bar, lslot := (me s).lslot,
            asid := (me s).asid, block := blk, keyed := none })])))
    Issues s h → Reads (.int false) s t a b c st → barOperand s s.cur .shared (tailB t) b = .ok bar →
    capFault s s.cur (me s) 27 = none →
    is (.lfind h t) 0xF3 0 32 (findBlockOk false) ∧ is (.lput h t) 0xF4 0 64 putBlockOk ∧
    is (.lrel h t) 0xF5 0 32 (fun _ => true) ∧ is (.lstatRead h t) 0xF6 0 64 (findBlockOk true) ∧
    ((me s).status.getLsbD 15 = true →
      is (.lstatConfig h t) 0xF6 1 64 configBlockOk ∧
      is (.lstatClose h t) 0xF6 2 64 (fun x => decide (natAt x 0 1 < 64)))

/-- The format pairs of MMA (R110, R230), with their opcodes. -/
def Sys2Proof.Stated.mmas (h : Head) (t : Tail) : List (Nat × Instr) :=
  [(0xA8, .mmaBf16Bf16 h t), (0xA9, .mmaF16F16 h t), (0xAA, .mmaE4m3E4m3 h t), (0xAB, .mmaE4m3E5m2 h t),
   (0xAC, .mmaE5m2E4m3 h t), (0xAD, .mmaE5m2E5m2 h t), (0xAE, .mmaE2m3E2m3 h t), (0xAF, .mmaE2m1E2m1 h t),
   (0xB0, .mmaE2m1E4m3 h t), (0xB1, .mmaE4m3E2m1 h t), (0xB2, .mmaLg6Lg6 h t), (0xB3, .mmaLg6E4m3 h t),
   (0xB4, .mmaE4m3Lg6 h t), (0xB5, .mmaLg6E2m1 h t), (0xB6, .mmaE2m1Lg6 h t), (0xB7, .mmaInt8Int8 h t),
   (0xB8, .mmaMxe4m3Mxe4m3 h t), (0xB9, .mmaMxe2m1Mxe2m1 h t), (0xBA, .mmaMxe2m3Mxe2m3 h t),
   (0xBB, .mmaMxe2m1Mxe4m3 h t), (0xBC, .mmaMxe4m3Mxe2m1 h t), (0xBD, .mmaMxe5m2Mxe5m2 h t),
   (0xBE, .mmaBf16E4m3 h t), (0xBF, .mmaBf16Lg6 h t)]

/-- R215, R216, R222-R236: a matrix instruction whose checks pass holds one command for the tile that
its routing word names.
What the held command carries beside the spec is the model's (DEDUCED, log 45). -/
def Obligations.MatrixInstructions : Prop :=
  ∀ (s : State) (h : Head) (t : Tail) (a b c : Word) (st : Stage) (tgt : Nat),
    let here := tileOf s.cur
    let asid := nfld (capEntry s here ((me s).cap.toNat / 256 % 256)) 16 8
    let is (i : Instr) (opc : Nat) (cv : Word) (desc : List Byte) (st1 : Stage) : Prop :=
      exec i s = .next (after s h (holds st1 (matrixEffect s t opc tgt a b cv asid desc)))
    let small := (tailF t).toNat % 32
    let scale := if tailC t = .zero then 0x3F8000003F800000 else c
    Issues s h → Reads (.int false) s t a b c st →
    (a &&& 0xFFFFFFC0C0E0000E = 0 ∧ (a.getLsbD 0 = false → a.extractLsb' 4 17 = 0)) →
    placeTile s s.cur (a.extractLsb' 24 6).toInt (a.extractLsb' 32 6).toInt = some tgt →
    capFault s s.cur (me s) 25 = none →
    (cfgOk b.toNat = true → is (.tcfg h t) 0xA0 c [] st) ∧
    (∀ d st1, loadSpan s s.cur .plain b.toNat 32 8 st = .ok (d, st1) →
      (tldDesc false d = none → is (.tld h t) 0xA1 c d st1) ∧
      (tldDesc true d = none → is (.tst h t) 0xA2 c d st1)) ∧
    is (.tzero h t) 0xA3 c [] st ∧ is (.aclr h t) 0xA3 c [] st ∧
    (let al := drainAlign ((tailF t).extractLsb' 10 4).toNat
     b.toNat % al = 0 → c.toNat % al = 0 → is (.tdrain h t) 0xA4 c [] st) ∧
    (b.toNat % 8 = 0 → is (.tchk h t) 0xA5 c [] st) ∧
    (1 ≤ small → small ≤ 16 →
      ((groupCounts b (tailM t / 32 + 1)).sum ≤ 64 → is (.mmag h t) 0xA6 scale [] st) ∧
      ∀ x ∈ mmas h t, is x.2 x.1 scale [] st) ∧
    (∀ d st1, loadSpan s s.cur .plain b.toNat 64 8 st = .ok (d, st1) → tringDesc d = none →
      is (.tring h t) 0xA7 c d st1)

/-! ### Vector instructions -/

/-- R193, R187, R188: element-wise arithmetic, integer and floating. -/
def Sys2Proof.Stated.VectorArithmetic : Prop :=
  ∀ (s : State) (h : Head) (t : Tail) (a b c : Word) (st : Stage),
    let x := (me s).shape
    let n := x.nr * x.nc
    let ty := vTy t
    let z := (me s).fpctl.getLsbD 8
    let rm := rmOf (vNib t)
    let sat := (vNib t).testBit 3
    let xs := (me s).elems (vVA t) x.e n
    let ys := if vBS t then List.replicate n (b.toNat % 2 ^ (8 * x.e)) else (me s).elems (vVB t) x.e n
    let zs := if vCS t then List.replicate n (c.toNat % 2 ^ (8 * x.e)) else (me s).elems (vVC t) x.e n
    let is (i : Instr) (r : List (Nat × Flags)) : Prop := exec i s = .next (after s h
      ((st.putV (vVD t) x.e (r.map (fun (e : Nat × Flags) => e.1))).raise
        (r.foldl (fun (f : Flags) (e : Nat × Flags) => f ||| e.2) 0)))
    let int (i : Instr) (f : Int → Int → Int → Int) : Prop := vcls ty ≠ some .fp →
      is i ((xs.zip (ys.zip zs)).map (fun e => (tyResult ty sat (f (tyInt ty e.1) (tyInt ty e.2.1) (tyInt ty e.2.2)), 0)))
    let fp (i : Instr) (f : Val → Val → Val → Val) : Prop := vcls ty = some .fp →
      is i ((xs.zip (ys.zip zs)).map (fun e => fpElem z ty rm (f (vSrc z ty e.1) (vSrc z ty e.2.1) (vSrc z ty e.2.2))))
    let mm (i : Instr) (max : Bool) : Prop := vcls ty = some .fp →
      is i ((xs.zip (ys.zip zs)).map (fun e => minMax (tyFmt ty) max (ftzCode z (tyFmt ty) e.1) (ftzCode z (tyFmt ty) e.2.1)))
    Issues s h → Reads (.int false) s t a b c st → tyBytes ty = x.e →
    int (.vadd h t) (fun p q _ => p + q) ∧ fp (.vadd h t) (fun p q _ => addV rm p q) ∧
    int (.vsub h t) (fun p q _ => p - q) ∧ fp (.vsub h t) (fun p q _ => addV rm p (negV q)) ∧
    int (.vmul h t) (fun p q _ => tyInt ty (wrapInt (8 * x.e) (p * q))) ∧ fp (.vmul h t) (fun p q _ => mulV p q) ∧
    int (.vfma h t) (fun p q r => p * q + r) ∧ fp (.vfma h t) (fun p q r => fmaV rm p q r) ∧
    int (.vmin h t) (fun p q _ => min p q) ∧ mm (.vmin h t) false ∧
    int (.vmax h t) (fun p q _ => max p q) ∧ mm (.vmax h t) true ∧
    int (.vdiv h t) (fun p q _ => if q = 0 then 2 ^ (8 * x.e) - 1
      else if tySigned ty then sint (8 * x.e) (wrapInt (8 * x.e) (p.tdiv q)) else p.tdiv q) ∧
    (vcls ty = some .fp → is (.vdiv h t) ((xs.zip (ys.zip zs)).map (fun e =>
      let v := divV (vSrc z ty e.1) (vSrc z ty e.2.1)
      ((fpElem z ty rm v.1).1, (fpElem z ty rm v.1).2 ||| v.2))))

/-- R192, R195-R197, R206, R207: shapes, selection, broadcasts, transposition, moves of one element
and stream pops. -/
def Obligations.VectorMoves : Prop :=
  ∀ (s : State) (h : Head) (t : Tail) (a b c : Word) (st : Stage),
    let x := (me s).shape
    let n := x.nr * x.nc
    let el (r i j : Nat) : Nat := ((me s).elems r x.e n).getD (i * x.nc + j) 0
    let grid (nr nc : Nat) (f : Nat → Nat → Nat) : List Nat :=
      (List.range nr).flatMap (fun (i : Nat) => (List.range nc).map (fun (j : Nat) => f i j))
    let is (i : Instr) (st' : Stage) : Prop := exec i s = .next (after s h st')
    let writes (i : Instr) (l : List Nat) : Prop := is i (st.putV (vVD t) x.e l)
    let row := b.toNat / 256 % 16
    let col := b.toNat % 64
    Issues s h →
    (Reads (.int false) s t a b c st →
      (vshapeOk a.toNat = true → is (.vshape h t) { st with vshape := some a.toNat }) ∧
      (tyBytes (vTy t) = x.e →
        writes (.vsel h t) (((((me s).elems (vVA t) x.e n).zip
          ((if vBS t then List.replicate n (b.toNat % 2 ^ (8 * x.e)) else (me s).elems (vVB t) x.e n).zip
          ((me s).elems (vVC t) x.e n)))).map (fun e => if e.2.2 = 0 then e.2.1 else e.1)) ∧
        writes (.vbcastSc h t) (List.replicate n (b.toNat % 2 ^ (8 * x.e))) ∧
        (a.toNat % 16 < x.nr → writes (.vbcastRow h t) (grid x.nr x.nc (fun _ j => el (vVA t) (a.toNat % 16) j))) ∧
        (a.toNat % 64 < x.nc → writes (.vbcastCol h t) (grid x.nr x.nc (fun i _ => el (vVA t) i (a.toNat % 64)))) ∧
        (x.nc ≤ 16 → x.nr ≤ 64 → x.nc * x.nr * x.e ≤ 1024 →
          is (.vtran h t) ({ st with vshape := some (Shape.mk x.nc x.nr x.e).code }.putV (vVD t) x.e
            (grid x.nc x.nr (fun i j => el (vVA t) j i)))) ∧
        (row < x.nr → col < x.nc →
          (let v := natLE (denseRead (me s).v (1024 * vVA t + (row * x.nc + col) * x.e) x.e)
           is (.vmovsGet h t) (pushed st t (ext (tySigned (vTy t)) (BitVec.ofNat (8 * x.e) v)))) ∧
          is (.vmovsPut h t) { st with vregs := st.vregs ++
            [(vVD t, false, (elemBytes x.e [a.toNat]).map (fun y => ((row * x.nc + col) * x.e + y.1, y.2)))] }))) ∧
    (tyBytes (vTy t) = x.e → ∀ k vs st1, tailA t = .pop k →
      popMany (me s) k.toNat n (bundle s) = .ok (vs, st1) →
      is (.vspop h t) ((st1.putV (vVD t) x.e ((List.range n).map (fun i => (vs.getD i 0).toNat % 2 ^ (8 * x.e)))).push
        (BitVec.ofNat 64 vs.length) (tailD t)))

/-- R194, R199-R203: comparisons, reductions, conversions, special functions and Welford statistics. -/
def Sys2Proof.Stated.VectorReductions : Prop :=
  ∀ (s : State) (h : Head) (t : Tail) (a b c : Word) (st : Stage),
    let x := (me s).shape
    let n := x.nr * x.nc
    let ty := vTy t
    let z := (me s).fpctl.getLsbD 8
    let rm := rmOf (vNib t)
    let xs := (me s).elems (vVA t) x.e n
    let ys := if vBS t then List.replicate n (b.toNat % 2 ^ (8 * x.e)) else (me s).elems (vVB t) x.e n
    let rows := (List.range x.nr).map (fun (i : Nat) => (List.range x.nc).map (fun (j : Nat) => xs.getD (i * x.nc + j) 0))
    let cols := (List.range x.nc).map (fun (j : Nat) => (List.range x.nr).map (fun (i : Nat) => xs.getD (i * x.nc + j) 0))
    let is (i : Instr) (st' : Stage) : Prop := exec i s = .next (after s h st')
    let each (i : Instr) (sh : Shape) (r : List (Nat × Flags)) : Prop :=
      is i (({ st with vshape := some sh.code }.putV (vVD t) sh.e (r.map (fun (e : Nat × Flags) => e.1))).raise
        (r.foldl (fun (f : Flags) (e : Nat × Flags) => f ||| e.2) 0))
    let red (l : List Nat) : Nat × Flags := if vcls ty = some .fp then reduceFp z ty rm (vVC t) l
      else (reduceInt ty ((vNib t).testBit 3) (vVC t) l, 0)
    let special (i : Instr) (f : Bool → Nat → Nat × Flags) : Prop :=
      is i ((st.putV (vVD t) x.e (xs.map (fun v => (f z v).1))).raise (xs.foldl (fun g v => g ||| (f z v).2) 0))
    Issues s h → Reads (.int false) s t a b c st → tyBytes ty = x.e →
    each (.vredr h t) ⟨x.nr, 1, x.e⟩ (rows.map red) ∧ each (.vredc h t) ⟨1, x.nc, x.e⟩ (cols.map red) ∧
    ((Shape.mk x.nr x.nc (tyBytes (vDTy t))).ok = true → each (.vcvt h t) ⟨x.nr, x.nc, tyBytes (vDTy t)⟩
      (xs.map (vcvtElem z ty (vDTy t) (vNib t)))) ∧
    special (.vexp2 h t) fnExp2 ∧ special (.vlog2 h t) fnLog2 ∧ special (.vrcp h t) fnRcp ∧
    special (.vrsq h t) fnRsq ∧
    (let rel (p q : Nat) : Bool := if vcls ty = some .fp then fpRel (vNib t % 8) (vSrc z ty p) (vSrc z ty q)
       else fpRel (vNib t % 8) (.fin (Q.ofInt (tyInt ty p))) (.fin (Q.ofInt (tyInt ty q)))
     let fl (p q : Nat) : Flags := if vcls ty = some .fp then
       fpRelFlags ((vNib t).testBit 3) (vSrc z ty p) (vSrc z ty q) else 0
     let all := if vX t / 2 = 1 then (xs.zip ys).all (fun e => rel e.1 e.2) else (xs.zip ys).any (fun e => rel e.1 e.2)
     is (.vcmp h t) (((st.putV (vVD t) x.e ((xs.zip ys).map (fun e =>
       if rel e.1 e.2 then 2 ^ (8 * x.e) - 1 else 0))).setPred (vVC t) all).raise
         ((xs.zip ys).foldl (fun (f : Flags) (e : Nat × Nat) => f ||| fl e.1 e.2) 0))) ∧
    (x.e = 4 →
      (let w := (packFmt (vVC t)).bits
       let q (v : Nat) := cvtFmt z .fp32 (packFmt (vVC t)) v rm ((vNib t).testBit 3)
       let sh : Shape := ⟨x.nr, x.nc * w / 8, 1⟩
       (if w = 4 then x.nc % 2 else x.nc % 4) = 0 → sh.ok = true →
       is (.vpack h t) (({ st with vshape := some sh.code }.putV (vVD t) 1
         (rows.flatMap (fun (r : List Nat) =>
           (bytesLE sh.nc (packBits w (r.map (fun v => (q v).code)))).map (fun (y : Byte) => y.toNat)))).raise
           (xs.foldl (fun f v => f ||| (q v).fl) 0))) ∧
      is (.vwfu h t) (st.putWf (vVD t) (rows.zipIdx.map (fun r =>
        (r.2, r.1.foldl (fun (w : Wf) e => wfStep z rm e w) (wfRow (me s) (vVD t) r.2, 0))))) ∧
      is (.vwfm h t) (st.putWf (vVD t)
        (((List.range x.nr).filter (fun i => !(fpSrc z (wfRow (me s) (vVA t) i).1).isZero)).map (fun i =>
          (i, wfMerge z rm (wfRow (me s) (vVA t) i) (wfRow (me s) (vVD t) i, 0)))))) ∧
    (x.e = 1 →
      let w := (packFmt (vVC t)).bits
      let m := x.nc * 8 / w
      let sh : Shape := ⟨x.nr, m, 4⟩
      ¬ (w = 6 ∧ x.nc % 3 ≠ 0) → m ≤ 64 → sh.ok = true →
      is (.vunpk h t) ({ st with vshape := some sh.code }.putV (vVD t) 4
        (rows.flatMap (fun r => (unpackBits w m (packBits 8 r)).map (fun v => (cvtFmt z (packFmt (vVC t)) .fp32 v .rne false).code)))))

/-- R204, R205: vector loads, stores and gathers.
How a row is cut into packets is the model's choice (DESIGN CHOICE, log 9). -/
def Obligations.VectorMemory : Prop :=
  ∀ (s : State) (h : Head) (t : Tail) (a b c : Word) (st : Stage),
    let x := (me s).shape
    let n := x.nr * x.nc
    let lin := (List.range x.nr).flatMap (fun (i : Nat) => (List.range x.nc).map (fun (j : Nat) =>
      (a + BitVec.ofNat 64 i * b + BitVec.ofNat 64 (j * x.e)).toNat))
    let gat := ((me s).elems (vVB t) x.e n).map (fun v =>
      (BitVec.ofInt 64 (a.toNat + tyInt (vTy t) v * 2 ^ (vNib t % 4))).toNat)
    let loads (i : Instr) (eas : List Nat) : Prop := ∀ vs st1, (∃ ls, checkElems s s.cur x.e false eas = .ok ls) →
      loadElems s s.cur x.e eas st = .ok (vs, st1) → exec i s = .next (after s h (st1.putV (vVD t) x.e vs))
    let bytes := ((me s).elems (vVA t) x.e n).map (fun v => bytesLE x.e v)
    Issues s h → Reads (.int false) s t a b c st →
    loads (.vld h t) lin ∧ (tyBytes (vTy t) = x.e → loads (.vgath h t) gat) ∧
    (∀ ls st1, checkElems s s.cur x.e true lin = .ok ls →
      vstDirect s s.cur x.e (me s) (lin.zip (ls.zip bytes)) st = .ok st1 →
      let tag := tagOf s (tileOf s.cur) (me s).asid
      let rows := vstRows x.nc x.nr (lin.zip (ls.zip bytes))
      let es := rows.zipIdx.flatMap (fun (r : List VstElem × Nat) =>
        (vstRuns (me s) x.e r.1).filterMap (runEffect t tag r.2))
      let st2 := lin.foldl (fun st ea => walks s ea st) st1
      exec (.vst h t) s = .next (after s h (if es.isEmpty then st2 else st2.act (.effects es)))) ∧
    (∀ els : List VstElem, (∀ y ∈ els, isPrivate (me s) y.1 x.e = true) →
      (vstRuns (me s) x.e els).flatten = []) ∧
    (∀ (els : List VstElem) (st1 : Stage), (∀ y ∈ els, isPrivate (me s) y.1 x.e = false) →
      vstDirect s s.cur x.e (me s) els st1 = .ok st1 ∧ (vstRuns (me s) x.e els).flatten = els ∧
      ∀ r ∈ vstRuns (me s) x.e els, ∀ y ∈ r, ∀ y' ∈ r, y.2.1.home = y'.2.1.home)

/-- R204: the first element, in row-major order, whose address fails its checks is reported. -/
def Sys2Proof.Stated.VectorFaults : Prop :=
  ∀ (s : State) (h : Head) (t : Tail) (a b c : Word) (st : Stage) (eas post : List Nat) (ea : Nat) (e : AddrError),
    let x := (me s).shape
    Issues s h → Reads (.int false) s t a b c st →
    (vecAddrs x a b = eas ++ ea :: post → ∀ w : Bool,
      (∀ y ∈ eas, ∃ l, locate s s.cur .plain y x.e x.e w = .ok l) →
      locate s s.cur .plain ea x.e x.e w = .error e →
      e.stall = false →
      exec (if w then .vst h t else .vld h t) s = .next (faulting s h ⟨e.cause, some ea, false, 0, e.pte⟩)) ∧
    (tyBytes (vTy t) ≠ x.e → ∀ i, i ∈ [Instr.vadd h t, .vsub h t, .vmul h t, .vfma h t, .vmin h t, .vmax h t,
      .vdiv h t, .vcmp h t, .vsel h t, .vredr h t, .vredc h t, .vbcastSc h t, .vbcastRow h t, .vbcastCol h t,
      .vtran h t, .vcvt h t, .vpack h t, .vunpk h t, .vexp2 h t, .vlog2 h t, .vrcp h t, .vrsq h t, .vwfu h t,
      .vwfm h t, .vmovsGet h t, .vmovsPut h t, .vgath h t] →
      exec i s = .next (faulting s h ⟨.shape, none, false, 0, none⟩))

/-! ### Operands, guards and bundles -/

/-- R97, R99, R100, R104: what a source gives, and what a pop of a stream does.
A second pop of one bundle that finds no element left in all: DEDUCED, log 70. -/
def Obligations.SourceValues : Prop :=
  ∀ (c : Ctx) (t : Tail) (i : Nat) (st : Stage) (cl : LitClass),
    (∀ a : BitVec 4, readSrc cl c t i (.q a) st = .ok (c.q.getD a.toNat 0, st)) ∧
    (∀ r : BitVec 5, readSrc cl c t i (.n r) st = .ok (c.n[r.toNat], st)) ∧
    readSrc cl c t i .zero st = .ok (0, st) ∧
    (∀ (v : BitVec 32) (m : BitVec 4) (d : Dest) (x : Src), t = .t48l v m d x →
      (cl = .int true → readSrc cl c t i .lit st = .ok (v.signExtend 64, st)) ∧
      (cl ≠ .int true → readSrc cl c t i .lit st = .ok (v.setWidth 64, st))) ∧
    (∀ (f : BitVec 16) (m : BitVec 8) (d : Dest) (z y x : Src), t = .t48x f m d z y x →
      (cl = .int true → readSrc cl c t i .lit st = .ok (f.signExtend 64, st)) ∧
      (cl = .int false → readSrc cl c t i .lit st = .ok (f.setWidth 64, st)) ∧
      (cl = .fp → readSrc cl c t i .lit st = .ok ((f ++ 0#16).setWidth 64, st)) ∧
      (∀ k : BitVec 32, c.k.getD (f.toNat % 256) 0 = k → x = .k →
        readSrc cl c t 0 .k st = .ok (if cl = .int true then k.signExtend 64 else k.setWidth 64, st))) ∧
    (∀ (m : BitVec 8) (d : Dest) (z y x : Src) (k : BitVec 32), t = .t32 m d z y x → c.k.getD m.toNat 0 = k →
      readSrc cl c t i .k st = .ok (if cl = .int true then k.signExtend 64 else k.setWidth 64, st)) ∧
    (∀ (v : BitVec 20) (x : Src), t = .i20 v x → readSrc cl c t i .lit st = .ok ((v ++ 0#12).setWidth 64, st)) ∧
    (∀ k : BitVec 2, let r := c.streams.toList.getD k.toNat Stream.idle
      let j := (st.pops.filter (· == k.toNat)).length
      isIndexSource c k.toNat = false →
      (∀ v, r.queue[j]? = some (v, none) →
        readSrc cl c t i (.pop k) st = .ok (v, { st with pops := st.pops ++ [k.toNat] })) ∧
      (r.queue[j]? = none → r.fetched < r.count → readSrc cl c t i (.pop k) st = .error .stall) ∧
      (r.queue[j]? = none → r.count ≤ r.fetched →
        readSrc cl c t i (.pop k) st = .error (.of .illegalOperand)))

/-- R91: a head whose guard does not hold pushes a zero for each value of its form and does nothing
else, whatever the instruction. -/
def Obligations.FalseGuards : Prop :=
  ∀ (s : State) (i : Instr) (F : Form) (h : Head) (t : Tail),
    instrParts i = some (F, h, t) → (me s).st = .run → guardHolds (me s) h = false →
    exec i s = .next (after s h { bundle s with
      pushes := (bundle s).pushes ++ List.replicate (pushes F.opc i) 0 })

/-- R94, R96: a head that is not the last of its bundle changes nothing but the bundle in progress. What the
bundle holds after its first head that waits is kept: the later heads run again after the wait (DESIGN CHOICE,
log 78). -/
def Sys2Proof.Stated.ChainedHeads : Prop :=
  ∀ (s : State) (h : Head) (st : Stage), h.chain = true →
    let t := after s h st
    let next := { st with at_ := st.at_ + 2 }
    t.ctx s.cur = { me s with
      stage := some next
      resume := (me s).resume.or (if next.acts.any Act.waits = true then some next else none) } ∧
    (∀ g, g ≠ s.cur → t.ctx g = s.ctx g) ∧ { t with ctxs := s.ctxs } = s

/-- R94, R98, R108, R150: the end of a bundle that only writes registers, and the frame of every
register-only instruction: registers, special registers, memory, other contexts and tiles. -/
def Sys2Proof.Stated.BundlesComplete : Prop :=
  ∀ (s : State) (h : Head) (st : Stage), h.chain = false → Clean s st → st.acts = [] → st.xfer = none → st.link = none →
    st.loopOpen = none → st.cregs = [] → (me s).loops = [] → (me s).q.length = 16 →
    let t := after s h st
    let c := me s
    let c' := t.ctx s.cur
    c'.st = .run ∧ c'.stage = none ∧ c'.pc = s.after ∧
    c'.q = (st.pushes.reverse ++ c.q).take 16 ∧
    (∀ r : Fin 32, c'.n[r] = match st.regs.reverse.find? (fun e => e.1 == r.val) with
      | some e => e.2
      | none => c.n[r]) ∧
    (∀ k, k < 8 → c'.p.getLsbD k = match (if k = 0 then none else st.preds.reverse.find? (fun e => e.1 == k)) with
      | some e => e.2
      | none => c.p.getLsbD k) ∧
    c'.fpctl = c.fpctl ||| BitVec.ofNat 64 st.flags ∧
    c'.status = c.status ∧ c'.trapvec = c.trapvec ∧ c'.cap = c.cap ∧ c'.pri = c.pri ∧ c'.saveptr = c.saveptr ∧
    c'.lc = c.lc ∧ c'.k = c.k ∧ c'.held = c.held ∧ c'.groups = c.groups ∧ c'.act = c.act ∧ c'.trig = c.trig ∧
    c'.guard = c.guard ∧ c'.fail = c.fail ∧ c'.line = c.line ∧ c'.body = c.body ∧ (st.vregs = [] → c'.v = c.v) ∧ (st.vshape = none → c'.vshape = c.vshape) ∧
    (st.pops = [] → st.streams = [] → c'.streams = c.streams) ∧
    (∀ g, g ≠ s.cur → t.ctx g = s.ctx g) ∧
    t.mem = s.mem ∧ (∀ k n, visRead t k n = visRead s k n) ∧
    (∀ u, { t.tile u with perf := (s.tile u).perf } = s.tile u) ∧
    t.launches = s.launches ∧ t.pkts = s.pkts ∧ t.queues = s.queues ∧ t.life = s.life ∧ t.mgmt = s.mgmt ∧
    t.routes = s.routes ∧ t.tileMap = s.tileMap

/-- R95, R108, R132, R135-R137, R162-R165, R168, R176: the end of a bundle with a transfer, a link, a loop that
opens or is left, SYSRET, or a write of a control register. -/
def Sys2Proof.Stated.BundleTransfers : Prop :=
  ∀ (s : State) (h : Head) (st : Stage), h.chain = false → Clean s st → st.acts = [] →
    let c := me s
    let c' := (after s h st).ctx s.cur
    (∀ a, st.xfer = some (.jump a) → st.loopOpen = none → st.cregs = [] →
      c'.st = .run ∧ c'.stage = none ∧ c'.pc = a ∧ c'.loops = c.loops ∧ c'.lc = c.lc ∧ c'.status = c.status) ∧
    (∀ v, st.link = some v → st.cregs = [] → (∀ x y, st.xfer ≠ some (.done x y)) → c'.n[30] = v) ∧
    (∀ a, st.xfer = some (.breakLoop a) → st.loopOpen = none → st.cregs = [] → c.loops ≠ [] → c.loops.length ≤ 3 →
      c'.st = .run ∧ c'.stage = none ∧ c'.pc = a ∧ c'.loops = c.loops.dropLast ∧
      ∀ j, j < 3 → (c'.lc.toList.getD j 0) = if j + 1 = c.loops.length then 0 else c.lc.toList.getD j 0) ∧
    (∀ a, st.xfer = some (.sysret a) → st.loopOpen = none → st.cregs = [] →
      c'.st = .run ∧ c'.stage = none ∧ c'.pc = a ∧ c'.faulted = none ∧ c'.loops = c.loops ∧
      ∀ k, k < 64 → c'.status.getLsbD k = if k = 15 then false else c.status.getLsbD k) ∧
    (∀ k n l, st.loopOpen = some (k, n, l) → st.xfer = none → st.cregs = [] → k < 3 → st.bpc < l.start →
      c'.st = .run ∧ c'.stage = none ∧ c'.pc = s.after ∧ c'.loops = c.loops ++ [l] ∧
      c'.body = (if c.loops = [] then st.body else c.body) ∧
      ∀ j, j < 3 → (c'.lc.toList.getD j 0) = if j = k then BitVec.ofNat 32 n else c.lc.toList.getD j 0) ∧
    (∀ i v, st.cregs = [(i, v)] → st.xfer = none → st.loopOpen = none → c.loops = [] →
      c'.st = .run ∧ c'.stage = none ∧ c'.pc = s.after ∧ c'.status = c.status ∧
      c'.trapvec = (c.writeCreg i v).trapvec ∧ c'.cap = (c.writeCreg i v).cap ∧
      c'.saveptr = (c.writeCreg i v).saveptr ∧
      c'.fpctl = (c.writeCreg i v).fpctl ||| BitVec.ofNat 64 st.flags ∧
      (i ≠ 4 → c'.pri = c.pri) ∧ (i = 4 → c'.pri.extractLsb' 0 2 = v.extractLsb' 0 2))

/-- The bundle has completed with the results of `st` (R94, R98, R108). -/
def Sys2Proof.Stated.Completed (s : State) (g next : Nat) (st : Stage) (t : State) : Prop :=
  let d := (s.ctx g).applyStage st
  let c' := t.ctx g
  c'.st = .run ∧ c'.stage = none ∧ c'.pc = next ∧ c'.n = d.n ∧ c'.q = d.q ∧ c'.p = d.p ∧ c'.v = d.v ∧
    c'.streams = d.streams ∧ c'.fpctl = d.fpctl ∧ c'.status = (s.ctx g).status

/-- R34, R36, R39, R265, R302, R318, R369, R372, R373, R377: what the end of a bundle does with what its heads
have staged beside results: a direct store, held effects with room in the buffer and without, a class mask, and
stores to the table area and the tags. -/
def Sys2Proof.Stated.BundleActs : Prop :=
  (∀ (s : State) (r : Reach) (ea n al : Nat) (w : Bool) (l : Loc), r = .plain → tileOf s.cur < 1024 →
    locate s s.cur r ea n al w = .ok l → l.key < 2 ^ 60 ∨ 2 ^ 66 ≤ l.key) ∧
  (∀ (s : State) (h : Head) (st : Stage), h.chain = false → Clean s st → st.xfer = none → st.loopOpen = none →
    st.link = none → st.cregs = [] → (me s).loops = [] →
    let c := me s
    let here := tileOf s.cur
    let t := after s h st
    let c' := t.ctx s.cur
    let tag := tagOf s here c.asid
    let ends : Prop := Completed s s.cur s.after st t ∧ ∀ g, g ≠ s.cur → t.ctx g = s.ctx g
    (∀ k bs, st.acts = [.store k bs] → (k < 2 ^ 60 ∨ 2 ^ 66 ≤ k) → bs ≠ [] → ends ∧ c'.held = c.held ∧
      t.mem = s.mem ∧ visRead t k bs.length = bs ∧
      ∀ x, (x < k ∨ k + bs.length ≤ x) → visRead t x 1 = visRead s x 1) ∧
    (∀ es, st.acts = [.effects es] →
      let new := es.map (fun e => { e with tag := tag })
      let total := (c.held.map Effect.size).sum + (es.map Effect.size).sum
      (total ≤ 4096 → ends ∧ c'.held = c.held ++ new ∧ c'.groups = c.groups ∧ t.mem = s.mem ∧
        ∀ k n, visRead t k n = visRead s k n) ∧
      (4096 < total → c'.st = .wait ∧ c'.waiting = .buffer ∧ c'.held = [] ∧
        c'.groups = c.groups ++ [⟨c.group, c.held, false, false⟩] ∧ c'.status.getLsbD 13 = true ∧
        c'.stage = some { st with next := s.after, acts := [.effects new] } ∧ c'.n = c.n ∧ c'.pc = c.pc ∧
        t.mem = s.mem)) ∧
    (∀ set bits, st.acts = [.mask set bits] → ends ∧ t.mem = s.mem ∧
      let old := tabGet (0 : BitVec 16) (s.tile here).masks c.lslot
      tabGet 0 (t.tile here).masks c.lslot =
        (if set then old ||| BitVec.ofNat 16 bits else old &&& ~~~(BitVec.ofNat 16 bits)) ∧
      ∀ l, l ≠ c.lslot → tabGet 0 (t.tile here).masks l = tabGet 0 (s.tile here).masks l) ∧
    (∀ k tg, st.acts = [.physTag (k / 128) tg] → homeTile k = here → ends ∧ t.mem = s.mem ∧ ownerTag t k = tg) ∧
    (∀ off bs, st.acts = [.physTable off bs] → Config.tableArea ≤ off → off < 2 ^ 21 → bs.length ∈ [1, 2, 4, 8] →
      off % bs.length = 0 → s.MemOk → ends ∧
      let b := overlay (tableBytes s here (off / 8 * 8) 8) (off / 8 * 8) off bs
      (off < 0x1E0400 → ∀ i, i < 2 →
        let slot := off / 8 * 2 % 256 + i
        let v := natAt b (4 * i) 4 &&& 0x8EFF00FF
        tableWord t here (off / 8 * 8 + 4 * i) 4 = if slot = 0 then v % 2 ^ 31 else v) ∧
      (0x1E0400 ≤ off → off < 0x1E0C00 →
        tableWord t here (off / 8 * 8) 8 = natLE b &&& 0xFFFF9FFFFFFFF000) ∧
      (0x1F0000 ≤ off → t.mem = s.mem ∧ remapOf (t.tile here) (off / 8 % 8192) =
        { remapOf (s.tile here) (off / 8 % 8192) with v := (natLE b).testBit 30 }) ∧
      (0x1E0C00 ≤ off → off < 0x1F0000 → t.mem = s.mem ∧ (t.tile here).remap = (s.tile here).remap)))

/-- The endpoint lies in the scope of a fence of the tile: the tile, its cluster, every tile and outrider, or all
(R279). -/
def Sys2Proof.Stated.InScope (t scope dst : Nat) : Prop :=
  (scope = 1 ∧ dst = t) ∨ (scope = 2 ∧ dst < 1024 ∧ clusterOf dst = clusterOf t) ∨
    (scope = 3 ∧ (dst < 1024 ∨ (1026 ≤ dst ∧ dst < 1032))) ∨ 4 ≤ scope

/-- Everything that a fence of a context waits for has happened: its groups are forwarded, no effect of its
activation for an endpoint in scope is unacknowledged, and, with XP, none of its stores waits in the write-merge
path of a tile in scope (R279, R280). -/
def Sys2Proof.Stated.Fenced (s : State) (g scope : Nat) (xp : Bool) : Prop :=
  let c := s.ctx g
  c.groups = [] ∧ (scope = 0 ∨
    ((∀ e ∈ s.pkts, e.2.owner = .act c.act → ¬ InScope (tileOf g) scope e.2.dst) ∧
      (xp = true → ∀ e ∈ s.tiles, InScope (tileOf g) scope e.1 → ∀ m ∈ e.2.merge, m.act ≠ c.act)))

/-- R28, R38, R39, R279, R280, R320, R402: the waits that a bundle's heads have staged. A fence, and a blocking
form with room for its request, release what is held as one group, set COMMITTED and leave the context in WAIT;
a JOIN or a TBWAIT completes at once or leaves it in WAIT. A turn of a context in WAIT ends its wait when what it
waits for has happened, and otherwise leaves it as it is. -/
def Sys2Proof.Stated.BundleWaits : Prop :=
  ∀ (s : State),
    let c := me s
    let here := tileOf s.cur
    let counter (off : Nat) : Nat := natLE (visRead s (keyScratch here off) 8)
    let left (off ph : Nat) (b0 : Bool) : Prop :=
      if b0 then barRead s here off % 2 ≠ ph % 2 else barRead s here off % 16 ≠ ph % 16
    c.loops = [] → c.fail = [] → c.saveDue = false → c.resume = none →
    (∀ (h : Head) (st : Stage), h.chain = false → st.guardAt = none → st.pend = none → st.trap = none → st.xfer = none →
      st.loopOpen = none → st.link = none → st.cregs = [] → c.waiting = .none →
      let t := after s h st
      let c' := t.ctx s.cur
      let waits (w : Waiting) (rest : List Act) : Prop :=
        c'.st = .wait ∧ c'.waiting = w ∧ c'.stage = some { st with next := s.after, acts := rest } ∧ c'.pc = c.pc ∧
          c'.n = c.n ∧ t.mem = s.mem
      let released (new : List Effect) : Prop :=
        c'.held = [] ∧ c'.groups = c.groups ++ [⟨c.group, c.held ++ new, false, false⟩] ∧ c'.status.getLsbD 13 = true ∧
          ∀ k, k < 64 → k ≠ 13 → c'.status.getLsbD k = c.status.getLsbD k
      (∀ scope xp, st.acts = [.fence scope xp] → waits (.fence scope xp) [.fenceWait scope xp] ∧ released []) ∧
      (∀ e slot wr, st.acts = [.blocking e slot wr] → (c.held.map Effect.size).sum + e.size ≤ 4096 →
        waits (.reply s.cycle) [.awaitReply slot wr] ∧ released [{ e with tag := tagOf s here c.asid }]) ∧
      (∀ off slot wr, st.acts = [.join off slot wr] →
        (counter off % 2 ^ 32 = 0 → Completed s s.cur s.after (st.fill slot wr (BitVec.ofNat 64 (counter off))) t) ∧
        (counter off % 2 ^ 32 ≠ 0 → c'.st = .wait ∧ c'.waiting = .join off ∧
          c'.stage = some { st with next := s.after, acts := [.join off slot wr] })) ∧
      (∀ off ph b0 slot wr, st.acts = [.barrier off ph b0 slot wr] →
        (left off ph b0 → Completed s s.cur s.after (st.fill slot wr (barStatus (barRead s here off))) t) ∧
        (¬ left off ph b0 → c'.st = .wait ∧ c'.waiting = .barrier off ph b0 ∧
          c'.stage = some { st with next := s.after, acts := [.barrier off ph b0 slot wr] }))) ∧
    (∀ st : Stage, c.st = .wait → c.stage = some st → st.xfer = none → st.loopOpen = none → st.link = none → st.cregs = [] →
      let ends (st' : Stage) : Prop := ∃ t, issueCtx s s.cur = .done t ∧ Completed s s.cur st.next st' t
      let stays : Prop := ∃ t, issueCtx s s.cur = .done t ∧ t.mem = s.mem ∧
        (t.ctx s.cur).st = .wait ∧ (t.ctx s.cur).waiting = c.waiting ∧ (t.ctx s.cur).stage = c.stage
      (∀ scope xp, c.waiting = .fence scope xp → st.acts = [.fenceWait scope xp] →
        (Fenced s s.cur scope xp → ends st) ∧ (¬ Fenced s s.cur scope xp → stays)) ∧
      (∀ since slot wr, c.waiting = .reply since → st.acts = [.awaitReply slot wr] → stays) ∧
      (∀ off slot wr, c.waiting = .join off → st.acts = [.join off slot wr] →
        poisoned s (keyScratch here off) 8 = false →
        (counter off % 2 ^ 32 = 0 → ends (st.fill slot wr (BitVec.ofNat 64 (counter off)))) ∧
        (counter off % 2 ^ 32 ≠ 0 → stays)) ∧
      (∀ off ph b0 slot wr, c.waiting = .barrier off ph b0 → st.acts = [.barrier off ph b0 slot wr] →
        poisoned s (keyScratch here off) 16 = false →
        (left off ph b0 → ends (st.fill slot wr (barStatus (barRead s here off)))) ∧
        (¬ left off ph b0 → stays)))

/-- The frame of the register-only integer, predicate and floating-point instructions: an unchained head
that is a bundle of its own answers a next state, in which nothing but the result queue, the destination, one predicate,
the sticky flags, the popped streams and the PC changes. -/
def Obligations.RegisterOnlyFrame : Prop :=
  ∀ (s : State) (h : Head) (t : Tail) (i : Instr) (cl : LitClass) (a b c : Word) (st : Stage),
    (cl = .int (tailSigned t) ∧ i ∈ intInstrs h t) ∨ (cl = .fp ∧ i ∈ fpInstrs h t) →
    Issues s h → Reads cl s t a b c st → h.chain = false → (me s).stage = none → (me s).loops = [] →
    (me s).waiting = .none → (me s).resume = none →
    ∃ s', exec i s = .next s' ∧
      let x := me s
      let x' := s'.ctx s.cur
      (∀ r : Fin 32, (∀ d, tailD t = some d → d.toNat ≠ r.val) → x'.n[r] = x.n[r]) ∧
      (∀ k, k < 8 → k ≠ tailM t / 32 → x'.p.getLsbD k = x.p.getLsbD k) ∧
      (∀ k, 5 ≤ k → k < 64 → x'.fpctl.getLsbD k = x.fpctl.getLsbD k) ∧
      (cl ≠ .fp → x'.fpctl = x.fpctl) ∧
      x'.v = x.v ∧ x'.vshape = x.vshape ∧ x'.status = x.status ∧ x'.trapvec = x.trapvec ∧ x'.cap = x.cap ∧
      x'.pri = x.pri ∧ x'.saveptr = x.saveptr ∧ x'.lc = x.lc ∧ x'.k = x.k ∧ x'.held = x.held ∧
      x'.groups = x.groups ∧ (∀ g, g ≠ s.cur → s'.ctx g = s.ctx g) ∧
      (∀ k n, visRead s' k n = visRead s k n) ∧ s'.mem = s.mem

/-- R135-R137, R177, R7: what a write leaves in each control register. -/
def Sys2Proof.Stated.ControlRegisterWrites : Prop :=
  ∀ (c : Ctx) (v : Word),
    (c.writeCreg 1 v).trapvec = (v.extractLsb' 0 48).setWidth 64 ∧
    (∀ k, k < 64 → (c.writeCreg 2 v).fpctl.getLsbD k =
      if k < 5 then c.fpctl.getLsbD k && !v.getLsbD k else decide (k = 8) && v.getLsbD 8) ∧
    (c.writeCreg 3 v).cap = (v.extractLsb' 0 16).setWidth 64 ∧
    ((c.writeCreg 4 v).pri.extractLsb' 0 2 = v.extractLsb' 0 2) ∧
    (c.inherited < 4 → ((c.writeCreg 4 v).pri.extractLsb' 2 2).toNat = max (v.toNat % 4) c.inherited) ∧
    (c.writeCreg 5 v).saveptr = (v.extractLsb' 14 34).setWidth 64 <<< 14 ∧
    c.writeCreg 0 v = c ∧ (∀ i, 5 < i → c.writeCreg i v = c) ∧
    (∀ i, let d := c.writeCreg i v
      d.status = c.status ∧ d.n = c.n ∧ d.q = c.q ∧ d.p = c.p ∧ d.pc = c.pc ∧
      (i ≠ 1 → d.trapvec = c.trapvec) ∧ (i ≠ 2 → d.fpctl = c.fpctl) ∧ (i ≠ 3 → d.cap = c.cap) ∧
      (i ≠ 4 → d.pri = c.pri) ∧ (i ≠ 5 → d.saveptr = c.saveptr))

/-- R167: after a bundle completes without a taken transfer, the innermost level repeats or closes when
the sequential next address is its exit, and otherwise the PC moves on. -/
def Obligations.LoopBack : Prop :=
  ∀ (s : State) (h : Head) (st : Stage), h.chain = false → Clean s st → st.acts = [] → st.xfer = none → st.loopOpen = none →
    st.cregs = [] →
    let c := me s
    let c' := (after s h st).ctx s.cur
    (c.innermost = none → c'.pc = s.after ∧ c'.loops = c.loops ∧ c'.lc = c.lc) ∧
    (∀ j l, c.innermost = some (j, l) → j < 3 →
      let n := (c.lc.toList.getD j 0).toNat
      let inside := l.start ≤ st.bpc ∧ st.bpc < l.exit
      (inside → s.after = l.exit → 1 < n → c'.pc = l.start ∧ c'.loops = c.loops ∧
        (c'.lc.toList.getD j 0).toNat = n - 1) ∧
      (inside → s.after = l.exit → n ≤ 1 → c'.pc = s.after ∧ c'.loops = c.loops.dropLast ∧
        (c'.lc.toList.getD j 0).toNat = 0) ∧
      (¬ inside ∨ s.after ≠ l.exit → c'.pc = s.after ∧ c'.loops = c.loops ∧ c'.lc = c.lc))

/-! ### Effects, ends and traps -/

/-- R36: a load sees the newest of the context's own stores over each byte, and memory elsewhere. -/
def Sys2Proof.Stated.Forwarding : Prop :=
  ∀ (ws : List (Nat × List Byte)) (k n : Nat) (mem : List Byte) (i : Nat), mem.length = n → i < n →
    (forward ws k mem).length = n ∧
    ((∀ w ∈ ws, k + i < w.1 ∨ w.1 + w.2.length ≤ k + i) → (forward ws k mem)[i]? = mem[i]?) ∧
    (∀ pre w post, ws = pre ++ w :: post → w.1 ≤ k + i → k + i < w.1 + w.2.length →
      (∀ x ∈ post, k + i < x.1 ∨ x.1 + x.2.length ≤ k + i) → (forward ws k mem)[i]? = w.2[k + i - w.1]?)

/-- R36-R39: the size of an entry, its header, and the implicit commit of a full buffer. -/
def Sys2Proof.Stated.EffectsBuffer : Prop :=
  ∀ (s : State) (g : Nat) (e : Effect),
    let c := s.ctx g
    e.size = 16 + (e.data.length + 15) / 16 * 16 ∧
    (let hd := e.header
     hd.length = 16 ∧ natAt hd 0 1 = e.opc % 256 ∧ natAt hd 1 1 = e.modf % 256 ∧
     natAt hd 2 2 = e.data.length % 65536 ∧ natAt hd 4 2 = e.ctl % 65536 ∧ natAt hd 6 2 = e.part % 65536 ∧
     natAt hd 8 8 = e.addr.toNat) ∧
    ((c.held.map Effect.size).sum + e.size ≤ 4096 → holdEffects s g [e] =
      .next (s.modCtx g (fun c => { c with held := c.held ++ [e] }))) ∧
    (4096 < (c.held.map Effect.size).sum + e.size → holdEffects s g [e] =
      .wait (release s g false) .buffer [.effects [e]]) ∧
    (∀ final, let d := (release s g final).ctx g
      d.held = [] ∧ d.groups = c.groups ++ [⟨c.group, c.held, false, final⟩] ∧
      (final = false → d.status.getLsbD 13 = true) ∧ (final = true → d.status = c.status) ∧
      ∀ k, k < 64 → k ≠ 13 → d.status.getLsbD k = c.status.getLsbD k)

/-- R32, R163: RET to zero ends the activation: everything held is the final group and the context is
RELEASING. -/
def Sys2Proof.Stated.NormalEnd : Prop :=
  ∀ (s : State) (h : Head) (t : Tail) (b c : Word) (st : Stage),
    Issues s h → Reads (.int false) s t 0 b c st → h.chain = false → (me s).stage = none →
    (me s).twin = none → (me s).faulted = none → (me s).guard = none → (me s).saveDue = false →
    (me s).waiting = .none → (me s).resume = none →
    ∃ s', exec (.ret h t) s = .next s' ∧
      (s'.ctx s.cur).st = .releasing ∧ (s'.ctx s.cur).held = [] ∧ (s'.ctx s.cur).loops = [] ∧
      (s'.ctx s.cur).groups = (me s).groups ++ [⟨(me s).group, (me s).held, false, true⟩] ∧
      (∀ g, g ≠ s.cur → s'.ctx g = s.ctx g) ∧ s'.mem = s.mem

/-- R406, R407, R96: taking a trap in user mode writes the 64-byte trap record at CTX_SAVEPTR, sets SYS
and continues at CTX_TRAPVEC; every other register of the context, every other context and every other
byte of memory is unchanged. A precise fault discards its bundle and takes its trap so. -/
def Sys2Proof.Stated.TrapEntry : Prop :=
  ∀ (s : State) (g : Nat) (i : TrapInfo) (l : Loc),
    let c := s.ctx g
    let vec := c.trapvec.toNat % 2 ^ 48
    let t := takeTrap s g i
    let c' := t.ctx g
    let w := engineWalk s (tileOf g) c.asid c.saveptr.toNat
    (∀ (st : Stage) (f : HeadFault), f.cause ≠ .stackGrow → f.cause ≠ .page → f.cause ≠ .remoteVault →
      faultHead s g st f = takeTrap (s.modCtx g (fun c => { c with stage := none, resume := none })) g (f.info st)) ∧
    (i.pte = none → c.status.getLsbD 15 = false → tileOf g < 1024 → trapWaits s g = false →
      locate w g .plain c.saveptr.toNat 64 64 true = .ok l →
      staleAt w l.home (tagOf w (tileOf g) c.asid) = false → guarded w l.key 64 = false →
      (checkTarget (trapped w g i l) g vec = .ok ∨ checkTarget (trapped w g i l) g vec = .stall) →
      c'.pc = vec ∧ c'.st = .run ∧ c'.stage = none ∧ c'.status = c.status ||| BitVec.twoPow 64 15 ∧
      visRead t l.key 64 = trapRecord i c.status s.cycle ∧
      (∀ k, (k < l.key ∨ l.key + 64 ≤ k) → visRead t k 1 = visRead s k 1) ∧
      c'.n = c.n ∧ c'.q = c.q ∧ c'.p = c.p ∧ c'.v = c.v ∧ c'.vshape = c.vshape ∧ c'.lc = c.lc ∧
      c'.loops = c.loops ∧ c'.streams = c.streams ∧ c'.trapvec = c.trapvec ∧ c'.fpctl = c.fpctl ∧
      c'.cap = c.cap ∧ c'.pri = c.pri ∧ c'.saveptr = c.saveptr ∧ c'.held = c.held ∧ c'.groups = c.groups ∧
      (∀ x, x ≠ g → t.ctx x = s.ctx x) ∧ t.mgmt = w.mgmt) ∧
    (i.pte = none → c.status.getLsbD 15 = false → trapWaits s g = true →
      c'.trapDue = some i ∧ c'.st = .run ∧ c'.stage = none ∧ c'.status = c.status ∧ c'.pc = c.pc ∧ t.mem = s.mem)

/-- R407: the fields of the trap record. -/
def Sys2Proof.Stated.TrapRecordFields : Prop :=
  ∀ (i : TrapInfo) (status : Word) (cycle : Nat),
    let r := trapRecord i status cycle
    r.length = 64 ∧ natAt r 0 2 = i.cause.code ∧ natAt r 2 1 = i.fhead % 32 ∧
    (natAt r 3 1).testBit 0 = i.addr.isSome ∧ (natAt r 3 1).testBit 1 = i.target ∧
    (natAt r 3 1).testBit 2 = i.imprecise ∧ (natAt r 3 1).testBit 3 = i.reply ∧
    natAt r 4 4 = i.count % 2 ^ 32 ∧ natAt r 8 8 = i.bpc % 2 ^ 64 ∧ natAt r 16 8 = i.rpc % 2 ^ 64 ∧
    natAt r 24 8 = i.addr.getD 0 % 2 ^ 64 ∧ natAt r 32 8 = i.code % 2 ^ 64 ∧ natAt r 40 8 = status.toNat ∧
    natAt r 48 8 = cycle % 2 ^ 64 ∧ natAt r 56 8 = 0

/-- R409, R413, R42, R297: a fault in system mode ends the context: it is FREE, its kill report waits for the
error log, or for what it has forwarded to be performed, and its launch has failed. -/
def Sys2Proof.Stated.NestedFaults : Prop :=
  ∀ (s : State) (g : Nat) (st : Stage) (f : HeadFault),
    let c := s.ctx g
    let dropped := c.held.length + (c.groups.map (fun x => x.effects.length)).sum
    let report := logEntry 1 f.cause.code (tileOf g) (g % 16)
      (2 * (c.status.toNat / 2 ^ 13 % 2) + 4 + 8 * (c.status.toNat / 2 ^ 12 % 2) + 16 * (c.status.toNat / 2 ^ 11 % 2))
      c.lslot c.fwd dropped c.lost st.bpc (f.addr.getD 0) f.code s.cycle
    f.cause ≠ .stackGrow → f.cause ≠ .page → f.cause ≠ .remoteVault → f.pte = none → c.status.getLsbD 15 = true → c.twin = none → c.guard = none →
    let t := faultHead s g st f
    (t.ctx g).st = .free ∧ (t.ctx g).held = [] ∧
    (actFlying s c.act = false → t.mgmt.logWait = s.mgmt.logWait ++ [report]) ∧
    (actFlying s c.act = true → t.mgmt.kills = s.mgmt.kills ++ [(c.act, report)]) ∧
    (∀ l, s.launch c.lslot = some l → t.launch c.lslot = some { l with failed := true }) ∧
    (∀ x, x ≠ g → t.ctx x = s.ctx x) ∧ t.mem = s.mem

/-- R110, R91, R109: a reserved opcode faults with ILLEGAL_OPCODE, whether or not its guard holds. -/
def Sys2Proof.Stated.ReservedOpcodes : Prop :=
  ∀ (s : State) (h : Head) (opc : BitVec 8) (tlen : BitVec 2) (d : Bool) (raw : BitVec 48), (me s).st = .run →
    exec (.illegalOpcode h opc tlen d raw) s = .next (faulting s h ⟨.illegalOpcode, none, false, 0, none⟩)

/-! ### Encoding, step and memory -/

/-- R29, R86, R87, R88, R108: when a turn is given to a context from which its processor issues, the line at
its PC, which it holds or fetches, is valid and its head decodes, the step is that instruction, with the address
after its bundle. Around it the step marks who issued last on the processor, what the fetch leaves behind (a walk,
LAST of a vault page, or the touch of a guarded line), and the line that the context holds.
That turns come from an agenda and that a step is one head is the model's choice (DESIGN CHOICE, logs 1
and 17); how long a line is held: DEDUCED, log 43. -/
def Obligations.StepRunsDecoded : Prop :=
  ∀ (s : State) (g : Nat) (r : List Turn) (b : List Byte) (i : Instr),
    let u := { tick s with agenda := r }
    let v := noteIssue { u with cur := g } g
    let c := u.ctx g
    let n := c.pc % 64 / 2
    let H := natAt b 0 2 / 2048
    let last := bundleLast b 3 n
    s.mgmt.power ≠ .removed → (me s).stage = none → s.agenda = .ctx g :: r →
    c.st = .run → c.stage = none → c.trapDue = none → pickCtx u g = some g →
    lineNow v g c.pc = .line b → lineValid b = true → c.pc % 2 = 0 → n ≠ 0 → n ≤ H →
    isBundleStart b n = true → last ≤ H → decodeLineHead b n = .ok i →
    step s = exec i { holdLine v g c.pc b with
      cur := g
      after := if last < H then c.pc / 64 * 64 + 2 * last + 2 else c.pc / 64 * 64 + 66 }

/-- Decoding undoes encoding: every well-formed instruction that has an encoding is read back from it,
with every operand, guard and modifier. -/
def Obligations.DecodeEncode : Prop :=
  ∀ (i : Instr) (head : BitVec 16) (tail : BitVec 48), i.wf = true → encode i = some (head, tail) →
    decodeHead head tail = .ok i

/-- Memory keeps its canonical form at every step.
That an unlisted byte reads as zero is the model's choice (DESIGN CHOICE, log 2). -/
def Obligations.MemoryStaysCanonical : Prop :=
  ∀ (s s' : State), s.MemOk → step s = .next s' → s'.MemOk

/-- R28, R132, R248, R253, R373, R396, R426: the machine after reset.
Where the spec gives no value the model chose it (DESIGN CHOICE, logs 3 and 5). -/
def Obligations.ResetState : Prop :=
  let s := State.reset
  s.MemOk ∧ s.cycle = 0 ∧ s.mgmt.power = .boot ∧ (∀ g, (s.ctx g).st = .free) ∧
  (∀ g k, (s.ctx g).p.getLsbD k = decide (k = 0)) ∧ (∀ t, (s.tile t).evc = List.replicate 8 0) ∧
  (∀ t, (s.tile t).thermal = .normal) ∧ (∀ t, (s.tile t).guardBits = []) ∧
  (∀ t, (s.tile t).matrix.unit = MatUnit.clear) ∧
  (∀ t p, remapOf (s.tile t) p = ⟨0, false, true, p / 1024, p % 1024⟩) ∧ s.mgmt.log = [] ∧ s.pkts = []

/-! ### Homes and their units -/

/-- R280, R284, R292, R443, R267, R282, R256, R294: stores, atomics and guard bits at their home, and
what reads see of them. That a store too long for one packet is performed whole when both its packets have come
is the model's choice (DESIGN CHOICE, log 9). -/
def Obligations.HomeStores : Prop :=
  (∀ (s : State) (k : Nat) (bs : List Byte) (a : Nat), k < 2 ^ 60 → bs ≠ [] →
    let t := performStore s k bs a
    t.mem = s.mem ∧
    ((∀ j, j < bs.length → homeTile (k + j) = homeTile k) → ∀ j, j < bs.length → visRead t (k + j) 1 = bs[j]?.toList) ∧
    (∀ x, (x < k ∨ k + bs.length ≤ x) → visRead t x 1 = visRead s x 1)) ∧
  (∀ (s : State) (k : Nat) (bs : List Byte) (a : Nat), k < 2 ^ 60 → bs ≠ [] → s.MemOk →
    let t := arrayStore s k bs a
    (t.tile (homeTile k)).merge = [] ∧ memRead t.mem k bs.length = bs) ∧
  (∀ (s : State) (id : Nat) (p : Packet), let home := s.ev.who
    item s home s.ev.idx = some (id, p) →
    (∀ k ea bs tag, p.work = .store k ea bs tag false → stalledOver s k bs.length = false →
      (staleAt s home tag = true → exec .storePerform s = .next (finish s id (some (2, 0)))) ∧
      (staleAt s home tag = false → pageOff s k = true → exec .storePerform s = .next (finish s id (some (1, 0)))) ∧
      (staleAt s home tag = false → pageOff s k = false → guarded s k bs.length = true →
        exec .storePerform s = .next (finish (touchAct s p.owner.actOf ea (keyOff k)) id none)) ∧
      (staleAt s home tag = false → pageOff s k = false → guarded s k bs.length = false →
        exec .storePerform s = .next (finish (performStore s k bs p.owner.actOf) id none))) ∧
    (∀ k ea bs tag, p.work = .store k ea bs tag true →
      (restOf s home id p = none → exec .storePerform s = .next s) ∧
      (∀ id2 b2, restOf s home id p = some (id2, b2) → stalledOver s k (bs ++ b2).length = false →
        staleAt s home tag = false → pageOff s k = false → guarded s k (bs ++ b2).length = false →
        exec .storePerform s =
          .next (finish (finish (performStore s k (bs ++ b2) p.owner.actOf) id none) id2 none))) ∧
    (∀ k bs tag, p.work = .engWrite k bs tag → stalledOver s k bs.length = false → staleAt s home tag = false →
      pageOff s k = false → guarded s k bs.length = false → k < 2 ^ 60 → p.poison = false →
      exec .storePerform s = .next (finish (engWrite s k bs) id none)) ∧
    (∀ k op w sg b c tag ctx act, p.work = .atomic k op w sg b c tag ctx act → stalled s k = false →
      staleAt s home tag = false → pageOff s k = false → guarded s k w = false → injRead s k = false →
      poisoned s k w = false →
      let old := visRead s k w
      let new := bytesLE w (atomicNew op (8 * w) sg (natLE old) b.toNat c.toNat)
      exec .localAtomicPerform s = .next (sendWork (finish (performStore s k new act) id none) home p.src .none
        p.lslot (.reply ⟨atomicReq op w k p.src ctx act, 0, 1, 0, [], [], oldValue sg w old, true, false⟩))) ∧
    (∀ set gr, p.work = .guardBits set gr → pktStale s p = true →
      exec .guardBitsPerform s = .next (rejectStale s id p)) ∧
    (∀ set gr, p.work = .guardBits set gr → pktStale s p = false → storeWf false (s.tile home).guardBits = true →
      ∃ t, exec .guardBitsPerform s = .next t ∧ t.mem = s.mem ∧
      ∀ i, storeGet false (t.tile home).guardBits i =
        if i ∈ gr then set else storeGet false (s.tile home).guardBits i)) ∧
  (∀ (s : State) (e : Merge) (r : List Merge), let home := s.ev.who
    (s.tile home).merge = e :: r → (∀ j, j < e.bytes.length → homeTile (e.key + j) = home) → s.MemOk →
    ∃ t, exec .writeMergeDrain s = .next t ∧ (t.tile home).merge = r ∧ t.mem = memWrite s.mem e.key e.bytes ∧
      ∀ k, visRead t k 1 = visRead s k 1)

/-- R301, R311-R313: messages, join counters and deques at their home. -/
def Sys2Proof.Stated.QueueHomes : Prop :=
  (∀ (s : State) (id : Nat) (p : Packet), let home := s.ev.who
    item s home s.ev.idx = some (id, p) → pktStale s p = false → (s.tile home).redeliver = [] →
    (∀ m, p.work = .msg m →
      (hasHandler s m = false →
        exec .messageArrival s = .next (finish (logAt s 3 0 home m.lslot p.src m.cls) id none)) ∧
      (hasHandler s m = true → (s.tile home).arrival.length < 256 → ∃ t, exec .messageArrival s = .next t ∧
        (t.tile home).arrival = (s.tile home).arrival ++
          [{ m with pri := classPri s m.cls, eff := classPri s m.cls, time := s.cycle, passes := 0 }])) ∧
    (∀ off tr tgt, p.work = .joinAdd off tr tgt → off + 8 ≤ Config.tableArea → guarded s (keyScratch home off) 8 = false →
      injRead s (keyScratch home off) = false →
      poisoned s (keyScratch home off) 8 = false →
      let w := natLE (visRead s (keyScratch home off) 8)
      exec .joinCountAdd s = .next (finish (performStore s (keyScratch home off)
        (bytesLE 8 ((w % 2 ^ 32 + 1) % 2 ^ 32 + 2 ^ 32 * (w / 2 ^ 32 % 2))) 0) id none)) ∧
    (∀ tr, p.work = .task tr → (s.tile home).pushWait = [] →
      ((s.tile home).deques.getD tr.eff []).length < 256 + 4096 →
      exec .dequePush s = .next (finish (inherit (s.modTile home (fun x => pushRecord x tr s.cycle))) id none))) ∧
  (∀ (s : State) (tr : Trigger) (id : Nat) (w : List (Trigger × Nat)), let t := s.ev.who
    (s.tile t).redeliver = [] → (s.tile t).pushWait = (tr, id) :: w → ((s.tile t).deques.getD tr.eff []).length < 256 + 4096 →
    exec .dequePush s = .next (finish (inherit (s.modTile t (fun x => { pushRecord x tr s.cycle with
      pushWait := x.pushWait.filter (fun e => e.2 != id) }))) id none)) ∧
  (∀ (s : State) (tr : Trigger) (w : List Trigger), let t := s.ev.who
    (s.tile t).redeliver = tr :: w → backRoom (s.tile t) tr = true →
    let back := .next (s.setTile t { putBack (s.tile t) tr with redeliver := w })
    (tr.kind = .msg → exec .messageArrival s = back) ∧
    (tr.kind = .task → exec .dequePush s = .next (inherit (s.setTile t { putBack (s.tile t) tr with redeliver := w }))))

/-- R52: a codelet's dependence counter at its home, the order of its DECZs, and the ready ring. -/
def Obligations.Codelets : Prop :=
  (∀ (s : State) (id i : Nat) (p q : Packet) (off l1 l2 : Nat) (b1 b2 : Option Bar), let home := s.ev.who
    item s home s.ev.idx = some (id, p) → p.work = .decz off l1 b1 → i < s.ev.idx →
    (inboxAt s home)[i]?.map (fun e => e.2) = some q → q.work = .decz off l2 b2 → exec .deczPerform s = .next s) ∧
  (∀ (s : State) (id : Nat) (p : Packet), let home := s.ev.who
    item s home s.ev.idx = some (id, p) → pktStale s p = false →
    (∀ off lslot bar, p.work = .decz off lslot bar → deczBefore s home off s.ev.idx = false → off + 48 ≤ Config.tableArea →
      guarded s (keyScratch home off) 4 = false → injRead s (keyScratch home off) = false → poisoned s (keyScratch home off) 4 = false →
      let n := natLE (visRead s (keyScratch home off) 4)
      let s2 := performStore s (keyScratch home off) (bytesLE 4 (n - 1)) 0
      (n = 0 → exec .deczPerform s = .next (sendArrival (finish s id none) home lslot bar true 1 0)) ∧
      (1 < n → exec .deczPerform s = .next (sendArrival (finish s2 id none) home lslot bar false 0 0)) ∧
      (n = 1 → (s.tile home).ready.length < 512 → exec .deczPerform s = .next (sendArrival (finish
        (s2.modTile home (fun x => { x with ready := x.ready ++ [(off / 16, lslot)] })) id none) home lslot bar false 0 0)))) ∧
  (∀ (s : State) (blk lslot : Nat) (r : List (Nat × Nat)), let t := s.ev.who
    let k := keyScratch t (16 * blk + 16)
    (s.tile t).ready = (blk, lslot) :: r → injRead s k = false → poisoned s k 32 = false →
    let tr := cardTrigger (visRead s k 32) lslot
    (∀ home off, tr.join = some (home, off) → exec .readyRingConvert s = .next (sendWork
      (s.modTile t (fun x => { x with ready := r })) t home .none lslot (.joinAdd off tr t))) ∧
    (tr.join = none → ((s.tile t).deques.getD tr.eff []).length < 256 + 4096 → exec .readyRingConvert s =
      .next (inherit (s.modTile t (fun x => { pushRecord x tr s.cycle with ready := r })))))

/-- R397, R398, R401: the fields of a barrier, its updates and the completion of a phase. -/
def Sys2Proof.Stated.BarrierUnit : Prop :=
  (∀ v : BarVal, v.phase < 16 → v.arr < 2 ^ 20 → v.sect < 2 ^ 32 → v.load < 2 ^ 20 → v.code < 8 → v.aband < 2 ^ 24 →
    barVal (barBits v) = v ∧ barBits v < 2 ^ 104) ∧
  (∀ (v : BarVal) (n : Nat) (flt : Bool) (cls ab : Nat),
    let w := v.report flt cls ab
    let done := v.arr = n ∧ v.sect = 0
    (v.arr < n → v.arrival n flt cls ab = ({ v with flt := true, code := (if v.code = 0 then 1 else v.code) }, false)) ∧
    (n ≤ v.arr → done → v.arrival n flt cls ab = ({ w with phase := (v.phase + 1) % 16, arr := v.load }, true)) ∧
    (n ≤ v.arr → ¬ done → v.arrival n flt cls ab = ({ w with arr := v.arr - n }, false)) ∧
    (flt = false → w = v) ∧
    (flt = true → w.phase = v.phase ∧ w.arr = v.arr ∧ w.sect = v.sect ∧ w.load = v.load ∧ w.flt = true ∧
      w.code = (if v.code = 0 then cls else v.code) ∧ w.aband = min (v.aband + ab) (2 ^ 24 - 1)) ∧
    (v.sect < 2 ^ 32 → n ≤ v.sect → let d := v.arr = 0 ∧ v.sect = n
      (d → v.sectors (-n) flt cls ab = ({ w with sect := 0, phase := (v.phase + 1) % 16, arr := v.load }, true)) ∧
      (¬ d → v.sectors (-n) flt cls ab = ({ w with sect := v.sect - n }, false))) ∧
    v.init n = { phase := v.phase, arr := n, sect := 0, load := n, flt := false, code := 0, aband := 0 }) ∧
  (∀ (s : State) (id : Nat) (p : Packet) (off : Nat), let home := s.ev.who
    let k := keyScratch home off
    item s home s.ev.idx = some (id, p) → pktStale s p = false → off + 16 ≤ Config.tableArea → guarded s k 16 = false →
    injRead s k = false → poisoned s k 16 = false →
    let v := barVal (natLE (visRead s k 16))
    let puts (i : Instr) (r : BarVal × Bool) : Prop :=
      let s2 := performStore s k (bytesLE 16 (barBits r.1)) 0
      exec i s = .next (finish (if r.2 then s2.modTile home (fun x => notifyOut x off) else s2) id none)
    (∀ n flt cls ab, p.work = .arrival off n flt cls ab → puts .barrierArrival (v.arrival n flt cls ab)) ∧
    (∀ n flt cls ab, p.work = .sectors off n flt cls ab → puts .sectorCompletion (v.sectors (-n) flt cls ab)) ∧
    (∀ n, p.work = .tbinit off n → puts .tbinitPerform (v.init n, false)) ∧
    (∀ n, p.work = .tbexp off n → puts .tbexpPerform (v.sectors ((n + 31) / 32 : Nat) false 0 0)))

/-- R304-R308, R325, R326, R256: byte rings and launch queues at their writers.
When a held or abandoned put or record is acknowledged: DEDUCED, log 20. -/
def Obligations.RingsAndLaunchQueues : Prop :=
  (∀ (s : State) (p : Put) (r : Rcb), let t := s.ev.who
    let k := keyScratch t p.rcb
    p.rcb + 32 ≤ Config.tableArea → guarded s k 32 = false → injRead s k = false → poisoned s k 32 = false →
    rcbOf (visRead s k 32) = some r →
    let sz := (4 + p.hdr % 65536 + 7) / 8 * 8
    let o := r.pi % r.size
    let pad := if r.size < o + sz then r.size - o else 0
    let used := (r.pi + 2 ^ 64 - r.ci) % 2 ^ 64
    (r.size < used + pad + sz → ringPut s t p = .hold) ∧
    (used + pad + sz ≤ r.size → (pad = 0 ∨ guarded s (keyScratch t (r.base + o)) 4 = false) →
      guarded s (keyScratch t (r.base + (r.pi + pad) % r.size)) sz = false →
      let s2 := if pad = 0 then s else performStore s (keyScratch t (r.base + o)) (bytesLE 4 (pad - 4)) 0
      let s3 := performStore s2 (keyScratch t (r.base + (r.pi + pad) % r.size))
        (padTo sz (bytesLE 4 p.hdr ++ p.data)) 0
      ringPut s t p = .written (performStore s3 (keyScratch t (p.rcb + 8)) (bytesLE 8 (r.pi + pad + sz)) 0))) ∧
  (∀ (s : State) (id : Nat) (p : Packet) (u : Put) (s1 : State), let t := s.ev.who
    item s t s.ev.idx = some (id, p) → pktStale s p = false → p.work = .ringPut u →
    (∀ x ∈ (s.tile t).puts, x.rcb ≠ u.rcb ∧ x.pkt ≠ id) →
    (putBefore s t u.rcb s.ev.idx = true → exec .ringPutPerform s = .next s) ∧
    (putBefore s t u.rcb s.ev.idx = false → ringPut s t u = .written s1 →
      exec .ringPutPerform s = .next (sendArrival (finish s1 id none) t u.lslot u.bar false 0 0)) ∧
    (putBefore s t u.rcb s.ev.idx = false → ringPut s t u = .hold → (s.tile t).puts.length < 16 → ∃ s', exec .ringPutPerform s = .next s' ∧
      (s'.tile t).puts = (s.tile t).puts ++ [{ u with time := p.since, pkt := id }] ∧ s'.mem = s.mem)) ∧
  (∀ (s : State) (p : Put) (s1 : State), let t := s.ev.who
    (s.tile t).puts = [p] → ringPut s t p = .written s1 → exec .ringPutRetry s =
      .next ((sendArrival (finish s1 p.pkt none) t p.lslot p.bar false 0 0).modTile t (fun x => { x with puts := [] }))) ∧
  (∀ (s : State) (p : Put), let t := s.ev.who
    (s.tile t).puts[s.ev.idx]? = some p → (∀ q, s.pkt p.pkt = some q → q.place ≠ .early) →
    exec .ringPutAbandon s = .next (abandonPut (finish (s.modTile t (fun x => { x with puts := dropAt x.puts s.ev.idx })) p.pkt none) t p)) ∧
  (∀ (s : State) (q : LaunchQueue) (w : LaunchWrite) (r : List LaunchWrite), let k := s.ev.who
    s.queues[k]? = some q →
    (q.held = w :: r → stalledOver s (slotKey q q.writeIdx) 128 = false → (q.writeIdx < 64 ∨ natLE (visRead s (slotKey q q.writeIdx + 126) 1) ≠ 0) →
      exec .launchQueueWrite s = .next (finish (writeRecord s k { q with held := r } w) w.pkt none)) ∧
    (q.held[s.ev.idx]? = some w → exec .launchWriteAbandon s = .next (abandonWrite
      (finish (setQueue s k { q with held := dropAt q.held s.ev.idx }) w.pkt none) k q w))) ∧
  (∀ (s : State) (q : LaunchQueue) (w : LaunchWrite) (id i : Nat) (p : Packet), let k := s.ev.who
    s.queues[k]? = some q → q.held = [] → (recordItems s q k)[s.ev.idx]? = some (id, w, i) →
    item s q.tile i = some (id, p) → pktStale s p = false → stalledOver s (slotKey q q.writeIdx) 128 = false →
    ((q.writeIdx < 64 ∨ natLE (visRead s (slotKey q q.writeIdx + 126) 1) ≠ 0) →
      exec .launchQueueWrite s = .next (finish (writeRecord s k q w) id none)))

/-! ### The scheduler -/

/-- R29: a processor issues from its next context that can, in turn after the one that issued last. A context
with a PAUSE under way, or standing at its boundary for a save, issues nothing. -/
def Sys2Proof.Stated.RoundRobin : Prop :=
  (∀ (s : State) (g h : Nat),
    let last := (s.tile (tileOf g)).lastIssued.getD (g % 16 / 4) 0
    let can (x : Nat) : Prop := (s.ctx x).st = .run ∧ heldBack s x = false
    (pickCtx s g = some h → h / 4 = g / 4 ∧ can h ∧
      ∀ j, j < (h % 4 + 3 - last % 4) % 4 → ¬ can (g / 4 * 4 + (last + 1 + j) % 4)) ∧
    (pickCtx s g = none → ∀ j, j < 4 → ¬ can (g / 4 * 4 + j))) ∧
  (∀ (s : State) (g : Nat), (s.tile (tileOf g)).lastIssued.length = 4 →
    ((noteIssue s g).tile (tileOf g)).lastIssued.getD (g % 16 / 4) 0 = g % 4) ∧
  (∀ (s : State) (g : Nat),
    ((s.ctx g).stage = none → (s.ctx g).trapDue = none → (s.ctx g).saveDue = false →
      heldBack s g = decide (s.cycle < (s.ctx g).pause)) ∧
    ((s.ctx g).stage.isSome = true ∨ (s.ctx g).trapDue.isSome = true → heldBack s g = false))

/-- R30, R31, R43, R46, R54, R56: which trigger is dispatched, where, and the context that starts. -/
def Sys2Proof.Stated.Dispatching : Prop :=
  (∀ (s : State) (q : Queued) (tr : Trigger) (l : Launch) (g : Nat) (w : Option Nat), let t := s.ev.who
    let sl := trigSlots s t tr
    let far := farPages (s.tile t) tr.hints
    (∀ e ∈ (s.tile t).staging, ofRunning s e.1 = true → farPages (s.tile t) e.1.hints ≠ []) →
    choose s t = some (q, tr) → s.launch tr.lslot = some l → sl[s.ev.idx % sl.length]? = some (g, w) →
    (far = [] ∨ tr.staged = true →
      exec .dispatch s = .next (startTrig (s.modTile t (fun x => takeTrig x q tr)) (g, w) l tr)) ∧
    (far ≠ [] → tr.staged = false → ∃ u, exec .dispatch s = .next u ∧
      (u.tile t).staging = (dropTrig (s.tile t) q).staging ++ [({ tr with staged := true }, s.cycle, g :: w.toList)] ∧
      u.ctxs = s.ctxs ∧ u.mem = s.mem ∧
      (u.tile t).swaps = (s.tile t).swaps ++ far.map (fun p => ⟨p, none, none, false, 0⟩))) ∧
  (∀ (s : State) (tr : Trigger) (n g : Nat) (w : List Nat) (pre post : List (Trigger × Nat × List Nat)) (l : Launch),
    let t := s.ev.who
    (s.tile t).staging = pre ++ (tr, n, g :: w) :: post → s.launch tr.lslot = some l → l.state = .running →
    let starts : State :=
      startTrig (s.modTile t (fun x => takeTrig x (.staged pre.length) tr)) (g, w.head?) l tr
    ((∀ e ∈ pre, ofRunning s e.1 = true → farPages (s.tile t) e.1.hints ≠ []) → farPages (s.tile t) tr.hints = [] →
      exec .dispatch s = .next starts) ∧
    ((∀ e ∈ pre, ofRunning s e.1 = false) → exec .stageWaitExpire s = .next starts)) ∧
  (∀ (s : State) (t : Nat) (q : Queued) (tr : Trigger), choose s t = some (q, tr) →
    (∀ e ∈ readyAll (s.tile t), e.2.passes < 64) → (∀ e ∈ (s.tile t).staging, e.1.passes < 64) →
    trigSlots s t tr ≠ [] ∧ (q, tr) ∈ readyAll (s.tile t) ∧
    ∀ e ∈ takeable (s.tile t) (readyAll (s.tile t)), trigSlots s t e.2 ≠ [] →
      e.2.eff ≤ tr.eff ∧ (e.2.eff = tr.eff → tr.time ≤ e.2.time)) ∧
  (∀ (s : State) (l : Launch) (tr : Trigger) (g : Nat) (w : Option Nat), w ≠ some g →
    let u := startTrig s (g, w) l tr
    let c := u.ctx g
    u.nextAct = s.nextAct + 1 ∧
    c.st = .run ∧ c.stage = none ∧ c.pc = entryOf l tr ∧ c.act = s.nextAct ∧ c.trig = some tr ∧ c.twin = w ∧
    c.lslot = tr.lslot ∧ c.asid = natAt l.record 6 1 ∧ c.held = [] ∧ c.groups = [] ∧ c.group = 0 ∧
    (∀ i : Fin 32, c.n[i] =
      if i.val < 8 then BitVec.ofNat 64 (natAt tr.payload (8 * i.val) 8)
      else if i.val = 29 then BitVec.ofNat 64 c.stackTop
      else if i.val = 31 then BitVec.ofNat 64 c.frame
      else 0) ∧
    c.q = List.replicate 16 0 ∧ c.p = 1 ∧ c.v = [] ∧ c.vshape = 0 ∧ c.loops = [] ∧ c.k = l.konst ∧
    c.streams = Vector.replicate 8 Stream.idle ∧
    c.trapvec = BitVec.ofNat 64 (natAt l.record 32 8 % 2 ^ 48) ∧ c.fpctl = BitVec.ofNat 64 (natAt l.record 20 4 &&& 0x11F) ∧
    c.cap = BitVec.ofNat 64 (natAt l.record 16 4 % 2 ^ 16) ∧
    fld c.status 4 4 = g % 16 / 4 * 4 + g % 4 ∧ c.status.getLsbD 14 = w.isSome ∧ c.status.getLsbD 15 = false ∧
    c.status.getLsbD 13 = false ∧ c.status.getLsbD 12 = decide (0 < tr.redeliv) ∧ c.status.getLsbD 11 = tr.rerun ∧
    (∀ x, w = some x → (u.ctx x).st = .run ∧ (u.ctx x).twin = some g ∧ (u.ctx x).isTwin = true ∧
      (u.ctx x).pc = entryOf l tr ∧ (u.ctx x).act = s.nextAct) ∧
    (∀ y, y ≠ g → w ≠ some y → u.ctx y = s.ctx y)) ∧
  (∀ (s : State) (l : Launch) (tr : Trigger) (g : Nat), tr.payload.length ≤ 224 → tr.origin = false →
    g < 16384 → memWf s.mem = true →
    let u := startTrig s (g, none) l tr
    let k := keyScratch (tileOf g) (u.ctx g).frame
    ∀ i, i < 4096 → visRead u (k + i) 1 = [tr.payload.getD i 0])

/-- R51: a steal's request, what the victim gives, and the reply. -/
def Sys2Proof.Stated.Stealing : Prop :=
  (∀ s : State, let t := s.ev.who
    let x := s.tile t
    t < 1024 → idle s t = true → x.stealing = false → ∃ v l, victim x t s.ev.idx = (v, l) ∧
      (x.lastVictim < 56 → clusterOf v = clusterOf t ∧ v ≠ t) ∧
      exec .stealRequest s = .next { s.modTile t (fun x => { x with lastVictim := l, stealing := true }) with
        steals := s.steals ++ [.request t v] }) ∧
  (∀ (s : State) (th : Nat) (r : List StealMsg), let v := s.ev.who
    s.steals = .request th v :: r →
    (stealFrom s v th = none → exec .stealServe s = .next { s with steals := r ++ [.reply th none] }) ∧
    (∀ p j tr, stealFrom s v th = some (p, j) → ((s.tile v).deques.getD p [])[j]? = some tr →
      exec .stealServe s = .next { s.modTile v (fun x => { x with
        deques := x.deques.set p (((s.tile v).deques.getD p []).take j ++ ((s.tile v).deques.getD p []).drop (j + 1)) }) with
        steals := r ++ [.reply th (some tr)] } ∧
      tr.nosteal = false ∧ tr.rerun = false ∧ (∃ l, s.launch tr.lslot = some l ∧ inRect l.record th = true))) ∧
  (∀ (s : State) (r : List StealMsg), let t := s.ev.who
    (s.steals = .reply t none :: r →
      exec .stealReply s = .next ({ s with steals := r }.modTile t (fun x => { x with stealing := false }))) ∧
    (∀ tr, s.steals = .reply t (some tr) :: r → ((s.tile t).deques.getD tr.eff []).length < 256 + 4096 →
      exec .stealReply s = .next (inherit ({ s with steals := r }.modTile t (fun x =>
        { pushRecord x tr s.cycle with stealing := false, lastVictim := x.lastVictim % 8 }))))) ∧
  (∀ (x : Tile) (tr : Trigger) (now : Nat), x.deques.length = 4 → tr.eff < 4 →
    (pushRecord x tr now).deques[tr.eff]? = some ({ tr with time := now, passes := 0 } :: x.deques.getD tr.eff []))

/-- R40, R44, R45, R303, R311: how a release group is forwarded, and what a normal end leaves.
That the subtraction of a join counter is made at the counter's home without a packet, when no packet of the
activation is left: DEDUCED, log 50. That a record with a join counter has its SEQ when it is forwarded: DEDUCED,
log 20. -/
def Obligations.GroupsAndEnds : Prop :=
  (∀ (s : State) (gr : Group) (r : List Group), let g := s.ev.who
    (s.ctx g).groups = gr :: r → (s.ctx g).twin = none → gr.accepted = false → (s.ctx g).bufErr = false →
    exec .releaseAccept s = .next (afterForward ((forwardGroup s g gr).modCtx g (fun c => { c with groups := r })) g)) ∧
  (∀ (s : State) (gr : Group) (r : List Group) (w : Nat), let g := s.ev.who
    (s.ctx g).groups = gr :: r → (s.ctx g).twin = some w → gr.accepted = false → (s.ctx g).bufErr = false →
    let s1 := s.modCtx g (fun c => { c with groups := { gr with accepted := true } :: r })
    ((s.ctx g).st ≠ .releasing → exec .releaseAccept s = .next s1) ∧
    ((s.ctx g).st = .releasing → (s.ctx g).cont = none → r.all (·.accepted) = true → g < 16384 → w ≠ g →
      ∃ u, exec .releaseAccept s = .next u ∧ (u.ctx g).st = .free ∧ u.mem = s.mem ∧
      ∃ p, (u.ctx w).twin = some p ∧ 16384 ≤ p ∧ (p ≠ w → (u.ctx p).groups = (s1.ctx g).groups))) ∧
  (∀ (s : State) (g : Nat) (gr : Group) (id : Nat) (e : Effect) (d : Nat) (w : Work),
    gr.effects = [e] → e.parts = [(d, w)] → id = s.nextPkt →
    let u := forwardGroup s g gr
    (u.ctx g).fwd = (s.ctx g).fwd + 1 ∧ u.mem = s.mem ∧
    (∃ p, u.pkt id = some p ∧ p.src = tileOf g ∧ p.dst = d ∧ p.work = w ∧ p.owner = .act (s.ctx g).act ∧
      p.place = .source ∧ p.seq = tabGet 0 s.seqOut (pairKey (tileOf g) d)) ∧
    ((∀ off tr tgt, w ≠ .joinAdd off tr tgt) → u.nextPkt = id + 1) ∧
    (∀ off tr tgt, w = .joinAdd off tr tgt → u.nextPkt = id + 2 ∧
      ∃ p, u.pkt (id + 1) = some p ∧ p.src = tileOf g ∧ p.dst = tgt ∧ p.work = .task tr ∧ p.after = some id)) ∧
  (∀ (s : State) (g : Nat), endedAll s g = true →
    ((s.ctx g).cont ≠ none → afterForward s g = s) ∧
    ((s.ctx g).cont = none → ((afterForward s g).ctx g).st = .free ∧ ∀ w, (s.ctx g).twin = some w →
      ((afterForward s g).ctx w).st = .free)) ∧
  (∀ (s : State) (o w : Nat) (a b : Group) (ra rb : List Group),
    spanOf s s.ev.who = some (o, w) → (s.ctx o).groups = a :: ra → (s.ctx w).groups = b :: rb →
    a.accepted = true → b.accepted = true →
    (a.num = b.num → groupHash a = groupHash b → exec .spanHashCompare s =
      .next (afterForward (((forwardGroup s o a).modCtx o dropGroup).modCtx w dropGroup) o)) ∧
    (¬ (a.num = b.num ∧ groupHash a = groupHash b) → exec .spanHashCompare s = .next (spanMismatch s o))) ∧
  (∀ (s : State) (o w : Nat), spanOf s s.ev.who = some (o, w) →
    ((s.ctx o).groups.any (·.accepted) = true → (s.ctx w).groups = [] →
      exec .spanTwinTimeout s = .next (spanMismatch s o)) ∧
    ((s.ctx w).groups.any (·.accepted) = true → (s.ctx o).groups = [] →
      exec .spanTwinTimeout s = .next (spanMismatch s o)) ∧
    ((s.ctx o).ending.isSome = true → (s.ctx w).ending = none → exec .spanTwinTimeout s = .next (spanMismatch s o))) ∧
  (∀ (s : State) (g : Nat) (k : Trigger), let t := s.ev.who
    contReady s t = some (g, k) → (s.tile t).redeliver = [] → (s.tile t).conts.length < 64 → ∃ u, exec .continuationEnqueue s = .next u ∧
      (u.tile t).conts = (s.tile t).conts ++ [{ k with time := s.cycle }] ∧ (u.ctx g).st = .free) ∧
  (∀ (s : State) (t g : Nat) (k : Trigger), contReady s t = some (g, k) →
    (s.ctx g).cont = some k ∧ endedAll s g = true ∧ ∀ i, i < 16 → (s.ctx (16 * t + i)).isTwin = false →
      endedAll s (16 * t + i) = true → (s.ctx (16 * t + i)).cont ≠ none →
      (s.ctx g).endedAt ≤ (s.ctx (16 * t + i)).endedAt) ∧
  (∀ (s : State) (home off act : Nat) (flt : Bool), let t := s.ev.who
    (s.tile t).joinSubs = [(home, off, flt, act)] → off + 8 ≤ Config.tableArea →
    guarded s (keyScratch home off) 8 = false → (∀ p ∈ s.pkts, p.2.owner ≠ .act act) →
    let s1 := s.modTile t (fun x => { x with joinSubs := [] })
    let w := natLE (visRead s1 (keyScratch home off) 8)
    let n := w % 2 ^ 32
    exec .taskJoinSubtract s = .next (inherit (performStore s1 (keyScratch home off)
      (bytesLE 8 ((n - 1) + (if w.testBit 32 = true ∨ flt = true ∨ n = 0 then 2 ^ 32 else 0))) 0)))

/-- R141, R179, R404, R57, R412, R142: waits that end, kills, saves and restores of a context.
The words of an image, how far a pre-empted context runs and the places of a restore are the model's (DEDUCED,
logs 14 and 25; DESIGN CHOICE, log 10). -/
def Obligations.ContextEvents : Prop :=
  (∀ s : State, exec .pauseExpire s =
    .next (s.modCtx s.ev.who (fun c => { c with pause := min c.pause s.cycle }))) ∧
  (∀ (s : State) (a : Nat), let g := s.ev.who
    (s.ctx g).st = .wait → (s.ctx g).waiting = .stackGrow a →
    ((s.ctx g).mapped < (s.ctx g).stackPages → ∃ u, exec .stackGrowService s = .next u ∧ (u.ctx g).st = .run ∧
      (u.ctx g).mapped = (s.ctx g).mapped + 1 ∧ (u.ctx g).pc = (s.ctx g).pc ∧ (u.ctx g).n = (s.ctx g).n ∧ u.mem = s.mem) ∧
    ((s.ctx g).stackPages ≤ (s.ctx g).mapped → exec .stackGrowService s =
      .next (endFault s g ⟨Cause.page.code, (s.ctx g).pc, a, 0, (s.ctx g).status.getLsbD 15⟩ (s.ctx g).pc))) ∧
  (∀ s : State, let g := s.ev.who
    ((s.ctx g).st = .run ∨ (s.ctx g).st = .wait) → ∃ u, exec .preemption s = .next u ∧
      (u.ctx g).saveDue = true ∧ (∀ w, (s.ctx g).twin = some w → ((s.ctx w).st = .run ∨ (s.ctx w).st = .wait) →
        (u.ctx w).saveDue = true) ∧ u.mem = s.mem) ∧
  (∀ s : State, let g := s.ev.who
    let c := s.ctx g
    c.saveDue = true → c.groups = [] → c.trapDue = none → owesGroup s g = false → twinStill s g = true →
    saveStalled s g = false →
    ((c.st = .run ∧ c.stage = none ∧ c.tested = true) ∨ (c.st = .wait ∧
      ((∃ o, c.waiting = .join o) ∨ (∃ o p b, c.waiting = .barrier o p b) ∨ ∃ a, c.waiting = .stackGrow a))) →
    exec .contextSave s =
      .next (markSaved ((writeImage s g).modCtx g (fun c => { c with st := .saved, saveDue := false, pause := 0 })) c.lslot)) ∧
  (∀ (s : State) (g : Nat) (l : Loc) (i : Nat), let c := s.ctx g
    let s0 := engineWalk s (tileOf g) c.asid c.saveptr.toNat
    locate s0 g .plain c.saveptr.toNat 16384 16384 true = .ok l → guarded s0 l.key 16384 = false → i < 32 →
    memWf s.mem = true →
    memRead (writeImage s g).mem (l.key + 0x80 + 8 * i) 8 = bytesLE 8 (c.n.toList.getD i 0).toNat ∧
    memRead (writeImage s g).mem (l.key + 0x40) 8 = bytesLE 8 c.pc ∧
    memRead (writeImage s g).mem (l.key + 0x48) 8 = bytesLE 8 c.status.toNat) ∧
  (∀ (s : State) (l : Launch), let g := s.ev.who
    let c := s.ctx g
    let d := 16 * tileOf g + s.ev.idx % 16
    c.st = .saved → c.isTwin = false → c.twin = none → s.launch c.lslot = some l → l.state = .running →
    saveStalled s g = false → restoreWaits s c.lslot = false →
    (d = g ∨ (freeFor s d = true ∧ keeps s (tileOf g) = false)) → d < 16384 →
    exec .contextRestore s = .next (placeCtx s g d none) ∧
    ((placeCtx s g d none).ctx d).st = (if c.waiting = .none then .run else .wait) ∧
    fld ((placeCtx s g d none).ctx d).status 4 4 = d % 16) ∧
  (∀ (c : Ctx) (b : List Byte) (v : List (Nat × Byte)) (k : List (BitVec 32)) (l : List LoopLevel) (e : List Effect),
    let u := fromImage c b v k l e
    u.status &&& ~~~0xF0F8F0#64 = 0 ∧ u.fpctl &&& ~~~0x11F#64 = 0 ∧ u.pri &&& ~~~0xF#64 = 0 ∧
      u.cap &&& ~~~0xFFFF#64 = 0 ∧ u.trapvec &&& ~~~0xFFFFFFFFFFFF#64 = 0 ∧ u.p.getLsbD 0 = true) ∧
  (∀ s : State, let g := s.ev.who
    let o := s.ctx (ownerOf s g)
    let e : Ending := ⟨Cause.killed.code, o.lastBundle, 0, 0, o.status.getLsbD 15⟩
    ((s.ctx g).st = .run ∨ (s.ctx g).st = .wait ∨ (s.ctx g).st = .saved) →
      exec .contextKill s = .next (endKilled (forwardReleased s g) g e)) ∧
  (∀ (s : State) (n : Nat), let g := s.ev.who
    let o := s.ctx (ownerOf s g)
    let e : Ending := ⟨Cause.timeout.code, o.lastBundle, 0, 0, o.status.getLsbD 15⟩
    (s.ctx g).st = .wait → (s.ctx g).waiting = .reply n → exec .blockingTimeout s = .next (endKilled s g e)) ∧
  (∀ (s : State) (g : Nat) (e : Ending), (s.ctx g).twin = none → let u := endKilled s g e
    (u.ctx g).st = .free ∧ (u.ctx g).held = [] ∧ (u.ctx g).groups = [] ∧
    (∀ h, h ≠ g → u.ctx h = s.ctx h) ∧ u.mem = s.mem ∧
    (∀ t n off, (s.ctx g).trig = some t → t.join = some (n, off) →
      (n, off, true, (s.ctx g).act) ∈ (u.tile (tileOf g)).joinSubs))

/-- R53, R325-R327, R376, R394, R431, R434: gangs, launch records, lookups and the completion of a launch, for which
every effect of its activations has been performed, but for submissions, which go on without it. That a matrix
unit keeps what it holds as its launch completes is the model's reading (DEDUCED, log 91); how a record is judged:
DEDUCED, log 36. -/
def Obligations.LaunchEvents : Prop :=
  (∀ (s : State) (l : Launch), let k := s.ev.who
    s.launch k = some l → l.state = .admission → (∀ t ∈ rectTiles l, (gangOn s l t).isSome = true) →
    ∃ u, exec .gangAdmit s = .next u ∧ u.launch k = some { l with state := .running } ∧
      ∀ t ∈ rectTiles l, ∀ g ∈ (gangOn s l t).getD [], (g, k) ∈ (u.tile t).reserved) ∧
  (∀ (s : State) (q : LaunchQueue), let k := s.ev.who
    let a := slotKey q q.next
    s.queues[k]? = some q → taking s = true → stalled s a = false → pageOff s a = false → injRead s a = false → poisoned s a 128 = false →
    natLE (visRead s (a + 127) 1) = q.next % 255 + 1 →
    (∀ s2 st, judge s (visRead s a 128) (a + 126) = .refuse s2 st →
      exec .launchRecordTake s = .next (answerRecord s2 k q st)) ∧
    (∀ s2 slot l, judge s (visRead s a 128) (a + 126) = .accept s2 slot l →
      exec .launchRecordTake s = .next (beginLaunch (answerRecord s2 k q 1) slot l))) ∧
  (∀ (s : State) (r : List Byte) (a : Nat),
    (recordOk r = false → judge s r a = .refuse s 3) ∧
    (recordOk r = true → rectOk s r = false → judge s r a = .refuse s 2) ∧
    (recordOk r = true → rectOk s r = true → (s.launch (natAt r 4 2)).isSome = true → judge s r a = .refuse s 4) ∧
    (∀ s2 n l, judge s r a = .accept s2 n l → n = natAt r 4 2 ∧ l.record = r ∧ descOk l.desc = true ∧
      l.statusKey = a ∧ s.launch n = none ∧ ∀ t ∈ rectTiles l, ∃ b, b < 16 ∧ (t, b) ∈ l.blocks ∧
      blockOwner s t b = none)) ∧
  (∀ (s : State) (k : Nat) (q : LaunchQueue) (st : Nat), let u := answerRecord s k q st
    k < s.queues.length →
    (∃ q', u.queues[k]? = some q' ∧ q'.next = q.next + 1) ∧
    (slotKey q q.next + 126 < 2 ^ 60 → visRead u (slotKey q q.next + 126) 1 = [BitVec.ofNat 8 st])) ∧
  (∀ (s : State) (l : Launch), let k := s.ev.who
    s.launch k = some l → l.state = .lookup → l.lookup ≠ [] →
    exec .keyedLookupResult s = .next (startLaunch s k l) ∧
    (l.gang = false → ∃ l', (startLaunch s k l).launch k = some l' ∧ l'.state = .running)) ∧
  (∀ (s : State) (l : Launch), let k := s.ev.who
    s.launch k = some l → launchDone s k l = true → stalled s l.statusKey = false → pinsWait s k = false →
    ∃ u, exec .launchComplete s = .next u ∧
      u.launch k = none ∧ (u.ctxs = s.ctxs) ∧ (∀ t, (u.tile t).reserved.all (fun e => e.2 != k) = true) ∧
      (∀ t, (u.tile t).matrix = (s.tile t).matrix) ∧
      (pageOff (dropPins (ackDropped s k) k) l.statusKey = false → l.statusKey < 2 ^ 60 →
        visRead u l.statusKey 1 = [if l.failed = true then 6 else 5])) ∧
  (∀ (s : State) (l : Launch) (k : Nat) (e : Nat × Packet) (act : Nat), launchDone s k l = true → e ∈ s.pkts →
    e.2.owner = .act act → e.2.lslot = k → (∀ u, e.2.work ≠ .osub u) → e.2.place = .done)

/-! ### The vault agent -/

/-- The agent of home `ev.who` serves the request `r` of packet `id` next, and nothing refuses or
delays it (R277, R278, R294); among its contributions, one that it holds does not keep back another of the same
source (DESIGN CHOICE, log 62). -/
def Sys2Proof.Stated.Serves (s : State) (opc id : Nat) (r : RemoteReq) : Prop :=
  (∃ p r0, agentItem s s.ev.who s.ev.idx = some (id, p, r0)) ∧ (∃ p, oldestReq (agentQueue s s.ev.who) = some (id, p, r)) ∧
  r.opc = opc ∧ (s.tile s.ev.who).agent = none ∧ staleAt s s.ev.who r.tag = false ∧ pageOff s r.key = false ∧
  rowHeld s r.key (nextSpan r) = false ∧ pageBusy s r.key = false

/-- No injection and no poison meets `n` elements of `e` bytes at R. -/
def Sys2Proof.Stated.Sound (s : State) (r : RemoteReq) (e n : Nat) : Prop :=
  injRead s r.key = false ∧ ∀ j, j < n → poisoned s (r.key + e * j) e = false

/-- The request is complete: `n` elements performed, `lw` returns to L and `v` to a blocking form. -/
def Sys2Proof.Stated.replied (s : State) (r : RemoteReq) (n : Nat) (lw : List (Nat × List Byte)) (v : Word) : State :=
  finish (agentReply s s.ev.who ⟨r, 0, n, 0, lw, [], v, true, false⟩) r.pkt none

/-- R271, R272, R274, R275, R277: what the vault agent performs for each request.
Which of several requests it serves first: DEDUCED, log 22, and DESIGN CHOICE, log 62. -/
def Obligations.RemoteAgent : Prop :=
  (∀ (s : State) (id : Nat) (r : RemoteReq) (opc : Nat), Serves s opc id r →
    let w := r.wBytes
    let e := r.elem
    let old (j : Nat) : Nat := natAt (visRead s r.key (e * r.count)) (e * j) e
    let one := natLE (visRead s r.key w)
    (opc = 0xCF → Sound s r w 1 → exec .agentRld s = .next (replied (touchPage s r.key w) r 1
      (if r.nb = true then [(0, visRead s r.key w)] else []) (intPush r.isSigned (8 * w) one))) ∧
    (opc = 0xD0 → exec .agentRst s =
      .next (replied (arrayStore s r.key (bytesLE w r.v.toNat) r.act) r 1 [] 0)) ∧
    (opc = 0xD1 → Sound s r e r.count → exec .agentRred s = .next (replied
      (arrayStore (touchPage s r.key (e * r.count)) r.key ((List.range r.count).flatMap (fun j =>
        bytesLE e (elemOp r.op r.ty (8 * e) r.sat (old j) (natAt r.data (e * j) e)))) r.act)
      r r.count (if r.ret = true then [(0, visRead s r.key (e * r.count))] else []) 0)) ∧
    (opc = 0xD4 → Sound s r e r.count → exec .agentRsax s = .next (replied
      (arrayStore (touchPage s r.key (e * r.count)) r.key ((List.range r.count).flatMap (fun j =>
        bytesLE e (saxElem r.ty (r.v.toNat % 2 ^ 32) (old j) (natAt r.data (e * j) e)))) r.act)
      r r.count (if r.ret = true then [(8, visRead s r.key (e * r.count))] else []) 0)) ∧
    (opc = 0xD3 → Sound s r w 1 → exec .agentRcas s = .next (replied
      (arrayStore (touchPage s r.key w) r.key (bytesLE w
        (if one = (if r.nb = true then natAt r.data 0 w else r.v.toNat % 2 ^ (8 * w))
          then natAt r.data (if r.nb = true then 8 else 0) w else one)) r.act)
      r 1 (if r.nb = true then [(0, visRead s r.key w)] else []) (intPush r.isSigned (8 * w) one))) ∧
    (opc = 0xDA → exec .agentRfill s = .next (blockStep s s.ev.who ⟨r, 0, 0, [], false⟩)) ∧
    (opc = 0xDB → exec .agentRldb s = .next (blockStep s s.ev.who ⟨r, 0, 0, [], false⟩))) ∧
  (∀ (s : State) (o : AgentOp), let home := s.ev.who
    let k := o.req.key + 32 * o.next
    (s.tile home).agent = some o → o.remap = false → rowHeld s k 32 = false → pageBusy s k = false →
    (o.req.opc = 0xDA → exec .agentRfill s = .next (blockStep s home o)) ∧
    (o.req.opc = 0xDB → exec .agentRldb s = .next (blockStep s home o))) ∧
  (∀ (s : State) (home : Nat) (o : AgentOp), let r := o.req
    let k := r.key + 32 * o.next
    pageOff s k = false → r.bar = none → o.next + 1 < r.count → k < 2 ^ 60 → s.MemOk →
    (r.opc = 0xDA → ((blockStep s home o).tile home).agent = some { o with next := o.next + 1, perf := o.perf + 1 } ∧
      ∀ i, i < 32 → homeTile (k + i) = homeTile k → visRead (blockStep s home o) (k + i) 1 =
        (bytesLE r.wBytes r.v.toNat)[i % r.wBytes]?.toList) ∧
    (r.opc = 0xDB → injRead s k = false → poisoned s k 32 = false →
      ((blockStep s home o).tile home).agent = some { o with next := o.next + 1, perf := o.perf + 1 } ∧
      ∃ p, (blockStep s home o).pkt s.nextPkt = some p ∧
        p.work = .reply ⟨r, 0, o.perf + 1, 0, [(32 * o.next, visRead s k 32)], [], 0, false, false⟩)) ∧
  (∀ (w a b : Nat) (ty : Nat), ty ∈ [1, 2, 5, 6, 9, 10, 11, 12] → 0 < w →
    elemOp 0 ty w false a b = (a + b) % 2 ^ w ∧ elemOp 3 ty w false a b = a &&& b ∧ elemOp 4 ty w false a b = a ||| b ∧
    elemOp 5 ty w false a b = a ^^^ b ∧ elemOp 6 ty w false a b = b)

/-- R273, R278, R284, R286, R294: ranked reductions, whose contributions keep their place until their entry completes, requests turned away or held, and the end of a hold. -/
def Sys2Proof.Stated.AgentQueues : Prop :=
  (∀ (s : State) (id : Nat) (r : RemoteReq), Serves s 0xD2 id r → (s.tile s.ev.who).ranked = [] → 1 < r.ranks →
    exec .agentRredRk s = .next (s.modTile s.ev.who (fun x => { x with
      ranked := [⟨r.key, r.op, r.ty, r.sat, r.count, r.ranks, s.cycle, [(r.rank, r)]⟩] }))) ∧
  (∀ (s : State) (id : Nat) (r : RemoteReq) (e : Ranked), let home := s.ev.who
    Serves s 0xD2 id r → (s.tile home).ranked = [e] → e.meets r = true →
    (e.takes r = false → exec .agentRredRk s = .next (finish (rejectReq s home r 1) r.pkt none)) ∧
    (e.takes r = true → let e' := { e with got := e.got ++ [(r.rank, r)] }
      (e.got.length + 1 ≠ e.n → exec .agentRredRk s =
        .next (s.modTile home (fun x => { x with ranked := [e'] }))) ∧
      (e.got.length + 1 = e.n → exec .agentRredRk s =
        .next (completeRanked (s.modTile home (fun x => { x with ranked := [] })) home e' r)))) ∧
  (∀ (s : State) (e : Ranked), let t := s.ev.who
    (s.tile t).ranked = [e] → s.ev.idx = 0 → exec .rredRkExpire s =
      .next (closeRanked (s.modTile t (fun x => { x with ranked := [] })) t e)) ∧
  (∀ (s : State) (id : Nat) (p q : Packet) (r0 r : RemoteReq) (i : Instr), let home := s.ev.who
    agentItem s home s.ev.idx = some (id, p, r0) → oldestReq (agentQueue s home) = some (id, q, r) → (s.tile home).agent = none →
    (i, r.opc) ∈ [(Instr.agentRld, 0xCF), (.agentRst, 0xD0), (.agentRred, 0xD1), (.agentRredRk, 0xD2), (.agentRcas, 0xD3),
      (.agentRsax, 0xD4), (.agentRfill, 0xDA), (.agentRldb, 0xDB)] →
    (staleAt s home r.tag = true → exec i s = .next (finish (rejectReq s home r 2) id none)) ∧
    (staleAt s home r.tag = false → pageOff s r.key = true →
      exec i s = .next (finish (rejectReq s home r 1) id none)) ∧
    (staleAt s home r.tag = false → pageOff s r.key = false → r.opc ≠ 0xD2 → rowHeld s r.key (nextSpan r) = true →
      ∃ u, exec i s = .next u ∧ (u.tile home).agent = some ⟨r, 0, 0, [], true⟩ ∧ u.mem = s.mem)) ∧
  (∀ (s : State) (o : AgentOp), let t := s.ev.who
    let k := o.req.key + (if nextSpan o.req = 32 then 32 * o.next else 0)
    (s.tile t).agent = some o → o.remap = true → rowHeld s k (nextSpan o.req) = false → pageBusy s k = false →
    ((o.req.opc = 0xDA ∨ o.req.opc = 0xDB) → exec .agentRemapResume s = .next (blockStep
      (s.modTile t (fun x => { x with agent := some { o with remap := false } })) t { o with remap := false })) ∧
    (¬ (o.req.opc = 0xDA ∨ o.req.opc = 0xDB) → exec .agentRemapResume s =
      .next (performReq (s.modTile t (fun x => { x with agent := none })) t o.req)))

/-- R275, R276, R278: what a reply does at the issuer. -/
def Sys2Proof.Stated.Replies : Prop :=
  ∀ (s : State) (id : Nat) (p : Packet) (rep : Reply), let t := s.ev.who
    let r := rep.req
    item s t s.ev.idx = some (id, p) → p.work = .reply rep →
    let s1 := replyWrites (finish s id none) rep
    let code := if rep.status = 0 then 1 else rep.status
    let n := tabGet 0 (s1.tile t).refused r.pkt + rep.ab
    let read (s : State) : State := sendSectors s t p.lslot r.bar rep.lw.length false 0 0
    let is (u : State) : Prop := exec .replyArrival s = .next u
    (replyGuarded s rep = true → r.nb = true → rep.last = true → is (replyBarrier (replyWrites (finish
      (logAt s 8 Cause.abandon.code t p.lslot (r.l.getD 0) r.opc) id none) rep.guard) t p.lslot rep.guard)) ∧
    (replyGuarded s rep = false → tabGet 0 (s.tile t).refused r.pkt = 0 →
    (r.nb = true → r.opc ≠ 0xDA → r.opc ≠ 0xDB → rep.last = true →
      is (sendArrival s1 t p.lslot r.bar (rep.status != 0) rep.status rep.ab)) ∧
    (r.nb = true → r.opc = 0xDA → is (sendSectors s1 t p.lslot r.bar rep.ab true code rep.ab)) ∧
    (r.nb = true → r.opc = 0xDB → rep.last = true → is (sendSectors
      ((read s1).modTile t (fun x => { x with refused := tabDel x.refused r.pkt })) t p.lslot r.bar n true code n)) ∧
    (r.nb = true → r.opc = 0xDB → rep.last = false → rep.ab = 0 → is (read s1)) ∧
    (r.nb = true → r.opc = 0xDB → rep.last = false → rep.ab ≠ 0 →
      is ((read s1).modTile t (fun x => { x with refused := tabSet x.refused r.pkt n }))) ∧
    (∀ (g : Nat) (st : Stage) (slot wr : Option Nat) (acts : List Act), r.nb = false → rep.last = true →
      awaiting s1 r.act = [g] → (s1.ctx g).stage = some st → st.acts = .awaitReply slot wr :: acts →
      (rep.poison = true → exec .replyArrival s = .next (consumePoison s1 g)) ∧
      (rep.poison = false → rep.status = 0 →
        exec .replyArrival s = .next (continueBundle (fillSlot s1 g slot wr rep.value) g acts)) ∧
      (rep.poison = false → rep.status ≠ 0 → exec .replyArrival s = .next (continueBundle
        ((fillSlot s1 g slot wr rep.value).modCtx g (fun c => { c with
          fail := c.fail ++ [(rep.status, rep.perf, p.src)] })) g acts))) ∧
    (∀ (k : Nat) (bs : List Byte), r.l = some k → r.lp = none → rep.lw = [(0, bs)] → rep.pz = [] →
      s1 = performStore (finish s id none) k bs r.act))

/-! ### The matrix unit -/

/-- R212, R217, R218, R221, R222, R226, R228, R229, R236, R239, R240: the queue of the unit, its arrival
checks, the commands that take one step, and the change of holder.
Readings of the carriage: DEDUCED, log 23; the words of a saved unit, and what the carriage keeps of its own of it:
DEDUCED, log 14; a unit keeps what it holds as its launch completes: DEDUCED, log 91. -/
def Obligations.MatrixControl : Prop :=
  (∀ (s : State) (id : Nat) (p : Packet) (c : MatCmd), let t := s.ev.who
    item s t s.ev.idx = some (id, p) → pktStale s p = false → p.work = .matrix c → (s.tile t).matrix.queue.length < 64 →
    exec .matrixCmdArrival s = .next (finish (s.modTile t (fun x => { x with
      matrix := { x.matrix with queue := x.matrix.queue ++ [c] } })) id none)) ∧
  (∀ (s : State) (c : MatCmd) (r : List MatCmd), let t := s.ev.who
    let m := (s.tile t).matrix
    m.queue = c :: r → mayTake m c = true → (m.holder = some c.lslot ∨ (m.holder = none ∧ imageOf s c.lslot t = none)) →
    let s1 := s.modTile t (fun x => { x with matrix := { x.matrix with queue := r } })
    let s2 := if m.holder = none then setUnit s1 t MatUnit.clear else s1
    (∀ cause, arrivalFault s2 t c = some cause → exec .matrixCmdTake s = .next (rejectCmd s2 t c cause)) ∧
    (arrivalFault s2 t c = none → c.opc ≠ 0xA6 → ∃ u, exec .matrixCmdTake s = .next u ∧
      (u.tile t).matrix.cur = some ⟨s.cycle, c, 0, 0, 0, [], false, 0, false⟩ ∧ (u.tile t).matrix.holder = some c.lslot ∧
      (u.tile t).matrix.queue = r ∧ (u.tile t).matrix.unit = (s2.tile t).matrix.unit)) ∧
  (∀ (s : State) (c : MatCmd) (r : List MatCmd), let m := (s.tile s.ev.who).matrix
    m.queue = c :: r → (m.cur ≠ none ∨ (c.opc ∈ [0xA1, 0xA2, 0xA4, 0xA5] ∧ (m.pending ≠ [] ∨ m.unit.tiles ≠ []))) →
    exec .matrixCmdTake s = .next s) ∧
  (∀ (u : MatUnit) (n i : Nat) (rows : List Nat) (e : Nat × Bool),
    e ∈ u.regErr → i ∈ rows → i < 64 → storeWf false u.poison = true →
    ((e.1 < 8192 ∧ e.1 / 512 = n ∧
        overlaps (16 * (e.1 % 512)) 16 (i * cfgRsz (u.cfg n)) (cfgRsz (u.cfg n)) = true) ∨
      (8192 ≤ e.1 ∧ cfgScl (u.cfg n) ≠ 0 ∧ e.1 - 8192 = 32 * n + i / 2)) →
    (u.findRegs n rows).1.bad n i = true ∧ (u.bad n i = false → (u.findRegs n rows).2 = true) ∧
      (u.findRegs n rows).1.regErr = u.regErr) ∧
  (∀ (s : State) (c : Current), let t := s.ev.who
    let v := unitOf s t
    let ends (i : Instr) (v' : MatUnit) : Prop := exec i s = .next (endCmd (countPerf (setUnit s t v') t 5 1) t c)
    (stepOf s 0xA0 = some c → ends .tcfgPerform
      { v with tcfg := v.tcfg.setIfInBounds c.cmd.fA (BitVec.ofNat 32 c.cmd.b.toNat) }) ∧
    (stepOf s 0xA3 = some c → c.cmd.isAclr = false → ends .tzeroPerform (v.tzero (c.cmd.ctl % 2 ^ 16))) ∧
    (stepOf s 0xA3 = some c → c.cmd.isAclr = true → ends .aclrPerform (v.aclr (c.cmd.ctl % 16))) ∧
    (stepOf s 0xA7 = some c → v.tiles = [] → (s.tile t).matrix.pending = [] → ends .tringInstall
      { v with ring := some c.cmd.desc, fill := 0, drain := 0, tiles := [], ringT := 0 })) ∧
  (∀ (s : State) (c : Current), let t := s.ev.who
    let k := c.cmd.dK
    let bad := (List.range 64).filter (fun i => (unitOf s t).rowOk k i = false)
    let s0 := readAcc s t c.cmd.lslot k (List.range 64)
    let s1 := reportRows s0 t k c.cmd.lslot bad
    let w0 := engineWalks s t c.cmd.asid c.cmd.b.toNat 8
    let w1 := reportRows (readAcc w0 t c.cmd.lslot k (List.range 64)) t k c.cmd.lslot bad
    stepOf s 0xA5 = some c →
    (c.cmd.nob = true → exec .tchkPerform s = .next (endCmd (countPerf s1 t 5 1) t c)) ∧
    (∀ l, c.cmd.nob = false → stepGate s t c (engPieces s t c.cmd.asid c.cmd.b.toNat 8 true false) 8 = .go l →
      let w := writePieces w1 t (.matrix t c.id) c.cmd.lslot c.cmd.tag l
        (bytesLE 8 ((unitOf w1 t).sticky.toNat + 2 ^ 32 * bad.length))
      w.2 = [] → exec .tchkPerform s = .next (endCmd (countPerf w.1 t 5 1) t c)) ∧
    ((unitOf s t).accErr = [] → s0.mgmt = s.mgmt) ∧ (bad = [] → s1 = s0) ∧
    (∀ i, bad = [i] → (unitOf s1 t).sticky = (unitOf s t).sticky ||| BitVec.ofNat 16 (8 * 2 ^ (4 * k)) ∧
      s1.mgmt.logWait = s0.mgmt.logWait ++ [logEntry 0x0A 0 t 0 0 c.cmd.lslot 0 0 0 0 i k s.cycle])) ∧
  (∀ (u : MatUnit) (a i j : Nat) (v : BitVec 32), i < 64 → j < 64 → storeWf 0 u.acc = true → storeWf 0 u.csum = true →
    (u.setWord a i j v).word a i j = v ∧ (u.setWord a i j v).sum a i = u.sum a i + v - u.word a i j ∧
    (u.rowOk a i = true → (u.setWord a i j v).rowOk a i = true) ∧
    (∀ a' i' j', i' < 64 → j' < 64 → (a', i', j') ≠ (a, i, j) → (u.setWord a i j v).word a' i' j' = u.word a' i' j') ∧
    (∀ m i' j', i' < 64 → j' < 64 → a < 4 → (u.aclr m).word a i' j' = (if m.testBit a then 0 else u.word a i' j'))) ∧
  (∀ (s : State), let t := s.ev.who
    let x := s.tile t
    (x.matrix.stall = 1 → x.repair = none → exec .carriageStepResume s = .next (s.modTile t (fun x => { x with
      matrix := { x.matrix with stall := 0 } }))) ∧
    (x.matrix.stall = 2 → x.thermal ≠ .hold → exec .carriageStepResume s = .next (s.modTile t (fun x => { x with
      matrix := { x.matrix with stall := 0 } })))) ∧
  (∀ (s : State) (h : Nat) (l : Launch), let t := s.ev.who
    let m := ((readWhole s t h).tile t).matrix
    (s.tile t).matrix.holder = some h → s.launch h = some l → l.saved = true → msaveOf l t ≠ 0 →
    (s.tile t).matrix.pending = [] → saveWaits s t l = false →
    ((s.tile t).matrix.unit.regErr = [] → (s.tile t).matrix.unit.accErr = [] → m = (s.tile t).matrix) ∧
    ∃ u, exec .matrixSwap s = .next u ∧ (u.tile t).matrix.unit = MatUnit.clear ∧ (u.tile t).matrix.holder = none ∧
      (u.tile t).matrix.cur = none ∧ (u.tile t).matrix.queue = m.queue.filter (fun c => c.lslot != h) ∧
      imageOf u h t = some (m.unit, m.cur, m.queue.filter (fun c => c.lslot == h))) ∧
  (∀ (s : State) (w : Nat) (l : Launch) (i : MatUnit × Option Current × List MatCmd), let t := s.ev.who
    let m := (s.tile t).matrix
    m.holder = none → m.cur = none → m.pending = [] → wanted s t = some w → s.launch w = some l → l.saved = false →
    saveWaits s t l = false → imageOf s w t = some i → ∃ u, exec .matrixSwap s = .next u ∧ (u.tile t).matrix.holder = some w ∧
      (u.tile t).matrix.queue = i.2.2 ++ m.queue ∧ u.mem = s.mem ∧ imageOf u w t = none ∧
      (∀ ks, saveKeys s t (natAt l.record 6 1) (msaveOf l t) false = some ks →
        (u.tile t).matrix.unit = unitFrom i.1 (readUnit s ks)) ∧
      (saveKeys s t (natAt l.record 6 1) (msaveOf l t) false = none →
        (u.tile t).matrix.unit = i.1 ∧ (u.tile t).matrix.cur = i.2.1)) ∧
  (∀ (s : State) (h : Nat), let t := s.ev.who
    let m := (s.tile t).matrix
    m.holder = some h → s.launch h = none → m.cur = none → m.pending = [] → m.queue = [] →
    (∀ e ∈ s.launches, tabFind e.2.images t = none) → ∃ u, exec .matrixSwap s = .next u ∧
      (u.tile t).matrix = { m with unit := MatUnit.clear, holder := none } ∧ u.mem = s.mem)

/-- R224, R225, R227, R228, R239: the steps of the transfers.
Readings of the carriage: DEDUCED, log 23. -/
def Obligations.MatrixTransfers : Prop :=
  (∀ (s : State) (c : Current), let t := s.ev.who
    let n := c.cmd.fA
    let w := (unitOf s t).cfg n
    let d := c.cmd.desc
    let rows := cfgRows w
    let rb := if natAt d 26 1 = 0 then rows else natAt d 26 1
    let row (i : Nat) : Int := (min i (rb - 1) : Nat)
    let els (i : Nat) : List (Nat × Nat) := (List.range (cfgKb w)).map (fun b =>
      (addrPlus (natAt d 0 8) (row i * descInt d 8 4 + (b : Int) * descInt d 12 4), blockBytes (cfgFmt w)))
    let scs (i : Nat) : List (Nat × Nat) := if cfgScl w = 0 then [] else (List.range (cfgKb w)).map (fun b =>
      (addrPlus (natAt d 16 8) (row i * descInt d 24 2 + (b : Int)), 1))
    let pe := spanPieces s t c.cmd.asid false (els c.step)
    let pc := spanPieces s t c.cmd.asid false (scs c.step)
    let gate := stepGate s t c (joinPieces (pe ++ pc)) (cfgRsz w)
    let w0 := walkSpans s t c.cmd.asid (els c.step ++ scs c.step)
    stepOf s 0xA1 = some c →
    (∀ k, gate = .trap k → exec .tldStep s = .next (carriageTrap w0 t k)) ∧
    (∀ cls, gate = .stop cls → exec .tldStep s = .next (stopCmd (setUnit w0 t ((unitOf w0 t).leaveRows n c.step rows))
      t c cls false (rowsLeft (fun i => els i ++ scs i) c.step rows))) ∧
    (∀ l, gate = .go l → exec .tldStep s = .next (loadRowStep w0 t c w pe pc)) ∧
    (let r1 := readSpans w0 pe
     let r2 := readSpans r1.1 pc
     (∀ b ∈ r1.2.2, b = false) → (∀ b ∈ r2.2.2, b = false) →
     (∀ b, b < cfgKb w → cfgScl w ≠ 0 → scaleBad (cfgScl w) (r2.2.1.getD b 0).toNat = false) →
     loadRowStep w0 t c w pe pc = stepDone (setUnit r2.1 t ((unitOf r2.1 t).loadRow n c.step w r1.2.1 r2.2.1 false)) t
       { c with moved := c.moved + cfgRsz w } rows)) ∧
  (∀ (s : State) (c : Current), let t := s.ev.who
    let n := c.cmd.fA
    let v := unitOf s t
    let w := v.cfg n
    let d := c.cmd.desc
    let spans (i : Nat) : List (Nat × Nat) :=
      (addrPlus (natAt d 0 8) ((i : Int) * descInt d 8 4), cfgRsz w) ::
        (if cfgScl w = 0 then [] else [(addrPlus (natAt d 16 8) ((i : Int) * descInt d 24 2), cfgKb w)])
    let gate := stepGate s t c (joinPieces (spanPieces s t c.cmd.asid true (spans c.step))) (cfgRsz w)
    let w0 := walkSpans s t c.cmd.asid (spans c.step)
    stepOf s 0xA2 = some c → c.stopped = false →
    (∀ k, gate = .trap k → exec .tstStep s = .next (carriageTrap w0 t k)) ∧
    (∀ cls, gate = .stop cls →
      exec .tstStep s = .next (stopCmd w0 t c cls true (rowsLeft spans c.step (cfgRows w)))) ∧
    (∀ l, gate = .go l →
      let s0 := readRows w0 t c.cmd.lslot n [c.step]
      let u := unitOf s0 t
      let r := writePieces s0 t (.matrix t c.id) c.cmd.lslot c.cmd.tag l
        (storeRead 0 u.tr (8192 * n + c.step * cfgRsz w) (cfgRsz w) ++
          (if cfgScl w = 0 then [] else storeRead 0 u.scale (512 * n + 8 * c.step) (cfgKb w)))
      r.2 = [] →
      (u.bad n c.step = false →
        exec .tstStep s = .next (stepDone r.1 t { c with moved := c.moved + cfgRsz w } (cfgRows w))) ∧
      (u.bad n c.step = true → exec .tstStep s = .next (stepDone r.1 t
        { c with cls := (if c.cls = 0 then 4 else c.cls), moved := c.moved + cfgRsz w } (cfgRows w))))) ∧
  (∀ (s : State) (c : Current), let t := s.ev.who
    let k := c.cmd.dK
    let n := c.cmd.dCols * ofmtBits c.cmd.dFmt / 8
    let dst (i : Nat) : Nat := addrPlus c.cmd.b.toNat ((i : Int) * sint 64 c.cmd.c.toNat)
    let gate := stepGate s t c (engPieces s t c.cmd.asid (dst c.step) n true false) n
    let w0 := engineWalks s t c.cmd.asid (dst c.step) n
    let v := unitOf w0 t
    let s1 := drainCheck w0 t c.cmd c.step
    stepOf s 0xA4 = some c → c.stopped = false →
    (∀ k, gate = .trap k → exec .tdrainStep s = .next (carriageTrap w0 t k)) ∧
    (∀ cls, gate = .stop cls → exec .tdrainStep s =
      .next (stopCmd s1 t c cls true (rowsLeft (fun i => [(dst i, n)]) c.step c.cmd.dRows))) ∧
    (∀ l, gate = .go l →
      let r := writePieces (setUnit s1 t (if c.cmd.dZd = true then (unitOf s1 t).zeroRow k c.step else unitOf s1 t)) t
        (.matrix t c.id) c.cmd.lslot c.cmd.tag l (packCodes (ofmtBits c.cmd.dFmt) (drainRow v c.cmd c.step).1)
      r.2 = [] → exec .tdrainStep s = .next (stepDone r.1 t { c with moved := c.moved + n } c.cmd.dRows)) ∧
    (v.rowOk k c.step = true → let s0 := readAcc w0 t c.cmd.lslot k [c.step]
      s1 = setUnit s0 t ((unitOf s0 t).stick k (drainRow v c.cmd c.step).2)) ∧
    (v.rowOk k c.step = false → ∃ e, s1.mgmt.logWait =
      (readAcc w0 t c.cmd.lslot k [c.step]).mgmt.logWait ++ [e] ∧ natAt e 0 1 = 0x0A)) ∧
  (∀ (u : MatUnit) (n i w j : Nat) (els scs : List Byte) (b : Bool), storeWf 0 u.tr = true → j < els.length →
    storeGet 0 (u.loadRow n i w els scs b).tr (8192 * n + i * cfgRsz w + j) = els.getD j 0 ∧
    ((∀ x, x < 8192 * n + i * cfgRsz w ∨ 8192 * n + i * cfgRsz w + els.length ≤ x →
      storeGet 0 (u.loadRow n i w els scs b).tr x = storeGet 0 u.tr x)) ∧
    (storeWf false u.poison = true → (u.loadRow n i w els scs b).bad n i = b)) ∧
  (∀ (s : State) (t : Nat) (c : Current) (steps : Nat),
    (c.step + 1 < steps → ((stepDone s t c steps).tile t).matrix.cur = some { c with step := c.step + 1 }) ∧
    (steps ≤ c.step + 1 → ((stepDone s t c steps).tile t).matrix.cur = none))

/-- R128, R129, R211, R232, R233, R235, R237: the steps of the products, the ring and the cast-off
engine.
Readings of the cast-off engine: DEDUCED, log 24. -/
def Obligations.MatrixProducts : Prop :=
  (∀ (s : State) (c : Current), let t := s.ev.who
    let m := (s.tile t).matrix
    m.cur = some c → m.stall = 0 → 0xA8 ≤ c.cmd.opc → c.copying = false →
    let rows := cfgRows (m.unit.cfg c.cmd.fA)
    let s0 := readProduct s t c.cmd c.cmd.fB (List.range rows)
    let r := mmaBlock (unitOf s0 t) c.cmd c.cmd.fA c.cmd.fB 0 rows c.step
    let c1 := if r.2 = true then c.fail 4 else c
    let s1 := countPerf (setUnit s0 t r.1) t 5 1
    (c.step + 1 < cfgKb (m.unit.cfg c.cmd.fA) →
      exec .mmaStep s = .next (setCur s1 t (some { c1 with step := c.step + 1 }))) ∧
    (cfgKb (m.unit.cfg c.cmd.fA) ≤ c.step + 1 → c.cmd.fRing = false → exec .mmaStep s = .next (endCmd s1 t c1)) ∧
    (cfgKb (m.unit.cfg c.cmd.fA) ≤ c.step + 1 → c.cmd.fRing = true →
      exec .mmaStep s = .next (setCur s1 t (some { c1 with copying := true })))) ∧
  (∀ (s : State) (c : Current), let t := s.ev.who
    let gs := groupCounts c.cmd.b (c.cmd.modf / 32 % 8 + 1)
    let lo := (gs.take c.group).sum
    let n := gs.getD c.group 0
    let rb := (c.cmd.fB + c.group) % 16
    let s0 := readProduct s t c.cmd rb ((List.range n).map (fun i => lo + i))
    let v := unitOf s0 t
    stepOf s 0xA6 = some c →
    let r := mmaBlock v c.cmd c.cmd.fA rb lo n c.step
    let c1 := if r.2 = true then c.fail 4 else c
    let s1 := countPerf (setUnit s0 t r.1) t 5 1
    (c.step + 1 < cfgKb (v.cfg c.cmd.fA) → exec .mmagStep s = .next (setCur s1 t (some { c1 with step := c.step + 1 }))) ∧
    (cfgKb (v.cfg c.cmd.fA) ≤ c.step + 1 → c.cmd.fRing = false →
      exec .mmagStep s = .next (groupDone (matArrive s1 t c.cmd c1.cls 0) t c1))) ∧
  (∀ (u : MatUnit) (c : MatCmd) (ra rb lo m b i j : Nat), lo + m ≤ 64 → lo ≤ i → i < lo + m → j < cfgRows (u.cfg rb) →
    storeWf 0 u.acc = true → storeWf 0 u.csum = true → storeWf 0 u.part = true →
    let u' := (mmaBlock u c ra rb lo m b).1
    let v := u.nextPart c.pair c.fK ra rb i j i b
    let due := (b + 1) % c.fP = 0 ∨ b + 1 = cfgKb (u.cfg ra)
    (due → u'.word c.fK i j = (promote (u.word c.fK i j) v (fld c.c 0 32) (fld c.c 32 32)).1 ∧
      storeGet 0 u'.part (4096 * c.fK + 64 * i + j) = 0) ∧
    (¬ due → u'.word c.fK i j = u.word c.fK i j ∧
      storeGet 0 u'.part (4096 * c.fK + 64 * i + j) = BitVec.ofNat 40 (round .a40 v .rne false).code) ∧
    ((u.bad ra i = true ∨ u.bad rb j = true) → (mmaBlock u c ra rb lo m b).2 = true ∧ u.blockVal c.pair ra rb i j b = .nan false) ∧
    (∀ x, x < 64 → (x < lo ∨ lo + m ≤ x) → ∀ y, y < 64 → u'.word c.fK x y = u.word c.fK x y)) ∧
  (∀ (s : State) (c : Current) (d : List Byte) (l : List Piece), let t := s.ev.who
    let v := unitOf s t
    let k := c.cmd.fK
    let e := productCorner v c
    let words := (corner e.1 e.2.1 e.2.2).flatMap (fun x => bytesLE 4 (v.word k x.1 x.2).toNat)
    (s.tile t).matrix.cur = some c → v.ring = some d → c.copying = true → v.tiles.length < natAt d 4 1 →
    let s0 := readAcc s t c.cmd.lslot k ((List.range e.2.1).map (fun i => e.1 + i))
    engPieces s0 t c.cmd.asid (natAt d 0 4 + 16384 * v.fill) words.length true false = some l →
    (writePieces s0 t (.matrix t c.id) c.cmd.lslot c.cmd.tag l words).2 = [] →
    ∃ u, exec .ringSlotCopy s = .next u ∧ u.mem = (writePieces s0 t (.matrix t c.id) c.cmd.lslot c.cmd.tag l words).1.mem ∧
      (unitOf u t).fill = (v.fill + 1) % natAt d 4 1 ∧
      (c.cmd.opc ≠ 0xA6 → (u.tile t).matrix.cur = none ∧
        (unitOf u t).tiles = v.tiles ++ [⟨c.cmd, e.2.1, e.2.2, k, c.cls⟩])) ∧
  (∀ (s : State) (r : RingTile) (q : List RingTile) (d : List Byte), let t := s.ev.who
    let v := unitOf s t
    v.tiles = r :: q → v.ring = some d → castWaits s t r d = false → ∃ u, exec .castoffTile s = .next u ∧
      (unitOf u t).tiles = q ∧ (unitOf u t).drain = (v.drain + 1) % natAt d 4 1 ∧
      (unitOf u t).ringT = (v.ringT + 1) % 2 ^ 32)

/-! ### Outriders and pacers -/

/-- R328-R332, R338, R339, R344, R457: command queues, their port, and the acceptance of commands. -/
def Sys2Proof.Stated.OutriderQueues : Prop :=
  (∀ (s : State) (u : Submission) (pkt k : Nat) (q : Queue) (b : Qcb) (l : Loc), let t := s.ev.who
    queueNamed s t u.qcb = some (k, q) → u.qcb + 32 ≤ Config.tableArea → injRead s (keyScratch t u.qcb) = false → poisoned s (keyScratch t u.qcb) 32 = false →
    qcbOf s t (visRead s (keyScratch t u.qcb) 32) = some b → u.bytes.length = 64 → b.slotLoc s t b.wi = some l →
    guarded s (keyScratch t u.qcb) 32 = false → stalled s l.key = false → guarded s l.key 64 = false →
    (b.ri + b.n < b.wi + 1 → submit s t u pkt = .hold) ∧
    (b.wi + 1 ≤ b.ri + b.n → submit s t u pkt = .written (modQueue
      (engWrite (performStore s (keyScratch t (u.qcb + 16)) (bytesLE 8 (b.wi + 1)) 0) l.key
        (u.bytes.take 63 ++ bytesLE 1 (b.wi % 255 + 1))) t k (fun x => { x with pend := x.pend ++ [(b.wi, pkt)] })))) ∧
  (∀ (s : State) (id : Nat) (p : Packet) (u : Submission), let t := s.ev.who
    item s t s.ev.idx = some (id, p) → p.work = .osub u → (s.tile t).subs = [] → subHeld s t id = false →
    pktStale s p = false →
    (∀ s1, submit s t u id = .written s1 → exec .osubPerform s = .next s1) ∧
    (∀ s1, submit s t u id = .reject s1 → exec .osubPerform s = .next (abandonSub (finish s1 id none) t u)) ∧
    (submit s t u id = .hold → exec .osubPerform s = .next (s.modTile t (fun x => { x with
      subs := x.subs ++ [{ u with time := p.since, pkt := id }] })))) ∧
  (∀ (s : State) (u : Submission), let t := s.ev.who
    (s.tile t).subs = [u] →
    (∀ s1, submit s t u u.pkt = .written s1 →
      exec .osubPerform s = .next (s1.modTile t (fun x => { x with subs := [] }))) ∧
    (s.ev.idx = 0 → exec .osubAbandon s = .next (abandonSub
      (finish (s.modTile t (fun x => { x with subs := [] })) u.pkt none) t u))) ∧
  (∀ (s : State) (q : Queue) (b : Qcb) (h : List Byte) (e : Option (List Byte)), let t := s.ev.who
    let k := s.ev.idx
    let ri := (b.ri + 1 + (if e = none then 0 else 1)) % 2 ^ 64
    let bytes := engRead s (keyScratch t q.qcb) 32
    queueAt s t k = some q → k < 8 → q.qcb + 32 ≤ Config.tableArea →
    injRead s (keyScratch t q.qcb) = false → poisoned s (keyScratch t q.qcb) 32 = false →
    (qcbOf s t bytes = none → q.malformed ≠ some bytes → exec .outriderAccept s = .next (logAt
      (modQueue s t k (fun q => { q with malformed := some bytes })) 8 Cause.abandon.code t q.lslot q.qcb 0)) ∧
    (qcbOf s t bytes = none → q.malformed = some bytes → exec .outriderAccept s = .next s) ∧
    (qcbOf s t bytes ≠ none → q.malformed ≠ none →
      exec .outriderAccept s = .next (modQueue s t k (fun q => { q with malformed := none }))) ∧
    (qcbOf s t bytes = some b → q.malformed = none → (s.tile t).out.cmds.length < 256 → inTurn s t k = true →
    guarded s (keyScratch t q.qcb) 32 = false → ready s t b = some (h, e) →
    let s2 := engWrite (touchSlots s t b (if e = none then 1 else 2)) (keyScratch t (q.qcb + 24)) (bytesLE 8 ri)
    let s3 := modOut s2 t (fun o => { o with next := (k + 1) % 8 })
    let id := (s3.tile t).out.ids + 1
    let s4 := acceptPend (modOut s3 t (fun o => { o with ids := id })) t k ri
    let c := newCopy (modOut s3 t (fun o => { o with ids := id })) t id k none h e b.asid b.handle
    exec .outriderAccept s = .next (admitCopy s4 t (handleOf e b.handle) true c) ∧
    (firstFailure s4 t (handleOf e b.handle) true c = 0 → ((admitCopy s4 t (handleOf e b.handle) true c).tile t).out.cmds =
      (s4.tile t).out.cmds ++ [c]) ∧
    (∀ n, 0 < n → firstFailure s4 t (handleOf e b.handle) true c = n → c.crcOn = false →
      admitCopy s4 t (handleOf e b.handle) true c = rejectCopy s4 t c n))) ∧
  (∀ (s : State) (q : Queue) (b : Qcb), let t := s.ev.who
    queueAt s t s.ev.idx = some q → s.ev.idx < 8 → q.qcb + 32 ≤ Config.tableArea →
    qcbOf s t (memRead s.mem (keyScratch t q.qcb) 32) = some b → b.ri < b.wi →
    tagged s t b b.ri = none → q.stalledAt ≠ b.ri + 1 → exec .stalledSlot s =
      .next (logAt (modQueue s t s.ev.idx (fun q => { q with stalledAt := b.ri + 1 })) 6 0 t q.lslot q.qcb b.ri)) ∧
  (∀ (s : State) (c : Copy), let t := s.ev.who
    cmdAt s t s.ev.idx = some c → c.started = false →
    (c.rejected = false → (c.crcOn = true → c.chains = true → (chainOf s t c).failed = false) →
      let v := if c.chains = true ∧ (chainOf s t c).run = true then (chainOf s t c).value else 0xFFFFFFFF
      exec .outriderCmdStart s =
        .next (setCmd (setChain s t c (fun x => { x with failed := false })) t { c with started := true, crc := v })) ∧
    (c.rejected = false → c.crcOn = true → c.chains = true → (chainOf s t c).failed = true → exec .outriderCmdStart s =
      .next (setChain (delCmd (rejectCopy s t c 5) t c.id) t c (fun x => { x with failed := true }))))

/-- R335-R341, R446, R451: what a walk moves, where, and what its end reports.
That one transfer moves the rest of one sector: DEDUCED, log 27. Reports of commands that fail in several ways:
DEDUCED, log 28. The last slot of a STREAM: DEDUCED, log 30. -/
def Obligations.OutriderWalks : Prop :=
  (∀ (c : Copy) (pos : Nat),
    (∀ k, k < 6 → c.index pos k < c.cnt k) ∧
    (c.walks = true → pos < c.total → c.cnt 1 = 1 → c.cnt 2 = 1 → c.cnt 3 = 1 → c.cnt 4 = 1 → c.cnt 5 = 1 → c.bnd 0 = 0 →
      (c.srcAt pos : Int) = ((c.src : Int) + pos * c.ss 0) % 2 ^ 64 ∧
      (c.code = 1 → (c.dstAt pos : Int) = ((c.dst : Int) + pos * c.ds 0) % 2 ^ 64))) ∧
  (∀ (s : State) (t : Nat) (c : Copy) (a d : Loc), let n := c.elem
    let w0 := engineWalk (engineWalk s t c.asid (c.srcAt c.pos)) t c.asid (c.dstAt c.pos)
    engineLoc s t c.asid (c.srcAt c.pos) false false = some a → engineLoc s t c.asid (c.dstAt c.pos) true true = some d →
    let bs := memRead w0.mem a.key n
    let c' : Copy := { c with
      pos := c.pos + 1, moved := c.moved + n, crc := if c.crcOn = true then crcBytes c.crc bs else c.crc,
      sector := some (a.key / 32, none) }
    a.home = t → stalled w0 a.key = false → (d.home = t → stalled w0 d.key = false) →
    copyOverlaps w0 t c.id a.key n = false →
    (staleAt w0 t (some (c.asid, c.gen)) = true → moveElem s t c [] = .stop w0 2) ∧
    (staleAt w0 t (some (c.asid, c.gen)) = false → (guarded w0 a.key n = true ∨ (d.home = t ∧ guarded w0 d.key n = true)) →
      moveElem s t c [] = .stop w0 1) ∧
    (staleAt w0 t (some (c.asid, c.gen)) = false → guarded w0 a.key n = false →
      w0.mgmt.inject.getLsbD 63 = false → poisoned w0 a.key n = false → c.sector = none →
      (d.home = t → guarded w0 d.key n = false →
        moveElem s t c [] = .done (engWrite (touchPage w0 a.key n) d.key bs) c' t [] false) ∧
      (d.home ≠ t → moveElem s t c [] = .done (touchPage w0 a.key n) c' d.home [(d.key, bs)] false))) ∧
  (∀ (s : State) (c : Copy), let t := s.ev.who
    cmdAt s t s.ev.idx = some c → c.mayMove = true → (s.tile t).thermal ≠ .hold →
    (∀ s1 cls, moveElem s t c [] = .stop s1 cls →
      exec .copyTransfer s = .next (setCmd s1 t { c with cls := cls, stopped := true })) ∧
    (∀ s1 c1 home w bad, moveElem s t c [] = .done s1 c1 home w bad →
      let r := moveMore s1 t (recheck s1 t c1) w bad 31
      exec .copyTransfer s = .next (setCmd (sendSector r.1 t r.2.1 home r.2.2.1 r.2.2.2) t r.2.1))) ∧
  (∀ (s : State) (c : Copy), let t := s.ev.who
    let b := c.slotBytes
    let next : Copy := { c with slot := c.slot + 1, cls := 0 }
    cmdAt s t s.ev.idx = some c → c.code = 2 → c.started = true → c.stopped = false → c.cls = 0 →
    (c.moved = c.slot * b + b → 0 < b → c.pos < c.total → exec .streamSlotFill s =
      .next (setCmd (listReport (copyArrive s t c 0 0) t c.list 0 0) t next)) ∧
    (c.slot * b < c.moved → c.moved < c.slot * b + b → c.pos = c.total →
      let done := c.moved - c.slot * b
      let pad := padSlot s t (c.wbase + b * (c.slot % c.nslot) + done) (b - done)
      let w := writeCrco pad.1 t c
      let code := if c.crcBad = true then 3 else 0
      pad.2 = 0 → w.2 = 0 → exec .streamSlotFill s =
        .next (setCmd (listReport (copyArrive w.1 t c code 0) t c.list code 0) t next))) ∧
  (∀ (s : State) (t a n : Nat), a + n ≤ Config.tableArea → (s.tile t).guardBits = [] → s.MemOk → t < 1024 →
    (padSlot s t a n).2 = 0 ∧ ∀ i, i < n → memRead (padSlot s t a n).1.mem (keyScratch t (a + i)) 1 = [0]) ∧
  (∀ (s : State) (c : Copy), let t := s.ev.who
    cmdAt s t s.ev.idx = some c → c.code = 1 → c.started = true → (c.stopped = true ∨ c.pos = c.total) →
    copyBusy s t c.id = false → exec .copyComplete s = .next (endCopy s t c) ∧
    (c.crcOn = false → c.stopped = false → c.cls = 0 → c.checks = false →
      endCopy s t c = delCmd (listReport (copyArrive s t c 0 c.aband) t c.list 0 c.aband) t c.id) ∧
    (c.crcOn = false → c.stopped = true → endCopy s t c = delCmd (listReport (copyArrive s t c c.cls
      (c.aband + abandoned s t c)) t c.list c.cls (c.aband + abandoned s t c)) t c.id)) ∧
  (∀ (s : State) (t : Nat) (c : Copy), c.code = 1 →
    c.sectorsLeft.Nodup ∧ (∀ x, x ∈ c.sectorsLeft ↔ ∃ i, c.pos ≤ i ∧ i < c.total ∧ x = c.dstAt i / 32) ∧
    (c.refused = [] → abandoned s t c = c.sectorsLeft.length)) ∧
  (∀ (s : State) (t : Nat) (c : Copy), copyArrive s t c 0 0 =
    if c.bar = 0 then s else sendWork s t t .none (cmdSlot s t c) (.arrival c.bar 1 false 0 0))

/-- R342, R345, R348, R349: command lists, and the reads of the pacers. -/
def Sys2Proof.Stated.ListsAndPacers : Prop :=
  (∀ (s : State) (c : Copy), let t := s.ev.who
    cmdAt s t s.ev.idx = some c → c.code = 0x10 → c.started = true →
    (listOf s t c.id = none → exec .listStart s = .next (modOut s t (fun o => { o with
      lists := o.lists ++ [⟨c.id, 0, [], ⟨0xFFFFFFFF, false, false⟩, false, 0, 0, false⟩] }))) ∧
    (∀ l s1 b, listOf s t c.id = some l → l.ended = false →
      listPacket s t c l.at_ = .packet s1 b →
      (natAt b 0 1 = 0x11 → exec .listStart s = .next (listLoop s1 t c l b)) ∧
      (natAt b 0 1 = 0x13 → controlOk b 0 false false = true →
        exec .listStart s = .next (modList s1 t c.id (fun l => { l with ended := true }))) ∧
      (natAt b 0 1 < 0x11 → natAt b 1 1 % 2 = 0 → (s1.tile t).out.cmds.length < 256 → exec .listStart s = .next (listCommand s1 t c l b none)))) ∧
  (∀ (s : State) (t : Nat) (c : Copy) (l : CmdList) (b : List Byte), let d := natAt b 8 1
    let n := max 1 (natAt b 24 2)
    let set (f : CmdList → CmdList) : State := modList s t c.id f
    controlOk b 1 false true = true → 0 < d → d ≤ l.at_ →
    (tabFind l.loops l.at_ = none → l.loops.length < 4 → n = 1 →
      listLoop s t c l b = set (fun l => { l with at_ := l.at_ + 1 })) ∧
    (tabFind l.loops l.at_ = none → l.loops.length < 4 → 1 < n →
      listLoop s t c l b = set (fun l => { l with at_ := l.at_ - d, loops := tabSet l.loops l.at_ (n - 2) })) ∧
    (tabFind l.loops l.at_ = none → 4 ≤ l.loops.length → listLoop s t c l b = stopList s t c.id 1) ∧
    (tabFind l.loops l.at_ = some 0 →
      listLoop s t c l b = set (fun l => { l with at_ := l.at_ + 1, loops := tabDel l.loops l.at_ })) ∧
    (∀ k, tabFind l.loops l.at_ = some (k + 1) →
      listLoop s t c l b = set (fun l => { l with at_ := l.at_ - d, loops := tabSet l.loops l.at_ k }))) ∧
  (∀ (s s1 : State) (c : Copy) (l : CmdList) (b : List Byte), let t := s.ev.who
    let a := natAt b 16 8
    cmdAt s t s.ev.idx = some c → listOf s t c.id = some l → l.ended = false →
    (∀ x ∈ (s.tile t).out.cmds, x.list ≠ some c.id) → listPacket s t c l.at_ = .packet s1 b → natAt b 0 1 = 0x12 →
    controlOk b 1 true false = true → a % 8 = 0 → a + 8 ≤ Config.tableArea → staleAt s1 t (some (c.asid, c.gen)) = false →
    guarded s1 (keyScratch t a) 8 = false → injRead s1 (keyScratch t a) = false → poisoned s1 (keyScratch t a) 8 = false →
    l.at_ + 1 + natAt b 8 1 < 4096 → exec .listBranch s = .next (modList s1 t c.id (fun x => { x with
      at_ := l.at_ + 1 + (if natLE (memRead s1.mem (keyScratch t a) 8) = 0 then 0 else natAt b 8 1) }))) ∧
  (∀ (s : State) (c : Copy) (l : CmdList), let t := s.ev.who
    cmdAt s t s.ev.idx = some c → listOf s t c.id = some l → l.ended = true →
    (∀ x ∈ (s.tile t).out.cmds, x.list ≠ some c.id) → ∃ u, exec .listEnd s = .next u ∧
      (∀ x ∈ (u.tile t).out.lists, x.id ≠ c.id) ∧ (∀ x ∈ (u.tile t).out.cmds, x.id ≠ c.id)) ∧
  (∀ (s : State) (v : List Byte), let g := s.ev.who
    let k := s.ev.idx
    let r := (s.ctx g).streams.toList.getD k Stream.idle
    let a := r.addr r.fetched
    ((s.ctx g).st = .run ∨ (s.ctx g).st = .wait) → k < 8 → r.popped < r.count → r.fetched < r.count →
    r.queue.length < 16 → r.idx = false →
    (∀ st, loadBytes s g .plain a r.size r.size (Stage.start 0 s.cycle) = .ok (v, st) →
      exec .pacerRead s = .next ((runActs s g st.acts).1.modCtx g (fun c => setStream c k
        ((c.streams.toList.getD k Stream.idle).enqueue (intPush r.sext (8 * r.size) (natLE v), none))))) ∧
    (∀ f, loadBytes s g .plain a r.size r.size (Stage.start 0 s.cycle) = .error (.fault f) → f.pte = none →
      exec .pacerRead s = .next (s.modCtx g (fun c => setStream c k
        ((c.streams.toList.getD k Stream.idle).enqueue (0, some (f.cause.code, a))))))) ∧
  (∀ (r : Stream) (e : Nat), r.n0 = 1 → (r.addr e : Int) = ((r.base : Int) + e * r.s1) % 2 ^ 64)

/-! ### Vault controllers and the fabric -/

/-- R245-R251, R254, R255, R281, R371, R373, R374: exchanges, heat, repair, retirement and walks.
Readings of the controllers: DEDUCED, logs 32 and 33. Which spare row and which spare tile are taken, when a half
has exhausted its spares, and what a full TLB drops: DESIGN CHOICE, logs 83, 68, 87 and 75. -/
def Obligations.VaultEvents : Prop :=
  (∀ (s : State) (p q ls : Nat) (bar : Option Bar) (r : List Swap), let t := s.ev.who
    let x := s.tile t
    p ≠ q →
    (swapItem s t = none → x.swaps = ⟨p, some q, bar, false, ls⟩ :: r → (remapOf x p).v = true → (remapOf x q).v = true →
      (remapOf x p).layer ≠ (remapOf x q).layer → swapWaits x p = false → swapWaits x q = false →
      ∃ u, exec .cableSwapStart s = .next u ∧ (remapOf (u.tile t) p).busy = true ∧ (remapOf (u.tile t) q).busy = true ∧
        (u.tile t).swaps = ⟨p, some q, bar, true, ls⟩ :: r ∧ u.mem = s.mem) ∧
    (x.swaps = ⟨p, some q, bar, true, ls⟩ :: r → ∃ u, exec .cableSwapComplete s = .next u ∧ (u.tile t).swaps = r ∧
      u.mem = s.mem ∧
      remapOf (u.tile t) p = { remapOf x p with
        layer := (remapOf x q).layer, slot := (remapOf x q).slot, busy := false } ∧
      remapOf (u.tile t) q = { remapOf x q with
        layer := (remapOf x p).layer, slot := (remapOf x p).slot, busy := false } ∧
      ∀ z, z ≠ p → z ≠ q → remapOf (u.tile t) z = remapOf x z)) ∧
  (∀ (s : State) (id : Nat) (k : Packet) (w : Swap), let t := s.ev.who
    swapItem s t = some (id, k, w) → pktStale s k = false → (s.tile t).swaps = [] → (remapOf (s.tile t) w.p).v = false → w.q = none →
    w.busy = false → w.bar ≠ none → ∃ u, exec .cableSwapStart s = .next u ∧ (u.tile t).swaps = [] ∧
      (u.tile t).remap = (s.tile t).remap) ∧
  (∀ s : State, ∃ u, exec .refresh s = .next u ∧ u.mem = s.mem ∧ u.ctxs = s.ctxs ∧ u.pkts = s.pkts) ∧
  (∀ s : State, let t := s.ev.who
    let x := s.tile t
    let n := thermalNext x.thermal s.ev.idx
    exec .thermalSample s = .next (if n = x.thermal then s.setTile t { x with dramTemp := s.ev.idx, thermal := n }
      else logAt (countEvent (s.setTile t { x with dramTemp := s.ev.idx, thermal := n }) t 2) 7 2 t 0 s.ev.idx n.num) ∧
    (95 ≤ s.ev.idx → n = .hold) ∧ (s.ev.idx < 85 → x.thermal = .throttle → n = .normal) ∧
    (s.ev.idx < 90 → x.thermal = .hold → n = .throttle) ∧ (90 ≤ s.ev.idx → x.thermal = .hold → n = .hold) ∧
    (85 ≤ s.ev.idx → s.ev.idx < 95 → x.thermal ≠ .hold → n = .throttle) ∧ (s.ev.idx < 85 → x.thermal = .normal → n = .normal)) ∧
  (∀ (s : State), let t := s.ev.who
    let k := keyScratch t (s.ev.idx / 128 * 128)
    s.ev.idx < 2 ^ 21 → injRead s k = false → poisoned s k 128 = false →
    (s.ev.val = 0 → exec .scrubRead s = .next s) ∧
    (s.ev.val = 1 → t < 2 ^ 19 → exec .scrubRead s = .next ((logAt s 0x0C 0 t 0 k 0).modTile t
      (fun x => { x with fixes := x.fixes + 1 }))) ∧
    (s.ev.val = 2 → exec .scrubRead s = .next (lineFound (setPoison s (keyScratch t (s.ev.idx / 16 * 16)) 16) k 128))) ∧
  (∀ (s : State) (k : Nat), let u := if isVault k then 32 else 16
    let b := k / u * u
    ownerTag s k / 1024 % 4 = 0 → poisoned s b u = true →
    (∀ i, i < u → memRead (poisonFound s k).mem (b + i) 1 = [0]) ∧
    (∀ x, (x < b ∨ b + u ≤ x) → memRead (poisonFound s k).mem x 1 = memRead s.mem x 1)) ∧
  (∀ (s : State) (r : Machine.Row), let t := s.ev.who
    (s.tile t).repair = some r → (∀ e ∈ (s.tile t).corrected, e.1 = r) → ∃ u, exec .rowRepairComplete s = .next u ∧
      (u.tile t).repair = none ∧ (u.tile t).retired = (r, nextSpare (s.tile t) r) :: (s.tile t).retired ∧
      (u.tile t).corrected = [] ∧
      u.mgmt.logWait = s.mgmt.logWait ++ [logEntry 7 0 t 0 0 0 0 0 0 0 0 (r.layer + 2 ^ 8 * r.bank + 2 ^ 16 * r.row) s.cycle]) ∧
  (∀ s : State, let t := s.ev.who
    let g := s.ev.idx % 16
    let x := (countEvent s t 7).tile t
    let n := x.spare.getD g 0
    (s.ev.flag = false → exec .vaultBusParityError s = .next (countEvent s t 7)) ∧
    (s.ev.flag = true → 0 < n → exec .vaultBusParityError s =
      .next ((countEvent s t 7).setTile t { x with spare := x.spare.set g (n - 1) })) ∧
    (s.ev.flag = true → n = 0 → x.badHalf = none → exec .vaultBusParityError s =
      .next (logAt ((countEvent s t 7).setTile t { x with badHalf := some (g / 8) }) 7 3 t 0 0 g)) ∧
    (∀ h, s.ev.flag = true → n = 0 → x.badHalf = some h → h ≠ g / 8 → x.offline = false →
      ∃ u, exec .vaultBusParityError s = .next u ∧ (u.tile t).offline = true)) ∧
  (∀ (s : State) (p : Nat), let t := s.ev.who
    let e := mapEntry s t
    (s.tile t).offline = true → tileQuiet s t = true → t < 1024 → e.getLsbD 15 = true → s.tileMap.length = 4 →
    (∀ l ∈ s.tileMap, l.length = 256) → let b := (stackOf t, fld e 0 9) :: s.mgmt.badTiles
    unusedPhys { s with mgmt := { s.mgmt with badTiles := b } } (stackOf t) = some p →
    ∃ u, exec .tileRetire s = .next u ∧ mapEntry u t = BitVec.ofNat 16 (0x8000 + p) ∧ (u.tile t).offline = false ∧
      u.mem = s.mem ∧ ∀ v, v < 1024 → v ≠ t → mapEntry u v = mapEntry s v) ∧
  (∀ s : State, let t := s.ev.who
    let a := s.ev.idx
    genV (genEntry s t a) = true → a < 256 →
    (∀ e, walk s t a s.ev.val = .leaf e false → ∃ u, exec .tlbWalk s = .next u ∧
      (∃ y, (u.tile t).tlb.head? = some y ∧ y.asid = a ∧ y.big = false ∧ y.page = s.ev.val / 65536 ∧ y.leaf = e ∧
        y.igen = igen (genEntry s t a)) ∧ (u.tile t).tlb.length ≤ 4096 ∧ u.mem = s.mem) ∧
    ((∀ e b, walk s t a s.ev.val ≠ .leaf e b) → ∃ u, exec .tlbWalk s = .next u ∧ (u.tile t).tlb = (s.tile t).tlb ∧
      u.mem = s.mem))

/-- R350-R357, R360-R364, R404, R414, R415: packets on the rounds and in the Clos, links, their arrival in
order, ACK, NACK and loss.
What is lost: DEDUCED, log 21. When a pcyc of a round passes: DESIGN CHOICE, log 84. Flits at an armed port:
DEDUCED, log 76. -/
def Obligations.FabricEvents : Prop :=
  (∀ (s0 : State) (p : Packet), let id := s0.ev.who
    let s := crossPort s0 p.src
    s0.pkt id = some p → p.place = .source → mayInject s0 id p = true → p.src = p.dst → canEject s (p.stamp s) = true →
    exec .packetInject s0 = .next (s.setPkt id { (p.stamp s).allAt .ejected with place := .ejected })) ∧
  (∀ (s : State) (p : Packet), let id := s.ev.who
    let q := p.stamp s
    let cw := dirOf s q
    let cl := clusterOf p.src
    let l := onRound s cl cw
    let r := s.ring cl cw
    s.pkt id = some p → p.place = .source → mayInject s id p = true → p.src ≠ p.dst → p.src < 1024 → p.dst < 1024 →
    cl = clusterOf p.dst → vcFree r l id q cw (stopOf p.src) = true → roomAt r l (stopOf p.src) = true →
    stopOf p.src ∉ r.injected →
    exec .packetInject s = .next (countPerf ((noteInjected s id q cw 0).setPkt id
      { q.moved s 0 (.pool (stopOf p.src) 0) with place := .round cw none }) p.src 4 1)) ∧
  (∀ (s : State) (p : Packet), let id := s.ev.who
    let q := p.stamp s
    let x := leafInput p.src
    s.pkt id = some p → p.place = .source → mayInject s id p = true → p.src ≠ p.dst → q.local? = false →
    p.flits.length ≤ closFree s x (p.cls == 15) → leafLink p.src ∉ s.deadLinks → s.mgmt.inject.getLsbD 63 = false →
    s.ev.flag = false →
    (s.ev.val = 0 → ∃ u, exec .packetInject s = .next u ∧ u.pkt id = some { q with place := x } ∧ u.mem = s.mem) ∧
    (s.ev.val ≠ 0 → headerOk (headerWord q ^^^ s.ev.val) = false → ∃ u y, exec .packetInject s = .next u ∧
      u.pkt id = some y ∧ y.place = .lost ∧ (∃ e, u.mgmt.logWait = s.mgmt.logWait ++ [e] ∧ natAt e 0 1 = 4) ∧
      ∃ a ∈ u.answers, a.ack = false ∧ a.pkt = id)) ∧
  (∀ (s : State) (p : Packet), s.pkt s.ev.who = some p → p.place = .source → p.after ≠ none →
    exec .packetInject s = .next s) ∧
  (∀ (s : State) (link t who : Nat), s.mgmt.inject.getLsbD 63 = false → let n := tabGet 0 s.mgmt.replays (100 + link)
    (link ∈ s.deadLinks → crossFlit s link t who = .down) ∧
    (link ∉ s.deadLinks →
      (s.ev.flag = false → ∃ u, crossFlit s link t who = .ok u ∧ u.pkts = s.pkts) ∧
      (∀ i, s.ev.flag = true → n = 16 * who + i → i < 8 → ∃ u, crossFlit s link t who = .retry u ∧
        tabGet 0 u.mgmt.replays (100 + link) = 16 * who + (i + 1) ∧ u.deadLinks = s.deadLinks) ∧
      (s.ev.flag = true → n = 16 * who + 8 → ∃ u, crossFlit s link t who = .broken u ∧ link ∈ u.deadLinks))) ∧
  (∀ p : Packet, ∀ s : State, (p.stamp s).ts = (if p.stamped = true then p.ts else ageNow s) ∧ (p.stamp s).seq = p.seq) ∧
  (∀ (s : State) (p : Packet) (cw : Bool) (esc : Option Nat) (st v : Nat), let id := s.ev.who
    let i := s.ev.idx
    let cl := clusterOf p.src
    let l := onRound s cl cw
    s.pkt id = some p → p.place = .round cw esc → p.flits[i]? = some (.pool st v) →
    (mayHop s l id p cw st i = true → winner s l id p cw st = true → s.mgmt.inject.getLsbD 63 = false →
      s.ev.flag = false → s.ev.val = 0 → ∃ u, exec .flitAdvance s = .next u ∧
        u.pkt id = some (p.moved s i (hopTo s p cw st i)) ∧ st ∈ (u.ring cl cw).links ∧ (id, i) ∈ (u.ring cl cw).moved) ∧
    ((id, i) ∉ (s.ring cl cw).moved → st = stopOf p.dst → canEject s p = true →
      exec .flitAdvance s = .next ((leavePool s id p cw st i).setPkt id (p.moved s i .ejected))) ∧
    ((id, i) ∈ (s.ring cl cw).moved → pcycOpen s cl cw = false → escCrossing s cl cw = none →
      exec .flitAdvance s = .next (endPcyc s cl cw))) ∧
  (∀ (s : State) (cl : Nat) (cw : Bool), let r := s.ring cl cw
    let u := endPcyc s cl cw
    (∀ id p esc, s.pkt id = some p → p.place = .round cw esc → clusterOf p.src = cl → u.pkt id = some (p.passed r cw id)) ∧
    (u.ring cl cw).moved = [] ∧ (u.ring cl cw).links = [] ∧ (u.ring cl cw).freed = [] ∧ (u.ring cl cw).slots = r.turned cw ∧
    (∀ st, st < 8 → tabGet 0 (u.ring cl cw).refused st = if escRefused s cl st cw = true then tabGet 0 r.refused st + 1 else 0) ∧
    u.mem = s.mem ∧ u.tiles = s.tiles ∧ u.ctxs = s.ctxs) ∧
  (∀ (r : Ring) (cw : Bool) (id : Nat) (p : Packet) (st v : Nat), p.flits.head? = some (.pool st v) →
    (p.passed r cw id).flits.head? = some (.pool st v) ∧
    ((id, 0) ∉ r.moved → (p.passed r cw id).waited = p.waited + 1) ∧ ((id, 0) ∈ r.moved → (p.passed r cw id).waited = p.waited)) ∧
  (∀ (s : State) (p : Packet) (cw : Bool) (st v : Nat) (r : List FlitPos), let id := s.ev.who
    let cl := clusterOf p.src
    let l := onRound s cl cw
    s.pkt id = some p → p.place = .round cw none → p.flits = .pool st v :: r → st ≠ stopOf p.dst → escLimit s p ≤ p.waited →
    escOpen (s.ring cl cw) l st = true → ∃ u, exec .escapeEnter s = .next u ∧
      (∃ q, u.pkt id = some q ∧ q.flits = .escape st :: r ∧ q.place = .round cw (some st)) ∧
      st ∉ (u.ring cl cw).claims ∧ st ∈ (u.ring cl cw).entered) ∧
  (∀ s : State, let r := s.ring s.ev.who s.ev.flag
    let st := s.ev.idx
    (st ∉ r.claims → (∀ e ∈ r.slots, e.2 ≠ st) → 8 ≤ tabGet 0 r.refused st → exec .escapeSlotReserve s =
      .next (s.modRing s.ev.who s.ev.flag (fun r => { r with claims := st :: r.claims }))) ∧
    (tabGet 0 r.refused st < 8 → exec .escapeSlotReserve s = .next s)) ∧
  (∀ (s : State) (p : Packet) (cw : Bool) (esc : Option Nat) (r : List FlitPos), let id := s.ev.who
    let s1 := s.modRing (clusterOf p.src) cw (fun x => { x with emptied := stopOf p.dst :: x.emptied })
    s.pkt id = some p → p.place = .round cw esc → p.flits = .escape (stopOf p.dst) :: r →
    (escBuffer s p.dst + p.flits.length ≤ 8 → exec .escapeArrival s = .next (s1.setPkt id (p.moved s 0 .ejected))) ∧
    (8 < escBuffer s p.dst + p.flits.length → exec .escapeArrival s = .next (lose s1 id p.dst true))) ∧
  (∀ (s : State) (p : Packet) (cw : Bool) (esc : Option Nat) (st : Nat), let id := s.ev.who
    let cl := clusterOf p.src
    s.pkt id = some p → p.place = .round cw esc → p.flits[s.ev.idx]? = some (.escape st) → st ≠ stopOf p.dst →
    pcycOpen s cl cw = false → escLink cl st cw ∉ s.deadLinks → s.mgmt.inject.getLsbD 63 = false →
    s.ev.flag = false → s.ev.val = 0 → ∃ u, exec .flitAdvance s = .next u ∧ u.pkts = (endPcyc s cl cw).pkts) ∧
  (∀ (s : State) (p : Packet), let id := s.ev.who
    s.pkt id = some p →
    (closHop s p = .leaf → canEject s p = true → closContended s id p .leaf = false → leafDown p.dst ∉ s.deadLinks →
      s.mgmt.inject.getLsbD 63 = false → s.ev.flag = false → s.ev.val = 0 → ∃ u, exec .closForward s = .next u ∧
      u.pkt id = some { (p.allAt .ejected).aged s with place := .ejected, since := s.cycle }) ∧
    (∀ x link, closHop s p = .input (x, link) → p.flits.length ≤ closFree s x (p.cls == 15) →
      closContended s id p (.input (x, link)) = false → link ∉ s.deadLinks → s.mgmt.inject.getLsbD 63 = false →
      s.ev.flag = false → s.ev.val = 0 → ∃ u, exec .closForward s = .next u ∧
      u.pkt id = some { p.aged s with place := x, since := s.cycle }) ∧
    (∀ x y, waitsFor s p = some x → urgent s p.cls = true → p.cls ≠ 15 → closFree s x false < p.flits.length →
      youngestIn s x = some y → exec .closEvict s = .next (lose s y p.src false)) ∧
    (waitsToEject s p = true → exec .ejectTimeout s = .next (lose (s.setPkt id (p.stamp s)) id p.dst true))) ∧
  (∀ (s0 : State) (p : Packet), let id := s0.ev.who
    let s := crossPort s0 p.dst
    s0.pkt id = some p → p.place = .ejected →
    (isNext s id p = true → exec .packetArrival s0 = .next (pullEarly (accept s id p) p.src p.dst 32)) ∧
    (isNext s id p = false → earlyHeld s p.dst < 32 → exec .packetArrival s0 = .next (s.setPkt id { p with place := .early })) ∧
    (isNext s id p = false → 32 ≤ earlyHeld s p.dst → exec .packetArrival s0 = .next (lose s id p.dst false))) ∧
  (∀ (s : State) (a : Answer) (p : Packet), let k := s.ev.who
    s.answers[k]? = some a → s.pkt a.pkt = some p → a.place = .here → (∀ t n, p.owner ≠ .matrix t n) →
    (a.ack = true → a.fail = none → exec .ackArrival s =
      .next (releaseAfter { s with answers := dropAt s.answers k, pkts := tabDel s.pkts a.pkt } a.pkt)) ∧
    (∀ n st pf g, a.ack = true → a.fail = some (st, pf) → p.owner = .act n → n ≠ 0 → (s.ctx g).act = n →
      ∃ u, exec .ackArrival s = .next u ∧ (u.ctx g).fail = (s.ctx g).fail ++ [(st, pf, p.dst)]) ∧
    (a.ack = false → (a.noEject = true ∨ p.resends < 16) → ∃ u q, exec .nackArrival s = .next u ∧ u.pkt a.pkt = some q ∧ q.place = .source ∧ q.resent = true ∧
      q.seq = p.seq ∧ q.ts = p.ts ∧ q.work = p.work ∧ q.resends = p.resends + (if a.noEject = true then 0 else 1)) ∧
    (a.ack = false → a.noEject = false → 16 ≤ p.resends → exec .nackArrival s = .next (losePacket s a.pkt p))) ∧
  (∀ (s : State) (id n : Nat) (q : Packet), s.pkt n = some q → q.after = some id →
    (releaseAfter s id).pkt n = some { q with after := none }) ∧
  (∀ (s : State) (a : Answer), let k := s.ev.who
    let cw := decide ((stopOf a.dst + 8 - stopOf a.src) % 8 ≤ 4)
    s.answers[k]? = some a → a.place = .sender → a.src ≠ a.dst → a.src < 1024 → a.dst < 1024 →
    clusterOf a.src = clusterOf a.dst → ackSlotFree s (clusterOf a.src) cw (stopOf a.src) = true →
    let u := setAnswer s k a (.ring (clusterOf a.src) cw (stopOf a.src))
    (a.ack = true → exec .ackArrival s = .next u) ∧ (a.ack = false → exec .nackArrival s = .next u)) ∧
  (∀ (s : State) (p : Packet), let id := s.ev.who
    s.pkt id = some p → p.place ≠ .done → id < s.nextPkt → ∃ u, exec .packetResendTimeout s = .next u ∧ u.pkt id = none) ∧
  (∀ (s : State) (p : Packet) (n g : Nat) (c : Ctx) (l : List (Nat × Ctx)), p.owner = .act n → n ≠ 0 →
    s.ctxs = (g, c) :: l → c.act = n → c.isTwin = false → (c.st = .run ∨ c.st = .wait ∨ c.st = .saved) →
    lostPacket s p = endKilled (s.modCtx g (fun c => { c with lost := c.lost + (if p.counted = true then 0 else 1) })) g
      ⟨Cause.timeout.code, c.lastBundle, 0, 0, c.sys⟩) ∧
  (∀ (s : State) (p q : Packet) (n : Nat), s.pkt n = some q → q.effect = p.effect →
    ∃ x, (loseEffect s p).pkt n = some x ∧ x.counted = true) ∧
  (∀ (s : State) (p : Packet), p.owner = .none →
    ∃ e, (lostPacket s p).mgmt.logWait = s.mgmt.logWait ++ [e] ∧ natAt e 0 1 = 0x0D)

/-! ### Lifeline controllers -/

/-- The controller `ev.who` takes the request `r` with this opcode and OP; `s1` is the state without it
in its queue (R393). No exchange or repair holds a page of the controller (R246, R249). -/
def Sys2Proof.Stated.Takes (s s1 : State) (opc op : Nat) (r : LifeReq) : Prop :=
  ∃ rest, (lifeAt s s.ev.who).queue = r :: rest ∧ r.opc = opc ∧ r.op = op ∧ s.ev.who < 4 ∧
    lifeStalls s s.ev.who = false ∧
    s1 = setLife s s.ev.who { lifeAt s s.ev.who with queue := rest }

/-- R379-R393: entry, the five operations at a controller, and the reply at the issuing tile.
Readings of the controllers: DEDUCED, log 35. -/
def Obligations.LifelineEvents : Prop :=
  (∀ (s : State) (id : Nat) (p : Packet) (r : LifeReq), let e := (s.ev.who + 2) % 4
    item s s.ev.who s.ev.idx = some (id, p) → p.work = .lifeline r → requestBefore s s.ev.who s.ev.idx = false →
    (1026 ≤ p.src → p.src < 1030 → exec .lifelineEntryRequest s = .next (queueLife (finish s id none) e r)) ∧
    (p.src < 1024 → (lifeAt s e).queue ≠ [] → exec .lifelineEntryRequest s = .next s) ∧
    (p.src < 1024 → (lifeAt s e).queue = [] → r.opc = 0xF6 → exec .lifelineEntryRequest s = .next (queueLife (finish s id none) e r)) ∧
    (p.src < 1024 → (lifeAt s e).queue = [] → r.opc = 0xF3 → treeOf (finish s id none) e r = none →
      exec .lifelineEntryRequest s = .next (lifeFail (finish s id none) e r 6 false)) ∧
    (∀ t s1 b, p.src < 1024 → (lifeAt s e).queue = [] → r.opc = 0xF3 → treeOf (finish s id none) e r = some t → t.chunk ≤ r.count →
      lifeRead (finish s id none) r r.sym (4 * t.chunk) = .ok s1 b →
      exec .lifelineEntryRequest s = .next (routeLife s1 e (fnvBytes 0xCBF29CE484222325 b / 2 ^ 62) r))) ∧
  (∀ (s s1 : State) (r : LifeReq), let q := s.ev.who
    Takes s s1 0xF3 0 r →
    (treeOf s1 q r = none → exec .lfindPerform s = .next (lifeFail s1 q r 6 false)) ∧
    (∀ t s2 b, treeOf s1 q r = some t → lifeRead s1 r r.sym (r.count / t.chunk * (4 * t.chunk)) = .ok s2 b →
      let ks := chunkKeys (4 * t.chunk) (r.count / t.chunk) b
      let m := walkTree s2 q r.tree (4 * t.chunk) ks b ⟨none, 0, false⟩
      let s3 := countLife (countLife (countLife (touchWalk s2 q r.tree (4 * t.chunk) ks b) q r.tree 0 1) q r.tree 1 m.depth) q r.tree 2 m.collision.toNat
      let st := if m.collision = true then 3 else 0
      (m.node = none → exec .lfindPerform s = .next (lifeFail (tickLife s3 q) q r st false)) ∧
      (∀ i x, m.node = some i → tabFind (lifeAt s3 q).nodes i = some x → pinPath s3 q r.lslot i = none →
        exec .lfindPerform s = .next (lifeAnswer (tickLife s3 q) q r 5 false (nodeResult 5 t q i x 0 false))) ∧
      (∀ i x pin s4, m.node = some i → tabFind (lifeAt s3 q).nodes i = some x → pinPath s3 q r.lslot i = some (pin, s4) →
        exec .lfindPerform s = .next (lifeAnswer (tickLife s4 q) q r st false (nodeResult st t q i x pin true))))) ∧
  (∀ (s s1 s2 s3 : State) (r : LifeReq) (t : Tree) (b snap : List Byte), let q := s.ev.who
    Takes s s1 0xF4 0 r → treeOf s1 q r = some t → lifeRead s1 r r.sym (4 * r.count) = .ok s2 b →
    lifeRead s2 r (natAt r.block 16 8) (if natAt r.block 13 1 = 3 then 128 else natAt r.block 24 4) = .ok s3 snap →
    (natAt r.block 13 1 = 3 → listOk snap (natAt r.block 24 4) = true) →
    exec .lputPerform s = .next (putStep s3 q r t b snap)) ∧
  (∀ (s : State) (q : Nat) (r : LifeReq) (t : Tree) (b snap : List Byte), let n := 4 * t.chunk
    let j := r.count / t.chunk
    let ks := chunkKeys n j b
    let m := walkTree s q r.tree n (ks.take (j - 1)) b ⟨none, 0, false⟩
    let w := touchWalk s q r.tree n ks b
    m.collision = false → m.depth + 1 = j →
    (∀ i x, (lifeAt w q).find r.tree (ks.getD (j - 1) 0) = some (i, x) →
      memRead w.mem (poolKey w q x.syms) n = b.drop ((j - 1) * n) →
      putStep s q r t b snap = lifeAnswer (countLife (tickLife w q) q r.tree 4 1) q r 1 false (nodeResult 1 t q i x 0 true)) ∧
    (∀ s1 p, (lifeAt w q).find r.tree (ks.getD (j - 1) 0) = none →
      makeRoom w q r.tree t.nmax n snap.length m.node (2 ^ 20 + 1) = (s1, some p) →
      let c := createNode s1 q r m.node (ks.getD (j - 1) 0) j p (b.drop ((j - 1) * n)) snap
      putStep s q r t b snap =
        lifeAnswer (countLife (tickLife c.1 q) q r.tree 3 1) q r 0 false (nodeResult 0 t q c.2.1 c.2.2 0 true))) ∧
  (∀ (s s1 : State) (r : LifeReq), let q := s.ev.who
    Takes s s1 0xF5 0 r →
    (r.pin = 0 → exec .lrelPerform s = .next (lifeFail s1 q r 0 false)) ∧
    (r.pin ≠ 0 → (lifeAt s1 q).holds r.pin r.lslot = true → exec .lrelPerform s =
      .next (lifeFail (setLife s1 q ((lifeAt s1 q).unpin (r.pin % 4096))) q r 0 false)) ∧
    (r.pin ≠ 0 → (lifeAt s1 q).holds r.pin r.lslot = false → exec .lrelPerform s = .next (lifeFail s1 q r 10 false))) ∧
  (∀ (s s1 : State) (r : LifeReq), let q := s.ev.who
    (Takes s s1 0xF6 0 r → treeOf s1 q r ≠ none → exec .lstatReadPerform s = .next (lifeAnswer s1 q r 0 false
      ((List.range 8).flatMap (fun i => bytesLE 8 ((s1.life.map (fun l => (l.report r.tree).getD i 0)).sum % 2 ^ 64))))) ∧
    (Takes s s1 0xF6 1 r → tabFind (lifeAt s1 q).trees r.tree = none → exec .lstatConfigPerform s =
      .next (lifeAnswer { s1 with life := s1.life.map (fun l => { l with
        trees := tabSet l.trees r.tree (treeFrom r.block), stats := tabDel l.stats r.tree }) } q r 0 false (bytesLE 1 0))) ∧
    (Takes s s1 0xF6 1 r → (tabFind (lifeAt s1 q).trees r.tree).isSome = true →
      exec .lstatConfigPerform s = .next (lifeAnswer s1 q r 9 false (bytesLE 1 9))) ∧
    (Takes s s1 0xF6 2 r → treeOf s1 q r ≠ none → (∀ l ∈ s1.life, (l.report r.tree).getD 7 0 = 0) →
      ∃ u, exec .lstatClosePerform s = .next u ∧ ∀ l ∈ u.life, tabFind l.trees r.tree = none) ∧
    (Takes s s1 0xF6 2 r → treeOf s1 q r ≠ none → (∃ l ∈ s1.life, (l.report r.tree).getD 7 0 ≠ 0) →
      exec .lstatClosePerform s = .next (lifeAnswer s1 q r 9 false (bytesLE 1 9)))) ∧
  (∀ (s : State) (id st cls : Nat) (p : Packet) (r : LifeReq) (data : List Byte), let t := s.ev.who
    item s t s.ev.idx = some (id, p) → p.work = .lifeReply r st cls data → r.keyed = none →
    guarded s (keyScratch t r.l) data.length = false → exec .lifelineReply s =
      .next (sendArrival (arrayStore (finish s id none) (keyScratch t r.l) data 0) t r.lslot r.bar (cls != 0) cls 0)) ∧
  (∀ (s : State) (id st cls n : Nat) (p : Packet) (r : LifeReq) (data : List Byte) (l : Launch),
    item s s.ev.who s.ev.idx = some (id, p) → p.work = .lifeReply r st cls data → r.keyed = some n →
    s.launch n = some l → exec .lifelineReply s = .next ((finish s id none).setLaunch n { l with
      lookup := if st < 4 then data else data.take 4 ++ List.replicate 4 0 ++ data.drop 8 })) ∧
  (∀ (q va : Nat) (n : Node), let b := nodeBytes q va n
    b.length = 64 ∧ natAt b 0 8 = n.key.toNat ∧ natAt b 12 4 = n.depth % 2 ^ 32 ∧ natAt b 16 1 = (if n.pages = true then 3 else 2) ∧
      natAt b 20 4 = n.nchild % 2 ^ 32 ∧ natAt b 24 4 = n.refs % 2 ^ 32 ∧ natAt b 28 4 = n.stamp % 2 ^ 32) ∧
  (∀ (s : State) (q i : Nat) (l : Lifeline) (b : List Byte), let base := s.nodeAreas.getD q 0
    base ≠ 0 → nodeWrites q (lifeAt s q) l = [(i, b)] → b.length = 64 → s.MemOk → pageOff s (base + 64 * i) = false →
    memRead (setLife s q l).mem (base + 64 * i) 64 = b)

/-! ### Host and management -/

/-- R417, R419, R422, R424: accesses from outside, the mailbox registers and the error log.
Readings of the host interface: DEDUCED, log 38. An access while the module is not booted: DESIGN CHOICE, log
69. -/
def Obligations.HostAccess : Prop :=
  (∀ s : State, let o := s.ev.idx
    let k := keyVault (o / 2 ^ 29) (o / 2 ^ 16 % 8192) (o % 2 ^ 16)
    let m := min s.ev.val (64 - o % 64)
    o < 2 ^ 39 → 0 < m →
    ((s.booted = false ∨ s.mgmt.power = .sleep) → ∃ u, exec .hdmRead s = .next u ∧ u.mgmt.busError = true ∧ u.mem = s.mem ∧
      u.tiles = s.tiles) ∧
    (s.booted = true → s.mgmt.power ≠ .sleep →
    (pageOff s k = false → stalled s k = false → injRead s k = false → poisoned s k m = false → exec .hdmRead s =
      .next { touchPage s k m with mgmt := { (touchPage s k m).mgmt with busReply := visRead s k m, busError := false } }) ∧
    (pageOff s k = true → ∃ u, exec .hdmRead s = .next u ∧ u.mgmt.busError = true ∧ u.mem = s.mem))) ∧
  (∀ s : State, let o := s.ev.idx
    let k := keyVault (o / 2 ^ 29) (o / 2 ^ 16 % 8192) (o % 2 ^ 16)
    let w := s.ev.bytes.take (min s.ev.bytes.length (64 - o % 64))
    o < 2 ^ 39 → s.ev.bytes ≠ [] →
    ((s.booted = false ∨ s.mgmt.power = .sleep) → ∃ u, exec .hdmWrite s = .next u ∧ u.mgmt.busError = true ∧ u.mem = s.mem ∧
      u.tiles = s.tiles) ∧
    (s.booted = true → s.mgmt.power ≠ .sleep →
    (pageOff s k = false → stalled s k = false → ∃ u, exec .hdmWrite s = .next u ∧ visRead u k w.length = w ∧
      u.mgmt.busError = false) ∧
    (pageOff s k = true → ∃ u, exec .hdmWrite s = .next u ∧ u.mem = s.mem ∧ u.tiles = s.tiles ∧
      u.mgmt.logWait.length = s.mgmt.logWait.length + 1))) ∧
  (∀ s : State, let p := s.ev.who
    p < 8 →
    ((s.mgmt.peerMask.testBit p = false ∨ p ∈ s.mgmt.portDown) → ∃ u, exec .peerInboundAccess s = .next u ∧
      u.mgmt.busError = true ∧ u.mem = s.mem ∧ u.tiles = s.tiles) ∧
    (s.mgmt.peerMask.testBit p = true → p ∉ s.mgmt.portDown →
      (s.ev.flag = false → exec .peerInboundAccess s = exec .hdmRead s) ∧
      (s.ev.flag = true → s.ev.flag2 = false → exec .peerInboundAccess s = exec .hdmWrite s) ∧
      (∀ s1 s2, s.ev.flag = true → s.ev.flag2 = true → outsideRead s s.ev.idx 8 = some s1 → s1.mgmt.busError = false →
        s.ev.idx % 8 = 0 → outsideWrite s1 s.ev.idx
          (bytesLE 8 ((natLE s1.mgmt.busReply + natLE s.ev.bytes) % 2 ^ 64)) = some s2 →
        exec .peerInboundAccess s = .next { s2 with mgmt := { s2.mgmt with
          busReply := bytesLE 8 (natLE s1.mgmt.busReply), busError := false } }))) ∧
  (∀ s : State, let p := s.ev.who
    let k := xaoldKey p s.ev.idx
    let n := tabGet 0 s.mgmt.replays k
    p < 8 → p ∉ s.mgmt.portDown → s.mgmt.inject.getLsbD 63 = false →
    (n < 16 → exec .xaoldFlitError s = .next { s with mgmt := { s.mgmt with replays := tabSet s.mgmt.replays k (n + 1) } }) ∧
    (16 ≤ n → ∃ u, exec .xaoldFlitError s = .next u ∧ p ∈ u.mgmt.portDown ∧
      ∀ id q, s.pkt id = some q → q.dst = 1032 + p → q.place = .inbox → ∃ q', u.pkt id = some q' ∧ q'.place = .lost)) ∧
  (∀ s : State, ∃ u, exec .mailboxRegisterWrite s = .next u ∧ u.mem = s.mem ∧ u.mgmt.mbStatus = s.mgmt.mbStatus ∧
    (∀ b, s.ev.who = 8 → s.ev.bytes.head? = some b →
      u.mgmt.go = (s.mgmt.go || (!s.mgmt.mbStatus.getLsbD 0 && b.getLsbD 0))) ∧
    (s.ev.who = 0 → s.ev.bytes.length = 8 → u.mgmt.mbCmd = BitVec.ofNat 64 (natLE s.ev.bytes % 2 ^ 44)) ∧
    (∀ b i, s.ev.who = 0x100 + i → i < 3840 → s.ev.bytes = [b] → storeWf 0 s.mgmt.mbBuf = true → s.mgmt.mbCmd.toNat < 2 ^ 44 →
      storeGet 0 u.mgmt.mbBuf i = b ∧ u.mgmt.mbCmd = s.mgmt.mbCmd ∧
      ∀ j, j ≠ i → storeGet 0 u.mgmt.mbBuf j = storeGet 0 s.mgmt.mbBuf j)) ∧
  (∀ m : Mgmt, bar0Read m 0 8 = bytesLE 8 m.mbCmd.toNat ∧ bar0Read m 8 8 = List.replicate 8 0 ∧
    (m.go = false → bar0Read m 0x10 8 = bytesLE 8 m.mbStatus.toNat) ∧
    (m.go = true → bar0Read m 0x10 8 = bytesLE 8 (m.mbStatus ||| 1#64).toNat) ∧
    (∀ i, i < 3840 → bar0Read m (0x100 + i) 1 = [storeGet 0 m.mbBuf i]) ∧
    (∀ o, (0x18 ≤ o ∧ o < 0x100 ∨ 0x1000 ≤ o) → bar0Read m o 1 = [0])) ∧
  (∀ (s : State) (e : List Byte) (r : List (List Byte)), s.mgmt.logWait = e :: r → s.mgmt.kills = [] →
    s.mgmt.log.length < 4096 →
    exec .errorLogPost s = .next { s with mgmt := { s.mgmt with
      log := s.mgmt.log ++ [e], logWait := r, msix1 := s.mgmt.msix1 + 1 } }) ∧
  (∀ (s : State) (act : Nat) (e : List Byte), s.mgmt.logWait = [] → s.mgmt.kills = [(act, e)] → s.mgmt.log.length < 4096 →
    (actFlying s act = true → exec .errorLogPost s = .next s) ∧
    (actFlying s act = false → ∃ u, exec .errorLogPost s = .next u ∧ u.mgmt.log = s.mgmt.log ++ [e] ∧ u.mgmt.kills = [])) ∧
  (∀ (s : State) (e : List Byte), let u := postLog s e
    u.mgmt.log = s.mgmt.log ∧ u.mgmt.logWait = s.mgmt.logWait ++ [e] ∧ u.mem = s.mem)

/-- GO with this code is taken: not BUSY, booted, and LEN at least `need` (R420, R421). -/
def Sys2Proof.Stated.Commands (s : State) (opc need : Nat) : Prop :=
  s.mgmt.go = true ∧ s.mgmt.mbStatus.getLsbD 0 = false ∧ fld s.mgmt.mbCmd 0 16 = opc ∧ s.booted = true ∧
    need ≤ fld s.mgmt.mbCmd 32 12 ∧ fld s.mgmt.mbCmd 32 12 ≤ 3840

/-- A command has completed: its result bytes, MB_STATUS with its TAG, and vector 0 (R420). -/
def Sys2Proof.Stated.completed (s : State) (tag result : Nat) (out : List Byte) : State :=
  { s with mgmt := { s.mgmt with
    mbBuf := storeWrite (0 : Byte) s.mgmt.mbBuf 0 out, mbStatus := BitVec.ofNat 64 (tag * 2 ^ 16 + result * 2 ^ 8),
    msix0 := s.mgmt.msix0 + 1 } }

/-- R404, R412, R420-R422, R424, R426, R427, R429, R375: the mailbox commands.
The layouts of payloads are the model's choice (DESIGN CHOICE, log 37). -/
def Obligations.MailboxCommands : Prop :=
  (∀ s : State, let m := s.mgmt
    let g : State := { s with mgmt := { m with go := false } }
    let tag := fld m.mbCmd 16 16
    let done (s : State) (r : Nat) (out : List Byte) : State := completed s tag r out
    let buf (i n : Nat) : Nat := natLE (storeRead (0 : Byte) m.mbBuf i n)
    (Commands s 1 0 → ∃ u, exec .readLog s = .next u ∧ u.mgmt.log = m.log.drop 60 ∧
      u.mgmt.mbBuf = storeWrite (0 : Byte) m.mbBuf 0 (m.log.take 60).flatten ∧ u.mgmt.msix0 = m.msix0 + 1 ∧
      u.mgmt.mbStatus = BitVec.ofNat 64 (tag * 2 ^ 16) ∧ fld u.mgmt.mbCmd 32 12 = 64 * (m.log.take 60).length % 2 ^ 12) ∧
    (Commands s 2 2 → buf 0 1 < 32 → buf 1 1 < 32 → exec .readCounters s = .next (done g 0
      (((s.tile (tileAt (buf 0 1) (buf 1 1))).evc ++ (s.tile (tileAt (buf 0 1) (buf 1 1))).perf).flatMap (bytesLE 8)))) ∧
    (Commands s 2 2 → 32 ≤ buf 0 1 → exec .readCounters s = .next (done g 2 [])) ∧
    (Commands s 3 10 → (∀ i, i < 8 → buf (2 + i) 1 < 8) → buf 0 1 < 32 → buf 1 1 < 32 → exec .selectPerf s = .next (done
      (g.modTile (tileAt (buf 0 1) (buf 1 1)) (fun x => { x with
        perfSel := (List.range 8).map (fun i => buf (2 + i) 1), perf := List.replicate 8 0 })) 0 [])) ∧
    (Commands s 0x10 1 → buf 0 1 = 1 → m.power = .active →
      exec .setPower s = .next (done { g with mgmt := { g.mgmt with power := .reduced } } 0 [])) ∧
    (Commands s 0x10 1 → buf 0 1 = 3 → m.power = .quiesced →
      exec .setPower s = .next (done { g with mgmt := { g.mgmt with power := .sleep } } 0 [])) ∧
    (Commands s 0x10 1 → buf 0 1 = 3 → m.power = .active → exec .setPower s = .next (done g 3 [])) ∧
    (Commands s 0x10 1 → buf 0 1 = 2 → m.power = .active → ∃ u, exec .setPower s = .next u ∧
      u.mgmt.power = .quiescing ∧ u.mgmt.quiesceTag = tag ∧ u.mgmt.mbStatus.getLsbD 0 = true ∧ u.mgmt.msix0 = m.msix0) ∧
    (m.power = .quiescing → allSaved s = true → exec .quiesceComplete s = .next
      (completed { s with mgmt := { m with power := .quiesced } } m.quiesceTag 0 [])) ∧
    (Commands s 0x11 0 → ∃ u out, exec .readThermal s = .next u ∧ u = done g 0 out ∧ out.length = 12) ∧
    (∀ l, Commands s 0x20 2 → s.launch (buf 0 2) = some l → l.saved = false →
      exec .preempt s = .next (done (preemptLaunch g (buf 0 2) true) 0 [])) ∧
    (∀ l, Commands s 0x21 2 → s.launch (buf 0 2) = some l → l.state = .preempted true → m.power = .active →
      onLostTile s l = false → ∃ u, exec .resume s = .next u ∧ u.launch (buf 0 2) = some { l with state := l.resume }) ∧
    (∀ l, Commands s 0x21 2 → s.launch (buf 0 2) = some l → l.state ≠ .preempted true → exec .resume s = .next (done g 3 [])) ∧
    (∀ l, Commands s 0x22 2 → s.launch (buf 0 2) = some l → exec .kill s = .next (done (killLaunch g (buf 0 2)) 0 [])) ∧
    (Commands s 0x22 2 → s.launch (buf 0 2) = none → exec .kill s = .next (done g 2 [])) ∧
    (Commands s 0x30 2 → buf 0 1 < 16 → routeBad (buf 0 1) (buf 1 1 &&& 0x3B) = false → (∀ x ∈ s.launches, x.2.saved = true) →
      exec .setRoute s = .next (done { g with routes := g.routes.set (buf 0 1) (BitVec.ofNat 8 (buf 1 1 &&& 0x3B)) } 0 [])) ∧
    (Commands s 0x30 2 → buf 0 1 < 16 → routeBad (buf 0 1) (buf 1 1 &&& 0x3B) = true → exec .setRoute s = .next (done g 3 [])) ∧
    (Commands s 0x31 1 → exec .peerEnable s = .next (done { g with mgmt := { g.mgmt with peerMask := buf 0 1 } } 0 [])) ∧
    (Commands s 0x40 32 → m.oneTimeKey < 2 ^ 20 → ∃ u out, exec .attest s = .next u ∧
      u = completed { g with mgmt := { g.mgmt with oneTimeKey := m.oneTimeKey + 1 } } tag 0 out ∧ out.length = 2920 ∧
      (m.digest.length = 64 → (out.drop 32).take 64 = m.digest) ∧
      out.take 32 = storeRead (0 : Byte) m.mbBuf 0 32) ∧
    (Commands s 0x40 32 → 2 ^ 20 ≤ m.oneTimeKey → exec .attest s = .next (done g 4 [])) ∧
    (Commands s 0x50 8 → injectBad (buf 0 8) = false → exec .inject s = .next (done { g with mgmt := { g.mgmt with
      inject := BitVec.ofNat 64 (buf 0 8 / 2 ^ 37 * 2 ^ 37) } } 0 [])) ∧
    (Commands s 0x50 8 → injectBad (buf 0 8) = true → exec .inject s = .next (done g 2 [])) ∧
    (m.go = true → m.mbStatus.getLsbD 0 = false → fld m.mbCmd 0 16 ∉ mailCodes →
      exec .badOpc s = .next (done g (if s.booted = true then 1 else 3) [])) ∧
    (m.go = true → m.mbStatus.getLsbD 0 = false → fld m.mbCmd 0 16 = 0x10 → s.booted = false →
      exec .setPower s = .next (done g 3 []))) ∧
  (∀ s : State, (s.mgmt.mbStatus.getLsbD 0 = true ∨ s.mgmt.go = false) → ∀ i ∈ [Instr.readLog, .readCounters, .selectPerf, .setPower,
    .readThermal, .preempt, .resume, .kill, .setRoute, .peerEnable, .attest, .inject, .badOpc], exec i s = .next s)

/-- R416, R426, R428: boot, keys, the interlock and the temperature of the compute dies.
The digests are functions of the images alone that the model leaves open (DESIGN CHOICE, log 6). No step while
power is removed, and what becomes of image entries that a table refuses, are the model's choice
(DESIGN CHOICE, logs 19 and 74). The interlock of one quadrant, and that a boot leaves memory and log empty:
DEDUCED, log 38; that a cleared byte reads as zero: DESIGN CHOICE, log 2. -/
def Obligations.ModuleEvents : Prop :=
  (∀ s : State, let c := s.ev.img
    (s.ev.flag = true → s.ev.flag2 = true → s.mgmt.minVersion ≤ c.version → ∃ u, exec .moduleReset s = .next u ∧
      u.booted = true ∧ u.mgmt.power = .active ∧ u.mgmt.minVersion = c.version ∧ u.mgmt.oneTimeKey = s.mgmt.oneTimeKey ∧
      u.tileMap = c.tileMap.map (fun m => m.map mapFrom) ∧ (∀ k, k < 16 → routeBad k (u.routes.getD k 0).toNat = false) ∧
      u.pools = c.pools ∧ u.nodeAreas = c.nodes ∧ u.mem = [] ∧ u.ctxs = [] ∧ u.launches = [] ∧ u.pkts = [] ∧
      u.mgmt.log = [] ∧ u.queues.length = 16 ∧ u.mgmt.digest = imageDigests s.ev.bytes c) ∧
    ((s.ev.flag = false ∨ s.ev.flag2 = false ∨ c.version < s.mgmt.minVersion) → ∃ u, exec .moduleReset s = .next u ∧
      u.booted = false ∧ u.mgmt.minVersion = s.mgmt.minVersion ∧ u.mgmt.logWait ≠ [])) ∧
  (∀ e : BitVec 16, mapFrom e &&& 0x7E00 = 0 ∧ fld (mapFrom e) 0 9 < 264 ∧
    (fld e 0 9 < 264 → fld (mapFrom e) 0 9 = fld e 0 9 ∧ (mapFrom e).getLsbD 15 = e.getLsbD 15)) ∧
  (∀ s : State, exec .ideKm s = .next { s with mgmt := { s.mgmt with ideKeys := s.ev.bytes } }) ∧
  (∀ s : State, let t := s.ev.who
    let k := s.ev.idx % 4
    let x := s.tile t
    x.halvedMatrix.length = 4 → x.evc.length = 8 → ∃ u, exec .hobbleWindow s = .next u ∧ u.mem = s.mem ∧
      (u.tile t).halvedMatrix.getD k false = (if s.ev.flag2 = true then !(x.halvedMatrix.getD k false) else !s.ev.flag) ∧
      (u.tile t).evc.getD 3 0 = (x.evc.getD 3 0 + 1) % 2 ^ 64) ∧
  (∀ s : State, let d := s.mgmt.dieTemp.set s.ev.who s.ev.idx
    (s.ev.idx < 110 → exec .computeDieOvertemp s = .next { s with mgmt := { s.mgmt with dieTemp := d } }) ∧
    (110 ≤ s.ev.idx → s.ev.idx < 125 → ∃ u, exec .computeDieOvertemp s = .next u ∧ u.mgmt.power = s.mgmt.power ∧
      u.mgmt.logWait.length = s.mgmt.logWait.length + 1) ∧
    (125 ≤ s.ev.idx → ∃ u, exec .computeDieOvertemp s = .next u ∧ u.mgmt.power = .removed ∧
      u.mgmt.overtemp = some (s.ev.who, s.ev.idx))) ∧
  (∀ (s : State) (q temp : Nat), s.mgmt.overtemp = some (q, temp) → s.ev.flag = true → s.ev.flag2 = true →
    s.mgmt.minVersion ≤ s.ev.img.version → ∃ u, exec .moduleReset s = .next u ∧ u.mgmt.overtemp = none ∧
      u.mgmt.logWait = [logEntry 0x0C 0 0 0 0 0 0 0 0 0 q temp 0]) ∧
  (∀ s : State, s.mgmt.power = .removed → s.agenda = [] → step s = .fault .powerRemoved)

/-- R89, R97, R101, R110: words written out from the tables decode to their instructions: the five heads of
the example of R77, and one of each other family. -/
def Obligations.DecodeWords : Prop :=
  let u : Head := ⟨0, false, false⟩
  decodeHead 0b11000000_10_0_000_0_1 0b00000001_011000_000000_000000_010000 =
    .ok (.ld u (.t32 1 (some 8) (.q 0) (.q 0) (.n 0))) ∧
  decodeHead 0b01000010_11_1_000_0_0 0b01000000001000000000000000000000_0000_000000_000000 =
    .ok (.fmul ⟨0, false, true⟩ (.t48l 0x40200000 0 none (.q 0))) ∧
  decodeHead 0b01000000_10_0_000_0_0 0b00111111000000000000_110001_010001 = .ok (.fadd u (.i20 0x3F000 (.n 1))) ∧
  decodeHead 0b11000001_01_0_000_0_0 0b0001_000001_010010 = .ok (.st u (.t16 1 (.q 1) (.n 2))) ∧
  decodeHead 0b01100110_01_0_000_0_0 0b0000_000000_101110 = .ok (.ret u (.t16 0 (.q 0) (.n 30))) ∧
  decodeHead 0b00000001_10_0_101_1_1 0b00000110_101000_000000_110000_010011 =
    .ok (.add ⟨5, true, false⟩ (.t32 6 (some 24) (.q 0) .zero (.n 3))) ∧
  decodeHead 0b01110011_11_0_000_0_1 0b00000000000000000000000000000010_0000_101000_000000 =
    .ok (.crd u (.t48l 2 0 (some 24) (.q 0))) ∧
  decodeHead 0b10011011_11_0_000_0_1 0b0010000000000000_00000000_101000_000000_000000_111110 =
    .ok (.vspop u (.t48x 0x2000 0 (some 24) (.q 0) (.q 0) (.pop 2))) ∧
  decodeHead 0b10110010_11_0_000_0_0 0b0001001001000001_00000000_000000_010101_000000_010011 =
    .ok (.mmaLg6Lg6 u (.t48x 0x1241 0 none (.n 5) (.q 0) (.n 3))) ∧
  decodeHead 0b11001111_11_0_000_0_1 0b0000000000000000_00000000_101000_000000_000000_010011 =
    .ok (.rld u (.t48x 0 0 (some 24) (.q 0) (.q 0) (.n 3))) ∧
  decodeHead 0b11101110_10_0_000_0_0 0b00000000_000000_000000_100100_010011 =
    .ok (.tbarr u (.t32 0 none (.q 0) (.n 20) (.n 3))) ∧
  decodeHead 0b11110011_10_0_000_0_0 0b00000000_000000_000000_100100_010011 =
    .ok (.lfind u (.t32 0 none (.q 0) (.n 20) (.n 3))) ∧
  decodeHead 0b00000000_11_0_000_0_0 0x123456789ABC = .ok (.illegalOpcode u 0 3 false 0x123456789ABC)

/-! ### Statements in several parts -/

/-- R156, R157, R159-R161: moves of sign bits, comparison and conversions. -/
def Obligations.FloatingMovesAndConversions : Prop :=
  Stated.FloatingBits ∧ Stated.FloatingConversions

/-- R145, R147, R148, R151-R153: constants, selection, checksums, counts and bit fields. -/
def Obligations.MovesHashesAndCounts : Prop :=
  Stated.MovesAndHashes ∧ Stated.IntegerCountsAndFields

/-- R105, R106: the target that a literal names, and the checks of a target. -/
def Obligations.Targets : Prop :=
  Stated.ImmediateTargets ∧ Stated.TargetChecks

/-- R107, R164-R169, R176-R178, R181, R204: the faults of transfers, privileged and vector forms. -/
def Obligations.HeadFaults : Prop :=
  Stated.TransferFaults ∧ Stated.VectorFaults

/-- R164-R166: opening a loop level. -/
def Obligations.LoopsOpening : Prop :=
  Stated.LoopsOpen ∧ Stated.LoopBodyInOneLine

/-- R135-R137, R174-R179: system instructions and the control registers. -/
def Obligations.SystemAndControlRegisters : Prop :=
  Stated.SystemInstructions ∧ Stated.ControlRegisterWrites

/-- R95, R96, R110, R174, R175, R256, R407, R410: traps that an instruction raises by itself, and the end of
their bundle.
The count of a GUARD, and a trap beside a head that faults: DEDUCED, logs 41 and 44. -/
def Obligations.RaisedTraps : Prop :=
  Stated.InstructionTraps ∧ Stated.BundleStops ∧ Stated.PendingGuard ∧ Stated.ReservedOpcodes

/-- R36, R256-R261, R294: addresses, and a direct load in each case.
A load of a stale generation: DEDUCED, log 11. -/
def Obligations.AddressesAndLoads : Prop :=
  Stated.Addresses ∧ Stated.DirectLoads

/-- R310, R319-R322: tasks, joins, codelet counters and the fields of a card. A JOIN stages its wait here; the end of
its bundle does it (BundleProgress). The data of the held effects: DEDUCED, log 45. -/
def Obligations.TasksJoinsAndCards : Prop :=
  Stated.TasksAndJoins ∧ Stated.TaskCards

/-- R34, R36, R39, R94-R96, R98, R108, R150, R162-R169, R176, R279, R280, R302, R318, R320, R402: a head inside its
bundle, and the end of a bundle: its results, transfers and acts, and the waits of its heads. That the heads
after one that waits run again, and where the context of a part-done bundle stands, are the model's choice (DESIGN
CHOICE, log 78). -/
def Obligations.BundleProgress : Prop :=
  Stated.ChainedHeads ∧ Stated.BundlesComplete ∧ Stated.BundleTransfers ∧ Stated.BundleActs ∧ Stated.BundleWaits

/-- R36-R39: what loads see, and the effects buffer. -/
def Obligations.StoreForwardingAndBuffer : Prop :=
  Stated.Forwarding ∧ Stated.EffectsBuffer

/-- R96, R406, R407: taking a trap, and its record. That a trap waits while an exchange or a repair holds its record
or its vector: DEDUCED, log 43. -/
def Obligations.TrapTaking : Prop :=
  Stated.TrapEntry ∧ Stated.TrapRecordFields

/-- R29, R30, R31, R43, R46, R51, R54, R56, R58: which context issues, dispatch and stealing.
Readings of the scheduler: DEDUCED, log 26. Triggers that go again, what a tile does while records are staged and
hints that wrap: DESIGN CHOICE, logs 57, 58 and 59. -/
def Obligations.DispatchingAndStealing : Prop :=
  Stated.RoundRobin ∧ Stated.Dispatching ∧ Stated.Stealing

/-- R273, R275, R276, R278, R294: ranked reductions, requests turned away, and replies.
The order of the agent: DEDUCED, log 22; the place of a ranked contribution in its pair: DESIGN CHOICE, log 62. -/
def Obligations.AgentQueuesAndReplies : Prop :=
  Stated.AgentQueues ∧ Stated.Replies

/-- R48, R315-R318: place words, messages, continuations and class masks. The data of a YIELD's effect: DEDUCED,
log 45. -/
def Obligations.PlacesMessagesAndYields : Prop :=
  Stated.PlaceWords ∧ Stated.MessagesAndYields

/-- R304, R305, R323-R325, R344-R347: rings, launches, submissions and stream records.
SRCTL STOP: DEDUCED, log 54. The data of the held effects: DEDUCED, log 45. -/
def Obligations.RingsSubmissionsAndStreams : Prop :=
  Stated.RingsAndSubmissions ∧ Stated.Streams

/-- R384-R390, R400-R402: barrier and lifeline instructions at their issue. A TBWAIT stages its wait here; the end of
its bundle does it (BundleProgress). The data of the held effects: DEDUCED, log 45. -/
def Obligations.BarrierAndLifelineInstructions : Prop :=
  Stated.BarrierInstructions ∧ Stated.LifelineInstructions

/-- R301, R311-R313, R397, R398, R401: queues and barriers at their homes.
Where a redelivered trigger goes: DESIGN CHOICE, log 57. -/
def Obligations.QueueAndBarrierHomes : Prop :=
  Stated.QueueHomes ∧ Stated.BarrierUnit

/-- R32, R42, R163, R409, R413: a normal end, and an end by a fault in system mode. -/
def Obligations.EndsOfContexts : Prop :=
  Stated.NestedFaults ∧ Stated.NormalEnd

/-- R253, R265, R268, R279-R282: fences, page exchanges, guard bits and physical access. A FENCE stages its wait here;
the end of its bundle does it (BundleProgress). The data of the held effects: DEDUCED, log 45. -/
def Obligations.FencesPagesAndTags : Prop :=
  Stated.FencesAndPages ∧ Stated.PhysicalAccess

/-- R187, R188, R193, R194, R199-R203: vector arithmetic, comparison, reduction, conversion and statistics.
VDIV by zero under SAT: DEDUCED, log 47. NV of a signalling NaN that no step rounds: DESIGN CHOICE, log 81. -/
def Obligations.VectorArithmeticAndReductions : Prop :=
  Stated.VectorArithmetic ∧ Stated.VectorReductions

/-- R266, R267, R269-R273, R275, R276: local atomics and remote requests. The data of the held effects: DEDUCED,
log 45; where the new value of a blocking RCAS travels: DESIGN CHOICE, log 89. -/
def Obligations.AtomicsAndRemoteRequests : Prop :=
  Stated.LocalAtomics ∧ Stated.RemoteRequests

/-- R328-R332, R338-R349, R457: command queues, lists, submissions and pacers.
Readings of the outrider: DEDUCED, logs 27, 29, 31 and 34. -/
def Obligations.OutriderQueuesListsAndPacers : Prop :=
  Stated.OutriderQueues ∧ Stated.ListsAndPacers

end
end

