-- ==== Sys2Proof/Laws/Store.lean ====
section
/-! SUPPORT. Laws of the sparse stores: what a read gives after a write, and that every memory
operation keeps the canonical form. -/

namespace Sys2Proof.Machine

variable {α : Type} [DecidableEq α] (d : α)

/-! ### The canonical form -/

@[simp] theorem storeWf_nil : storeWf d [] = true := rfl

/-- A canonical tail is canonical above any lower bound. -/
theorem storeWfFrom_weaken {m : List (Nat × α)} {a b : Nat} (hb : b ≤ a)
    (h : storeWfFrom d (some a) m = true) : storeWfFrom d (some b) m = true := by
  cases m with
  | nil => rfl
  | cons e r =>
    simp only [storeWfFrom, Bool.and_eq_true, decide_eq_true_eq] at h ⊢
    exact ⟨⟨by omega, h.1.2⟩, h.2⟩

theorem storeWfFrom_none {m : List (Nat × α)} {a : Nat} (h : storeWfFrom d (some a) m = true) :
    storeWf d m = true := by
  cases m with
  | nil => rfl
  | cons e r =>
    simp only [storeWf, storeWfFrom, Bool.and_eq_true, decide_eq_true_eq] at h ⊢
    exact ⟨h.1.2, h.2⟩

theorem storeWf_cons {e : Nat × α} {r : List (Nat × α)} :
    storeWf d (e :: r) = true ↔ e.2 ≠ d ∧ storeWfFrom d (some e.1) r = true := by
  simp [storeWf, storeWfFrom]

theorem storeWfFrom_cons {b : Nat} {e : Nat × α} {r : List (Nat × α)} :
    storeWfFrom d (some b) (e :: r) = true ↔ b < e.1 ∧ e.2 ≠ d ∧ storeWfFrom d (some e.1) r = true := by
  simp [storeWfFrom, and_assoc]

/-- Writing a key above the bound keeps the form above the bound. -/
theorem storeWfFrom_storeSet {m : List (Nat × α)} {b k : Nat} (v : α) (hb : b < k)
    (h : storeWfFrom d (some b) m = true) : storeWfFrom d (some b) (storeSet d m k v) = true := by
  induction m generalizing b with
  | nil =>
    by_cases hv : v = d <;> simp [storeSet, hv, storeWfFrom, hb]
  | cons e r ih =>
    obtain ⟨a, x⟩ := e
    rw [storeWfFrom_cons] at h
    obtain ⟨h1, h2, h3⟩ := h
    simp only [storeSet]
    by_cases hk : k < a
    · by_cases hv : v = d
      · simp only [hk, hv, if_true]
        exact (storeWfFrom_cons d).2 ⟨h1, h2, h3⟩
      · simp only [hk, hv, if_true, if_false]
        exact (storeWfFrom_cons d).2 ⟨hb, hv, (storeWfFrom_cons d).2 ⟨hk, h2, h3⟩⟩
    · by_cases he : k = a
      · subst he
        by_cases hv : v = d
        · simp only [hk, hv, if_true, if_false]
          exact storeWfFrom_weaken d (Nat.le_of_lt h1) h3
        · simp only [hk, hv, if_true, if_false]
          exact (storeWfFrom_cons d).2 ⟨h1, hv, h3⟩
      · simp only [hk, he, if_false]
        exact (storeWfFrom_cons d).2 ⟨h1, h2, ih (by omega) h3⟩

/-- Writing a key keeps the canonical form. -/
theorem storeWf_storeSet {m : List (Nat × α)} (k : Nat) (v : α) (h : storeWf d m = true) :
    storeWf d (storeSet d m k v) = true := by
  cases m with
  | nil => by_cases hv : v = d <;> simp [storeSet, hv, storeWf, storeWfFrom]
  | cons e r =>
    obtain ⟨a, x⟩ := e
    rw [storeWf_cons] at h
    obtain ⟨h2, h3⟩ := h
    simp only [storeSet]
    by_cases hk : k < a
    · by_cases hv : v = d
      · simp only [hk, hv, if_true]
        exact (storeWf_cons d).2 ⟨h2, h3⟩
      · simp only [hk, hv, if_true, if_false]
        exact (storeWf_cons d).2 ⟨hv, (storeWfFrom_cons d).2 ⟨hk, h2, h3⟩⟩
    · by_cases he : k = a
      · subst he
        by_cases hv : v = d
        · simp only [hk, hv, if_true, if_false]
          exact storeWfFrom_none d h3
        · simp only [hk, hv, if_true, if_false]
          exact (storeWf_cons d).2 ⟨hv, h3⟩
      · simp only [hk, he, if_false]
        exact (storeWf_cons d).2 ⟨h2, storeWfFrom_storeSet d v (by omega) h3⟩

/-- Writing consecutive keys keeps the canonical form. -/
theorem storeWf_storeWrite {m : List (Nat × α)} (k : Nat) (l : List α) (h : storeWf d m = true) :
    storeWf d (storeWrite d m k l) = true := by
  induction l generalizing m k with
  | nil => exact h
  | cons v r ih => exact ih (k + 1) (storeWf_storeSet d k v h)

/-- Writing a list of pairs keeps the canonical form. -/
theorem storeWf_storePuts {m : List (Nat × α)} (l : List (Nat × α)) (h : storeWf d m = true) :
    storeWf d (storePuts d m l) = true := by
  induction l generalizing m with
  | nil => exact h
  | cons e r ih => exact ih (storeWf_storeSet d e.1 e.2 h)

theorem storeWfFrom_filter {m : List (Nat × α)} {b : Nat} (p : Nat × α → Bool)
    (h : storeWfFrom d (some b) m = true) : storeWfFrom d (some b) (m.filter p) = true := by
  induction m generalizing b with
  | nil => rfl
  | cons e r ih =>
    rw [storeWfFrom_cons] at h
    obtain ⟨h1, h2, h3⟩ := h
    by_cases hp : p e = true
    · rw [List.filter_cons_of_pos hp]
      exact (storeWfFrom_cons d).2 ⟨h1, h2, ih h3⟩
    · rw [List.filter_cons_of_neg hp]
      exact storeWfFrom_weaken d (Nat.le_of_lt h1) (ih h3)

/-- Dropping entries keeps the canonical form. -/
theorem storeWf_filter {m : List (Nat × α)} (p : Nat × α → Bool) (h : storeWf d m = true) :
    storeWf d (m.filter p) = true := by
  cases m with
  | nil => rfl
  | cons e r =>
    rw [storeWf_cons] at h
    by_cases hp : p e = true
    · rw [List.filter_cons_of_pos hp]
      exact (storeWf_cons d).2 ⟨h.1, storeWfFrom_filter d p h.2⟩
    · rw [List.filter_cons_of_neg hp]
      exact storeWfFrom_none d (storeWfFrom_filter d p h.2)

/-! ### Reads after writes -/

/-- Below the keys of a canonical store every key holds the default. -/
theorem storeGet_below {m : List (Nat × α)} {b k : Nat} (hk : k ≤ b)
    (h : storeWfFrom d (some b) m = true) : storeGet d m k = d := by
  induction m generalizing b with
  | nil => rfl
  | cons e r ih =>
    rw [storeWfFrom_cons] at h
    have : e.1 ≠ k := by omega
    simp only [storeGet, this, if_false]
    exact ih (by omega) h.2.2

/-- A read of the key that was written. -/
theorem storeGet_storeSet_same_from {m : List (Nat × α)} {b k : Nat} (v : α)
    (h : storeWfFrom d (some b) m = true) : storeGet d (storeSet d m k v) k = v := by
  induction m generalizing b with
  | nil => by_cases hv : v = d <;> simp [storeSet, hv, storeGet]
  | cons e r ih =>
    obtain ⟨a, x⟩ := e
    rw [storeWfFrom_cons] at h
    obtain ⟨h1, h2, h3⟩ := h
    simp only [storeSet]
    by_cases hk : k < a
    · by_cases hv : v = d
      · subst hv
        have hw : storeWfFrom v (some k) ((a, x) :: r) = true := (storeWfFrom_cons v).2 ⟨hk, h2, h3⟩
        simp only [hk, if_true]
        exact storeGet_below v (Nat.le_refl k) hw
      · simp [hk, hv, storeGet]
    · by_cases he : k = a
      · subst he
        by_cases hv : v = d
        · subst hv
          simp only [hk, if_true, if_false]
          exact storeGet_below v (Nat.le_refl k) h3
        · simp [hv, storeGet]
      · have hne : a ≠ k := fun h => he h.symm
        simp only [hk, he, hne, if_false, storeGet]
        exact ih h3

/-- A read of the key that was written gives the value written. -/
theorem storeGet_storeSet_same {m : List (Nat × α)} (k : Nat) (v : α) (h : storeWf d m = true) :
    storeGet d (storeSet d m k v) k = v := by
  cases m with
  | nil => by_cases hv : v = d <;> simp [storeSet, hv, storeGet]
  | cons e r =>
    obtain ⟨a, x⟩ := e
    rw [storeWf_cons] at h
    obtain ⟨h2, h3⟩ := h
    simp only [storeSet]
    by_cases hk : k < a
    · by_cases hv : v = d
      · subst hv
        have hw : storeWfFrom v (some k) ((a, x) :: r) = true := (storeWfFrom_cons v).2 ⟨hk, h2, h3⟩
        simp only [hk, if_true]
        exact storeGet_below v (Nat.le_refl k) hw
      · simp [hk, hv, storeGet]
    · by_cases he : k = a
      · subst he
        by_cases hv : v = d
        · subst hv
          simp only [hk, if_true, if_false]
          exact storeGet_below v (Nat.le_refl k) h3
        · simp [hv, storeGet]
      · have hne : a ≠ k := fun h => he h.symm
        simp only [hk, he, hne, if_false, storeGet]
        exact storeGet_storeSet_same_from d v h3

/-- A write leaves every other key alone. -/
theorem storeGet_storeSet_other {m : List (Nat × α)} {k j : Nat} (v : α) (hj : j ≠ k) :
    storeGet d (storeSet d m k v) j = storeGet d m j := by
  induction m with
  | nil => by_cases hv : v = d <;> simp [storeSet, hv, storeGet, Ne.symm hj]
  | cons e r ih =>
    obtain ⟨a, x⟩ := e
    simp only [storeSet]
    by_cases hk : k < a
    · by_cases hv : v = d
      · simp [hk, hv]
      · simp only [hk, hv, if_true, if_false]
        show (if k = j then v else storeGet d ((a, x) :: r) j) = _
        rw [if_neg (Ne.symm hj)]
    · by_cases he : k = a
      · subst he
        by_cases hv : v = d
        · simp only [hk, hv, if_true, if_false, storeGet]
          rw [if_neg (Ne.symm hj)]
        · simp only [hk, hv, if_true, if_false, storeGet]
          rw [if_neg (Ne.symm hj), if_neg (Ne.symm hj)]
      · simp only [hk, he, if_false, storeGet]
        rw [ih]

/-- A write of consecutive keys leaves every key outside it alone. -/
theorem storeGet_storeWrite_other {m : List (Nat × α)} {k j : Nat} (l : List α)
    (hj : j < k ∨ k + l.length ≤ j) : storeGet d (storeWrite d m k l) j = storeGet d m j := by
  induction l generalizing m k with
  | nil => rfl
  | cons v r ih =>
    simp only [storeWrite]
    rw [ih (by simp only [List.length_cons] at hj; omega), storeGet_storeSet_other]
    simp only [List.length_cons] at hj
    omega

/-- A read inside the keys written gives what was written. -/
theorem storeGet_storeWrite_inside {m : List (Nat × α)} {k i : Nat} (l : List α) (h : storeWf d m = true)
    (hi : i < l.length) : storeGet d (storeWrite d m k l) (k + i) = l[i] := by
  induction l generalizing m k i with
  | nil => exact absurd hi (by simp)
  | cons v r ih =>
    simp only [storeWrite]
    cases i with
    | zero =>
      rw [storeGet_storeWrite_other d r (Or.inl (by omega))]
      exact storeGet_storeSet_same d k v h
    | succ j =>
      have h1 : k + (j + 1) = (k + 1) + j := by omega
      rw [h1]
      exact ih (storeWf_storeSet d k v h) (by simpa using hi)

/-! ### Memory -/

theorem memWf_memWrite {m : Mem} (k : Nat) (bs : List Byte) (h : memWf m = true) : memWf (memWrite m k bs) = true :=
  storeWf_storeWrite 0 k bs h

theorem memWf_memClear {m : Mem} (k n : Nat) (h : memWf m = true) : memWf (memClear m k n) = true :=
  storeWf_filter 0 _ h

theorem memGet_memWrite_other {m : Mem} {k j : Nat} (bs : List Byte) (hj : j < k ∨ k + bs.length ≤ j) :
    memGet (memWrite m k bs) j = memGet m j := storeGet_storeWrite_other 0 bs hj

theorem memGet_memWrite_inside {m : Mem} {k i : Nat} (bs : List Byte) (h : memWf m = true)
    (hi : i < bs.length) : memGet (memWrite m k bs) (k + i) = bs[i] :=
  storeGet_storeWrite_inside 0 bs h hi

/-! ### Tables -/

theorem tabFind_tabSet_same {β : Type} (m : List (Nat × β)) (k : Nat) (v : β) :
    tabFind (tabSet m k v) k = some v := by
  induction m with
  | nil => simp [tabSet, tabFind]
  | cons e r ih =>
    obtain ⟨a, x⟩ := e
    simp only [tabSet]
    by_cases hk : k < a
    · simp [hk, tabFind]
    · by_cases he : k = a
      · simp [he, tabFind]
      · have hne : a ≠ k := fun h => he h.symm
        simp only [hk, he, if_false, tabFind, hne]
        exact ih

theorem tabFind_tabSet_other {β : Type} (m : List (Nat × β)) {k j : Nat} (v : β) (hj : j ≠ k) :
    tabFind (tabSet m k v) j = tabFind m j := by
  induction m with
  | nil => simp [tabSet, tabFind, Ne.symm hj]
  | cons e r ih =>
    obtain ⟨a, x⟩ := e
    simp only [tabSet]
    by_cases hk : k < a
    · simp [hk, tabFind, Ne.symm hj]
    · by_cases he : k = a
      · subst he
        simp [tabFind, Ne.symm hj]
      · simp only [hk, he, if_false, tabFind]
        rw [ih]

/-- The entry of a table that was just set. -/
theorem tabGet_tabSet_same {β : Type} (dflt : β) (m : List (Nat × β)) (k : Nat) (v : β) :
    tabGet dflt (tabSet m k v) k = v := by
  induction m with
  | nil => simp [tabSet, tabGet, storeGet]
  | cons e r ih =>
    obtain ⟨a, x⟩ := e
    simp only [tabSet]
    by_cases hk : k < a
    · simp [hk, tabGet, storeGet]
    · by_cases he : k = a
      · simp [he, tabGet, storeGet]
      · have hne : a ≠ k := fun h => he h.symm
        simp only [tabGet, hk, he, if_false, storeGet, hne] at ih ⊢
        exact ih

/-- Every other entry of a table. -/
theorem tabGet_tabSet_other {β : Type} (dflt : β) (m : List (Nat × β)) {k j : Nat} (v : β) (hj : j ≠ k) :
    tabGet dflt (tabSet m k v) j = tabGet dflt m j := by
  induction m with
  | nil => simp [tabSet, tabGet, storeGet, Ne.symm hj]
  | cons e r ih =>
    obtain ⟨a, x⟩ := e
    simp only [tabSet]
    by_cases hk : k < a
    · simp [hk, tabGet, storeGet, Ne.symm hj]
    · by_cases he : k = a
      · subst he
        simp [tabGet, storeGet, Ne.symm hj]
      · simp only [tabGet, hk, he, if_false, storeGet] at ih ⊢
        rw [ih]

end Sys2Proof.Machine
end

