-- ==== Sys2Proof/Laws/Memory.lean ====
section
/-! SUPPORT. Every operation of the machine keeps the canonical form of memory: one lemma for each function
that answers a state, in the order in which they are built on each other. -/

namespace Sys2Proof.Laws

open Sys2Proof.Machine

set_option linter.unreachableTactic false
set_option linter.unusedTactic false
set_option linter.unnecessarySeqFocus false

theorem memOk_foldl {β : Type} (f : State → β → State) (l : List β) (s : State) (hf : ∀ s b, s.MemOk →
    (f s b).MemOk) (hs : s.MemOk) : (l.foldl f s).MemOk := by
  induction l generalizing s with
  | nil => exact hs
  | cons b r ih => exact ih _ (hf _ _ hs)

theorem memOk_countPerf : ∀ s t ev n, (s.MemOk) → (countPerf s t ev n).MemOk := by
  intro s t ev n hs; unfold countPerf; split <;> exact hs

theorem memOk_drainOne : ∀ s t s1, s.MemOk → drainOne s t = some s1 → s1.MemOk := by
  intro s t s1 hs h
  unfold drainOne at h
  split at h
  · cases h
  · cases h; exact memWf_memWrite _ _ hs

theorem memOk_drainN : ∀ s t n, s.MemOk → (drainN s t n).MemOk := by
  intro s t n
  induction n generalizing s with
  | zero => exact fun h => h
  | succ n ih =>
    intro hs
    unfold drainN
    split
    · exact hs
    · rename_i h; exact ih _ (memOk_drainOne _ _ _ hs h)

theorem memOk_getD : ∀ (o : Option State) (s : State), (∀ s1, o = some s1 → s1.MemOk) → s.MemOk →
    (o.getD s).MemOk := by
  intro o s h hs
  cases o with
  | none => exact hs
  | some s1 => exact h _ rfl

theorem memOk_State_setCtx : ∀ s g c, (s.MemOk) → (State.setCtx s g c).MemOk := by
  intros; unfold State.setCtx; (with_reducible repeat' assumption)

theorem memOk_State_modCtx : ∀ s g f, (s.MemOk) → (State.modCtx s g f).MemOk := by
  intros; unfold State.modCtx; (with_reducible repeat' first | assumption | apply memOk_State_setCtx)

theorem memOk_State_modRing : ∀ s cl cw f, (s.MemOk) → (State.modRing s cl cw f).MemOk := by
  intros; unfold State.modRing; (repeat' split) <;> (with_reducible repeat' assumption)

theorem memOk_State_setTile : ∀ s t x, (s.MemOk) → (State.setTile s t x).MemOk := by
  intros; unfold State.setTile; (with_reducible repeat' assumption)

theorem memOk_State_modTile : ∀ s t f, (s.MemOk) → (State.modTile s t f).MemOk := by
  intros; unfold State.modTile; (with_reducible repeat' first | assumption | apply memOk_State_setTile)

theorem memOk_State_setLaunch : ∀ s l x, (s.MemOk) → (State.setLaunch s l x).MemOk := by
  intros; unfold State.setLaunch; (with_reducible repeat' assumption)

theorem memOk_State_setPkt : ∀ s i p, (s.MemOk) → (State.setPkt s i p).MemOk := by
  intros; unfold State.setPkt; (with_reducible repeat' assumption)

theorem memOk_raiseCtxs : ∀ s, (s.MemOk) → (raiseCtxs s).MemOk := by
  intros; unfold raiseCtxs; (repeat' split) <;> (with_reducible repeat' assumption)

theorem memOk_ownPri : ∀ s, (s.MemOk) → (ownPri s).MemOk := by
  intros; unfold ownPri; (repeat' split) <;> (with_reducible repeat' assumption)

theorem memOk_inherit : ∀ s, (s.MemOk) → (inherit s).MemOk := by
  intros
  unfold inherit
  (try dsimp only)
  (repeat' split) <;> (with_reducible repeat' first | assumption | apply memOk_raiseCtxs | apply memOk_ownPri)

theorem memOk_clearPoison : ∀ s k n, (s.MemOk) → (clearPoison s k n).MemOk := by
  intros
  unfold clearPoison
  (try dsimp only)
  (repeat' split) <;> (with_reducible repeat' first | assumption | apply memOk_State_setTile)

theorem memOk_touchPage : ∀ s k n, (s.MemOk) → (touchPage s k n).MemOk := by
  intros
  unfold touchPage
  (repeat' split) <;> (with_reducible repeat' first | assumption | apply memOk_countPerf
                                                    | apply memOk_State_modTile)

theorem memOk_performStore : ∀ s k bs act, (s.MemOk) → (performStore s k bs act).MemOk := by
  intros
  unfold performStore
  (repeat' split) <;> (with_reducible repeat' first | assumption | apply memOk_clearPoison
                                                    | apply memOk_touchPage | apply memOk_State_modTile
                                                    | apply memWf_memWrite)

theorem memOk_release : ∀ s g final, (s.MemOk) → (release s g final).MemOk := by
  intros; unfold release; (with_reducible repeat' first | assumption | apply memOk_State_modCtx)

theorem memOk_holdEffects_next : ∀ s g es s1, (s.MemOk) → holdEffects s g es = .next s1 → s1.MemOk := by
  intro s g es s1
  intros
  rename_i h
  unfold holdEffects at h
  (try dsimp only at h)
  (repeat' split at h) <;> (cases h; (with_reducible repeat' first | assumption | apply memOk_State_modCtx))

theorem memOk_holdEffects_wait : ∀ s g es s1 w first, (s.MemOk) → holdEffects s g es = .wait s1 w first →
    s1.MemOk := by
  intro s g es s1 w first
  intros
  rename_i h
  unfold holdEffects at h
  (try dsimp only at h)
  (repeat' split at h) <;> (cases h; (with_reducible repeat' first | assumption | apply memOk_release))

theorem memOk_tableWrite : ∀ s t off bs, (s.MemOk) → (tableWrite s t off bs).MemOk := by
  intros
  unfold tableWrite
  (repeat' split) <;> (with_reducible repeat' first | assumption | apply memOk_State_modTile
                                                    | apply memWf_memWrite)

theorem memOk_postLog : ∀ s e, (s.MemOk) → (postLog s e).MemOk := by
  intros; unfold postLog; (with_reducible repeat' assumption)

theorem memOk_logAt : ∀ s kind cause t lslot addr code, (s.MemOk) →
    (logAt s kind cause t lslot addr code).MemOk := by
  intros; unfold logAt; (with_reducible repeat' first | assumption | apply memOk_postLog)

theorem memOk_startRepair : ∀ s t, (s.MemOk) → (startRepair s t).MemOk := by
  intros
  unfold startRepair
  (try dsimp only)
  (repeat' split) <;> (with_reducible repeat' first | assumption | apply memOk_logAt
                                                    | apply memOk_State_setTile)

theorem memOk_countCorrected : ∀ s t k, (s.MemOk) → (countCorrected s t k).MemOk := by
  intros
  unfold countCorrected
  (repeat' split) <;> (with_reducible repeat' first | assumption | apply memOk_startRepair
                                                    | apply memOk_State_setTile)

theorem memOk_injFire : ∀ s t addr, (s.MemOk) → (injFire s t addr).MemOk := by
  intros
  unfold injFire
  (try dsimp only)
  (repeat' split) <;> (with_reducible repeat' first | assumption | apply memOk_logAt
                                                    | apply memOk_countCorrected)

theorem memOk_fireRead : ∀ s k, (s.MemOk) → (fireRead s k).MemOk := by
  intros
  unfold fireRead
  (repeat' split) <;> (with_reducible repeat' first | assumption | apply memOk_injFire)

theorem memOk_fillTlb : ∀ s t asid va, (s.MemOk) → (fillTlb s t asid va).MemOk := by
  intros
  unfold fillTlb
  (repeat' split) <;> (with_reducible repeat' first | assumption | apply memOk_countPerf
                                                    | apply memOk_fireRead | apply memOk_touchPage
                                                    | apply memOk_State_modTile | apply memOk_foldl
                                                    | (intro _ _ _))

theorem memOk_noteWalk : ∀ s t asid va, (s.MemOk) → (noteWalk s t asid va).MemOk := by
  intros
  unfold noteWalk
  (repeat' split) <;> (with_reducible repeat' first | assumption | apply memOk_fillTlb)

theorem memOk_fillSlot : ∀ s g slot wr v, (s.MemOk) → (fillSlot s g slot wr v).MemOk := by
  intros; unfold fillSlot; (with_reducible repeat' first | assumption | apply memOk_State_modCtx)

theorem memOk_doAct_next : ∀ s g a s1, (s.MemOk) → doAct s g a = .next s1 → s1.MemOk := by
  intro s g a s1; intros; rename_i h; unfold doAct at h; (try dsimp only at h); (repeat' split at h) <;> (first | (cases h; (with_reducible repeat' first | assumption | apply memOk_performStore | apply memOk_tableWrite | apply memOk_noteWalk | apply memOk_fillSlot | apply memOk_State_modCtx | apply memOk_injFire | apply memOk_touchPage | apply memOk_State_modTile | apply memOk_release)) | (refine memOk_holdEffects_next _ _ _ _ ?_ h <;> (with_reducible repeat' first | assumption | apply memOk_performStore | apply memOk_tableWrite | apply memOk_noteWalk | apply memOk_fillSlot | apply memOk_State_modCtx | apply memOk_injFire | apply memOk_touchPage | apply memOk_State_modTile | apply memOk_release)))

theorem memOk_doAct_wait : ∀ s g a s1 w first, (s.MemOk) → doAct s g a = .wait s1 w first → s1.MemOk := by
  intro s g a s1 w first; intros; rename_i h; unfold doAct at h; (try dsimp only at h); (repeat' split at h) <;> (first | (cases h; (with_reducible repeat' first | assumption | apply memOk_release | refine memOk_holdEffects_next _ _ _ _ (by assumption) (by assumption) | refine memOk_holdEffects_wait _ _ _ _ _ _ (by assumption) (by assumption))) | (refine memOk_holdEffects_wait _ _ _ _ _ _ ?_ h <;> (with_reducible repeat' first | assumption | apply memOk_release | refine memOk_holdEffects_next _ _ _ _ (by assumption) (by assumption) | refine memOk_holdEffects_wait _ _ _ _ _ _ (by assumption) (by assumption))))

theorem memOk_runActs : ∀ s g l p, s.MemOk → runActs s g l = p → p.1.MemOk := by
  intro s g l
  induction l generalizing s with
  | nil => intro p hs h; subst h; exact hs
  | cons a r ih =>
    intro p hs h
    unfold runActs at h
    split at h
    · rename_i h1; exact ih _ _ (memOk_doAct_next _ _ _ _ hs h1) h
    · rename_i h1; subst h; exact memOk_doAct_wait _ _ _ _ _ _ hs h1

theorem memOk_logGuard : ∀ s g, (s.MemOk) → (logGuard s g).MemOk := by
  intros
  unfold logGuard
  (try dsimp only)
  (repeat' split) <;> (with_reducible repeat' first | assumption | apply memOk_postLog)

theorem memOk_logGuards : ∀ s o, (s.MemOk) → (logGuards s o).MemOk := by
  intros
  unfold logGuards
  (repeat' split) <;> (with_reducible repeat' first | assumption | apply memOk_logGuard)

theorem memOk_freeCtx : ∀ s g, (s.MemOk) → (freeCtx s g).MemOk := by
  intros
  unfold freeCtx
  (repeat' split) <;> (with_reducible repeat' first | assumption | apply memOk_State_modCtx)

theorem memOk_freeBoth : ∀ s g, (s.MemOk) → (freeBoth s g).MemOk := by
  intros
  unfold freeBoth
  (repeat' split) <;> (with_reducible repeat' first | assumption | apply memOk_freeCtx)

theorem memOk_postKill : ∀ s act e, (s.MemOk) → (postKill s act e).MemOk := by
  intros
  unfold postKill
  (repeat' split) <;> (with_reducible repeat' first | assumption | apply memOk_postLog)

theorem memOk_killReport : ∀ s g e, (s.MemOk) → (killReport s g e).MemOk := by
  intros
  unfold killReport
  (try dsimp only)
  (repeat' split) <;> (with_reducible repeat' first | assumption | apply memOk_postKill
                                                    | apply memOk_State_setLaunch)

theorem memOk_consume : ∀ s g flt, (s.MemOk) → (consume s g flt).MemOk := by
  intros
  unfold consume
  (try dsimp only)
  (repeat' split) <;> (with_reducible repeat' first | assumption | apply memOk_State_modTile)

theorem memOk_endKilled : ∀ s g e, (s.MemOk) → (endKilled s g e).MemOk := by
  intros
  unfold endKilled
  (repeat' split) <;> (with_reducible repeat' first | assumption | apply memOk_logGuards
                                                    | apply memOk_freeBoth | apply memOk_killReport
                                                    | apply memOk_consume)

theorem memOk_requeue : ∀ s t tr, (s.MemOk) → (requeue s t tr).MemOk := by
  intros; unfold requeue; (with_reducible repeat' first | assumption | apply memOk_State_modTile)

theorem memOk_countEvent : ∀ s t i, (s.MemOk) → (countEvent s t i).MemOk := by
  intros; unfold countEvent; (with_reducible repeat' first | assumption | apply memOk_State_modTile)

theorem memOk_spanMismatch : ∀ s g, (s.MemOk) → (spanMismatch s g).MemOk := by
  intros
  unfold spanMismatch
  (try dsimp only)
  (repeat' split) <;> (with_reducible repeat' first | assumption | apply memOk_endKilled
                                                    | apply memOk_freeBoth | apply memOk_requeue
                                                    | apply memOk_countEvent)

theorem memOk_parkCtx : ∀ s g, (s.MemOk) → (parkCtx s g).MemOk := by
  intros
  unfold parkCtx
  (try dsimp only)
  (repeat' split) <;> (with_reducible repeat' first | assumption | apply memOk_State_modCtx
                                                    | apply memOk_freeCtx | apply memOk_State_setCtx)

theorem memOk_endFault : ∀ s g e pc, (s.MemOk) → (endFault s g e pc).MemOk := by
  intros
  unfold endFault
  (try dsimp only)
  (repeat' split) <;> (with_reducible repeat' first | assumption | apply memOk_endKilled
                                                    | apply memOk_spanMismatch | apply memOk_State_modCtx
                                                    | apply memOk_parkCtx)

theorem memOk_lastEffect : ∀ s g e, (s.MemOk) → (lastEffect s g e).MemOk := by
  intros
  unfold lastEffect
  (repeat' split) <;> (with_reducible repeat' first | assumption | apply memOk_State_modCtx
                                                    | apply memOk_release)

theorem memOk_endNormal : ∀ s g cont halt, (s.MemOk) → (endNormal s g cont halt).MemOk := by
  intros
  unfold endNormal
  (try dsimp only)
  (repeat' split) <;> (with_reducible repeat' first | assumption | apply memOk_logGuard
                                                    | apply memOk_spanMismatch | apply memOk_endFault
                                                    | apply memOk_lastEffect | apply memOk_State_modCtx
                                                    | apply memOk_release)

theorem memOk_consumePoison : ∀ s g, (s.MemOk) → (consumePoison s g).MemOk := by
  intros
  unfold consumePoison
  (try dsimp only)
  (repeat' split) <;> (with_reducible repeat' first | assumption | apply memOk_endKilled
                                                    | apply memOk_freeBoth | apply memOk_requeue)

theorem memOk_calm : ∀ s, (s.MemOk) → (calm s).MemOk := by
  intros; unfold calm; (repeat' split) <;> (with_reducible repeat' assumption)

theorem memOk_walkLogged : ∀ s t asid va, (s.MemOk) → (walkLogged s t asid va).MemOk := by
  intros
  unfold walkLogged
  (repeat' split) <;> (with_reducible repeat' first | assumption | apply memOk_logAt | apply memOk_fillTlb)

theorem memOk_engineWalk : ∀ s t asid va, (s.MemOk) → (engineWalk s t asid va).MemOk := by
  intros
  unfold engineWalk
  (repeat' split) <;> (with_reducible repeat' first | assumption | apply memOk_walkLogged)

theorem memOk_logPte : ∀ s g x2, (s.MemOk) → (logPte s g x2).MemOk := by
  intros; unfold logPte; (repeat' split) <;> (with_reducible repeat' first | assumption | apply memOk_logAt)

theorem memOk_takeTrap : ∀ s g i, (s.MemOk) → (takeTrap s g i).MemOk := by
  intros
  unfold takeTrap
  (try dsimp only)
  (repeat' split) <;> (with_reducible repeat' first | assumption | apply memOk_consumePoison
                                                    | apply memOk_performStore | apply memOk_engineWalk
                                                    | apply memOk_fireRead | apply memOk_endFault
                                                    | apply memOk_State_modCtx | apply memOk_logPte)

theorem memOk_replyTrap : ∀ s g st, (s.MemOk) → (replyTrap s g st).MemOk := by
  intros
  unfold replyTrap
  (try dsimp only)
  (repeat' split) <;> (with_reducible repeat' first | assumption | apply memOk_takeTrap
                                                    | apply memOk_State_modCtx)

theorem memOk_commitBundle : ∀ s g st, (s.MemOk) → (commitBundle s g st).MemOk := by
  intros
  unfold commitBundle
  (repeat' split) <;> (with_reducible repeat' first | assumption | apply memOk_countPerf
                                                    | apply memOk_endNormal | apply memOk_inherit
                                                    | apply memOk_State_modCtx | apply memOk_replyTrap)

theorem memOk_actsDone : ∀ s g st, (s.MemOk) → (actsDone s g st).MemOk := by
  intros
  unfold actsDone
  (repeat' split) <;> (with_reducible repeat' first | assumption | apply memOk_commitBundle
                                                    | apply memOk_State_modCtx)

theorem memOk_continueBundle : ∀ s g acts, (s.MemOk) → (continueBundle s g acts).MemOk := by
  intros
  unfold continueBundle
  (repeat' split) <;> (with_reducible repeat' first | apply memOk_inherit | apply memOk_State_modCtx
                                                    | apply memOk_actsDone
                                                    | refine memOk_runActs _ _ _ _ (by assumption) (by assumption))

theorem memOk_instrTrap : ∀ s g st cause code, (s.MemOk) → (instrTrap s g st cause code).MemOk := by
  intros
  unfold instrTrap
  (repeat' split) <;> (with_reducible repeat' first | assumption | apply memOk_takeTrap
                                                    | apply memOk_countPerf | apply memOk_State_modCtx)

theorem memOk_takeGuard : ∀ s g bpc at_, (s.MemOk) → (takeGuard s g bpc at_).MemOk := by
  intros
  unfold takeGuard
  (repeat' split) <;> (with_reducible repeat' first | assumption | apply memOk_takeTrap
                                                    | apply memOk_State_modCtx)

theorem memOk_faultHead : ∀ s g st f, (s.MemOk) → (faultHead s g st f).MemOk := by
  intros
  unfold faultHead
  (repeat' split) <;> (with_reducible repeat' first | assumption | apply memOk_takeTrap
                                                    | apply memOk_noteWalk | apply memOk_State_modCtx)

theorem memOk_finishBundle : ∀ s g st, (s.MemOk) → (finishBundle s g st).MemOk := by
  intros
  unfold finishBundle
  (repeat' split) <;> (with_reducible repeat' first | assumption | apply memOk_continueBundle
                                                    | apply memOk_instrTrap | apply memOk_takeGuard
                                                    | apply memOk_faultHead | apply memOk_State_modCtx)

theorem memOk_nextHeadOf : ∀ s g chain st, (s.MemOk) → (nextHeadOf s g chain st).MemOk := by
  intros
  unfold nextHeadOf
  (repeat' split) <;> (with_reducible repeat' first | assumption | apply memOk_finishBundle
                                                    | apply memOk_State_modCtx)

theorem memOk_afterHead : ∀ s g h st, (s.MemOk) → (afterHead s g h st).MemOk := by
  intros
  unfold afterHead
  (repeat' split) <;> (with_reducible repeat' first | assumption | apply memOk_nextHeadOf)

theorem memOk_stopHead : ∀ s g chain st x, (s.MemOk) → (stopHead s g chain st x).MemOk := by
  intros
  unfold stopHead
  (repeat' split) <;> (with_reducible repeat' first | assumption | apply memOk_consumePoison
                                                    | apply memOk_fireRead | apply memOk_State_modCtx
                                                    | apply memOk_nextHeadOf)

theorem memOk_ackPkt : ∀ s id fail, (s.MemOk) → (ackPkt s id fail).MemOk := by
  intros; unfold ackPkt; (repeat' split) <;> (with_reducible repeat' assumption)

theorem memOk_dequeue : ∀ s id, (s.MemOk) → (dequeue s id).MemOk := by
  intros; unfold dequeue; (repeat' split) <;> (with_reducible repeat' assumption)

theorem memOk_handOver : ∀ s id, (s.MemOk) → (handOver s id).MemOk := by
  intros
  unfold handOver
  (repeat' split) <;> (with_reducible repeat' first | assumption | apply memOk_State_setPkt
                                                    | apply memOk_dequeue)

theorem memOk_finish : ∀ s id fail, (s.MemOk) → (finish s id fail).MemOk := by
  intros
  unfold finish
  (with_reducible repeat' first | assumption | apply memOk_ackPkt | apply memOk_handOver)

theorem memOk_abandonPkt : ∀ s id, (s.MemOk) → (abandonPkt s id).MemOk := by
  intros
  unfold abandonPkt
  (repeat' split) <;> (with_reducible repeat' first | assumption | apply memOk_finish
                                                    | apply memOk_State_setPkt)

theorem memOk_sendOne : ∀ s src dst owner lslot tag after w, (s.MemOk) →
    (sendOne s src dst owner lslot tag after w).MemOk := by
  intros; unfold sendOne; (repeat' split) <;> (with_reducible repeat' assumption)

theorem memOk_sendTagged : ∀ s src dst owner lslot tag w, (s.MemOk) →
    (sendTagged s src dst owner lslot tag w).MemOk := by
  intros
  unfold sendTagged
  (repeat' split) <;> (with_reducible repeat' first | assumption | apply memOk_sendOne)

theorem memOk_sendWork : ∀ s src dst owner lslot w, (s.MemOk) → (sendWork s src dst owner lslot w).MemOk := by
  intros
  unfold sendWork
  (repeat' split) <;> (with_reducible repeat' first | assumption | apply memOk_sendTagged)

theorem memOk_sendArrival : ∀ s src lslot bar flt cls ab, (s.MemOk) →
    (sendArrival s src lslot bar flt cls ab).MemOk := by
  intros
  unfold sendArrival
  (repeat' split) <;> (with_reducible repeat' first | assumption | apply memOk_sendWork)

theorem memOk_abandonPut : ∀ s t p, (s.MemOk) → (abandonPut s t p).MemOk := by
  intros
  unfold abandonPut
  (repeat' split) <;> (with_reducible repeat' first | assumption | apply memOk_logAt
                                                    | apply memOk_sendArrival)

theorem memOk_abandonSub : ∀ s t u, (s.MemOk) → (abandonSub s t u).MemOk := by
  intros
  unfold abandonSub
  (try dsimp only)
  (repeat' split) <;> (with_reducible repeat' first | assumption | apply memOk_logAt
                                                    | apply memOk_sendArrival)

theorem memOk_abandonWrite : ∀ s k q w, (s.MemOk) → (abandonWrite s k q w).MemOk := by
  intros
  unfold abandonWrite
  (repeat' split) <;> (with_reducible repeat' first | assumption | apply memOk_logAt
                                                    | apply memOk_sendArrival)

theorem memOk_accept : ∀ s id p, (s.MemOk) → (accept s id p).MemOk := by
  intros; unfold accept; (with_reducible repeat' first | assumption | apply memOk_State_setPkt)

theorem memOk_modOut : ∀ s t f, (s.MemOk) → (modOut s t f).MemOk := by
  intros; unfold modOut; (with_reducible repeat' first | assumption | apply memOk_State_modTile)

theorem memOk_modQueue : ∀ s t k f, (s.MemOk) → (modQueue s t k f).MemOk := by
  intros
  unfold modQueue
  (repeat' split) <;> (with_reducible repeat' first | assumption | apply memOk_modOut)

theorem memOk_acceptPend : ∀ s t k i, (s.MemOk) → (acceptPend s t k i).MemOk := by
  intros
  unfold acceptPend
  (repeat' split) <;> (with_reducible repeat' first | assumption | apply memOk_modQueue
                                                    | apply memOk_finish | apply memOk_foldl | (intro _ _ _))

theorem memOk_ackDropped : ∀ s slot, (s.MemOk) → (ackDropped s slot).MemOk := by
  intros
  unfold ackDropped
  (repeat' split) <;> (with_reducible repeat' first | assumption | apply memOk_finish | apply memOk_foldl
                                                    | (intro _ _ _))

theorem memOk_modList : ∀ s t id f, (s.MemOk) → (modList s t id f).MemOk := by
  intros; unfold modList; (with_reducible repeat' first | assumption | apply memOk_modOut)

theorem memOk_listReport : ∀ s t list cls ab, (s.MemOk) → (listReport s t list cls ab).MemOk := by
  intros
  unfold listReport
  (repeat' split) <;> (with_reducible repeat' first | assumption | apply memOk_modList)

theorem memOk_rejectCopy : ∀ s t c check, (s.MemOk) → (rejectCopy s t c check).MemOk := by
  intros
  unfold rejectCopy
  (repeat' split) <;> (with_reducible repeat' first | assumption | apply memOk_logAt
                                                    | apply memOk_sendArrival | apply memOk_listReport)

theorem memOk_admitCopy : ∀ s t handle tag c, (s.MemOk) → (admitCopy s t handle tag c).MemOk := by
  intros
  unfold admitCopy
  (repeat' split) <;> (with_reducible repeat' first | assumption | apply memOk_modOut
                                                    | apply memOk_rejectCopy)

theorem memOk_finishEnd : ∀ s o, (s.MemOk) → (finishEnd s o).MemOk := by
  intros
  unfold finishEnd
  (try dsimp only)
  (repeat' split) <;> (with_reducible repeat' first | assumption | apply memOk_freeBoth
                                                    | apply memOk_postLog | apply memOk_consume)

theorem memOk_afterForward : ∀ s o, (s.MemOk) → (afterForward s o).MemOk := by
  intros
  unfold afterForward
  (repeat' split) <;> (with_reducible repeat' first | assumption | apply memOk_finishEnd)

theorem memOk_agentReply : ∀ s home rep, (s.MemOk) → (agentReply s home rep).MemOk := by
  intros
  unfold agentReply
  (try dsimp only)
  (repeat' split) <;> (with_reducible repeat' first | assumption | apply memOk_logAt | apply memOk_sendWork)

theorem memOk_complete : ∀ s tag result out, (s.MemOk) → (complete s tag result out).MemOk := by
  intros; unfold complete; (with_reducible repeat' assumption)

theorem memOk_answer : ∀ s result out, (s.MemOk) → (answer s result out).MemOk := by
  intros; unfold answer; (with_reducible repeat' first | assumption | apply memOk_complete)

theorem memOk_answerCtx : ∀ s g home rep, (s.MemOk) → (answerCtx s g home rep).MemOk := by
  intros
  unfold answerCtx
  (repeat' split) <;> (with_reducible repeat' first | assumption | apply memOk_continueBundle
                                                    | apply memOk_fillSlot | apply memOk_State_modCtx)

theorem memOk_setQueue : ∀ s k q, (s.MemOk) → (setQueue s k q).MemOk := by
  intros; unfold setQueue; (with_reducible repeat' assumption)

theorem memOk_homeWrite : ∀ s k bs, (s.MemOk) → (homeWrite s k bs).MemOk := by
  intros; unfold homeWrite; (with_reducible repeat' first | assumption | apply memOk_performStore)

theorem memOk_answerRecord : ∀ s k q status, (s.MemOk) → (answerRecord s k q status).MemOk := by
  intros
  unfold answerRecord
  (repeat' split) <;> (with_reducible repeat' first | assumption | apply memOk_setQueue
                                                    | apply memOk_homeWrite | apply memOk_sendArrival)

theorem memOk_engWrite : ∀ s k bs, (s.MemOk) → (engWrite s k bs).MemOk := by
  intros
  unfold engWrite
  (repeat' split) <;> (with_reducible repeat' first | assumption | apply memOk_drainN
                                                    | apply memOk_clearPoison | apply memOk_touchPage
                                                    | apply memWf_memWrite)

theorem memOk_areaWrite : ∀ s k b, (s.MemOk) → (areaWrite s k b).MemOk := by
  intros
  unfold areaWrite
  (repeat' split) <;> (with_reducible repeat' first | assumption | apply memOk_engWrite)

theorem memOk_arrayStore : ∀ s k bs act, (s.MemOk) → (arrayStore s k bs act).MemOk := by
  intros
  unfold arrayStore
  (repeat' split) <;> (with_reducible repeat' first | assumption | apply memOk_performStore
                                                    | apply memOk_drainN)

theorem memOk_rejectStale : ∀ s id p, (s.MemOk) → (rejectStale s id p).MemOk := by
  intros
  unfold rejectStale
  (repeat' split) <;> (with_reducible repeat' first | assumption | apply memOk_finish
                                                    | apply memOk_sendArrival)

theorem memOk_barItem : ∀ (f : State → Nat → Work → Option State) s s1,
    (∀ s t w s1, s.MemOk → f s t w = some s1 → s1.MemOk) → s.MemOk → barItem f s = some s1 → s1.MemOk := by
  intro f s s1 hf hs h
  unfold barItem at h
  split at h
  · cases h
  · obtain ⟨s2, h2, rfl⟩ := Option.map_eq_some_iff.1 h
    have h3 := hf _ _ _ _ hs h2
    split
    · exact memOk_rejectStale _ _ _ hs
    · exact memOk_finish _ _ _ h3

theorem memOk_poisonFound : ∀ s k, (s.MemOk) → (poisonFound s k).MemOk := by
  intros
  unfold poisonFound
  (try dsimp only)
  (repeat' split) <;> (with_reducible repeat' first | assumption | apply memOk_endKilled
                                                    | apply memOk_logAt | apply memOk_clearPoison
                                                    | apply memWf_memClear)

theorem memOk_unitRead : ∀ s k n p, (s.MemOk) → unitRead s k n = p → p.1.MemOk := by
  intro s k n p
  intros
  rename_i h
  subst h
  unfold unitRead
  (repeat' split) <;> (with_reducible repeat' first | assumption | apply memOk_fireRead)

theorem memOk_homeRead : ∀ s t off n what p, (s.MemOk) → homeRead s t off n what = p → p.1.MemOk := by
  intro s t off n what p
  intros
  rename_i h
  subst h
  unfold homeRead
  (try dsimp only)
  (repeat' split) <;> (with_reducible repeat' first | assumption | apply memOk_logAt
                                                    | apply memOk_poisonFound
                                                    | refine memOk_unitRead _ _ _ _ ?_ rfl)

theorem memOk_barUpdate : ∀ s t off what f, (s.MemOk) → (barUpdate s t off what f).MemOk := by
  intros
  unfold barUpdate
  (repeat' split) <;> (with_reducible repeat' first | assumption | apply memOk_logAt
                                                    | apply memOk_homeWrite | apply memOk_State_modTile
                                                    | refine memOk_homeRead _ _ _ _ _ _ (by assumption) (by assumption))

theorem memOk_registerAll : ∀ s r d lslot, (s.MemOk) → (registerAll s r d lslot).MemOk := by
  intros
  unfold registerAll
  (try dsimp only)
  (with_reducible repeat' first | assumption | apply memOk_modOut | apply memOk_foldl | split | (intro _ _ _))

theorem memOk_sendLookup : ∀ s slot l, (s.MemOk) → (sendLookup s slot l).MemOk := by
  intros; unfold sendLookup; (with_reducible repeat' first | assumption | apply memOk_sendWork)

theorem memOk_sendStart : ∀ s l slot, (s.MemOk) → (sendStart s l slot).MemOk := by
  intros
  unfold sendStart
  (with_reducible repeat' first | assumption | apply memOk_sendWork | apply memOk_foldl | (intro _ _ _))

theorem memOk_startLaunch : ∀ s slot l, (s.MemOk) → (startLaunch s slot l).MemOk := by
  intros
  unfold startLaunch
  (repeat' split) <;> (with_reducible repeat' first | assumption | apply memOk_sendStart
                                                    | apply memOk_State_setLaunch)

theorem memOk_beginLaunch : ∀ s slot l, (s.MemOk) → (beginLaunch s slot l).MemOk := by
  intros
  unfold beginLaunch
  (repeat' split) <;> (with_reducible repeat' first | assumption | apply memOk_State_setLaunch
                                                    | apply memOk_registerAll | apply memOk_sendLookup
                                                    | apply memOk_startLaunch)

theorem memOk_blockSector : ∀ s home o p, (s.MemOk) → blockSector s home o = p → p.1.MemOk := by
  intro s home o p
  intros
  rename_i h
  subst h
  unfold blockSector
  (try dsimp only)
  (repeat' split) <;> (with_reducible repeat' first | assumption | apply memOk_arrayStore
                                                    | apply memOk_sendWork | apply memOk_touchPage
                                                    | refine memOk_unitRead _ _ _ _ ?_ rfl)

theorem memOk_blockStep : ∀ s home o, (s.MemOk) → (blockStep s home o).MemOk := by
  intros
  unfold blockStep
  (try dsimp only)
  (repeat' split) <;> (with_reducible repeat' first | assumption | apply memOk_finish
                                                    | apply memOk_agentReply | apply memOk_State_modTile
                                                    | refine memOk_blockSector _ _ _ _ ?_ rfl)

theorem memOk_blockWrite : ∀ s k n bs, (s.MemOk) → (blockWrite s k n bs).MemOk := by
  intros
  unfold blockWrite
  (with_reducible repeat' first | assumption | apply memOk_drainN | apply memOk_clearPoison
                                | apply memOk_touchPage | apply memWf_memWrite | apply memWf_memClear)

theorem memOk_busReturn : ∀ s b bad, (s.MemOk) → (busReturn s b bad).MemOk := by
  intros; unfold busReturn; (with_reducible repeat' assumption)

theorem memOk_cancelSaves : ∀ s slot, (s.MemOk) → (cancelSaves s slot).MemOk := by
  intros; unfold cancelSaves; (with_reducible repeat' assumption)

theorem memOk_carriageTrap : ∀ s t k, (s.MemOk) → (carriageTrap s t k).MemOk := by
  intros
  unfold carriageTrap
  (with_reducible repeat' first | assumption | apply memOk_countEvent | apply memOk_State_modTile)

theorem memOk_readPieces : ∀ s l p, s.MemOk → readPieces s l = p → p.1.MemOk := by
  intro s l
  induction l generalizing s with
  | nil => intro p hs h; subst h; exact hs
  | cons a r ih =>
    intro p hs h
    subst h
    cases h1 : unitRead s a.loc.key a.len with | mk s1 bad =>
    cases h2 : readPieces (touchPage s1 a.loc.key a.len) r with | mk s2 q =>
    simp only [readPieces, h1, h2]
    exact ih _ _ (memOk_touchPage _ _ _ (memOk_unitRead _ _ _ _ hs h1)) h2

theorem memOk_castBias : ∀ s d n l p, (s.MemOk) → castBias s d n l = p → p.1.MemOk := by
  intro s d n l p
  intros
  rename_i h
  subst h
  unfold castBias
  (try dsimp only)
  (repeat' split) <;> (with_reducible repeat' first | assumption | refine memOk_readPieces _ _ _ ?_ rfl)

theorem memOk_writePieces : ∀ s t owner lslot tag l b p, s.MemOk →
    writePieces s t owner lslot tag l b = p → p.1.MemOk := by
  intro s t owner lslot tag l
  induction l generalizing s with
  | nil => intro b p hs h; subst h; exact hs
  | cons a r ih =>
    intro b p hs h
    subst h
    unfold writePieces
    dsimp only
    split
    · split
      · have h8 := ih s (b.drop a.len) _ hs rfl; exact h8
      · exact ih _ _ _ (memOk_engWrite _ _ _ hs) rfl
    · exact ih _ _ _ (memOk_sendWork _ _ _ _ _ _ hs) rfl

theorem memOk_engineWalks : ∀ s t asid va n, (s.MemOk) → (engineWalks s t asid va n).MemOk := by
  intros
  unfold engineWalks
  (repeat' split) <;> (with_reducible repeat' first | assumption | apply memOk_engineWalk
                                                    | apply memOk_foldl | (intro _ _ _))

theorem memOk_castRows : ∀ t id r d bias words bad n i k, k.s.MemOk →
    (castRows t id r d bias words bad n i k).s.MemOk := by
  intro t id r d bias words bad n
  induction n with
  | zero => intro i k h; exact h
  | succ n ih =>
    intro i k h
    unfold castRows
    dsimp only
    split
    · exact ih _ _ h
    · split
      · exact ih _ _ (memOk_engineWalks _ _ _ _ _ h)
      · exact ih _ _ (memOk_writePieces _ _ _ _ _ _ _ _ (memOk_engineWalks _ _ _ _ _ h) rfl)

theorem memOk_slotWords : ∀ s t r d p, s.MemOk → slotWords s t r d = p → p.1.MemOk := by
  intro s t r d p hs h
  subst h
  unfold slotWords
  split
  · exact memOk_readPieces _ _ _ hs rfl
  · exact hs

theorem memOk_castTile : ∀ s t id r d, s.MemOk → (castTile s t id r d).s.MemOk := by
  intro s t id r d hs
  unfold castTile
  dsimp only
  have h1 : (if natAt d 16 8 = 0 then (slotWords s t r d).1
      else engineWalks (slotWords s t r d).1 t r.cmd.asid (natAt d 16 8) (4 * r.n)).MemOk := by
    have h0 := memOk_slotWords s t r d _ hs rfl
    split
    · exact h0
    · exact memOk_engineWalks _ _ _ _ _ h0
  split
  · exact h1
  · exact memOk_castRows _ _ _ _ _ _ _ _ _ _ (memOk_castBias _ _ _ _ _ h1 rfl)

theorem memOk_clearPipes : ∀ s l t, (s.MemOk) → (clearPipes s l t).MemOk := by
  intros
  unfold clearPipes
  (try dsimp only)
  (with_reducible repeat' first | assumption | apply memOk_homeWrite | apply memOk_foldl | split
                                | (intro _ _ _))

theorem memOk_rejectReq : ∀ s home r status, (s.MemOk) → (rejectReq s home r status).MemOk := by
  intros; unfold rejectReq; (with_reducible repeat' first | assumption | apply memOk_agentReply)

theorem memOk_closeRanked : ∀ s home e, (s.MemOk) → (closeRanked s home e).MemOk := by
  intros
  unfold closeRanked
  (repeat' split) <;> (with_reducible repeat' first | assumption | apply memOk_finish
                                                    | apply memOk_rejectReq | apply memOk_foldl
                                                    | (intro _ _ _))

theorem memOk_markEffect : ∀ s n, (s.MemOk) → (markEffect s n).MemOk := by
  intros; unfold markEffect; (repeat' split) <;> (with_reducible repeat' assumption)

theorem memOk_sendEffect : ∀ s g c e, (s.MemOk) → (sendEffect s g c e).MemOk := by
  intros
  unfold sendEffect
  (repeat' split) <;> (with_reducible repeat' first | assumption | apply memOk_sendTagged
                                                    | apply memOk_markEffect | apply memOk_foldl
                                                    | (intro _ _ _))

theorem memOk_forwardGroup : ∀ s g gr, (s.MemOk) → (forwardGroup s g gr).MemOk := by
  intros
  unfold forwardGroup
  (repeat' split) <;> (with_reducible repeat' first | assumption | apply memOk_sendEffect
                                                    | apply memOk_countPerf | apply memOk_State_modCtx
                                                    | apply memOk_foldl | (intro _ _ _))

theorem memOk_forwardReleased : ∀ s g, (s.MemOk) → (forwardReleased s g).MemOk := by
  intros
  unfold forwardReleased
  (try dsimp only)
  (repeat' split) <;> (with_reducible repeat' first | assumption | apply memOk_State_modCtx
                                                    | apply memOk_forwardGroup | apply memOk_foldl
                                                    | (intro _ _ _))

theorem memOk_commandKill : ∀ s g, (s.MemOk) → (commandKill s g).MemOk := by
  intros
  unfold commandKill
  (repeat' split) <;> (with_reducible repeat' first | assumption | apply memOk_endKilled
                                                    | apply memOk_forwardReleased)

theorem memOk_readElems : ∀ s r e n p, (s.MemOk) → readElems s r e n = p → p.1.MemOk := by
  intro s r e n p
  intros
  rename_i h
  subst h
  unfold readElems
  (try dsimp only)
  (repeat' split) <;> (with_reducible repeat' first | assumption | apply memOk_injFire
                                                    | apply memOk_touchPage)

theorem memOk_writeElems : ∀ s r e vals bad, (s.MemOk) → (writeElems s r e vals bad).MemOk := by
  intros
  unfold writeElems
  (repeat' split) <;> (with_reducible repeat' first | assumption | apply memOk_arrayStore
                                                    | apply memOk_foldl | split | (intro _ _ _))

theorem memOk_completeRanked : ∀ s home e r, (s.MemOk) → (completeRanked s home e r).MemOk := by
  intros
  unfold completeRanked
  (repeat' split) <;> (with_reducible repeat' first | assumption | apply memOk_finish
                                                    | apply memOk_writeElems | apply memOk_agentReply
                                                    | refine memOk_readElems _ _ _ _ _ ?_ rfl
                                                    | apply memOk_foldl | (intro _ _ _))

theorem memOk_containSpans : ∀ s l, (s.MemOk) → (containSpans s l).MemOk := by
  intros
  unfold containSpans
  (repeat' split) <;> (with_reducible repeat' first | assumption | apply memOk_poisonFound
                                                    | apply memOk_foldl | split | (intro _ _ _))

theorem memOk_holdOp : ∀ s home o, (s.MemOk) → (holdOp s home o).MemOk := by
  intros
  unfold holdOp
  (with_reducible repeat' first | assumption | apply memOk_countEvent | apply memOk_State_modTile)

theorem memOk_continueBlock : ∀ opc s s1, (s.MemOk) → continueBlock opc s = some s1 → s1.MemOk := by
  intro opc s s1
  intros
  rename_i h
  unfold continueBlock at h
  (try dsimp only at h)
  (repeat' split at h) <;>
    (first | (cases h; done) | (injection h with h; subst h
                                (with_reducible repeat' first | assumption | apply memOk_holdOp
                                                              | apply memOk_blockStep)))

theorem memOk_copyArrive : ∀ s t c cls ab, (s.MemOk) → (copyArrive s t c cls ab).MemOk := by
  intros
  unfold copyArrive
  (repeat' split) <;> (with_reducible repeat' first | assumption | apply memOk_logAt
                                                    | apply memOk_sendArrival)

theorem memOk_setLife : ∀ s q l, (s.MemOk) → (setLife s q l).MemOk := by
  intros
  unfold setLife
  (try dsimp only)
  (repeat' split) <;> (with_reducible repeat' first | assumption | apply memOk_areaWrite
                                                    | apply memOk_foldl | (intro _ _ _))

theorem memOk_countLife : ∀ s q t i n, (s.MemOk) → (countLife s q t i n).MemOk := by
  intros; unfold countLife; (with_reducible repeat' first | assumption | apply memOk_setLife)

theorem memOk_countN : ∀ s t i n, s.MemOk → (countN s t i n).MemOk := by
  intro s t i n
  induction n generalizing s with
  | zero => exact fun h => h
  | succ n ih => exact fun h => ih _ (memOk_countEvent _ _ _ h)

theorem memOk_countWaits : ∀ s, (s.MemOk) → (countWaits s).MemOk := by
  intros
  unfold countWaits
  (with_reducible repeat' first | assumption | apply memOk_countPerf | apply memOk_foldl | split
                                | (intro _ _ _))

theorem memOk_poolWrite : ∀ n s q off b, s.MemOk → (poolWrite s q off b n).MemOk := by
  intro n
  induction n with
  | zero => intro s q off b h; exact h
  | succ n ih =>
    intro s q off b h
    unfold poolWrite
    split
    · exact h
    · exact ih _ _ _ _ (memOk_areaWrite _ _ _ h)

theorem memOk_createNode : ∀ s q r par h depth place chunk snap p, (s.MemOk) →
    createNode s q r par h depth place chunk snap = p → p.1.MemOk := by
  intro s q r par h depth place chunk snap p
  intros
  rename_i h
  subst h
  unfold createNode
  (with_reducible repeat' first | assumption | apply memOk_setLife | apply memOk_poolWrite)

theorem memOk_crossFlit_retry : ∀ s link t who s1, (s.MemOk) → crossFlit s link t who = .retry s1 →
    s1.MemOk := by
  intro s link t who s1
  intros
  rename_i h
  unfold crossFlit at h
  (try dsimp only at h)
  (repeat' split at h) <;> ((cases h; (with_reducible repeat' first | assumption | apply memOk_injFire)))

theorem memOk_crossFlit_broken : ∀ s link t who s1, (s.MemOk) → crossFlit s link t who = .broken s1 →
    s1.MemOk := by
  intro s link t who s1
  intros
  rename_i h
  unfold crossFlit at h
  (try dsimp only at h)
  (repeat' split at h) <;> ((cases h; (with_reducible repeat' first | assumption | apply memOk_logAt
                                                                    | apply memOk_injFire)))

theorem memOk_crossFlit_ok : ∀ s link t who s1, (s.MemOk) → crossFlit s link t who = .ok s1 → s1.MemOk := by
  intro s link t who s1
  intros
  rename_i h
  unfold crossFlit at h
  (try dsimp only at h)
  (repeat' split at h) <;> ((cases h; (with_reducible repeat' assumption)))

theorem memOk_setAnswer : ∀ s i a x, (s.MemOk) → (setAnswer s i a x).MemOk := by
  intros; unfold setAnswer; (repeat' split) <;> (with_reducible repeat' assumption)

theorem memOk_crossAnswer : ∀ s link t i a go s1, (∀ s, s.MemOk → (go s).MemOk) → s.MemOk →
    crossAnswer s link t i a go = some s1 → s1.MemOk := by
  intro s link t i a go s1 hg hs h
  unfold crossAnswer at h
  split at h
  · cases h
  · rename_i h1; cases h; exact memOk_crossFlit_retry _ _ _ _ _ hs h1
  · rename_i h1; cases h; exact memOk_crossFlit_broken _ _ _ _ _ hs h1
  · rename_i h1
    have h2 := memOk_crossFlit_ok _ _ _ _ _ hs h1
    split at h <;> cases h
    · exact memOk_setAnswer _ _ _ _ (memOk_logAt _ _ _ _ _ _ _ h2)
    · exact hg _ h2

theorem memOk_loseAt : ∀ s id src place noEject, (s.MemOk) → (loseAt s id src place noEject).MemOk := by
  intros
  unfold loseAt
  (repeat' split) <;> (with_reducible repeat' first | assumption | apply memOk_State_setPkt)

theorem memOk_lose : ∀ s id at_ noEject, (s.MemOk) → (lose s id at_ noEject).MemOk := by
  intros; unfold lose; (repeat' split) <;> (with_reducible repeat' first | assumption | apply memOk_loseAt)

theorem memOk_crossLink : ∀ s link t id i p, (s.MemOk) → crossLink s link t id i = some p → (p.1).MemOk := by
  intro s link t id i p
  intros
  rename_i h
  unfold crossLink at h
  (repeat' split at h) <;>
    (first | (cases h; done) | (injection h with h; subst h
                                (with_reducible repeat' first | apply memOk_lose
                                                              | refine memOk_crossFlit_retry _ _ _ _ _ (by assumption) (by assumption) | refine memOk_crossFlit_broken _ _ _ _ _ (by assumption) (by assumption) | refine memOk_crossFlit_ok _ _ _ _ _ (by assumption) (by assumption))))

theorem memOk_crossHop : ∀ s id p x q, s.MemOk → crossHop s id p x = some q → q.1.MemOk := by
  intro s id p x q hs h
  cases x with
  | leaf => exact memOk_crossLink _ _ _ _ _ _ hs h
  | input w => exact memOk_crossLink _ _ _ _ _ _ hs h
  | blocked => cases h

theorem memOk_crossPort : ∀ s e, (s.MemOk) → (crossPort s e).MemOk := by
  intros
  unfold crossPort
  (repeat' split) <;> (with_reducible repeat' first | assumption | apply memOk_injFire | apply memOk_foldl
                                                    | split | (intro _ _ _))

theorem memOk_ctlPieces : ∀ s l p, s.MemOk → ctlPieces s l = p → p.1.MemOk := by
  intro s l
  induction l generalizing s with
  | nil => intro p hs h; subst h; exact hs
  | cons a r ih =>
    intro p hs h
    subst h
    cases h1 : unitRead s a.loc.key a.len with | mk s1 bad =>
    cases h2 : ctlPieces (touchPage s1 a.loc.key a.len) r with | mk s2 q =>
    simp only [ctlPieces, h1, h2]
    exact ih _ _ (memOk_touchPage _ _ _ (memOk_unitRead _ _ _ _ hs h1)) h2

theorem memOk_ctlRead_ok : ∀ s t asid a n s1 b1, (s.MemOk) → ctlRead s t asid a n = .ok s1 b1 → s1.MemOk := by
  intro s t asid a n s1 b1
  intros
  rename_i h
  unfold ctlRead at h
  (try dsimp only at h)
  (repeat' split at h) <;> ((cases h; (with_reducible repeat' first | assumption | apply memOk_engineWalks
                                                                    | refine memOk_ctlPieces _ _ _ ?_ (by assumption))))

theorem memOk_ctlRead_fail : ∀ s t asid a n s1, (s.MemOk) → ctlRead s t asid a n = .fail s1 → s1.MemOk := by
  intro s t asid a n s1
  intros
  rename_i h
  unfold ctlRead at h
  (try dsimp only at h)
  (repeat' split at h) <;> ((cases h; (with_reducible repeat' first | assumption | apply memOk_engineWalks
                                                                    | refine memOk_ctlPieces _ _ _ ?_ (by assumption))))

theorem memOk_noteIssue : ∀ s g, (s.MemOk) → (noteIssue s g).MemOk := by
  intros
  unfold noteIssue
  (repeat' split) <;> (with_reducible repeat' first | assumption | apply memOk_State_modTile)

theorem memOk_issueHead_done : ∀ s g line at_ s1, (s.MemOk) → issueHead s g line at_ = .done s1 →
    s1.MemOk := by
  intro s g line at_ s1
  intros
  rename_i h
  unfold issueHead at h
  (try dsimp only at h)
  (repeat' split at h) <;> ((cases h; (with_reducible repeat' first | assumption | apply memOk_stopHead)))

theorem memOk_issueHead_run : ∀ s g line at_ i1 s1, (s.MemOk) → issueHead s g line at_ = .run i1 s1 →
    s1.MemOk := by
  intro s g line at_ i1 s1
  intros
  rename_i h
  unfold issueHead at h
  (try dsimp only at h)
  (repeat' split at h) <;> ((cases h; (with_reducible repeat' assumption)))

theorem memOk_wakeCtx : ∀ s g, (s.MemOk) → (wakeCtx s g).MemOk := by
  intros
  unfold wakeCtx
  (repeat' split) <;> (with_reducible repeat' first | assumption | apply memOk_consumePoison
                                                    | apply memOk_continueBundle)

theorem memOk_issueFault : ∀ s g cause addr target pte, (s.MemOk) →
    (issueFault s g cause addr target pte).MemOk := by
  intros; unfold issueFault; (with_reducible repeat' first | assumption | apply memOk_faultHead)

theorem memOk_touchFetch : ∀ s g a, (s.MemOk) → (touchFetch s g a).MemOk := by
  intros
  unfold touchFetch
  (repeat' split) <;> (with_reducible repeat' first | assumption | apply memOk_fireRead
                                                    | apply memOk_noteWalk | apply memOk_State_modCtx
                                                    | apply memOk_touchPage)

theorem memOk_holdLine : ∀ s g a b, (s.MemOk) → (holdLine s g a b).MemOk := by
  intros
  unfold holdLine
  (repeat' split) <;> (with_reducible repeat' first | assumption | apply memOk_State_modCtx
                                                    | apply memOk_touchFetch)

theorem memOk_issueBundle_done : ∀ s g c s1, (s.MemOk) → issueBundle s g c = .done s1 → s1.MemOk := by
  intro s g c s1; intros; rename_i h; unfold issueBundle at h; (repeat' split at h) <;> (first | (cases h; (with_reducible repeat' first | assumption | apply memOk_consumePoison | apply memOk_issueFault | apply memOk_fireRead | apply memOk_holdLine | apply memOk_State_modCtx)) | (refine memOk_issueHead_done _ _ _ _ _ ?_ h <;> (with_reducible repeat' first | assumption | apply memOk_consumePoison | apply memOk_issueFault | apply memOk_fireRead | apply memOk_holdLine | apply memOk_State_modCtx)))

theorem memOk_issueBundle_run : ∀ s g c i1 s1, (s.MemOk) → issueBundle s g c = .run i1 s1 → s1.MemOk := by
  intro s g c i1 s1
  intros
  rename_i h
  unfold issueBundle at h
  (repeat' split at h) <;>
    (first | (cases h; done) | (refine memOk_issueHead_run _ _ _ _ _ _ ?_ h <;> (with_reducible repeat' first | assumption | apply memOk_holdLine)))

theorem memOk_issueCtx_done : ∀ s g s1, (s.MemOk) → issueCtx s g = .done s1 → s1.MemOk := by
  intro s g s1; intros; rename_i h; unfold issueCtx at h; (try dsimp only at h); (repeat' split at h) <;> (first | (cases h; (with_reducible repeat' first | assumption | apply memOk_takeTrap | apply memOk_wakeCtx | apply memOk_State_modCtx)) | (refine memOk_issueHead_done _ _ _ _ _ ?_ h <;> (with_reducible repeat' first | assumption | apply memOk_takeTrap | apply memOk_wakeCtx | apply memOk_State_modCtx)) | (refine memOk_issueBundle_done _ _ _ _ ?_ h <;> (with_reducible repeat' first | assumption | apply memOk_takeTrap | apply memOk_wakeCtx | apply memOk_State_modCtx)))

theorem memOk_issueCtx_run : ∀ s g i1 s1, (s.MemOk) → issueCtx s g = .run i1 s1 → s1.MemOk := by
  intro s g i1 s1; intros; rename_i h; unfold issueCtx at h; (try dsimp only at h); (repeat' split at h) <;> (first | (cases h; done) | (refine memOk_issueHead_run _ _ _ _ _ _ ?_ h <;> (with_reducible repeat' first | assumption | apply memOk_State_modCtx)) | (refine memOk_issueBundle_run _ _ _ _ _ ?_ h <;> (with_reducible repeat' first | assumption | apply memOk_State_modCtx)))

theorem memOk_turnOf_done : ∀ s g s1, (s.MemOk) → turnOf s g = .done s1 → s1.MemOk := by
  intro s g s1; intros; rename_i h; unfold turnOf at h; (repeat' split at h) <;> (first | (cases h; (with_reducible repeat' first | assumption | apply memOk_noteIssue)) | (refine memOk_issueCtx_done _ _ _ ?_ h <;> (with_reducible repeat' first | assumption | apply memOk_noteIssue)))

theorem memOk_turnOf_run : ∀ s g i1 s1, (s.MemOk) → turnOf s g = .run i1 s1 → s1.MemOk := by
  intro s g i1 s1
  intros
  rename_i h
  unfold turnOf at h
  (repeat' split at h) <;>
    (first | (cases h; done) | (refine memOk_issueCtx_run _ _ _ _ ?_ h <;> (with_reducible repeat' first | assumption | apply memOk_noteIssue)))

theorem memOk_delCmd : ∀ s t id, (s.MemOk) → (delCmd s t id).MemOk := by
  intros; unfold delCmd; (with_reducible repeat' first | assumption | apply memOk_modOut)

theorem memOk_discardBad : ∀ s id p at_, (s.MemOk) → (discardBad s id p at_).MemOk := by
  intros
  unfold discardBad
  (repeat' split) <;> (with_reducible repeat' first | assumption | apply memOk_lose | apply memOk_logAt)

theorem memOk_startCopy : ∀ s g owner twin l tr, (s.MemOk) → (startCopy s g owner twin l tr).MemOk := by
  intros
  unfold startCopy
  (with_reducible repeat' first | assumption | apply memOk_blockWrite | apply memOk_State_setCtx)

theorem memOk_startTrig : ∀ s sl l tr, (s.MemOk) → (startTrig s sl l tr).MemOk := by
  intros
  unfold startTrig
  (repeat' split) <;> (with_reducible repeat' first | assumption | apply memOk_startCopy
                                                    | apply memOk_State_modTile)

theorem memOk_dispatchNow : ∀ s t k q tr s1, (s.MemOk) → dispatchNow s t k q tr = some s1 → s1.MemOk := by
  intro s t k q tr s1
  intros
  rename_i h
  unfold dispatchNow at h
  (try dsimp only at h)
  (repeat' split at h) <;>
    (first | (cases h; done) | (injection h with h; subst h
                                (with_reducible repeat' first | assumption | apply memOk_State_modTile
                                                              | apply memOk_startTrig)))

theorem memOk_dispatchStaged : ∀ s t i s1, (s.MemOk) → dispatchStaged s t i = some s1 → s1.MemOk := by
  intro s t i s1
  intros
  rename_i h
  unfold dispatchStaged at h
  (repeat' split at h) <;>
    (first | (cases h; done) | (injection h with h; subst h
                                (with_reducible repeat' first | assumption | apply memOk_State_modTile
                                                              | apply memOk_startTrig)))

theorem memOk_setUnit : ∀ s t u, (s.MemOk) → (setUnit s t u).MemOk := by
  intros; unfold setUnit; (with_reducible repeat' first | assumption | apply memOk_State_modTile)

theorem memOk_foundIn : ∀ s t lslot r, (s.MemOk) → (foundIn s t lslot r).MemOk := by
  intros
  unfold foundIn
  (repeat' split) <;> (with_reducible repeat' first | assumption | apply memOk_logAt | apply memOk_setUnit)

theorem memOk_readAcc : ∀ s t lslot a rows, (s.MemOk) → (readAcc s t lslot a rows).MemOk := by
  intros
  unfold readAcc
  (repeat' split) <;> (with_reducible repeat' first | assumption | apply memOk_foundIn)

theorem memOk_reportRows : ∀ s t k lslot l, (s.MemOk) → (reportRows s t k lslot l).MemOk := by
  intros
  unfold reportRows
  (repeat' split) <;> (with_reducible repeat' first | assumption | apply memOk_logAt | apply memOk_setUnit
                                                    | apply memOk_countEvent | apply memOk_foldl
                                                    | (intro _ _ _))

theorem memOk_drainCheck : ∀ s t c i, (s.MemOk) → (drainCheck s t c i).MemOk := by
  intros
  unfold drainCheck
  (repeat' split) <;> (with_reducible repeat' first | assumption | apply memOk_setUnit
                                                    | apply memOk_readAcc | apply memOk_reportRows)

theorem memOk_pullEarly : ∀ s src dst n, s.MemOk → (pullEarly s src dst n).MemOk := by
  intro s src dst n
  induction n generalizing s with
  | zero => exact fun h => h
  | succ n ih =>
    intro h
    unfold pullEarly
    split
    · exact ih _ (memOk_accept _ _ _ h)
    · exact h

theorem memOk_dropAfter : ∀ s id, (s.MemOk) → (dropAfter s id).MemOk := by
  intros
  unfold dropAfter
  (repeat' split) <;> (with_reducible repeat' first | assumption | apply memOk_pullEarly
                                                    | apply memOk_foldl | (intro _ _ _))

theorem memOk_dropHeld : ∀ s p id, (s.MemOk) → (dropHeld s p id).MemOk := by
  intros
  unfold dropHeld
  (repeat' split) <;> (with_reducible repeat' first | assumption | apply memOk_State_modTile)

theorem memOk_dropPins : ∀ s slot, (s.MemOk) → (dropPins s slot).MemOk := by
  intros
  unfold dropPins
  (repeat' split) <;> (with_reducible repeat' first | assumption | apply memOk_setLife | apply memOk_foldl
                                                    | (intro _ _ _))

theorem memOk_setChain : ∀ s t c f, (s.MemOk) → (setChain s t c f).MemOk := by
  intros
  unfold setChain
  (repeat' split) <;> (with_reducible repeat' first | assumption | apply memOk_modQueue | apply memOk_modList)

theorem memOk_endChain : ∀ s t c, (s.MemOk) → (endChain s t c).MemOk := by
  intros
  unfold endChain
  (repeat' split) <;> (with_reducible repeat' first | assumption | apply memOk_setChain)

theorem memOk_matArrive : ∀ s t c cls ab, (s.MemOk) → (matArrive s t c cls ab).MemOk := by
  intros
  unfold matArrive
  (repeat' split) <;> (with_reducible repeat' first | assumption | apply memOk_logAt
                                                    | apply memOk_sendArrival)

theorem memOk_matDone : ∀ s t id c cls ab refused, (s.MemOk) → (matDone s t id c cls ab refused).MemOk := by
  intros
  unfold matDone
  (repeat' split) <;> (with_reducible repeat' first | assumption | apply memOk_matArrive
                                                    | apply memOk_State_modTile)

theorem memOk_setCur : ∀ s t c, (s.MemOk) → (setCur s t c).MemOk := by
  intros; unfold setCur; (with_reducible repeat' first | assumption | apply memOk_State_modTile)

theorem memOk_endCmd : ∀ s t c, (s.MemOk) → (endCmd s t c).MemOk := by
  intros
  unfold endCmd
  (repeat' split) <;> (with_reducible repeat' first | assumption | apply memOk_matDone | apply memOk_setCur)

theorem memOk_writeCrco : ∀ s t c p, (s.MemOk) → writeCrco s t c = p → p.1.MemOk := by
  intro s t c p
  intros
  rename_i h
  subst h
  unfold writeCrco
  (repeat' split) <;> (with_reducible repeat' first | assumption | apply memOk_engWrite)

theorem memOk_endCopy : ∀ s t c, (s.MemOk) → (endCopy s t c).MemOk := by
  intros
  unfold endCopy
  (repeat' split) <;> (with_reducible repeat' first | assumption | apply memOk_delCmd
                                                    | apply memOk_endChain | apply memOk_copyArrive
                                                    | apply memOk_listReport
                                                    | refine memOk_writeCrco _ _ _ _ ?_ rfl)

theorem memOk_endPcyc : ∀ s cl cw, (s.MemOk) → (endPcyc s cl cw).MemOk := by
  intros
  unfold endPcyc
  (repeat' split) <;> (with_reducible repeat' first | assumption | apply memOk_State_modRing)

theorem memOk_leavePool : ∀ s id p cw st i, (s.MemOk) → (leavePool s id p cw st i).MemOk := by
  intros
  unfold leavePool
  (repeat' split) <;> (with_reducible repeat' first | assumption | apply memOk_State_modRing)

theorem memOk_enterEscape : ∀ s id p cw st i, (s.MemOk) → (enterEscape s id p cw st i).MemOk := by
  intros
  unfold enterEscape
  (repeat' split) <;> (with_reducible repeat' first | assumption | apply memOk_leavePool
                                                    | apply memOk_State_setPkt | apply memOk_State_modRing)

theorem memOk_queueLife : ∀ s q r, (s.MemOk) → (queueLife s q r).MemOk := by
  intros; unfold queueLife; (with_reducible repeat' first | assumption | apply memOk_setLife)

theorem memOk_routeLife : ∀ s e q r, (s.MemOk) → (routeLife s e q r).MemOk := by
  intros
  unfold routeLife
  (repeat' split) <;> (with_reducible repeat' first | assumption | apply memOk_queueLife
                                                    | apply memOk_sendWork)

theorem memOk_lifeRead_ok : ∀ s r a n s1 b1, (s.MemOk) → lifeRead s r a n = .ok s1 b1 → s1.MemOk := by
  intro s r a n s1 b1
  intros
  rename_i h
  unfold lifeRead at h
  (try dsimp only at h)
  (repeat' split at h) <;> ((cases h; (with_reducible repeat' first | assumption | apply memOk_engineWalks
                                                                    | refine memOk_readPieces _ _ _ ?_ (by assumption))))

theorem memOk_lifeRead_fail : ∀ s r a n s1 b1, (s.MemOk) → lifeRead s r a n = .fail s1 b1 → s1.MemOk := by
  intro s r a n s1 b1
  intros
  rename_i h
  unfold lifeRead at h
  (try dsimp only at h)
  (repeat' split at h) <;> ((cases h; (with_reducible repeat' first | assumption | apply memOk_engineWalks
                                                                    | refine memOk_readPieces _ _ _ ?_ (by assumption))))

theorem memOk_lifeAnswer : ∀ s q r st stale data, (s.MemOk) → (lifeAnswer s q r st stale data).MemOk := by
  intros; unfold lifeAnswer; (with_reducible repeat' first | assumption | apply memOk_sendWork)

theorem memOk_lifeFail : ∀ s q r st stale, (s.MemOk) → (lifeFail s q r st stale).MemOk := by
  intros; unfold lifeFail; (with_reducible repeat' first | assumption | apply memOk_lifeAnswer)

theorem memOk_enterLife : ∀ s e r s1, (s.MemOk) → enterLife s e r = some s1 → s1.MemOk := by
  intro s e r s1
  intros
  rename_i h
  unfold enterLife at h
  (repeat' split at h) <;>
    (first | (cases h; done) | (injection h with h; subst h
                                (with_reducible repeat' first | assumption | apply memOk_countLife
                                                              | apply memOk_queueLife
                                                              | apply memOk_routeLife
                                                              | apply memOk_lifeFail
                                                              | refine memOk_lifeRead_ok _ _ _ _ _ _ (by assumption) (by assumption) | refine memOk_lifeRead_fail _ _ _ _ _ _ (by assumption) (by assumption))))

theorem memOk_evict : ∀ s q i, (s.MemOk) → (evict s q i).MemOk := by
  intros
  unfold evict
  (try dsimp only)
  (repeat' split) <;> (with_reducible repeat' first | assumption | apply memOk_setLife
                                                    | apply memOk_sendWork | apply memOk_touchPage)

theorem memOk_evictTree : ∀ s q t n, s.MemOk → (evictTree s q t n).MemOk := by
  intro s q t n
  induction n generalizing s with
  | zero => exact fun h => h
  | succ n ih =>
    intro h
    unfold evictTree
    split
    · exact ih _ (memOk_evict _ _ _ h)
    · exact h

theorem memOk_groupDone : ∀ s t c, (s.MemOk) → (groupDone s t c).MemOk := by
  intros
  unfold groupDone
  (repeat' split) <;> (with_reducible repeat' first | assumption | apply memOk_setCur)

theorem memOk_tryRingSlotCopy : ∀ s s1, (s.MemOk) → tryRingSlotCopy s = some s1 → s1.MemOk := by
  intro s s1
  intros
  rename_i h
  unfold tryRingSlotCopy at h
  (try dsimp only at h)
  (repeat' split at h) <;>
    (first | (cases h; done) | (injection h with h; subst h
                                (with_reducible repeat' first | assumption | apply memOk_setUnit
                                                              | apply memOk_readAcc | apply memOk_groupDone
                                                              | apply memOk_setCur
                                                              | refine memOk_writePieces _ _ _ _ _ _ _ _ ?_ rfl)))

theorem memOk_stepDone : ∀ s t c steps, (s.MemOk) → (stepDone s t c steps).MemOk := by
  intros
  unfold stepDone
  (repeat' split) <;> (with_reducible repeat' first | assumption | apply memOk_countPerf
                                                    | apply memOk_endCmd | apply memOk_setCur)

theorem memOk_tryTcfgPerform : ∀ s s1, (s.MemOk) → tryTcfgPerform s = some s1 → s1.MemOk := by
  intro s s1
  intros
  rename_i h
  unfold tryTcfgPerform at h
  (obtain ⟨_, _, rfl⟩ := Option.map_eq_some_iff.1 h; (with_reducible repeat' first | assumption
                                                                                   | apply memOk_stepDone
                                                                                   | apply memOk_setUnit))

theorem memOk_orderSave : ∀ s g, (s.MemOk) → (orderSave s g).MemOk := by
  intros
  unfold orderSave
  (repeat' split) <;> (with_reducible repeat' first | assumption | apply memOk_State_modCtx)

theorem memOk_preemptLaunch : ∀ s slot byHost, (s.MemOk) → (preemptLaunch s slot byHost).MemOk := by
  intros
  unfold preemptLaunch
  (with_reducible repeat' first | assumption | apply memOk_State_setLaunch | apply memOk_orderSave
                                | apply memOk_foldl | split | (intro _ _ _))

theorem memOk_tryVaultBusParityError : ∀ s s1, (s.MemOk) → tryVaultBusParityError s = some s1 → s1.MemOk := by
  intro s s1
  intros
  rename_i h
  unfold tryVaultBusParityError at h
  (try dsimp only at h)
  (repeat' split at h) <;> (injection h with h; subst h; (with_reducible repeat' first | assumption
                                                                                       | apply memOk_logAt
                                                                                       | apply memOk_State_setTile | apply memOk_countEvent | apply memOk_preemptLaunch | apply memOk_foldl | (intro _ _ _)))

theorem memOk_resetState : ∀ s, s.MemOk → (resetState s).MemOk := by
  intro s _
  unfold resetState
  dsimp only
  split
  · exact memOk_logAt _ _ _ _ _ _ _ (by rfl)
  · rfl

theorem memOk_tryModuleReset : ∀ s s1, (s.MemOk) → tryModuleReset s = some s1 → s1.MemOk := by
  intro s s1
  intros
  rename_i h
  unfold tryModuleReset at h
  (repeat' split at h) <;> (injection h with h; subst h; (with_reducible repeat' first | assumption
                                                                                       | apply memOk_logAt
                                                                                       | apply memOk_resetState))

theorem memOk_walkSpans : ∀ s t asid l, (s.MemOk) → (walkSpans s t asid l).MemOk := by
  intros
  unfold walkSpans
  (repeat' split) <;> (with_reducible repeat' first | assumption | apply memOk_engineWalks
                                                    | apply memOk_foldl | (intro _ _ _))

theorem memOk_readRows : ∀ s t lslot n rows, (s.MemOk) → (readRows s t lslot n rows).MemOk := by
  intros
  unfold readRows
  (repeat' split) <;> (with_reducible repeat' first | assumption | apply memOk_foundIn)

theorem memOk_stopCmd : ∀ s t c cls write l, (s.MemOk) → (stopCmd s t c cls write l).MemOk := by
  intros
  unfold stopCmd
  (repeat' split) <;> (with_reducible repeat' first | assumption | apply memOk_countPerf
                                                    | apply memOk_matDone | apply memOk_setCur)

theorem memOk_tryTstStep : ∀ s s1, (s.MemOk) → tryTstStep s = some s1 → s1.MemOk := by
  intro s s1
  intros
  rename_i h
  unfold tryTstStep at h
  (try dsimp only at h)
  (repeat' split at h) <;>
    (first | (cases h; done) | (injection h with h; subst h
                                (with_reducible repeat' first | assumption | apply memOk_carriageTrap
                                                              | apply memOk_stepDone
                                                              | apply memOk_walkSpans
                                                              | apply memOk_readRows | apply memOk_stopCmd
                                                              | refine memOk_writePieces _ _ _ _ _ _ _ _ ?_ rfl)))

theorem memOk_refuseControl : ∀ s t c, (s.MemOk) → (refuseControl s t c).MemOk := by
  intros
  unfold refuseControl
  (with_reducible repeat' first | assumption | apply memOk_logAt | apply memOk_modList)

theorem memOk_listPacket_packet : ∀ s t c i s1 b1, (s.MemOk) → listPacket s t c i = .packet s1 b1 →
    s1.MemOk := by
  intro s t c i s1 b1
  intros
  rename_i h
  unfold listPacket at h
  (repeat' split at h) <;> ((cases h; (with_reducible repeat' first | apply memOk_engineWalk
                                                                    | apply memOk_touchPage
                                                                    | refine memOk_unitRead _ _ _ _ (by assumption) (by assumption))))

theorem memOk_listPacket_stop : ∀ s t c i s1 n1, (s.MemOk) → listPacket s t c i = .stop s1 n1 → s1.MemOk := by
  intro s t c i s1 n1
  intros
  rename_i h
  unfold listPacket at h
  (repeat' split at h) <;> ((cases h; (with_reducible repeat' first | assumption | apply memOk_engineWalk
                                                                    | refine memOk_unitRead _ _ _ _ (by assumption) (by assumption))))

theorem memOk_stopList : ∀ s t id cls, (s.MemOk) → (stopList s t id cls).MemOk := by
  intros; unfold stopList; (with_reducible repeat' first | assumption | apply memOk_modList)

theorem memOk_tryListBranch : ∀ s s1, s.MemOk → tryListBranch s = some s1 → s1.MemOk := by
  intro s s1 hs h
  unfold tryListBranch at h
  dsimp only at h
  split at h
  · cases h
  · split at h
    · cases h
    · split at h
      · cases h
      · split at h
        · rename_i h1
          have h2 := memOk_listPacket_packet _ _ _ _ _ _ hs h1
          split at h
          · cases h
          · split at h
            · cases h; exact memOk_refuseControl _ _ _ h2
            · split at h
              · cases h; exact memOk_stopList _ _ _ _ h2
              · split at h
                · cases h; exact memOk_stopList _ _ _ _ h2
                · split at h
                  · rename_i h3; cases h; exact memOk_stopList _ _ _ _ (memOk_unitRead _ _ _ _ h2 h3)
                  · rename_i h3
                    have h4 := memOk_unitRead _ _ _ _ h2 h3
                    clear h3 h2 h1 hs
                    have h5 : ∀ (p : Prop) [Decidable p] (a b : State), a.MemOk → b.MemOk →
                        (if p then some a else some b) = some s1 → s1.MemOk := by
                      intro p _ a b ha hb h
                      split at h <;> cases h
                      · exact ha
                      · exact hb
                    exact h5 _ _ _ (memOk_stopList _ _ _ _ h4) (memOk_modList _ _ _ _ h4) h
        · cases h

theorem memOk_tryCopyComplete : ∀ s s1, (s.MemOk) → tryCopyComplete s = some s1 → s1.MemOk := by
  intro s s1
  intros
  rename_i h
  unfold tryCopyComplete at h
  (try dsimp only at h)
  (repeat' split at h) <;>
    (first | (cases h; done) | (injection h with h; subst h
                                (with_reducible repeat' first | assumption | apply memOk_endCopy)))

theorem memOk_pacerLoad : ∀ s g k a s1, (s.MemOk) → pacerLoad s g k a = some s1 → s1.MemOk := by
  intro s g k a s1
  intros
  rename_i h
  unfold pacerLoad at h
  (try dsimp only at h)
  (repeat' split at h) <;>
    (first | (cases h; done) | (injection h with h; subst h
                                (with_reducible repeat' first | assumption | apply memOk_State_modCtx
                                                              | apply memOk_logPte | apply memOk_injFire
                                                              | refine memOk_runActs _ _ _ _ ?_ rfl)))

theorem memOk_tryPacerRead : ∀ s s1, (s.MemOk) → tryPacerRead s = some s1 → s1.MemOk := by
  intro s s1
  intros
  rename_i h
  unfold tryPacerRead at h
  (try dsimp only at h)
  (repeat' split at h) <;>
    (first | (cases h; done) | (injection h with h; subst h
                                (with_reducible repeat' first | assumption | apply memOk_State_setCtx)) | (refine memOk_pacerLoad _ _ _ _ _ ?_ h <;> (with_reducible repeat' first | assumption | apply memOk_State_setCtx)))

theorem memOk_tryJoinCountAdd : ∀ s s1, (s.MemOk) → tryJoinCountAdd s = some s1 → s1.MemOk := by
  intro s s1
  intros
  rename_i h
  unfold tryJoinCountAdd at h
  (repeat' split at h) <;>
    (first | (cases h; done) | (injection h with h; subst h
                                (with_reducible repeat' first | assumption | apply memOk_rejectStale
                                                              | apply memOk_logAt | apply memOk_finish
                                                              | apply memOk_homeWrite
                                                              | refine memOk_homeRead _ _ _ _ _ _ (by assumption) (by assumption))))

theorem memOk_settleMatrix : ∀ s t, (s.MemOk) → (settleMatrix s t).MemOk := by
  intros
  unfold settleMatrix
  (with_reducible repeat' first | assumption | apply memOk_matArrive | apply memOk_State_modTile
                                | apply memOk_foldl | (intro _ _ _))

theorem memOk_settleOwner : ∀ s p, (s.MemOk) → (settleOwner s p).MemOk := by
  intros
  unfold settleOwner
  (repeat' split) <;> (with_reducible repeat' first | assumption | apply memOk_settleMatrix)

theorem memOk_releaseAfter : ∀ s id, (s.MemOk) → (releaseAfter s id).MemOk := by
  intros; unfold releaseAfter; (repeat' split) <;> (with_reducible repeat' assumption)

theorem memOk_turnAcks : ∀ s cl cw, (s.MemOk) → (turnAcks s cl cw).MemOk := by
  intros; unfold turnAcks; (repeat' split) <;> (with_reducible repeat' assumption)

theorem memOk_moveAnswer : ∀ s i a s1, s.MemOk → moveAnswer s i a = some s1 → s1.MemOk := by
  intro s i a s1 hs h
  unfold moveAnswer at h
  dsimp only at h
  have hc : ∀ link t go, (∀ s, s.MemOk → (go s).MemOk) → crossAnswer s link t i a go = some s1 → s1.MemOk :=
    fun link t go hg h => memOk_crossAnswer _ _ _ _ _ _ _ hg hs h
  (repeat' split at h) <;> first
    | (cases h; done)
    | exact hc _ _ _ (fun s h => memOk_setAnswer _ _ _ _ h) h
    | exact hc _ _ _ (fun s h => memOk_turnAcks _ _ _ h) h
    | (cases h; exact memOk_setAnswer _ _ _ _ hs)

theorem memOk_imageFails : ∀ s t cmd l cls, (s.MemOk) → (imageFails s t cmd l cls).MemOk := by
  intros; unfold imageFails; (repeat' split) <;> (with_reducible repeat' assumption)

theorem memOk_ownerFails : ∀ s p status perf, (s.MemOk) → (ownerFails s p status perf).MemOk := by
  intros
  unfold ownerFails
  (repeat' split) <;> (with_reducible repeat' first | assumption | apply memOk_imageFails
                                                    | apply memOk_State_modTile)

theorem memOk_tryAckArrival : ∀ s s1, (s.MemOk) → tryAckArrival s = some s1 → s1.MemOk := by
  intro s s1; intros; rename_i h; unfold tryAckArrival at h; (repeat' split at h) <;> (first | (cases h; done) | (injection h with h; subst h; (with_reducible repeat' first | assumption | apply memOk_settleOwner | apply memOk_releaseAfter | apply memOk_ownerFails | apply memOk_dropAfter)) | (refine memOk_moveAnswer _ _ _ _ ?_ h <;> (with_reducible repeat' first | assumption | apply memOk_settleOwner | apply memOk_releaseAfter | apply memOk_ownerFails | apply memOk_dropAfter)))

theorem memOk_tryEscapeEnter : ∀ s s1, (s.MemOk) → tryEscapeEnter s = some s1 → s1.MemOk := by
  intro s s1
  intros
  rename_i h
  unfold tryEscapeEnter at h
  (try dsimp only at h)
  (repeat' split at h) <;>
    (first | (cases h; done) | (injection h with h; subst h
                                (with_reducible repeat' first | assumption | apply memOk_countPerf
                                                              | apply memOk_enterEscape)))

theorem memOk_mailCmd : ∀ opc need (f : State → State) s s1, (∀ s, s.MemOk → (f s).MemOk) → s.MemOk →
    mailCmd opc need f s = some s1 → s1.MemOk := by
  intro opc need f s s1 hf hs h
  unfold mailCmd at h
  split at h
  · cases h
  · split at h
    · cases h; exact memOk_answer _ _ _ hs
    · split at h
      · cases h; exact memOk_answer _ _ _ hs
      · cases h; exact hf _ hs

theorem memOk_performElems : ∀ s home r e n f o value, (s.MemOk) →
    (performElems s home r e n f o value).MemOk := by
  intros
  unfold performElems
  (with_reducible repeat' first | assumption | apply memOk_writeElems | apply memOk_agentReply
                                | refine memOk_readElems _ _ _ _ _ ?_ rfl)

theorem memOk_performRsax : ∀ s home r, (s.MemOk) → (performRsax s home r).MemOk := by
  intros; unfold performRsax; (with_reducible repeat' first | assumption | apply memOk_performElems)

theorem memOk_performRld : ∀ s home r, (s.MemOk) → (performRld s home r).MemOk := by
  intros
  unfold performRld
  (try dsimp only)
  (repeat' split) <;> (with_reducible repeat' first | assumption | apply memOk_agentReply
                                                    | refine memOk_readElems _ _ _ _ _ ?_ rfl)

theorem memOk_performRred : ∀ s home r, (s.MemOk) → (performRred s home r).MemOk := by
  intros; unfold performRred; (with_reducible repeat' first | assumption | apply memOk_performElems)

theorem memOk_performRcas : ∀ s home r, (s.MemOk) → (performRcas s home r).MemOk := by
  intros; unfold performRcas; (with_reducible repeat' first | assumption | apply memOk_performElems)

theorem memOk_performRst : ∀ s home r, (s.MemOk) → (performRst s home r).MemOk := by
  intros
  unfold performRst
  (repeat' split) <;> (with_reducible repeat' first | assumption | apply memOk_arrayStore
                                                    | apply memOk_agentReply)

theorem memOk_performRanked : ∀ s home r, (s.MemOk) → (performRanked s home r).MemOk := by
  intros
  unfold performRanked
  (try dsimp only)
  (repeat' split) <;> (with_reducible repeat' first | assumption | apply memOk_completeRanked
                                                    | apply memOk_finish | apply memOk_handOver
                                                    | apply memOk_State_modTile | apply memOk_rejectReq)

theorem memOk_performReq : ∀ s home r, (s.MemOk) → (performReq s home r).MemOk := by
  intros
  unfold performReq
  (repeat' split) <;> (with_reducible repeat' first | assumption | apply memOk_performRsax
                                                    | apply memOk_performRld | apply memOk_performRred
                                                    | apply memOk_performRcas | apply memOk_finish
                                                    | apply memOk_performRst | apply memOk_performRanked
                                                    | apply memOk_blockStep)

theorem memOk_takeRequest : ∀ opc s s1, (s.MemOk) → takeRequest opc s = some s1 → s1.MemOk := by
  intro opc s s1
  intros
  rename_i h
  unfold takeRequest at h
  (try dsimp only at h)
  (repeat' split at h) <;>
    (first | (cases h; done) | (injection h with h; subst h
                                (with_reducible repeat' first | assumption | apply memOk_finish
                                                              | apply memOk_performReq | apply memOk_holdOp
                                                              | apply memOk_rejectReq)))

theorem memOk_tryQuiesceComplete : ∀ s s1, (s.MemOk) → tryQuiesceComplete s = some s1 → s1.MemOk := by
  intro s s1
  intros
  rename_i h
  unfold tryQuiesceComplete at h
  (repeat' split at h) <;>
    (first | (cases h; done) | (injection h with h; subst h
                                (with_reducible repeat' first | assumption | apply memOk_complete)))

theorem memOk_tryTdrainStep : ∀ s s1, s.MemOk → tryTdrainStep s = some s1 → s1.MemOk := by
  intro s s1 hs h
  unfold tryTdrainStep at h
  dsimp only at h
  split at h
  · cases h
  · split at h
    · cases h; exact memOk_stopCmd _ _ _ _ _ _ hs
    · have hw : ∀ t a v n, (engineWalks s t a v n).MemOk := fun t a v n => memOk_engineWalks _ _ _ _ _ hs
      split at h
      · cases h
      · cases h; exact memOk_carriageTrap _ _ _ (hw _ _ _ _)
      · cases h; exact memOk_stopCmd _ _ _ _ _ _ (memOk_drainCheck _ _ _ _ (hw _ _ _ _))
      · cases h
        exact memOk_stepDone _ _ _ _
          (memOk_writePieces _ _ _ _ _ _ _ _ (memOk_setUnit _ _ _ (memOk_drainCheck _ _ _ _ (hw _ _ _ _))) rfl)

theorem memOk_readProduct : ∀ s t c rb rows, (s.MemOk) → (readProduct s t c rb rows).MemOk := by
  intros
  unfold readProduct
  (repeat' split) <;> (with_reducible repeat' first | assumption | apply memOk_readAcc | apply memOk_readRows)

theorem memOk_productDone : ∀ s t c, (s.MemOk) → (productDone s t c).MemOk := by
  intros
  unfold productDone
  (repeat' split) <;> (with_reducible repeat' first | assumption | apply memOk_endCmd | apply memOk_setCur)

theorem memOk_tryMmaStep : ∀ s s1, (s.MemOk) → tryMmaStep s = some s1 → s1.MemOk := by
  intro s s1
  intros
  rename_i h
  unfold tryMmaStep at h
  (try dsimp only at h)
  (repeat' split at h) <;>
    (first | (cases h; done) | (injection h with h; subst h
                                (with_reducible repeat' first | assumption | apply memOk_countPerf
                                                              | apply memOk_readProduct
                                                              | apply memOk_setUnit
                                                              | apply memOk_productDone
                                                              | apply memOk_setCur)))

theorem memOk_tryLaunchWriteAbandon : ∀ s s1, (s.MemOk) → tryLaunchWriteAbandon s = some s1 → s1.MemOk := by
  intro s s1
  intros
  rename_i h
  unfold tryLaunchWriteAbandon at h
  (try dsimp only at h)
  (repeat' split at h) <;>
    (first | (cases h; done) | (injection h with h; subst h
                                (with_reducible repeat' first | assumption | apply memOk_setQueue
                                                              | apply memOk_abandonPkt | apply memOk_finish
                                                              | apply memOk_abandonWrite)))

theorem memOk_foldPair {α β : Type} (f : State × α → β → State × α) (l : List β) (e : State × α)
    (hf : ∀ e b, e.1.MemOk → (f e b).1.MemOk) (he : e.1.MemOk) : (l.foldl f e).1.MemOk := by
  induction l generalizing e with
  | nil => exact he
  | cons b r ih => exact ih _ (hf _ _ he)

theorem memOk_padSlot : ∀ s t a n, s.MemOk → (padSlot s t a n).1.MemOk := by
  intro s t a n hs
  unfold padSlot
  refine memOk_foldPair _ _ _ (fun e i he => ?_) hs
  dsimp only
  split
  · exact he
  · split
    · exact he
    · exact memOk_engWrite _ _ _ he

theorem memOk_setCmd : ∀ s t c, (s.MemOk) → (setCmd s t c).MemOk := by
  intros; unfold setCmd; (with_reducible repeat' first | assumption | apply memOk_modOut)

theorem memOk_tryStreamSlotFill : ∀ s s1, s.MemOk → tryStreamSlotFill s = some s1 → s1.MemOk := by
  intro s s1 hs h
  unfold tryStreamSlotFill at h
  dsimp only at h
  split at h
  · cases h
  · split at h
    · cases h
    · cases h
      apply memOk_setCmd
      apply memOk_listReport
      apply memOk_copyArrive
      have h1 : ∀ (c : Prop) [Decidable c] a n, (if c then padSlot s s.ev.who a n else (s, 0)).1.MemOk := by
        intro c _ a n
        split
        · exact memOk_padSlot _ _ _ _ hs
        · exact hs
      split
      · exact memOk_writeCrco _ _ _ _ (h1 _ _ _) rfl
      · exact h1 _ _ _

theorem memOk_tryLifelineEntryRequest : ∀ s s1, (s.MemOk) → tryLifelineEntryRequest s = some s1 →
    s1.MemOk := by
  intro s s1; intros; rename_i h; unfold tryLifelineEntryRequest at h; (try dsimp only at h); (repeat' split at h) <;> (first | (cases h; done) | (injection h with h; subst h; (with_reducible repeat' first | assumption | apply memOk_queueLife | apply memOk_finish)) | (refine memOk_enterLife _ _ _ _ ?_ h <;> (with_reducible repeat' first | assumption | apply memOk_queueLife | apply memOk_finish)))

theorem memOk_tryLaunchHold : ∀ s s1, (s.MemOk) → tryLaunchHold s = some s1 → s1.MemOk := by
  intro s s1
  intros
  rename_i h
  unfold tryLaunchHold at h
  (try dsimp only at h)
  (repeat' split at h) <;>
    (first | (cases h; done) | (injection h with h; subst h
                                (with_reducible repeat' first | assumption | apply memOk_setQueue
                                                              | apply memOk_handOver)))

theorem memOk_writeRecord : ∀ s k q w, (s.MemOk) → (writeRecord s k q w).MemOk := by
  intros
  unfold writeRecord
  (with_reducible repeat' first | assumption | apply memOk_setQueue | apply memOk_homeWrite)

theorem memOk_tryLaunchQueueWrite : ∀ s s1, (s.MemOk) → tryLaunchQueueWrite s = some s1 → s1.MemOk := by
  intro s s1
  intros
  rename_i h
  unfold tryLaunchQueueWrite at h
  (try dsimp only at h)
  (repeat' split at h) <;>
    (first | (cases h; done) | (injection h with h; subst h
                                (with_reducible repeat' first | assumption | apply memOk_setQueue
                                                              | apply memOk_rejectStale
                                                              | apply memOk_finish
                                                              | apply memOk_writeRecord)))

theorem memOk_readSpans : ∀ l s, s.MemOk → (readSpans s l).1.MemOk := by
  intro l
  induction l with
  | nil => intro s hs; exact hs
  | cons p r ih => intro s hs; exact ih _ (memOk_readPieces _ _ _ hs rfl)

theorem memOk_loadRowStep : ∀ s t c w pe pc, s.MemOk → (loadRowStep s t c w pe pc).MemOk := by
  intro s t c w pe pc hs
  unfold loadRowStep
  apply memOk_stepDone
  apply memOk_countN
  apply memOk_setUnit
  have h1 := memOk_readSpans pc _ (memOk_readSpans pe s hs)
  split
  · exact memOk_containSpans _ _ (memOk_logAt _ _ _ _ _ _ _ h1)
  · exact h1

theorem memOk_tryTldStep : ∀ s s1, s.MemOk → tryTldStep s = some s1 → s1.MemOk := by
  intro s s1 hs h
  unfold tryTldStep at h
  dsimp only at h
  split at h
  · cases h
  · have hw : ∀ t a l, (walkSpans s t a l).MemOk := fun t a l => memOk_walkSpans _ _ _ _ hs
    split at h
    · cases h
    · cases h; exact memOk_carriageTrap _ _ _ (hw _ _ _)
    · cases h; exact memOk_stopCmd _ _ _ _ _ _ (memOk_setUnit _ _ _ (hw _ _ _))
    · cases h; exact memOk_loadRowStep _ _ _ _ _ _ (hw _ _ _)

theorem memOk_sendSectors : ∀ s src lslot bar k flt cls ab, (s.MemOk) →
    (sendSectors s src lslot bar k flt cls ab).MemOk := by
  intros
  unfold sendSectors
  (repeat' split) <;> (with_reducible repeat' first | assumption | apply memOk_sendWork)

theorem memOk_replyBarrier : ∀ s t lslot rep, (s.MemOk) → (replyBarrier s t lslot rep).MemOk := by
  intros
  unfold replyBarrier
  (try dsimp only)
  (repeat' split) <;> (with_reducible repeat' first | assumption | apply memOk_sendSectors
                                                    | apply memOk_sendArrival | apply memOk_State_modTile)

theorem memOk_setPoison : ∀ s k n, (s.MemOk) → (setPoison s k n).MemOk := by
  intros; unfold setPoison; (with_reducible repeat' first | assumption | apply memOk_State_modTile)

theorem memOk_replyWrites : ∀ s rep, (s.MemOk) → (replyWrites s rep).MemOk := by
  intros
  unfold replyWrites
  (repeat' split) <;> (with_reducible repeat' first | assumption | apply memOk_performStore
                                                    | apply memOk_setPoison | apply memOk_foldl
                                                    | (intro _ _ _))

theorem memOk_tryReplyArrival : ∀ s s1, (s.MemOk) → tryReplyArrival s = some s1 → s1.MemOk := by
  intro s s1
  intros
  rename_i h
  unfold tryReplyArrival at h
  (try dsimp only at h)
  (repeat' split at h) <;>
    (first | (cases h; done) | (injection h with h; subst h
                                (with_reducible repeat' first | assumption | apply memOk_consumePoison
                                                              | apply memOk_replyBarrier
                                                              | apply memOk_replyWrites | apply memOk_logAt
                                                              | apply memOk_finish | apply memOk_answerCtx
                                                              | apply memOk_State_modCtx
                                                              | apply memOk_foldl | (intro _ _ _))))

theorem memOk_tryBlockingTimeout : ∀ s s1, (s.MemOk) → tryBlockingTimeout s = some s1 → s1.MemOk := by
  intro s s1
  intros
  rename_i h
  unfold tryBlockingTimeout at h
  (try dsimp only at h)
  (repeat' split at h) <;>
    (first | (cases h; done) | (injection h with h; subst h
                                (with_reducible repeat' first | assumption | apply memOk_endKilled)))

theorem memOk_tryCarriageStepResume : ∀ s s1, (s.MemOk) → tryCarriageStepResume s = some s1 → s1.MemOk := by
  intro s s1
  intros
  rename_i h
  unfold tryCarriageStepResume at h
  (try dsimp only at h)
  (repeat' split at h) <;>
    (first | (cases h; done) | (injection h with h; subst h
                                (with_reducible repeat' first | assumption | apply memOk_State_modTile)))

theorem memOk_trySpanHashCompare : ∀ s s1, (s.MemOk) → trySpanHashCompare s = some s1 → s1.MemOk := by
  intro s s1
  intros
  rename_i h
  unfold trySpanHashCompare at h
  (repeat' split at h) <;>
    (first | (cases h; done) | (injection h with h; subst h
                                (with_reducible repeat' first | assumption | apply memOk_spanMismatch
                                                              | apply memOk_afterForward
                                                              | apply memOk_State_modCtx
                                                              | apply memOk_forwardGroup)))

theorem memOk_tryClosForward : ∀ s s1, s.MemOk → tryClosForward s = some s1 → s1.MemOk := by
  intro s s1 hs h
  unfold tryClosForward at h
  dsimp only at h
  split at h
  · cases h
  · split at h
    · cases h
    · split at h
      · cases h
      · rename_i h1; cases h; exact memOk_crossHop _ _ _ _ _ hs h1
      · rename_i h1
        have h2 := memOk_crossHop _ _ _ _ _ hs h1
        split at h
        · cases h; exact memOk_discardBad _ _ _ _ h2
        · split at h <;> cases h <;> exact memOk_State_setPkt _ _ _ h2

theorem memOk_killLaunch : ∀ s slot, (s.MemOk) → (killLaunch s slot).MemOk := by
  intros
  unfold killLaunch
  (try dsimp only)
  (repeat' split) <;> (with_reducible repeat' first | assumption | apply memOk_commandKill
                                                    | apply memOk_foldl | split | (intro _ _ _))

theorem memOk_slotCmd : ∀ opc (f : State → Nat → Launch → State) s s1, (∀ s n l, s.MemOk → (f s n l).MemOk) →
    s.MemOk → slotCmd opc f s = some s1 → s1.MemOk := by
  intro opc f s s1 hf hs h
  refine memOk_mailCmd _ _ _ _ _ ?_ hs h
  intro s2 h2
  dsimp only
  split
  · exact hf _ _ _ h2
  · exact memOk_answer _ _ _ h2

theorem memOk_tryAclrPerform : ∀ s s1, (s.MemOk) → tryAclrPerform s = some s1 → s1.MemOk := by
  intro s s1
  intros
  rename_i h
  unfold tryAclrPerform at h
  (repeat' split at h) <;>
    (first | (cases h; done) | (injection h with h; subst h
                                (with_reducible repeat' first | assumption | apply memOk_stepDone
                                                              | apply memOk_setUnit)))

theorem memOk_tryCableSwapComplete : ∀ s s1, (s.MemOk) → tryCableSwapComplete s = some s1 → s1.MemOk := by
  intro s s1
  intros
  rename_i h
  unfold tryCableSwapComplete at h
  (try dsimp only at h)
  (repeat' split at h) <;>
    (first | (cases h; done) | (injection h with h; subst h
                                (with_reducible repeat' first | assumption | apply memOk_startRepair
                                                              | apply memOk_State_setTile
                                                              | apply memOk_sendArrival)))

theorem memOk_tryTlbWalk : ∀ s s1, (s.MemOk) → tryTlbWalk s = some s1 → s1.MemOk := by
  intro s s1
  intros
  rename_i h
  unfold tryTlbWalk at h
  (try dsimp only at h)
  (repeat' split at h) <;>
    (first | (cases h; done) | (injection h with h; subst h
                                (with_reducible repeat' first | assumption | apply memOk_walkLogged)))

theorem memOk_parkEnded : ∀ s g, (s.MemOk) → (parkEnded s g).MemOk := by
  intros
  unfold parkEnded
  (try dsimp only)
  (repeat' split) <;> (with_reducible repeat' first | assumption | apply memOk_parkCtx)

theorem memOk_tryReleaseAccept : ∀ s s1, (s.MemOk) → tryReleaseAccept s = some s1 → s1.MemOk := by
  intro s s1
  intros
  rename_i h
  unfold tryReleaseAccept at h
  (try dsimp only at h)
  (repeat' split at h) <;>
    (first | (cases h; done) | (injection h with h; subst h
                                (with_reducible repeat' first | assumption | apply memOk_consumePoison
                                                              | apply memOk_parkEnded
                                                              | apply memOk_afterForward
                                                              | apply memOk_State_modCtx
                                                              | apply memOk_forwardGroup)))

theorem memOk_tryStealReply : ∀ s s1, (s.MemOk) → tryStealReply s = some s1 → s1.MemOk := by
  intro s s1
  intros
  rename_i h
  unfold tryStealReply at h
  (try dsimp only at h)
  (repeat' split at h) <;>
    (first | (cases h; done) | (injection h with h; subst h
                                (with_reducible repeat' first | assumption | apply memOk_inherit
                                                              | apply memOk_State_modTile
                                                              | apply memOk_foldl)))

theorem memOk_tryEscapeSlotReserve : ∀ s s1, (s.MemOk) → tryEscapeSlotReserve s = some s1 → s1.MemOk := by
  intro s s1
  intros
  rename_i h
  unfold tryEscapeSlotReserve at h
  (try dsimp only at h)
  (repeat' split at h) <;>
    (first | (cases h; done) | (injection h with h; subst h
                                (with_reducible repeat' first | assumption | apply memOk_State_modRing)))

theorem memOk_tryHobbleWindow : ∀ s s1, (s.MemOk) → tryHobbleWindow s = some s1 → s1.MemOk := by
  intro s s1
  intros
  rename_i h
  unfold tryHobbleWindow at h
  (injection h with h; subst h; (with_reducible repeat' first | assumption | apply memOk_State_setTile
                                                              | apply memOk_countEvent))

theorem memOk_tryMessageArrival : ∀ s s1, (s.MemOk) → tryMessageArrival s = some s1 → s1.MemOk := by
  intro s s1
  intros
  rename_i h
  unfold tryMessageArrival at h
  (try dsimp only at h)
  (repeat' split at h) <;>
    (first | (cases h; done) | (injection h with h; subst h
                                (with_reducible repeat' first | assumption | apply memOk_rejectStale
                                                              | apply memOk_logAt | apply memOk_finish
                                                              | apply memOk_State_setTile
                                                              | apply memOk_State_modTile)))

theorem memOk_takeLife : ∀ s opc op p, (s.MemOk) → takeLife s opc op = some p → (p.2.2).MemOk := by
  intro s opc op p
  intros
  rename_i h
  unfold takeLife at h
  (try dsimp only at h)
  (repeat' split at h) <;>
    (first | (cases h; done) | (injection h with h; subst h
                                (with_reducible repeat' first | assumption | apply memOk_setLife)))

theorem memOk_tickLife : ∀ s q, (s.MemOk) → (tickLife s q).MemOk := by
  intros; unfold tickLife; (with_reducible repeat' first | assumption | apply memOk_setLife)

theorem memOk_pinPath : ∀ s q lslot node p, (s.MemOk) → pinPath s q lslot node = some p → (p.2).MemOk := by
  intro s q lslot node p
  intros
  rename_i h
  unfold pinPath at h
  (try dsimp only at h)
  (repeat' split at h) <;>
    (first | (cases h; done) | (injection h with h; subst h
                                (with_reducible repeat' first | assumption | apply memOk_setLife)))

theorem memOk_touchWalk : ∀ s q tree n hs b, (s.MemOk) → (touchWalk s q tree n hs b).MemOk := by
  intros
  unfold touchWalk
  (repeat' split) <;> (with_reducible repeat' first | assumption | apply memOk_touchPage
                                                    | apply memOk_foldl | (intro _ _ _))

theorem memOk_performFind : ∀ s q r s1, s.MemOk → performFind s q r = some s1 → s1.MemOk := by
  intro s q r s1 hs h
  unfold performFind at h
  split at h
  · cases h; exact memOk_lifeFail _ _ _ _ _ hs
  · dsimp only at h
    split at h
    · cases h
    · rename_i h1; cases h; exact memOk_lifeFail _ _ _ _ _ (memOk_lifeRead_fail _ _ _ _ _ _ hs h1)
    · rename_i h1
      have h2 := memOk_lifeRead_ok _ _ _ _ _ _ hs h1
      have h3 : ∀ a n b k d e, (countLife (countLife (countLife (touchWalk _ q r.tree a n b) q r.tree 0 k) q r.tree 1 d)
          q r.tree 2 e).MemOk := fun a n b k d e =>
        memOk_countLife _ _ _ _ _ (memOk_countLife _ _ _ _ _ (memOk_countLife _ _ _ _ _ (memOk_touchWalk _ _ _ _ _ _ h2)))
      split at h
      · cases h; exact memOk_lifeFail _ _ _ _ _ (memOk_tickLife _ _ (h3 _ _ _ _ _ _))
      · split at h
        · cases h; exact memOk_lifeAnswer _ _ _ _ _ _ (memOk_tickLife _ _ (h3 _ _ _ _ _ _))
        · rename_i h4; cases h
          exact memOk_lifeAnswer _ _ _ _ _ _ (memOk_tickLife _ _ (memOk_pinPath _ _ _ _ _ (h3 _ _ _ _ _ _) h4))

theorem memOk_tryLfindPerform : ∀ s s1, (s.MemOk) → tryLfindPerform s = some s1 → s1.MemOk := by
  intro s s1
  intros
  rename_i h
  unfold tryLfindPerform at h
  (repeat' split at h) <;> (first | (cases h; done)
                                  | (refine memOk_performFind _ _ _ _ ?_ h <;> (with_reducible repeat' refine memOk_takeLife _ _ _ _ (by assumption) (by assumption))))

theorem memOk_makeRoom : ∀ s q tree nmax sym snap par n p, s.MemOk →
    makeRoom s q tree nmax sym snap par n = p → p.1.MemOk := by
  intro s q tree nmax sym snap par n
  induction n generalizing s with
  | zero => intro p hs h; subst h; exact hs
  | succ n ih =>
    intro p hs h
    unfold makeRoom at h
    dsimp only at h
    split at h
    · subst h; exact hs
    · split at h
      · exact ih _ _ (memOk_evict _ _ _ hs) h
      · subst h; exact hs

theorem memOk_putStep : ∀ s q r t b snap, (s.MemOk) → (putStep s q r t b snap).MemOk := by
  intros
  unfold putStep
  (try dsimp only)
  (repeat' split) <;> (with_reducible repeat' first | assumption | apply memOk_countLife
                                                    | apply memOk_tickLife | apply memOk_lifeAnswer
                                                    | apply memOk_touchWalk
                                                    | refine memOk_makeRoom _ _ _ _ _ _ _ _ _ ?_ (by assumption) | refine memOk_createNode _ _ _ _ _ _ _ _ _ _ ?_ rfl)

theorem memOk_performPut : ∀ s q r s1, (s.MemOk) → performPut s q r = some s1 → s1.MemOk := by
  intro s q r s1
  intros
  rename_i h
  unfold performPut at h
  (try dsimp only at h)
  (repeat' split at h) <;>
    (first | (cases h; done) | (injection h with h; subst h
                                (with_reducible repeat' first | assumption | apply memOk_countLife
                                                              | apply memOk_lifeFail | apply memOk_putStep
                                                              | refine memOk_lifeRead_ok _ _ _ _ _ _ ?_ (by assumption) | refine memOk_lifeRead_fail _ _ _ _ _ _ ?_ (by assumption))))

theorem memOk_tryLputPerform : ∀ s s1, (s.MemOk) → tryLputPerform s = some s1 → s1.MemOk := by
  intro s s1
  intros
  rename_i h
  unfold tryLputPerform at h
  (repeat' split at h) <;> (first | (cases h; done)
                                  | (refine memOk_performPut _ _ _ _ ?_ h <;> (with_reducible repeat' refine memOk_takeLife _ _ _ _ (by assumption) (by assumption))))

theorem memOk_rejectPut : ∀ s t p, (s.MemOk) → (rejectPut s t p).MemOk := by
  intros
  unfold rejectPut
  (repeat' split) <;> (with_reducible repeat' first | assumption | apply memOk_logAt
                                                    | apply memOk_sendArrival)

theorem memOk_ringPut_written : ∀ s t p s1, (s.MemOk) → ringPut s t p = .written s1 → s1.MemOk := by
  intro s t p s1
  intros
  rename_i h
  unfold ringPut at h
  (try dsimp only at h)
  (repeat' split at h) <;> (cases h; (with_reducible repeat' first | apply memOk_homeWrite
                                                                   | refine memOk_homeRead _ _ _ _ _ _ (by assumption) (by assumption)))

theorem memOk_ringPut_reject : ∀ s t p s1, (s.MemOk) → ringPut s t p = .reject s1 → s1.MemOk := by
  intro s t p s1
  intros
  rename_i h
  unfold ringPut at h
  (try dsimp only at h)
  (repeat' split at h) <;> (cases h; (with_reducible repeat' first | assumption
                                                                   | refine memOk_homeRead _ _ _ _ _ _ (by assumption) (by assumption)))

theorem memOk_tryRingPutPerform : ∀ s s1, (s.MemOk) → tryRingPutPerform s = some s1 → s1.MemOk := by
  intro s s1
  intros
  rename_i h
  unfold tryRingPutPerform at h
  (try dsimp only at h)
  (repeat' split at h) <;>
    (first | (cases h; done) | (injection h with h; subst h
                                (with_reducible repeat' first | assumption | apply memOk_rejectPut
                                                              | apply memOk_rejectStale
                                                              | apply memOk_finish
                                                              | apply memOk_sendArrival
                                                              | apply memOk_State_modTile
                                                              | refine memOk_ringPut_written _ _ _ _ (by assumption) (by assumption) | refine memOk_ringPut_reject _ _ _ _ (by assumption) (by assumption))))

theorem memOk_tryPreemption : ∀ s s1, (s.MemOk) → tryPreemption s = some s1 → s1.MemOk := by
  intro s s1
  intros
  rename_i h
  unfold tryPreemption at h
  (try dsimp only at h)
  (repeat' split at h) <;>
    (first | (cases h; done) | (injection h with h; subst h
                                (with_reducible repeat' first | assumption | apply memOk_orderSave)))

theorem memOk_tryLrelPerform : ∀ s s1, (s.MemOk) → tryLrelPerform s = some s1 → s1.MemOk := by
  intro s s1
  intros
  rename_i h
  unfold tryLrelPerform at h
  (repeat' split at h) <;>
    (first | (cases h; done) | (injection h with h; subst h
                                (with_reducible repeat' first | apply memOk_setLife | apply memOk_lifeFail
                                                              | refine memOk_takeLife _ _ _ _ (by assumption) (by assumption))))

theorem memOk_tryContinuationEnqueue : ∀ s s1, (s.MemOk) → tryContinuationEnqueue s = some s1 → s1.MemOk := by
  intro s s1
  intros
  rename_i h
  unfold tryContinuationEnqueue at h
  (try dsimp only at h)
  (repeat' split at h) <;>
    (first | (cases h; done) | (injection h with h; subst h
                                (with_reducible repeat' first | assumption | apply memOk_finishEnd
                                                              | apply memOk_State_setTile
                                                              | apply memOk_State_modTile)))

theorem memOk_tryStackGrowService : ∀ s s1, (s.MemOk) → tryStackGrowService s = some s1 → s1.MemOk := by
  intro s s1
  intros
  rename_i h
  unfold tryStackGrowService at h
  (try dsimp only at h)
  (repeat' split at h) <;>
    (first | (cases h; done) | (injection h with h; subst h
                                (with_reducible repeat' first | assumption | apply memOk_endFault
                                                              | apply memOk_State_modCtx)))

theorem memOk_tryTchkPerform : ∀ s s1, (s.MemOk) → tryTchkPerform s = some s1 → s1.MemOk := by
  intro s s1
  intros
  rename_i h
  unfold tryTchkPerform at h
  (try dsimp only at h)
  (repeat' split at h) <;>
    (first | (cases h; done) | (injection h with h; subst h
                                (with_reducible repeat' first | assumption | apply memOk_carriageTrap
                                                              | apply memOk_stepDone | apply memOk_readAcc
                                                              | apply memOk_reportRows
                                                              | apply memOk_engineWalks
                                                              | apply memOk_stopCmd
                                                              | refine memOk_writePieces _ _ _ _ _ _ _ _ ?_ rfl)))

theorem memOk_tryGuardBitsPerform : ∀ s s1, (s.MemOk) → tryGuardBitsPerform s = some s1 → s1.MemOk := by
  intro s s1
  intros
  rename_i h
  unfold tryGuardBitsPerform at h
  (repeat' split at h) <;>
    (first | (cases h; done) | (injection h with h; subst h
                                (with_reducible repeat' first | assumption | apply memOk_rejectStale
                                                              | apply memOk_finish
                                                              | apply memOk_State_modTile)))

theorem memOk_tryThermalSample : ∀ s s1, (s.MemOk) → tryThermalSample s = some s1 → s1.MemOk := by
  intro s s1
  intros
  rename_i h
  unfold tryThermalSample at h
  (try dsimp only at h)
  (repeat' split at h) <;> (injection h with h; subst h; (with_reducible repeat' first | assumption
                                                                                       | apply memOk_logAt
                                                                                       | apply memOk_State_setTile | apply memOk_countEvent))

theorem memOk_keepGuarded : ∀ s old k n, (s.MemOk) → (keepGuarded s old k n).MemOk := by
  intros
  unfold keepGuarded
  (try dsimp only)
  (repeat' split) <;> (with_reducible repeat' first | assumption | apply memOk_foldl | apply memWf_memWrite
                                                    | split | (intro _ _ _))

theorem memOk_writeUnit : ∀ s keys img, s.MemOk → (writeUnit s keys img).MemOk := by
  intro s keys img hs
  unfold writeUnit
  refine memOk_foldl _ _ _ (fun s k h => ?_) hs
  exact memOk_keepGuarded _ _ _ _ (storeWf_storePuts _ _ (memOk_blockWrite _ _ _ _ h))

theorem memOk_readWhole : ∀ s t lslot, (s.MemOk) → (readWhole s t lslot).MemOk := by
  intros
  unfold readWhole
  (repeat' split) <;> (with_reducible repeat' first | assumption | apply memOk_readAcc
                                                    | apply memOk_readRows | apply memOk_foldl
                                                    | (intro _ _ _))

theorem memOk_swapOut : ∀ s t h l, (s.MemOk) → (swapOut s t h l).MemOk := by
  intros
  unfold swapOut
  (repeat' split) <;> (with_reducible repeat' first | assumption | apply memOk_writeUnit
                                                    | apply memOk_readWhole | apply memOk_State_setLaunch
                                                    | apply memOk_State_modTile | apply memOk_engineWalks)

theorem memOk_touchUnit : ∀ s ks, (s.MemOk) → (touchUnit s ks).MemOk := by
  intros
  unfold touchUnit
  (repeat' split) <;> (with_reducible repeat' first | assumption | apply memOk_touchPage
                                                    | apply memOk_foldl | (intro _ _ _))

theorem memOk_swapIn : ∀ s t slot l img, (s.MemOk) → (swapIn s t slot l img).MemOk := by
  intros
  unfold swapIn
  (repeat' split) <;> (with_reducible repeat' first | assumption | apply memOk_State_setLaunch
                                                    | apply memOk_touchUnit | apply memOk_State_modTile
                                                    | apply memOk_engineWalks)

theorem memOk_loadWanted : ∀ s t s1, s.MemOk → loadWanted s t = some s1 → s1.MemOk := by
  intro s t s1 hs h
  unfold loadWanted at h
  split at h
  · cases h
  · split at h
    · cases h
    · split at h
      · cases h
      · obtain ⟨i, _, rfl⟩ := Option.map_eq_some_iff.1 h
        exact memOk_swapIn _ _ _ _ _ hs

theorem memOk_tryMatrixSwap : ∀ s s1, s.MemOk → tryMatrixSwap s = some s1 → s1.MemOk := by
  intro s s1 hs h
  have hl : ∀ s2 : State, s2.MemOk → ((loadWanted s2 s.ev.who).getD s2).MemOk := fun s2 h2 =>
    memOk_getD _ _ (fun s3 h3 => memOk_loadWanted _ _ _ h2 h3) h2
  unfold tryMatrixSwap at h
  dsimp only at h
  (repeat' split at h) <;> first
    | (cases h; done)
    | exact memOk_loadWanted _ _ _ hs h
    | (cases h; exact memOk_swapOut _ _ _ _ hs)
    | (cases h; exact hl _ (memOk_swapOut _ _ _ _ hs))
    | (cases h; exact hl _ (memOk_State_modTile _ _ _ hs))

theorem memOk_tryCastoffTile : ∀ s s1, s.MemOk → tryCastoffTile s = some s1 → s1.MemOk := by
  intro s s1 hs h
  unfold tryCastoffTile at h
  dsimp only at h
  split at h
  · split at h
    · cases h
    · cases h
      exact memOk_matDone _ _ _ _ _ _ _ (memOk_setUnit _ _ _ (memOk_castTile _ _ _ _ _ hs))
  · cases h

theorem memOk_markSaved : ∀ s slot, (s.MemOk) → (markSaved s slot).MemOk := by
  intros
  unfold markSaved
  (repeat' split) <;> (with_reducible repeat' first | assumption | apply memOk_State_setLaunch)

theorem memOk_writeImage : ∀ s g, s.MemOk → (writeImage s g).MemOk := by
  intro s g hs
  unfold writeImage
  dsimp only
  have h0 := memOk_engineWalk s (tileOf g) (s.ctx g).asid (s.ctx g).saveptr.toNat hs
  split
  · exact h0
  · exact memOk_keepGuarded _ _ _ _
      (memWf_memWrite _ _ (storeWf_storePuts _ _ (memOk_blockWrite _ _ _ _ (memOk_drainN _ _ _ h0))))

theorem memOk_tryContextSave : ∀ s s1, (s.MemOk) → tryContextSave s = some s1 → s1.MemOk := by
  intro s s1
  intros
  rename_i h
  unfold tryContextSave at h
  (try dsimp only at h)
  (repeat' split at h) <;>
    (first | (cases h; done) | (injection h with h; subst h
                                (with_reducible repeat' first | assumption | apply memOk_markSaved
                                                              | apply memOk_State_modCtx
                                                              | apply memOk_writeImage)))

theorem memOk_passPcyc : ∀ s cl cw s1, (s.MemOk) → passPcyc s cl cw = some s1 → s1.MemOk := by
  intro s cl cw s1
  intros
  rename_i h
  unfold passPcyc at h
  (repeat' split at h) <;>
    (first | (cases h; done) | (injection h with h; subst h
                                (with_reducible repeat' first | assumption | apply memOk_loseAt
                                                              | apply memOk_discardBad
                                                              | apply memOk_endPcyc
                                                              | refine memOk_crossFlit_retry _ _ _ _ _ (by assumption) (by assumption) | refine memOk_crossFlit_broken _ _ _ _ _ (by assumption) (by assumption) | refine memOk_crossFlit_ok _ _ _ _ _ (by assumption) (by assumption))))

theorem memOk_noteInjected : ∀ s id p cw i, (s.MemOk) → (noteInjected s id p cw i).MemOk := by
  intros
  unfold noteInjected
  (repeat' split) <;> (with_reducible repeat' first | assumption | apply memOk_State_modRing)

theorem memOk_injectHeader : ∀ s id p0 s1, (s.MemOk) → injectHeader s id p0 = some s1 → s1.MemOk := by
  intro s id p0 s1; intros; rename_i h; unfold injectHeader at h; (try dsimp only at h); (repeat' split at h) <;> (first | (cases h; done) | (injection h with h; subst h; (with_reducible repeat' first | assumption | apply memOk_countPerf | apply memOk_discardBad | apply memOk_State_setPkt | apply memOk_noteInjected | refine memOk_crossLink _ _ _ _ _ _ ?_ (by assumption))) | (refine memOk_passPcyc _ _ _ _ ?_ h <;> (with_reducible repeat' first | assumption | apply memOk_countPerf | apply memOk_discardBad | apply memOk_State_setPkt | apply memOk_noteInjected | refine memOk_crossLink _ _ _ _ _ _ ?_ (by assumption))))

theorem memOk_tryPacketInject : ∀ s s1, (s.MemOk) → tryPacketInject s = some s1 → s1.MemOk := by
  intro s s1; intros; rename_i h; unfold tryPacketInject at h; (try dsimp only at h); (repeat' split at h) <;> (first | (cases h; done) | (injection h with h; subst h; (with_reducible repeat' first | assumption | apply memOk_countPerf | apply memOk_crossPort | apply memOk_State_setPkt | apply memOk_noteInjected)) | (refine memOk_injectHeader _ _ _ _ ?_ h <;> (with_reducible repeat' first | assumption | apply memOk_countPerf | apply memOk_crossPort | apply memOk_State_setPkt | apply memOk_noteInjected)) | (refine memOk_passPcyc _ _ _ _ ?_ h <;> (with_reducible repeat' first | assumption | apply memOk_countPerf | apply memOk_crossPort | apply memOk_State_setPkt | apply memOk_noteInjected)))

theorem memOk_tryOutriderCmdStart : ∀ s s1, (s.MemOk) → tryOutriderCmdStart s = some s1 → s1.MemOk := by
  intro s s1
  intros
  rename_i h
  unfold tryOutriderCmdStart at h
  (try dsimp only at h)
  (repeat' split at h) <;>
    (first | (cases h; done) | (injection h with h; subst h
                                (with_reducible repeat' first | assumption | apply memOk_delCmd
                                                              | apply memOk_setCmd | apply memOk_setChain
                                                              | apply memOk_rejectCopy)))

theorem memOk_tryEscapeArrival : ∀ s s1, (s.MemOk) → tryEscapeArrival s = some s1 → s1.MemOk := by
  intro s s1
  intros
  rename_i h
  unfold tryEscapeArrival at h
  (try dsimp only at h)
  (repeat' split at h) <;>
    (first | (cases h; done) | (injection h with h; subst h
                                (with_reducible repeat' first | assumption | apply memOk_lose
                                                              | apply memOk_State_setPkt
                                                              | apply memOk_State_modRing)))

theorem memOk_tryEjectTimeout : ∀ s s1, (s.MemOk) → tryEjectTimeout s = some s1 → s1.MemOk := by
  intro s s1
  intros
  rename_i h
  unfold tryEjectTimeout at h
  (repeat' split at h) <;>
    (first | (cases h; done) | (injection h with h; subst h
                                (with_reducible repeat' first | assumption | apply memOk_lose
                                                              | apply memOk_State_setPkt)))

theorem memOk_tryKeyedLookupResult : ∀ s s1, (s.MemOk) → tryKeyedLookupResult s = some s1 → s1.MemOk := by
  intro s s1
  intros
  rename_i h
  unfold tryKeyedLookupResult at h
  (repeat' split at h) <;>
    (first | (cases h; done) | (injection h with h; subst h
                                (with_reducible repeat' first | assumption | apply memOk_startLaunch)))

theorem memOk_submit_written : ∀ s t u pkt s1, (s.MemOk) → submit s t u pkt = .written s1 → s1.MemOk := by
  intro s t u pkt s1
  intros
  rename_i h
  unfold submit at h
  (try dsimp only at h)
  (repeat' split at h) <;> (cases h; (with_reducible repeat' first | apply memOk_modQueue
                                                                   | apply memOk_engWrite
                                                                   | apply memOk_homeWrite
                                                                   | refine memOk_homeRead _ _ _ _ _ _ (by assumption) (by assumption)))

theorem memOk_submit_reject : ∀ s t u pkt s1, (s.MemOk) → submit s t u pkt = .reject s1 → s1.MemOk := by
  intro s t u pkt s1
  intros
  rename_i h
  unfold submit at h
  (try dsimp only at h)
  (repeat' split at h) <;> (cases h; (with_reducible repeat' first | assumption
                                                                   | refine memOk_homeRead _ _ _ _ _ _ (by assumption) (by assumption)))

theorem memOk_retrySubs : ∀ l s t bl, s.MemOk → (retrySubs s t l bl).1.MemOk := by
  intro l
  induction l with
  | nil => intro s t bl hs; exact hs
  | cons u r ih =>
    intro s t bl hs
    unfold retrySubs
    split
    · exact ih _ _ _ hs
    · split
      · exact ih _ _ _ hs
      · rename_i h1; exact ih _ _ _ (memOk_submit_written _ _ _ _ _ hs h1)
      · rename_i h1
        exact ih _ _ _ (memOk_abandonSub _ _ _ (memOk_finish _ _ _ (memOk_submit_reject _ _ _ _ _ hs h1)))

theorem memOk_tryOsubPerform : ∀ s s1, s.MemOk → tryOsubPerform s = some s1 → s1.MemOk := by
  intro s s1 hs h
  unfold tryOsubPerform at h
  have h2 := memOk_retrySubs (s.tile s.ev.who).subs s s.ev.who [] hs
  dsimp only at h
  split at h
  · rename_i h1; rw [h1] at h2; cases h; exact memOk_State_modTile _ _ _ h2
  · split at h
    · cases h
    · split at h
      · split at h
        · cases h
        · split at h
          · cases h; exact memOk_rejectStale _ _ _ hs
          · have hh : ∀ (c : Prop) [Decidable c] f, (if c then some (s.modTile s.ev.who f) else none) = some s1 →
                s1.MemOk := by
              intro c _ f h
              split at h <;> cases h
              exact memOk_State_modTile _ _ _ hs
            split at h
            · exact hh _ _ h
            · split at h
              · rename_i h1; cases h; exact memOk_submit_written _ _ _ _ _ hs h1
              · rename_i h1
                cases h
                exact memOk_abandonSub _ _ _ (memOk_finish _ _ _ (memOk_submit_reject _ _ _ _ _ hs h1))
              · exact hh _ _ h
      · cases h

theorem memOk_tryLifelineReply : ∀ s s1, (s.MemOk) → tryLifelineReply s = some s1 → s1.MemOk := by
  intro s s1
  intros
  rename_i h
  unfold tryLifelineReply at h
  (try dsimp only at h)
  (repeat' split at h) <;>
    (first | (cases h; done) | (injection h with h; subst h
                                (with_reducible repeat' first | assumption | apply memOk_arrayStore
                                                              | apply memOk_State_setLaunch
                                                              | apply memOk_finish
                                                              | apply memOk_sendArrival)))

theorem memOk_touchAct : ∀ s act ea off, (s.MemOk) → (touchAct s act ea off).MemOk := by
  intros; unfold touchAct; (with_reducible repeat' assumption)

theorem memOk_storeAll : ∀ s p k ea bs tag ids s1, (s.MemOk) → storeAll s p k ea bs tag ids = some s1 →
    s1.MemOk := by
  intro s p k ea bs tag ids s1
  intros
  rename_i h
  unfold storeAll at h
  (repeat' split at h) <;>
    (first | (cases h; done) | (injection h with h; subst h
                                (with_reducible repeat' first | assumption | apply memOk_performStore
                                                              | apply memOk_finish | apply memOk_touchAct
                                                              | apply memOk_foldl | (intro _ _ _))))

theorem memOk_tryStorePerform : ∀ s s1, (s.MemOk) → tryStorePerform s = some s1 → s1.MemOk := by
  intro s s1; intros; rename_i h; unfold tryStorePerform at h; (repeat' split at h) <;> (first | (cases h; done) | (injection h with h; subst h; (with_reducible repeat' first | assumption | apply memOk_logAt | apply memOk_finish | apply memOk_engWrite | apply memOk_setPoison | apply memOk_foldl | apply memWf_memWrite | split | (intro _ _ _))) | (refine memOk_storeAll _ _ _ _ _ _ _ _ ?_ h <;> (with_reducible repeat' first | assumption | apply memOk_logAt | apply memOk_finish | apply memOk_engWrite | apply memOk_setPoison | apply memOk_foldl | apply memWf_memWrite | split | (intro _ _ _))))

theorem memOk_tryLstatConfigPerform : ∀ s s1, (s.MemOk) → tryLstatConfigPerform s = some s1 → s1.MemOk := by
  intro s s1
  intros
  rename_i h
  unfold tryLstatConfigPerform at h
  (repeat' split at h) <;>
    (first | (cases h; done) | (injection h with h; subst h
                                (with_reducible repeat' first | apply memOk_lifeAnswer
                                                              | refine memOk_takeLife _ _ _ _ (by assumption) (by assumption))))

theorem memOk_tryClosEvict : ∀ s s1, (s.MemOk) → tryClosEvict s = some s1 → s1.MemOk := by
  intro s s1
  intros
  rename_i h
  unfold tryClosEvict at h
  (repeat' split at h) <;>
    (first | (cases h; done) | (obtain ⟨_, _, rfl⟩ := Option.map_eq_some_iff.1 h
                                (with_reducible repeat' first | assumption | apply memOk_lose); done))

theorem memOk_modUnit : ∀ s t f, (s.MemOk) → (modUnit s t f).MemOk := by
  intros
  unfold modUnit
  (repeat' split) <;> (with_reducible repeat' first | assumption | apply memOk_State_modTile)

theorem memOk_storageError : ∀ s t a x3, (s.MemOk) → (storageError s t a x3).MemOk := by
  intros
  unfold storageError
  (repeat' split) <;> (with_reducible repeat' first | assumption | apply memOk_logAt | apply memOk_modUnit
                                                    | apply memOk_State_modCtx | apply memOk_State_modTile)

theorem memOk_lineFound : ∀ s k n, (s.MemOk) → (lineFound s k n).MemOk := by
  intros
  unfold lineFound
  (repeat' split) <;> (with_reducible repeat' first | assumption | apply memOk_poisonFound
                                                    | apply memOk_foldl)

theorem memOk_logCorrected : ∀ s t k addr, (s.MemOk) → (logCorrected s t k addr).MemOk := by
  intros
  unfold logCorrected
  (repeat' split) <;> (with_reducible repeat' first | assumption | apply memOk_logAt
                                                    | apply memOk_countCorrected)

theorem memOk_tryScrubRead : ∀ s s1, (s.MemOk) → tryScrubRead s = some s1 → s1.MemOk := by
  intro s s1
  intros
  rename_i h
  unfold tryScrubRead at h
  (try dsimp only at h)
  (repeat' split at h) <;> ((injection h with h; subst h; (with_reducible repeat' first | assumption
                                                                                        | apply memOk_setPoison | apply memOk_storageError | apply memOk_lineFound | apply memOk_poisonFound | apply memOk_State_modTile | apply memOk_logCorrected | refine memOk_unitRead _ _ _ _ ?_ rfl)))

theorem memOk_tryDequePush : ∀ s s1, (s.MemOk) → tryDequePush s = some s1 → s1.MemOk := by
  intro s s1
  intros
  rename_i h
  unfold tryDequePush at h
  (try dsimp only at h)
  (repeat' split at h) <;>
    (first | (cases h; done) | (injection h with h; subst h
                                (with_reducible repeat' first | assumption | apply memOk_rejectStale
                                                              | apply memOk_finish | apply memOk_inherit
                                                              | apply memOk_State_setTile
                                                              | apply memOk_State_modTile)))

theorem memOk_tryLaunchComplete : ∀ s s1, (s.MemOk) → tryLaunchComplete s = some s1 → s1.MemOk := by
  intro s s1
  intros
  rename_i h
  unfold tryLaunchComplete at h
  (try dsimp only at h)
  (repeat' split at h) <;>
    (first | (cases h; done) | (injection h with h; subst h
                                (with_reducible repeat' first | assumption | apply memOk_ackDropped
                                                              | apply memOk_dropPins
                                                              | apply memOk_homeWrite
                                                              | apply memOk_sendArrival)))

theorem memOk_outsideWrite : ∀ s o b s1, (s.MemOk) → outsideWrite s o b = some s1 → s1.MemOk := by
  intro s o b s1
  intros
  rename_i h
  unfold outsideWrite at h
  (try dsimp only at h)
  (repeat' split at h) <;>
    (first | (cases h; done) | (injection h with h; subst h
                                (with_reducible repeat' first | assumption | apply memOk_performStore
                                                              | apply memOk_logAt | apply memOk_busReturn)))

theorem memOk_outsideRead : ∀ s o n s1, (s.MemOk) → outsideRead s o n = some s1 → s1.MemOk := by
  intro s o n s1
  intros
  rename_i h
  unfold outsideRead at h
  (try dsimp only at h)
  (repeat' split at h) <;>
    (first | (cases h; done) | (injection h with h; subst h
                                (with_reducible repeat' first | assumption | apply memOk_busReturn
                                                              | apply memOk_touchPage
                                                              | refine memOk_unitRead _ _ _ _ ?_ rfl)))

theorem memOk_outsideAdd : ∀ s o b s1, (s.MemOk) → outsideAdd s o b = some s1 → s1.MemOk := by
  intro s o b s1
  intros
  rename_i h
  unfold outsideAdd at h
  (repeat' split at h) <;>
    (first | (cases h; done) | (injection h with h; subst h
                                (with_reducible repeat' first | apply memOk_busReturn | refine memOk_outsideWrite _ _ _ _ ?_ (by assumption) | refine memOk_outsideRead _ _ _ _ (by assumption) (by assumption))) | (obtain ⟨_, _, rfl⟩ := Option.map_eq_some_iff.1 h; (with_reducible repeat' first | apply memOk_busReturn | refine memOk_outsideWrite _ _ _ _ ?_ (by assumption) | refine memOk_outsideRead _ _ _ _ (by assumption) (by assumption))))

theorem memOk_tryPeerInboundAccess : ∀ s s1, (s.MemOk) → tryPeerInboundAccess s = some s1 → s1.MemOk := by
  intro s s1; intros; rename_i h; unfold tryPeerInboundAccess at h; (try dsimp only at h); (repeat' split at h) <;> (first | (cases h; done) | (injection h with h; subst h; (with_reducible repeat' first | assumption | apply memOk_busReturn | apply memOk_crossPort)) | (refine memOk_outsideAdd _ _ _ _ ?_ h <;> (with_reducible repeat' first | assumption | apply memOk_busReturn | apply memOk_crossPort)) | (refine memOk_outsideWrite _ _ _ _ ?_ h <;> (with_reducible repeat' first | assumption | apply memOk_busReturn | apply memOk_crossPort)) | (refine memOk_outsideRead _ _ _ _ ?_ h <;> (with_reducible repeat' first | assumption | apply memOk_busReturn | apply memOk_crossPort)))

theorem memOk_tryPacketArrival : ∀ s s1, (s.MemOk) → tryPacketArrival s = some s1 → s1.MemOk := by
  intro s s1
  intros
  rename_i h
  unfold tryPacketArrival at h
  (try dsimp only at h)
  (repeat' split at h) <;>
    (first | (cases h; done) | (injection h with h; subst h
                                (with_reducible repeat' first | assumption | apply memOk_accept
                                                              | apply memOk_lose | apply memOk_pullEarly
                                                              | apply memOk_crossPort
                                                              | apply memOk_State_setPkt)))

theorem memOk_tryRowRepairComplete : ∀ s s1, (s.MemOk) → tryRowRepairComplete s = some s1 → s1.MemOk := by
  intro s s1
  intros
  rename_i h
  unfold tryRowRepairComplete at h
  (try dsimp only at h)
  (repeat' split at h) <;>
    (first | (cases h; done) | (injection h with h; subst h
                                (with_reducible repeat' first | assumption | apply memOk_startRepair
                                                              | apply memOk_logAt
                                                              | apply memOk_State_setTile
                                                              | apply memOk_countEvent)))

theorem memOk_tryXaoldFlitError : ∀ s s1, (s.MemOk) → tryXaoldFlitError s = some s1 → s1.MemOk := by
  intro s s1
  intros
  rename_i h
  unfold tryXaoldFlitError at h
  (try dsimp only at h)
  (repeat' split at h) <;>
    (first | (cases h; done) | (injection h with h; subst h
                                (with_reducible repeat' first | assumption | apply memOk_lose
                                                              | apply memOk_logAt | apply memOk_injFire
                                                              | apply memOk_foldl | (intro _ _ _))))

theorem memOk_tryLstatClosePerform : ∀ s s1, s.MemOk → tryLstatClosePerform s = some s1 → s1.MemOk := by
  intro s s1 hs h
  unfold tryLstatClosePerform at h
  split at h
  · cases h
  · rename_i h1
    have h2 := memOk_takeLife _ _ _ _ hs h1
    split at h
    · cases h; exact memOk_lifeAnswer _ _ _ _ _ _ h2
    · split at h
      · cases h; exact memOk_lifeAnswer _ _ _ _ _ _ h2
      · injection h with h
        subst h
        apply memOk_lifeAnswer
        show State.MemOk _
        unfold State.MemOk
        dsimp only
        exact memOk_foldl _ _ _ (fun s k h => memOk_evictTree _ _ _ _ h) h2

theorem memOk_tryListEnd : ∀ s s1, (s.MemOk) → tryListEnd s = some s1 → s1.MemOk := by
  intro s s1
  intros
  rename_i h
  unfold tryListEnd at h
  (try dsimp only at h)
  (repeat' split at h) <;>
    (first | (cases h; done) | (injection h with h; subst h
                                (with_reducible repeat' first | assumption | apply memOk_endCopy
                                                              | apply memOk_modOut)))

theorem memOk_touchImage : ∀ s g, (s.MemOk) → (touchImage s g).MemOk := by
  intros
  unfold touchImage
  (try dsimp only)
  (repeat' split) <;> (with_reducible repeat' first | assumption | apply memOk_engineWalk
                                                    | apply memOk_touchPage)

theorem memOk_placeCtx : ∀ s g d twin, (s.MemOk) → (placeCtx s g d twin).MemOk := by
  intros
  unfold placeCtx
  (repeat' split) <;> (with_reducible repeat' first | assumption | apply memOk_touchImage
                                                    | apply memOk_State_setCtx)

theorem memOk_tryContextRestore : ∀ s s1, (s.MemOk) → tryContextRestore s = some s1 → s1.MemOk := by
  intro s s1
  intros
  rename_i h
  unfold tryContextRestore at h
  (try dsimp only at h)
  (repeat' split at h) <;>
    (first | (cases h; done) | (injection h with h; subst h
                                (with_reducible repeat' first | assumption | apply memOk_placeCtx
                                                              | apply memOk_State_modCtx)))

theorem memOk_tryStealServe : ∀ s s1, (s.MemOk) → tryStealServe s = some s1 → s1.MemOk := by
  intro s s1
  intros
  rename_i h
  unfold tryStealServe at h
  (try dsimp only at h)
  (repeat' split at h) <;>
    (first | (cases h; done) | (injection h with h; subst h
                                (with_reducible repeat' first | assumption | apply memOk_State_modTile)))

theorem memOk_tryTringInstall : ∀ s s1, (s.MemOk) → tryTringInstall s = some s1 → s1.MemOk := by
  intro s s1
  intros
  rename_i h
  unfold tryTringInstall at h
  (try dsimp only at h)
  (repeat' split at h) <;>
    (first | (cases h; done) | (injection h with h; subst h
                                (with_reducible repeat' first | assumption | apply memOk_stepDone
                                                              | apply memOk_setUnit)))

theorem memOk_tryBadOpc : ∀ s s1, (s.MemOk) → tryBadOpc s = some s1 → s1.MemOk := by
  intro s s1
  intros
  rename_i h
  unfold tryBadOpc at h
  (repeat' split at h) <;>
    (first | (cases h; done) | (injection h with h; subst h
                                (with_reducible repeat' first | assumption | apply memOk_answer)))

theorem memOk_tryReadyRingConvert : ∀ s s1, (s.MemOk) → tryReadyRingConvert s = some s1 → s1.MemOk := by
  intro s s1
  intros
  rename_i h
  unfold tryReadyRingConvert at h
  (try dsimp only at h)
  (repeat' split at h) <;>
    (first | (cases h; done) | (injection h with h; subst h
                                (with_reducible repeat' first | apply memOk_sendWork | apply memOk_inherit
                                                              | apply memOk_State_modTile
                                                              | refine memOk_homeRead _ _ _ _ _ _ (by assumption) (by assumption) | apply memWf_memClear)))

theorem memOk_tryAgentRemapResume : ∀ s s1, (s.MemOk) → tryAgentRemapResume s = some s1 → s1.MemOk := by
  intro s s1
  intros
  rename_i h
  unfold tryAgentRemapResume at h
  (try dsimp only at h)
  (repeat' split at h) <;>
    (first | (cases h; done) | (injection h with h; subst h
                                (with_reducible repeat' first | assumption | apply memOk_performReq
                                                              | apply memOk_blockStep
                                                              | apply memOk_State_modTile)))

theorem memOk_tryComputeDieOvertemp : ∀ s s1, (s.MemOk) → tryComputeDieOvertemp s = some s1 → s1.MemOk := by
  intro s s1
  intros
  rename_i h
  unfold tryComputeDieOvertemp at h
  (try dsimp only at h)
  (repeat' split at h) <;> (injection h with h; subst h; (with_reducible repeat' first | assumption
                                                                                       | apply memOk_logAt))

theorem memOk_tryRredRkExpire : ∀ s s1, (s.MemOk) → tryRredRkExpire s = some s1 → s1.MemOk := by
  intro s s1
  intros
  rename_i h
  unfold tryRredRkExpire at h
  (try dsimp only at h)
  (repeat' split at h) <;>
    (first | (cases h; done) | (injection h with h; subst h
                                (with_reducible repeat' first | assumption | apply memOk_closeRanked
                                                              | apply memOk_State_modTile)))

theorem memOk_tryStealRequest : ∀ s s1, (s.MemOk) → tryStealRequest s = some s1 → s1.MemOk := by
  intro s s1
  intros
  rename_i h
  unfold tryStealRequest at h
  (try dsimp only at h)
  (repeat' split at h) <;>
    (first | (cases h; done) | (injection h with h; subst h
                                (with_reducible repeat' first | assumption | apply memOk_State_modTile)))

theorem memOk_tryLstatReadPerform : ∀ s s1, (s.MemOk) → tryLstatReadPerform s = some s1 → s1.MemOk := by
  intro s s1
  intros
  rename_i h
  unfold tryLstatReadPerform at h
  (repeat' split at h) <;>
    (first | (cases h; done) | (injection h with h; subst h
                                (with_reducible repeat' first | apply memOk_lifeAnswer
                                                              | refine memOk_takeLife _ _ _ _ (by assumption) (by assumption))))

theorem memOk_tryRingPutAbandon : ∀ s s1, (s.MemOk) → tryRingPutAbandon s = some s1 → s1.MemOk := by
  intro s s1
  intros
  rename_i h
  unfold tryRingPutAbandon at h
  (try dsimp only at h)
  (repeat' split at h) <;>
    (first | (cases h; done) | (injection h with h; subst h
                                (with_reducible repeat' first | assumption | apply memOk_abandonPut
                                                              | apply memOk_abandonPkt
                                                              | apply memOk_State_modTile)))

theorem memOk_tryStalledSlot : ∀ s s1, (s.MemOk) → tryStalledSlot s = some s1 → s1.MemOk := by
  intro s s1
  intros
  rename_i h
  unfold tryStalledSlot at h
  (try dsimp only at h)
  (repeat' split at h) <;>
    (first | (cases h; done) | (injection h with h; subst h
                                (with_reducible repeat' first | assumption | apply memOk_logAt
                                                              | apply memOk_modQueue)))

theorem memOk_newId : ∀ s t p, (s.MemOk) → newId s t = p → p.1.MemOk := by
  intro s t p
  intros
  rename_i h
  subst h
  unfold newId
  (with_reducible repeat' first | assumption | apply memOk_modOut)

theorem memOk_listCommand : ∀ s t c l h e, (s.MemOk) → (listCommand s t c l h e).MemOk := by
  intros
  unfold listCommand
  (with_reducible repeat' first | assumption | apply memOk_modList | apply memOk_admitCopy
                                | refine memOk_newId _ _ _ ?_ rfl)

theorem memOk_listLoop : ∀ s t c l b, (s.MemOk) → (listLoop s t c l b).MemOk := by
  intros
  unfold listLoop
  (try dsimp only)
  (repeat' split) <;> (with_reducible repeat' first | assumption | apply memOk_refuseControl
                                                    | apply memOk_modList | apply memOk_stopList)

theorem memOk_tryListStart : ∀ s s1, (s.MemOk) → tryListStart s = some s1 → s1.MemOk := by
  intro s s1
  intros
  rename_i h
  unfold tryListStart at h
  (try dsimp only at h)
  (repeat' split at h) <;>
    (first | (cases h; done) | (injection h with h; subst h
                                (with_reducible repeat' first | assumption | apply memOk_refuseControl
                                                              | apply memOk_modList | apply memOk_modOut
                                                              | apply memOk_listCommand
                                                              | apply memOk_listLoop | apply memOk_stopList
                                                              | refine memOk_listPacket_packet _ _ _ _ _ _ ?_ (by assumption) | refine memOk_listPacket_stop _ _ _ _ _ _ ?_ (by assumption))))

theorem memOk_tryGangAdmit : ∀ s s1, s.MemOk → tryGangAdmit s = some s1 → s1.MemOk := by
  intro s s1 hs h
  unfold tryGangAdmit at h
  dsimp only at h
  cases hl : s.launch s.ev.who with
  | none => rw [hl] at h; cases h
  | some l =>
    simp only [hl] at h
    generalize rectTiles l = ts at h
    split at h
    · cases h
    · split at h
      · rw [Option.some.injEq] at h
        rw [← h]
        refine memOk_sendStart _ _ _ (memOk_State_setLaunch _ _ _ (memOk_foldl _ _ _ ?_ hs))
        intro s e h
        exact memOk_State_modTile _ _ _ (memOk_clearPipes _ _ _ h)
      · cases h

theorem memOk_matArriveN : ∀ s t c cls ab n, s.MemOk → (matArriveN s t c cls ab n).MemOk := by
  intro s t c cls ab n
  induction n generalizing s with
  | zero => exact fun h => h
  | succ n ih => exact fun h => ih _ (memOk_matArrive _ _ _ _ _ h)

theorem memOk_rejectCmd : ∀ s t c cause, (s.MemOk) → (rejectCmd s t c cause).MemOk := by
  intros
  unfold rejectCmd
  (repeat' split) <;> (with_reducible repeat' first | assumption | apply memOk_matArriveN | apply memOk_logAt)

theorem memOk_startCmd : ∀ s t c, (s.MemOk) → (startCmd s t c).MemOk := by
  intros
  unfold startCmd
  (repeat' split) <;> (with_reducible repeat' first | assumption | apply memOk_matArriveN
                                                    | apply memOk_State_modTile | apply memOk_setCur)

theorem memOk_tryMatrixCmdTake : ∀ s s1, (s.MemOk) → tryMatrixCmdTake s = some s1 → s1.MemOk := by
  intro s s1
  intros
  rename_i h
  unfold tryMatrixCmdTake at h
  (try dsimp only at h)
  (repeat' split at h) <;>
    (first | (cases h; done) | (injection h with h; subst h
                                (with_reducible repeat' first | assumption | apply memOk_rejectCmd
                                                              | apply memOk_setUnit | apply memOk_startCmd
                                                              | apply memOk_State_modTile)))

theorem memOk_trySpanTwinTimeout : ∀ s s1, (s.MemOk) → trySpanTwinTimeout s = some s1 → s1.MemOk := by
  intro s s1
  intros
  rename_i h
  unfold trySpanTwinTimeout at h
  (try dsimp only at h)
  (repeat' split at h) <;>
    (first | (cases h; done) | (injection h with h; subst h
                                (with_reducible repeat' first | assumption | apply memOk_spanMismatch)))

theorem memOk_sectorRead : ∀ s t c k p, (s.MemOk) → sectorRead s t c k = p → p.1.MemOk := by
  intro s t c k p
  intros
  rename_i h
  subst h
  unfold sectorRead
  (repeat' split) <;> (with_reducible repeat' first | assumption | apply memOk_injFire)

theorem memOk_writeElem : ∀ s l bs bad, (s.MemOk) → (writeElem s l bs bad).MemOk := by
  intros
  unfold writeElem
  (repeat' split) <;> (with_reducible repeat' first | assumption | apply memOk_engWrite
                                                    | apply memOk_setPoison)

theorem memOk_moveElem_done : ∀ s t c out s1 c1 h1 w1 b1, (s.MemOk) →
    moveElem s t c out = .done s1 c1 h1 w1 b1 → s1.MemOk := by
  intro s t c out s1 c1 h1 w1 b1
  intros
  rename_i h
  unfold moveElem at h
  (try dsimp only at h)
  (repeat' split at h) <;> ((cases h; (with_reducible repeat' first | assumption | apply memOk_engineWalk
                                                                    | apply memOk_touchPage
                                                                    | apply memOk_writeElem
                                                                    | refine memOk_unitRead _ _ _ _ ?_ rfl
                                                                    | refine memOk_sectorRead _ _ _ _ _ ?_ rfl)))

theorem memOk_moveElem_stop : ∀ s t c out s1 n1, (s.MemOk) → moveElem s t c out = .stop s1 n1 → s1.MemOk := by
  intro s t c out s1 n1
  intros
  rename_i h
  unfold moveElem at h
  (try dsimp only at h)
  (repeat' split at h) <;> ((cases h; (with_reducible repeat' first | assumption | apply memOk_engineWalk)))

theorem memOk_moveMore : ∀ s t c out bad n p, s.MemOk → moveMore s t c out bad n = p → p.1.MemOk := by
  intro s t c out bad n
  induction n generalizing s c out bad with
  | zero => intro p hs h; subst h; exact hs
  | succ n ih =>
    intro p hs h
    unfold moveMore at h
    split at h
    · split at h
      · rename_i h1; exact ih _ _ _ _ _ (memOk_moveElem_done _ _ _ _ _ _ _ _ _ hs h1) h
      · subst h; exact hs
    · subst h; exact hs

theorem memOk_sendSector : ∀ s t c home parts bad, (s.MemOk) → (sendSector s t c home parts bad).MemOk := by
  intros
  unfold sendSector
  (try dsimp only)
  (repeat' split) <;> (with_reducible repeat' first | assumption | apply memOk_sendWork
                                                    | apply memOk_State_setPkt)

theorem memOk_tryCopyTransfer : ∀ s s1, (s.MemOk) → tryCopyTransfer s = some s1 → s1.MemOk := by
  intro s s1
  intros
  rename_i h
  unfold tryCopyTransfer at h
  (try dsimp only at h)
  (repeat' split at h) <;>
    (first | (cases h; done) | (injection h with h; subst h
                                (with_reducible repeat' first | apply memOk_setCmd | apply memOk_sendSector
                                                              | refine memOk_moveElem_done _ _ _ _ _ _ _ _ _ (by assumption) (by assumption) | refine memOk_moveElem_stop _ _ _ _ _ _ (by assumption) (by assumption) | refine memOk_moveMore _ _ _ _ _ _ _ ?_ rfl)))

theorem memOk_lostAfterKill : ∀ s act, (s.MemOk) → (lostAfterKill s act).MemOk := by
  intros; unfold lostAfterKill; (repeat' split) <;> (with_reducible repeat' assumption)

theorem memOk_lostPacket : ∀ s p, (s.MemOk) → (lostPacket s p).MemOk := by
  intros
  unfold lostPacket
  (repeat' split) <;> (with_reducible repeat' first | assumption | apply memOk_endKilled
                                                    | apply memOk_logAt | apply memOk_lostAfterKill
                                                    | apply memOk_ownerFails | apply memOk_State_modCtx)

theorem memOk_loseEffect : ∀ s p, (s.MemOk) → (loseEffect s p).MemOk := by
  intros; unfold loseEffect; (repeat' split) <;> (with_reducible repeat' assumption)

theorem memOk_losePacket : ∀ s id p, (s.MemOk) → (losePacket s id p).MemOk := by
  intros
  unfold losePacket
  (repeat' split) <;> (with_reducible repeat' first | assumption | apply memOk_lostPacket
                                                    | apply memOk_loseEffect | apply memOk_settleOwner
                                                    | apply memOk_pullEarly | apply memOk_dropHeld
                                                    | apply memOk_dropAfter)

theorem memOk_tryPacketResendTimeout : ∀ s s1, (s.MemOk) → tryPacketResendTimeout s = some s1 → s1.MemOk := by
  intro s s1
  intros
  rename_i h
  unfold tryPacketResendTimeout at h
  (repeat' split at h) <;>
    (first | (cases h; done) | (injection h with h; subst h
                                (with_reducible repeat' first | assumption | apply memOk_losePacket)))

theorem memOk_tryRefresh : ∀ s s1, (s.MemOk) → tryRefresh s = some s1 → s1.MemOk := by
  intro s s1
  intros
  rename_i h
  unfold tryRefresh at h
  (injection h with h; subst h; (with_reducible repeat' first | assumption | apply memOk_countEvent
                                                              | apply memOk_foldl | (intro _ _ _)))

theorem memOk_tryTaskJoinSubtract : ∀ s s1, (s.MemOk) → tryTaskJoinSubtract s = some s1 → s1.MemOk := by
  intro s s1
  intros
  rename_i h
  unfold tryTaskJoinSubtract at h
  (try dsimp only at h)
  (repeat' split at h) <;>
    (first | (cases h; done) | (injection h with h; subst h
                                (with_reducible repeat' first | assumption | apply memOk_logAt
                                                              | apply memOk_inherit | apply memOk_homeWrite
                                                              | apply memOk_State_modTile)))

theorem memOk_hopFlit : ∀ s id p cw st i s1, (s.MemOk) → hopFlit s id p cw st i = some s1 → s1.MemOk := by
  intro s id p cw st i s1
  intros
  rename_i h
  unfold hopFlit at h
  (try dsimp only at h)
  (repeat' split at h) <;>
    (first | (cases h; done) | (injection h with h; subst h
                                (with_reducible repeat' first | assumption | apply memOk_discardBad
                                                              | apply memOk_leavePool
                                                              | apply memOk_State_setPkt
                                                              | apply memOk_State_modRing
                                                              | refine memOk_crossLink _ _ _ _ _ _ ?_ (by assumption))))

theorem memOk_tryFlitAdvance : ∀ s s1, (s.MemOk) → tryFlitAdvance s = some s1 → s1.MemOk := by
  intro s s1; intros; rename_i h; unfold tryFlitAdvance at h; (try dsimp only at h); (repeat' split at h) <;> (first | (cases h; done) | (injection h with h; subst h; (with_reducible repeat' first | assumption | apply memOk_leavePool | apply memOk_State_setPkt | apply memOk_enterEscape | apply memOk_State_modRing)) | (refine memOk_hopFlit _ _ _ _ _ _ _ ?_ h <;> (with_reducible repeat' first | assumption | apply memOk_leavePool | apply memOk_State_setPkt | apply memOk_enterEscape | apply memOk_State_modRing)) | (refine memOk_passPcyc _ _ _ _ ?_ h <;> (with_reducible repeat' first | assumption | apply memOk_leavePool | apply memOk_State_setPkt | apply memOk_enterEscape | apply memOk_State_modRing)))

theorem memOk_tryNackArrival : ∀ s s1, (s.MemOk) → tryNackArrival s = some s1 → s1.MemOk := by
  intro s s1; intros; rename_i h; unfold tryNackArrival at h; (repeat' split at h) <;> (first | (cases h; done) | (injection h with h; subst h; (with_reducible repeat' first | assumption | apply memOk_State_setPkt | apply memOk_losePacket)) | (refine memOk_moveAnswer _ _ _ _ ?_ h <;> (with_reducible repeat' first | assumption | apply memOk_State_setPkt | apply memOk_losePacket)))

theorem memOk_tryMatrixCmdArrival : ∀ s s1, (s.MemOk) → tryMatrixCmdArrival s = some s1 → s1.MemOk := by
  intro s s1
  intros
  rename_i h
  unfold tryMatrixCmdArrival at h
  (try dsimp only at h)
  (repeat' split at h) <;>
    (first | (cases h; done) | (injection h with h; subst h
                                (with_reducible repeat' first | assumption | apply memOk_matArriveN
                                                              | apply memOk_finish
                                                              | apply memOk_State_modTile)))

theorem memOk_resumeLaunch : ∀ s slot, (s.MemOk) → (resumeLaunch s slot).MemOk := by
  intros
  unfold resumeLaunch
  (repeat' split) <;> (with_reducible repeat' first | assumption | apply memOk_State_setLaunch)

theorem memOk_tryOsubAbandon : ∀ s s1, (s.MemOk) → tryOsubAbandon s = some s1 → s1.MemOk := by
  intro s s1
  intros
  rename_i h
  unfold tryOsubAbandon at h
  (try dsimp only at h)
  (repeat' split at h) <;>
    (first | (cases h; done) | (injection h with h; subst h
                                (with_reducible repeat' first | assumption | apply memOk_finish
                                                              | apply memOk_ackPkt | apply memOk_abandonSub
                                                              | apply memOk_State_modTile)))

theorem memOk_stageNow : ∀ s t k q tr far s1, (s.MemOk) → stageNow s t k q tr far = some s1 → s1.MemOk := by
  intro s t k q tr far s1
  intros
  rename_i h
  unfold stageNow at h
  (try dsimp only at h)
  (repeat' split at h) <;>
    (first | (cases h; done) | (injection h with h; subst h
                                (with_reducible repeat' first | assumption | apply memOk_State_modTile)))

theorem memOk_tryDispatch : ∀ s s1, (s.MemOk) → tryDispatch s = some s1 → s1.MemOk := by
  intro s s1; intros; rename_i h; unfold tryDispatch at h; (try dsimp only at h); (repeat' split at h) <;> (first | (cases h; done) | (refine memOk_stageNow _ _ _ _ _ _ _ ?_ h <;> (with_reducible repeat' assumption)) | (refine memOk_dispatchStaged _ _ _ _ ?_ h <;> (with_reducible repeat' assumption)) | (refine memOk_dispatchNow _ _ _ _ _ _ ?_ h <;> (with_reducible repeat' assumption)))

theorem memOk_judgeConst : ∀ (k : CtlRead) s t asid (d : List Byte) s2, s.MemOk →
    k = (if natAt d 160 8 = 0 then .ok s (List.replicate 1024 0) else ctlRead s t asid (natAt d 160 8) 1024) →
    ((∃ b, k = .ok s2 b) ∨ k = .fail s2) → s2.MemOk := by
  intro k s t asid d s2 hs hk h
  subst hk
  split at h
  · obtain ⟨b, h⟩ | h := h <;> cases h; exact hs
  · obtain ⟨b, h⟩ | h := h
    · exact memOk_ctlRead_ok _ _ _ _ _ _ _ hs h
    · exact memOk_ctlRead_fail _ _ _ _ _ _ hs h

theorem memOk_judge_refuse : ∀ s r statusKey s1 n1, s.MemOk → judge s r statusKey = .refuse s1 n1 →
    s1.MemOk := by
  intro s r k s1 n1 hs h
  unfold judge at h
  dsimp only at h
  split at h
  · cases h; exact hs
  · split at h
    · cases h; exact hs
    · split at h
      · cases h; exact hs
      · split at h
        · cases h
        · rename_i h1; cases h; exact memOk_ctlRead_fail _ _ _ _ _ _ hs h1
        · rename_i h1
          have h2 := memOk_ctlRead_ok _ _ _ _ _ _ _ hs h1
          split at h
          · cases h; exact h2
          · split at h
            · cases h
            · rename_i h3; cases h; exact memOk_judgeConst _ _ _ _ _ _ h2 rfl (.inr h3)
            · cases h
            · cases h

theorem memOk_judge_accept : ∀ s r statusKey s1 n1 l1, s.MemOk → judge s r statusKey = .accept s1 n1 l1 →
    s1.MemOk := by
  intro s r k s1 n1 l1 hs h
  unfold judge at h
  dsimp only at h
  split at h
  · cases h
  · split at h
    · cases h
    · split at h
      · cases h
      · split at h
        · cases h
        · cases h
        · rename_i h1
          have h2 := memOk_ctlRead_ok _ _ _ _ _ _ _ hs h1
          split at h
          · cases h
          · split at h
            · cases h
            · cases h
            · cases h
            · rename_i h3 _
              have h5 := memOk_judgeConst _ _ _ _ _ _ h2 rfl (.inl ⟨_, h3⟩)
              cases h
              exact h5

theorem memOk_tryLaunchRecordTake : ∀ s s1, (s.MemOk) → tryLaunchRecordTake s = some s1 → s1.MemOk := by
  intro s s1
  intros
  rename_i h
  unfold tryLaunchRecordTake at h
  (try dsimp only at h)
  (repeat' split at h) <;>
    (first | (cases h; done) | (injection h with h; subst h
                                (with_reducible repeat' first | assumption | apply memOk_logAt
                                                              | apply memOk_beginLaunch
                                                              | apply memOk_answerRecord
                                                              | refine memOk_judge_refuse _ _ _ _ _ ?_ (by assumption) | refine memOk_judge_accept _ _ _ _ _ _ ?_ (by assumption) | refine memOk_unitRead _ _ _ _ ?_ rfl)))

theorem memOk_startSwap : ∀ s t s1, s.MemOk → startSwap s t = some s1 → s1.MemOk := by
  intro s t s1 hs h
  unfold startSwap at h
  dsimp only at h
  generalize coldest (s.tile t) = best at h
  (repeat' split at h)
  all_goals first | (simp only [reduceCtorEq] at h; done) | skip
  all_goals (injection h with h; subst h)
  all_goals first | exact hs | exact memOk_logAt _ _ _ _ _ _ _ (by exact hs)
                  | exact memOk_sendArrival _ _ _ _ _ _ _ (by exact hs)
                  | skip

theorem memOk_tryCableSwapStart : ∀ s s1, s.MemOk → tryCableSwapStart s = some s1 → s1.MemOk := by
  intro s s1 hs h
  unfold tryCableSwapStart at h
  dsimp only at h
  split at h
  · split at h
    · cases h; exact memOk_rejectStale _ _ _ hs
    · cases h
      have h2 := fun id => memOk_finish _ id none hs
      exact memOk_getD _ _ (fun s3 h3 => memOk_startSwap _ _ _ (by exact h2 _) h3) (by exact h2 _)
  · exact memOk_startSwap _ _ _ hs h

theorem memOk_touchSlots : ∀ s t q n, (s.MemOk) → (touchSlots s t q n).MemOk := by
  intros
  unfold touchSlots
  (repeat' split) <;> (with_reducible repeat' first | assumption | apply memOk_engineWalk
                                                    | apply memOk_fireRead | apply memOk_touchPage
                                                    | apply memOk_foldl | split | (intro _ _ _))

theorem memOk_takeCommand : ∀ s t k q qb h e, (s.MemOk) → (takeCommand s t k q qb h e).MemOk := by
  intros
  unfold takeCommand
  (repeat' split) <;> (with_reducible repeat' first | assumption | apply memOk_touchSlots
                                                    | apply memOk_acceptPend | apply memOk_admitCopy
                                                    | apply memOk_engWrite | apply memOk_modOut
                                                    | refine memOk_newId _ _ _ ?_ rfl)

theorem memOk_qcbRead : ∀ s t off p, s.MemOk → qcbRead s t off = p → p.1.MemOk := by
  intro s t off p hs h
  subst h
  unfold qcbRead
  split
  · exact hs
  · split
    · rename_i h1; have h2 := memOk_homeRead _ _ _ _ _ _ hs h1; exact h2
    · rename_i h1; have h2 := memOk_homeRead _ _ _ _ _ _ hs h1; exact h2

theorem memOk_tryOutriderAccept : ∀ s s1, (s.MemOk) → tryOutriderAccept s = some s1 → s1.MemOk := by
  intro s s1
  intros
  rename_i h
  unfold tryOutriderAccept at h
  (try dsimp only at h)
  (repeat' split at h) <;>
    (first | (cases h; done) | (injection h with h; subst h
                                (with_reducible repeat' first | apply memOk_logAt | apply memOk_modQueue
                                                              | apply memOk_takeCommand
                                                              | refine memOk_qcbRead _ _ _ _ (by assumption) (by assumption))))

theorem memOk_retryPuts : ∀ l s t bl, s.MemOk → (retryPuts s t l bl).1.MemOk := by
  intro l
  induction l with
  | nil => intro s t bl hs; exact hs
  | cons u r ih =>
    intro s t bl hs
    unfold retryPuts
    split
    · exact ih _ _ _ hs
    · split
      · exact ih _ _ _ hs
      · rename_i h1
        exact ih _ _ _ (memOk_sendArrival _ _ _ _ _ _ _ (memOk_finish _ _ _ (memOk_ringPut_written _ _ _ _ hs h1)))
      · rename_i h1
        exact ih _ _ _ (memOk_rejectPut _ _ _ (memOk_finish _ _ _ (memOk_ringPut_reject _ _ _ _ hs h1)))

theorem memOk_tryRingPutRetry : ∀ s s1, s.MemOk → tryRingPutRetry s = some s1 → s1.MemOk := by
  intro s s1 hs h
  unfold tryRingPutRetry at h
  have h2 := memOk_retryPuts (s.tile s.ev.who).puts s s.ev.who [] hs
  dsimp only at h
  split at h
  · rename_i h1; rw [h1] at h2; cases h; exact memOk_State_modTile _ _ _ h2
  · cases h

theorem memOk_setPowerTo : ∀ s goal, (s.MemOk) → (setPowerTo s goal).MemOk := by
  intros
  unfold setPowerTo
  (repeat' split) <;> (with_reducible repeat' first | assumption | apply memOk_resumeLaunch
                                                    | apply memOk_answer | apply memOk_preemptLaunch
                                                    | apply memOk_foldl | (intro _ _ _))

theorem memOk_tryStageWaitExpire : ∀ s s1, (s.MemOk) → tryStageWaitExpire s = some s1 → s1.MemOk := by
  intro s s1
  intros
  rename_i h
  unfold tryStageWaitExpire at h
  (repeat' split at h) <;> (first | (cases h; done)
                                  | (refine memOk_dispatchStaged _ _ _ _ ?_ h <;> (with_reducible repeat' assumption)))

theorem memOk_tryTzeroPerform : ∀ s s1, (s.MemOk) → tryTzeroPerform s = some s1 → s1.MemOk := by
  intro s s1
  intros
  rename_i h
  unfold tryTzeroPerform at h
  (repeat' split at h) <;>
    (first | (cases h; done) | (injection h with h; subst h
                                (with_reducible repeat' first | assumption | apply memOk_stepDone
                                                              | apply memOk_setUnit)))

theorem memOk_resumeOn : ∀ s t, (s.MemOk) → (resumeOn s t).MemOk := by
  intros
  unfold resumeOn
  (with_reducible repeat' first | assumption | apply memOk_resumeLaunch | apply memOk_foldl | split
                                | (intro _ _ _))

theorem memOk_tryTileRetire : ∀ s s1, (s.MemOk) → tryTileRetire s = some s1 → s1.MemOk := by
  intro s s1
  intros
  rename_i h
  unfold tryTileRetire at h
  (try dsimp only at h)
  (repeat' split at h) <;>
    (first | (cases h; done) | (injection h with h; subst h
                                (with_reducible repeat' first | assumption | apply memOk_logAt
                                                              | apply memOk_resumeOn
                                                              | apply memOk_State_setTile)))

theorem memOk_tryMmagStep : ∀ s s1, (s.MemOk) → tryMmagStep s = some s1 → s1.MemOk := by
  intro s s1
  intros
  rename_i h
  unfold tryMmagStep at h
  (try dsimp only at h)
  (repeat' split at h) <;>
    (first | (cases h; done) | (injection h with h; subst h
                                (with_reducible repeat' first | assumption | apply memOk_countPerf
                                                              | apply memOk_readProduct
                                                              | apply memOk_setUnit | apply memOk_matArrive
                                                              | apply memOk_groupDone | apply memOk_setCur)))

theorem memOk_postKills : ∀ s, (s.MemOk) → (postKills s).MemOk := by
  intros
  unfold postKills
  (repeat' split) <;> (with_reducible repeat' first | assumption | apply memOk_postLog | apply memOk_foldl
                                                    | (intro _ _ _))

theorem memOk_tryErrorLogPost : ∀ s s1, (s.MemOk) → tryErrorLogPost s = some s1 → s1.MemOk := by
  intro s s1
  intros
  rename_i h
  unfold tryErrorLogPost at h
  (try dsimp only at h)
  (repeat' split at h) <;>
    (first | (cases h; done) | (injection h with h; subst h
                                (with_reducible repeat' first | assumption | apply memOk_postKills)))

theorem memOk_tryContextKill : ∀ s s1, (s.MemOk) → tryContextKill s = some s1 → s1.MemOk := by
  intro s s1
  intros
  rename_i h
  unfold tryContextKill at h
  (try dsimp only at h)
  (repeat' split at h) <;>
    (first | (cases h; done) | (injection h with h; subst h
                                (with_reducible repeat' first | assumption | apply memOk_commandKill)))

theorem memOk_tryDeczPerform : ∀ s s1, (s.MemOk) → tryDeczPerform s = some s1 → s1.MemOk := by
  intro s s1
  intros
  rename_i h
  unfold tryDeczPerform at h
  (try dsimp only at h)
  (repeat' split at h) <;>
    (first | (cases h; done) | (injection h with h; subst h
                                (with_reducible repeat' first | assumption | apply memOk_rejectStale
                                                              | apply memOk_logAt | apply memOk_finish
                                                              | apply memOk_homeWrite
                                                              | apply memOk_sendArrival
                                                              | apply memOk_State_modTile
                                                              | refine memOk_homeRead _ _ _ _ _ _ (by assumption) (by assumption))))

theorem memOk_holdForRow : ∀ s t id k s1, (s.MemOk) → holdForRow s t id k = some s1 → s1.MemOk := by
  intro s t id k s1
  intros
  rename_i h
  unfold holdForRow at h
  (repeat' split at h) <;>
    (first | (cases h; done) | (injection h with h; subst h
                                (with_reducible repeat' first | assumption | apply memOk_State_setPkt
                                                              | apply memOk_countEvent)))

theorem memOk_tryLocalAtomicPerform : ∀ s s1, (s.MemOk) → tryLocalAtomicPerform s = some s1 → s1.MemOk := by
  intro s s1; intros; rename_i h; unfold tryLocalAtomicPerform at h; (try dsimp only at h); (repeat' split at h) <;> (first | (cases h; done) | (injection h with h; subst h; (with_reducible repeat' first | assumption | apply memOk_performStore | apply memOk_finish | apply memOk_sendWork | apply memOk_touchAct | refine memOk_unitRead _ _ _ _ ?_ rfl)) | (refine memOk_holdForRow _ _ _ _ _ ?_ h <;> (with_reducible repeat' first | assumption | apply memOk_performStore | apply memOk_finish | apply memOk_sendWork | apply memOk_touchAct | refine memOk_unitRead _ _ _ _ ?_ rfl)))

theorem memOk_tryMailboxRegisterWrite : ∀ s s1, (s.MemOk) → tryMailboxRegisterWrite s = some s1 →
    s1.MemOk := by
  intro s s1
  intros
  rename_i h
  unfold tryMailboxRegisterWrite at h
  (injection h with h; subst h; (with_reducible repeat' assumption))

theorem memOk_plan : ∀ s, s.MemOk → (∀ s1, plan s = .done s1 → s1.MemOk) ∧
    (∀ i s1, plan s = .run i s1 → s1.MemOk) := by
  intro s hs
  have hc : ∀ (s2 : State) g, s2.MemOk → (∀ s1, issueCtx s2 g = .done s1 → s1.MemOk) ∧
      (∀ i s1, issueCtx s2 g = .run i s1 → s1.MemOk) := fun s2 g h2 =>
    ⟨fun s1 h => memOk_issueCtx_done _ _ _ h2 h, fun i s1 h => memOk_issueCtx_run _ _ _ _ h2 h⟩
  have hg : ∀ (s2 : State) g, s2.MemOk → (∀ s1, turnOf s2 g = .done s1 → s1.MemOk) ∧
      (∀ i s1, turnOf s2 g = .run i s1 → s1.MemOk) := fun s2 g h2 =>
    ⟨fun s1 h => memOk_turnOf_done _ _ _ h2 h, fun i s1 h => memOk_turnOf_run _ _ _ _ h2 h⟩
  have ho : ∀ (o : Option Issue) (x : Issue), (∀ y, o = some y → (∀ s1, y = .done s1 → s1.MemOk) ∧
      (∀ i s1, y = .run i s1 → s1.MemOk)) → x = o.getD (.done s) →
      (∀ s1, x = .done s1 → s1.MemOk) ∧ (∀ i s1, x = .run i s1 → s1.MemOk) := by
    intro o x h hx
    subst hx
    cases o with
    | none => exact ⟨fun s1 h => (by cases h; exact hs), fun i s1 h => (by cases h)⟩
    | some y => exact h y rfl
  have hu : ∀ y, unitTurn s = some y → (∀ s1, y = .done s1 → s1.MemOk) ∧ (∀ i s1, y = .run i s1 → s1.MemOk) := by
    intro y h
    obtain ⟨e, _, rfl⟩ := Option.map_eq_some_iff.1 h
    constructor
    · intro s1 h; cases h
    · intro i s1 h; cases h; exact hs
  have ht : ∀ y, ctxTurn s = some y → (∀ s1, y = .done s1 → s1.MemOk) ∧ (∀ i s1, y = .run i s1 → s1.MemOk) := by
    intro y h
    obtain ⟨g, _, rfl⟩ := Option.map_eq_some_iff.1 h
    exact hg _ _ hs
  unfold plan
  dsimp only
  split
  · exact hc _ _ hs
  · split
    · split
      · exact ⟨fun s1 h => (by cases h), fun i s1 h => (by cases h; exact hs)⟩
      · exact ⟨fun s1 h => (by cases h; exact hs), fun i s1 h => (by cases h)⟩
    · exact hg _ _ hs
    · split
      · rename_i h1
        split at h1
        · exact hu _ h1
        · exact ht _ h1
      · split
        · exact ho _ _ ht rfl
        · exact ho _ _ hu rfl

theorem memOk_plan_done : ∀ s s1, s.MemOk → plan s = .done s1 → s1.MemOk :=
  fun s s1 hs h => (memOk_plan s hs).1 s1 h

theorem memOk_plan_run : ∀ s i s1, s.MemOk → plan s = .run i s1 → s1.MemOk :=
  fun s i s1 hs h => (memOk_plan s hs).2 i s1 h

theorem memOk_tick : ∀ s, (s.MemOk) → (tick s).MemOk := by
  intros; unfold tick; (with_reducible repeat' first | assumption | apply memOk_countWaits)

end Sys2Proof.Laws
end

