-- ==== Sys2Proof/Laws/PerInstr.lean ====
section
/-! SUPPORT. One lemma per constructor of `Instr`: the head word of its encoding holds the opcode of its
row, the TLEN of its tail, its guard, CHAIN and D (R89). -/

namespace Sys2Proof.Laws

/-- The fields of the head word of an encoded instruction (R89). A device event and a reserved opcode have no
form, and nothing is said of them. -/
def HeadFields.Statement (i : Instr) : Prop :=
  ∀ F h t head tail, Machine.instrParts i = some (F, h, t) → encode i = some (head, tail) →
    head.toNat / 256 = F.opc ∧ head.toNat / 64 % 4 = encodeTlen t ∧ head.getLsbD 5 = h.chain ∧
    head.extractLsb' 2 3 = h.pred ∧ head.getLsbD 1 = h.sense ∧ head.getLsbD 0 = (Machine.tailD t).isSome

/-- The head word holds its fields apart. -/
theorem encodeHeadWord_fields (opc n : Nat) (h : Head) (d : Bool) (ho : opc < 256) (hn : n < 4) :
    (encodeHeadWord opc n h d).toNat / 256 = opc ∧ (encodeHeadWord opc n h d).toNat / 64 % 4 = n ∧
    (encodeHeadWord opc n h d).getLsbD 5 = h.chain ∧ (encodeHeadWord opc n h d).extractLsb' 2 3 = h.pred ∧
    (encodeHeadWord opc n h d).getLsbD 1 = h.sense ∧ (encodeHeadWord opc n h d).getLsbD 0 = d := by
  obtain ⟨p, s, c⟩ := h
  have hp := p.isLt
  have hv : (encodeHeadWord opc n ⟨p, s, c⟩ d).toNat =
      opc * 256 + n * 64 + c.toNat * 32 + p.toNat * 4 + s.toNat * 2 + d.toNat := by
    simp only [encodeHeadWord, BitVec.toNat_ofNat]
    cases c <;> cases s <;> cases d <;> simp <;> omega
  have hb : ∀ k, (encodeHeadWord opc n ⟨p, s, c⟩ d).getLsbD k = decide
      ((opc * 256 + n * 64 + c.toNat * 32 + p.toNat * 4 + s.toNat * 2 + d.toNat) / 2 ^ k % 2 = 1) := fun k => by
    rw [← BitVec.testBit_toNat, hv, Nat.testBit_eq_decide_div_mod_eq]
  have he : ((encodeHeadWord opc n ⟨p, s, c⟩ d).extractLsb' 2 3).toNat =
      (opc * 256 + n * 64 + c.toNat * 32 + p.toNat * 4 + s.toNat * 2 + d.toNat) / 4 % 8 := by
    rw [BitVec.extractLsb'_toNat, hv, Nat.shiftRight_eq_div_pow]
  have hc := Bool.toNat_le c
  have hs := Bool.toNat_le s
  have hd := Bool.toNat_le d
  have one : ∀ b : Bool, decide (b.toNat = 1) = b := by decide
  have h5 : (opc * 256 + n * 64 + c.toNat * 32 + p.toNat * 4 + s.toNat * 2 + d.toNat) / 2 ^ 5 =
      2 * (4 * opc + n) + c.toNat := by omega
  have h2 : (opc * 256 + n * 64 + c.toNat * 32 + p.toNat * 4 + s.toNat * 2 + d.toNat) / 4 =
      8 * (8 * opc + 2 * n + c.toNat) + p.toNat := by omega
  have h1 : (opc * 256 + n * 64 + c.toNat * 32 + p.toNat * 4 + s.toNat * 2 + d.toNat) / 2 ^ 1 =
      2 * (64 * opc + 16 * n + 8 * c.toNat + p.toNat) + s.toNat := by omega
  have m (k : Nat) (b : Bool) (hb : b.toNat ≤ 1) : decide ((2 * k + b.toNat) % 2 = 1) = b := by
    have e : (2 * k + b.toNat) % 2 = b.toNat := by omega
    rw [e, one]
  refine ⟨by rw [hv]; omega, by rw [hv]; omega, ?_, ?_, ?_, ?_⟩
  · rw [hb, h5, m _ _ hc]
  · apply BitVec.eq_of_toNat_eq
    rw [he, h2, Nat.mul_add_mod, Nat.mod_eq_of_lt hp]
  · rw [hb, h1, m _ _ hs]
  · have h0 : (opc * 256 + n * 64 + c.toNat * 32 + p.toNat * 4 + s.toNat * 2 + d.toNat) / 2 ^ 0 =
        2 * (128 * opc + 32 * n + 16 * c.toNat + 2 * p.toNat + s.toNat) + d.toNat := by omega
    rw [hb, h0, m _ _ hd]

/-- TLEN has two bits. -/
theorem encodeTlen_lt (t : Tail) : encodeTlen t < 4 := by cases t <;> simp [encodeTlen]

/-- The instruction of a form with a byte for its opcode. -/
theorem headFields_of {i : Instr} {F : Machine.Form} {h : Head} {t : Tail}
    (hp : Machine.instrParts i = some (F, h, t))
    (he : encode i = some (encodeHeadWord F.opc (encodeTlen t) h (Machine.tailD t).isSome, encodeTail t))
    (ho : F.opc < 256) : HeadFields.Statement i := by
  intro F' h' t' head tail hp' he'
  rw [hp] at hp'
  rw [he] at he'
  obtain ⟨rfl, rfl, rfl⟩ := hp'
  obtain ⟨rfl, rfl⟩ := he'
  exact encodeHeadWord_fields _ _ _ _ ho (encodeTlen_lt t)

/-- An instruction of no form. -/
theorem headFields_none {i : Instr} (hp : Machine.instrParts i = none) : HeadFields.Statement i := by
  intro F h t head tail hp' _
  rw [hp] at hp'
  cases hp'

theorem HeadFields.add (h : Head) (t : Tail) : HeadFields.Statement (.add h t) :=
  headFields_of rfl rfl (by decide)
theorem HeadFields.sub (h : Head) (t : Tail) : HeadFields.Statement (.sub h t) :=
  headFields_of rfl rfl (by decide)
theorem HeadFields.mul (h : Head) (t : Tail) : HeadFields.Statement (.mul h t) :=
  headFields_of rfl rfl (by decide)
theorem HeadFields.mulh (h : Head) (t : Tail) : HeadFields.Statement (.mulh h t) :=
  headFields_of rfl rfl (by decide)
theorem HeadFields.madd (h : Head) (t : Tail) : HeadFields.Statement (.madd h t) :=
  headFields_of rfl rfl (by decide)
theorem HeadFields.div (h : Head) (t : Tail) : HeadFields.Statement (.div h t) :=
  headFields_of rfl rfl (by decide)
theorem HeadFields.rem (h : Head) (t : Tail) : HeadFields.Statement (.rem h t) :=
  headFields_of rfl rfl (by decide)
theorem HeadFields.neg (h : Head) (t : Tail) : HeadFields.Statement (.neg h t) :=
  headFields_of rfl rfl (by decide)
theorem HeadFields.abs (h : Head) (t : Tail) : HeadFields.Statement (.abs h t) :=
  headFields_of rfl rfl (by decide)
theorem HeadFields.min (h : Head) (t : Tail) : HeadFields.Statement (.min h t) :=
  headFields_of rfl rfl (by decide)
theorem HeadFields.max (h : Head) (t : Tail) : HeadFields.Statement (.max h t) :=
  headFields_of rfl rfl (by decide)
theorem HeadFields.adds (h : Head) (t : Tail) : HeadFields.Statement (.adds h t) :=
  headFields_of rfl rfl (by decide)
theorem HeadFields.subs (h : Head) (t : Tail) : HeadFields.Statement (.subs h t) :=
  headFields_of rfl rfl (by decide)
theorem HeadFields.and (h : Head) (t : Tail) : HeadFields.Statement (.and h t) :=
  headFields_of rfl rfl (by decide)
theorem HeadFields.or (h : Head) (t : Tail) : HeadFields.Statement (.or h t) :=
  headFields_of rfl rfl (by decide)
theorem HeadFields.xor (h : Head) (t : Tail) : HeadFields.Statement (.xor h t) :=
  headFields_of rfl rfl (by decide)
theorem HeadFields.andn (h : Head) (t : Tail) : HeadFields.Statement (.andn h t) :=
  headFields_of rfl rfl (by decide)
theorem HeadFields.orn (h : Head) (t : Tail) : HeadFields.Statement (.orn h t) :=
  headFields_of rfl rfl (by decide)
theorem HeadFields.not (h : Head) (t : Tail) : HeadFields.Statement (.not h t) :=
  headFields_of rfl rfl (by decide)
theorem HeadFields.shl (h : Head) (t : Tail) : HeadFields.Statement (.shl h t) :=
  headFields_of rfl rfl (by decide)
theorem HeadFields.shr (h : Head) (t : Tail) : HeadFields.Statement (.shr h t) :=
  headFields_of rfl rfl (by decide)
theorem HeadFields.sar (h : Head) (t : Tail) : HeadFields.Statement (.sar h t) :=
  headFields_of rfl rfl (by decide)
theorem HeadFields.rol (h : Head) (t : Tail) : HeadFields.Statement (.rol h t) :=
  headFields_of rfl rfl (by decide)
theorem HeadFields.ror (h : Head) (t : Tail) : HeadFields.Statement (.ror h t) :=
  headFields_of rfl rfl (by decide)
theorem HeadFields.clz (h : Head) (t : Tail) : HeadFields.Statement (.clz h t) :=
  headFields_of rfl rfl (by decide)
theorem HeadFields.ctz (h : Head) (t : Tail) : HeadFields.Statement (.ctz h t) :=
  headFields_of rfl rfl (by decide)
theorem HeadFields.popc (h : Head) (t : Tail) : HeadFields.Statement (.popc h t) :=
  headFields_of rfl rfl (by decide)
theorem HeadFields.brev (h : Head) (t : Tail) : HeadFields.Statement (.brev h t) :=
  headFields_of rfl rfl (by decide)
theorem HeadFields.bswap (h : Head) (t : Tail) : HeadFields.Statement (.bswap h t) :=
  headFields_of rfl rfl (by decide)
theorem HeadFields.bfx (h : Head) (t : Tail) : HeadFields.Statement (.bfx h t) :=
  headFields_of rfl rfl (by decide)
theorem HeadFields.bfi (h : Head) (t : Tail) : HeadFields.Statement (.bfi h t) :=
  headFields_of rfl rfl (by decide)
theorem HeadFields.ext (h : Head) (t : Tail) : HeadFields.Statement (.ext h t) :=
  headFields_of rfl rfl (by decide)
theorem HeadFields.cmp (h : Head) (t : Tail) : HeadFields.Statement (.cmp h t) :=
  headFields_of rfl rfl (by decide)
theorem HeadFields.test (h : Head) (t : Tail) : HeadFields.Statement (.test h t) :=
  headFields_of rfl rfl (by decide)
theorem HeadFields.sel (h : Head) (t : Tail) : HeadFields.Statement (.sel h t) :=
  headFields_of rfl rfl (by decide)
theorem HeadFields.mov (h : Head) (t : Tail) : HeadFields.Statement (.mov h t) :=
  headFields_of rfl rfl (by decide)
theorem HeadFields.ldi (h : Head) (t : Tail) : HeadFields.Statement (.ldi h t) :=
  headFields_of rfl rfl (by decide)
theorem HeadFields.ldih (h : Head) (t : Tail) : HeadFields.Statement (.ldih h t) :=
  headFields_of rfl rfl (by decide)
theorem HeadFields.ldk (h : Head) (t : Tail) : HeadFields.Statement (.ldk h t) :=
  headFields_of rfl rfl (by decide)
theorem HeadFields.lea (h : Head) (t : Tail) : HeadFields.Statement (.lea h t) :=
  headFields_of rfl rfl (by decide)
theorem HeadFields.crc (h : Head) (t : Tail) : HeadFields.Statement (.crc h t) :=
  headFields_of rfl rfl (by decide)
theorem HeadFields.fnv (h : Head) (t : Tail) : HeadFields.Statement (.fnv h t) :=
  headFields_of rfl rfl (by decide)
theorem HeadFields.coord (h : Head) (t : Tail) : HeadFields.Statement (.coord h t) :=
  headFields_of rfl rfl (by decide)
theorem HeadFields.alignup (h : Head) (t : Tail) : HeadFields.Statement (.alignup h t) :=
  headFields_of rfl rfl (by decide)
theorem HeadFields.aligndn (h : Head) (t : Tail) : HeadFields.Statement (.aligndn h t) :=
  headFields_of rfl rfl (by decide)
theorem HeadFields.bound (h : Head) (t : Tail) : HeadFields.Statement (.bound h t) :=
  headFields_of rfl rfl (by decide)
theorem HeadFields.bset (h : Head) (t : Tail) : HeadFields.Statement (.bset h t) :=
  headFields_of rfl rfl (by decide)
theorem HeadFields.bclr (h : Head) (t : Tail) : HeadFields.Statement (.bclr h t) :=
  headFields_of rfl rfl (by decide)
theorem HeadFields.btst (h : Head) (t : Tail) : HeadFields.Statement (.btst h t) :=
  headFields_of rfl rfl (by decide)
theorem HeadFields.binv (h : Head) (t : Tail) : HeadFields.Statement (.binv h t) :=
  headFields_of rfl rfl (by decide)
theorem HeadFields.perm (h : Head) (t : Tail) : HeadFields.Statement (.perm h t) :=
  headFields_of rfl rfl (by decide)
theorem HeadFields.cls (h : Head) (t : Tail) : HeadFields.Statement (.cls h t) :=
  headFields_of rfl rfl (by decide)
theorem HeadFields.absd (h : Head) (t : Tail) : HeadFields.Statement (.absd h t) :=
  headFields_of rfl rfl (by decide)
theorem HeadFields.avg (h : Head) (t : Tail) : HeadFields.Statement (.avg h t) :=
  headFields_of rfl rfl (by decide)
theorem HeadFields.mulw (h : Head) (t : Tail) : HeadFields.Statement (.mulw h t) :=
  headFields_of rfl rfl (by decide)
theorem HeadFields.shladd (h : Head) (t : Tail) : HeadFields.Statement (.shladd h t) :=
  headFields_of rfl rfl (by decide)
theorem HeadFields.fadd (h : Head) (t : Tail) : HeadFields.Statement (.fadd h t) :=
  headFields_of rfl rfl (by decide)
theorem HeadFields.fsub (h : Head) (t : Tail) : HeadFields.Statement (.fsub h t) :=
  headFields_of rfl rfl (by decide)
theorem HeadFields.fmul (h : Head) (t : Tail) : HeadFields.Statement (.fmul h t) :=
  headFields_of rfl rfl (by decide)
theorem HeadFields.fdiv (h : Head) (t : Tail) : HeadFields.Statement (.fdiv h t) :=
  headFields_of rfl rfl (by decide)
theorem HeadFields.fsqrt (h : Head) (t : Tail) : HeadFields.Statement (.fsqrt h t) :=
  headFields_of rfl rfl (by decide)
theorem HeadFields.fma (h : Head) (t : Tail) : HeadFields.Statement (.fma h t) :=
  headFields_of rfl rfl (by decide)
theorem HeadFields.fms (h : Head) (t : Tail) : HeadFields.Statement (.fms h t) :=
  headFields_of rfl rfl (by decide)
theorem HeadFields.fnma (h : Head) (t : Tail) : HeadFields.Statement (.fnma h t) :=
  headFields_of rfl rfl (by decide)
theorem HeadFields.fmin (h : Head) (t : Tail) : HeadFields.Statement (.fmin h t) :=
  headFields_of rfl rfl (by decide)
theorem HeadFields.fmax (h : Head) (t : Tail) : HeadFields.Statement (.fmax h t) :=
  headFields_of rfl rfl (by decide)
theorem HeadFields.fabs (h : Head) (t : Tail) : HeadFields.Statement (.fabs h t) :=
  headFields_of rfl rfl (by decide)
theorem HeadFields.fneg (h : Head) (t : Tail) : HeadFields.Statement (.fneg h t) :=
  headFields_of rfl rfl (by decide)
theorem HeadFields.fcpys (h : Head) (t : Tail) : HeadFields.Statement (.fcpys h t) :=
  headFields_of rfl rfl (by decide)
theorem HeadFields.fcmp (h : Head) (t : Tail) : HeadFields.Statement (.fcmp h t) :=
  headFields_of rfl rfl (by decide)
theorem HeadFields.fclass (h : Head) (t : Tail) : HeadFields.Statement (.fclass h t) :=
  headFields_of rfl rfl (by decide)
theorem HeadFields.frint (h : Head) (t : Tail) : HeadFields.Statement (.frint h t) :=
  headFields_of rfl rfl (by decide)
theorem HeadFields.fcvt (h : Head) (t : Tail) : HeadFields.Statement (.fcvt h t) :=
  headFields_of rfl rfl (by decide)
theorem HeadFields.fcvti (h : Head) (t : Tail) : HeadFields.Statement (.fcvti h t) :=
  headFields_of rfl rfl (by decide)
theorem HeadFields.icvtf (h : Head) (t : Tail) : HeadFields.Statement (.icvtf h t) :=
  headFields_of rfl rfl (by decide)
theorem HeadFields.fcvtn (h : Head) (t : Tail) : HeadFields.Statement (.fcvtn h t) :=
  headFields_of rfl rfl (by decide)
theorem HeadFields.fcvtw (h : Head) (t : Tail) : HeadFields.Statement (.fcvtw h t) :=
  headFields_of rfl rfl (by decide)
theorem HeadFields.fminnum (h : Head) (t : Tail) : HeadFields.Statement (.fminnum h t) :=
  headFields_of rfl rfl (by decide)
theorem HeadFields.fmaxnum (h : Head) (t : Tail) : HeadFields.Statement (.fmaxnum h t) :=
  headFields_of rfl rfl (by decide)
theorem HeadFields.fscale (h : Head) (t : Tail) : HeadFields.Statement (.fscale h t) :=
  headFields_of rfl rfl (by decide)
theorem HeadFields.flogb (h : Head) (t : Tail) : HeadFields.Statement (.flogb h t) :=
  headFields_of rfl rfl (by decide)
theorem HeadFields.fexp2 (h : Head) (t : Tail) : HeadFields.Statement (.fexp2 h t) :=
  headFields_of rfl rfl (by decide)
theorem HeadFields.frcp (h : Head) (t : Tail) : HeadFields.Statement (.frcp h t) :=
  headFields_of rfl rfl (by decide)
theorem HeadFields.frsq (h : Head) (t : Tail) : HeadFields.Statement (.frsq h t) :=
  headFields_of rfl rfl (by decide)
theorem HeadFields.br (h : Head) (t : Tail) : HeadFields.Statement (.br h t) :=
  headFields_of rfl rfl (by decide)
theorem HeadFields.brz (h : Head) (t : Tail) : HeadFields.Statement (.brz h t) :=
  headFields_of rfl rfl (by decide)
theorem HeadFields.brnz (h : Head) (t : Tail) : HeadFields.Statement (.brnz h t) :=
  headFields_of rfl rfl (by decide)
theorem HeadFields.jmp (h : Head) (t : Tail) : HeadFields.Statement (.jmp h t) :=
  headFields_of rfl rfl (by decide)
theorem HeadFields.call (h : Head) (t : Tail) : HeadFields.Statement (.call h t) :=
  headFields_of rfl rfl (by decide)
theorem HeadFields.calli (h : Head) (t : Tail) : HeadFields.Statement (.calli h t) :=
  headFields_of rfl rfl (by decide)
theorem HeadFields.ret (h : Head) (t : Tail) : HeadFields.Statement (.ret h t) :=
  headFields_of rfl rfl (by decide)
theorem HeadFields.loop (h : Head) (t : Tail) : HeadFields.Statement (.loop h t) :=
  headFields_of rfl rfl (by decide)
theorem HeadFields.loopr (h : Head) (t : Tail) : HeadFields.Statement (.loopr h t) :=
  headFields_of rfl rfl (by decide)
theorem HeadFields.lbrk (h : Head) (t : Tail) : HeadFields.Statement (.lbrk h t) :=
  headFields_of rfl rfl (by decide)
theorem HeadFields.pand (h : Head) (t : Tail) : HeadFields.Statement (.pand h t) :=
  headFields_of rfl rfl (by decide)
theorem HeadFields.por (h : Head) (t : Tail) : HeadFields.Statement (.por h t) :=
  headFields_of rfl rfl (by decide)
theorem HeadFields.pxor (h : Head) (t : Tail) : HeadFields.Statement (.pxor h t) :=
  headFields_of rfl rfl (by decide)
theorem HeadFields.pnot (h : Head) (t : Tail) : HeadFields.Statement (.pnot h t) :=
  headFields_of rfl rfl (by decide)
theorem HeadFields.pset (h : Head) (t : Tail) : HeadFields.Statement (.pset h t) :=
  headFields_of rfl rfl (by decide)
theorem HeadFields.pmov (h : Head) (t : Tail) : HeadFields.Statement (.pmov h t) :=
  headFields_of rfl rfl (by decide)
theorem HeadFields.trap (h : Head) (t : Tail) : HeadFields.Statement (.trap h t) :=
  headFields_of rfl rfl (by decide)
theorem HeadFields.syscall (h : Head) (t : Tail) : HeadFields.Statement (.syscall h t) :=
  headFields_of rfl rfl (by decide)
theorem HeadFields.sysret (h : Head) (t : Tail) : HeadFields.Statement (.sysret h t) :=
  headFields_of rfl rfl (by decide)
theorem HeadFields.crd (h : Head) (t : Tail) : HeadFields.Statement (.crd h t) :=
  headFields_of rfl rfl (by decide)
theorem HeadFields.cwr (h : Head) (t : Tail) : HeadFields.Statement (.cwr h t) :=
  headFields_of rfl rfl (by decide)
theorem HeadFields.halt (h : Head) (t : Tail) : HeadFields.Statement (.halt h t) :=
  headFields_of rfl rfl (by decide)
theorem HeadFields.nop (h : Head) (t : Tail) : HeadFields.Statement (.nop h t) :=
  headFields_of rfl rfl (by decide)
theorem HeadFields.pause (h : Head) (t : Tail) : HeadFields.Statement (.pause h t) :=
  headFields_of rfl rfl (by decide)
theorem HeadFields.pauseExpire : HeadFields.Statement .pauseExpire := headFields_none rfl
theorem HeadFields.rdcyc (h : Head) (t : Tail) : HeadFields.Statement (.rdcyc h t) :=
  headFields_of rfl rfl (by decide)
theorem HeadFields.psave (h : Head) (t : Tail) : HeadFields.Statement (.psave h t) :=
  headFields_of rfl rfl (by decide)
theorem HeadFields.pload (h : Head) (t : Tail) : HeadFields.Statement (.pload h t) :=
  headFields_of rfl rfl (by decide)
theorem HeadFields.bkpt (h : Head) (t : Tail) : HeadFields.Statement (.bkpt h t) :=
  headFields_of rfl rfl (by decide)
theorem HeadFields.vshape (h : Head) (t : Tail) : HeadFields.Statement (.vshape h t) :=
  headFields_of rfl rfl (by decide)
theorem HeadFields.vld (h : Head) (t : Tail) : HeadFields.Statement (.vld h t) :=
  headFields_of rfl rfl (by decide)
theorem HeadFields.vst (h : Head) (t : Tail) : HeadFields.Statement (.vst h t) :=
  headFields_of rfl rfl (by decide)
theorem HeadFields.vgath (h : Head) (t : Tail) : HeadFields.Statement (.vgath h t) :=
  headFields_of rfl rfl (by decide)
theorem HeadFields.vadd (h : Head) (t : Tail) : HeadFields.Statement (.vadd h t) :=
  headFields_of rfl rfl (by decide)
theorem HeadFields.vsub (h : Head) (t : Tail) : HeadFields.Statement (.vsub h t) :=
  headFields_of rfl rfl (by decide)
theorem HeadFields.vmul (h : Head) (t : Tail) : HeadFields.Statement (.vmul h t) :=
  headFields_of rfl rfl (by decide)
theorem HeadFields.vfma (h : Head) (t : Tail) : HeadFields.Statement (.vfma h t) :=
  headFields_of rfl rfl (by decide)
theorem HeadFields.vmin (h : Head) (t : Tail) : HeadFields.Statement (.vmin h t) :=
  headFields_of rfl rfl (by decide)
theorem HeadFields.vmax (h : Head) (t : Tail) : HeadFields.Statement (.vmax h t) :=
  headFields_of rfl rfl (by decide)
theorem HeadFields.vdiv (h : Head) (t : Tail) : HeadFields.Statement (.vdiv h t) :=
  headFields_of rfl rfl (by decide)
theorem HeadFields.vcmp (h : Head) (t : Tail) : HeadFields.Statement (.vcmp h t) :=
  headFields_of rfl rfl (by decide)
theorem HeadFields.vsel (h : Head) (t : Tail) : HeadFields.Statement (.vsel h t) :=
  headFields_of rfl rfl (by decide)
theorem HeadFields.vredr (h : Head) (t : Tail) : HeadFields.Statement (.vredr h t) :=
  headFields_of rfl rfl (by decide)
theorem HeadFields.vredc (h : Head) (t : Tail) : HeadFields.Statement (.vredc h t) :=
  headFields_of rfl rfl (by decide)
theorem HeadFields.vbcastSc (h : Head) (t : Tail) : HeadFields.Statement (.vbcastSc h t) :=
  headFields_of rfl rfl (by decide)
theorem HeadFields.vbcastRow (h : Head) (t : Tail) : HeadFields.Statement (.vbcastRow h t) :=
  headFields_of rfl rfl (by decide)
theorem HeadFields.vbcastCol (h : Head) (t : Tail) : HeadFields.Statement (.vbcastCol h t) :=
  headFields_of rfl rfl (by decide)
theorem HeadFields.vtran (h : Head) (t : Tail) : HeadFields.Statement (.vtran h t) :=
  headFields_of rfl rfl (by decide)
theorem HeadFields.vcvt (h : Head) (t : Tail) : HeadFields.Statement (.vcvt h t) :=
  headFields_of rfl rfl (by decide)
theorem HeadFields.vpack (h : Head) (t : Tail) : HeadFields.Statement (.vpack h t) :=
  headFields_of rfl rfl (by decide)
theorem HeadFields.vunpk (h : Head) (t : Tail) : HeadFields.Statement (.vunpk h t) :=
  headFields_of rfl rfl (by decide)
theorem HeadFields.vexp2 (h : Head) (t : Tail) : HeadFields.Statement (.vexp2 h t) :=
  headFields_of rfl rfl (by decide)
theorem HeadFields.vlog2 (h : Head) (t : Tail) : HeadFields.Statement (.vlog2 h t) :=
  headFields_of rfl rfl (by decide)
theorem HeadFields.vrcp (h : Head) (t : Tail) : HeadFields.Statement (.vrcp h t) :=
  headFields_of rfl rfl (by decide)
theorem HeadFields.vrsq (h : Head) (t : Tail) : HeadFields.Statement (.vrsq h t) :=
  headFields_of rfl rfl (by decide)
theorem HeadFields.vwfu (h : Head) (t : Tail) : HeadFields.Statement (.vwfu h t) :=
  headFields_of rfl rfl (by decide)
theorem HeadFields.vwfm (h : Head) (t : Tail) : HeadFields.Statement (.vwfm h t) :=
  headFields_of rfl rfl (by decide)
theorem HeadFields.vmovsGet (h : Head) (t : Tail) : HeadFields.Statement (.vmovsGet h t) :=
  headFields_of rfl rfl (by decide)
theorem HeadFields.vmovsPut (h : Head) (t : Tail) : HeadFields.Statement (.vmovsPut h t) :=
  headFields_of rfl rfl (by decide)
theorem HeadFields.vspop (h : Head) (t : Tail) : HeadFields.Statement (.vspop h t) :=
  headFields_of rfl rfl (by decide)
theorem HeadFields.tcfg (h : Head) (t : Tail) : HeadFields.Statement (.tcfg h t) :=
  headFields_of rfl rfl (by decide)
theorem HeadFields.tld (h : Head) (t : Tail) : HeadFields.Statement (.tld h t) :=
  headFields_of rfl rfl (by decide)
theorem HeadFields.tst (h : Head) (t : Tail) : HeadFields.Statement (.tst h t) :=
  headFields_of rfl rfl (by decide)
theorem HeadFields.tzero (h : Head) (t : Tail) : HeadFields.Statement (.tzero h t) :=
  headFields_of rfl rfl (by decide)
theorem HeadFields.aclr (h : Head) (t : Tail) : HeadFields.Statement (.aclr h t) :=
  headFields_of rfl rfl (by decide)
theorem HeadFields.tdrain (h : Head) (t : Tail) : HeadFields.Statement (.tdrain h t) :=
  headFields_of rfl rfl (by decide)
theorem HeadFields.tchk (h : Head) (t : Tail) : HeadFields.Statement (.tchk h t) :=
  headFields_of rfl rfl (by decide)
theorem HeadFields.mmag (h : Head) (t : Tail) : HeadFields.Statement (.mmag h t) :=
  headFields_of rfl rfl (by decide)
theorem HeadFields.tring (h : Head) (t : Tail) : HeadFields.Statement (.tring h t) :=
  headFields_of rfl rfl (by decide)
theorem HeadFields.mmaBf16Bf16 (h : Head) (t : Tail) : HeadFields.Statement (.mmaBf16Bf16 h t) :=
  headFields_of rfl rfl (by decide)
theorem HeadFields.mmaF16F16 (h : Head) (t : Tail) : HeadFields.Statement (.mmaF16F16 h t) :=
  headFields_of rfl rfl (by decide)
theorem HeadFields.mmaE4m3E4m3 (h : Head) (t : Tail) : HeadFields.Statement (.mmaE4m3E4m3 h t) :=
  headFields_of rfl rfl (by decide)
theorem HeadFields.mmaE4m3E5m2 (h : Head) (t : Tail) : HeadFields.Statement (.mmaE4m3E5m2 h t) :=
  headFields_of rfl rfl (by decide)
theorem HeadFields.mmaE5m2E4m3 (h : Head) (t : Tail) : HeadFields.Statement (.mmaE5m2E4m3 h t) :=
  headFields_of rfl rfl (by decide)
theorem HeadFields.mmaE5m2E5m2 (h : Head) (t : Tail) : HeadFields.Statement (.mmaE5m2E5m2 h t) :=
  headFields_of rfl rfl (by decide)
theorem HeadFields.mmaE2m3E2m3 (h : Head) (t : Tail) : HeadFields.Statement (.mmaE2m3E2m3 h t) :=
  headFields_of rfl rfl (by decide)
theorem HeadFields.mmaE2m1E2m1 (h : Head) (t : Tail) : HeadFields.Statement (.mmaE2m1E2m1 h t) :=
  headFields_of rfl rfl (by decide)
theorem HeadFields.mmaE2m1E4m3 (h : Head) (t : Tail) : HeadFields.Statement (.mmaE2m1E4m3 h t) :=
  headFields_of rfl rfl (by decide)
theorem HeadFields.mmaE4m3E2m1 (h : Head) (t : Tail) : HeadFields.Statement (.mmaE4m3E2m1 h t) :=
  headFields_of rfl rfl (by decide)
theorem HeadFields.mmaLg6Lg6 (h : Head) (t : Tail) : HeadFields.Statement (.mmaLg6Lg6 h t) :=
  headFields_of rfl rfl (by decide)
theorem HeadFields.mmaLg6E4m3 (h : Head) (t : Tail) : HeadFields.Statement (.mmaLg6E4m3 h t) :=
  headFields_of rfl rfl (by decide)
theorem HeadFields.mmaE4m3Lg6 (h : Head) (t : Tail) : HeadFields.Statement (.mmaE4m3Lg6 h t) :=
  headFields_of rfl rfl (by decide)
theorem HeadFields.mmaLg6E2m1 (h : Head) (t : Tail) : HeadFields.Statement (.mmaLg6E2m1 h t) :=
  headFields_of rfl rfl (by decide)
theorem HeadFields.mmaE2m1Lg6 (h : Head) (t : Tail) : HeadFields.Statement (.mmaE2m1Lg6 h t) :=
  headFields_of rfl rfl (by decide)
theorem HeadFields.mmaInt8Int8 (h : Head) (t : Tail) : HeadFields.Statement (.mmaInt8Int8 h t) :=
  headFields_of rfl rfl (by decide)
theorem HeadFields.mmaMxe4m3Mxe4m3 (h : Head) (t : Tail) : HeadFields.Statement (.mmaMxe4m3Mxe4m3 h t) :=
  headFields_of rfl rfl (by decide)
theorem HeadFields.mmaMxe2m1Mxe2m1 (h : Head) (t : Tail) : HeadFields.Statement (.mmaMxe2m1Mxe2m1 h t) :=
  headFields_of rfl rfl (by decide)
theorem HeadFields.mmaMxe2m3Mxe2m3 (h : Head) (t : Tail) : HeadFields.Statement (.mmaMxe2m3Mxe2m3 h t) :=
  headFields_of rfl rfl (by decide)
theorem HeadFields.mmaMxe2m1Mxe4m3 (h : Head) (t : Tail) : HeadFields.Statement (.mmaMxe2m1Mxe4m3 h t) :=
  headFields_of rfl rfl (by decide)
theorem HeadFields.mmaMxe4m3Mxe2m1 (h : Head) (t : Tail) : HeadFields.Statement (.mmaMxe4m3Mxe2m1 h t) :=
  headFields_of rfl rfl (by decide)
theorem HeadFields.mmaMxe5m2Mxe5m2 (h : Head) (t : Tail) : HeadFields.Statement (.mmaMxe5m2Mxe5m2 h t) :=
  headFields_of rfl rfl (by decide)
theorem HeadFields.mmaBf16E4m3 (h : Head) (t : Tail) : HeadFields.Statement (.mmaBf16E4m3 h t) :=
  headFields_of rfl rfl (by decide)
theorem HeadFields.mmaBf16Lg6 (h : Head) (t : Tail) : HeadFields.Statement (.mmaBf16Lg6 h t) :=
  headFields_of rfl rfl (by decide)
theorem HeadFields.ld (h : Head) (t : Tail) : HeadFields.Statement (.ld h t) :=
  headFields_of rfl rfl (by decide)
theorem HeadFields.st (h : Head) (t : Tail) : HeadFields.Statement (.st h t) :=
  headFields_of rfl rfl (by decide)
theorem HeadFields.ldp (h : Head) (t : Tail) : HeadFields.Statement (.ldp h t) :=
  headFields_of rfl rfl (by decide)
theorem HeadFields.stp (h : Head) (t : Tail) : HeadFields.Statement (.stp h t) :=
  headFields_of rfl rfl (by decide)
theorem HeadFields.ldx (h : Head) (t : Tail) : HeadFields.Statement (.ldx h t) :=
  headFields_of rfl rfl (by decide)
theorem HeadFields.ldxTag (h : Head) (t : Tail) : HeadFields.Statement (.ldxTag h t) :=
  headFields_of rfl rfl (by decide)
theorem HeadFields.stx (h : Head) (t : Tail) : HeadFields.Statement (.stx h t) :=
  headFields_of rfl rfl (by decide)
theorem HeadFields.stxTag (h : Head) (t : Tail) : HeadFields.Statement (.stxTag h t) :=
  headFields_of rfl rfl (by decide)
theorem HeadFields.aadd (h : Head) (t : Tail) : HeadFields.Statement (.aadd h t) :=
  headFields_of rfl rfl (by decide)
theorem HeadFields.aand (h : Head) (t : Tail) : HeadFields.Statement (.aand h t) :=
  headFields_of rfl rfl (by decide)
theorem HeadFields.aor (h : Head) (t : Tail) : HeadFields.Statement (.aor h t) :=
  headFields_of rfl rfl (by decide)
theorem HeadFields.axor (h : Head) (t : Tail) : HeadFields.Statement (.axor h t) :=
  headFields_of rfl rfl (by decide)
theorem HeadFields.amin (h : Head) (t : Tail) : HeadFields.Statement (.amin h t) :=
  headFields_of rfl rfl (by decide)
theorem HeadFields.amax (h : Head) (t : Tail) : HeadFields.Statement (.amax h t) :=
  headFields_of rfl rfl (by decide)
theorem HeadFields.aswap (h : Head) (t : Tail) : HeadFields.Statement (.aswap h t) :=
  headFields_of rfl rfl (by decide)
theorem HeadFields.acas (h : Head) (t : Tail) : HeadFields.Statement (.acas h t) :=
  headFields_of rfl rfl (by decide)
theorem HeadFields.act (h : Head) (t : Tail) : HeadFields.Statement (.act h t) :=
  headFields_of rfl rfl (by decide)
theorem HeadFields.rld (h : Head) (t : Tail) : HeadFields.Statement (.rld h t) :=
  headFields_of rfl rfl (by decide)
theorem HeadFields.rst (h : Head) (t : Tail) : HeadFields.Statement (.rst h t) :=
  headFields_of rfl rfl (by decide)
theorem HeadFields.rred (h : Head) (t : Tail) : HeadFields.Statement (.rred h t) :=
  headFields_of rfl rfl (by decide)
theorem HeadFields.rredRk (h : Head) (t : Tail) : HeadFields.Statement (.rredRk h t) :=
  headFields_of rfl rfl (by decide)
theorem HeadFields.rcas (h : Head) (t : Tail) : HeadFields.Statement (.rcas h t) :=
  headFields_of rfl rfl (by decide)
theorem HeadFields.rsax (h : Head) (t : Tail) : HeadFields.Statement (.rsax h t) :=
  headFields_of rfl rfl (by decide)
theorem HeadFields.fence (h : Head) (t : Tail) : HeadFields.Statement (.fence h t) :=
  headFields_of rfl rfl (by decide)
theorem HeadFields.fenceXp (h : Head) (t : Tail) : HeadFields.Statement (.fenceXp h t) :=
  headFields_of rfl rfl (by decide)
theorem HeadFields.cswap (h : Head) (t : Tail) : HeadFields.Statement (.cswap h t) :=
  headFields_of rfl rfl (by decide)
theorem HeadFields.gset (h : Head) (t : Tail) : HeadFields.Statement (.gset h t) :=
  headFields_of rfl rfl (by decide)
theorem HeadFields.gclr (h : Head) (t : Tail) : HeadFields.Statement (.gclr h t) :=
  headFields_of rfl rfl (by decide)
theorem HeadFields.rfill (h : Head) (t : Tail) : HeadFields.Statement (.rfill h t) :=
  headFields_of rfl rfl (by decide)
theorem HeadFields.rldb (h : Head) (t : Tail) : HeadFields.Statement (.rldb h t) :=
  headFields_of rfl rfl (by decide)
theorem HeadFields.send (h : Head) (t : Tail) : HeadFields.Statement (.send h t) :=
  headFields_of rfl rfl (by decide)
theorem HeadFields.yield (h : Head) (t : Tail) : HeadFields.Statement (.yield h t) :=
  headFields_of rfl rfl (by decide)
theorem HeadFields.yieldImm (h : Head) (t : Tail) : HeadFields.Statement (.yieldImm h t) :=
  headFields_of rfl rfl (by decide)
theorem HeadFields.cmask (h : Head) (t : Tail) : HeadFields.Statement (.cmask h t) :=
  headFields_of rfl rfl (by decide)
theorem HeadFields.cunmask (h : Head) (t : Tail) : HeadFields.Statement (.cunmask h t) :=
  headFields_of rfl rfl (by decide)
theorem HeadFields.fork (h : Head) (t : Tail) : HeadFields.Statement (.fork h t) :=
  headFields_of rfl rfl (by decide)
theorem HeadFields.join (h : Head) (t : Tail) : HeadFields.Statement (.join h t) :=
  headFields_of rfl rfl (by decide)
theorem HeadFields.post (h : Head) (t : Tail) : HeadFields.Statement (.post h t) :=
  headFields_of rfl rfl (by decide)
theorem HeadFields.decz (h : Head) (t : Tail) : HeadFields.Statement (.decz h t) :=
  headFields_of rfl rfl (by decide)
theorem HeadFields.rngput (h : Head) (t : Tail) : HeadFields.Statement (.rngput h t) :=
  headFields_of rfl rfl (by decide)
theorem HeadFields.rngget (h : Head) (t : Tail) : HeadFields.Statement (.rngget h t) :=
  headFields_of rfl rfl (by decide)
theorem HeadFields.osub (h : Head) (t : Tail) : HeadFields.Statement (.osub h t) :=
  headFields_of rfl rfl (by decide)
theorem HeadFields.srset (h : Head) (t : Tail) : HeadFields.Statement (.srset h t) :=
  headFields_of rfl rfl (by decide)
theorem HeadFields.srctlQuery (h : Head) (t : Tail) : HeadFields.Statement (.srctlQuery h t) :=
  headFields_of rfl rfl (by decide)
theorem HeadFields.srctlStop (h : Head) (t : Tail) : HeadFields.Statement (.srctlStop h t) :=
  headFields_of rfl rfl (by decide)
theorem HeadFields.srctlRewind (h : Head) (t : Tail) : HeadFields.Statement (.srctlRewind h t) :=
  headFields_of rfl rfl (by decide)
theorem HeadFields.tbinit (h : Head) (t : Tail) : HeadFields.Statement (.tbinit h t) :=
  headFields_of rfl rfl (by decide)
theorem HeadFields.tbarr (h : Head) (t : Tail) : HeadFields.Statement (.tbarr h t) :=
  headFields_of rfl rfl (by decide)
theorem HeadFields.tbexp (h : Head) (t : Tail) : HeadFields.Statement (.tbexp h t) :=
  headFields_of rfl rfl (by decide)
theorem HeadFields.tbwait (h : Head) (t : Tail) : HeadFields.Statement (.tbwait h t) :=
  headFields_of rfl rfl (by decide)
theorem HeadFields.tbwaitB (h : Head) (t : Tail) : HeadFields.Statement (.tbwaitB h t) :=
  headFields_of rfl rfl (by decide)
theorem HeadFields.tbtest (h : Head) (t : Tail) : HeadFields.Statement (.tbtest h t) :=
  headFields_of rfl rfl (by decide)
theorem HeadFields.lfind (h : Head) (t : Tail) : HeadFields.Statement (.lfind h t) :=
  headFields_of rfl rfl (by decide)
theorem HeadFields.lput (h : Head) (t : Tail) : HeadFields.Statement (.lput h t) :=
  headFields_of rfl rfl (by decide)
theorem HeadFields.lrel (h : Head) (t : Tail) : HeadFields.Statement (.lrel h t) :=
  headFields_of rfl rfl (by decide)
theorem HeadFields.lstatRead (h : Head) (t : Tail) : HeadFields.Statement (.lstatRead h t) :=
  headFields_of rfl rfl (by decide)
theorem HeadFields.lstatConfig (h : Head) (t : Tail) : HeadFields.Statement (.lstatConfig h t) :=
  headFields_of rfl rfl (by decide)
theorem HeadFields.lstatClose (h : Head) (t : Tail) : HeadFields.Statement (.lstatClose h t) :=
  headFields_of rfl rfl (by decide)
theorem HeadFields.launch (h : Head) (t : Tail) : HeadFields.Statement (.launch h t) :=
  headFields_of rfl rfl (by decide)
theorem HeadFields.dispatch : HeadFields.Statement .dispatch := headFields_none rfl
theorem HeadFields.stageWaitExpire : HeadFields.Statement .stageWaitExpire := headFields_none rfl
theorem HeadFields.stealRequest : HeadFields.Statement .stealRequest := headFields_none rfl
theorem HeadFields.stealServe : HeadFields.Statement .stealServe := headFields_none rfl
theorem HeadFields.stealReply : HeadFields.Statement .stealReply := headFields_none rfl
theorem HeadFields.releaseAccept : HeadFields.Statement .releaseAccept := headFields_none rfl
theorem HeadFields.spanHashCompare : HeadFields.Statement .spanHashCompare := headFields_none rfl
theorem HeadFields.spanTwinTimeout : HeadFields.Statement .spanTwinTimeout := headFields_none rfl
theorem HeadFields.continuationEnqueue : HeadFields.Statement .continuationEnqueue := headFields_none rfl
theorem HeadFields.gangAdmit : HeadFields.Statement .gangAdmit := headFields_none rfl
theorem HeadFields.taskJoinSubtract : HeadFields.Statement .taskJoinSubtract := headFields_none rfl
theorem HeadFields.stackGrowService : HeadFields.Statement .stackGrowService := headFields_none rfl
theorem HeadFields.preemption : HeadFields.Statement .preemption := headFields_none rfl
theorem HeadFields.contextSave : HeadFields.Statement .contextSave := headFields_none rfl
theorem HeadFields.contextRestore : HeadFields.Statement .contextRestore := headFields_none rfl
theorem HeadFields.contextKill : HeadFields.Statement .contextKill := headFields_none rfl
theorem HeadFields.blockingTimeout : HeadFields.Statement .blockingTimeout := headFields_none rfl
theorem HeadFields.packetResendTimeout : HeadFields.Statement .packetResendTimeout := headFields_none rfl
theorem HeadFields.storePerform : HeadFields.Statement .storePerform := headFields_none rfl
theorem HeadFields.localAtomicPerform : HeadFields.Statement .localAtomicPerform := headFields_none rfl
theorem HeadFields.guardBitsPerform : HeadFields.Statement .guardBitsPerform := headFields_none rfl
theorem HeadFields.writeMergeDrain : HeadFields.Statement .writeMergeDrain := headFields_none rfl
theorem HeadFields.messageArrival : HeadFields.Statement .messageArrival := headFields_none rfl
theorem HeadFields.joinCountAdd : HeadFields.Statement .joinCountAdd := headFields_none rfl
theorem HeadFields.dequePush : HeadFields.Statement .dequePush := headFields_none rfl
theorem HeadFields.deczPerform : HeadFields.Statement .deczPerform := headFields_none rfl
theorem HeadFields.readyRingConvert : HeadFields.Statement .readyRingConvert := headFields_none rfl
theorem HeadFields.ringPutPerform : HeadFields.Statement .ringPutPerform := headFields_none rfl
theorem HeadFields.ringPutRetry : HeadFields.Statement .ringPutRetry := headFields_none rfl
theorem HeadFields.ringPutAbandon : HeadFields.Statement .ringPutAbandon := headFields_none rfl
theorem HeadFields.launchQueueWrite : HeadFields.Statement .launchQueueWrite := headFields_none rfl
theorem HeadFields.launchWriteAbandon : HeadFields.Statement .launchWriteAbandon := headFields_none rfl
theorem HeadFields.launchRecordTake : HeadFields.Statement .launchRecordTake := headFields_none rfl
theorem HeadFields.keyedLookupResult : HeadFields.Statement .keyedLookupResult := headFields_none rfl
theorem HeadFields.launchComplete : HeadFields.Statement .launchComplete := headFields_none rfl
theorem HeadFields.pacerRead : HeadFields.Statement .pacerRead := headFields_none rfl
theorem HeadFields.osubPerform : HeadFields.Statement .osubPerform := headFields_none rfl
theorem HeadFields.osubAbandon : HeadFields.Statement .osubAbandon := headFields_none rfl
theorem HeadFields.outriderAccept : HeadFields.Statement .outriderAccept := headFields_none rfl
theorem HeadFields.outriderCmdStart : HeadFields.Statement .outriderCmdStart := headFields_none rfl
theorem HeadFields.copyTransfer : HeadFields.Statement .copyTransfer := headFields_none rfl
theorem HeadFields.copyComplete : HeadFields.Statement .copyComplete := headFields_none rfl
theorem HeadFields.streamSlotFill : HeadFields.Statement .streamSlotFill := headFields_none rfl
theorem HeadFields.listStart : HeadFields.Statement .listStart := headFields_none rfl
theorem HeadFields.listBranch : HeadFields.Statement .listBranch := headFields_none rfl
theorem HeadFields.listEnd : HeadFields.Statement .listEnd := headFields_none rfl
theorem HeadFields.stalledSlot : HeadFields.Statement .stalledSlot := headFields_none rfl
theorem HeadFields.agentRld : HeadFields.Statement .agentRld := headFields_none rfl
theorem HeadFields.agentRst : HeadFields.Statement .agentRst := headFields_none rfl
theorem HeadFields.agentRred : HeadFields.Statement .agentRred := headFields_none rfl
theorem HeadFields.agentRredRk : HeadFields.Statement .agentRredRk := headFields_none rfl
theorem HeadFields.rredRkExpire : HeadFields.Statement .rredRkExpire := headFields_none rfl
theorem HeadFields.agentRcas : HeadFields.Statement .agentRcas := headFields_none rfl
theorem HeadFields.agentRsax : HeadFields.Statement .agentRsax := headFields_none rfl
theorem HeadFields.agentRfill : HeadFields.Statement .agentRfill := headFields_none rfl
theorem HeadFields.agentRldb : HeadFields.Statement .agentRldb := headFields_none rfl
theorem HeadFields.agentRemapResume : HeadFields.Statement .agentRemapResume := headFields_none rfl
theorem HeadFields.replyArrival : HeadFields.Statement .replyArrival := headFields_none rfl
theorem HeadFields.barrierArrival : HeadFields.Statement .barrierArrival := headFields_none rfl
theorem HeadFields.sectorCompletion : HeadFields.Statement .sectorCompletion := headFields_none rfl
theorem HeadFields.tbinitPerform : HeadFields.Statement .tbinitPerform := headFields_none rfl
theorem HeadFields.tbexpPerform : HeadFields.Statement .tbexpPerform := headFields_none rfl
theorem HeadFields.matrixCmdArrival : HeadFields.Statement .matrixCmdArrival := headFields_none rfl
theorem HeadFields.matrixCmdTake : HeadFields.Statement .matrixCmdTake := headFields_none rfl
theorem HeadFields.matrixSwap : HeadFields.Statement .matrixSwap := headFields_none rfl
theorem HeadFields.tcfgPerform : HeadFields.Statement .tcfgPerform := headFields_none rfl
theorem HeadFields.tldStep : HeadFields.Statement .tldStep := headFields_none rfl
theorem HeadFields.tstStep : HeadFields.Statement .tstStep := headFields_none rfl
theorem HeadFields.tzeroPerform : HeadFields.Statement .tzeroPerform := headFields_none rfl
theorem HeadFields.aclrPerform : HeadFields.Statement .aclrPerform := headFields_none rfl
theorem HeadFields.tdrainStep : HeadFields.Statement .tdrainStep := headFields_none rfl
theorem HeadFields.tchkPerform : HeadFields.Statement .tchkPerform := headFields_none rfl
theorem HeadFields.mmaStep : HeadFields.Statement .mmaStep := headFields_none rfl
theorem HeadFields.mmagStep : HeadFields.Statement .mmagStep := headFields_none rfl
theorem HeadFields.ringSlotCopy : HeadFields.Statement .ringSlotCopy := headFields_none rfl
theorem HeadFields.tringInstall : HeadFields.Statement .tringInstall := headFields_none rfl
theorem HeadFields.castoffTile : HeadFields.Statement .castoffTile := headFields_none rfl
theorem HeadFields.carriageStepResume : HeadFields.Statement .carriageStepResume := headFields_none rfl
theorem HeadFields.cableSwapStart : HeadFields.Statement .cableSwapStart := headFields_none rfl
theorem HeadFields.cableSwapComplete : HeadFields.Statement .cableSwapComplete := headFields_none rfl
theorem HeadFields.refresh : HeadFields.Statement .refresh := headFields_none rfl
theorem HeadFields.thermalSample : HeadFields.Statement .thermalSample := headFields_none rfl
theorem HeadFields.scrubRead : HeadFields.Statement .scrubRead := headFields_none rfl
theorem HeadFields.rowRepairComplete : HeadFields.Statement .rowRepairComplete := headFields_none rfl
theorem HeadFields.vaultBusParityError : HeadFields.Statement .vaultBusParityError := headFields_none rfl
theorem HeadFields.tileRetire : HeadFields.Statement .tileRetire := headFields_none rfl
theorem HeadFields.tlbWalk : HeadFields.Statement .tlbWalk := headFields_none rfl
theorem HeadFields.packetInject : HeadFields.Statement .packetInject := headFields_none rfl
theorem HeadFields.flitAdvance : HeadFields.Statement .flitAdvance := headFields_none rfl
theorem HeadFields.escapeEnter : HeadFields.Statement .escapeEnter := headFields_none rfl
theorem HeadFields.ejectTimeout : HeadFields.Statement .ejectTimeout := headFields_none rfl
theorem HeadFields.escapeSlotReserve : HeadFields.Statement .escapeSlotReserve := headFields_none rfl
theorem HeadFields.escapeArrival : HeadFields.Statement .escapeArrival := headFields_none rfl
theorem HeadFields.closForward : HeadFields.Statement .closForward := headFields_none rfl
theorem HeadFields.closEvict : HeadFields.Statement .closEvict := headFields_none rfl
theorem HeadFields.packetArrival : HeadFields.Statement .packetArrival := headFields_none rfl
theorem HeadFields.ackArrival : HeadFields.Statement .ackArrival := headFields_none rfl
theorem HeadFields.nackArrival : HeadFields.Statement .nackArrival := headFields_none rfl
theorem HeadFields.lifelineEntryRequest : HeadFields.Statement .lifelineEntryRequest := headFields_none rfl
theorem HeadFields.lfindPerform : HeadFields.Statement .lfindPerform := headFields_none rfl
theorem HeadFields.lputPerform : HeadFields.Statement .lputPerform := headFields_none rfl
theorem HeadFields.lrelPerform : HeadFields.Statement .lrelPerform := headFields_none rfl
theorem HeadFields.lstatReadPerform : HeadFields.Statement .lstatReadPerform := headFields_none rfl
theorem HeadFields.lstatConfigPerform : HeadFields.Statement .lstatConfigPerform := headFields_none rfl
theorem HeadFields.lstatClosePerform : HeadFields.Statement .lstatClosePerform := headFields_none rfl
theorem HeadFields.lifelineReply : HeadFields.Statement .lifelineReply := headFields_none rfl
theorem HeadFields.hdmRead : HeadFields.Statement .hdmRead := headFields_none rfl
theorem HeadFields.hdmWrite : HeadFields.Statement .hdmWrite := headFields_none rfl
theorem HeadFields.peerInboundAccess : HeadFields.Statement .peerInboundAccess := headFields_none rfl
theorem HeadFields.xaoldFlitError : HeadFields.Statement .xaoldFlitError := headFields_none rfl
theorem HeadFields.mailboxRegisterWrite : HeadFields.Statement .mailboxRegisterWrite := headFields_none rfl
theorem HeadFields.readLog : HeadFields.Statement .readLog := headFields_none rfl
theorem HeadFields.readCounters : HeadFields.Statement .readCounters := headFields_none rfl
theorem HeadFields.selectPerf : HeadFields.Statement .selectPerf := headFields_none rfl
theorem HeadFields.setPower : HeadFields.Statement .setPower := headFields_none rfl
theorem HeadFields.quiesceComplete : HeadFields.Statement .quiesceComplete := headFields_none rfl
theorem HeadFields.readThermal : HeadFields.Statement .readThermal := headFields_none rfl
theorem HeadFields.preempt : HeadFields.Statement .preempt := headFields_none rfl
theorem HeadFields.resume : HeadFields.Statement .resume := headFields_none rfl
theorem HeadFields.kill : HeadFields.Statement .kill := headFields_none rfl
theorem HeadFields.setRoute : HeadFields.Statement .setRoute := headFields_none rfl
theorem HeadFields.peerEnable : HeadFields.Statement .peerEnable := headFields_none rfl
theorem HeadFields.attest : HeadFields.Statement .attest := headFields_none rfl
theorem HeadFields.inject : HeadFields.Statement .inject := headFields_none rfl
theorem HeadFields.errorLogPost : HeadFields.Statement .errorLogPost := headFields_none rfl
theorem HeadFields.moduleReset : HeadFields.Statement .moduleReset := headFields_none rfl
theorem HeadFields.hobbleWindow : HeadFields.Statement .hobbleWindow := headFields_none rfl
theorem HeadFields.computeDieOvertemp : HeadFields.Statement .computeDieOvertemp := headFields_none rfl
theorem HeadFields.illegalOpcode (h : Head) (opc : BitVec 8) (tlen : BitVec 2) (d : Bool) (raw : BitVec 48) :
    HeadFields.Statement (.illegalOpcode h opc tlen d raw) := headFields_none rfl
theorem HeadFields.badOpc : HeadFields.Statement .badOpc := headFields_none rfl
theorem HeadFields.ideKm : HeadFields.Statement .ideKm := headFields_none rfl

end Sys2Proof.Laws
end

