-- ==== Sys2Proof/Laws/State.lean ====
section
/-! SUPPORT. The fields of the state, of a context and of a stage after each update: one lemma for
each field and update, so that no proof unfolds a record update. -/

namespace Sys2Proof.Machine

/-! ### The state -/

@[simp] theorem State.setCtx_cycle (s : State) (g : Nat) (c : Ctx) : (s.setCtx g c).cycle = s.cycle := rfl
@[simp] theorem State.setCtx_mem (s : State) (g : Nat) (c : Ctx) : (s.setCtx g c).mem = s.mem := rfl
@[simp] theorem State.setCtx_tiles (s : State) (g : Nat) (c : Ctx) : (s.setCtx g c).tiles = s.tiles := rfl
@[simp] theorem State.setCtx_launches (s : State) (g : Nat) (c : Ctx) : (s.setCtx g c).launches = s.launches := rfl
@[simp] theorem State.setCtx_queues (s : State) (g : Nat) (c : Ctx) : (s.setCtx g c).queues = s.queues := rfl
@[simp] theorem State.setCtx_steals (s : State) (g : Nat) (c : Ctx) : (s.setCtx g c).steals = s.steals := rfl
@[simp] theorem State.setCtx_pkts (s : State) (g : Nat) (c : Ctx) : (s.setCtx g c).pkts = s.pkts := rfl
@[simp] theorem State.setCtx_nextPkt (s : State) (g : Nat) (c : Ctx) : (s.setCtx g c).nextPkt = s.nextPkt := rfl
@[simp] theorem State.setCtx_nextAct (s : State) (g : Nat) (c : Ctx) : (s.setCtx g c).nextAct = s.nextAct := rfl
@[simp] theorem State.setCtx_answers (s : State) (g : Nat) (c : Ctx) : (s.setCtx g c).answers = s.answers := rfl
@[simp] theorem State.setCtx_seqOut (s : State) (g : Nat) (c : Ctx) : (s.setCtx g c).seqOut = s.seqOut := rfl
@[simp] theorem State.setCtx_seqIn (s : State) (g : Nat) (c : Ctx) : (s.setCtx g c).seqIn = s.seqIn := rfl
@[simp] theorem State.setCtx_inbox (s : State) (g : Nat) (c : Ctx) : (s.setCtx g c).inbox = s.inbox := rfl
@[simp] theorem State.setCtx_rings (s : State) (g : Nat) (c : Ctx) : (s.setCtx g c).rings = s.rings := rfl
@[simp] theorem State.setCtx_deadLinks (s : State) (g : Nat) (c : Ctx) : (s.setCtx g c).deadLinks = s.deadLinks := rfl
@[simp] theorem State.setCtx_routes (s : State) (g : Nat) (c : Ctx) : (s.setCtx g c).routes = s.routes := rfl
@[simp] theorem State.setCtx_tileMap (s : State) (g : Nat) (c : Ctx) : (s.setCtx g c).tileMap = s.tileMap := rfl
@[simp] theorem State.setCtx_pools (s : State) (g : Nat) (c : Ctx) : (s.setCtx g c).pools = s.pools := rfl
@[simp] theorem State.setCtx_nodeAreas (s : State) (g : Nat) (c : Ctx) : (s.setCtx g c).nodeAreas = s.nodeAreas := rfl
@[simp] theorem State.setCtx_life (s : State) (g : Nat) (c : Ctx) : (s.setCtx g c).life = s.life := rfl
@[simp] theorem State.setCtx_mgmt (s : State) (g : Nat) (c : Ctx) : (s.setCtx g c).mgmt = s.mgmt := rfl
@[simp] theorem State.setCtx_booted (s : State) (g : Nat) (c : Ctx) : (s.setCtx g c).booted = s.booted := rfl
@[simp] theorem State.setCtx_agenda (s : State) (g : Nat) (c : Ctx) : (s.setCtx g c).agenda = s.agenda := rfl
@[simp] theorem State.setCtx_cur (s : State) (g : Nat) (c : Ctx) : (s.setCtx g c).cur = s.cur := rfl
@[simp] theorem State.setCtx_ev (s : State) (g : Nat) (c : Ctx) : (s.setCtx g c).ev = s.ev := rfl
@[simp] theorem State.setCtx_after (s : State) (g : Nat) (c : Ctx) : (s.setCtx g c).after = s.after := rfl
@[simp] theorem State.setCtx_fresh (s : State) (g : Nat) (c : Ctx) : (s.setCtx g c).fresh = s.fresh := rfl

@[simp] theorem State.modCtx_cycle (s : State) (g : Nat) (f : Ctx → Ctx) : (s.modCtx g f).cycle = s.cycle := rfl
@[simp] theorem State.modCtx_mem (s : State) (g : Nat) (f : Ctx → Ctx) : (s.modCtx g f).mem = s.mem := rfl
@[simp] theorem State.modCtx_tiles (s : State) (g : Nat) (f : Ctx → Ctx) : (s.modCtx g f).tiles = s.tiles := rfl
@[simp] theorem State.modCtx_launches (s : State) (g : Nat) (f : Ctx → Ctx) : (s.modCtx g f).launches = s.launches := rfl
@[simp] theorem State.modCtx_queues (s : State) (g : Nat) (f : Ctx → Ctx) : (s.modCtx g f).queues = s.queues := rfl
@[simp] theorem State.modCtx_steals (s : State) (g : Nat) (f : Ctx → Ctx) : (s.modCtx g f).steals = s.steals := rfl
@[simp] theorem State.modCtx_pkts (s : State) (g : Nat) (f : Ctx → Ctx) : (s.modCtx g f).pkts = s.pkts := rfl
@[simp] theorem State.modCtx_nextPkt (s : State) (g : Nat) (f : Ctx → Ctx) : (s.modCtx g f).nextPkt = s.nextPkt := rfl
@[simp] theorem State.modCtx_nextAct (s : State) (g : Nat) (f : Ctx → Ctx) : (s.modCtx g f).nextAct = s.nextAct := rfl
@[simp] theorem State.modCtx_answers (s : State) (g : Nat) (f : Ctx → Ctx) : (s.modCtx g f).answers = s.answers := rfl
@[simp] theorem State.modCtx_seqOut (s : State) (g : Nat) (f : Ctx → Ctx) : (s.modCtx g f).seqOut = s.seqOut := rfl
@[simp] theorem State.modCtx_seqIn (s : State) (g : Nat) (f : Ctx → Ctx) : (s.modCtx g f).seqIn = s.seqIn := rfl
@[simp] theorem State.modCtx_inbox (s : State) (g : Nat) (f : Ctx → Ctx) : (s.modCtx g f).inbox = s.inbox := rfl
@[simp] theorem State.modCtx_rings (s : State) (g : Nat) (f : Ctx → Ctx) : (s.modCtx g f).rings = s.rings := rfl
@[simp] theorem State.modCtx_deadLinks (s : State) (g : Nat) (f : Ctx → Ctx) : (s.modCtx g f).deadLinks = s.deadLinks := rfl
@[simp] theorem State.modCtx_routes (s : State) (g : Nat) (f : Ctx → Ctx) : (s.modCtx g f).routes = s.routes := rfl
@[simp] theorem State.modCtx_tileMap (s : State) (g : Nat) (f : Ctx → Ctx) : (s.modCtx g f).tileMap = s.tileMap := rfl
@[simp] theorem State.modCtx_pools (s : State) (g : Nat) (f : Ctx → Ctx) : (s.modCtx g f).pools = s.pools := rfl
@[simp] theorem State.modCtx_nodeAreas (s : State) (g : Nat) (f : Ctx → Ctx) : (s.modCtx g f).nodeAreas = s.nodeAreas := rfl
@[simp] theorem State.modCtx_life (s : State) (g : Nat) (f : Ctx → Ctx) : (s.modCtx g f).life = s.life := rfl
@[simp] theorem State.modCtx_mgmt (s : State) (g : Nat) (f : Ctx → Ctx) : (s.modCtx g f).mgmt = s.mgmt := rfl
@[simp] theorem State.modCtx_booted (s : State) (g : Nat) (f : Ctx → Ctx) : (s.modCtx g f).booted = s.booted := rfl
@[simp] theorem State.modCtx_agenda (s : State) (g : Nat) (f : Ctx → Ctx) : (s.modCtx g f).agenda = s.agenda := rfl
@[simp] theorem State.modCtx_cur (s : State) (g : Nat) (f : Ctx → Ctx) : (s.modCtx g f).cur = s.cur := rfl
@[simp] theorem State.modCtx_ev (s : State) (g : Nat) (f : Ctx → Ctx) : (s.modCtx g f).ev = s.ev := rfl
@[simp] theorem State.modCtx_after (s : State) (g : Nat) (f : Ctx → Ctx) : (s.modCtx g f).after = s.after := rfl
@[simp] theorem State.modCtx_fresh (s : State) (g : Nat) (f : Ctx → Ctx) : (s.modCtx g f).fresh = s.fresh := rfl

@[simp] theorem State.setTile_cycle (s : State) (t : Nat) (x : Tile) : (s.setTile t x).cycle = s.cycle := rfl
@[simp] theorem State.setTile_mem (s : State) (t : Nat) (x : Tile) : (s.setTile t x).mem = s.mem := rfl
@[simp] theorem State.setTile_ctxs (s : State) (t : Nat) (x : Tile) : (s.setTile t x).ctxs = s.ctxs := rfl
@[simp] theorem State.setTile_launches (s : State) (t : Nat) (x : Tile) : (s.setTile t x).launches = s.launches := rfl
@[simp] theorem State.setTile_queues (s : State) (t : Nat) (x : Tile) : (s.setTile t x).queues = s.queues := rfl
@[simp] theorem State.setTile_steals (s : State) (t : Nat) (x : Tile) : (s.setTile t x).steals = s.steals := rfl
@[simp] theorem State.setTile_pkts (s : State) (t : Nat) (x : Tile) : (s.setTile t x).pkts = s.pkts := rfl
@[simp] theorem State.setTile_nextPkt (s : State) (t : Nat) (x : Tile) : (s.setTile t x).nextPkt = s.nextPkt := rfl
@[simp] theorem State.setTile_nextAct (s : State) (t : Nat) (x : Tile) : (s.setTile t x).nextAct = s.nextAct := rfl
@[simp] theorem State.setTile_answers (s : State) (t : Nat) (x : Tile) : (s.setTile t x).answers = s.answers := rfl
@[simp] theorem State.setTile_seqOut (s : State) (t : Nat) (x : Tile) : (s.setTile t x).seqOut = s.seqOut := rfl
@[simp] theorem State.setTile_seqIn (s : State) (t : Nat) (x : Tile) : (s.setTile t x).seqIn = s.seqIn := rfl
@[simp] theorem State.setTile_inbox (s : State) (t : Nat) (x : Tile) : (s.setTile t x).inbox = s.inbox := rfl
@[simp] theorem State.setTile_rings (s : State) (t : Nat) (x : Tile) : (s.setTile t x).rings = s.rings := rfl
@[simp] theorem State.setTile_deadLinks (s : State) (t : Nat) (x : Tile) : (s.setTile t x).deadLinks = s.deadLinks := rfl
@[simp] theorem State.setTile_routes (s : State) (t : Nat) (x : Tile) : (s.setTile t x).routes = s.routes := rfl
@[simp] theorem State.setTile_tileMap (s : State) (t : Nat) (x : Tile) : (s.setTile t x).tileMap = s.tileMap := rfl
@[simp] theorem State.setTile_pools (s : State) (t : Nat) (x : Tile) : (s.setTile t x).pools = s.pools := rfl
@[simp] theorem State.setTile_nodeAreas (s : State) (t : Nat) (x : Tile) : (s.setTile t x).nodeAreas = s.nodeAreas := rfl
@[simp] theorem State.setTile_life (s : State) (t : Nat) (x : Tile) : (s.setTile t x).life = s.life := rfl
@[simp] theorem State.setTile_mgmt (s : State) (t : Nat) (x : Tile) : (s.setTile t x).mgmt = s.mgmt := rfl
@[simp] theorem State.setTile_booted (s : State) (t : Nat) (x : Tile) : (s.setTile t x).booted = s.booted := rfl
@[simp] theorem State.setTile_agenda (s : State) (t : Nat) (x : Tile) : (s.setTile t x).agenda = s.agenda := rfl
@[simp] theorem State.setTile_cur (s : State) (t : Nat) (x : Tile) : (s.setTile t x).cur = s.cur := rfl
@[simp] theorem State.setTile_ev (s : State) (t : Nat) (x : Tile) : (s.setTile t x).ev = s.ev := rfl
@[simp] theorem State.setTile_after (s : State) (t : Nat) (x : Tile) : (s.setTile t x).after = s.after := rfl
@[simp] theorem State.setTile_fresh (s : State) (t : Nat) (x : Tile) : (s.setTile t x).fresh = s.fresh := rfl

@[simp] theorem State.modTile_cycle (s : State) (t : Nat) (f : Tile → Tile) : (s.modTile t f).cycle = s.cycle := rfl
@[simp] theorem State.modTile_mem (s : State) (t : Nat) (f : Tile → Tile) : (s.modTile t f).mem = s.mem := rfl
@[simp] theorem State.modTile_ctxs (s : State) (t : Nat) (f : Tile → Tile) : (s.modTile t f).ctxs = s.ctxs := rfl
@[simp] theorem State.modTile_launches (s : State) (t : Nat) (f : Tile → Tile) : (s.modTile t f).launches = s.launches := rfl
@[simp] theorem State.modTile_queues (s : State) (t : Nat) (f : Tile → Tile) : (s.modTile t f).queues = s.queues := rfl
@[simp] theorem State.modTile_steals (s : State) (t : Nat) (f : Tile → Tile) : (s.modTile t f).steals = s.steals := rfl
@[simp] theorem State.modTile_pkts (s : State) (t : Nat) (f : Tile → Tile) : (s.modTile t f).pkts = s.pkts := rfl
@[simp] theorem State.modTile_nextPkt (s : State) (t : Nat) (f : Tile → Tile) : (s.modTile t f).nextPkt = s.nextPkt := rfl
@[simp] theorem State.modTile_nextAct (s : State) (t : Nat) (f : Tile → Tile) : (s.modTile t f).nextAct = s.nextAct := rfl
@[simp] theorem State.modTile_answers (s : State) (t : Nat) (f : Tile → Tile) : (s.modTile t f).answers = s.answers := rfl
@[simp] theorem State.modTile_seqOut (s : State) (t : Nat) (f : Tile → Tile) : (s.modTile t f).seqOut = s.seqOut := rfl
@[simp] theorem State.modTile_seqIn (s : State) (t : Nat) (f : Tile → Tile) : (s.modTile t f).seqIn = s.seqIn := rfl
@[simp] theorem State.modTile_inbox (s : State) (t : Nat) (f : Tile → Tile) : (s.modTile t f).inbox = s.inbox := rfl
@[simp] theorem State.modTile_rings (s : State) (t : Nat) (f : Tile → Tile) : (s.modTile t f).rings = s.rings := rfl
@[simp] theorem State.modTile_deadLinks (s : State) (t : Nat) (f : Tile → Tile) : (s.modTile t f).deadLinks = s.deadLinks := rfl
@[simp] theorem State.modTile_routes (s : State) (t : Nat) (f : Tile → Tile) : (s.modTile t f).routes = s.routes := rfl
@[simp] theorem State.modTile_tileMap (s : State) (t : Nat) (f : Tile → Tile) : (s.modTile t f).tileMap = s.tileMap := rfl
@[simp] theorem State.modTile_pools (s : State) (t : Nat) (f : Tile → Tile) : (s.modTile t f).pools = s.pools := rfl
@[simp] theorem State.modTile_nodeAreas (s : State) (t : Nat) (f : Tile → Tile) : (s.modTile t f).nodeAreas = s.nodeAreas := rfl
@[simp] theorem State.modTile_life (s : State) (t : Nat) (f : Tile → Tile) : (s.modTile t f).life = s.life := rfl
@[simp] theorem State.modTile_mgmt (s : State) (t : Nat) (f : Tile → Tile) : (s.modTile t f).mgmt = s.mgmt := rfl
@[simp] theorem State.modTile_booted (s : State) (t : Nat) (f : Tile → Tile) : (s.modTile t f).booted = s.booted := rfl
@[simp] theorem State.modTile_agenda (s : State) (t : Nat) (f : Tile → Tile) : (s.modTile t f).agenda = s.agenda := rfl
@[simp] theorem State.modTile_cur (s : State) (t : Nat) (f : Tile → Tile) : (s.modTile t f).cur = s.cur := rfl
@[simp] theorem State.modTile_ev (s : State) (t : Nat) (f : Tile → Tile) : (s.modTile t f).ev = s.ev := rfl
@[simp] theorem State.modTile_after (s : State) (t : Nat) (f : Tile → Tile) : (s.modTile t f).after = s.after := rfl
@[simp] theorem State.modTile_fresh (s : State) (t : Nat) (f : Tile → Tile) : (s.modTile t f).fresh = s.fresh := rfl

@[simp] theorem State.setLaunch_cycle (s : State) (l : Nat) (x : Launch) : (s.setLaunch l x).cycle = s.cycle := rfl
@[simp] theorem State.setLaunch_mem (s : State) (l : Nat) (x : Launch) : (s.setLaunch l x).mem = s.mem := rfl
@[simp] theorem State.setLaunch_ctxs (s : State) (l : Nat) (x : Launch) : (s.setLaunch l x).ctxs = s.ctxs := rfl
@[simp] theorem State.setLaunch_tiles (s : State) (l : Nat) (x : Launch) : (s.setLaunch l x).tiles = s.tiles := rfl
@[simp] theorem State.setLaunch_queues (s : State) (l : Nat) (x : Launch) : (s.setLaunch l x).queues = s.queues := rfl
@[simp] theorem State.setLaunch_steals (s : State) (l : Nat) (x : Launch) : (s.setLaunch l x).steals = s.steals := rfl
@[simp] theorem State.setLaunch_pkts (s : State) (l : Nat) (x : Launch) : (s.setLaunch l x).pkts = s.pkts := rfl
@[simp] theorem State.setLaunch_nextPkt (s : State) (l : Nat) (x : Launch) : (s.setLaunch l x).nextPkt = s.nextPkt := rfl
@[simp] theorem State.setLaunch_nextAct (s : State) (l : Nat) (x : Launch) : (s.setLaunch l x).nextAct = s.nextAct := rfl
@[simp] theorem State.setLaunch_answers (s : State) (l : Nat) (x : Launch) : (s.setLaunch l x).answers = s.answers := rfl
@[simp] theorem State.setLaunch_seqOut (s : State) (l : Nat) (x : Launch) : (s.setLaunch l x).seqOut = s.seqOut := rfl
@[simp] theorem State.setLaunch_seqIn (s : State) (l : Nat) (x : Launch) : (s.setLaunch l x).seqIn = s.seqIn := rfl
@[simp] theorem State.setLaunch_inbox (s : State) (l : Nat) (x : Launch) : (s.setLaunch l x).inbox = s.inbox := rfl
@[simp] theorem State.setLaunch_rings (s : State) (l : Nat) (x : Launch) : (s.setLaunch l x).rings = s.rings := rfl
@[simp] theorem State.setLaunch_deadLinks (s : State) (l : Nat) (x : Launch) : (s.setLaunch l x).deadLinks = s.deadLinks := rfl
@[simp] theorem State.setLaunch_routes (s : State) (l : Nat) (x : Launch) : (s.setLaunch l x).routes = s.routes := rfl
@[simp] theorem State.setLaunch_tileMap (s : State) (l : Nat) (x : Launch) : (s.setLaunch l x).tileMap = s.tileMap := rfl
@[simp] theorem State.setLaunch_pools (s : State) (l : Nat) (x : Launch) : (s.setLaunch l x).pools = s.pools := rfl
@[simp] theorem State.setLaunch_nodeAreas (s : State) (l : Nat) (x : Launch) : (s.setLaunch l x).nodeAreas = s.nodeAreas := rfl
@[simp] theorem State.setLaunch_life (s : State) (l : Nat) (x : Launch) : (s.setLaunch l x).life = s.life := rfl
@[simp] theorem State.setLaunch_mgmt (s : State) (l : Nat) (x : Launch) : (s.setLaunch l x).mgmt = s.mgmt := rfl
@[simp] theorem State.setLaunch_booted (s : State) (l : Nat) (x : Launch) : (s.setLaunch l x).booted = s.booted := rfl
@[simp] theorem State.setLaunch_agenda (s : State) (l : Nat) (x : Launch) : (s.setLaunch l x).agenda = s.agenda := rfl
@[simp] theorem State.setLaunch_cur (s : State) (l : Nat) (x : Launch) : (s.setLaunch l x).cur = s.cur := rfl
@[simp] theorem State.setLaunch_ev (s : State) (l : Nat) (x : Launch) : (s.setLaunch l x).ev = s.ev := rfl
@[simp] theorem State.setLaunch_after (s : State) (l : Nat) (x : Launch) : (s.setLaunch l x).after = s.after := rfl
@[simp] theorem State.setLaunch_fresh (s : State) (l : Nat) (x : Launch) : (s.setLaunch l x).fresh = s.fresh := rfl

@[simp] theorem State.setPkt_cycle (s : State) (i : Nat) (p : Packet) : (s.setPkt i p).cycle = s.cycle := rfl
@[simp] theorem State.setPkt_mem (s : State) (i : Nat) (p : Packet) : (s.setPkt i p).mem = s.mem := rfl
@[simp] theorem State.setPkt_ctxs (s : State) (i : Nat) (p : Packet) : (s.setPkt i p).ctxs = s.ctxs := rfl
@[simp] theorem State.setPkt_tiles (s : State) (i : Nat) (p : Packet) : (s.setPkt i p).tiles = s.tiles := rfl
@[simp] theorem State.setPkt_launches (s : State) (i : Nat) (p : Packet) : (s.setPkt i p).launches = s.launches := rfl
@[simp] theorem State.setPkt_queues (s : State) (i : Nat) (p : Packet) : (s.setPkt i p).queues = s.queues := rfl
@[simp] theorem State.setPkt_steals (s : State) (i : Nat) (p : Packet) : (s.setPkt i p).steals = s.steals := rfl
@[simp] theorem State.setPkt_nextPkt (s : State) (i : Nat) (p : Packet) : (s.setPkt i p).nextPkt = s.nextPkt := rfl
@[simp] theorem State.setPkt_nextAct (s : State) (i : Nat) (p : Packet) : (s.setPkt i p).nextAct = s.nextAct := rfl
@[simp] theorem State.setPkt_answers (s : State) (i : Nat) (p : Packet) : (s.setPkt i p).answers = s.answers := rfl
@[simp] theorem State.setPkt_seqOut (s : State) (i : Nat) (p : Packet) : (s.setPkt i p).seqOut = s.seqOut := rfl
@[simp] theorem State.setPkt_seqIn (s : State) (i : Nat) (p : Packet) : (s.setPkt i p).seqIn = s.seqIn := rfl
@[simp] theorem State.setPkt_inbox (s : State) (i : Nat) (p : Packet) : (s.setPkt i p).inbox = s.inbox := rfl
@[simp] theorem State.setPkt_rings (s : State) (i : Nat) (p : Packet) : (s.setPkt i p).rings = s.rings := rfl
@[simp] theorem State.setPkt_deadLinks (s : State) (i : Nat) (p : Packet) : (s.setPkt i p).deadLinks = s.deadLinks := rfl
@[simp] theorem State.setPkt_routes (s : State) (i : Nat) (p : Packet) : (s.setPkt i p).routes = s.routes := rfl
@[simp] theorem State.setPkt_tileMap (s : State) (i : Nat) (p : Packet) : (s.setPkt i p).tileMap = s.tileMap := rfl
@[simp] theorem State.setPkt_pools (s : State) (i : Nat) (p : Packet) : (s.setPkt i p).pools = s.pools := rfl
@[simp] theorem State.setPkt_nodeAreas (s : State) (i : Nat) (p : Packet) : (s.setPkt i p).nodeAreas = s.nodeAreas := rfl
@[simp] theorem State.setPkt_life (s : State) (i : Nat) (p : Packet) : (s.setPkt i p).life = s.life := rfl
@[simp] theorem State.setPkt_mgmt (s : State) (i : Nat) (p : Packet) : (s.setPkt i p).mgmt = s.mgmt := rfl
@[simp] theorem State.setPkt_booted (s : State) (i : Nat) (p : Packet) : (s.setPkt i p).booted = s.booted := rfl
@[simp] theorem State.setPkt_agenda (s : State) (i : Nat) (p : Packet) : (s.setPkt i p).agenda = s.agenda := rfl
@[simp] theorem State.setPkt_cur (s : State) (i : Nat) (p : Packet) : (s.setPkt i p).cur = s.cur := rfl
@[simp] theorem State.setPkt_ev (s : State) (i : Nat) (p : Packet) : (s.setPkt i p).ev = s.ev := rfl
@[simp] theorem State.setPkt_after (s : State) (i : Nat) (p : Packet) : (s.setPkt i p).after = s.after := rfl
@[simp] theorem State.setPkt_fresh (s : State) (i : Nat) (p : Packet) : (s.setPkt i p).fresh = s.fresh := rfl

@[simp] theorem State.modRing_cycle (s : State) (cl : Nat) (cw : Bool) (f : Ring → Ring) : (s.modRing cl cw f).cycle = s.cycle := rfl
@[simp] theorem State.modRing_mem (s : State) (cl : Nat) (cw : Bool) (f : Ring → Ring) : (s.modRing cl cw f).mem = s.mem := rfl
@[simp] theorem State.modRing_ctxs (s : State) (cl : Nat) (cw : Bool) (f : Ring → Ring) : (s.modRing cl cw f).ctxs = s.ctxs := rfl
@[simp] theorem State.modRing_tiles (s : State) (cl : Nat) (cw : Bool) (f : Ring → Ring) : (s.modRing cl cw f).tiles = s.tiles := rfl
@[simp] theorem State.modRing_launches (s : State) (cl : Nat) (cw : Bool) (f : Ring → Ring) : (s.modRing cl cw f).launches = s.launches := rfl
@[simp] theorem State.modRing_queues (s : State) (cl : Nat) (cw : Bool) (f : Ring → Ring) : (s.modRing cl cw f).queues = s.queues := rfl
@[simp] theorem State.modRing_steals (s : State) (cl : Nat) (cw : Bool) (f : Ring → Ring) : (s.modRing cl cw f).steals = s.steals := rfl
@[simp] theorem State.modRing_pkts (s : State) (cl : Nat) (cw : Bool) (f : Ring → Ring) : (s.modRing cl cw f).pkts = s.pkts := rfl
@[simp] theorem State.modRing_nextPkt (s : State) (cl : Nat) (cw : Bool) (f : Ring → Ring) : (s.modRing cl cw f).nextPkt = s.nextPkt := rfl
@[simp] theorem State.modRing_nextAct (s : State) (cl : Nat) (cw : Bool) (f : Ring → Ring) : (s.modRing cl cw f).nextAct = s.nextAct := rfl
@[simp] theorem State.modRing_answers (s : State) (cl : Nat) (cw : Bool) (f : Ring → Ring) : (s.modRing cl cw f).answers = s.answers := rfl
@[simp] theorem State.modRing_seqOut (s : State) (cl : Nat) (cw : Bool) (f : Ring → Ring) : (s.modRing cl cw f).seqOut = s.seqOut := rfl
@[simp] theorem State.modRing_seqIn (s : State) (cl : Nat) (cw : Bool) (f : Ring → Ring) : (s.modRing cl cw f).seqIn = s.seqIn := rfl
@[simp] theorem State.modRing_inbox (s : State) (cl : Nat) (cw : Bool) (f : Ring → Ring) : (s.modRing cl cw f).inbox = s.inbox := rfl
@[simp] theorem State.modRing_deadLinks (s : State) (cl : Nat) (cw : Bool) (f : Ring → Ring) : (s.modRing cl cw f).deadLinks = s.deadLinks := rfl
@[simp] theorem State.modRing_routes (s : State) (cl : Nat) (cw : Bool) (f : Ring → Ring) : (s.modRing cl cw f).routes = s.routes := rfl
@[simp] theorem State.modRing_tileMap (s : State) (cl : Nat) (cw : Bool) (f : Ring → Ring) : (s.modRing cl cw f).tileMap = s.tileMap := rfl
@[simp] theorem State.modRing_pools (s : State) (cl : Nat) (cw : Bool) (f : Ring → Ring) : (s.modRing cl cw f).pools = s.pools := rfl
@[simp] theorem State.modRing_nodeAreas (s : State) (cl : Nat) (cw : Bool) (f : Ring → Ring) : (s.modRing cl cw f).nodeAreas = s.nodeAreas := rfl
@[simp] theorem State.modRing_life (s : State) (cl : Nat) (cw : Bool) (f : Ring → Ring) : (s.modRing cl cw f).life = s.life := rfl
@[simp] theorem State.modRing_mgmt (s : State) (cl : Nat) (cw : Bool) (f : Ring → Ring) : (s.modRing cl cw f).mgmt = s.mgmt := rfl
@[simp] theorem State.modRing_booted (s : State) (cl : Nat) (cw : Bool) (f : Ring → Ring) : (s.modRing cl cw f).booted = s.booted := rfl
@[simp] theorem State.modRing_agenda (s : State) (cl : Nat) (cw : Bool) (f : Ring → Ring) : (s.modRing cl cw f).agenda = s.agenda := rfl
@[simp] theorem State.modRing_cur (s : State) (cl : Nat) (cw : Bool) (f : Ring → Ring) : (s.modRing cl cw f).cur = s.cur := rfl
@[simp] theorem State.modRing_ev (s : State) (cl : Nat) (cw : Bool) (f : Ring → Ring) : (s.modRing cl cw f).ev = s.ev := rfl
@[simp] theorem State.modRing_after (s : State) (cl : Nat) (cw : Bool) (f : Ring → Ring) : (s.modRing cl cw f).after = s.after := rfl
@[simp] theorem State.modRing_fresh (s : State) (cl : Nat) (cw : Bool) (f : Ring → Ring) : (s.modRing cl cw f).fresh = s.fresh := rfl

/-! ### Records -/

@[simp] theorem State.ctx_setCtx (s : State) (g : Nat) (c : Ctx) : (s.setCtx g c).ctx g = c :=
  tabGet_tabSet_same _ _ _ _

theorem State.ctx_setCtx_other (s : State) {g k : Nat} (c : Ctx) (h : k ≠ g) : (s.setCtx g c).ctx k = s.ctx k := by
  have hk := tabGet_tabSet_other (Ctx.reset k) s.ctxs c h
  simpa [State.ctx, State.setCtx] using hk

@[simp] theorem State.ctx_modCtx (s : State) (g : Nat) (f : Ctx → Ctx) : (s.modCtx g f).ctx g = f (s.ctx g) :=
  State.ctx_setCtx s g (f (s.ctx g))

theorem State.ctx_modCtx_other (s : State) {g k : Nat} (f : Ctx → Ctx) (h : k ≠ g) :
    (s.modCtx g f).ctx k = s.ctx k := State.ctx_setCtx_other s (f (s.ctx g)) h

@[simp] theorem State.tile_setTile (s : State) (t : Nat) (x : Tile) : (s.setTile t x).tile t = x :=
  tabGet_tabSet_same _ _ _ _

theorem State.tile_setTile_other (s : State) {t k : Nat} (x : Tile) (h : k ≠ t) : (s.setTile t x).tile k = s.tile k :=
  tabGet_tabSet_other _ _ _ h

@[simp] theorem State.tile_modTile (s : State) (t : Nat) (f : Tile → Tile) : (s.modTile t f).tile t = f (s.tile t) :=
  State.tile_setTile s t (f (s.tile t))

theorem State.tile_modTile_other (s : State) {t k : Nat} (f : Tile → Tile) (h : k ≠ t) :
    (s.modTile t f).tile k = s.tile k := State.tile_setTile_other s (f (s.tile t)) h

@[simp] theorem State.tile_setCtx (s : State) (g t : Nat) (c : Ctx) : (s.setCtx g c).tile t = s.tile t := rfl
@[simp] theorem State.tile_modCtx (s : State) (g t : Nat) (f : Ctx → Ctx) : (s.modCtx g f).tile t = s.tile t := rfl
@[simp] theorem State.ctx_setTile (s : State) (t g : Nat) (x : Tile) : (s.setTile t x).ctx g = s.ctx g := rfl
@[simp] theorem State.ctx_modTile (s : State) (t g : Nat) (f : Tile → Tile) : (s.modTile t f).ctx g = s.ctx g := rfl
@[simp] theorem State.launch_setCtx (s : State) (g l : Nat) (c : Ctx) : (s.setCtx g c).launch l = s.launch l := rfl
@[simp] theorem State.launch_modCtx (s : State) (g l : Nat) (f : Ctx → Ctx) : (s.modCtx g f).launch l = s.launch l := rfl
@[simp] theorem State.launch_setTile (s : State) (t l : Nat) (x : Tile) : (s.setTile t x).launch l = s.launch l := rfl
@[simp] theorem State.launch_modTile (s : State) (t l : Nat) (f : Tile → Tile) : (s.modTile t f).launch l = s.launch l := rfl
@[simp] theorem State.launch_setLaunch (s : State) (l : Nat) (x : Launch) : (s.setLaunch l x).launch l = some x :=
  tabFind_tabSet_same _ _ _
@[simp] theorem State.pkt_setPkt (s : State) (i : Nat) (p : Packet) : (s.setPkt i p).pkt i = some p :=
  tabFind_tabSet_same _ _ _
theorem State.pkt_setPkt_other (s : State) {i k : Nat} (p : Packet) (h : k ≠ i) : (s.setPkt i p).pkt k = s.pkt k :=
  tabFind_tabSet_other _ _ h
@[simp] theorem State.ring_modRing (s : State) (cl : Nat) (cw : Bool) (f : Ring → Ring) :
    (s.modRing cl cw f).ring cl cw = f (s.ring cl cw) := tabGet_tabSet_same _ _ _ _
theorem State.ring_modRing_other (s : State) {cl k : Nat} {cw b : Bool} (f : Ring → Ring)
    (h : 2 * k + b.toNat ≠ 2 * cl + cw.toNat) : (s.modRing cl cw f).ring k b = s.ring k b :=
  tabGet_tabSet_other _ _ _ h
@[simp] theorem State.ctx_modRing (s : State) (cl g : Nat) (cw : Bool) (f : Ring → Ring) :
    (s.modRing cl cw f).ctx g = s.ctx g := rfl
@[simp] theorem State.tile_modRing (s : State) (cl t : Nat) (cw : Bool) (f : Ring → Ring) :
    (s.modRing cl cw f).tile t = s.tile t := rfl
@[simp] theorem State.pkt_modRing (s : State) (cl i : Nat) (cw : Bool) (f : Ring → Ring) :
    (s.modRing cl cw f).pkt i = s.pkt i := rfl
@[simp] theorem State.pkt_modCtx (s : State) (g i : Nat) (f : Ctx → Ctx) : (s.modCtx g f).pkt i = s.pkt i := rfl
@[simp] theorem State.pkt_modTile (s : State) (t i : Nat) (f : Tile → Tile) : (s.modTile t f).pkt i = s.pkt i := rfl

/-! ### A context -/

@[simp] theorem Ctx.setReg_st (c : Ctx) (i : Nat) (v : Word) : (c.setReg i v).st = c.st := rfl
@[simp] theorem Ctx.setReg_waiting (c : Ctx) (i : Nat) (v : Word) : (c.setReg i v).waiting = c.waiting := rfl
@[simp] theorem Ctx.setReg_pc (c : Ctx) (i : Nat) (v : Word) : (c.setReg i v).pc = c.pc := rfl
@[simp] theorem Ctx.setReg_q (c : Ctx) (i : Nat) (v : Word) : (c.setReg i v).q = c.q := rfl
@[simp] theorem Ctx.setReg_p (c : Ctx) (i : Nat) (v : Word) : (c.setReg i v).p = c.p := rfl
@[simp] theorem Ctx.setReg_v (c : Ctx) (i : Nat) (v : Word) : (c.setReg i v).v = c.v := rfl
@[simp] theorem Ctx.setReg_vshape (c : Ctx) (i : Nat) (v : Word) : (c.setReg i v).vshape = c.vshape := rfl
@[simp] theorem Ctx.setReg_lc (c : Ctx) (i : Nat) (v : Word) : (c.setReg i v).lc = c.lc := rfl
@[simp] theorem Ctx.setReg_loops (c : Ctx) (i : Nat) (v : Word) : (c.setReg i v).loops = c.loops := rfl
@[simp] theorem Ctx.setReg_streams (c : Ctx) (i : Nat) (v : Word) : (c.setReg i v).streams = c.streams := rfl
@[simp] theorem Ctx.setReg_k (c : Ctx) (i : Nat) (v : Word) : (c.setReg i v).k = c.k := rfl
@[simp] theorem Ctx.setReg_status (c : Ctx) (i : Nat) (v : Word) : (c.setReg i v).status = c.status := rfl
@[simp] theorem Ctx.setReg_trapvec (c : Ctx) (i : Nat) (v : Word) : (c.setReg i v).trapvec = c.trapvec := rfl
@[simp] theorem Ctx.setReg_fpctl (c : Ctx) (i : Nat) (v : Word) : (c.setReg i v).fpctl = c.fpctl := rfl
@[simp] theorem Ctx.setReg_cap (c : Ctx) (i : Nat) (v : Word) : (c.setReg i v).cap = c.cap := rfl
@[simp] theorem Ctx.setReg_pri (c : Ctx) (i : Nat) (v : Word) : (c.setReg i v).pri = c.pri := rfl
@[simp] theorem Ctx.setReg_saveptr (c : Ctx) (i : Nat) (v : Word) : (c.setReg i v).saveptr = c.saveptr := rfl
@[simp] theorem Ctx.setReg_held (c : Ctx) (i : Nat) (v : Word) : (c.setReg i v).held = c.held := rfl
@[simp] theorem Ctx.setReg_group (c : Ctx) (i : Nat) (v : Word) : (c.setReg i v).group = c.group := rfl
@[simp] theorem Ctx.setReg_groups (c : Ctx) (i : Nat) (v : Word) : (c.setReg i v).groups = c.groups := rfl
@[simp] theorem Ctx.setReg_act (c : Ctx) (i : Nat) (v : Word) : (c.setReg i v).act = c.act := rfl
@[simp] theorem Ctx.setReg_trig (c : Ctx) (i : Nat) (v : Word) : (c.setReg i v).trig = c.trig := rfl
@[simp] theorem Ctx.setReg_cont (c : Ctx) (i : Nat) (v : Word) : (c.setReg i v).cont = c.cont := rfl
@[simp] theorem Ctx.setReg_lslot (c : Ctx) (i : Nat) (v : Word) : (c.setReg i v).lslot = c.lslot := rfl
@[simp] theorem Ctx.setReg_asid (c : Ctx) (i : Nat) (v : Word) : (c.setReg i v).asid = c.asid := rfl
@[simp] theorem Ctx.setReg_place (c : Ctx) (i : Nat) (v : Word) : (c.setReg i v).place = c.place := rfl
@[simp] theorem Ctx.setReg_addrPlace (c : Ctx) (i : Nat) (v : Word) : (c.setReg i v).addrPlace = c.addrPlace := rfl
@[simp] theorem Ctx.setReg_stackPages (c : Ctx) (i : Nat) (v : Word) : (c.setReg i v).stackPages = c.stackPages := rfl
@[simp] theorem Ctx.setReg_mapped (c : Ctx) (i : Nat) (v : Word) : (c.setReg i v).mapped = c.mapped := rfl
@[simp] theorem Ctx.setReg_guard (c : Ctx) (i : Nat) (v : Word) : (c.setReg i v).guard = c.guard := rfl
@[simp] theorem Ctx.setReg_twin (c : Ctx) (i : Nat) (v : Word) : (c.setReg i v).twin = c.twin := rfl
@[simp] theorem Ctx.setReg_isTwin (c : Ctx) (i : Nat) (v : Word) : (c.setReg i v).isTwin = c.isTwin := rfl
@[simp] theorem Ctx.setReg_pause (c : Ctx) (i : Nat) (v : Word) : (c.setReg i v).pause = c.pause := rfl
@[simp] theorem Ctx.setReg_fwd (c : Ctx) (i : Nat) (v : Word) : (c.setReg i v).fwd = c.fwd := rfl
@[simp] theorem Ctx.setReg_drop (c : Ctx) (i : Nat) (v : Word) : (c.setReg i v).drop = c.drop := rfl
@[simp] theorem Ctx.setReg_lost (c : Ctx) (i : Nat) (v : Word) : (c.setReg i v).lost = c.lost := rfl
@[simp] theorem Ctx.setReg_fail (c : Ctx) (i : Nat) (v : Word) : (c.setReg i v).fail = c.fail := rfl
@[simp] theorem Ctx.setReg_halted (c : Ctx) (i : Nat) (v : Word) : (c.setReg i v).halted = c.halted := rfl
@[simp] theorem Ctx.setReg_lastBpc (c : Ctx) (i : Nat) (v : Word) : (c.setReg i v).lastBpc = c.lastBpc := rfl
@[simp] theorem Ctx.setReg_faulted (c : Ctx) (i : Nat) (v : Word) : (c.setReg i v).faulted = c.faulted := rfl
@[simp] theorem Ctx.setReg_ending (c : Ctx) (i : Nat) (v : Word) : (c.setReg i v).ending = c.ending := rfl
@[simp] theorem Ctx.setReg_endedAt (c : Ctx) (i : Nat) (v : Word) : (c.setReg i v).endedAt = c.endedAt := rfl
@[simp] theorem Ctx.setReg_fwdAny (c : Ctx) (i : Nat) (v : Word) : (c.setReg i v).fwdAny = c.fwdAny := rfl
@[simp] theorem Ctx.setReg_inherited (c : Ctx) (i : Nat) (v : Word) : (c.setReg i v).inherited = c.inherited := rfl
@[simp] theorem Ctx.setReg_stage (c : Ctx) (i : Nat) (v : Word) : (c.setReg i v).stage = c.stage := rfl
@[simp] theorem Ctx.setReg_saveDue (c : Ctx) (i : Nat) (v : Word) : (c.setReg i v).saveDue = c.saveDue := rfl
@[simp] theorem Ctx.setReg_tested (c : Ctx) (i : Nat) (v : Word) : (c.setReg i v).tested = c.tested := rfl
@[simp] theorem Ctx.setReg_bufErr (c : Ctx) (i : Nat) (v : Word) : (c.setReg i v).bufErr = c.bufErr := rfl
@[simp] theorem Ctx.setReg_line (c : Ctx) (i : Nat) (v : Word) : (c.setReg i v).line = c.line := rfl
@[simp] theorem Ctx.setReg_body (c : Ctx) (i : Nat) (v : Word) : (c.setReg i v).body = c.body := rfl
@[simp] theorem Ctx.setReg_resume (c : Ctx) (i : Nat) (v : Word) : (c.setReg i v).resume = c.resume := rfl
@[simp] theorem Ctx.setReg_trapDue (c : Ctx) (i : Nat) (v : Word) : (c.setReg i v).trapDue = c.trapDue := rfl

@[simp] theorem Ctx.setLc_st (c : Ctx) (k : Nat) (v : BitVec 32) : (c.setLc k v).st = c.st := rfl
@[simp] theorem Ctx.setLc_waiting (c : Ctx) (k : Nat) (v : BitVec 32) : (c.setLc k v).waiting = c.waiting := rfl
@[simp] theorem Ctx.setLc_pc (c : Ctx) (k : Nat) (v : BitVec 32) : (c.setLc k v).pc = c.pc := rfl
@[simp] theorem Ctx.setLc_n (c : Ctx) (k : Nat) (v : BitVec 32) : (c.setLc k v).n = c.n := rfl
@[simp] theorem Ctx.setLc_q (c : Ctx) (k : Nat) (v : BitVec 32) : (c.setLc k v).q = c.q := rfl
@[simp] theorem Ctx.setLc_p (c : Ctx) (k : Nat) (v : BitVec 32) : (c.setLc k v).p = c.p := rfl
@[simp] theorem Ctx.setLc_v (c : Ctx) (k : Nat) (v : BitVec 32) : (c.setLc k v).v = c.v := rfl
@[simp] theorem Ctx.setLc_vshape (c : Ctx) (k : Nat) (v : BitVec 32) : (c.setLc k v).vshape = c.vshape := rfl
@[simp] theorem Ctx.setLc_loops (c : Ctx) (k : Nat) (v : BitVec 32) : (c.setLc k v).loops = c.loops := rfl
@[simp] theorem Ctx.setLc_streams (c : Ctx) (k : Nat) (v : BitVec 32) : (c.setLc k v).streams = c.streams := rfl
@[simp] theorem Ctx.setLc_k (c : Ctx) (k : Nat) (v : BitVec 32) : (c.setLc k v).k = c.k := rfl
@[simp] theorem Ctx.setLc_status (c : Ctx) (k : Nat) (v : BitVec 32) : (c.setLc k v).status = c.status := rfl
@[simp] theorem Ctx.setLc_trapvec (c : Ctx) (k : Nat) (v : BitVec 32) : (c.setLc k v).trapvec = c.trapvec := rfl
@[simp] theorem Ctx.setLc_fpctl (c : Ctx) (k : Nat) (v : BitVec 32) : (c.setLc k v).fpctl = c.fpctl := rfl
@[simp] theorem Ctx.setLc_cap (c : Ctx) (k : Nat) (v : BitVec 32) : (c.setLc k v).cap = c.cap := rfl
@[simp] theorem Ctx.setLc_pri (c : Ctx) (k : Nat) (v : BitVec 32) : (c.setLc k v).pri = c.pri := rfl
@[simp] theorem Ctx.setLc_saveptr (c : Ctx) (k : Nat) (v : BitVec 32) : (c.setLc k v).saveptr = c.saveptr := rfl
@[simp] theorem Ctx.setLc_held (c : Ctx) (k : Nat) (v : BitVec 32) : (c.setLc k v).held = c.held := rfl
@[simp] theorem Ctx.setLc_group (c : Ctx) (k : Nat) (v : BitVec 32) : (c.setLc k v).group = c.group := rfl
@[simp] theorem Ctx.setLc_groups (c : Ctx) (k : Nat) (v : BitVec 32) : (c.setLc k v).groups = c.groups := rfl
@[simp] theorem Ctx.setLc_act (c : Ctx) (k : Nat) (v : BitVec 32) : (c.setLc k v).act = c.act := rfl
@[simp] theorem Ctx.setLc_trig (c : Ctx) (k : Nat) (v : BitVec 32) : (c.setLc k v).trig = c.trig := rfl
@[simp] theorem Ctx.setLc_cont (c : Ctx) (k : Nat) (v : BitVec 32) : (c.setLc k v).cont = c.cont := rfl
@[simp] theorem Ctx.setLc_lslot (c : Ctx) (k : Nat) (v : BitVec 32) : (c.setLc k v).lslot = c.lslot := rfl
@[simp] theorem Ctx.setLc_asid (c : Ctx) (k : Nat) (v : BitVec 32) : (c.setLc k v).asid = c.asid := rfl
@[simp] theorem Ctx.setLc_place (c : Ctx) (k : Nat) (v : BitVec 32) : (c.setLc k v).place = c.place := rfl
@[simp] theorem Ctx.setLc_addrPlace (c : Ctx) (k : Nat) (v : BitVec 32) : (c.setLc k v).addrPlace = c.addrPlace := rfl
@[simp] theorem Ctx.setLc_stackPages (c : Ctx) (k : Nat) (v : BitVec 32) : (c.setLc k v).stackPages = c.stackPages := rfl
@[simp] theorem Ctx.setLc_mapped (c : Ctx) (k : Nat) (v : BitVec 32) : (c.setLc k v).mapped = c.mapped := rfl
@[simp] theorem Ctx.setLc_guard (c : Ctx) (k : Nat) (v : BitVec 32) : (c.setLc k v).guard = c.guard := rfl
@[simp] theorem Ctx.setLc_twin (c : Ctx) (k : Nat) (v : BitVec 32) : (c.setLc k v).twin = c.twin := rfl
@[simp] theorem Ctx.setLc_isTwin (c : Ctx) (k : Nat) (v : BitVec 32) : (c.setLc k v).isTwin = c.isTwin := rfl
@[simp] theorem Ctx.setLc_pause (c : Ctx) (k : Nat) (v : BitVec 32) : (c.setLc k v).pause = c.pause := rfl
@[simp] theorem Ctx.setLc_fwd (c : Ctx) (k : Nat) (v : BitVec 32) : (c.setLc k v).fwd = c.fwd := rfl
@[simp] theorem Ctx.setLc_drop (c : Ctx) (k : Nat) (v : BitVec 32) : (c.setLc k v).drop = c.drop := rfl
@[simp] theorem Ctx.setLc_lost (c : Ctx) (k : Nat) (v : BitVec 32) : (c.setLc k v).lost = c.lost := rfl
@[simp] theorem Ctx.setLc_fail (c : Ctx) (k : Nat) (v : BitVec 32) : (c.setLc k v).fail = c.fail := rfl
@[simp] theorem Ctx.setLc_halted (c : Ctx) (k : Nat) (v : BitVec 32) : (c.setLc k v).halted = c.halted := rfl
@[simp] theorem Ctx.setLc_lastBpc (c : Ctx) (k : Nat) (v : BitVec 32) : (c.setLc k v).lastBpc = c.lastBpc := rfl
@[simp] theorem Ctx.setLc_faulted (c : Ctx) (k : Nat) (v : BitVec 32) : (c.setLc k v).faulted = c.faulted := rfl
@[simp] theorem Ctx.setLc_ending (c : Ctx) (k : Nat) (v : BitVec 32) : (c.setLc k v).ending = c.ending := rfl
@[simp] theorem Ctx.setLc_endedAt (c : Ctx) (k : Nat) (v : BitVec 32) : (c.setLc k v).endedAt = c.endedAt := rfl
@[simp] theorem Ctx.setLc_fwdAny (c : Ctx) (k : Nat) (v : BitVec 32) : (c.setLc k v).fwdAny = c.fwdAny := rfl
@[simp] theorem Ctx.setLc_inherited (c : Ctx) (k : Nat) (v : BitVec 32) : (c.setLc k v).inherited = c.inherited := rfl
@[simp] theorem Ctx.setLc_stage (c : Ctx) (k : Nat) (v : BitVec 32) : (c.setLc k v).stage = c.stage := rfl
@[simp] theorem Ctx.setLc_saveDue (c : Ctx) (k : Nat) (v : BitVec 32) : (c.setLc k v).saveDue = c.saveDue := rfl
@[simp] theorem Ctx.setLc_tested (c : Ctx) (k : Nat) (v : BitVec 32) : (c.setLc k v).tested = c.tested := rfl
@[simp] theorem Ctx.setLc_bufErr (c : Ctx) (k : Nat) (v : BitVec 32) : (c.setLc k v).bufErr = c.bufErr := rfl
@[simp] theorem Ctx.setLc_line (c : Ctx) (k : Nat) (v : BitVec 32) : (c.setLc k v).line = c.line := rfl
@[simp] theorem Ctx.setLc_body (c : Ctx) (k : Nat) (v : BitVec 32) : (c.setLc k v).body = c.body := rfl
@[simp] theorem Ctx.setLc_resume (c : Ctx) (k : Nat) (v : BitVec 32) : (c.setLc k v).resume = c.resume := rfl
@[simp] theorem Ctx.setLc_trapDue (c : Ctx) (k : Nat) (v : BitVec 32) : (c.setLc k v).trapDue = c.trapDue := rfl

@[simp] theorem Ctx.popStreams_st (c : Ctx) (ps : List Nat) (ss : List (Nat × Stream)) : (c.popStreams ps ss).st = c.st := rfl
@[simp] theorem Ctx.popStreams_waiting (c : Ctx) (ps : List Nat) (ss : List (Nat × Stream)) : (c.popStreams ps ss).waiting = c.waiting := rfl
@[simp] theorem Ctx.popStreams_pc (c : Ctx) (ps : List Nat) (ss : List (Nat × Stream)) : (c.popStreams ps ss).pc = c.pc := rfl
@[simp] theorem Ctx.popStreams_n (c : Ctx) (ps : List Nat) (ss : List (Nat × Stream)) : (c.popStreams ps ss).n = c.n := rfl
@[simp] theorem Ctx.popStreams_q (c : Ctx) (ps : List Nat) (ss : List (Nat × Stream)) : (c.popStreams ps ss).q = c.q := rfl
@[simp] theorem Ctx.popStreams_p (c : Ctx) (ps : List Nat) (ss : List (Nat × Stream)) : (c.popStreams ps ss).p = c.p := rfl
@[simp] theorem Ctx.popStreams_v (c : Ctx) (ps : List Nat) (ss : List (Nat × Stream)) : (c.popStreams ps ss).v = c.v := rfl
@[simp] theorem Ctx.popStreams_vshape (c : Ctx) (ps : List Nat) (ss : List (Nat × Stream)) : (c.popStreams ps ss).vshape = c.vshape := rfl
@[simp] theorem Ctx.popStreams_lc (c : Ctx) (ps : List Nat) (ss : List (Nat × Stream)) : (c.popStreams ps ss).lc = c.lc := rfl
@[simp] theorem Ctx.popStreams_loops (c : Ctx) (ps : List Nat) (ss : List (Nat × Stream)) : (c.popStreams ps ss).loops = c.loops := rfl
@[simp] theorem Ctx.popStreams_k (c : Ctx) (ps : List Nat) (ss : List (Nat × Stream)) : (c.popStreams ps ss).k = c.k := rfl
@[simp] theorem Ctx.popStreams_status (c : Ctx) (ps : List Nat) (ss : List (Nat × Stream)) : (c.popStreams ps ss).status = c.status := rfl
@[simp] theorem Ctx.popStreams_trapvec (c : Ctx) (ps : List Nat) (ss : List (Nat × Stream)) : (c.popStreams ps ss).trapvec = c.trapvec := rfl
@[simp] theorem Ctx.popStreams_fpctl (c : Ctx) (ps : List Nat) (ss : List (Nat × Stream)) : (c.popStreams ps ss).fpctl = c.fpctl := rfl
@[simp] theorem Ctx.popStreams_cap (c : Ctx) (ps : List Nat) (ss : List (Nat × Stream)) : (c.popStreams ps ss).cap = c.cap := rfl
@[simp] theorem Ctx.popStreams_pri (c : Ctx) (ps : List Nat) (ss : List (Nat × Stream)) : (c.popStreams ps ss).pri = c.pri := rfl
@[simp] theorem Ctx.popStreams_saveptr (c : Ctx) (ps : List Nat) (ss : List (Nat × Stream)) : (c.popStreams ps ss).saveptr = c.saveptr := rfl
@[simp] theorem Ctx.popStreams_held (c : Ctx) (ps : List Nat) (ss : List (Nat × Stream)) : (c.popStreams ps ss).held = c.held := rfl
@[simp] theorem Ctx.popStreams_group (c : Ctx) (ps : List Nat) (ss : List (Nat × Stream)) : (c.popStreams ps ss).group = c.group := rfl
@[simp] theorem Ctx.popStreams_groups (c : Ctx) (ps : List Nat) (ss : List (Nat × Stream)) : (c.popStreams ps ss).groups = c.groups := rfl
@[simp] theorem Ctx.popStreams_act (c : Ctx) (ps : List Nat) (ss : List (Nat × Stream)) : (c.popStreams ps ss).act = c.act := rfl
@[simp] theorem Ctx.popStreams_trig (c : Ctx) (ps : List Nat) (ss : List (Nat × Stream)) : (c.popStreams ps ss).trig = c.trig := rfl
@[simp] theorem Ctx.popStreams_cont (c : Ctx) (ps : List Nat) (ss : List (Nat × Stream)) : (c.popStreams ps ss).cont = c.cont := rfl
@[simp] theorem Ctx.popStreams_lslot (c : Ctx) (ps : List Nat) (ss : List (Nat × Stream)) : (c.popStreams ps ss).lslot = c.lslot := rfl
@[simp] theorem Ctx.popStreams_asid (c : Ctx) (ps : List Nat) (ss : List (Nat × Stream)) : (c.popStreams ps ss).asid = c.asid := rfl
@[simp] theorem Ctx.popStreams_place (c : Ctx) (ps : List Nat) (ss : List (Nat × Stream)) : (c.popStreams ps ss).place = c.place := rfl
@[simp] theorem Ctx.popStreams_addrPlace (c : Ctx) (ps : List Nat) (ss : List (Nat × Stream)) : (c.popStreams ps ss).addrPlace = c.addrPlace := rfl
@[simp] theorem Ctx.popStreams_stackPages (c : Ctx) (ps : List Nat) (ss : List (Nat × Stream)) : (c.popStreams ps ss).stackPages = c.stackPages := rfl
@[simp] theorem Ctx.popStreams_mapped (c : Ctx) (ps : List Nat) (ss : List (Nat × Stream)) : (c.popStreams ps ss).mapped = c.mapped := rfl
@[simp] theorem Ctx.popStreams_guard (c : Ctx) (ps : List Nat) (ss : List (Nat × Stream)) : (c.popStreams ps ss).guard = c.guard := rfl
@[simp] theorem Ctx.popStreams_twin (c : Ctx) (ps : List Nat) (ss : List (Nat × Stream)) : (c.popStreams ps ss).twin = c.twin := rfl
@[simp] theorem Ctx.popStreams_isTwin (c : Ctx) (ps : List Nat) (ss : List (Nat × Stream)) : (c.popStreams ps ss).isTwin = c.isTwin := rfl
@[simp] theorem Ctx.popStreams_pause (c : Ctx) (ps : List Nat) (ss : List (Nat × Stream)) : (c.popStreams ps ss).pause = c.pause := rfl
@[simp] theorem Ctx.popStreams_fwd (c : Ctx) (ps : List Nat) (ss : List (Nat × Stream)) : (c.popStreams ps ss).fwd = c.fwd := rfl
@[simp] theorem Ctx.popStreams_drop (c : Ctx) (ps : List Nat) (ss : List (Nat × Stream)) : (c.popStreams ps ss).drop = c.drop := rfl
@[simp] theorem Ctx.popStreams_lost (c : Ctx) (ps : List Nat) (ss : List (Nat × Stream)) : (c.popStreams ps ss).lost = c.lost := rfl
@[simp] theorem Ctx.popStreams_fail (c : Ctx) (ps : List Nat) (ss : List (Nat × Stream)) : (c.popStreams ps ss).fail = c.fail := rfl
@[simp] theorem Ctx.popStreams_halted (c : Ctx) (ps : List Nat) (ss : List (Nat × Stream)) : (c.popStreams ps ss).halted = c.halted := rfl
@[simp] theorem Ctx.popStreams_lastBpc (c : Ctx) (ps : List Nat) (ss : List (Nat × Stream)) : (c.popStreams ps ss).lastBpc = c.lastBpc := rfl
@[simp] theorem Ctx.popStreams_faulted (c : Ctx) (ps : List Nat) (ss : List (Nat × Stream)) : (c.popStreams ps ss).faulted = c.faulted := rfl
@[simp] theorem Ctx.popStreams_ending (c : Ctx) (ps : List Nat) (ss : List (Nat × Stream)) : (c.popStreams ps ss).ending = c.ending := rfl
@[simp] theorem Ctx.popStreams_endedAt (c : Ctx) (ps : List Nat) (ss : List (Nat × Stream)) : (c.popStreams ps ss).endedAt = c.endedAt := rfl
@[simp] theorem Ctx.popStreams_fwdAny (c : Ctx) (ps : List Nat) (ss : List (Nat × Stream)) : (c.popStreams ps ss).fwdAny = c.fwdAny := rfl
@[simp] theorem Ctx.popStreams_inherited (c : Ctx) (ps : List Nat) (ss : List (Nat × Stream)) : (c.popStreams ps ss).inherited = c.inherited := rfl
@[simp] theorem Ctx.popStreams_stage (c : Ctx) (ps : List Nat) (ss : List (Nat × Stream)) : (c.popStreams ps ss).stage = c.stage := rfl
@[simp] theorem Ctx.popStreams_saveDue (c : Ctx) (ps : List Nat) (ss : List (Nat × Stream)) : (c.popStreams ps ss).saveDue = c.saveDue := rfl
@[simp] theorem Ctx.popStreams_tested (c : Ctx) (ps : List Nat) (ss : List (Nat × Stream)) : (c.popStreams ps ss).tested = c.tested := rfl
@[simp] theorem Ctx.popStreams_bufErr (c : Ctx) (ps : List Nat) (ss : List (Nat × Stream)) : (c.popStreams ps ss).bufErr = c.bufErr := rfl
@[simp] theorem Ctx.popStreams_line (c : Ctx) (ps : List Nat) (ss : List (Nat × Stream)) : (c.popStreams ps ss).line = c.line := rfl
@[simp] theorem Ctx.popStreams_body (c : Ctx) (ps : List Nat) (ss : List (Nat × Stream)) : (c.popStreams ps ss).body = c.body := rfl
@[simp] theorem Ctx.popStreams_resume (c : Ctx) (ps : List Nat) (ss : List (Nat × Stream)) : (c.popStreams ps ss).resume = c.resume := rfl
@[simp] theorem Ctx.popStreams_trapDue (c : Ctx) (ps : List Nat) (ss : List (Nat × Stream)) : (c.popStreams ps ss).trapDue = c.trapDue := rfl

/-! ### A stage -/

@[simp] theorem Stage.push_bpc (st : Stage) (v : Word) (d : Dest) : (st.push v d).bpc = st.bpc := rfl
@[simp] theorem Stage.push_at (st : Stage) (v : Word) (d : Dest) : (st.push v d).at_ = st.at_ := rfl
@[simp] theorem Stage.push_issued (st : Stage) (v : Word) (d : Dest) : (st.push v d).issued = st.issued := rfl
@[simp] theorem Stage.push_next (st : Stage) (v : Word) (d : Dest) : (st.push v d).next = st.next := rfl
@[simp] theorem Stage.push_preds (st : Stage) (v : Word) (d : Dest) : (st.push v d).preds = st.preds := rfl
@[simp] theorem Stage.push_vregs (st : Stage) (v : Word) (d : Dest) : (st.push v d).vregs = st.vregs := rfl
@[simp] theorem Stage.push_vshape (st : Stage) (v : Word) (d : Dest) : (st.push v d).vshape = st.vshape := rfl
@[simp] theorem Stage.push_cregs (st : Stage) (v : Word) (d : Dest) : (st.push v d).cregs = st.cregs := rfl
@[simp] theorem Stage.push_flags (st : Stage) (v : Word) (d : Dest) : (st.push v d).flags = st.flags := rfl
@[simp] theorem Stage.push_loopOpen (st : Stage) (v : Word) (d : Dest) : (st.push v d).loopOpen = st.loopOpen := rfl
@[simp] theorem Stage.push_pops (st : Stage) (v : Word) (d : Dest) : (st.push v d).pops = st.pops := rfl
@[simp] theorem Stage.push_streams (st : Stage) (v : Word) (d : Dest) : (st.push v d).streams = st.streams := rfl
@[simp] theorem Stage.push_acts (st : Stage) (v : Word) (d : Dest) : (st.push v d).acts = st.acts := rfl
@[simp] theorem Stage.push_xfer (st : Stage) (v : Word) (d : Dest) : (st.push v d).xfer = st.xfer := rfl
@[simp] theorem Stage.push_link (st : Stage) (v : Word) (d : Dest) : (st.push v d).link = st.link := rfl
@[simp] theorem Stage.push_pend (st : Stage) (v : Word) (d : Dest) : (st.push v d).pend = st.pend := rfl
@[simp] theorem Stage.push_trap (st : Stage) (v : Word) (d : Dest) : (st.push v d).trap = st.trap := rfl
@[simp] theorem Stage.push_guardAt (st : Stage) (v : Word) (d : Dest) : (st.push v d).guardAt = st.guardAt := rfl
@[simp] theorem Stage.push_body (st : Stage) (v : Word) (d : Dest) : (st.push v d).body = st.body := rfl
@[simp] theorem Stage.push_part (st : Stage) (v : Word) (d : Dest) : (st.push v d).part = st.part := rfl
@[simp] theorem Stage.push_checks (st : Stage) (v : Word) (d : Dest) : (st.push v d).checks = st.checks := rfl

@[simp] theorem Stage.setPred_bpc (st : Stage) (k : Nat) (v : Bool) : (st.setPred k v).bpc = st.bpc := rfl
@[simp] theorem Stage.setPred_at (st : Stage) (k : Nat) (v : Bool) : (st.setPred k v).at_ = st.at_ := rfl
@[simp] theorem Stage.setPred_issued (st : Stage) (k : Nat) (v : Bool) : (st.setPred k v).issued = st.issued := rfl
@[simp] theorem Stage.setPred_next (st : Stage) (k : Nat) (v : Bool) : (st.setPred k v).next = st.next := rfl
@[simp] theorem Stage.setPred_pushes (st : Stage) (k : Nat) (v : Bool) : (st.setPred k v).pushes = st.pushes := rfl
@[simp] theorem Stage.setPred_regs (st : Stage) (k : Nat) (v : Bool) : (st.setPred k v).regs = st.regs := rfl
@[simp] theorem Stage.setPred_vregs (st : Stage) (k : Nat) (v : Bool) : (st.setPred k v).vregs = st.vregs := rfl
@[simp] theorem Stage.setPred_vshape (st : Stage) (k : Nat) (v : Bool) : (st.setPred k v).vshape = st.vshape := rfl
@[simp] theorem Stage.setPred_cregs (st : Stage) (k : Nat) (v : Bool) : (st.setPred k v).cregs = st.cregs := rfl
@[simp] theorem Stage.setPred_flags (st : Stage) (k : Nat) (v : Bool) : (st.setPred k v).flags = st.flags := rfl
@[simp] theorem Stage.setPred_loopOpen (st : Stage) (k : Nat) (v : Bool) : (st.setPred k v).loopOpen = st.loopOpen := rfl
@[simp] theorem Stage.setPred_pops (st : Stage) (k : Nat) (v : Bool) : (st.setPred k v).pops = st.pops := rfl
@[simp] theorem Stage.setPred_streams (st : Stage) (k : Nat) (v : Bool) : (st.setPred k v).streams = st.streams := rfl
@[simp] theorem Stage.setPred_acts (st : Stage) (k : Nat) (v : Bool) : (st.setPred k v).acts = st.acts := rfl
@[simp] theorem Stage.setPred_xfer (st : Stage) (k : Nat) (v : Bool) : (st.setPred k v).xfer = st.xfer := rfl
@[simp] theorem Stage.setPred_link (st : Stage) (k : Nat) (v : Bool) : (st.setPred k v).link = st.link := rfl
@[simp] theorem Stage.setPred_pend (st : Stage) (k : Nat) (v : Bool) : (st.setPred k v).pend = st.pend := rfl
@[simp] theorem Stage.setPred_trap (st : Stage) (k : Nat) (v : Bool) : (st.setPred k v).trap = st.trap := rfl
@[simp] theorem Stage.setPred_guardAt (st : Stage) (k : Nat) (v : Bool) : (st.setPred k v).guardAt = st.guardAt := rfl
@[simp] theorem Stage.setPred_body (st : Stage) (k : Nat) (v : Bool) : (st.setPred k v).body = st.body := rfl
@[simp] theorem Stage.setPred_part (st : Stage) (k : Nat) (v : Bool) : (st.setPred k v).part = st.part := rfl
@[simp] theorem Stage.setPred_checks (st : Stage) (k : Nat) (v : Bool) : (st.setPred k v).checks = st.checks := rfl

@[simp] theorem Stage.act_bpc (st : Stage) (a : Act) : (st.act a).bpc = st.bpc := rfl
@[simp] theorem Stage.act_at (st : Stage) (a : Act) : (st.act a).at_ = st.at_ := rfl
@[simp] theorem Stage.act_issued (st : Stage) (a : Act) : (st.act a).issued = st.issued := rfl
@[simp] theorem Stage.act_next (st : Stage) (a : Act) : (st.act a).next = st.next := rfl
@[simp] theorem Stage.act_pushes (st : Stage) (a : Act) : (st.act a).pushes = st.pushes := rfl
@[simp] theorem Stage.act_regs (st : Stage) (a : Act) : (st.act a).regs = st.regs := rfl
@[simp] theorem Stage.act_preds (st : Stage) (a : Act) : (st.act a).preds = st.preds := rfl
@[simp] theorem Stage.act_vregs (st : Stage) (a : Act) : (st.act a).vregs = st.vregs := rfl
@[simp] theorem Stage.act_vshape (st : Stage) (a : Act) : (st.act a).vshape = st.vshape := rfl
@[simp] theorem Stage.act_cregs (st : Stage) (a : Act) : (st.act a).cregs = st.cregs := rfl
@[simp] theorem Stage.act_flags (st : Stage) (a : Act) : (st.act a).flags = st.flags := rfl
@[simp] theorem Stage.act_loopOpen (st : Stage) (a : Act) : (st.act a).loopOpen = st.loopOpen := rfl
@[simp] theorem Stage.act_pops (st : Stage) (a : Act) : (st.act a).pops = st.pops := rfl
@[simp] theorem Stage.act_streams (st : Stage) (a : Act) : (st.act a).streams = st.streams := rfl
@[simp] theorem Stage.act_xfer (st : Stage) (a : Act) : (st.act a).xfer = st.xfer := rfl
@[simp] theorem Stage.act_link (st : Stage) (a : Act) : (st.act a).link = st.link := rfl
@[simp] theorem Stage.act_pend (st : Stage) (a : Act) : (st.act a).pend = st.pend := rfl
@[simp] theorem Stage.act_trap (st : Stage) (a : Act) : (st.act a).trap = st.trap := rfl
@[simp] theorem Stage.act_guardAt (st : Stage) (a : Act) : (st.act a).guardAt = st.guardAt := rfl
@[simp] theorem Stage.act_body (st : Stage) (a : Act) : (st.act a).body = st.body := rfl
@[simp] theorem Stage.act_part (st : Stage) (a : Act) : (st.act a).part = st.part := rfl
@[simp] theorem Stage.act_checks (st : Stage) (a : Act) : (st.act a).checks =
    (if actChecks a = 0 then st.checks else st.checks ++ [(headOf st.at_, actChecks a)]) := rfl

@[simp] theorem Stage.raise_bpc (st : Stage) (f : Flags) : (st.raise f).bpc = st.bpc := rfl
@[simp] theorem Stage.raise_at (st : Stage) (f : Flags) : (st.raise f).at_ = st.at_ := rfl
@[simp] theorem Stage.raise_issued (st : Stage) (f : Flags) : (st.raise f).issued = st.issued := rfl
@[simp] theorem Stage.raise_next (st : Stage) (f : Flags) : (st.raise f).next = st.next := rfl
@[simp] theorem Stage.raise_pushes (st : Stage) (f : Flags) : (st.raise f).pushes = st.pushes := rfl
@[simp] theorem Stage.raise_regs (st : Stage) (f : Flags) : (st.raise f).regs = st.regs := rfl
@[simp] theorem Stage.raise_preds (st : Stage) (f : Flags) : (st.raise f).preds = st.preds := rfl
@[simp] theorem Stage.raise_vregs (st : Stage) (f : Flags) : (st.raise f).vregs = st.vregs := rfl
@[simp] theorem Stage.raise_vshape (st : Stage) (f : Flags) : (st.raise f).vshape = st.vshape := rfl
@[simp] theorem Stage.raise_cregs (st : Stage) (f : Flags) : (st.raise f).cregs = st.cregs := rfl
@[simp] theorem Stage.raise_loopOpen (st : Stage) (f : Flags) : (st.raise f).loopOpen = st.loopOpen := rfl
@[simp] theorem Stage.raise_pops (st : Stage) (f : Flags) : (st.raise f).pops = st.pops := rfl
@[simp] theorem Stage.raise_streams (st : Stage) (f : Flags) : (st.raise f).streams = st.streams := rfl
@[simp] theorem Stage.raise_acts (st : Stage) (f : Flags) : (st.raise f).acts = st.acts := rfl
@[simp] theorem Stage.raise_xfer (st : Stage) (f : Flags) : (st.raise f).xfer = st.xfer := rfl
@[simp] theorem Stage.raise_link (st : Stage) (f : Flags) : (st.raise f).link = st.link := rfl
@[simp] theorem Stage.raise_pend (st : Stage) (f : Flags) : (st.raise f).pend = st.pend := rfl
@[simp] theorem Stage.raise_trap (st : Stage) (f : Flags) : (st.raise f).trap = st.trap := rfl
@[simp] theorem Stage.raise_guardAt (st : Stage) (f : Flags) : (st.raise f).guardAt = st.guardAt := rfl
@[simp] theorem Stage.raise_body (st : Stage) (f : Flags) : (st.raise f).body = st.body := rfl
@[simp] theorem Stage.raise_part (st : Stage) (f : Flags) : (st.raise f).part = st.part := rfl
@[simp] theorem Stage.raise_checks (st : Stage) (f : Flags) : (st.raise f).checks = st.checks := rfl

@[simp] theorem Stage.push_pushes (st : Stage) (v : Word) (d : Dest) : (st.push v d).pushes = st.pushes ++ [v] := rfl
@[simp] theorem Stage.push_regs (st : Stage) (v : Word) (r : BitVec 5) :
    (st.push v (some r)).regs = st.regs ++ [(r.toNat, v)] := rfl
@[simp] theorem Stage.push_regs_none (st : Stage) (v : Word) : (st.push v none).regs = st.regs := rfl
@[simp] theorem Stage.setPred_preds (st : Stage) (k : Nat) (v : Bool) : (st.setPred k v).preds = st.preds ++ [(k, v)] := rfl
@[simp] theorem Stage.act_acts (st : Stage) (a : Act) : (st.act a).acts = st.acts ++ [a] := rfl

end Sys2Proof.Machine
end

