-- ==== Sys2Proof/Tests/Slice0.lean ====
section
/-! SUPPORT. Tests: well-formedness, decoding, a few single steps, and for each statement a state and operands
that meet its hypotheses, clause by clause. -/

namespace Sys2Proof.Tests

open Sys2Proof.Machine Sys2Proof.Stated

set_option Elab.async false

/-- An unguarded head that is a bundle of its own. -/
def h0 : Head := ⟨0, false, false⟩

/-- A launch on the whole array, of ASID 0. -/
def launch0 : Launch :=
  ⟨[0, 0, 0x55] ++ List.replicate 125 0, List.replicate 256 0, List.replicate 256 0, 0, .running, false, [], [],
      0, [], .running, 0⟩

/-- Context 0 in RUN in user mode, with two registers that hold addresses. -/
def ctx0 : Ctx :=
  { Ctx.reset 0 with
    st := .run, pc := 0x10002, act := 5
    n := (((Vector.replicate 32 (0 : Word)).set 3 0x8000).set 20 3).set 30 0x10002 }

/-- The machine with that launch and that context, its address space valid, its trap vector unset. -/
def w0 : State :=
  { State.reset with
    booted := true, cycle := 7, after := 0x10042, nextPkt := 9, nextAct := 6, ctxs := [(0, ctx0)], launches := [(0, launch0)]
    mem := memWrite (memWrite [] (keyScratch 0 0x10000) (oneHeadLine 0x0181 0x1A00913)) (keyScratch 0 0x1E0400)
      (bytesLE 8 (2 ^ 47))
    mgmt := { State.reset.mgmt with power := .active } }

/-- A tail of 32 bits: registers 3 and 20, destination register 24, this modifier. -/
def t32 (m : BitVec 8) : Tail := .t32 m (some 24) (.q 0) (.n 20) (.n 3)


/-! ### Well-formedness: an ill-formed term for each check -/
theorem test_wf_good : (Instr.add h0 (t32 0)).wf = true := by decide

/-- An assigned opcode is no reserved one. -/
theorem test_wf_assigned : (Instr.illegalOpcode h0 0x01 2 false 0).wf = false := by decide

/-- Bits beyond the tail of the reserved opcode. -/
theorem test_wf_raw : (Instr.illegalOpcode h0 0x39 1 false 0x10000).wf = false ∧
    (Instr.illegalOpcode h0 0x39 1 false 0xFFFF).wf = true := by decide

/-- A layout that the form does not have: RDCYC takes no 20-bit literal. -/
theorem test_wf_layout : (Instr.rdcyc h0 (.i20 0 (.n 3))).wf = false := by decide

/-- Two constants in a 32-bit tail, and a literal in one. -/
theorem test_wf_operands : (Instr.add h0 (.t32 0 (some 24) (.q 0) .k .k)).wf = false ∧
    (Instr.add h0 (.t32 0 (some 24) (.q 0) .lit (.n 3))).wf = false := by decide

/-- Field16 without a literal or constant. -/
theorem test_wf_field : (Instr.madd h0 (.t48x 1 0 (some 24) (.n 1) (.n 2) (.n 3))).wf = false := by decide

/-- A destination on a form that produces no value. -/
theorem test_wf_destination : (Instr.st h0 (.t32 0 (some 24) (.q 0) (.n 20) (.n 3))).wf = false := by decide

/-- A source that the form leaves unused, and a modifier bit that must be zero. -/
theorem test_wf_form : (Instr.add h0 (.t32 0 (some 24) (.n 1) (.n 20) (.n 3))).wf = false ∧
    (Instr.add h0 (t32 8)).wf = false := by decide

/-- SENSE without a predicate (R90). -/
theorem test_wf_guard : (Instr.add ⟨0, true, false⟩ (t32 0)).wf = false ∧
    (Instr.add ⟨1, true, false⟩ (t32 0)).wf = true := by decide

/-- A device event has no encoding and is well formed. -/
theorem test_wf_event : Instr.storePerform.wf = true ∧ encode .storePerform = none := by decide

/-- A register pair that begins at an odd register (R264). -/
theorem test_wf_pair : (Instr.ldp h0 (.t32 0 (some 3) (.q 0) (.q 0) (.n 3))).wf = false := by decide

/-- The decoder refuses by name what is not well formed: SENSE without a predicate, and a modifier. -/
theorem test_decode_refuses : decodeHead 0b00000001_10_0_000_1_1 0b00000000_101000_000000_110000_010011 = .bad .illegalOperand ∧
    decodeHead 0b00000001_10_0_000_0_1 0b00001000_101000_000000_100100_010011 = .bad .illegalOperand := by decide +kernel

/-! ### Decoding -/

/-- R89, R97, R101, R110: one word of each family, written out field by field: tail, then opcode, tail length,
chain, predicate, sense and destination bit. -/
theorem test_words_bit_by_bit :
    [decodeTableWord 48 0b00000001_101000_000000_100100_010011__00001010_10_0_000_0_1,
     decodeTableWord 48 0b00000001_101000_000000_000000_010011__00011010_10_0_000_0_1,
     decodeTableWord 48 0b00000000_101000_000000_100100_010011__00101101_10_0_000_0_1,
     decodeTableWord 48 0b00000001_101000_000000_100100_010011__01001000_10_0_000_0_1,
     decodeTableWord 48 0b00000001_101000_000000_100100_010011__01010110_10_0_000_0_1,
     decodeTableWord 32 0b0000_000000_010011__01100101_01_0_000_0_0,
     decodeTableWord 64 0b00000000000000000000000000000001_0000_101000_000000__01110011_11_0_000_0_1,
     decodeTableWord 64 0b0000000000000000_00000000_000000_000000_000000_000000__10000101_11_0_000_0_0,
     decodeTableWord 64 0b0000000001000000_10100000_000000_000000_000000_000000__10010011_11_0_000_0_0,
     decodeTableWord 64 0b0000000000000000_00010000_000000_000000_000000_010011__10100011_11_0_000_0_0,
     decodeTableWord 64 0b0000000001011010_00000000_000000_010101_000000_010011__10101110_11_0_000_0_0,
     decodeTableWord 64 0b0000000001011010_00000000_000000_010101_000000_010011__10111010_11_0_000_0_0,
     decodeTableWord 48 0b00000001_101000_000000_100100_010011__11000110_10_0_000_0_1,
     decodeTableWord 32 0b0001_000000_000000__11010101_01_0_000_0_0,
     decodeTableWord 48 0b00000000_000000_000000_100100_010011__11100111_10_0_000_0_0,
     decodeTableWord 48 0b00000000_000000_000000_100100_010011__11110011_10_0_000_0_0] =
    [some (.min h0 (.t32 1 (some 24) (.q 0) (.n 20) (.n 3))),
     some (.ctz h0 (.t32 1 (some 24) (.q 0) (.q 0) (.n 3))),
     some (.aligndn h0 (.t32 0 (some 24) (.q 0) (.n 20) (.n 3))),
     some (.fmin h0 (.t32 1 (some 24) (.q 0) (.n 20) (.n 3))),
     some (.fmaxnum h0 (.t32 1 (some 24) (.q 0) (.n 20) (.n 3))),
     some (.calli h0 (.t16 0 (.q 0) (.n 3))),
     some (.crd h0 (.t48l 1 0 (some 24) (.q 0))),
     some (.vsub h0 (.t48x 0 0 none (.q 0) (.q 0) (.q 0))),
     some (.vunpk h0 (.t48x 64 160 none (.q 0) (.q 0) (.q 0))),
     some (.aclr h0 (.t48x 0 16 none (.q 0) (.q 0) (.n 3))),
     some (.mmaE2m3E2m3 h0 (.t48x 90 0 none (.n 5) (.q 0) (.n 3))),
     some (.mmaMxe2m3Mxe2m3 h0 (.t48x 90 0 none (.n 5) (.q 0) (.n 3))),
     some (.aadd h0 (.t32 1 (some 24) (.q 0) (.n 20) (.n 3))),
     some (.fence h0 (.t16 1 (.q 0) (.q 0))),
     some (.decz h0 (.t32 0 none (.q 0) (.n 20) (.n 3))),
     some (.lfind h0 (.t32 0 none (.q 0) (.n 20) (.n 3)))] := by decide +kernel

/-- R89, R101, R110: add to not. -/
theorem test_decode_arithmetic :
    [decodeTableWord 48 0x01A009130181,
     decodeTableWord 48 0x01A009130281,
     decodeTableWord 48 0x01A009130381,
     decodeTableWord 48 0x01A009130481,
     decodeTableWord 48 0x01A159130581,
     decodeTableWord 48 0x01A009130681,
     decodeTableWord 48 0x01A009130781,
     decodeTableWord 48 0x01A000130881,
     decodeTableWord 48 0x01A000130981,
     decodeTableWord 48 0x01A009130A81,
     decodeTableWord 48 0x01A009130B81,
     decodeTableWord 48 0x01A009130C81,
     decodeTableWord 48 0x01A009130D81,
     decodeTableWord 48 0x01A009130E81,
     decodeTableWord 48 0x01A009130F81,
     decodeTableWord 48 0x01A009131081,
     decodeTableWord 48 0x01A009131181,
     decodeTableWord 48 0x01A009131281,
     decodeTableWord 48 0x01A000131381] =
    [some (.add h0 (.t32 1 (some 24) (.q 0) (.n 20) (.n 3))),
     some (.sub h0 (.t32 1 (some 24) (.q 0) (.n 20) (.n 3))),
     some (.mul h0 (.t32 1 (some 24) (.q 0) (.n 20) (.n 3))),
     some (.mulh h0 (.t32 1 (some 24) (.q 0) (.n 20) (.n 3))),
     some (.madd h0 (.t32 1 (some 24) (.n 5) (.n 20) (.n 3))),
     some (.div h0 (.t32 1 (some 24) (.q 0) (.n 20) (.n 3))),
     some (.rem h0 (.t32 1 (some 24) (.q 0) (.n 20) (.n 3))),
     some (.neg h0 (.t32 1 (some 24) (.q 0) (.q 0) (.n 3))),
     some (.abs h0 (.t32 1 (some 24) (.q 0) (.q 0) (.n 3))),
     some (.min h0 (.t32 1 (some 24) (.q 0) (.n 20) (.n 3))),
     some (.max h0 (.t32 1 (some 24) (.q 0) (.n 20) (.n 3))),
     some (.adds h0 (.t32 1 (some 24) (.q 0) (.n 20) (.n 3))),
     some (.subs h0 (.t32 1 (some 24) (.q 0) (.n 20) (.n 3))),
     some (.and h0 (.t32 1 (some 24) (.q 0) (.n 20) (.n 3))),
     some (.or h0 (.t32 1 (some 24) (.q 0) (.n 20) (.n 3))),
     some (.xor h0 (.t32 1 (some 24) (.q 0) (.n 20) (.n 3))),
     some (.andn h0 (.t32 1 (some 24) (.q 0) (.n 20) (.n 3))),
     some (.orn h0 (.t32 1 (some 24) (.q 0) (.n 20) (.n 3))),
     some (.not h0 (.t32 1 (some 24) (.q 0) (.q 0) (.n 3)))] := by decide +kernel

/-- R89, R101, R110: shl to ext. -/
theorem test_decode_bits :
    [decodeTableWord 48 0x01A009131481,
     decodeTableWord 48 0x01A009131581,
     decodeTableWord 48 0x01A009131681,
     decodeTableWord 48 0x01A009131781,
     decodeTableWord 48 0x01A009131881,
     decodeTableWord 48 0x01A000131981,
     decodeTableWord 48 0x01A000131A81,
     decodeTableWord 48 0x01A000131B81,
     decodeTableWord 48 0x01A000131C81,
     decodeTableWord 48 0x01A000131D81,
     decodeTableWord 48 0x00A009131E81,
     decodeTableWord 48 0x00A159131F81,
     decodeTableWord 48 0x00A009132081] =
    [some (.shl h0 (.t32 1 (some 24) (.q 0) (.n 20) (.n 3))),
     some (.shr h0 (.t32 1 (some 24) (.q 0) (.n 20) (.n 3))),
     some (.sar h0 (.t32 1 (some 24) (.q 0) (.n 20) (.n 3))),
     some (.rol h0 (.t32 1 (some 24) (.q 0) (.n 20) (.n 3))),
     some (.ror h0 (.t32 1 (some 24) (.q 0) (.n 20) (.n 3))),
     some (.clz h0 (.t32 1 (some 24) (.q 0) (.q 0) (.n 3))),
     some (.ctz h0 (.t32 1 (some 24) (.q 0) (.q 0) (.n 3))),
     some (.popc h0 (.t32 1 (some 24) (.q 0) (.q 0) (.n 3))),
     some (.brev h0 (.t32 1 (some 24) (.q 0) (.q 0) (.n 3))),
     some (.bswap h0 (.t32 1 (some 24) (.q 0) (.q 0) (.n 3))),
     some (.bfx h0 (.t32 0 (some 24) (.q 0) (.n 20) (.n 3))),
     some (.bfi h0 (.t32 0 (some 24) (.n 5) (.n 20) (.n 3))),
     some (.ext h0 (.t32 0 (some 24) (.q 0) (.n 20) (.n 3)))] := by decide +kernel

/-- R89, R101, R110: cmp to shladd. -/
theorem test_decode_moves :
    [decodeTableWord 48 0x010009132180,
     decodeTableWord 48 0x010009132280,
     decodeTableWord 48 0x01A009132381,
     decodeTableWord 48 0x01A000132481,
     decodeTableWord 64 0x89ABCDE0000025C0,
     decodeTableWord 64 0x89ABCDE00A1326C1,
     decodeTableWord 48 0x01A000132781,
     decodeTableWord 48 0x00A159132881,
     decodeTableWord 48 0x01A009132981,
     decodeTableWord 48 0x01A009132A81,
     decodeTableWord 48 0x01A000002B81,
     decodeTableWord 48 0x00A009132C81,
     decodeTableWord 48 0x00A009132D81,
     decodeTableWord 48 0x01A009132E81,
     decodeTableWord 48 0x01A009132F81,
     decodeTableWord 48 0x01A009133081,
     decodeTableWord 48 0x010009133180,
     decodeTableWord 48 0x01A009133281,
     decodeTableWord 48 0x00A009133381,
     decodeTableWord 48 0x01A000133481,
     decodeTableWord 48 0x01A009133581,
     decodeTableWord 48 0x01A009133681,
     decodeTableWord 48 0x01A009133781,
     decodeTableWord 48 0x01A159133881] =
    [some (.cmp h0 (.t32 1 none (.q 0) (.n 20) (.n 3))),
     some (.test h0 (.t32 1 none (.q 0) (.n 20) (.n 3))),
     some (.sel h0 (.t32 1 (some 24) (.q 0) (.n 20) (.n 3))),
     some (.mov h0 (.t32 1 (some 24) (.q 0) (.q 0) (.n 3))),
     some (.ldi h0 (.t48l 2309737952 0 none (.q 0))),
     some (.ldih h0 (.t48l 2309737952 0 (some 24) (.n 3))),
     some (.ldk h0 (.t32 1 (some 24) (.q 0) (.q 0) (.n 3))),
     some (.lea h0 (.t32 0 (some 24) (.n 5) (.n 20) (.n 3))),
     some (.crc h0 (.t32 1 (some 24) (.q 0) (.n 20) (.n 3))),
     some (.fnv h0 (.t32 1 (some 24) (.q 0) (.n 20) (.n 3))),
     some (.coord h0 (.t32 1 (some 24) (.q 0) (.q 0) (.q 0))),
     some (.alignup h0 (.t32 0 (some 24) (.q 0) (.n 20) (.n 3))),
     some (.aligndn h0 (.t32 0 (some 24) (.q 0) (.n 20) (.n 3))),
     some (.bound h0 (.t32 1 (some 24) (.q 0) (.n 20) (.n 3))),
     some (.bset h0 (.t32 1 (some 24) (.q 0) (.n 20) (.n 3))),
     some (.bclr h0 (.t32 1 (some 24) (.q 0) (.n 20) (.n 3))),
     some (.btst h0 (.t32 1 none (.q 0) (.n 20) (.n 3))),
     some (.binv h0 (.t32 1 (some 24) (.q 0) (.n 20) (.n 3))),
     some (.perm h0 (.t32 0 (some 24) (.q 0) (.n 20) (.n 3))),
     some (.cls h0 (.t32 1 (some 24) (.q 0) (.q 0) (.n 3))),
     some (.absd h0 (.t32 1 (some 24) (.q 0) (.n 20) (.n 3))),
     some (.avg h0 (.t32 1 (some 24) (.q 0) (.n 20) (.n 3))),
     some (.mulw h0 (.t32 1 (some 24) (.q 0) (.n 20) (.n 3))),
     some (.shladd h0 (.t32 1 (some 24) (.n 5) (.n 20) (.n 3)))] := by decide +kernel

/-- R89, R101, R110: fadd to frint. -/
theorem test_decode_floating :
    [decodeTableWord 48 0x01A009134081,
     decodeTableWord 48 0x01A009134181,
     decodeTableWord 48 0x01A009134281,
     decodeTableWord 48 0x01A009134381,
     decodeTableWord 48 0x01A000134481,
     decodeTableWord 48 0x01A159134581,
     decodeTableWord 48 0x01A159134681,
     decodeTableWord 48 0x01A159134781,
     decodeTableWord 48 0x01A009134881,
     decodeTableWord 48 0x01A009134981,
     decodeTableWord 48 0x01A000134A81,
     decodeTableWord 48 0x01A000134B81,
     decodeTableWord 48 0x01A009134C81,
     decodeTableWord 48 0x010009134D80,
     decodeTableWord 48 0x01A000134E81,
     decodeTableWord 48 0x01A000134F81] =
    [some (.fadd h0 (.t32 1 (some 24) (.q 0) (.n 20) (.n 3))),
     some (.fsub h0 (.t32 1 (some 24) (.q 0) (.n 20) (.n 3))),
     some (.fmul h0 (.t32 1 (some 24) (.q 0) (.n 20) (.n 3))),
     some (.fdiv h0 (.t32 1 (some 24) (.q 0) (.n 20) (.n 3))),
     some (.fsqrt h0 (.t32 1 (some 24) (.q 0) (.q 0) (.n 3))),
     some (.fma h0 (.t32 1 (some 24) (.n 5) (.n 20) (.n 3))),
     some (.fms h0 (.t32 1 (some 24) (.n 5) (.n 20) (.n 3))),
     some (.fnma h0 (.t32 1 (some 24) (.n 5) (.n 20) (.n 3))),
     some (.fmin h0 (.t32 1 (some 24) (.q 0) (.n 20) (.n 3))),
     some (.fmax h0 (.t32 1 (some 24) (.q 0) (.n 20) (.n 3))),
     some (.fabs h0 (.t32 1 (some 24) (.q 0) (.q 0) (.n 3))),
     some (.fneg h0 (.t32 1 (some 24) (.q 0) (.q 0) (.n 3))),
     some (.fcpys h0 (.t32 1 (some 24) (.q 0) (.n 20) (.n 3))),
     some (.fcmp h0 (.t32 1 none (.q 0) (.n 20) (.n 3))),
     some (.fclass h0 (.t32 1 (some 24) (.q 0) (.q 0) (.n 3))),
     some (.frint h0 (.t32 1 (some 24) (.q 0) (.q 0) (.n 3)))] := by decide +kernel

/-- R89, R101, R110: fcvt to frsq. -/
theorem test_decode_conversions :
    [decodeTableWord 48 0x01A000135081,
     decodeTableWord 48 0x01A000135181,
     decodeTableWord 48 0x01A000135281,
     decodeTableWord 48 0x01A00C135381,
     decodeTableWord 48 0x01A000135481,
     decodeTableWord 48 0x01A009135581,
     decodeTableWord 48 0x01A009135681,
     decodeTableWord 48 0x01A009135781,
     decodeTableWord 48 0x01A000135881,
     decodeTableWord 48 0x01A000135981,
     decodeTableWord 48 0x01A000135A81,
     decodeTableWord 48 0x01A000135B81] =
    [some (.fcvt h0 (.t32 1 (some 24) (.q 0) (.q 0) (.n 3))),
     some (.fcvti h0 (.t32 1 (some 24) (.q 0) (.q 0) (.n 3))),
     some (.icvtf h0 (.t32 1 (some 24) (.q 0) (.q 0) (.n 3))),
     some (.fcvtn h0 (.t32 1 (some 24) (.q 0) .zero (.n 3))),
     some (.fcvtw h0 (.t32 1 (some 24) (.q 0) (.q 0) (.n 3))),
     some (.fminnum h0 (.t32 1 (some 24) (.q 0) (.n 20) (.n 3))),
     some (.fmaxnum h0 (.t32 1 (some 24) (.q 0) (.n 20) (.n 3))),
     some (.fscale h0 (.t32 1 (some 24) (.q 0) (.n 20) (.n 3))),
     some (.flogb h0 (.t32 1 (some 24) (.q 0) (.q 0) (.n 3))),
     some (.fexp2 h0 (.t32 1 (some 24) (.q 0) (.q 0) (.n 3))),
     some (.frcp h0 (.t32 1 (some 24) (.q 0) (.q 0) (.n 3))),
     some (.frsq h0 (.t32 1 (some 24) (.q 0) (.q 0) (.n 3)))] := by decide +kernel

/-- R89, R101, R110: br to lbrk. -/
theorem test_decode_control :
    [decodeTableWord 64 0x89ABCDE0000060C0,
     decodeTableWord 64 0x89ABCDE0001361C0,
     decodeTableWord 64 0x89ABCDE0001362C0,
     decodeTableWord 32 0x00136340,
     decodeTableWord 64 0x89ABCDE0000064C0,
     decodeTableWord 32 0x00136540,
     decodeTableWord 32 0x00136640,
     decodeTableWord 64 0x89ABCDE0001367C0,
     decodeTableWord 64 0x005A0100001368C0,
     decodeTableWord 16 0x6900] =
    [some (.br h0 (.t48l 2309737952 0 none (.q 0))),
     some (.brz h0 (.t48l 2309737952 0 none (.n 3))),
     some (.brnz h0 (.t48l 2309737952 0 none (.n 3))),
     some (.jmp h0 (.t16 0 (.q 0) (.n 3))),
     some (.call h0 (.t48l 2309737952 0 none (.q 0))),
     some (.calli h0 (.t16 0 (.q 0) (.n 3))),
     some (.ret h0 (.t16 0 (.q 0) (.n 3))),
     some (.loop h0 (.t48l 2309737952 0 none (.n 3))),
     some (.loopr h0 (.t48x 90 1 none (.q 0) (.q 0) (.n 3))),
     some (.lbrk h0 .none)] := by decide +kernel

/-- R89, R101, R110: pand to bkpt. -/
theorem test_decode_predicates_and_system :
    [decodeTableWord 64 0x005A000000006AC0,
     decodeTableWord 64 0x005A000000006BC0,
     decodeTableWord 64 0x005A000000006CC0,
     decodeTableWord 48 0x010000006D80,
     decodeTableWord 48 0x010000136E80,
     decodeTableWord 48 0x010000006F80,
     decodeTableWord 32 0x00137040,
     decodeTableWord 32 0x00137140,
     decodeTableWord 32 0x00137240,
     decodeTableWord 64 0x000000010A0073C1,
     decodeTableWord 64 0x00000001001374C0,
     decodeTableWord 16 0x7500,
     decodeTableWord 16 0x7600,
     decodeTableWord 32 0x00137740,
     decodeTableWord 48 0x00A000007881,
     decodeTableWord 48 0x00A000007981,
     decodeTableWord 32 0x00137A40,
     decodeTableWord 16 0x7B00] =
    [some (.pand h0 (.t48x 90 0 none (.q 0) (.q 0) (.q 0))),
     some (.por h0 (.t48x 90 0 none (.q 0) (.q 0) (.q 0))),
     some (.pxor h0 (.t48x 90 0 none (.q 0) (.q 0) (.q 0))),
     some (.pnot h0 (.t32 1 none (.q 0) (.q 0) (.q 0))),
     some (.pset h0 (.t32 1 none (.q 0) (.q 0) (.n 3))),
     some (.pmov h0 (.t32 1 none (.q 0) (.q 0) (.q 0))),
     some (.trap h0 (.t16 0 (.q 0) (.n 3))),
     some (.syscall h0 (.t16 0 (.q 0) (.n 3))),
     some (.sysret h0 (.t16 0 (.q 0) (.n 3))),
     some (.crd h0 (.t48l 1 0 (some 24) (.q 0))),
     some (.cwr h0 (.t48l 1 0 none (.n 3))),
     some (.halt h0 .none),
     some (.nop h0 .none),
     some (.pause h0 (.t16 0 (.q 0) (.n 3))),
     some (.rdcyc h0 (.t32 0 (some 24) (.q 0) (.q 0) (.q 0))),
     some (.psave h0 (.t32 0 (some 24) (.q 0) (.q 0) (.q 0))),
     some (.pload h0 (.t16 0 (.q 0) (.n 3))),
     some (.bkpt h0 .none)] := by decide +kernel

/-- R89, R101, R110: vshape to vdiv. -/
theorem test_decode_vector_arithmetic :
    [decodeTableWord 64 0x00000000001380C0,
     decodeTableWord 64 0x00000000091381C0,
     decodeTableWord 64 0x00000000091382C0,
     decodeTableWord 64 0x00001200001383C0,
     decodeTableWord 64 0x00000000000084C0,
     decodeTableWord 64 0x00000000000085C0,
     decodeTableWord 64 0x00000000000086C0,
     decodeTableWord 64 0x00000000000087C0,
     decodeTableWord 64 0x00000000000088C0,
     decodeTableWord 64 0x00000000000089C0,
     decodeTableWord 64 0x0000000000008AC0] =
    [some (.vshape h0 (.t48x 0 0 none (.q 0) (.q 0) (.n 3))),
     some (.vld h0 (.t48x 0 0 none (.q 0) (.n 20) (.n 3))),
     some (.vst h0 (.t48x 0 0 none (.q 0) (.n 20) (.n 3))),
     some (.vgath h0 (.t48x 0 18 none (.q 0) (.q 0) (.n 3))),
     some (.vadd h0 (.t48x 0 0 none (.q 0) (.q 0) (.q 0))),
     some (.vsub h0 (.t48x 0 0 none (.q 0) (.q 0) (.q 0))),
     some (.vmul h0 (.t48x 0 0 none (.q 0) (.q 0) (.q 0))),
     some (.vfma h0 (.t48x 0 0 none (.q 0) (.q 0) (.q 0))),
     some (.vmin h0 (.t48x 0 0 none (.q 0) (.q 0) (.q 0))),
     some (.vmax h0 (.t48x 0 0 none (.q 0) (.q 0) (.q 0))),
     some (.vdiv h0 (.t48x 0 0 none (.q 0) (.q 0) (.q 0)))] := by decide +kernel

/-- R89, R101, R110: vcmp to vspop. -/
theorem test_decode_vector_moves :
    [decodeTableWord 64 0x005A010009008BC0,
     decodeTableWord 64 0x0000000000008CC0,
     decodeTableWord 64 0x0000000000008DC0,
     decodeTableWord 64 0x0000000000008EC0,
     decodeTableWord 64 0x0008000000008FC0,
     decodeTableWord 64 0x0010000000008FC0,
     decodeTableWord 64 0x0020000000008FC0,
     decodeTableWord 64 0x00000000000090C0,
     decodeTableWord 64 0x00000000000091C0,
     decodeTableWord 64 0x00400000000092C0,
     decodeTableWord 64 0x0040A000000093C0,
     decodeTableWord 64 0x00000000000094C0,
     decodeTableWord 64 0x00000000000095C0,
     decodeTableWord 64 0x00000000000096C0,
     decodeTableWord 64 0x00000000000097C0,
     decodeTableWord 64 0x00000000000098C0,
     decodeTableWord 64 0x00000000000099C0,
     decodeTableWord 64 0x000000A009009AC1,
     decodeTableWord 64 0x0001000000009AC0,
     decodeTableWord 64 0x200000A0003E9BC1] =
    [some (.vcmp h0 (.t48x 90 1 none (.q 0) (.n 20) (.q 0))),
     some (.vsel h0 (.t48x 0 0 none (.q 0) (.q 0) (.q 0))),
     some (.vredr h0 (.t48x 0 0 none (.q 0) (.q 0) (.q 0))),
     some (.vredc h0 (.t48x 0 0 none (.q 0) (.q 0) (.q 0))),
     some (.vbcastSc h0 (.t48x 8 0 none (.q 0) (.q 0) (.q 0))),
     some (.vbcastRow h0 (.t48x 16 0 none (.q 0) (.q 0) (.q 0))),
     some (.vbcastCol h0 (.t48x 32 0 none (.q 0) (.q 0) (.q 0))),
     some (.vtran h0 (.t48x 0 0 none (.q 0) (.q 0) (.q 0))),
     some (.vcvt h0 (.t48x 0 0 none (.q 0) (.q 0) (.q 0))),
     some (.vpack h0 (.t48x 64 0 none (.q 0) (.q 0) (.q 0))),
     some (.vunpk h0 (.t48x 64 160 none (.q 0) (.q 0) (.q 0))),
     some (.vexp2 h0 (.t48x 0 0 none (.q 0) (.q 0) (.q 0))),
     some (.vlog2 h0 (.t48x 0 0 none (.q 0) (.q 0) (.q 0))),
     some (.vrcp h0 (.t48x 0 0 none (.q 0) (.q 0) (.q 0))),
     some (.vrsq h0 (.t48x 0 0 none (.q 0) (.q 0) (.q 0))),
     some (.vwfu h0 (.t48x 0 0 none (.q 0) (.q 0) (.q 0))),
     some (.vwfm h0 (.t48x 0 0 none (.q 0) (.q 0) (.q 0))),
     some (.vmovsGet h0 (.t48x 0 0 (some 24) (.q 0) (.n 20) (.q 0))),
     some (.vmovsPut h0 (.t48x 1 0 none (.q 0) (.q 0) (.q 0))),
     some (.vspop h0 (.t48x 8192 0 (some 24) (.q 0) (.q 0) (.pop 2)))] := by decide +kernel

/-- R89, R101, R110: tcfg to tring. -/
theorem test_decode_matrix :
    [decodeTableWord 64 0x000000000913A0C0,
     decodeTableWord 64 0x000000000913A1C0,
     decodeTableWord 64 0x000000000913A2C0,
     decodeTableWord 64 0x005A00000013A3C0,
     decodeTableWord 64 0x000010000013A3C0,
     decodeTableWord 64 0x000000015913A4C0,
     decodeTableWord 64 0x000000000913A5C0,
     decodeTableWord 64 0x005A01015913A6C0,
     decodeTableWord 64 0x000000000913A7C0] =
    [some (.tcfg h0 (.t48x 0 0 none (.q 0) (.n 20) (.n 3))),
     some (.tld h0 (.t48x 0 0 none (.q 0) (.n 20) (.n 3))),
     some (.tst h0 (.t48x 0 0 none (.q 0) (.n 20) (.n 3))),
     some (.tzero h0 (.t48x 90 0 none (.q 0) (.q 0) (.n 3))),
     some (.aclr h0 (.t48x 0 16 none (.q 0) (.q 0) (.n 3))),
     some (.tdrain h0 (.t48x 0 0 none (.n 5) (.n 20) (.n 3))),
     some (.tchk h0 (.t48x 0 0 none (.q 0) (.n 20) (.n 3))),
     some (.mmag h0 (.t48x 90 1 none (.n 5) (.n 20) (.n 3))),
     some (.tring h0 (.t48x 0 0 none (.q 0) (.n 20) (.n 3)))] := by decide +kernel

/-- R89, R101, R110: mmaBf16Bf16 to mmaLg6E4m3. -/
theorem test_decode_products :
    [decodeTableWord 64 0x005A00015013A8C0,
     decodeTableWord 64 0x005A00015013A9C0,
     decodeTableWord 64 0x005A00015013AAC0,
     decodeTableWord 64 0x005A00015013ABC0,
     decodeTableWord 64 0x005A00015013ACC0,
     decodeTableWord 64 0x005A00015013ADC0,
     decodeTableWord 64 0x005A00015013AEC0,
     decodeTableWord 64 0x005A00015013AFC0,
     decodeTableWord 64 0x005A00015013B0C0,
     decodeTableWord 64 0x005A00015013B1C0,
     decodeTableWord 64 0x005A00015013B2C0,
     decodeTableWord 64 0x005A00015013B3C0] =
    [some (.mmaBf16Bf16 h0 (.t48x 90 0 none (.n 5) (.q 0) (.n 3))),
     some (.mmaF16F16 h0 (.t48x 90 0 none (.n 5) (.q 0) (.n 3))),
     some (.mmaE4m3E4m3 h0 (.t48x 90 0 none (.n 5) (.q 0) (.n 3))),
     some (.mmaE4m3E5m2 h0 (.t48x 90 0 none (.n 5) (.q 0) (.n 3))),
     some (.mmaE5m2E4m3 h0 (.t48x 90 0 none (.n 5) (.q 0) (.n 3))),
     some (.mmaE5m2E5m2 h0 (.t48x 90 0 none (.n 5) (.q 0) (.n 3))),
     some (.mmaE2m3E2m3 h0 (.t48x 90 0 none (.n 5) (.q 0) (.n 3))),
     some (.mmaE2m1E2m1 h0 (.t48x 90 0 none (.n 5) (.q 0) (.n 3))),
     some (.mmaE2m1E4m3 h0 (.t48x 90 0 none (.n 5) (.q 0) (.n 3))),
     some (.mmaE4m3E2m1 h0 (.t48x 90 0 none (.n 5) (.q 0) (.n 3))),
     some (.mmaLg6Lg6 h0 (.t48x 90 0 none (.n 5) (.q 0) (.n 3))),
     some (.mmaLg6E4m3 h0 (.t48x 90 0 none (.n 5) (.q 0) (.n 3)))] := by decide +kernel

/-- R89, R101, R110: mmaE4m3Lg6 to mmaBf16Lg6. -/
theorem test_decode_mixed_products :
    [decodeTableWord 64 0x005A00015013B4C0,
     decodeTableWord 64 0x005A00015013B5C0,
     decodeTableWord 64 0x005A00015013B6C0,
     decodeTableWord 64 0x005A00015013B7C0,
     decodeTableWord 64 0x005A00015013B8C0,
     decodeTableWord 64 0x005A00015013B9C0,
     decodeTableWord 64 0x005A00015013BAC0,
     decodeTableWord 64 0x005A00015013BBC0,
     decodeTableWord 64 0x005A00015013BCC0,
     decodeTableWord 64 0x005A00015013BDC0,
     decodeTableWord 64 0x005A00015013BEC0,
     decodeTableWord 64 0x005A00015013BFC0] =
    [some (.mmaE4m3Lg6 h0 (.t48x 90 0 none (.n 5) (.q 0) (.n 3))),
     some (.mmaLg6E2m1 h0 (.t48x 90 0 none (.n 5) (.q 0) (.n 3))),
     some (.mmaE2m1Lg6 h0 (.t48x 90 0 none (.n 5) (.q 0) (.n 3))),
     some (.mmaInt8Int8 h0 (.t48x 90 0 none (.n 5) (.q 0) (.n 3))),
     some (.mmaMxe4m3Mxe4m3 h0 (.t48x 90 0 none (.n 5) (.q 0) (.n 3))),
     some (.mmaMxe2m1Mxe2m1 h0 (.t48x 90 0 none (.n 5) (.q 0) (.n 3))),
     some (.mmaMxe2m3Mxe2m3 h0 (.t48x 90 0 none (.n 5) (.q 0) (.n 3))),
     some (.mmaMxe2m1Mxe4m3 h0 (.t48x 90 0 none (.n 5) (.q 0) (.n 3))),
     some (.mmaMxe4m3Mxe2m1 h0 (.t48x 90 0 none (.n 5) (.q 0) (.n 3))),
     some (.mmaMxe5m2Mxe5m2 h0 (.t48x 90 0 none (.n 5) (.q 0) (.n 3))),
     some (.mmaBf16E4m3 h0 (.t48x 90 0 none (.n 5) (.q 0) (.n 3))),
     some (.mmaBf16Lg6 h0 (.t48x 90 0 none (.n 5) (.q 0) (.n 3)))] := by decide +kernel

/-- R89, R101, R110: ld to act. -/
theorem test_decode_memory :
    [decodeTableWord 48 0x01A00913C081,
     decodeTableWord 48 0x01015913C180,
     decodeTableWord 48 0x01A00913C281,
     decodeTableWord 48 0x01015913C380,
     decodeTableWord 48 0x01A00013C481,
     decodeTableWord 48 0x08A00013C481,
     decodeTableWord 48 0x01000913C580,
     decodeTableWord 48 0x08000913C580,
     decodeTableWord 48 0x01A00913C681,
     decodeTableWord 48 0x01A00913C781,
     decodeTableWord 48 0x01A00913C881,
     decodeTableWord 48 0x01A00913C981,
     decodeTableWord 48 0x01A00913CA81,
     decodeTableWord 48 0x01A00913CB81,
     decodeTableWord 48 0x01A00913CC81,
     decodeTableWord 48 0x01A15913CD81,
     decodeTableWord 64 0x89ABCDE00013CEC0] =
    [some (.ld h0 (.t32 1 (some 24) (.q 0) (.n 20) (.n 3))),
     some (.st h0 (.t32 1 none (.n 5) (.n 20) (.n 3))),
     some (.ldp h0 (.t32 1 (some 24) (.q 0) (.n 20) (.n 3))),
     some (.stp h0 (.t32 1 none (.n 5) (.n 20) (.n 3))),
     some (.ldx h0 (.t32 1 (some 24) (.q 0) (.q 0) (.n 3))),
     some (.ldxTag h0 (.t32 8 (some 24) (.q 0) (.q 0) (.n 3))),
     some (.stx h0 (.t32 1 none (.q 0) (.n 20) (.n 3))),
     some (.stxTag h0 (.t32 8 none (.q 0) (.n 20) (.n 3))),
     some (.aadd h0 (.t32 1 (some 24) (.q 0) (.n 20) (.n 3))),
     some (.aand h0 (.t32 1 (some 24) (.q 0) (.n 20) (.n 3))),
     some (.aor h0 (.t32 1 (some 24) (.q 0) (.n 20) (.n 3))),
     some (.axor h0 (.t32 1 (some 24) (.q 0) (.n 20) (.n 3))),
     some (.amin h0 (.t32 1 (some 24) (.q 0) (.n 20) (.n 3))),
     some (.amax h0 (.t32 1 (some 24) (.q 0) (.n 20) (.n 3))),
     some (.aswap h0 (.t32 1 (some 24) (.q 0) (.n 20) (.n 3))),
     some (.acas h0 (.t32 1 (some 24) (.n 5) (.n 20) (.n 3))),
     some (.act h0 (.t48l 2309737952 0 none (.n 3)))] := by decide +kernel

/-- R89, R101, R110: rld to rldb. -/
theorem test_decode_remote :
    [decodeTableWord 64 0x000000A00013CFC1,
     decodeTableWord 64 0x000000000913D0C0,
     decodeTableWord 64 0x000000000913D1C0,
     decodeTableWord 64 0x000000000913D2C0,
     decodeTableWord 64 0x000000A15913D3C1,
     decodeTableWord 64 0x000000000913D4C0,
     decodeTableWord 32 0x1000D540,
     decodeTableWord 32 0x1000D640,
     decodeTableWord 48 0x00015913D780,
     decodeTableWord 32 0x0913D840,
     decodeTableWord 32 0x0913D940,
     decodeTableWord 64 0x005A01000913DAC0,
     decodeTableWord 64 0x005A00000913DBC0] =
    [some (.rld h0 (.t48x 0 0 (some 24) (.q 0) (.q 0) (.n 3))),
     some (.rst h0 (.t48x 0 0 none (.q 0) (.n 20) (.n 3))),
     some (.rred h0 (.t48x 0 0 none (.q 0) (.n 20) (.n 3))),
     some (.rredRk h0 (.t48x 0 0 none (.q 0) (.n 20) (.n 3))),
     some (.rcas h0 (.t48x 0 0 (some 24) (.n 5) (.n 20) (.n 3))),
     some (.rsax h0 (.t48x 0 0 none (.q 0) (.n 20) (.n 3))),
     some (.fence h0 (.t16 1 (.q 0) (.q 0))),
     some (.fenceXp h0 (.t16 1 (.q 0) (.q 0))),
     some (.cswap h0 (.t32 0 none (.n 5) (.n 20) (.n 3))),
     some (.gset h0 (.t16 0 (.n 20) (.n 3))),
     some (.gclr h0 (.t16 0 (.n 20) (.n 3))),
     some (.rfill h0 (.t48x 90 1 none (.q 0) (.n 20) (.n 3))),
     some (.rldb h0 (.t48x 90 0 none (.q 0) (.n 20) (.n 3)))] := by decide +kernel

/-- R89, R101, R110: send to srctlRewind. -/
theorem test_decode_queues :
    [decodeTableWord 64 0x005A00000913E0C0,
     decodeTableWord 32 0x1013E140,
     decodeTableWord 64 0x89ABCDE00000E1C0,
     decodeTableWord 48 0x00A00013E281,
     decodeTableWord 48 0x00A00013E381,
     decodeTableWord 64 0x000000015913E4C0,
     decodeTableWord 48 0x00A00013E581,
     decodeTableWord 48 0x00000913E680,
     decodeTableWord 48 0x00000913E780,
     decodeTableWord 64 0x123400015913E8C0,
     decodeTableWord 64 0x005A00A00913E9C1,
     decodeTableWord 48 0x01000913EA80,
     decodeTableWord 48 0x01000013EB80,
     decodeTableWord 48 0x01A00000EC81,
     decodeTableWord 48 0x12A00000EC81,
     decodeTableWord 48 0x20A00000EC81] =
    [some (.send h0 (.t48x 90 0 none (.q 0) (.n 20) (.n 3))),
     some (.yield h0 (.t16 1 (.q 0) (.n 3))),
     some (.yieldImm h0 (.t48l 2309737952 0 none (.q 0))),
     some (.cmask h0 (.t32 0 (some 24) (.q 0) (.q 0) (.n 3))),
     some (.cunmask h0 (.t32 0 (some 24) (.q 0) (.q 0) (.n 3))),
     some (.fork h0 (.t48x 0 0 none (.n 5) (.n 20) (.n 3))),
     some (.join h0 (.t32 0 (some 24) (.q 0) (.q 0) (.n 3))),
     some (.post h0 (.t32 0 none (.q 0) (.n 20) (.n 3))),
     some (.decz h0 (.t32 0 none (.q 0) (.n 20) (.n 3))),
     some (.rngput h0 (.t48x 4660 0 none (.n 5) (.n 20) (.n 3))),
     some (.rngget h0 (.t48x 90 0 (some 24) (.q 0) (.n 20) (.n 3))),
     some (.osub h0 (.t32 1 none (.q 0) (.n 20) (.n 3))),
     some (.srset h0 (.t32 1 none (.q 0) (.q 0) (.n 3))),
     some (.srctlQuery h0 (.t32 1 (some 24) (.q 0) (.q 0) (.q 0))),
     some (.srctlStop h0 (.t32 18 (some 24) (.q 0) (.q 0) (.q 0))),
     some (.srctlRewind h0 (.t32 32 (some 24) (.q 0) (.q 0) (.q 0)))] := by decide +kernel

/-- R89, R101, R110: tbinit to launch. -/
theorem test_decode_barriers_and_lifeline :
    [decodeTableWord 48 0x00000913ED80,
     decodeTableWord 48 0x00000913EE80,
     decodeTableWord 48 0x00000913EF80,
     decodeTableWord 48 0x00A00913F081,
     decodeTableWord 48 0x00A00913F181,
     decodeTableWord 48 0x00A00913F281,
     decodeTableWord 48 0x00000913F380,
     decodeTableWord 48 0x00000913F480,
     decodeTableWord 48 0x00000913F580,
     decodeTableWord 48 0x00000913F680,
     decodeTableWord 48 0x01000913F680,
     decodeTableWord 48 0x02000913F680,
     decodeTableWord 48 0x08000913F780] =
    [some (.tbinit h0 (.t32 0 none (.q 0) (.n 20) (.n 3))),
     some (.tbarr h0 (.t32 0 none (.q 0) (.n 20) (.n 3))),
     some (.tbexp h0 (.t32 0 none (.q 0) (.n 20) (.n 3))),
     some (.tbwait h0 (.t32 0 (some 24) (.q 0) (.n 20) (.n 3))),
     some (.tbwaitB h0 (.t32 0 (some 24) (.q 0) (.n 20) (.n 3))),
     some (.tbtest h0 (.t32 0 (some 24) (.q 0) (.n 20) (.n 3))),
     some (.lfind h0 (.t32 0 none (.q 0) (.n 20) (.n 3))),
     some (.lput h0 (.t32 0 none (.q 0) (.n 20) (.n 3))),
     some (.lrel h0 (.t32 0 none (.q 0) (.n 20) (.n 3))),
     some (.lstatRead h0 (.t32 0 none (.q 0) (.n 20) (.n 3))),
     some (.lstatConfig h0 (.t32 1 none (.q 0) (.n 20) (.n 3))),
     some (.lstatClose h0 (.t32 2 none (.q 0) (.n 20) (.n 3))),
     some (.launch h0 (.t32 8 none (.q 0) (.n 20) (.n 3)))] := by decide +kernel

/-! ### Witnesses: the hypotheses of the statements about instructions -/

/-- `Reads` of the tail `t32 m` in `w0`. -/
theorem reads0 (cl : LitClass) (m : BitVec 8) : Issues w0 h0 ∧ Reads cl w0 (t32 m) 0x8000 3 0 (bundle w0) :=
  ⟨⟨rfl, rfl⟩, rfl⟩

theorem witness_integerArithmetic : ∃ st, Issues w0 h0 ∧
    Reads (.int (tailSigned (t32 4))) w0 (t32 4) 0x8000 3 0 st :=
  ⟨_, reads0 _ _⟩

theorem witness_integerBits : ∃ st, (Issues w0 h0 ∧ Reads (.int (tailSigned (t32 0))) w0 (t32 0) 0x8000 3 0 st) ∧
    tailM (t32 0) % 4 = 0 := ⟨_, reads0 _ _, by decide⟩

theorem witness_movesAndHashes : (∀ k, k < 4 → Issues w0 h0 ∧
    Reads (.int false) w0 (t32 (BitVec.ofNat 8 k)) 0x8000 3 0
    (bundle w0) ∧ tailM (t32 (BitVec.ofNat 8 k)) % 4 = k) ∧ w0.launch (me w0).lslot = some launch0 :=
  ⟨fun k hk => ⟨(reads0 (.int false) 0).1, (reads0 _ (BitVec.ofNat 8 _)).2, by interval_cases k <;> decide⟩, rfl⟩

theorem witness_predicates : ∀ k, k < 4 → Issues w0 h0 ∧
    Reads (.int false) w0 (t32 (BitVec.ofNat 8 (8 * k))) 0x8000 3 0
    (bundle w0) ∧ tailM (t32 (BitVec.ofNat 8 (8 * k))) / 8 % 4 = k :=
  fun k hk => ⟨(reads0 (.int false) 0).1, (reads0 _ (BitVec.ofNat 8 _)).2, by interval_cases k <;> decide⟩

theorem witness_floating : Issues w0 h0 ∧ Reads .fp w0 (t32 0) 0x8000 3 0 (bundle w0) := reads0 _ _

theorem witness_fcvtn : tailM (t32 0x10) / 16 < 2 ∧ 2 ≤ tailM (t32 0x20) / 16 := by decide

/-- A T48-L tail whose literal names head 2 of this line. -/
def tBr : Tail := .t48l 2 0 none (.n 20)

theorem witness_targets : immTarget 0x10002 (BitVec.ofInt 32 (-(2 ^ 10) * 32 + 31)) = 62 := by decide +kernel

theorem witness_targetOdd : checkTarget w0 0 0x10003 = refuses .badTarget := by decide +kernel

theorem witness_targetStart : checkTarget w0 0 0x10040 = refuses .badTarget := by decide +kernel

theorem witness_targetPage : checkTarget w0 0 (2 ^ 48 + 2) = refuses .page := by decide +kernel

theorem witness_targetLine : checkTarget w0 0 0x10042 = refuses .badLine := by decide +kernel

theorem witness_targetHead : checkTarget w0 0 0x10004 = refuses .badTarget := by decide +kernel

theorem witness_targetGood : checkTarget w0 0 0x10002 = .ok := by decide +kernel

/-- A T48-L tail whose literal names head 1 of the line, and whose operand is register `r`. -/
def tL (m : BitVec 4) (r : BitVec 5) : Tail := .t48l 1 m none (.n r)

theorem readsL (m : BitVec 4) : (Issues w0 h0 ∧ Reads (.int false) w0 (tL m 30) 0x10002 1 0 (bundle w0)) ∧
    Reads (.int false) w0 (tL m 0) 0 1 0 (bundle w0) := ⟨⟨⟨rfl, rfl⟩, rfl⟩, rfl⟩

theorem witness_transfers : immTarget (bundle w0).at_ (tailLit (tL 0 30)) = 0x10002 ∧
    checkTarget w0 w0.cur 0x10002 = .ok ∧
    (me w0).leavesBody (bundle w0).bpc 0x10002 = false := by decide +kernel

/-- Context 0 of `w0` changed. -/
def wc (f : Ctx → Ctx) : State := { w0 with ctxs := [(0, f ctx0)] }

/-- `w0` in system mode. -/
def wSys : State := wc (fun c => { c with status := 0x8000 })

/-- `w0` at its second line, in a loop level of that line alone. -/
def wLoop : State := wc (fun c => { c with
  pc := 0x10042, loops := [⟨0x10042, 0x10082⟩], lc := Vector.replicate 3 1 })

theorem witness_lbrk : Issues wLoop h0 ∧ (me wLoop).innermost = some (0, ⟨0x10042, 0x10082⟩) ∧
    0x10042 ≤ (bundle wLoop).bpc ∧ (bundle wLoop).bpc < 0x10082 := ⟨⟨rfl, rfl⟩, rfl, by decide, by decide⟩

/-- The literal of `t2` names a line that is not valid, and register 3 an address at a line start. -/
def t2 : Tail := .t48l 0x21 0 none (.n 3)

theorem witness_transferFaults : (Issues w0 h0 ∧ Reads (.int false) w0 t2 0x8000 0x21 0 (bundle w0)) ∧
    checkTarget w0 w0.cur (immTarget (bundle w0).at_ (tailLit t2)) = refuses .badLine ∧
    checkTarget w0 w0.cur 0x8000 = refuses .badTarget := ⟨⟨⟨rfl, rfl⟩, rfl⟩, by decide +kernel⟩

theorem witness_badLoop : (Issues wLoop h0 ∧
    Reads (.int false) wLoop (.t48l (-31) 0 none (.n 30)) 0x10002 0xFFFFFFE1 0 (bundle wLoop)) ∧
    checkTarget wLoop 0 (immTarget (bundle wLoop).at_ (-31)) = .ok ∧ checkTarget wLoop 0 0x10002 = .ok ∧
    (me wLoop).leavesBody (bundle wLoop).bpc 0x10002 = true := ⟨⟨⟨rfl, rfl⟩, rfl⟩, by decide +kernel⟩

theorem witness_badLevel : checkTarget w0 0 (immTarget (bundle w0).at_ (tailLit (tL 1 30))) = .ok ∧
    tailM (tL 1 30) % 4 ≠ (me w0).loops.length ∧ (me w0).loops = [] ∧
        (me w0).status.getLsbD 15 = false := by decide +kernel

/-- `w0` with a second and a third line of two heads each. -/
def wLines : State := { w0 with
  mem := memWrite (memWrite w0.mem (keyScratch 0 0x10040) (bytesLE 2 0x1000 ++ List.replicate 62 0))
    (keyScratch 0 0x10080) (bytesLE 2 0x1000 ++ List.replicate 62 0) }

/-- A tail whose literal names head 2 of the second line. -/
def tOut : Tail := .t48l 0x22 0 none (.n 20)

theorem witness_loop : (Issues wLines h0 ∧ Reads (.int false) wLines tOut 3 0x22 0 (bundle wLines)) ∧
    tailM tOut % 4 = (me wLines).loops.length ∧ (me wLines).innermost = none ∧
    checkTarget wLines 0 (immTarget (bundle wLines).at_ 0x22) = .ok ∧
    loopReaches wLines 0 (immTarget (bundle wLines).at_ 0x22) 257 wLines.after 0 = .ok true :=
  ⟨⟨⟨rfl, rfl⟩, rfl⟩, by decide +kernel, by decide +kernel, by decide +kernel, rfl⟩

theorem witness_loopr : (match loopAfter wLines 0 257 wLines.after 1 with | .ok (some _) => true | _ => false) = true ∧
    Reads (.int false) wLines (.t48x 1 0 none .zero .zero (.n 20)) 3 0 0 (bundle wLines) :=
  ⟨by decide +kernel, rfl⟩

theorem witness_loopLine : 0x10002 / 64 = 0x10040 / 64 - 1 ∧ 0x10042 / 64 = 0x1007C / 64 ∧
    0x10042 < 0x1007C := by decide

theorem witness_system : (Issues wSys h0 ∧ Reads (.int false) wSys (tL 0 30) 0x10002 1 0 (bundle wSys)) ∧
    (me wSys).status.getLsbD 15 = true ∧ checkTarget wSys 0 0x10002 = .ok := ⟨⟨⟨rfl, rfl⟩, rfl⟩, by decide +kernel⟩

theorem witness_crd : ∀ i ∈ [0, 1, 2, 3, 4, 5, 0x100, 0x101, 0x102],
    (tailLit (.t48l (BitVec.ofNat 32 i) 0 (some 24) (.q 0))).toNat = i := by decide

/-- Tile 0 of `w0` changed. -/
def wt (f : Tile → Tile) : State := { w0 with tiles := [(0, f Tile.reset)] }

/-- `w0` whose TLB maps page 0x10000 to the own vault, 0x10001 to the vault of tile 1, writable. -/
def wv : State := wt (fun x => { x with tlb :=
  [⟨0, false, 0x10000, 0x2000000000030001, 0⟩, ⟨0, false, 0x10001, 0x2000000100030001, 0⟩] })

/-- `wv` with a value in register 3 and one in register 20. -/
def wr2 (a b : Word) : State := { wv with ctxs := [(0, { ctx0 with n := (ctx0.n.set 3 a).set 20 b })] }

/-- `wr2` with bytes at 0x8000. -/
def wb (a b : Word) (bs : List Byte) : State := { wr2 a b with mem := memWrite w0.mem (keyScratch 0 0x8000) bs }

/-- Register 3 alone, register 20, register 20 again. -/
def tA : Tail := .t32 0 (some 24) (.q 0) (.q 0) (.n 3)

def tAB : Tail := .t32 0 (some 24) (.q 0) (.n 20) (.n 3)

theorem readsA (a : Word) (bs : List Byte) : (Issues (wb a 0 bs) h0 ∧
    Reads (.int false) (wb a 0 bs) tA a 0 0 (bundle (wb a 0 bs))) :=
  ⟨⟨rfl, rfl⟩, rfl⟩

theorem readsAB (a b : Word) (bs : List Byte) :
    (Issues (wb a b bs) h0 ∧ Reads (.int false) (wb a b bs) tAB a b 0 (bundle (wb a b bs))) := ⟨⟨rfl, rfl⟩, rfl⟩

theorem witness_loads : Readable w0 .plain (loadAddr tA 0x8000 0) 8 8 ⟨keyScratch 0 0x8000, 0⟩ ∧
    Readable w0 .plain (loadAddr tA 0x8000 0) 16 16 ⟨keyScratch 0 0x8000, 0⟩ :=
  ⟨⟨rfl, by decide +kernel⟩, ⟨rfl, by decide +kernel⟩⟩

theorem witness_vaultLoads : Readable wv .plain (2 ^ 32 + 8) 8 8 ⟨keyVault 0 3 8, 0⟩ ∧
    locate wv 0 .plain (2 ^ 32 + 0x10000) 8 8 false = .error ⟨.remoteVault, none, false⟩ :=
  ⟨⟨rfl, by decide +kernel⟩, rfl⟩

theorem witness_loadStalls : (let s := wt (fun _ => { (wv.tile 0) with remap := [(3, { Remap.reset 3 with busy := true })] })
    stalled s (keyVault 0 3 8) = true) ∧
    (let s := wt (fun x => { x with guardBits := [(0x100, true)] })
     stalled s (keyScratch 0 0x8000) = false ∧ guarded s (keyScratch 0 0x8000) 8 = true) ∧
    (let s := wt (fun x => { x with poison := [(0x800, true)] })
     injRead s (keyScratch 0 0x8000) = false ∧
         covered (ownStores s (me s) (bundle s)) (keyScratch 0 0x8000) 8 = false ∧
     poisoned s (keyScratch 0 0x8000) 8 = true) := by decide +kernel

theorem witness_loadStale : (let s := { w0 with mem := memWrite w0.mem (keyScratch 0 0x1E0406) [1] }
    staleAt s 0 (tagOf s 0 0) = true ∧ guarded s (keyScratch 0 0x8000) 8 = false) := by decide +kernel

theorem witness_stores : locate w0 0 .plain (storeAddr tA 0x8000 0) 8 8 true = .ok ⟨keyScratch 0 0x8000, 0⟩ ∧
    isPrivate (me w0) 0x8000 8 = false ∧ isPrivate (me w0) Config.frameBase 16 = true ∧
    Writable w0 ⟨keyScratch 0 Config.frameBase, 0⟩ 16 ∧
    locate w0 0 .plain Config.frameBase 16 16 true = .ok ⟨keyScratch 0 Config.frameBase, 0⟩ :=
  ⟨rfl, by decide +kernel, by decide +kernel, ⟨by decide +kernel, by decide +kernel, by decide +kernel⟩, rfl⟩

theorem witness_physical : (Issues wSys h0 ∧ Reads (.int false) wSys tA 0x8000 0 0 (bundle wSys)) ∧
    (me wSys).status.getLsbD 15 = true ∧ (me w0).status.getLsbD 15 = false ∧
    (0x8000 % 8 = 0 ∧ 0x8000 < Config.tableArea ∧ stalled wSys (keyScratch 0 0x8000) = false ∧
      injRead wSys (keyScratch 0 0x8000) = false ∧ poisoned wSys (keyScratch 0 0x8000) 8 = false) ∧
    (Config.tableArea % 8 = 0 ∧ Config.tableArea ≤ 2 ^ 21 - 8 ∧ (2 ^ 63 + 2 ^ 29 - 128) % 128 = 0) :=
  ⟨⟨⟨rfl, rfl⟩, rfl⟩, by decide +kernel⟩

theorem witness_remote : (∀ a b, (Issues (wb a b []) h0 ∧
    Reads (.int false) (wb a b []) tAB a b 0 (bundle (wb a b [])))) ∧
    locate wv 0 .remote (2 ^ 32 + 0x10000) 8 8 false = .ok ⟨keyVault 1 3 0, 1⟩ ∧
    locate wv 0 .reduce (2 ^ 32 + 0x10000) 32 4 true = .ok ⟨keyVault 1 3 0, 1⟩ ∧
    (∃ l, locate wv 0 .remoteL 0x8000 16 16 true = .ok l) ∧ barOperand wv 0 .tileLocal .zero 0 = .ok none ∧
    barOperand wv 0 .tileLocal (.n 20) 0x9000 = .ok (some ⟨0, 0x9000⟩) :=
  ⟨fun a b => readsAB a b [], rfl, rfl, ⟨_, rfl⟩, rfl, rfl⟩

theorem witness_remoteL : Readable wv .remoteL 0x8000 16 16 ⟨keyScratch 0 0x8000, 0⟩ ∧
    (rNB tAB = false ∧ rNB (.t48x 0 0x80 none .zero (.n 20) (.n 3)) = true) :=
  ⟨⟨rfl, by decide +kernel⟩, by decide⟩

theorem witness_fences : (me w0).guard = none ∧ (∃ l, locate wv 0 .plain (2 ^ 32) 1 1 false = .ok l ∧
    isVault l.key = true) ∧
    (∃ l, locate wv 0 .plain 0x8000 1 1 false = .ok l ∧ isVault l.key = false) ∧
    (∃ e, locate wv 0 .plain (2 ^ 21) 1 1 false = .error e) ∧ swapPage wv 0 (2 ^ 32) = .ok 3 :=
  ⟨rfl, ⟨_, rfl, by decide +kernel⟩, ⟨_, rfl, by decide +kernel⟩, ⟨_, rfl⟩, rfl⟩

theorem witness_guardForms : (0x8000 % 128 = 0 ∧ 0x8000 + 128 * 511 ≤ Config.tableArea) ∧
    genV (genEntry wSys 0 (me wSys).asid) = true ∧ (∃ l, locate wSys 0 .windows 0x8000 (128 * 2) 128 true = .ok l) ∧
    ∀ x ∈ granules 0 0x8000 2, 128 * x.2 < Config.tableArea := ⟨by decide +kernel, by decide +kernel, ⟨_, rfl⟩,
        by decide +kernel⟩

theorem witness_pendingGuard : (let s := wc (fun c => { c with guard := some (0x8000, 0x8000, 0), n := c.n.set 3 0x8000 })
    (Issues s h0 ∧ (me s).guard = some (0x8000, 0x8000, 0) ∧ Reads (.int false) s tA 0x8000 0 0 (bundle s) ∧
    ∃ l, locate s 0 .shared 0x8000 16 16 false = .ok l)) := ⟨⟨rfl, rfl⟩, rfl, rfl, _, rfl⟩

theorem witness_places : (let w : Word := 0x1001000
    ((w &&& 0xFFFFFFC0C0E0000F) = 0 ∧ inRect launch0.record 1 = true) ∧ (0x1 &&& 0xFFFFFFC0C0E0000F : Word) ≠ 0 ∧
    ((0x20000000 : Word).extractLsb' 24 6).toInt = -32) := by decide

theorem witness_send : (∃ p, placeOf w0 0 .zero 0 true = .ok p) ∧
    Readable w0 .tileLocal 0x8000 255 8 ⟨keyScratch 0 0x8000, 0⟩ :=
  ⟨⟨_, rfl⟩, rfl, by decide +kernel⟩

theorem witness_fork : (0x10002 % 2 = 0 ∧ 0x10002 % 64 ≠ 0) ∧ (∃ l, locate w0 0 .shared 0x8000 8 8 true = .ok l) ∧
    plainOk w0 0x8000 8 = true := ⟨by decide, ⟨_, rfl⟩, by decide +kernel⟩

/-- A card of a task at 0x10002 with a join counter at 0x8008 of tile 0. -/
def card0 : List Byte := bytesLE 6 0x10002 ++ bytesLE 2 0x2000 ++ bytesLE 4 0x1001 ++ List.replicate 20 0

theorem witness_post : Readable (wb 0x8000 0 card0) .tileLocal 0x8000 32 16 ⟨keyScratch 0 0x8000, 0⟩ ∧
    (let s := wb 0x8000 0 card0
     seen s (bundle s) (keyScratch 0 0x8000) 32 = card0 ∧ (cardTrigger card0 0).join = some (0, 0x8008) ∧
     cardFault s 0 (cardTrigger card0 0) card0 = none) := ⟨⟨rfl, by decide +kernel⟩, by decide +kernel⟩

theorem witness_rngput : Readable w0 .tileLocal 0x8000 255 8 ⟨keyScratch 0 0x8000, 0⟩ ∧
    Readable w0 .tileLocal 0x8000 (64 * (1 + 1)) 64 ⟨keyScratch 0 0x8000, 0⟩ ∧
        w0.queues[15]? = some ⟨0, 0xFFF0000 + 8192 * 15, 0, 0, [], []⟩ :=
  ⟨⟨rfl, by decide +kernel⟩, ⟨rfl, by decide +kernel⟩, rfl⟩

/-- A ring of 256 bytes at 0x8100 with this producer and consumer count. -/
def rcb0 (pi ci : Nat) : List Byte := bytesLE 4 0x8100 ++ [8, 0, 0,
    0] ++ bytesLE 8 pi ++ bytesLE 8 ci ++ List.replicate 8 0

theorem witness_rngget : Readable (wb 0x8000 0 (rcb0 8 0)) .shared 0x8000 32 16 ⟨keyScratch 0 0x8000, 0⟩ ∧
    (let s := wb 0x8000 0 (rcb0 8 0)
     (rcbOf (seen s (bundle s) (keyScratch 0 0x8000) 32)).map (fun r => r.pi != r.ci) = some true) ∧
    (let s := wb 0x8000 0 (rcb0 8 8)
     (rcbOf (seen s (bundle s) (keyScratch 0 0x8000) 32)).map (fun r => r.pi == r.ci) = some true) ∧
    (∃ l, locate w0 0 .tileLocal 0x9000 0 8 true = .ok l) ∧
        (∃ l, Readable (wb 0x8000 0 (rcb0 8 0)) .tileLocal 0x8100 4 4 l) :=
  ⟨⟨rfl, by decide +kernel⟩, by decide +kernel, by decide +kernel, ⟨_, rfl⟩, ⟨keyScratch 0 0x8100, 0⟩, rfl,
      by decide +kernel⟩

/-- A ring with one record of this header. -/
def ring0 (hdr : Nat) (pi : Nat) : List Byte := rcb0 pi 0 ++ List.replicate 0xE0 0 ++ bytesLE 4 hdr ++ [1, 2, 3, 4]

theorem witness_ringRecords : (∀ e ∈ [((4 : Nat), (8 : Nat)), (0x10000, 8), (0x10004, 8)],
    let s := wb 0x8000 0 (ring0 e.1 e.2)
    natLE (seen s (bundle s) (keyScratch 0 0x8100) 4) = e.1) ∧
    (∃ l, Readable w0 .tileLocal 0x8104 4 1 l) ∧
    (∃ st, storeBytes w0 0 0xE9 tA 0x9000 [1, 2, 3, 4] 8 (bundle w0) = .ok st) ∧
    (∃ st, storeBytes w0 0 0xE9 tA 0x8010 (bytesLE 8 8) 8 (bundle w0) = .ok st) :=
  ⟨by decide +kernel, ⟨⟨keyScratch 0 0x8104, 0⟩, rfl, by decide +kernel⟩, ⟨_, rfl⟩, ⟨_, rfl⟩⟩

theorem witness_srset : Readable w0 .plain 0x8000 32 16 ⟨keyScratch 0 0x8000, 0⟩ ∧
    (∃ x, streamOf (List.replicate 12 0 ++ [1] ++ List.replicate 19 0) = some x ∧ indexOk (me w0) 7 x = true) :=
  ⟨⟨rfl, by decide +kernel⟩, _, rfl, by decide +kernel⟩

theorem witness_barriers : (∃ l, locate w0 0 .shared 0x8000 16 16 true = .ok l) ∧
    (∃ l, locate w0 0 .shared 0x8000 16 16 false = .ok l) ∧
    (me w0).guard = none ∧ plainOk w0 0x8000 16 = true ∧ (∃ p, placeOf w0 0 (.n 3) 0x8000 false = .ok p) ∧
    tailM (.t32 0 none .zero .zero (.n 3)) / 16 % 2 = 0 ∧ tailM (.t32 16 none .zero .zero (.n 3)) / 16 % 2 = 1 :=
  ⟨⟨_, rfl⟩, ⟨_, rfl⟩, rfl, by decide +kernel, ⟨_, rfl⟩, by decide, by decide⟩

/-- `w0` with a capability of every right in slot 1, named by CTX_CAP, and bytes at 0x8000. -/
def wCap (bs : List Byte) (sys : Bool) : State := { w0 with
  mem := memWrite (memWrite w0.mem (keyScratch 0 0x8000) bs) (keyScratch 0 0x1E0004) (bytesLE 4 0xFF000000)
  ctxs := [(0, { ctx0 with cap := 0x100, status := if sys then 0x8000 else 0 })] }

theorem witness_lifeline : (∀ bs, Issues (wCap bs true) h0 ∧
    Reads (.int false) (wCap bs true) tA 0x8000 0 0 (bundle (wCap bs true))) ∧
    barOperand (wCap [] true) 0 .shared .zero 0 = .ok none ∧
        capFault (wCap [] true) 0 (me (wCap [] true)) 27 = none ∧
    (∃ x, locate (wCap [] true) 0 .shared 0x8000 64 64 true = .ok x) ∧
    Readable (wCap [] true) .shared 0x8000 64 64 ⟨keyScratch 0 0x8000, 0⟩ :=
  ⟨fun _ => ⟨⟨rfl, rfl⟩, rfl⟩, rfl, by decide +kernel, ⟨_, rfl⟩, rfl, by decide +kernel⟩

theorem witness_lifelineBlocks : findBlockOk false (List.replicate 32 0) = true ∧
    findBlockOk true (List.replicate 32 0) = true ∧
    putBlockOk (List.replicate 13 0 ++ [2, 0, 0] ++ List.replicate 8 0 ++ [32] ++ List.replicate 39 0) = true ∧
    configBlockOk ([63, 4, 0, 0, 1] ++ List.replicate 59 0) = true := by decide +kernel

theorem witness_matrix : (Issues (wCap [] false) h0 ∧
    Reads (.int false) (wCap [] false) (.t48x 1 0 none .zero .zero .zero) 0 0 0
      (bundle (wCap [] false))) ∧ placeTile (wCap [] false) 0 0 0 = some 0 ∧
          capFault (wCap [] false) 0 (me (wCap [] false)) 25 = none ∧
    cfgOk 0 = true ∧ tldDesc false (List.replicate 32 0) = none ∧ tldDesc true (List.replicate 32 0) = none ∧
    (groupCounts 0 8).sum ≤ 64 ∧ tringDesc ([0, 0, 0, 0, 1] ++ List.replicate 59 0) = none ∧
    Readable (wCap [] false) .plain 0x8000 64 8 ⟨keyScratch 0 0x8000, 0⟩ :=
  ⟨⟨⟨rfl, rfl⟩, rfl⟩, rfl, by decide +kernel, by decide +kernel, by decide +kernel, by decide +kernel,
      by decide +kernel,
    by decide +kernel, rfl, by decide +kernel⟩

/-- `wb` with a shape of two rows and two columns of `e` bytes, and a stream that holds two values in record 0. -/
def wVec (e : Nat) (a b : Word) : State := { wb a b [] with ctxs := [(0, { ctx0 with
  n := (ctx0.n.set 3 a).set 20 b, vshape := BitVec.ofNat 14 (Shape.mk 2 2 e).code
  streams := (Vector.replicate 8 Stream.idle).set 0 { Stream.idle with
    count := 2, fetched := 2, queue := [(7, none), (8, none)] } })] }

/-- A vector tail of this TYPE. -/
def tV (ty : BitVec 4) : Tail := .t48x 0 (ty ++ 0#4) (some 24) (.q 0) (.n 20) (.n 3)

theorem witness_vector : (∀ e a b, Issues (wVec e a b) h0 ∧
    Reads (.int false) (wVec e a b) (tV 0) a b 0 (bundle (wVec e a b))) ∧
    tyBytes (vTy (tV 0)) = (me (wVec 4 0 0)).shape.e ∧ vcls (vTy (tV 0)) = some .fp ∧
    tyBytes (vTy (tV 1)) = (me (wVec 4 0 0)).shape.e ∧ vcls (vTy (tV 1)) ≠ some .fp ∧
    tyBytes (vTy (tV 0)) ≠ (me (wVec 1 0 0)).shape.e :=
  ⟨fun _ _ _ => ⟨⟨rfl, rfl⟩, rfl⟩, by decide +kernel⟩

theorem witness_vectorMoves : vshapeOk 0x3FFF = false ∧ vshapeOk (Shape.mk 16 64 1).code = true ∧
    (let x := (me (wVec 4 0 0)).shape
     15 % 16 ≥ x.nr ∧ 0x100 / 256 % 16 < x.nr ∧ 0x41 % 64 < x.nc ∧ x.nc ≤ 16 ∧ x.nr ≤ 64 ∧
         x.nc * x.nr * x.e ≤ 1024) := by decide +kernel

theorem witness_vspop : ∃ vs st1, popMany (me (wVec 4 0 0)) 0 4 (bundle (wVec 4 0 0)) = .ok (vs, st1) ∧
    vs = [7, 8] :=
  ⟨_, _, rfl, rfl⟩

theorem witness_vectorReductions : (Shape.mk 2 2 (tyBytes (vDTy (tV 0)))).ok = true ∧
    (me (wVec 4 0 0)).shape.e = 4 ∧
    (me (wVec 4 0 0)).shape.nc % 2 = 0 ∧ (Shape.mk 2 (2 * 4 / 8) 1).ok = true ∧ (me (wVec 1 0 0)).shape.e = 1 ∧
    (packFmt 5).bits = 4 ∧ (Shape.mk 2 (2 * 8 / 4) 4).ok = true := by decide +kernel

theorem witness_vectorMemory : (let s := wVec 4 0x8000 8
    ∃ ls vs st1, checkElems s 0 4 false [0x8000, 0x8004, 0x8008, 0x800C] = .ok ls ∧
      loadElems s 0 4 [0x8000, 0x8004, 0x8008, 0x800C] (bundle s) = .ok (vs, st1)) := ⟨_, _, _, rfl, rfl⟩

theorem witness_vst : (let s := wVec 4 0x8000 8
    ∃ ls st1, checkElems s 0 4 true [0x8000, 0x8004] = .ok ls ∧
      vstDirect s 0 4 (me s) (([0x8000, 0x8004] : List Nat).zip (ls.zip [[1, 2, 3, 4], [5, 6, 7,
          8]])) (bundle s) = .ok st1) ∧
    isPrivate (me w0) 0x8000 4 = false ∧ isPrivate (me w0) Config.frameBase 4 = true := ⟨⟨_, _, rfl, rfl⟩,
        by decide +kernel⟩

theorem witness_vectorFaults : (let s := wVec 4 (Config.tableArea - 4) 8
    vecAddrs (me s).shape (BitVec.ofNat 64 (Config.tableArea - 4)) 8 = [Config.tableArea - 4] ++ Config.tableArea ::
      [Config.tableArea + 4, Config.tableArea + 8] ∧
    ∃ l e, locate s 0 .plain (Config.tableArea - 4) 4 4 true = .ok l ∧
        locate s 0 .plain Config.tableArea 4 4 true = .error e) :=
  ⟨by decide +kernel, _, _, rfl, rfl⟩

theorem witness_sources : (let r : Stream := { Stream.idle with count := 1, fetched := 1, queue := [(7, none)] }
    r.queue[0]? = some (7, none) ∧ r.queue[1]? = none ∧ r.count ≤ r.fetched) ∧ isIndexSource ctx0 0 = false ∧
    (let r : Stream := { Stream.idle with count := 1 }
     r.queue[0]? = none ∧ r.fetched < r.count) := by decide +kernel

theorem witness_falseGuard : guardHolds ctx0 ⟨7, false, false⟩ = false ∧ ctx0.st = .run ∧
    ∃ F, instrParts (.add ⟨7, false, false⟩ (t32 0)) = some (F, ⟨7, false, false⟩, t32 0) := ⟨rfl, rfl, _, rfl⟩

theorem witness_frame : h0.chain = false ∧ (me w0).stage = none ∧ (me w0).loops = [] ∧ (me w0).q.length = 16 ∧
    tailSigned (t32 4) = true ∧ Instr.add h0 (t32 4) ∈ intInstrs h0 (t32 4) ∧
        Instr.fadd h0 (t32 0) ∈ fpInstrs h0 (t32 0) := by decide +kernel

theorem witness_loopBack : (let s := { wLoop with after := 0x10082 }
    (me s).innermost = some (0, ⟨0x10042, 0x10082⟩) ∧ ((me s).lc.toList.getD 0 0).toNat ≤ 1 ∧ s.after = 0x10082 ∧
    0x10042 ≤ (bundle s).bpc ∧ (bundle s).bpc < 0x10082) ∧ (me wLoop).innermost = some (0, ⟨0x10042, 0x10082⟩) ∧
    wLoop.after ≠ 0x10082 ∧ (me w0).innermost = none ∧ (bundle w0).acts = [] ∧ (bundle w0).xfer = none ∧
    (bundle w0).loopOpen = none ∧ (bundle w0).cregs = [] ∧ (bundle w0).link = none := by decide +kernel

theorem witness_effects : ((me w0).held.map Effect.size).sum + (mkEffect 0xC1 tA 0 0x8000 [1] []).size ≤ 4096 ∧
    (let c := { ctx0 with held := [mkEffect 0xC1 tA 0 0x8000 (List.replicate 4080 0) []] }
     4096 < (c.held.map Effect.size).sum + (mkEffect 0xC1 tA 0 0x8000 [1] []).size) := by decide +kernel

theorem witness_normalEnd : (Issues w0 h0 ∧ Reads (.int false) w0 tA 0x8000 0 0 (bundle w0)) ∧
    Reads (.int false) w0 (.t32 0 none .zero .zero (.n 0)) 0 0 0 (bundle w0) ∧ h0.chain = false ∧
        (me w0).stage = none ∧
    (me w0).twin = none ∧ (me w0).faulted = none ∧
        (me w0).guard = none := ⟨⟨⟨rfl, rfl⟩, rfl⟩, rfl, rfl, rfl, rfl, rfl, rfl⟩

/-- `w0` with a trap vector and a save pointer that serve. -/
def wTrap (sys : Bool) : State := wc (fun c => { c with
  trapvec := 0x10002, saveptr := 0xC000, status := if sys then 0x8000 else 0 })

theorem witness_trap : ∃ l, locate (wTrap false) 0 .plain (me (wTrap false)).saveptr.toNat 64 64 true = .ok l ∧
    trapWaits (wTrap false) 0 = false ∧ guarded (wTrap false) l.key 64 = false ∧
    staleAt (wTrap false) l.home (tagOf (wTrap false) 0 0) = false ∧ (me (wTrap false)).status.getLsbD 15 = false ∧
    checkTarget (trapped (wTrap false) 0 ⟨.bkpt, 1, none, false, false, false, 0, 0x10002, 0x10002, 0,
        none⟩ l) 0 0x10002 = .ok :=
  ⟨_, rfl, by decide +kernel, by decide +kernel, by decide +kernel, by decide +kernel, by decide +kernel⟩

theorem witness_nested : (me (wTrap true)).status.getLsbD 15 = true ∧ (me (wTrap true)).twin = none ∧
    (me (wTrap true)).guard = none ∧
    (wTrap true).launch (me (wTrap true)).lslot = some launch0 := ⟨by decide, rfl, rfl, rfl⟩

/-- The base with the turn of context 0. -/
def wTurn : State := { w0 with agenda := [.ctx 0] }

theorem witness_step : (let s := wTurn
    let u := { tick s with agenda := [] }
    let b := oneHeadLine 0x0181 0x1A00913
    pickCtx u 0 = some 0 ∧ lineNow (noteIssue { u with cur := 0 } 0) 0 0x10002 = .line b ∧ (u.ctx 0).stage = none ∧
        (u.ctx 0).trapDue = none ∧ lineValid b = true ∧ isBundleStart b 1 = true ∧
        bundleLast b 3 1 ≤ natAt b 0 2 / 2048 ∧
    decodeLineHead b 1 = .ok (.add h0 (.t32 1 (some 24) (.q 0) (.n 20) (.n 3))) ∧ (u.ctx 0).st = .run ∧ s.mgmt.power ≠ .removed) := by decide +kernel

theorem witness_encode : (Instr.add h0 (t32 0)).wf = true ∧
    (encode (Instr.add h0 (t32 0))).isSome = true := by decide +kernel

/-! ### Single steps, with results worked out from the rules -/

/-- The newest value of the result queue of context 0. -/
def top (o : Host.Outcome State Fault Refusal) : Option Word :=
  match o with
  | .next s => (s.ctx 0).q.head?
  | _ => none

/-- Context 0 after a step. -/
def ctxOf (o : Host.Outcome State Fault Refusal) : Option Ctx :=
  match o with
  | .next s => some (s.ctx 0)
  | _ => none

/-- R143: 127 + 1 in 8 signed bits is -128. -/
theorem test_add_wraps : top (exec (.add h0 (t32 7)) (wr2 0x7F 1)) = some 0xFFFFFFFFFFFFFF80 := by decide +kernel

/-- R146: a division by zero pushes 2^W - 1, a remainder its dividend. -/
theorem test_div_zero : top (exec (.div h0 (t32 1)) (wr2 5 0)) = some 0xFFFFFFFF ∧
    top (exec (.rem h0 (t32 1)) (wr2 5 0)) = some 5 := by decide +kernel

/-- R145: the most negative number divided by -1 wraps. -/
theorem test_div_overflow : top (exec (.div h0 (t32 7)) (wr2 0x80 0xFF)) = some 0xFFFFFFFFFFFFFF80 := by decide +kernel

/-- R145: the high half of a product of two 64-bit numbers without sign. -/
theorem test_mulh : top (exec (.mulh h0 (t32 0)) (wr2 0xFFFFFFFFFFFFFFFF 0xFFFFFFFFFFFFFFFF)) = some 0xFFFFFFFFFFFFFFFE := by decide +kernel

/-- R145: saturation at both ends of 8 signed bits. -/
theorem test_adds : top (exec (.adds h0 (t32 7)) (wr2 0x7F 0x7F)) = some 0x7F ∧
    top (exec (.subs h0 (t32 7)) (wr2 0x80 1)) = some 0xFFFFFFFFFFFFFF80 := by decide +kernel

/-- R145: a shift amount is taken modulo W. -/
theorem test_shl : top (exec (.shl h0 (t32 2)) (wr2 1 17)) = some 2 := by decide +kernel

/-- R154: 1.5 + 0.5 = 2.0; R158: class 6 of a positive normal number. -/
theorem test_fadd : top (exec (.fadd h0 (t32 0)) (wr2 0x3FC00000 0x3F000000)) = some 0x40000000 ∧
    top (exec (.fclass h0 tA) (wr2 0x3FC00000 0)) = some 0x40 := by decide +kernel

/-- R160: the number 2.5 rounds to even. -/
theorem test_fcvti : top (exec (.fcvti h0 (.t32 0x50 (some 24) (.q 0) (.q 0) (.n 3))) (wr2 0x40200000 0)) = some 2 := by decide +kernel

/-- R262: a load of two bytes, little-endian, with sign. -/
theorem test_load : top (exec (.ld h0 (.t32 6 (some 24) (.q 0) (.q 0) (.n 3))) (wb 0x8000 0 [0x01, 0x80])) =
    some 0xFFFFFFFFFFFF8001 := by decide +kernel

/-- R174, R406: SYSCALL sets SYS, continues at the trap vector and records its code. -/
theorem test_syscall : (ctxOf (exec (.syscall h0 (.t16 0 (.q 0) (.n 20))) (wTrap false))).map (fun c =>
    (c.pc, c.status.getLsbD 15)) = some (0x10002, true) := by decide +kernel

/-- R163: RET to zero releases the activation. -/
theorem test_ret_zero : (ctxOf (exec (.ret h0 (.t16 0 (.q 0) (.n 0))) w0)).map (fun c => c.st) = some .releasing := by decide +kernel

/-- R162: a branch to its own head. -/
theorem test_br : (ctxOf (exec (.br h0 (.t48l 1 0 none (.q 0))) w0)).map (fun c => c.pc) = some 0x10002 := by decide +kernel

/-- R91: a false guard pushes zero. -/
theorem test_false_guard : top (exec (.add ⟨1, false, false⟩ (t32 0)) (wr2 5 6)) = some 0 := by decide +kernel

/-- R193: two rows of two 32-bit elements, each plus one. -/
theorem test_vadd : (ctxOf (exec (.vadd h0 (.t48x 0x0008 0x10 none (.q 0) (.n 20) (.q 0))) (wVec 4 0 1))).map (fun c =>
    (natLE (denseRead c.v 0 4), natLE (denseRead c.v 12 4))) = some (1, 1) := by decide +kernel

/-! ### Witnesses: the hypotheses of the statements about events -/

/-- The event argument of home or unit `k`, with index `i`. -/
def ev0 (k i : Nat) : EventArg := { EventArg.none with who := k, idx := i }

/-- A packet to tile 0 with this work, in order at its home. -/
def pk (w : Work) : Packet := ⟨1, 0, 0, 0, 0, 0, 64, false, false, false, .none, w, .inbox, [.ejected],
  0, 0, 0, none, none, false, 0, false, false, 0⟩

/-- `w0` with tile 0 changed, an event argument, and packet 3 in the inbox of tile 0. -/
def wp (w : Work) (f : Tile → Tile) : State := { wt f with pkts := [(3, pk w)], inbox := [(0, 3)], ev := ev0 0 0 }

theorem wp_item (w : Work) (f : Tile → Tile) : item (wp w f) 0 0 = some (3, pk w) := rfl

/-- The key of 0x8000 in tile 0. -/
def k0 : Nat := keyScratch 0 0x8000

theorem witness_homeStore : (k0 < 2 ^ 60 ∧ ([1] : List Byte) ≠ [] ∧ homeTile (k0 + 0) = homeTile k0) ∧
    (let s := wp (.store k0 0x8000 [1] (some (0, 0)) false) id
     stalled s k0 = false ∧ staleAt s 0 (some (0, 0)) = false ∧ staleAt s 0 (some (0, 1)) = true ∧
         pageOff s k0 = false ∧
     guarded s k0 1 = false ∧ injRead s k0 = false ∧ poisoned s k0 8 = false ∧
         (pk (.store k0 0 [] none false)).poison = false) ∧
    guarded (wp (.store k0 0x8000 [1] none false) (fun x => { x with guardBits := [(0x100, true)] })) k0 1 = true ∧
    pageOff (wp (.store k0 0x8000 [1] none false) (fun x => { x with remap := [(3, { Remap.reset 3 with v := false })] }))
      (keyVault 0 3 0) = true ∧
    storeWf false ((wp (.guardBits true [1]) id).tile 0).guardBits = true := by decide +kernel

theorem witness_merge : (let s := { wt (fun x => { x with merge := [⟨k0, [1, 2], 5⟩] }) with ev := ev0 0 0 }
    (s.tile 0).merge = [⟨k0, [1, 2], 5⟩] ∧ s.MemOk ∧ ∀ j, j < 2 → homeTile (k0 + j) = 0) := by decide +kernel

/-- A message of class 0 for launch slot `l`. -/
def msg0 (l : Nat) : Trigger := Trigger.plain .msg 0 l [1]

theorem witness_messages : hasHandler (wp (.msg (msg0 1)) id) (msg0 1) = false ∧
    (let s := { wp (.msg (msg0 0)) id with launches := [(0, { launch0 with desc := List.replicate 256 255 })] }
     hasHandler s { msg0 0 with cls := 1 } = true ∧ (s.tile 0).arrival.length < 256) := by decide +kernel

/-- A task record at 0x10002 for launch 0. -/
def task0 : Trigger := Trigger.plain .task 0x10002 0 [1]

theorem witness_deques : (let s := wp (.task task0) id
    (s.tile 0).pushWait = [] ∧ ((s.tile 0).deques.getD task0.eff []).length < 256 + 4096) ∧
    (wp (.task task0) (fun x => { x with pushWait := [(task0, 3)] })).tile 0 = { Tile.reset with pushWait := [(task0, 3)] } := by decide +kernel

theorem witness_decz : (let s (n : Nat) : State := { wp (.decz 0x8000 0 none) id with mem := memWrite w0.mem k0 (bytesLE 4 n) }
    natLE (visRead (s 0) k0 4) = 0 ∧ natLE (visRead (s 1) k0 4) = 1 ∧ natLE (visRead (s 2) k0 4) = 2 ∧
    ((s 1).tile 0).ready.length < 512) ∧ 0x8000 + 48 ≤ Config.tableArea := by decide +kernel

theorem witness_ready : (let s (c : List Byte) : State := { wt (fun x => { x with ready := [(0x800, 0)] }) with
      mem := memWrite w0.mem (k0 + 16) c }
    keyScratch 0 (16 * 0x800 + 16) = k0 + 16 ∧
        (cardTrigger (visRead (s card0) (k0 + 16) 32) 0).join = some (0, 0x8008) ∧
    (cardTrigger (visRead (s (bytesLE 6 0x10002)) (k0 + 16) 32) 0).join = none) := by decide +kernel

theorem witness_barrierUnit : (let v : BarVal := ⟨15, 2 ^ 20 - 1, 2 ^ 32 - 1, 2 ^ 20 - 1, true, 7, 2 ^ 24 - 1⟩
    barVal (barBits v) = v) ∧ 0x8000 + 16 ≤ Config.tableArea := by decide +kernel

theorem witness_rings : (let s (pi : Nat) : State := { wp (.ringPut ⟨0x8000, 4, [1, 2, 3, 4], none, 0, 0, 0⟩) id with
      mem := memWrite w0.mem k0 (rcb0 pi 0) }
    (rcbOf (visRead (s 0) k0 32)).isSome = true ∧ (∀ x ∈ ((s 0).tile 0).puts, x.rcb ≠ 0x8000) ∧
    (match ringPut (s 0) 0 ⟨0x8000, 4, [1, 2, 3, 4], none, 0, 0, 0⟩ with | .written _ => true | _ => false) = true ∧
    (match ringPut (s 256) 0 ⟨0x8000, 4, [1, 2, 3, 4], none, 0, 0,
        0⟩ with | .hold => true | _ => false) = true) := by decide +kernel

theorem witness_launchQueue : (let w : LaunchWrite := ⟨0, List.replicate 128 0, none, 0, 3⟩
    let q : LaunchQueue := ⟨0, 0xFFF0000, 0, 63, [w], []⟩
    (q.held = w :: [] ∧ q.writeIdx < 64 ∧ q.held[0]? = some w)) ∧
    (let w : LaunchWrite := ⟨0, List.replicate 128 0, none, 0, 3⟩
     let s := wp (.launchRec w) id
     s.queues[0]? = some ⟨0, 0xFFF0000, 0, 0, [], []⟩ ∧
         (recordItems s ⟨0, 0xFFF0000, 0, 0, [], []⟩ 0)[0]? = some (3, w, 0)) := by decide +kernel

/-- `w0` with tile 0 changed, more contexts and an event argument. -/
def we (f : Tile → Tile) (cs : List (Nat × Ctx)) (e : EventArg) : State := { wt f with ctxs := cs, ev := e }

/-- A tile with a task at the head of its deque of priority 0. -/
def xTask (x : Tile) : Tile := { x with deques := [[task0], [], [], []] }

theorem witness_dispatch : (let s := we xTask [] (ev0 0 15)
    (s.tile 0).staging = [] ∧ choose s 0 = some (.deque 0 0, task0) ∧ s.launch task0.lslot = some launch0 ∧
    (trigSlots s 0 task0)[15 % (trigSlots s 0 task0).length]? = some (3, some 15) ∧
        farPages (s.tile 0) task0.hints = [] ∧
    (∀ e ∈ readyAll (s.tile 0), e.2.passes < 64) ∧
        (.deque 0 0, task0) ∈ takeable (s.tile 0) (readyAll (s.tile 0))) ∧
    farPages Tile.reset [(1023, 2)] = [1024] := by decide +kernel

theorem witness_staging : (let s := we (fun x => { x with staging := [(task0, 3, [0, 12])] }) [] (ev0 0 0)
    (s.tile 0).staging = [] ++ (task0, 3, 0 :: [12]) :: [] ∧ s.launch task0.lslot = some launch0 ∧
    launch0.state = .running ∧ farPages (s.tile 0) task0.hints = [] ∧ ∀ e ∈ (s.tile 0).staging, e.1.passes < 64) ∧
    (let tr : Trigger := { task0 with hints := [(3, 1)] }
     let s := we (fun x => { x with deques := [[tr], [], [], []], remap := [(3, { Remap.reset 3 with layer := 5 })] }) [] (ev0 0 0)
     choose s 0 = some (.deque 0 0, tr) ∧ farPages (s.tile 0) tr.hints = [3] ∧ tr.staged = false) := by decide +kernel

theorem witness_start : task0.payload.length ≤ 224 ∧ task0.origin = false ∧ memWf w0.mem = true := by decide +kernel

theorem witness_steal : (let s := we id [] (ev0 0 0)
    idle s 0 = true ∧ (s.tile 0).stealing = false ∧ (s.tile 0).lastVictim < 56) ∧
    (let s := { we xTask [] (ev0 0 0) with steals := [.request 8 0] }
     stealFrom s 0 8 = some (0, 0) ∧ ((s.tile 0).deques.getD 0 [])[0]? = some task0) ∧
    stealFrom (we id [] (ev0 0 0)) 0 8 = none ∧ (xTask Tile.reset).deques.length = 4 ∧
        task0.eff < 4 := by decide +kernel

/-- A group of one effect of one part. -/
def gr0 (acc : Bool) : Group := ⟨0, [mkEffect 0xC1 tA 0 0x8000 [1] [(0, .store k0 0x8000 [1] none false)]], acc, true⟩

theorem witness_groups : (gr0 false).accepted = false ∧ (gr0 true).accepted = true ∧
    ({ ctx0 with groups := [gr0 false] }).groups = [gr0 false] ∧
    (gr0 true).effects = [mkEffect 0xC1 tA 0 0x8000 [1] [(0, .store k0 0x8000 [1] none false)]] := by decide +kernel

theorem witness_ended : (let c := { ctx0 with st := .releasing }
    endedAll (wc (fun _ => c)) 0 = true ∧ c.cont = none) ∧
    (let s := we id [(0, { ctx0 with st := .releasing, cont := some task0 })] (ev0 0 0)
     contReady s 0 = some (0, task0) ∧ (s.tile 0).conts.length < 64) := by decide +kernel

theorem witness_span : (let s (a b : Bool) : State := we id [(0, { ctx0 with twin := some 12, groups := [gr0 a] }),
      (12, { ctx0 with twin := some 0, isTwin := true, groups := if b then [gr0 true] else [] })] (ev0 0 0)
    spanOf (s true true) 0 = some (0, 12) ∧ groupHash (gr0 true) = groupHash (gr0 true) ∧
    ((s true false).ctx 0).groups.any (·.accepted) = true ∧ ((s true false).ctx 12).groups = []) ∧
    groupHash (gr0 true) ≠ groupHash ⟨0, [], true, true⟩ := by decide +kernel

theorem witness_joinSub : (let s := we (fun x => { x with joinSubs := [(0, 0x8000, true, 5)] }) [] (ev0 0 0)
    (s.tile 0).joinSubs = [(0, 0x8000, true, 5)] ∧ ∀ p ∈ s.pkts, p.2.owner ≠ .act 5) := by decide +kernel

theorem witness_stackGrow : (let c := { ctx0 with st := .wait, waiting := .stackGrow 0, stackPages := 2, mapped := 1 }
    c.waiting = .stackGrow 0 ∧ c.mapped < c.stackPages) ∧
        ctx0.stackPages ≤ { ctx0 with mapped := 1 }.mapped := by decide

theorem witness_save : (let c := { ctx0 with saveDue := true }
    c.saveDue = true ∧ c.st = .run ∧ c.stage = none) ∧
        { ctx0 with st := .wait, waiting := .join 0 }.waiting = .join 0 := by decide

theorem witness_image : ∃ l,
    locate (wc (fun c => { c with saveptr := 0xC000 })) 0 .plain 0xC000 16384 16384 true = .ok l := ⟨_, rfl⟩

theorem witness_restore : (let c := { ctx0 with st := .saved }
    c.st = .saved ∧ c.isTwin = false ∧ c.twin = none ∧ launch0.state = .running ∧
        freeFor (we id [(0, c)] (ev0 0 1)) 1 = true) := by decide +kernel

theorem witness_timeout : { ctx0 with st := .wait, waiting := .reply 3 }.waiting = .reply 3 ∧
    ({ ctx0 with trig := some { task0 with join := some (0, 0x8000) } }).trig.bind (·.join) = some (0,
        0x8000) := by decide

/-- A launch on tile 0 alone. -/
def launchOne : Launch := { launch0 with record := List.replicate 128 0 }

theorem witness_gang : (let l := { launchOne with state := .admission }
    let s := { we id [] (ev0 0 0) with launches := [(0, l)] }
    l.state = .admission ∧ ∀ t ∈ rectTiles l, (gangOn s l t).isSome = true) := by decide +kernel

theorem witness_launchDone : (let s := { we id [] (ev0 0 0) with launches := [(0, launchOne)] }
    launchDone s 0 launchOne = true ∧ stalled s launchOne.statusKey = false ∧ pinsWait s 0 = false ∧
      launchDone { s with pkts := [(3, { pk .nothing with owner := .act 5, place := .done })] } 0 launchOne = true ∧
      launchDone { s with pkts := [(3, { pk .nothing with owner := .act 5 })] } 0 launchOne = false ∧
      launchOne.statusKey < 2 ^ 60 ∧ pageOff (dropPins (ackDropped s 0) 0) launchOne.statusKey = false) ∧ { launchOne with lookup := [1] }.lookup ≠ [] ∧
        launchOne.gang = false := by decide +kernel

/-- `w0` with a record in slot 0 of launch queue 0: it names the state of `State.reset`. -/
def wRec (r : List Byte) : State := { we id [] (ev0 0 0) with
  mem := memWrite w0.mem (slotKey ⟨0, 0xFFF0000, 0, 0, [], []⟩ 0) (r ++ [1]), launches := [] }

theorem witness_record : (let q : LaunchQueue := ⟨0, 0xFFF0000, 0, 0, [], []⟩
    let s := wRec (List.replicate 127 0)
    s.queues[0]? = some q ∧ taking s = true ∧ stalled s (slotKey q 0) = false ∧ injRead s (slotKey q 0) = false ∧
    poisoned s (slotKey q 0) 128 = false ∧
        natLE (visRead s (slotKey q 0 + 127) 1) = 0 % 255 + 1) := by decide +kernel

theorem witness_judge : recordOk ([0, 0, 8] ++ List.replicate 125 0) = false ∧
    recordOk ([1, 0, 1] ++ List.replicate 125 0) = true ∧
        rectOk (wRec []) ([1, 0, 1] ++ List.replicate 125 0) = false ∧
    recordOk (List.replicate 128 0) = true ∧ rectOk (wRec []) (List.replicate 128 0) = true := by decide +kernel

/-- A remote request of one 8-byte element at 0x8000 of tile 0. -/
def rq (opc ctl : Nat) : RemoteReq := ⟨opc, 0, ctl, k0, some (0, 0), 1, 16, 5, none, none, none, 0, [], 0, 3⟩

theorem witness_agent : ∀ opc ∈ [0xCF, 0xD0, 0xD1, 0xD2, 0xD3, 0xD4, 0xDA, 0xDB],
    (let s := wp (.remote (rq opc 0)) id
    oldestReq (agentQueue s 0) = some (3, pk (.remote (rq opc 0)), rq opc 0) ∧ (s.tile 0).agent = none ∧
    staleAt s 0 (rq opc 0).tag = false ∧ pageOff s k0 = false ∧ rowHeld s k0 (nextSpan (rq opc 0)) = false ∧
        pageBusy s k0 = false ∧
    injRead s k0 = false ∧ ∀ j, j < 2 → poisoned s (k0 + 8 * j) 8 = false) := by decide +kernel

theorem witness_agentHeld : (let o : AgentOp := ⟨rq 0xDA 3, 0, 0, [], false⟩
    let s := we (fun x => { x with agent := some o }) [] (ev0 0 0)
    (s.tile 0).agent = some o ∧ rowHeld s (k0 + 32 * 0) 32 = false ∧ o.next + 1 < o.req.count ∧
        o.req.bar = none) := by decide +kernel

theorem witness_ranked : (let r := { rq 0xD2 0 with v := 0x20000 }
    1 < r.ranks ∧ (let e := Ranked.opened r 0
      e.meets r = true ∧ e.takes r = true ∧ ({ e with got := [(0, r)] } : Ranked).takes r = false ∧
      e.got.length + 1 ≠ e.n ∧ ({ e with got := [(1, r)] } : Ranked).got.length + 1 = e.n)) := by decide +kernel

theorem witness_agentResume : (let o : AgentOp := ⟨rq 0xCF 0, 0, 0, [], true⟩
    let s := we (fun x => { x with agent := some o }) [] (ev0 0 0)
    (s.tile 0).agent = some o ∧ rowHeld s (k0 + 0) (nextSpan o.req) = false ∧
        pageBusy s k0 = false) := by decide +kernel

theorem witness_agentRepair : (let s := wp (.remote { rq 0xCF 0 with key := keyVault 0 3 0 }) (fun x => { x with repair := some ⟨0, 0, 6⟩ })
    rowHeld s (keyVault 0 3 0) (nextSpan (rq 0xCF 0)) = true) := by decide +kernel

/-- The last reply of a blocking RLD of activation 5. -/
def rep0 (st : Nat) (p : Bool) : Reply := ⟨{ rq 0xCF 0 with tile := 0 }, st, 1, 0, [], [], 7, true, p⟩

theorem witness_replies : (let s := { wp (.reply (rep0 0 false)) id with ctxs := [(0, { ctx0 with
      st := .wait, waiting := .reply 0, stage := some { Stage.start 0x10002 0 with acts := [.awaitReply none none] } })] }
    replyGuarded s (rep0 0 false) = false ∧ awaiting (replyWrites (finish s 3 none) (rep0 0 false)) 5 = [0] ∧
    (rep0 0 false).req.nb = false ∧ { (rep0 0 false).req with modf := 128 }.nb = true) := by decide +kernel

/-- A matrix command of launch 0. -/
def mc0 (opc ctl : Nat) : MatCmd := ⟨opc, 0, ctl, 0, 0, true, 0, 0x100, false, 0, 0, [], 0, 0, 0, none⟩

/-- `w0` whose matrix unit runs a command, with its registers. -/
def wm (c : Current) (u : MatUnit) : State := we (fun x => { x with matrix := ⟨u, some 0, [], some c, 0, []⟩ }) [] (ev0 0 0)

def cu0 (opc ctl : Nat) : Current := ⟨7, mc0 opc ctl, 0, 0, 0, [], false, 0, false⟩

theorem witness_matrixQueue : (let s := { we (fun x => { x with matrix := ⟨MatUnit.clear, none, [mc0 0xA0 0], none, 0, []⟩ }) [] (ev0 0 0) with
      mem := (wCap [] false).mem }
    mayTake (s.tile 0).matrix (mc0 0xA0 0) = true ∧ imageOf s 0 0 = none ∧ arrivalFault s 0 (mc0 0xA0 0) = none ∧
    arrivalFault w0 0 (mc0 0xA0 0) = some Cause.capability.code) := by decide +kernel

theorem witness_matrixSteps : ∀ o ∈ [0xA0, 0xA1, 0xA2, 0xA3, 0xA4, 0xA5, 0xA6, 0xA7],
    stepOf (wm (cu0 o 0) MatUnit.clear) o = some (cu0 o 0) := by decide +kernel

theorem witness_matrixGates : (let s := wm { (cu0 0xA1 0) with cmd := { mc0 0xA1 0 with desc := bytesLE 8 0x8000 ++ List.replicate 24 0 } } MatUnit.clear
    ∃ c l, stepOf s 0xA1 = some c ∧
        stepGate s 0 c (joinPieces (spanPieces s 0 c.cmd.asid false (tldSpans c.cmd 0 0).1)) (cfgRsz 0) = .go l) := ⟨_, _, rfl, rfl⟩

theorem witness_matrixStop : (let s := wm { (cu0 0xA1 0) with cmd := { mc0 0xA1 0 with desc := bytesLE 8 (2 ^ 21) ++ List.replicate 24 0 } } MatUnit.clear
    ∃ c k, stepOf s 0xA1 = some c ∧
        stepGate s 0 c (joinPieces (spanPieces s 0 c.cmd.asid false (tldSpans c.cmd 0 0).1)) (cfgRsz 0) = .stop k) := ⟨_, _, rfl, rfl⟩

theorem witness_matrixHold : (let s := we (fun x => { x with thermal := .hold, matrix := ⟨MatUnit.clear, some 0, [], some (cu0 0xA1 0), 0, []⟩ }) [] (ev0 0 0)
    (match stepGate s 0 (cu0 0xA1 0) (some [⟨⟨keyVault 0 3 0, 0⟩,
        64⟩]) 64 with | .trap _ => true | _ => false) = true) := by decide +kernel

theorem witness_matrixWords : storeWf 0 MatUnit.clear.acc = true ∧ storeWf 0 MatUnit.clear.csum = true ∧
    storeWf 0 MatUnit.clear.part = true ∧
    storeWf 0 MatUnit.clear.tr = true ∧ MatUnit.clear.rowOk 3 63 = true ∧
    ({ MatUnit.clear with acc := [(64 * 5, 1)] } : MatUnit).rowOk 0 5 = false ∧
    (List.range 64).filter (fun i => ({ MatUnit.clear with acc := [(64 * 5, 1)] } : MatUnit).rowOk 0 i = false) = [5] := by decide +kernel

theorem witness_matrixSwap : (let l := { launch0 with state := .preempted true, desc := List.replicate 240 0 ++ bytesLE 8 0x8000 ++ List.replicate 8 0 }
    l.saved = true ∧ msaveOf l 0 ≠ 0) ∧
    (let s := { we (fun x => { x with matrix := ⟨MatUnit.clear, none, [], none, 0, []⟩ }) [] (ev0 0 0) with
       launches := [(0, { launch0 with images := [(0, MatUnit.clear, some (cu0 0xA1 0), [])] })] }
     wanted s 0 = some 0 ∧ imageOf s 0 0 = some (MatUnit.clear, some (cu0 0xA1 0), []) ∧
         launch0.saved = false) := by decide +kernel

theorem witness_products : (let u : MatUnit := { MatUnit.clear with poison := [(0, true)] }
    u.bad 0 0 = true ∧ 0 + 64 ≤ 64 ∧ 0 < cfgRows (u.cfg 0) ∧ cfgKb (u.cfg 0) ≤ 0 + 1) ∧
    ((0 + 1) % (mc0 0xA8 0).fP = 0 ∨ 0 + 1 = cfgKb (MatUnit.clear.cfg 0)) ∧
        (mc0 0xA8 0).fRing = false := by decide +kernel

/-- A ring of four slots at 0x10000. -/
def ring1 : List Byte := bytesLE 4 0x10000 ++ [4] ++ List.replicate 59 0

theorem witness_ringCopy : (let c := { cu0 0xA8 0 with copying := true }
    let s := wm c { MatUnit.clear with ring := some ring1 }
    let v := unitOf s 0
    (s.tile 0).matrix.cur = some c ∧ v.ring = some ring1 ∧ v.tiles.length < natAt ring1 4 1 ∧
    (engPieces s 0 0 (natAt ring1 0 4 + 16384 * v.fill) 4 true false).isSome = true) ∧
    (let r : RingTile := ⟨mc0 0xA8 0, 1, 1, 0, 0⟩
     let s := wm (cu0 0xA8 0) { MatUnit.clear with ring := some ring1, tiles := [r] }
     (unitOf s 0).tiles = r :: [] ∧ castWaits s 0 r ring1 = false) := by decide +kernel

/-- A command of this code on one 4-byte element, from 0x8000 to 0x9000. -/
def cp0 (code flags : Nat) (l : Option Nat) : Copy :=
  ⟨1, 0, l, [BitVec.ofNat 8 code,
      BitVec.ofNat 8 flags] ++ List.replicate 6 0 ++ bytesLE 8 0x8000 ++ bytesLE 8 0x9000 ++ [1] ++ List.replicate 39 0, List.replicate 64 0,
    0, 0, 0, false, true, 0, 0, 0, 0, 0, 0, 0, [], false, none⟩

/-- `w0` whose outrider of tile 0 has these commands, lists and queue 0. -/
def wo (cs : List Copy) (ls : List CmdList) (bs : List Byte) : State :=
  { we (fun x => { x with out := ⟨[(0, ⟨0x8000, 0, ⟨0, false, false⟩, none, 0, []⟩)], 0, cs, ls, 1⟩ }) [] (ev0 0 0) with
    mem := memWrite w0.mem k0 bs }

/-- A QCB of 64 slots at 0xA000, with WI and RI. -/
def qcb0 (wi ri : Nat) : List Byte := bytesLE 8 0xA000 ++ [6] ++ List.replicate 7 0 ++ bytesLE 8 wi ++ bytesLE 8 ri

theorem witness_submit : (let s := wo [] [] (qcb0 0 0)
    (queueNamed s 0 0x8000).isSome = true ∧ (qcbOf s 0 (visRead s k0 32)).isSome = true ∧
    (qcbOf s 0 (visRead s k0 32)).map (fun b => (b.slotLoc s 0 0).isSome && decide (b.wi + 1 ≤ b.ri + b.n)) = some true) ∧
    (let s := wo [] [] (qcb0 64 0)
     (qcbOf s 0 (visRead s k0 32)).map (fun b => decide (b.ri + b.n < b.wi + 1)) = some true) := by decide +kernel

theorem witness_osub : (let s := { wp (.osub ⟨0x8000, List.replicate 64 0, 0, 0, 0, 0⟩) id with ev := ev0 0 0 }
    (s.tile 0).subs = [] ∧ (match submit s 0 ⟨0x8000, List.replicate 64 0, 0, 0, 0,
        0⟩ 3 with | .reject _ => true | _ => false) = true) ∧
    (let s := wo [] [] (qcb0 0 0)
     (match submit s 0 ⟨0x8000, List.replicate 64 0, 0, 0, 0, 0⟩ 3 with | .written _ => true | _ => false) = true) ∧
    (let s := wo [] [] (qcb0 64 0)
     (match submit s 0 ⟨0x8000, List.replicate 64 0, 0, 0, 0,
         0⟩ 3 with | .hold => true | _ => false) = true) := by decide +kernel

/-- The queue with one command in its slot 0. -/
def wq (code : Nat) : State := { wo [] [] (qcb0 1 0) with
  mem := memWrite (memWrite w0.mem k0 (qcb0 1 0)) (keyScratch 0 0xA000) ((cp0 code 0 none).head.take 63 ++ [1]) }

theorem witness_accept : (let s := wq 1
    (queueAt s 0 0).isSome = true ∧ (s.tile 0).out.cmds.length < 256 ∧ inTurn s 0 0 = true ∧ injRead s k0 = false ∧
    poisoned s k0 32 = false ∧ (qcbOf s 0 (visRead s k0 32)).map (fun b => (ready s 0 b).isSome) = some true) ∧
    (let s := wo [] [] (qcb0 1 0)
     (qcbOf s 0 (visRead s k0 32)).map (fun b => decide (b.ri < b.wi) && (tagged s 0 b b.ri).isNone) = some true) := by decide +kernel

theorem witness_start2 : (let c := { cp0 1 0 none with started := false }
    let s := wo [c] [] []
    cmdAt s 0 0 = some c ∧ c.rejected = false ∧ c.crcOn = false) ∧
        { cp0 1 6 none with started := false }.chains = true := by decide +kernel

theorem witness_walk : (let c := cp0 1 0 none
    c.walks = true ∧ 0 < c.total ∧ c.cnt 1 = 1 ∧ c.cnt 5 = 1 ∧ c.bnd 0 = 0 ∧ c.mayMove = true ∧
    cmdAt (wo [c] [] []) 0 0 = some c ∧ copyBusy (wo [c] [] []) 0 c.id = false ∧
    engineLoc (wo [c] [] []) 0 0 (c.srcAt 0) false false = some ⟨k0, 0⟩ ∧
        (engineLoc (wo [c] [] []) 0 0 (c.dstAt 0) true true).isSome = true ∧
    copyOverlaps (wo [c] [] []) 0 c.id k0 c.elem = false ∧
        { c with pos := c.total }.pos = c.total) := by decide +kernel

theorem witness_slots : (let c := { cp0 2 0 none with moved := (cp0 2 0 none).slotBytes }
    c.code = 2 ∧ c.started = true ∧ c.stopped = false ∧ cmdAt (wo [c] [] []) 0 0 = some c) := by decide +kernel

/-- A LIST in progress at the packet at 0x8000. -/
def li0 (e : Bool) : CmdList := ⟨1, 0, [], ⟨0, false, false⟩, false, 0, 0, e⟩

theorem witness_lists : (∀ p ∈ [0x11, 0x13, 0x01, 0x12], let c := cp0 0x10 0 none
    let s := wo [c] [li0 false] ([BitVec.ofNat 8 p] ++ List.replicate 63 0)
    cmdAt s 0 0 = some c ∧ listOf s 0 1 = some (li0 false) ∧ (s.tile 0).out.cmds.length < 256 ∧
    (∀ x ∈ (s.tile 0).out.cmds, x.list ≠ some c.id) ∧ staleAt s 0 (some (0, 0)) = false ∧
    (match listPacket s 0 c 0 with | .packet _ b => natAt b 0 1 == p | _ => false) = true) ∧
    controlOk ([0x13] ++ List.replicate 63 0) 0 false false = true ∧ (li0 true).ended = true := by decide +kernel

theorem witness_listLoop : (let b : List Byte := [0x11] ++ List.replicate 7 0 ++ [2] ++ List.replicate 15 0 ++ [3] ++ List.replicate 39 0
    controlOk b 1 false true = true ∧ natAt b 8 1 ≤ ({ li0 false with at_ := 2 } : CmdList).at_ ∧
        1 < max 1 (natAt b 24 2)) ∧
    tabFind [(2, 0)] 2 = some 0 := by decide +kernel

theorem witness_pacer : (let r : Stream := { Stream.idle with count := 2, base := 0x8000 }
    let s := we id [(0, { ctx0 with streams := (Vector.replicate 8 Stream.idle).set 0 r })] (ev0 0 0)
    ((s.ctx 0).st = .run ∧ r.popped < r.count ∧ r.fetched < r.count ∧ r.queue.length < 16 ∧ r.idx = false ∧
        r.n0 = 1) ∧
    ∃ v, loadBytes s 0 .plain (r.addr 0) r.size r.size (Stage.start 0 s.cycle) = .ok (v, Stage.start 0 s.cycle)) :=
  ⟨by decide +kernel, _, rfl⟩

theorem witness_pacerFault : ∃ f, loadBytes w0 0 .plain (2 ^ 21) 1 1 (Stage.start 0 7) = .error (.fault f) ∧
    f.pte = none := ⟨_, rfl, rfl⟩

theorem witness_swap : (let s := we (fun x => { x with swaps := [⟨3, some 1024, none, false, 0⟩] }) [] (ev0 0 0)
    swapItem s 0 = none ∧ (remapOf (s.tile 0) 3).layer ≠ (remapOf (s.tile 0) 1024).layer ∧
        (remapOf (s.tile 0) 3).v = true ∧
    swapWaits (s.tile 0) 3 = false ∧ swapWaits (s.tile 0) 1024 = false) ∧
    (let s := wp (.cswap ⟨3, none, some ⟨0, 0x8000⟩,
        false, 0⟩) (fun x => { x with remap := [(3, { Remap.reset 3 with v := false })] })
     swapItem s 0 = some (3, pk (.cswap ⟨3, none, some ⟨0, 0x8000⟩, false, 0⟩), ⟨3, none, some ⟨0, 0x8000⟩, false, 0⟩) ∧
         (remapOf (s.tile 0) 3).v = false) := by decide +kernel

theorem witness_thermal : thermalNext .normal 84 = .normal ∧ thermalNext .normal 85 = .throttle ∧
    thermalNext .throttle 94 = .throttle ∧
    thermalNext .throttle 95 = .hold ∧ thermalNext .hold 90 = .hold ∧ thermalNext .hold 89 = .throttle := by decide

theorem witness_retire : (let s := { we (fun x => { x with offline := true }) [] (ev0 0 0) with
      launches := [] }
    (s.tile 0).offline = true ∧ tileQuiet s 0 = true ∧ (mapEntry s 0).getLsbD 15 = true ∧ s.tileMap.length = 4 ∧
    (∀ l ∈ s.tileMap, l.length = 256) ∧
        unusedPhys { s with mgmt := { s.mgmt with badTiles := [(stackOf 0, 0)] } } (stackOf 0) = some 256) := by decide +kernel

theorem witness_walks : (let s := { we id [] (ev0 0 0) with mem := memWrite w0.mem (keyScratch 0 0x1E0400) (bytesLE 8 (2 ^ 47)) }
    genV (genEntry s 0 0) = true ∧ ∀ e ∈ [walk s 0 0 (2 ^ 32)],
        (match e with | .leaf _ _ => false | _ => true) = true) := by decide +kernel

theorem witness_repair : (let r : Machine.Row := ⟨0, 0, 6⟩
    (we (fun x => { x with repair := some r, corrected := [(r, 3)] }) [] (ev0 0 0)).tile 0 =
      { Tile.reset with repair := some r, corrected := [(r, 3)] }) := by decide +kernel

theorem witness_walkLeaf : (let v (o : Nat) (e : Nat) (m : List (Nat × Byte)) := memWrite m (keyVault 0 0 o) (bytesLE 8 e)
    let s := { we id [] (ev0 0 0) with mem := v 0 0x1003 (v 0x1020 0x2003 (v 0x2000 0x3003 (v 0x3000 0x30001 w0.mem))) }
    walk s 0 0 (2 ^ 32) = .leaf 0x30001 false) := by decide +kernel

/-- A packet of two flits from tile `a` to tile `b`. -/
def fp0 (a b : Nat) (x : PktPlace) (f : List FlitPos) : Packet :=
  ⟨a, b, 0, 0, 0, 0, 64, false, false, false, .act 5, .store k0 0 [1] none false, x, f, 0, 0, 0, none, none, false,
    0, false, false, 0⟩

/-- `w0` with one packet in the fabric. -/
def wf (p : Packet) : State := { we id [(0, ctx0)] (ev0 3 0) with pkts := [(3, p)], nextPkt := 9 }

theorem witness_inject : (let p := fp0 0 0 .source [.source, .source]
    (wf p).pkt 3 = some p ∧ mayInject (wf p) 3 p = true ∧ canEject (wf p) (p.stamp (wf p)) = true) ∧
    (let p := fp0 0 1 .source [.source, .source]
     let s := wf p
     let q := p.stamp s
     let l := onRound s (clusterOf 0) (dirOf s q)
     let r := s.ring (clusterOf 0) (dirOf s q)
     mayInject s 3 p = true ∧ clusterOf 0 = clusterOf 1 ∧ vcFree r l 3 q (dirOf s q) (stopOf 0) = true ∧
         roomAt r l (stopOf 0) = true ∧ stopOf 0 ∉ r.injected) ∧
    (let p := fp0 0 1023 .source [.source, .source]
     let s := wf p
     (p.stamp s).local? = false ∧ p.flits.length ≤ closFree s (leafInput 0) false ∧
         leafLink 0 ∉ s.deadLinks ∧
     s.mgmt.inject.getLsbD 63 = false) := by decide +kernel

theorem witness_hops : (let p := fp0 0 3 (.round true none) [.pool 0 0, .pool 0 0]
    let s := wf p
    let l := onRound s (clusterOf 0) true
    vcAt p true 0 = 0 ∧ mayHop s l 3 p true 0 0 = true ∧ winner s l 3 p true 0 = true ∧ (3, 0) ∉ (s.ring 0 true).moved) ∧
    (let p := { fp0 0 3 (.round true none) [.pool 0 0, .pool 0 0] with waited := 16 }
     let s := wf p
     escLimit s p ≤ p.waited ∧ escOpen (s.ring 0 true) (onRound s 0 true) 0 = true) ∧
    (let p := { fp0 0 3 (.round true none) [.pool 0 0, .pool 0 0] with waited := 16 }
     let s := (wf p).modRing 0 true (fun r => { r with moved := [(3, 1), (3, 0)], entered := [0] })
     (3, 0) ∈ (s.ring 0 true).moved ∧ pcycOpen s 0 true = false ∧ escCrossing s 0 true = none) ∧
    (let p := fp0 0 3 (.round true none) [.pool (stopOf 3) 0, .pool (stopOf 3) 0]
     canEject (wf p) p = true ∧ p.place = .round true none) := by decide +kernel

theorem witness_escape : (let p := fp0 0 3 (.round true (some (stopOf 3))) [.escape (stopOf 3), .escape (stopOf 3)]
    escBuffer (wf p) 3 + p.flits.length ≤ 8) ∧
    (let p := fp0 0 3 (.round true (some (stopOf 3))) (List.replicate 9 (.escape (stopOf 3)))
     8 < escBuffer (wf p) 3 + p.flits.length) := by decide +kernel

theorem witness_clos : (let f := leafOf 1023
    let p := fp0 0 1023 (.clos 0 f.1 f.2.1 0) [.source]
    closHop (wf p) p = .leaf ∧ canEject (wf p) p = true) ∧
    (let f := leafOf 0
     let p := fp0 0 1023 (.clos 0 f.1 f.2.1 f.2.2) [.source]
     (match closHop (wf p) p with
      | .input x => decide (p.flits.length ≤ closFree (wf p) x.1 false) && !closContended (wf p) 3 p (.input x) &&
          decide (x.2 ∉ (wf p).deadLinks)
      | _ => false) = true) := by decide +kernel

theorem witness_arrival : (let p := fp0 0 1 .ejected [.ejected]
    isNext (wf p) 3 p = true ∧ earlyHeld (wf p) 1 < 32) ∧
    (let p := { fp0 0 1 .ejected [.ejected] with seq := 1 }
     let s := { wf p with pkts := [(3, p), (2, fp0 0 1 .source [.source])] }
     isNext s 3 p = false) := by decide +kernel

theorem witness_answers : (let a : Answer := ⟨true, 1, 0, 3, some (1, 0), false, .here⟩
    let p := fp0 0 1 .done [.ejected]
    let s := { wf p with answers := [a], ev := ev0 0 0 }
    s.answers[0]? = some a ∧ s.pkt a.pkt = some p ∧ a.fail = some (1, 0) ∧ p.owner = .act 5 ∧ (s.ctx 0).act = 5) ∧
    (fp0 0 1 .lost [.ejected]).place ≠ .done ∧ ctx0.isTwin = false ∧
        (3 : Nat) < (wf (fp0 0 1 .lost [])).nextPkt := by decide +kernel

/-- A lifeline request of tile 0 on tree 0. -/
def lr0 (opc op : Nat) (b : List Byte) : LifeReq := ⟨opc, op, 0, 0, 0, 0x9000, none, 0, 0, b, none⟩

/-- A controller with tree 0, of one symbol to a chunk, and a request to perform. -/
def wl (r : LifeReq) (f : Lifeline → Lifeline) : State := { we id [] (ev0 0 0) with
  life := f { Lifeline.reset with queue := [r], trees := [(0, ⟨0, 0, 4, 0x10000, 0, 0⟩)] } :: List.replicate 3 Lifeline.reset }

theorem witness_takes : ∀ e ∈ [(0xF3, 0), (0xF4, 0), (0xF5, 0), (0xF6, 0), (0xF6, 1), (0xF6, 2)],
    (let r := lr0 e.1 e.2 (List.replicate 64 0)
    let s := wl r id
    (lifeAt s 0).queue = r :: [] ∧ (treeOf s 0 r).isSome = true ∧ treeOf s 0 { r with asid := 1 } = none ∧
    tabFind (lifeAt s 0).trees { r with block := [1] }.tree = tabFind (lifeAt s 0).trees { r with block := [1] }.tree ∧
    ∀ l ∈ s.life, (l.report 0).getD 7 0 = 0) := by decide +kernel

theorem witness_entry : (let r := lr0 0xF3 0 (bytesLE 8 0x8000 ++ bytesLE 4 4 ++ List.replicate 20 0)
    let s := { wl r id with pkts := [(3, { pk (.lifeline r) with src := 0 })], inbox := [(0, 3)] }
    item s 0 0 = some (3, { pk (.lifeline r) with src := 0 }) ∧
    (match lifeRead s r r.sym 4 with | .ok _ b => b.length == 4 | _ => false) = true ∧
    (treeOf s 0 r).map (fun t => decide (t.chunk ≤ r.count)) = some true ∧ (1026 : Nat) ≤ 1027 ∧
        treeOf s 2 r = none) := by decide +kernel

theorem witness_pins : (let r := { lr0 0xF5 0 (List.replicate 24 0 ++ bytesLE 4 (2 ^ 24 + 7) ++ List.replicate 4 0) with lslot := 0 }
    ({ Lifeline.reset with pins := [(7, ⟨0, 0, 1⟩)] } : Lifeline).holds r.pin r.lslot = true ∧
        Lifeline.reset.holds r.pin 0 = false ∧
    r.pin ≠ 0 ∧ (wl r id).life.length = 4 ∧ (lr0 0xF5 0 (List.replicate 32 0)).pin = 0) := by decide +kernel

theorem witness_lifeReply : (let r := lr0 0xF3 0 []
    let s := wp (.lifeReply r 0 0 [1]) id
    r.keyed = none ∧ guarded s (keyScratch 0 r.l) 1 = false ∧ { r with keyed := some 0 }.keyed = some 0 ∧
        s.launch 0 = some launch0) := by decide +kernel

/-- `w0` with the management state changed. -/
def wg (f : Mgmt → Mgmt) (e : EventArg) : State := { we id [] e with mgmt := f w0.mgmt }

theorem witness_host : (let s := wg id { ev0 0 (2 ^ 39 - 1) with val := 64, bytes := [1] }
    s.ev.idx < 2 ^ 39 ∧ 0 < min s.ev.val (64 - s.ev.idx % 64) ∧ s.mgmt.power ≠ .sleep ∧
    (let k := keyVault (s.ev.idx / 2 ^ 29) (s.ev.idx / 2 ^ 16 % 8192) (s.ev.idx % 2 ^ 16)
     pageOff s k = false ∧ stalled s k = false ∧ injRead s k = false ∧ poisoned s k 1 = false)) := by decide +kernel

theorem witness_peer : (let s := wg (fun m => { m with peerMask := 1 }) { ev0 0 0 with flag := true, flag2 := true, bytes := [1] }
    s.mgmt.peerMask.testBit 0 = true ∧ 0 ∉ s.mgmt.portDown ∧ s.mgmt.peerMask.testBit 7 = false ∧
    (match outsideRead s 0 8 with
     | some s1 => !s1.mgmt.busError && (outsideWrite s1 0 [1]).isSome
     | none => false) = true) := by decide +kernel

theorem witness_link : tabGet 0 (wg id (ev0 0 0)).mgmt.replays 0 < 16 ∧
    16 ≤ tabGet 0 (wg (fun m => { m with replays := [(0, 16)] }) (ev0 0 0)).mgmt.replays 0 ∧
        storeWf 0 w0.mgmt.mbBuf = true ∧
    (wg (fun m => { m with logWait := [[1]] }) (ev0 0 0)).mgmt.log.length < 4096 := by decide +kernel

theorem witness_commands : ∀ c ∈ mailCodes,
    Commands (wg (fun m => { m with mbCmd := BitVec.ofNat 64 (c + 32 * 2 ^ 32), go := true }) (ev0 0 0)) c 32 :=
  fun c h => by fin_cases h <;> exact ⟨by decide +kernel, by decide +kernel, by decide +kernel, by decide +kernel,
      by decide +kernel⟩

theorem witness_mailbox : (fld (0 : Word) 0 16 ∉ mailCodes) ∧ routeBad 12 0 = false ∧ routeBad 0 8 = true ∧
    injectBad 0 = false ∧
    injectBad (5 * 2 ^ 60) = true ∧ (launch0.saved = false ∧
        { launch0 with state := .preempted true }.saved = true) ∧
    allSaved (wg (fun m => { m with power := .quiescing }) (ev0 0 0)) = true ∧
    onLostTile (wg id (ev0 0 0)) { launch0 with state := .preempted true } = false ∧
    (wg (fun m => { m with mbStatus := 1 }) (ev0 0 0)).mgmt.mbStatus.getLsbD 0 = true := by decide +kernel

theorem witness_module : Tile.reset.halvedMatrix.length = 4 ∧ Tile.reset.evc.length = 8 ∧
    State.reset.mgmt.minVersion ≤ 0 ∧
    (wg (fun m => { m with power := .removed }) (ev0 0 0)).mgmt.power = .removed ∧ w0.agenda = [] := by decide

/-! ### Witnesses: further cases of the statements -/

theorem witness_targetWaits : (let s := { w0 with mem := memWrite w0.mem (keyScratch 0 0x1E0406) [1] }
    (∃ l, codeLoc s 0 0x10002 = .ok l) ∧ staleAt s 0 (tagOf s 0 0) = true) ∧
    (let s := wt (fun x => { x with poison := [(0x1000, true)] })
     guarded s (keyScratch 0 0x10000) 64 = false ∧ poisoned s (keyScratch 0 0x10000) 64 = true ∧
     (staleAt s 0 (tagOf s 0 0) || stalled s (keyScratch 0 0x10000)) = false) :=
  ⟨⟨⟨_, rfl⟩, by decide +kernel⟩, by decide +kernel⟩

theorem witness_stops : (let st := { Stage.start 0x10002 0 with guardAt := some 0x10002 }
    h0.chain = false ∧ st.guardAt = some 0x10002 ∧
      { ctx0 with guard := some (0x8000, 0x8000, 3) }.guard = some (0x8000, 0x8000, 3)) ∧
    (∀ cause ∈ [Cause.page, .stackGrow, .align], let st : Stage := { Stage.start 0x10002 0 with
       pend := some (0x10004, ⟨cause, some 1, false, 0, none⟩), trap := some (0x10002, .bkpt, 0) }
     st.guardAt = none ∧ st.pend = some (0x10004, ⟨cause, some 1, false, 0, none⟩)) ∧
    (let st : Stage := { Stage.start 0x10002 0 with trap := some (0x10002, .bkpt, 0) }
     st.guardAt = none ∧ st.pend = none ∧ st.trap = some (0x10002, .bkpt, 0)) := by decide

theorem witness_roundRobin : pickCtx w0 0 = some 0 ∧ pickCtx (wc (fun c => { c with st := .free })) 0 = none ∧
    (w0.tile (tileOf 0)).lastIssued.length = 4 ∧ (w0.ctx 0).saveDue = false := by decide +kernel

theorem witness_loadSpan : 128 - 0x807C % 128 < 16 ∧ Readable w0 .plain 0x807C 4 4 ⟨keyScratch 0 0x807C, 0⟩ ∧
    Readable w0 .plain (0x807C + 4) (16 - 4) 1 ⟨keyScratch 0 0x8080, 0⟩ :=
  ⟨by decide, ⟨rfl, by decide +kernel⟩, ⟨rfl, by decide +kernel⟩⟩

theorem witness_stalePacket : (let p := { pk (.guardBits true [1]) with tag := some (0, 1) }
    let s := { wp p.work id with pkts := [(3, p)] }
    item s 0 0 = some (3, p) ∧ pktStale s p = true ∧ pktStale s (pk p.work) = false) := by decide +kernel

theorem witness_redeliver : (∀ tr ∈ [task0, msg0 0], let s := we (fun x => { x with redeliver := [tr] }) [] (ev0 0 0)
    (s.tile 0).redeliver = tr :: [] ∧ backRoom (s.tile 0) tr = true) ∧ task0.kind = .task ∧ (msg0 0).kind = .msg ∧
    Tile.reset.redeliver = [] := by decide +kernel

theorem witness_deczFirst : deczBefore (wp (.decz 0x8000 0 none) id) 0 0x8000 0 = false := by decide +kernel

theorem witness_deczSecond : (let p := pk (.decz 0x8000 0 none)
    let q := { p with src := p.src + 1 }
    let s := { wp p.work id with pkts := [(3, p), (4, q)], inbox := [(0, 3), (0, 4)], ev := ev0 0 1 }
    item s 0 s.ev.idx = some (4, q) ∧ (inboxAt s 0)[0]?.map (fun e => e.2) = some p ∧ 0 < s.ev.idx) := by decide +kernel

theorem witness_stagedElse : (let tr := { task0 with lslot := 1 }
    let s := { we (fun x => { xTask x with staging := [(tr, 3, [0])] }) [] (ev0 0 15) with
      launches := [(0, launch0), (1, { launch0 with state := .preempted true })] }
    ofRunning s tr = false ∧ choose s 0 = some (.deque 0 0, task0)) := by decide +kernel

theorem witness_twinEnds : (let c := { ctx0 with st := .releasing, twin := some 12, groups := [gr0 false] }
    c.groups = gr0 false :: [] ∧ c.twin = some 12 ∧ c.cont = none ∧ c.bufErr = false ∧
      ([] : List Group).all (·.accepted) = true) := by decide +kernel

theorem witness_saves : (let s := { wc (fun c => { c with saveDue := true, tested := true, saveptr := 0xC000 }) with ev := ev0 0 0 }
    (s.ctx 0).groups = [] ∧ owesGroup s 0 = false ∧ saveStalled s 0 = false ∧ (s.ctx 0).tested = true) ∧
    (let s := { wc (fun c => { c with st := .saved, saveptr := 0xC000 }) with ev := ev0 0 1 }
     saveStalled s 0 = false ∧ restoreWaits s 0 = false ∧ freeFor s 1 = true ∧ keeper s 0 = none) := by decide +kernel

theorem witness_guardedReply : (let r : Reply := ⟨{ rq 0xDB 0 with modf := 128, l := some (keyScratch 0 0x9000) }, 0, 1, 0,
      [(0, List.replicate 32 5)], [], 0, true, false⟩
    r.req.nb = true ∧ replyGuarded (wp (.reply r) (fun x => { x with guardBits := [(0x120, true)] })) r = true ∧
    replyGuarded (wp (.reply r) id) r = false ∧ tabGet 0 ((wp (.reply r) id).tile 0).refused r.req.pkt = 0) := by
  decide +kernel

theorem witness_matrixWaits : (let m : Matrix := ⟨MatUnit.clear, some 0, [mc0 0xA4 0], none, 0, [(1, mc0 0xA2 0, 0, 1, [])]⟩
    m.queue = mc0 0xA4 0 :: [] ∧ (mc0 0xA4 0).opc ∈ [0xA1, 0xA2, 0xA4, 0xA5] ∧ m.pending ≠ []) ∧
    (let u := { MatUnit.clear with regErr := [(512 * 2 + 3, true)] }
     (512 * 2 + 3, true) ∈ u.regErr ∧ (512 * 2 + 3) / 512 = 2 ∧ storeWf false u.poison = true ∧
     overlaps (16 * ((512 * 2 + 3) % 512)) 16 (0 * cfgRsz (u.cfg 2)) (cfgRsz (u.cfg 2)) = true) := by decide +kernel

theorem witness_queueBytes : (let bad : List Byte := bytesLE 8 0xA000 ++ [66] ++ List.replicate 23 0
    let s := wo [] [] bad
    queueAt s 0 0 ≠ none ∧ qcbOf s 0 (engRead s k0 32) = none) ∧
    (let s := wo [] [] (qcb0 1 0)
     (qcbOf s 0 (memRead s.mem k0 32)).map (fun b => decide (b.ri < b.wi) && (tagged s 0 b b.ri).isNone) = some true ∧
     0x8000 + 32 ≤ Config.tableArea) := by decide +kernel

/-- A STREAM of 40 bytes into four slots of 32 bytes at 0x9000. -/
def stream0 (moved slot : Nat) : Copy := { cp0 2 0 none with
  head := ((cp0 2 0 none).head.set 24 40).set 58 1, moved := moved, pos := moved, slot := slot,
  ext := List.replicate 40 0 ++ bytesLE 4 0x9000 ++ [1, 0, 4] ++ List.replicate 17 0 }

theorem witness_streamSlots : (let c := stream0 32 0
    c.moved = c.slot * c.slotBytes + c.slotBytes ∧ 0 < c.slotBytes ∧ c.pos < c.total) ∧
    (let c := stream0 40 1
     let s := wo [c] [] []
     let pad := padSlot s 0 (c.wbase + c.slotBytes * (c.slot % c.nslot) + (c.moved - c.slot * c.slotBytes)) 24
     c.slot * c.slotBytes < c.moved ∧ c.moved < c.slot * c.slotBytes + c.slotBytes ∧ c.pos = c.total ∧ pad.2 = 0 ∧
     (writeCrco pad.1 0 c).2 = 0) := by decide +kernel

theorem witness_poisonWord : (let s := wt (fun x => { x with poison := [(0x803, true)] })
    ownerTag s (k0 + 0x35) / 1024 % 4 = 0 ∧ poisoned s (k0 + 0x30) 16 = true) ∧ injRead w0 k0 = false ∧
    poisoned w0 k0 128 = false := by decide +kernel

theorem witness_badHeader : (let s := wf (fp0 0 1023 .source [.source, .source])
    let q := (fp0 0 1023 .source [.source, .source]).stamp s
    headerOk (headerWord q) = true ∧ headerOk (headerWord q ^^^ 16) = false) ∧
    { fp0 0 1 .source [] with after := some 9 }.after ≠ none := by decide +kernel

theorem witness_crossings : (∀ e ∈ [((0 : Nat), (0 : Nat)), (16 * 5 + 7, 7)], e.1 = 0 ∨ e.1 = 16 * 5 + e.2) ∧
    (let s := { w0 with ev := { ev0 0 0 with flag := true }, mgmt := { w0.mgmt with replays := [(107, 16 * 5 + 8)] } }
     tabGet 0 s.mgmt.replays (100 + 7) = 16 * 5 + 8 ∧ 7 ∉ s.deadLinks ∧ s.mgmt.inject.getLsbD 63 = false) := by
  decide +kernel

theorem witness_escapeTurns : (let p := fp0 0 3 (.round true (some 0)) [.escape 1, .escape 0]
    let s := wf p
    p.flits[0]? = some (.escape 1) ∧ 1 ≠ stopOf 3 ∧ pcycOpen (s.modRing 0 true (fun r => { r with entered := [0] })) 0 true = false ∧
      escLink 0 1 true ∉ s.deadLinks) ∧
    (let p := { fp0 0 3 (.round true none) [.pool 0 0, .pool 0 0] with waited := 16 }
     let s := { wf p with pkts := (3, p) :: (List.range 2).map (fun i => (9 + i, fp0 0 3 (.round true (some 7)) [.escape 0])) }
     escRefused s 0 0 true = true) ∧
    (let r : Ring := { Ring.reset with refused := [(0, 8)] }
     0 ∉ r.claims ∧ (∀ e ∈ r.slots, e.2 ≠ 0) ∧ 8 ≤ tabGet 0 r.refused 0 ∧ tabGet 0 r.refused 1 < 8) := by decide +kernel

theorem witness_evict : (let f := leafOf 0
    let x := PktPlace.clos 0 f.1 f.2.1 f.2.2
    let p := { fp0 0 1023 .source [.source, .source] with cls := 12 }
    let s := { wf p with
      pkts := [(3, p), (4, fp0 0 1023 x (List.replicate 16 .source))]
      routes := State.reset.routes.set 12 8 }
    waitsFor s p = some x ∧ urgent s p.cls = true ∧ closFree s x false < p.flits.length ∧ youngestIn s x = some 4) := by
  decide +kernel

theorem witness_ackRing : (let a : Answer := ⟨true, 1, 0, 3, none, false, .sender⟩
    let s := { wf (fp0 0 1 .done [.ejected]) with answers := [a] }
    a.place = .sender ∧ a.src ≠ a.dst ∧ clusterOf a.src = clusterOf a.dst ∧
    ackSlotFree s (clusterOf a.src) (decide ((stopOf a.dst + 8 - stopOf a.src) % 8 ≤ 4)) (stopOf a.src) = true) := by
  decide +kernel

theorem witness_entryWaits : (let r := lr0 0xF3 0 (bytesLE 8 0x8000 ++ bytesLE 4 4 ++ List.replicate 20 0)
    let s := { wl r id with pkts := [(3, { pk (.lifeline r) with src := 0 })], inbox := [(1026, 3)] }
    requestBefore s 1026 0 = false ∧ (lifeAt s 0).queue ≠ [] ∧ (lifeAt s 1).queue = []) := by decide +kernel

/-- A node without children. -/
def node0 : Node := ⟨1, none, 0, 1, false, 0, 0, 0, 0, 64, 32, 0⟩

theorem witness_nodeArea : (let s := { wl (lr0 0xF4 0 []) id with nodeAreas := [0x500000, 0, 0, 0] }
    let l := { lifeAt s 0 with nodes := [(3, node0)] }
    s.nodeAreas.getD 0 0 ≠ 0 ∧ nodeWrites 0 (lifeAt s 0) l = [(3, nodeBytes 0 0x10000 node0)] ∧
    (nodeBytes 0 0x10000 node0).length = 64) := by decide +kernel

theorem witness_kills : (let s := wg (fun m => { m with kills := [(5, [1])] }) (ev0 0 0)
    s.mgmt.logWait = [] ∧ s.mgmt.log.length < 4096 ∧ actFlying s 5 = false ∧
    actFlying { s with pkts := [(3, fp0 0 1 .source [])] } 5 = true) ∧
    (wg (fun m => { m with go := true }) (ev0 0 0)).mgmt.go = true ∧ w0.mgmt.go = false := by decide +kernel

/-- R419: MB_GO reads as zero, MB_STATUS with BUSY once GO is written, the buffer byte by byte, and zero elsewhere. -/
theorem test_bar0 : (let m : Mgmt := { w0.mgmt with mbCmd := 0x123456789AB, mbStatus := 0x10200, mbBuf := [(3, 7)], go := true }
    bar0Read m 0 8 = bytesLE 8 0x123456789AB ∧ bar0Read m 8 8 = List.replicate 8 0 ∧ bar0Read m 0x10 8 = bytesLE 8 0x10201 ∧
    bar0Read m 0x103 1 = [7] ∧ bar0Read m 0x1000 1 = [0]) := by decide +kernel

/-- R8, R374: reserved bits of an image's tile-map entry read as zero. -/
theorem test_mapFrom : mapFrom 0xFE05 = 0x8005 ∧ mapFrom 0x8108 = 0 := by decide +kernel

/-! ### Witnesses: the ends and the waits of bundles -/

theorem witness_bundleTransfers : (∀ st ∈ ([{ bundle w0 with xfer := some (.jump 0x10002) }, { bundle w0 with link := some 1 },
      { bundle w0 with loopOpen := some (0, 3, ⟨0x10042, 0x10082⟩) }, { bundle w0 with cregs := [(4, 1)] },
      { bundle w0 with cregs := [(1, 0x10002)] }, { bundle wSys with xfer := some (.sysret 0x10002) }] : List Stage),
      Clean w0 st ∧ st.acts = [] ∧ st.bpc < 0x10042) ∧
    (let st : Stage := { bundle wLoop with xfer := some (.breakLoop 0x10002) }
     Clean wLoop st ∧ st.acts = [] ∧ (me wLoop).loops ≠ [] ∧ (me wLoop).loops.length ≤ 3) := by
  unfold Clean; decide +kernel

/-- An effect of 24 bytes. -/
def ef0 : Effect := mkEffect 0xC1 tA 0 0x8000 (List.replicate 8 1) [(0, .store k0 0x8000 [1] none false)]

theorem witness_bundleActs : (∀ a ∈ ([.store k0 [1, 2], .effects [ef0], .mask true 1, .physTag (k0 / 128) 5,
      .physTable Config.tableArea [1], .physTable 0x1E03FC (bytesLE 4 1), .physTable 0x1E0400 (bytesLE 8 1),
      .physTable 0x1E0BF8 (bytesLE 8 1), .physTable 0x1E0C00 [1, 2], .physTable 0x1F0000 (bytesLE 4 1),
      .physTable (2 ^ 21 - 1) [1]] : List Act), let st : Stage := { bundle w0 with acts := [a] }
      Clean w0 st ∧ st.xfer = none ∧ st.loopOpen = none ∧ st.link = none ∧ st.cregs = []) ∧ (me w0).loops = [] ∧
    k0 < 2 ^ 60 ∧ homeTile k0 = tileOf w0.cur ∧ ef0.size ≤ 4096 ∧
    (let c := { ctx0 with held := [mkEffect 0xC1 tA 0 0x8000 (List.replicate 4080 0) []] }
     4096 < (c.held.map Effect.size).sum + ([ef0].map Effect.size).sum) := by
  unfold Clean; decide +kernel

theorem witness_bundleWaits : ((me w0).loops = [] ∧ (me w0).fail = [] ∧ (me w0).saveDue = false ∧ (me w0).resume = none ∧
      (me w0).waiting = .none ∧ (me w0).held = []) ∧
    (let counter (s : State) : Nat := natLE (visRead s k0 8) % 2 ^ 32
     counter w0 = 0 ∧ counter { w0 with mem := memWrite w0.mem k0 [1] } ≠ 0) ∧
    (∀ s ∈ [w0, { w0 with mem := memWrite w0.mem k0 [1] }], poisoned s k0 16 = false) ∧
    (barRead { w0 with mem := memWrite w0.mem k0 [1] } 0 0x8000 % 16 ≠ 0 ∧ barRead w0 0 0x8000 % 16 = 0) := by
  decide +kernel

theorem witness_fenced : Fenced (wc (fun c => { c with st := .wait })) 0 4 true ∧ Fenced w0 0 0 false ∧
    ¬ Fenced { w0 with pkts := [(3, { pk .nothing with owner := .act 5, dst := 1026 })] } 0 3 false ∧
    ¬ Fenced (wt (fun x => { x with merge := [⟨k0, [1], 5⟩] })) 0 1 true ∧
    ¬ Fenced { w0 with pkts := [(3, { pk .nothing with owner := .act 5, dst := 1 })] } 0 2 false := by
  refine ⟨⟨rfl, .inr ⟨fun _ h => (nomatch h), fun _ _ h => (nomatch h)⟩⟩, ⟨rfl, .inl rfl⟩, ?_, ?_, ?_⟩
  · rintro ⟨-, h | h⟩
    · exact absurd h (by decide)
    · exact h.1 _ (.head _) rfl (.inr (.inr (.inl ⟨rfl, by decide⟩)))
  · rintro ⟨-, h | h⟩
    · exact absurd h (by decide)
    · exact h.2 rfl _ (.head _) (.inl ⟨rfl, rfl⟩) _ (.head _) rfl
  · rintro ⟨-, h | h⟩
    · exact absurd h (by decide)
    · exact h.1 _ (.head _) rfl (.inr (.inl ⟨rfl, by decide, by decide⟩))

theorem witness_bufferLine : (let c := { ctx0 with loops := [⟨0x10042, 0x10082⟩], body := [(0x10040, oneHeadLine 0x0181 0x1A00913)] }
    c.bufferLine 0x10042 = some (oneHeadLine 0x0181 0x1A00913) ∧ c.bufferLine 0x10002 = none) ∧ ctx0.bufferLine 0x10002 = none ∧
    lineValid (oneHeadLine 0x0181 0x1A00913) = true := by decide +kernel

theorem witness_injectedLoad : (let s := { w0 with mgmt := { w0.mgmt with inject := BitVec.ofNat 64 (2 ^ 63 + 2 ^ 59) } }
    injRead s k0 = true ∧ injDbl s = true ∧ guarded s k0 8 = false ∧ stalledOver s k0 8 = false) := by decide +kernel

theorem witness_remoteFault : (let st : Stage := { Stage.start 0x10002 0 with
      pend := some (0x10004, ⟨.remoteVault, some 1, false, 0, none⟩) }
    st.guardAt = none ∧ st.pend = some (0x10004, ⟨.remoteVault, some 1, false, 0, none⟩)) := by decide

theorem witness_trapWaits : (let s := { wTrap false with
      tiles := [(0, { (wv.tile 0) with remap := [(3, { Remap.reset 3 with busy := true })] })]
      ctxs := [(0, { me (wTrap false) with saveptr := 2 ^ 32 })] }
    trapWaits s 0 = true ∧ (s.ctx 0).status.getLsbD 15 = false) := by decide +kernel

theorem witness_heldBack : ({ ctx0 with stage := some (bundle w0) }).stage.isSome = true ∧
    ({ ctx0 with trapDue := some ⟨.bkpt, 1, none, false, false, false, 0, 0, 0, 0, none⟩ }).trapDue.isSome = true ∧
    ctx0.stage = none ∧ ctx0.trapDue = none ∧ ctx0.saveDue = false := by decide

/-- A store of five bytes in two packets. -/
def halves (two : Bool) : State := { wp (.store k0 0x8000 [1, 2, 3] (some (0, 0)) true) id with
  pkts := [(3, pk (.store k0 0x8000 [1, 2, 3] (some (0, 0)) true)), (4, { pk (.store k0 0x8000 [4, 5] (some (0, 0)) false) with seq := 1 })]
  inbox := if two then [(0, 3), (0, 4)] else [(0, 3)] }

theorem witness_halves : (∃ p, item (halves true) 0 0 = some (3, p) ∧ restOf (halves true) 0 3 p = some (4, [4, 5]) ∧
      restOf (halves false) 0 3 p = none) ∧ stalledOver (halves true) k0 5 = false ∧ staleAt (halves true) 0 (some (0, 0)) = false ∧
    pageOff (halves true) k0 = false ∧ guarded (halves true) k0 5 = false := by
  refine ⟨⟨_, rfl, by decide +kernel, by decide +kernel⟩, by decide +kernel⟩

theorem witness_homeGuards : (∀ n ∈ [4, 8, 16, 32, 64], guarded (wp .nothing id) k0 n = false ∧ injRead (wp .nothing id) k0 = false) ∧
    (let u : Put := ⟨0x8000, 4, [1, 2, 3, 4], none, 0, 0, 0⟩
     let s := { wp (.ringPut u) id with
       pkts := [(3, { pk (.ringPut u) with src := 2 }), (4, pk (.ringPut u))], inbox := [(0, 3), (0, 4)] }
     putBefore s 0 0x8000 1 = true ∧ putBefore s 0 0x8000 0 = false) ∧ (pk .nothing).place ≠ .early ∧
    stalledOver w0 (slotKey ⟨0, 0xFFF0000, 0, 0, [], []⟩ 0) 128 = false := by decide +kernel

theorem witness_agentItem : (∃ p r, agentItem (wp (.remote (rq 0xD2 0)) id) 0 0 = some (3, p, r)) ∧
    twinStill w0 0 = true ∧ keeps w0 0 = false ∧ ctx0.trapDue = none := ⟨⟨_, _, rfl⟩, by decide +kernel⟩

theorem witness_matrixSaves : (let l := { launch0 with state := .preempted true, desc := List.replicate 240 0 ++ bytesLE 8 0x8000 ++ List.replicate 8 0 }
    saveWaits w0 0 l = false) ∧
    (let s := { we (fun x => { x with matrix := ⟨MatUnit.clear, some 0, [], none, 0, []⟩ }) [] (ev0 0 0) with launches := [] }
     (s.tile 0).matrix.holder = some 0 ∧ s.launch 0 = none) ∧
    (let u := { MatUnit.clear with regErr := [(8192 + 32 * 2 + 1, true)], tcfg := MatUnit.clear.tcfg.set 2 0x4000 }
     cfgScl (u.cfg 2) ≠ 0 ∧ 8192 + 32 * 2 + 1 - 8192 = 32 * 2 + 3 / 2 ∧ u.bad 2 3 = false) := by decide +kernel

theorem witness_counted : (let p := { fp0 0 1 .source [.source] with effect := 7 }
    let s := { wf p with pkts := [(3, p), (4, p)] }
    s.pkt 4 = some p ∧ p.effect = p.effect ∧ p.owner = .act 5 ∧ { p with counted := true }.counted = true) ∧
    (wg (fun m => { m with overtemp := some (2, 125) }) { ev0 0 0 with flag := true, flag2 := true }).mgmt.overtemp = some (2, 125) := by
  decide +kernel

theorem witness_ownWalk : (let c := cp0 1 0 none
    let s := wo [c] [] []
    engineWalk (engineWalk s 0 c.asid (c.srcAt c.pos)) 0 c.asid (c.dstAt c.pos) = s ∧ c.sector = none ∧
    staleAt s 0 (some (c.asid, c.gen)) = false ∧ stalled s k0 = false ∧ s.mgmt.inject.getLsbD 63 = false) ∧
    lifeStalls (wl (lr0 0xF3 0 []) id) 0 = false ∧
    (let s := { wl (lr0 0xF4 0 []) id with nodeAreas := [0x500000, 0, 0, 0] }
     pageOff s (0x500000 + 64 * 3) = false) := by decide +kernel

end Sys2Proof.Tests
end

section

/-! What the home of a codelet does: a DECZ on its dependence counter (R52, R322) and the ready ring
that the last one feeds (R312). -/

namespace Sys2Proof.Proofs

open Sys2Proof.Machine

/-! ### Events and reads at a home -/

theorem eventStep_of_none {f : State → Option State} {s : State} (h : f s = none) : eventStep f s = .next s := by
  simp [eventStep, h]

theorem eventStep_of_some {f : State → Option State} {s s' : State} (h : f s = some s') :
    eventStep f s = .next s' := by
  simp [eventStep, h]

theorem fireRead_of_not_injRead {s : State} {k : Nat} (hinj : injRead s k = false) : fireRead s k = s := by
  simp [fireRead, hinj]

theorem uncorrectable_eq_false {s : State} {k n : Nat} (hinj : injRead s k = false) (hpoison : poisoned s k n = false) :
    uncorrectable s k n = false := by
  simp [uncorrectable, hinj, hpoison]

/-- A home's read that meets neither an armed injection nor poison leaves the state and gives the bytes (R398). -/
theorem homeRead_eq_visRead {s : State} {t off n : Nat} (what : Nat) (hinj : injRead s (keyScratch t off) = false)
    (hpoison : poisoned s (keyScratch t off) n = false) :
    homeRead s t off n what = (s, some (visRead s (keyScratch t off) n)) := by
  simp [homeRead, unitRead, fireRead_of_not_injRead hinj, uncorrectable_eq_false hinj hpoison]

/-! ### DECZ (R52, R322) -/

/-- A DECZ before item `i` in arrival order is one that item `i` waits for. -/
theorem deczBefore_of_earlier {s : State} {t off i j l : Nat} {b : Option Bar} {q : Packet} (hji : j < i)
    (hq : (inboxAt s t)[j]?.map (fun e => e.2) = some q) (hwork : q.work = .decz off l b) :
    deczBefore s t off i = true := by
  obtain ⟨e, he, rfl⟩ := Option.map_eq_some_iff.mp hq
  have hmem : e ∈ (inboxAt s t).take i :=
    List.mem_of_getElem? (by rw [List.getElem?_take_of_lt hji, he])
  exact List.any_eq_true.mpr ⟨e, hmem, by simp [hwork]⟩

theorem tryDeczPerform_of_deczBefore {s : State} {id off lslot : Nat} {p : Packet} {bar : Option Bar}
    (hitem : item s s.ev.who s.ev.idx = some (id, p)) (hwork : p.work = .decz off lslot bar)
    (hbefore : deczBefore s s.ev.who off s.ev.idx = true) : tryDeczPerform s = none := by
  simp [tryDeczPerform, hitem, hwork, hbefore]

/-- The DECZ `p`, item `id` of the home, is next on its counter, and the home neither refuses it nor meets
an error when it reads the counter. -/
structure DeczAtTurn (s : State) (id : Nat) (p : Packet) (off lslot : Nat) (bar : Option Bar) : Prop where
  isItem : item s s.ev.who s.ev.idx = some (id, p)
  work : p.work = .decz off lslot bar
  first : deczBefore s s.ev.who off s.ev.idx = false
  fresh : pktStale s p = false
  inArea : off + 48 ≤ Config.tableArea
  unguarded : guarded s (keyScratch s.ev.who off) 4 = false
  notInjected : injRead s (keyScratch s.ev.who off) = false
  unpoisoned : poisoned s (keyScratch s.ev.who off) 4 = false

/-- The dependence counter of the codelet at an offset, as its home reads it. -/
def deczCount (s : State) (off : Nat) : Nat := natLE (visRead s (keyScratch s.ev.who off) 4)

/-- The home with the dependence counter at an offset decremented. -/
def deczStored (s : State) (off : Nat) : State :=
  performStore s (keyScratch s.ev.who off) (bytesLE 4 (deczCount s off - 1)) 0

section

variable {s : State} {id off lslot : Nat} {p : Packet} {bar : Option Bar}

/-- Past its checks a DECZ is decided by the count alone. -/
theorem tryDeczPerform_at_turn (h : DeczAtTurn s id p off lslot bar) :
    tryDeczPerform s =
      if deczCount s off = 0 then some (sendArrival (finish s id none) s.ev.who lslot bar true 1 0)
      else if deczCount s off = 1 ∧ 512 ≤ (s.tile s.ev.who).ready.length then none
      else some (sendArrival (finish
        (if deczCount s off = 1 then
          (deczStored s off).modTile s.ev.who (fun x => { x with ready := x.ready ++ [(off / 16, lslot)] })
        else deczStored s off) id none) s.ev.who lslot bar false 0 0) := by
  have harea : inScratch off 48 = true := decide_eq_true h.inArea
  simp only [tryDeczPerform, h.isItem, h.work, h.first, h.fresh, harea, h.unguarded,
    homeRead_eq_visRead 0xE7 h.notInjected h.unpoisoned, Bool.not_true, Bool.or_false, Bool.false_eq_true, if_false]
  rfl

theorem exec_decz_of_count_zero (h : DeczAtTurn s id p off lslot bar) (hn : deczCount s off = 0) :
    exec .deczPerform s = .next (sendArrival (finish s id none) s.ev.who lslot bar true 1 0) := by
  refine eventStep_of_some ?_
  rw [tryDeczPerform_at_turn h, if_pos hn]

theorem exec_decz_of_one_lt_count (h : DeczAtTurn s id p off lslot bar) (hn : 1 < deczCount s off) :
    exec .deczPerform s =
      .next (sendArrival (finish (deczStored s off) id none) s.ev.who lslot bar false 0 0) := by
  have hzero : deczCount s off ≠ 0 := by omega
  have hone : deczCount s off ≠ 1 := by omega
  refine eventStep_of_some ?_
  rw [tryDeczPerform_at_turn h, if_neg hzero, if_neg (fun hfull => hone hfull.1), if_neg hone]

theorem exec_decz_of_count_one (h : DeczAtTurn s id p off lslot bar) (hn : deczCount s off = 1)
    (hroom : (s.tile s.ev.who).ready.length < 512) :
    exec .deczPerform s = .next (sendArrival (finish
      ((deczStored s off).modTile s.ev.who (fun x => { x with ready := x.ready ++ [(off / 16, lslot)] })) id none)
      s.ev.who lslot bar false 0 0) := by
  have hzero : deczCount s off ≠ 0 := by omega
  refine eventStep_of_some ?_
  rw [tryDeczPerform_at_turn h, if_neg hzero, if_neg (fun hfull => absurd hfull.2 (by omega)), if_pos hn]

end

/-! ### The ready ring (R312) -/

section

variable {s : State} {blk lslot : Nat} {r : List (Nat × Nat)}

/-- The record that the card of a block gives at its home, for a launch. -/
def readyRecord (s : State) (blk lslot : Nat) : Trigger :=
  cardTrigger (visRead s (keyScratch s.ev.who (16 * blk + 16)) 32) lslot

theorem exec_readyRing_of_join (hready : (s.tile s.ev.who).ready = (blk, lslot) :: r)
    (hinj : injRead s (keyScratch s.ev.who (16 * blk + 16)) = false)
    (hpoison : poisoned s (keyScratch s.ev.who (16 * blk + 16)) 32 = false) {home off : Nat}
    (hjoin : (readyRecord s blk lslot).join = some (home, off)) :
    exec .readyRingConvert s = .next (sendWork (s.modTile s.ev.who (fun x => { x with ready := r })) s.ev.who home
      .none lslot (.joinAdd off (readyRecord s blk lslot) s.ev.who)) := by
  refine eventStep_of_some ?_
  rw [readyRecord] at hjoin ⊢
  simp [tryReadyRingConvert, hready, homeRead_eq_visRead 0xE7 hinj hpoison, hjoin]

theorem exec_readyRing_of_no_join (hready : (s.tile s.ev.who).ready = (blk, lslot) :: r)
    (hinj : injRead s (keyScratch s.ev.who (16 * blk + 16)) = false)
    (hpoison : poisoned s (keyScratch s.ev.who (16 * blk + 16)) 32 = false)
    (hjoin : (readyRecord s blk lslot).join = none)
    (hroom : ((s.tile s.ev.who).deques.getD (readyRecord s blk lslot).eff []).length < 256 + 4096) :
    exec .readyRingConvert s = .next (inherit (s.modTile s.ev.who
      (fun x => { pushRecord x (readyRecord s blk lslot) s.cycle with ready := r }))) := by
  have hhas : hasRoom (s.tile s.ev.who) (readyRecord s blk lslot) = true := decide_eq_true hroom
  refine eventStep_of_some ?_
  rw [readyRecord] at hjoin hhas ⊢
  simp [tryReadyRingConvert, hready, homeRead_eq_visRead 0xE7 hinj hpoison, hjoin, hhas]

end

/-- Settles O21: by the order of arrival, then by the count that a DECZ reads at its turn, then by the JOIN
field of the oldest card. -/
theorem codelets : Obligations.Codelets := by
  unfold Obligations.Codelets
  refine ⟨?earlier, ?counter, ?ring⟩
  case earlier =>
    intro s id i p q off l1 l2 b1 b2 home hitem hwork hi hq hqwork
    exact eventStep_of_none (tryDeczPerform_of_deczBefore hitem hwork (deczBefore_of_earlier hi hq hqwork))
  case counter =>
    intro s id p home hitem hfresh off lslot bar hwork hfirst harea hguard hinj hpoison
    have h : DeczAtTurn s id p off lslot bar := ⟨hitem, hwork, hfirst, hfresh, harea, hguard, hinj, hpoison⟩
    exact ⟨exec_decz_of_count_zero h, exec_decz_of_one_lt_count h, exec_decz_of_count_one h⟩
  case ring =>
    intro s blk lslot r t k hready hinj hpoison
    exact ⟨fun _ _ => exec_readyRing_of_join hready hinj hpoison, exec_readyRing_of_no_join hready hinj hpoison⟩

end Sys2Proof.Proofs
end

section

/-! Targets: what the literal of a T48-L tail names (R105), and the checks of a target in their order (R106). -/

namespace Sys2Proof.Proofs

open Sys2Proof.Machine Sys2Proof.Laws Sys2Proof.Stated

/-! ### The literal of a T48-L tail (R105) -/

theorem wrapInt_of_inRange {w : Nat} {r : Int} (hnonneg : 0 ≤ r) (hlt : r < (2 ^ w : Nat)) :
    (wrapInt w r : Int) = r := by
  rw [wrapInt, Int.emod_eq_of_lt hnonneg hlt, Int.toNat_of_nonneg hnonneg]

section

variable {d : Int} {n : Nat}

theorem toNat_targetLiteral (d : Int) (n : Nat) :
    ((BitVec.ofInt 32 (d * 32 + n)).toNat : Int) = (d * 32 + n) % 2 ^ 32 := by
  rw [BitVec.toNat_ofInt, Int.toNat_of_nonneg (Int.emod_nonneg _ (by decide))]
  rfl

/-- Bits [20:16] of the tail: the head index. -/
theorem targetLiteral_head (hn : n < 32) : (BitVec.ofInt 32 (d * 32 + n)).toNat % 32 = n := by
  have hlit := toNat_targetLiteral d n
  omega

/-- Bits [47:21] of the tail: the signed line displacement. -/
theorem targetLiteral_line (hn : n < 32) (hlo : -(2 ^ 26) ≤ d) (hhi : d < 2 ^ 26) :
    sint 27 ((BitVec.ofInt 32 (d * 32 + n)).toNat / 32) = d := by
  have hlit := toNat_targetLiteral d n
  simp only [sint]
  split <;> omega

/-- R105: line(P) + 64 d + 2 n, for an address that does not wrap. -/
theorem immTarget_targetLiteral {p : Nat} (hp : p < 2 ^ 63) (hn : n < 32) (hlo : -(2 ^ 26) ≤ d) (hhi : d < 2 ^ 26)
    (hline : 0 ≤ (p / 64 * 64 : Int) + 64 * d) :
    (immTarget p (BitVec.ofInt 32 (d * 32 + n)) : Int) = p / 64 * 64 + 64 * d + 2 * n := by
  have hlineOf : (lineOf p : Int) = p / 64 * 64 := by simp [lineOf]
  rw [immTarget, targetLiteral_head hn, targetLiteral_line hn hlo hhi, hlineOf]
  exact wrapInt_of_inRange (by omega) (by omega)

end

/-! ### The line word (R86) -/

theorem natLE_lt (l : List Byte) : natLE l < 256 ^ l.length := by
  induction l with
  | nil => simp [natLE]
  | cons b r ih =>
    have hb := b.isLt
    simp only [natLE, List.length_cons, Nat.pow_succ]
    omega

theorem length_sliceB (l : List Byte) (o n : Nat) : (sliceB l o n).length = n := by
  simp only [sliceB, List.length_append, List.length_replicate, List.length_take]
  omega

theorem natAt_lt (l : List Byte) (o n : Nat) : natAt l o n < 256 ^ n := by
  rw [natAt]
  simpa only [length_sliceB] using natLE_lt (sliceB l o n)

theorem lineH_lineWord (b : List Byte) : lineH (BitVec.ofNat 16 (natAt b 0 2)) = natAt b 0 2 / 2048 := by
  have hword : natAt b 0 2 < 2 ^ 16 := natAt_lt b 0 2
  rw [lineH, BitVec.toNat_ofNat, Nat.mod_eq_of_lt hword]

/-! ### Checks 4 to 6 of R106: the line at a target -/

theorem lineTarget_of_invalid {b : List Byte} (a : Nat) (hvalid : lineValid b = false) :
    lineTarget b a = refuses .badLine := by
  simp [lineTarget, hvalid]

theorem lineTarget_of_no_start {b : List Byte} {a : Nat} (hvalid : lineValid b = true)
    (hhead : natAt b 0 2 / 2048 < a % 64 / 2 ∨ isBundleStart b (a % 64 / 2) = false) :
    lineTarget b a = refuses .badTarget := by
  rcases hhead with hpast | hinner
  · simp [lineTarget, hvalid, lineH_lineWord, headOf, hpast]
  · simp [lineTarget, hvalid, headOf, hinner]

theorem lineTarget_of_start {b : List Byte} {a : Nat} (hvalid : lineValid b = true)
    (hhead : a % 64 / 2 ≤ natAt b 0 2 / 2048) (hstart : isBundleStart b (a % 64 / 2) = true) :
    lineTarget b a = .ok := by
  simp [lineTarget, hvalid, lineH_lineWord, headOf, Nat.not_lt.mpr hhead, hstart]

/-! ### Check 3: the fetch of the line -/

section

variable {s : State} {g a : Nat}

theorem fetchLine_of_codeLoc_error {e : AddrError} (hloc : codeLoc s g a = .error e) :
    fetchLine s g a = if e.stall then .stall else .err e := by
  simp [fetchLine, hloc]

/-- Whether the fetch of a context's line at a location waits: for its generation (R294), or for its row or page. -/
def fetchWaits (s : State) (g : Nat) (l : Loc) : Bool :=
  staleAt s l.home (tagOf s (tileOf g) (s.ctx g).asid) || stalled s l.key

section

variable {l : Loc} (hloc : codeLoc s g a = .ok l)
include hloc

theorem fetchLine_of_waits (hwaits : fetchWaits s g l = true) : fetchLine s g a = .stall := by
  rw [fetchWaits] at hwaits
  simp [fetchLine, hloc, hwaits]

theorem fetchLine_of_reads (hwaits : fetchWaits s g l = false) (hguard : guarded s l.key 64 = false) :
    fetchLine s g a = if uncorrectable s l.key 64 then .poison l.key else .line (visRead s l.key 64) := by
  rw [fetchWaits] at hwaits
  simp [fetchLine, hloc, hwaits, hguard]

end

theorem targetLine_of_buffered {b : List Byte} (hbuffer : (s.ctx g).bufferLine a = some b) :
    targetLine s g a = .line b := by
  simp [targetLine, hbuffer]

theorem targetLine_of_not_buffered (hbuffer : (s.ctx g).bufferLine a = none) : targetLine s g a = fetchLine s g a := by
  simp [targetLine, hbuffer]

/-! ### The checks in their order (R106) -/

/-- What the checks of a head position answer to the fetch of its line. -/
def fetchTarget (a : Nat) : Fetch → Target
  | .err e => .err e
  | .stall => .stall
  | .poison k => .poison k
  | .line b => lineTarget b a

theorem checkTarget_of_odd (hodd : a % 2 = 1) : checkTarget s g a = refuses .badTarget := by
  simp [checkTarget, hodd]

theorem checkTarget_of_lineStart (hstart : a % 64 = 0) : checkTarget s g a = refuses .badTarget := by
  simp [checkTarget, hstart]

section

variable (heven : a % 2 = 0) (hhead : a % 64 ≠ 0)
include heven hhead

theorem checkTarget_of_head : checkTarget s g a = fetchTarget a (targetLine s g a) := by
  have hodd : ¬ a % 2 = 1 := by omega
  rw [checkTarget, if_neg hodd, if_neg hhead]
  cases targetLine s g a <;> rfl

theorem checkTarget_of_buffered {b : List Byte} (hbuffer : (s.ctx g).bufferLine a = some b) :
    checkTarget s g a = lineTarget b a := by
  rw [checkTarget_of_head heven hhead, targetLine_of_buffered hbuffer, fetchTarget]

theorem checkTarget_of_not_buffered (hbuffer : (s.ctx g).bufferLine a = none) :
    checkTarget s g a = fetchTarget a (fetchLine s g a) := by
  rw [checkTarget_of_head heven hhead, targetLine_of_not_buffered hbuffer]

theorem checkTarget_of_codeLoc_error (hbuffer : (s.ctx g).bufferLine a = none) {e : AddrError}
    (hloc : codeLoc s g a = .error e) : checkTarget s g a = if e.stall then .stall else .err e := by
  rw [checkTarget_of_not_buffered heven hhead hbuffer, fetchLine_of_codeLoc_error hloc]
  cases e.stall <;> rfl

theorem checkTarget_of_waits (hbuffer : (s.ctx g).bufferLine a = none) {l : Loc} (hloc : codeLoc s g a = .ok l)
    (hwaits : fetchWaits s g l = true) : checkTarget s g a = .stall := by
  rw [checkTarget_of_not_buffered heven hhead hbuffer, fetchLine_of_waits hloc hwaits, fetchTarget]

theorem checkTarget_of_reads (hbuffer : (s.ctx g).bufferLine a = none) {l : Loc} (hloc : codeLoc s g a = .ok l)
    (hwaits : fetchWaits s g l = false) (hguard : guarded s l.key 64 = false) :
    checkTarget s g a =
      if uncorrectable s l.key 64 then .poison l.key else lineTarget (visRead s l.key 64) a := by
  rw [checkTarget_of_not_buffered heven hhead hbuffer, fetchLine_of_reads hloc hwaits hguard]
  cases uncorrectable s l.key 64 <;> rfl

end

end

/-- A target whose line has come is decided by checks 4 to 6. -/
theorem checks_of_eq_lineTarget {r : Target} {b : List Byte} {a : Nat} (hr : r = lineTarget b a) :
    (lineValid b = false → r = refuses .badLine) ∧
    (lineValid b = true → (natAt b 0 2 / 2048 < a % 64 / 2 ∨ isBundleStart b (a % 64 / 2) = false) →
      r = refuses .badTarget) ∧
    (lineValid b = true → a % 64 / 2 ≤ natAt b 0 2 / 2048 → isBundleStart b (a % 64 / 2) = true → r = .ok) := by
  subst hr
  exact ⟨lineTarget_of_invalid a, lineTarget_of_no_start, lineTarget_of_start⟩

theorem immediateTargets : ImmediateTargets := by
  intro p lit d n hp hn hlo hhi hlit hline
  rw [hlit]
  exact immTarget_targetLiteral hp hn hlo hhi hline

theorem targetChecks : TargetChecks := by
  intro s g a
  refine ⟨checkTarget_of_odd, checkTarget_of_lineStart, fun heven hhead =>
    ⟨?buffered, fun hbuffer => ⟨?refused, ?located⟩⟩⟩
  case buffered =>
    intro b hbuffer
    exact checks_of_eq_lineTarget (checkTarget_of_buffered heven hhead hbuffer)
  case refused =>
    intro e hloc
    exact checkTarget_of_codeLoc_error heven hhead hbuffer hloc
  case located =>
    intro l hloc
    refine ⟨checkTarget_of_waits heven hhead hbuffer hloc,
      fun hwaits hguard hbad => ?_, fun hwaits hguard hbad => ?_⟩
    · rw [checkTarget_of_reads heven hhead hbuffer hloc hwaits hguard]
      exact if_pos hbad
    · have hline := checkTarget_of_reads heven hhead hbuffer hloc hwaits hguard
      exact checks_of_eq_lineTarget (hline.trans (if_neg (ne_true_of_eq_false hbad)))

/-- Settles O40: the two fields of a literal give the line and the head of its target, and each check of a
target decides it once those before it pass. -/
theorem targets : Obligations.Targets := by
  unfold Obligations.Targets
  exact ⟨immediateTargets, targetChecks⟩

end Sys2Proof.Proofs
end

section

/-! FCLASS: the fields of an FP32 code, the flush of a source, and the class of a code (R113, R124, R158). -/

namespace Sys2Proof.Proofs

open Sys2Proof.Machine Sys2Proof.Laws Sys2Proof.Stated

/-! ### The fields of an FP32 code (R113) -/

/-- The exponent field. -/
def fp32Exp (x : BitVec 32) : BitVec 8 := x.extractLsb' 23 8

/-- The fraction field. -/
def fp32Frac (x : BitVec 32) : BitVec 23 := x.extractLsb' 0 23

theorem toNat_fp32Exp (x : BitVec 32) : (fp32Exp x).toNat = x.toNat / 2 ^ 23 % 2 ^ 8 := by
  rw [fp32Exp, BitVec.extractLsb'_toNat, Nat.shiftRight_eq_div_pow]

theorem toNat_fp32Frac (x : BitVec 32) : (fp32Frac x).toNat = x.toNat % 2 ^ 23 := by
  rw [fp32Frac, BitVec.extractLsb'_toNat, Nat.shiftRight_zero]

/-- The sign bit as the decoder reads it. -/
theorem fp32_msb (x : BitVec 32) : x.msb = decide (x.toNat / 2 ^ 31 % 2 = 1) := by
  rw [BitVec.msb_eq_getLsbD_last, BitVec.getLsbD, Nat.testBit_eq_decide_div_mod_eq]

/-- The top bit of the fraction is clear below half its range: a NaN signals there (R114). -/
theorem not_msb_fp32Frac (x : BitVec 32) : (!(fp32Frac x).msb) = decide (x.toNat % 2 ^ 23 < 2 ^ 22) := by
  rw [BitVec.msb_eq_decide, toNat_fp32Frac, ← decide_not]
  exact decide_eq_decide.mpr Nat.not_le

/-- Decoding by fields: FP32 has both infinities and NaNs, and an exponent of zero has no hidden bit. -/
theorem decodeFmt_fp32 (x : BitVec 32) : decodeFmt .fp32 x.toNat =
    if fp32Exp x = 255#8 then (if fp32Frac x = 0#23 then .inf x.msb else .nan (!(fp32Frac x).msb))
    else if fp32Exp x = 0#8 then .fin ⟨x.msb, (fp32Frac x).toNat, 1, -149⟩
    else .fin ⟨x.msb, 2 ^ 23 + (fp32Frac x).toNat, 1, (fp32Exp x).toNat - 127 - 23⟩ := by
  simp [decodeFmt, Fmt.lay, Fmt.hasInf, BitVec.toNat_eq, toNat_fp32Exp, toNat_fp32Frac, fp32_msb,
    not_msb_fp32Frac]

theorem isSubnormal_fp32 (x : BitVec 32) :
    isSubnormal .fp32 x.toNat = (decide (fp32Exp x = 0#8) && !decide (fp32Frac x = 0#23)) := by
  simp [isSubnormal, Fmt.lay, BitVec.toNat_eq, toNat_fp32Exp, toNat_fp32Frac, bne, beq_eq_decide]

/-! ### The flush of a source (R124) -/

/-- A source as FTZ leaves it: the zero of its sign when its exponent field is zero. -/
def fp32Flush (ftz : Bool) (x : BitVec 32) : BitVec 32 :=
  if ftz ∧ fp32Exp x = 0#8 then x &&& 0x80000000#32 else x

theorem toNat_and_signBit (x : BitVec 32) : (x &&& 0x80000000#32).toNat = x.toNat / 2 ^ 31 * 2 ^ 31 := by
  have hx := x.isLt
  calc (x &&& 0x80000000#32).toNat
      = x.toNat &&& 2 ^ 31 := BitVec.toNat_and ..
    _ = x.toNat / 2 ^ 31 % 2 * 2 ^ 31 := by rw [Nat.and_two_pow, Nat.toNat_testBit]
    _ = x.toNat / 2 ^ 31 * 2 ^ 31 := by rw [Nat.mod_eq_of_lt (by omega)]

theorem toNat_of_fp32_zero {x : BitVec 32} (hexp : fp32Exp x = 0#8) (hfrac : fp32Frac x = 0#23) :
    x.toNat = x.toNat / 2 ^ 31 * 2 ^ 31 := by
  have hx := x.isLt
  have he : x.toNat / 2 ^ 23 % 2 ^ 8 = 0 := by rw [← toNat_fp32Exp, hexp, BitVec.toNat_zero]
  have hf : x.toNat % 2 ^ 23 = 0 := by rw [← toNat_fp32Frac, hfrac, BitVec.toNat_zero]
  omega

/-- The model flushes subnormals only; a zero is the zero of its sign already. -/
theorem ftzCode_fp32 (ftz : Bool) (x : BitVec 32) : ftzCode ftz .fp32 x.toNat = (fp32Flush ftz x).toNat := by
  rw [ftzCode, isSubnormal_fp32, fp32Flush]
  by_cases hflush : ftz ∧ fp32Exp x = 0#8
  · rw [if_pos hflush, toNat_and_signBit]
    by_cases hfrac : fp32Frac x = 0#23
    · simpa [hfrac] using toNat_of_fp32_zero hflush.2 hfrac
    · simp [hflush, hfrac, Fmt.bits]
  · rw [if_neg hflush, if_neg (by simpa using fun hftz hexp => absurd ⟨hftz, hexp⟩ hflush)]

/-! ### The class (R158) -/

/-- The bit that R158 gives an FP32 code. -/
def fp32Class (x : BitVec 32) : Nat :=
  if fp32Exp x = 255#8 then
    (if fp32Frac x = 0#23 then (if x.msb then 0 else 7) else if (fp32Frac x).msb then 9 else 8)
  else if fp32Exp x = 0#8 then
    (if fp32Frac x = 0#23 then (if x.msb then 3 else 4) else (if x.msb then 2 else 5))
  else (if x.msb then 1 else 6)

theorem classBit_eq_fp32Class (ftz : Bool) (x : BitVec 32) :
    classBit ftz x.toNat = fp32Class (fp32Flush ftz x) := by
  rw [classBit, ftzCode_fp32]
  generalize fp32Flush ftz x = y
  simp only [decodeFmt_fp32, isSubnormal_fp32, fp32Class]
  by_cases hspecial : fp32Exp y = 255#8
  · by_cases hfrac : fp32Frac y = 0#23
    · cases y.msb <;> simp [hspecial, hfrac]
    · cases (fp32Frac y).msb <;> simp [hspecial, hfrac]
  · by_cases hzero : fp32Exp y = 0#8
    · by_cases hfrac : fp32Frac y = 0#23
      · simp [hzero, hfrac]
      · have hnum : (fp32Frac y).toNat ≠ 0 := fun h => hfrac (BitVec.eq_of_toNat_eq h)
        simp [hzero, hfrac, hnum]
    · simp [hspecial, hzero]

theorem ofNat_two_pow (w n : Nat) : BitVec.ofNat w (2 ^ n) = BitVec.twoPow w n := by
  rw [BitVec.toNat_eq, BitVec.toNat_ofNat, BitVec.toNat_twoPow]

/-- Settles O5: the fields of the source as FTZ leaves it give its class, and FCLASS pushes the bit of that
class with no flag. -/
theorem floatingClass : Obligations.FloatingClass := by
  unfold Obligations.FloatingClass
  intro s h t a b c st x0 x e m neg hissues hreads
  obtain ⟨hrun, hguard⟩ := hissues
  have hclass : classBit (me s).ftz (a.toNat % 2 ^ 32) = fp32Class x := by
    rw [← BitVec.toNat_setWidth 32 a]
    exact classBit_eq_fp32Class (me s).ftz x0
  rw [exec_fclass, execFclass, fpForm_ok hrun hguard hreads, hclass, ofNat_two_pow]
  rfl

end Sys2Proof.Proofs
end

section

/-! Every encoded instruction runs as one head, which pushes the number of values that its form states. -/

namespace Sys2Proof.Proofs

open Sys2Proof.Machine Sys2Proof.Laws Sys2Proof.Stated

/-- An outcome is that of running the head `h`, whose form pushes `n` values (R90-R96). -/
def RunsHead (o : Host.Outcome State Fault Refusal) (s : State) (h : Head) (n : Nat) : Prop :=
  ∃ body, o = runHead s h n body

/-! ### The moulds -/

section

variable {s : State} {h : Head} {t : Tail} {n : Nat} {cl : LitClass}

theorem runsHead_runHead {body : State → Nat → Ctx → Stage → HeadResult} :
    RunsHead (runHead s h n body) s h n := ⟨_, rfl⟩

theorem runsHead_pushForm {f : State → Nat → Ctx → Word → Word → Word → Word} :
    RunsHead (pushForm cl h t s f) s h 1 := ⟨_, rfl⟩

theorem runsHead_intForm {f : Nat → Int → Int → Int → Int} :
    RunsHead (intForm h t s f) s h 1 := runsHead_pushForm

theorem runsHead_bitForm {f : Nat → Nat → Nat → Nat → Nat} :
    RunsHead (bitForm h t s f) s h 1 := runsHead_pushForm

theorem runsHead_predForm {f : Ctx → Word → Word → Bool × Flags} :
    RunsHead (predForm cl h t s f) s h 0 := ⟨_, rfl⟩

theorem runsHead_fpForm {f : Rm → Bool → Nat → Nat → Nat → Nat × Flags} :
    RunsHead (fpForm h t s f) s h 1 := ⟨_, rfl⟩

theorem runsHead_aForm {f : State → Nat → Ctx → Stage → Word → HeadResult} :
    RunsHead (aForm h t s f) s h 0 := ⟨_, rfl⟩

theorem runsHead_predOp {f : Bool → Bool → Bool} :
    RunsHead (predOp h t s f) s h 0 := by
  unfold predOp
  exact ⟨_, rfl⟩

theorem runsHead_privForm {denied : Bool} {f : State → Nat → Ctx → Stage → Word → HeadResult} :
    RunsHead (privForm h t s denied f) s h 0 := ⟨_, rfl⟩

theorem runsHead_vecForm {f : State → Nat → Ctx → Shape → Word → Word → Word → Stage → HeadResult} :
    RunsHead (vecForm h t s n f) s h n := ⟨_, rfl⟩

theorem runsHead_typedForm {f : State → Nat → Ctx → Shape → Word → Word → Word → Stage → HeadResult} :
    RunsHead (typedForm h t s n f) s h n := runsHead_vecForm

theorem runsHead_vecArith {fp : Rm → Bool → Nat → Nat → Nat → Nat → Nat × Flags}
    {int : Nat → Int → Int → Int → Int} :
    RunsHead (vecArith h t s fp int) s h 0 := runsHead_typedForm

theorem runsHead_vecSpecial {f : Bool → Nat → Nat × Flags} :
    RunsHead (vecSpecial h t s f) s h 0 := runsHead_typedForm

theorem runsHead_matForm {opc : Nat} {chk : MatCheck} : RunsHead (matForm opc chk h t s) s h 0 := ⟨_, rfl⟩

theorem runsHead_mmaForm {opc : Nat} : RunsHead (mmaForm opc h t s) s h 0 := runsHead_matForm

theorem runsHead_memForm {f : State → Nat → Ctx → Word → Word → Word → Stage → HeadResult} :
    RunsHead (memForm h t s n f) s h n := ⟨_, rfl⟩

theorem runsHead_sysForm {f : State → Nat → Ctx → Word → Word → Word → Stage → HeadResult} :
    RunsHead (sysForm h t s n f) s h n := ⟨_, rfl⟩

theorem runsHead_atomicForm {opc : Nat} : RunsHead (atomicForm opc h t s) s h 1 := runsHead_memForm

theorem runsHead_fenceForm {xp : Bool} : RunsHead (fenceForm xp h t s) s h 0 := ⟨_, rfl⟩

theorem runsHead_guardForm {set : Bool} {opc : Nat} :
    RunsHead (guardForm set opc h t s) s h 0 := runsHead_sysForm

theorem runsHead_queueForm {f : State → Nat → Ctx → Word → Word → Word → Stage → Except Stop Stage} :
    RunsHead (queueForm h t s n f) s h n := ⟨_, rfl⟩

theorem runsHead_maskForm {set : Bool} : RunsHead (maskForm set h t s) s h 1 := runsHead_queueForm

theorem runsHead_srctlForm {f : Stream → Option Stream} : RunsHead (srctlForm f h t s) s h 1 := ⟨_, rfl⟩

theorem runsHead_tbwaitForm {bit0 : Bool} : RunsHead (tbwaitForm bit0 h t s) s h 1 := ⟨_, rfl⟩

theorem runsHead_lifeForm {opc op k : Nat} {ok : List Byte → Bool} :
    RunsHead (lifeForm opc op k ok h t s) s h 0 := runsHead_queueForm

theorem runsHead_lifeSysForm {opc op k : Nat} {ok : List Byte → Bool} :
    RunsHead (lifeSysForm opc op k ok h t s) s h 0 := runsHead_sysForm

end

/-- What an encoded instruction runs, by the mould of its family. -/
theorem exec_runsHead {i : Instr} {F : Form} {h : Head} {t : Tail} (s : State)
    (hi : instrParts i = some (F, h, t)) : RunsHead (exec i s) s h (pushes F.opc i) := by
  cases i with
  | add | sub | mul | mulh | madd | div | rem | neg | abs | min | max | adds | subs | mov | lea | bound
    | avg =>
    cases hi
    unfold exec
    exact runsHead_intForm
  | and | or | xor | andn | orn | not | shl | shr | rol | ror | clz | ctz | popc | brev | bswap | bfi
    | alignup | aligndn | bset | bclr | binv | perm | cls =>
    cases hi
    unfold exec
    exact runsHead_bitForm
  | sar | bfx | ext | sel | ldi | ldih | ldk | crc | fnv | coord | absd | mulw | shladd =>
    cases hi
    unfold exec
    exact runsHead_pushForm
  | cmp | test | btst | fcmp | pset =>
    cases hi
    unfold exec
    exact runsHead_predForm
  | fadd | fsub | fmul | fdiv | fsqrt | fma | fms | fnma | fmin | fmax | fabs | fneg | fcpys | fclass
    | frint | fcvt | fcvtw | fminnum | fmaxnum | flogb | fexp2 | frcp | frsq =>
    cases hi
    unfold exec
    exact runsHead_fpForm
  | fscale | lbrk | pnot | pmov | crd | halt | nop | rdcyc | psave | bkpt | vspop =>
    cases hi
    unfold exec
    exact runsHead_runHead
  | br | brz | brnz | jmp | call | calli | ret | loop | loopr | trap | syscall | pause | pload | yield
    | yieldImm =>
    cases hi
    unfold exec
    exact runsHead_aForm
  | pand | por | pxor =>
    cases hi
    unfold exec
    exact runsHead_predOp
  | sysret | cwr =>
    cases hi
    unfold exec
    exact runsHead_privForm
  | vshape | vld | vst =>
    cases hi
    unfold exec
    exact runsHead_vecForm
  | vgath | vcmp | vsel | vredr | vredc | vbcastSc | vbcastRow | vbcastCol | vtran | vcvt | vpack | vunpk
    | vwfu | vwfm | vmovsGet | vmovsPut =>
    cases hi
    unfold exec
    exact runsHead_typedForm
  | vadd | vsub | vmul | vfma | vmin | vmax | vdiv =>
    cases hi
    unfold exec
    exact runsHead_vecArith
  | vexp2 | vlog2 | vrcp | vrsq =>
    cases hi
    unfold exec
    exact runsHead_vecSpecial
  | tcfg | tld | tst | tzero | aclr | tdrain | tchk | mmag | tring =>
    cases hi
    unfold exec
    exact runsHead_matForm
  | mmaBf16Bf16 | mmaF16F16 | mmaE4m3E4m3 | mmaE4m3E5m2 | mmaE5m2E4m3 | mmaE5m2E5m2 | mmaE2m3E2m3
    | mmaE2m1E2m1 | mmaE2m1E4m3 | mmaE4m3E2m1 | mmaLg6Lg6 | mmaLg6E4m3 | mmaE4m3Lg6 | mmaLg6E2m1
    | mmaE2m1Lg6 | mmaInt8Int8 | mmaMxe4m3Mxe4m3 | mmaMxe2m1Mxe2m1 | mmaMxe2m3Mxe2m3 | mmaMxe2m1Mxe4m3
    | mmaMxe4m3Mxe2m1 | mmaMxe5m2Mxe5m2 | mmaBf16E4m3 | mmaBf16Lg6 =>
    cases hi
    unfold exec
    exact runsHead_mmaForm
  | ld | st | ldp | stp | act | rld | rst | rred | rredRk | rcas | rsax | cswap | rfill | rldb =>
    cases hi
    unfold exec
    exact runsHead_memForm
  | ldx | ldxTag | stx | stxTag =>
    cases hi
    unfold exec
    exact runsHead_sysForm
  | aadd | aand | aor | axor | amin | amax | aswap | acas =>
    cases hi
    unfold exec
    exact runsHead_atomicForm
  | fence | fenceXp =>
    cases hi
    unfold exec
    exact runsHead_fenceForm
  | gset | gclr =>
    cases hi
    unfold exec
    exact runsHead_guardForm
  | send | fork | join | post | decz | rngput | rngget | osub | srset | tbinit | tbarr | tbexp | tbtest
    | launch =>
    cases hi
    unfold exec
    exact runsHead_queueForm
  | cmask | cunmask =>
    cases hi
    unfold exec
    exact runsHead_maskForm
  | srctlQuery | srctlStop | srctlRewind =>
    cases hi
    unfold exec
    exact runsHead_srctlForm
  | tbwait | tbwaitB =>
    cases hi
    unfold exec
    exact runsHead_tbwaitForm
  | lfind | lput | lrel | lstatRead =>
    cases hi
    unfold exec
    exact runsHead_lifeForm
  | lstatConfig | lstatClose =>
    cases hi
    unfold exec
    exact runsHead_lifeSysForm
  | fcvti =>
    cases hi
    unfold exec execFcvti
    exact runsHead_runHead
  | icvtf =>
    cases hi
    unfold exec execIcvtf
    exact runsHead_runHead
  | fcvtn =>
    cases hi
    unfold exec execFcvtn
    exact runsHead_runHead
  | _ => cases hi

/-! ### False guards (R91) -/

theorem pushZeros_eq (st : Stage) (n : Nat) :
    st.pushZeros n = { st with pushes := st.pushes ++ List.replicate n 0 } := by
  induction n generalizing st with
  | zero => simp [Stage.pushZeros]
  | succ n ih => simp [Stage.pushZeros, ih, Stage.push, List.replicate_succ]

/-- Settles O13: every encoded instruction runs as a head, and a head whose guard does not hold pushes the zeros
of its form. -/
theorem falseGuards : Obligations.FalseGuards := by
  unfold Obligations.FalseGuards
  intro s i F h t hi hrun hguard
  obtain ⟨body, hbody⟩ := exec_runsHead s hi
  rw [hbody, runHead_false hrun hguard, pushZeros_eq]

end Sys2Proof.Proofs
end

section

/-! Memory stays in canonical form: every instruction keeps it, an encoded one because its head does and a device
event because its action does, and so every step keeps it. -/

namespace Sys2Proof.Proofs

open Sys2Proof.Machine Sys2Proof.Laws Sys2Proof.Stated

/-- An action of a unit keeps the canonical form of memory. -/
def KeepsMem (f : State → Option State) : Prop := ∀ s s1, s.MemOk → f s = some s1 → s1.MemOk

/-- The meaning of an instruction keeps the canonical form of memory. -/
def OutcomeKeepsMem (f : State → Host.Outcome State Fault Refusal) : Prop :=
  ∀ s s', s.MemOk → f s = .next s' → s'.MemOk

/-! ### Heads -/

theorem memOk_runHead (h : Head) (n : Nat) (body : State → Nat → Ctx → Stage → HeadResult) :
    OutcomeKeepsMem (fun s => runHead s h n body) := by
  intro s s' hs hnext
  dsimp only at hnext
  by_cases hrun : (s.ctx s.cur).st = .run
  case neg =>
    rw [runHead_idle hrun] at hnext
    cases hnext
    exact hs
  case pos =>
    cases hguard : guardHolds (s.ctx s.cur) h
    case false =>
      rw [runHead_false hrun hguard] at hnext
      cases hnext
      exact memOk_afterHead _ _ _ _ hs
    case true =>
      rw [runHead_true hrun hguard] at hnext
      cases hnext
      cases body s s.cur (s.ctx s.cur) ((s.ctx s.cur).stageNow s.cycle) with
      | ok st => exact memOk_afterHead _ _ _ _ hs
      | stop x => exact memOk_stopHead _ _ _ _ _ hs
      | trap cause code => exact memOk_afterHead _ _ _ _ hs
      | guard => exact memOk_afterHead _ _ _ _ hs

theorem memOk_execIllegalOpcode (h : Head) (opc : BitVec 8) (tlen : BitVec 2) (d : Bool) (raw : BitVec 48) :
    OutcomeKeepsMem (execIllegalOpcode h opc tlen d raw) := by
  intro s s' hs hnext
  by_cases hrun : (s.ctx s.cur).st = .run
  · simp only [execIllegalOpcode, hrun, ne_eq, not_true_eq_false, if_false] at hnext
    cases hnext
    exact memOk_stopHead _ _ _ _ _ hs
  · simp only [execIllegalOpcode, hrun, ne_eq, not_false_eq_true, if_true] at hnext
    cases hnext
    exact hs

/-! ### Device events -/

theorem memOk_eventStep {f : State → Option State} (hf : KeepsMem f) : OutcomeKeepsMem (eventStep f) := by
  intro s s' hs hnext
  cases hnext
  exact memOk_getD _ _ (fun s1 hsome => hf s s1 hs hsome) hs

theorem keepsMem_or {f g : State → Option State} (hf : KeepsMem f) (hg : KeepsMem g) :
    KeepsMem (fun s => (f s).or (g s)) := by
  intro s s1 hs hsome
  rcases Option.or_eq_some_iff.mp hsome with h | ⟨_, h⟩
  · exact hf s s1 hs h
  · exact hg s s1 hs h

theorem keepsMem_mailCmd {opc need : Nat} {f : State → State} (hf : ∀ s, s.MemOk → (f s).MemOk) :
    KeepsMem (mailCmd opc need f) := fun _ _ hs => memOk_mailCmd _ _ _ _ _ hf hs

theorem keepsMem_slotCmd {opc : Nat} {f : State → Nat → Launch → State}
    (hf : ∀ s n l, s.MemOk → (f s n l).MemOk) : KeepsMem (slotCmd opc f) := fun _ _ hs => memOk_slotCmd _ _ _ _ hf hs

theorem keepsMem_barItem {f : State → Nat → Work → Option State}
    (hf : ∀ s t w s1, s.MemOk → f s t w = some s1 → s1.MemOk) : KeepsMem (barItem f) :=
  fun _ _ hs => memOk_barItem _ _ _ hf hs

theorem memOk_execPauseExpire : OutcomeKeepsMem execPauseExpire :=
  memOk_eventStep (fun _ _ hs h => by cases h; exact memOk_State_modCtx _ _ _ hs)

theorem memOk_execIdeKm : OutcomeKeepsMem execIdeKm :=
  memOk_eventStep (fun _ _ hs h => by cases h; exact hs)

/-! ### The barrier unit -/

theorem memOk_execBarrierArrival : OutcomeKeepsMem execBarrierArrival := by
  refine memOk_eventStep (keepsMem_barItem fun s t w s1 hs h => ?_)
  split at h
  · cases h; exact memOk_barUpdate _ _ _ _ _ hs
  · cases h

theorem memOk_execSectorCompletion : OutcomeKeepsMem execSectorCompletion := by
  refine memOk_eventStep (keepsMem_barItem fun s t w s1 hs h => ?_)
  split at h
  · cases h; exact memOk_barUpdate _ _ _ _ _ hs
  · cases h

theorem memOk_execTbinitPerform : OutcomeKeepsMem execTbinitPerform := by
  refine memOk_eventStep (keepsMem_barItem fun s t w s1 hs h => ?_)
  split at h
  · cases h; exact memOk_barUpdate _ _ _ _ _ hs
  · cases h

theorem memOk_execTbexpPerform : OutcomeKeepsMem execTbexpPerform := by
  refine memOk_eventStep (keepsMem_barItem fun s t w s1 hs h => ?_)
  split at h
  · cases h; exact memOk_barUpdate _ _ _ _ _ hs
  · cases h

/-! ### The commands of the mailbox -/

theorem memOk_execReadLog : OutcomeKeepsMem execReadLog :=
  memOk_eventStep (keepsMem_mailCmd fun s hs => memOk_answer s 0 (s.mgmt.log.take 60).flatten hs)

theorem memOk_execReadCounters : OutcomeKeepsMem execReadCounters := by
  refine memOk_eventStep (keepsMem_mailCmd fun s hs => ?_)
  dsimp only
  split
  · exact memOk_answer _ _ _ hs
  · exact memOk_answer _ _ _ hs

theorem memOk_execSelectPerf : OutcomeKeepsMem execSelectPerf := by
  refine memOk_eventStep (keepsMem_mailCmd fun s hs => ?_)
  dsimp only
  split
  · exact memOk_answer _ _ _ hs
  · split
    · exact memOk_answer _ _ _ (memOk_foldl _ _ _ (fun _ _ h => memOk_State_modTile _ _ _ h) hs)
    · split
      · exact memOk_answer _ _ _ hs
      · exact memOk_answer _ _ _ (memOk_State_modTile _ _ _ hs)

theorem memOk_execSetPower : OutcomeKeepsMem execSetPower :=
  memOk_eventStep (keepsMem_mailCmd fun _ hs => memOk_setPowerTo _ _ hs)

theorem memOk_execReadThermal : OutcomeKeepsMem execReadThermal :=
  memOk_eventStep (keepsMem_mailCmd fun _ hs => memOk_answer _ _ _ hs)

theorem memOk_execPreempt : OutcomeKeepsMem execPreempt := by
  refine memOk_eventStep (keepsMem_slotCmd fun s slot l hs => memOk_answer _ _ _ ?_)
  split
  · exact memOk_State_setLaunch _ _ _ hs
  · exact memOk_preemptLaunch _ _ _ hs

theorem memOk_execResume : OutcomeKeepsMem execResume := by
  refine memOk_eventStep (keepsMem_slotCmd fun s slot l hs => ?_)
  split
  · exact memOk_answer _ _ _ hs
  · split
    · exact memOk_answer _ _ _ (memOk_cancelSaves _ _ (memOk_resumeLaunch _ _ hs))
    · exact memOk_answer _ _ _ (memOk_State_setLaunch _ _ _ hs)

theorem memOk_execKill : OutcomeKeepsMem execKill :=
  memOk_eventStep (keepsMem_slotCmd fun _ _ _ hs => memOk_answer _ _ _ (memOk_killLaunch _ _ hs))

theorem memOk_execSetRoute : OutcomeKeepsMem execSetRoute := by
  refine memOk_eventStep (keepsMem_mailCmd fun s hs => ?_)
  dsimp only
  split
  · exact memOk_answer _ _ _ hs
  · split
    · exact memOk_answer _ _ _ hs
    · exact memOk_answer _ _ _ (by exact hs)

theorem memOk_execPeerEnable : OutcomeKeepsMem execPeerEnable :=
  memOk_eventStep (keepsMem_mailCmd fun _ hs => memOk_answer _ _ _ (by exact hs))

theorem memOk_execAttest : OutcomeKeepsMem execAttest := by
  refine memOk_eventStep (keepsMem_mailCmd fun s hs => ?_)
  dsimp only
  split
  · exact memOk_answer _ _ _ hs
  · exact memOk_answer _ _ _ (by exact hs)

theorem memOk_execInject : OutcomeKeepsMem execInject := by
  refine memOk_eventStep (keepsMem_mailCmd fun s hs => ?_)
  dsimp only
  split
  · exact memOk_answer _ _ _ hs
  · exact memOk_answer _ _ _ (by exact hs)

/-! ### Every instruction -/

/-- An instruction without an encoding: a reserved opcode faults, and a device event does what its unit does. -/
theorem memOk_exec_unencoded {i : Instr} (hi : instrParts i = none) : OutcomeKeepsMem (exec i) := by
  cases i with
  | illegalOpcode h opc tlen d raw => exact memOk_execIllegalOpcode h opc tlen d raw
  | pauseExpire => exact memOk_execPauseExpire
  | dispatch => exact memOk_eventStep memOk_tryDispatch
  | stageWaitExpire => exact memOk_eventStep memOk_tryStageWaitExpire
  | stealRequest => exact memOk_eventStep memOk_tryStealRequest
  | stealServe => exact memOk_eventStep memOk_tryStealServe
  | stealReply => exact memOk_eventStep memOk_tryStealReply
  | releaseAccept => exact memOk_eventStep memOk_tryReleaseAccept
  | spanHashCompare => exact memOk_eventStep memOk_trySpanHashCompare
  | spanTwinTimeout => exact memOk_eventStep memOk_trySpanTwinTimeout
  | continuationEnqueue => exact memOk_eventStep memOk_tryContinuationEnqueue
  | gangAdmit => exact memOk_eventStep memOk_tryGangAdmit
  | taskJoinSubtract => exact memOk_eventStep memOk_tryTaskJoinSubtract
  | stackGrowService => exact memOk_eventStep memOk_tryStackGrowService
  | preemption => exact memOk_eventStep memOk_tryPreemption
  | contextSave => exact memOk_eventStep memOk_tryContextSave
  | contextRestore => exact memOk_eventStep memOk_tryContextRestore
  | contextKill => exact memOk_eventStep memOk_tryContextKill
  | blockingTimeout => exact memOk_eventStep memOk_tryBlockingTimeout
  | packetResendTimeout => exact memOk_eventStep memOk_tryPacketResendTimeout
  | storePerform => exact memOk_eventStep memOk_tryStorePerform
  | localAtomicPerform => exact memOk_eventStep memOk_tryLocalAtomicPerform
  | guardBitsPerform => exact memOk_eventStep memOk_tryGuardBitsPerform
  | writeMergeDrain => exact memOk_eventStep (fun s => memOk_drainOne s _)
  | messageArrival => exact memOk_eventStep memOk_tryMessageArrival
  | joinCountAdd => exact memOk_eventStep memOk_tryJoinCountAdd
  | dequePush => exact memOk_eventStep memOk_tryDequePush
  | deczPerform => exact memOk_eventStep memOk_tryDeczPerform
  | readyRingConvert => exact memOk_eventStep memOk_tryReadyRingConvert
  | ringPutPerform => exact memOk_eventStep memOk_tryRingPutPerform
  | ringPutRetry => exact memOk_eventStep memOk_tryRingPutRetry
  | ringPutAbandon => exact memOk_eventStep memOk_tryRingPutAbandon
  | launchQueueWrite => exact memOk_eventStep (keepsMem_or memOk_tryLaunchQueueWrite memOk_tryLaunchHold)
  | launchWriteAbandon => exact memOk_eventStep memOk_tryLaunchWriteAbandon
  | launchRecordTake => exact memOk_eventStep memOk_tryLaunchRecordTake
  | keyedLookupResult => exact memOk_eventStep memOk_tryKeyedLookupResult
  | launchComplete => exact memOk_eventStep memOk_tryLaunchComplete
  | pacerRead => exact memOk_eventStep memOk_tryPacerRead
  | osubPerform => exact memOk_eventStep memOk_tryOsubPerform
  | osubAbandon => exact memOk_eventStep memOk_tryOsubAbandon
  | outriderAccept => exact memOk_eventStep memOk_tryOutriderAccept
  | outriderCmdStart => exact memOk_eventStep memOk_tryOutriderCmdStart
  | copyTransfer => exact memOk_eventStep memOk_tryCopyTransfer
  | copyComplete => exact memOk_eventStep memOk_tryCopyComplete
  | streamSlotFill => exact memOk_eventStep memOk_tryStreamSlotFill
  | listStart => exact memOk_eventStep memOk_tryListStart
  | listBranch => exact memOk_eventStep memOk_tryListBranch
  | listEnd => exact memOk_eventStep memOk_tryListEnd
  | stalledSlot => exact memOk_eventStep memOk_tryStalledSlot
  | agentRld => exact memOk_eventStep (memOk_takeRequest _)
  | agentRst => exact memOk_eventStep (memOk_takeRequest _)
  | agentRred => exact memOk_eventStep (memOk_takeRequest _)
  | agentRredRk => exact memOk_eventStep (memOk_takeRequest _)
  | rredRkExpire => exact memOk_eventStep memOk_tryRredRkExpire
  | agentRcas => exact memOk_eventStep (memOk_takeRequest _)
  | agentRsax => exact memOk_eventStep (memOk_takeRequest _)
  | agentRfill => exact memOk_eventStep (keepsMem_or (memOk_continueBlock _) (memOk_takeRequest _))
  | agentRldb => exact memOk_eventStep (keepsMem_or (memOk_continueBlock _) (memOk_takeRequest _))
  | agentRemapResume => exact memOk_eventStep memOk_tryAgentRemapResume
  | replyArrival => exact memOk_eventStep memOk_tryReplyArrival
  | barrierArrival => exact memOk_execBarrierArrival
  | sectorCompletion => exact memOk_execSectorCompletion
  | tbinitPerform => exact memOk_execTbinitPerform
  | tbexpPerform => exact memOk_execTbexpPerform
  | matrixCmdArrival => exact memOk_eventStep memOk_tryMatrixCmdArrival
  | matrixCmdTake => exact memOk_eventStep memOk_tryMatrixCmdTake
  | matrixSwap => exact memOk_eventStep memOk_tryMatrixSwap
  | tcfgPerform => exact memOk_eventStep memOk_tryTcfgPerform
  | tldStep => exact memOk_eventStep memOk_tryTldStep
  | tstStep => exact memOk_eventStep memOk_tryTstStep
  | tzeroPerform => exact memOk_eventStep memOk_tryTzeroPerform
  | aclrPerform => exact memOk_eventStep memOk_tryAclrPerform
  | tdrainStep => exact memOk_eventStep memOk_tryTdrainStep
  | tchkPerform => exact memOk_eventStep memOk_tryTchkPerform
  | mmaStep => exact memOk_eventStep memOk_tryMmaStep
  | mmagStep => exact memOk_eventStep memOk_tryMmagStep
  | ringSlotCopy => exact memOk_eventStep memOk_tryRingSlotCopy
  | tringInstall => exact memOk_eventStep memOk_tryTringInstall
  | castoffTile => exact memOk_eventStep memOk_tryCastoffTile
  | carriageStepResume => exact memOk_eventStep memOk_tryCarriageStepResume
  | cableSwapStart => exact memOk_eventStep memOk_tryCableSwapStart
  | cableSwapComplete => exact memOk_eventStep memOk_tryCableSwapComplete
  | refresh => exact memOk_eventStep memOk_tryRefresh
  | thermalSample => exact memOk_eventStep memOk_tryThermalSample
  | scrubRead => exact memOk_eventStep memOk_tryScrubRead
  | rowRepairComplete => exact memOk_eventStep memOk_tryRowRepairComplete
  | vaultBusParityError => exact memOk_eventStep memOk_tryVaultBusParityError
  | tileRetire => exact memOk_eventStep memOk_tryTileRetire
  | tlbWalk => exact memOk_eventStep memOk_tryTlbWalk
  | packetInject => exact memOk_eventStep memOk_tryPacketInject
  | flitAdvance => exact memOk_eventStep memOk_tryFlitAdvance
  | escapeEnter => exact memOk_eventStep memOk_tryEscapeEnter
  | ejectTimeout => exact memOk_eventStep memOk_tryEjectTimeout
  | escapeSlotReserve => exact memOk_eventStep memOk_tryEscapeSlotReserve
  | escapeArrival => exact memOk_eventStep memOk_tryEscapeArrival
  | closForward => exact memOk_eventStep memOk_tryClosForward
  | closEvict => exact memOk_eventStep memOk_tryClosEvict
  | packetArrival => exact memOk_eventStep memOk_tryPacketArrival
  | ackArrival => exact memOk_eventStep memOk_tryAckArrival
  | nackArrival => exact memOk_eventStep memOk_tryNackArrival
  | lifelineEntryRequest => exact memOk_eventStep memOk_tryLifelineEntryRequest
  | lfindPerform => exact memOk_eventStep memOk_tryLfindPerform
  | lputPerform => exact memOk_eventStep memOk_tryLputPerform
  | lrelPerform => exact memOk_eventStep memOk_tryLrelPerform
  | lstatReadPerform => exact memOk_eventStep memOk_tryLstatReadPerform
  | lstatConfigPerform => exact memOk_eventStep memOk_tryLstatConfigPerform
  | lstatClosePerform => exact memOk_eventStep memOk_tryLstatClosePerform
  | lifelineReply => exact memOk_eventStep memOk_tryLifelineReply
  | hdmRead => exact memOk_eventStep (fun s => memOk_outsideRead s _ _)
  | hdmWrite => exact memOk_eventStep (fun s => memOk_outsideWrite s _ _)
  | peerInboundAccess => exact memOk_eventStep memOk_tryPeerInboundAccess
  | xaoldFlitError => exact memOk_eventStep memOk_tryXaoldFlitError
  | mailboxRegisterWrite => exact memOk_eventStep memOk_tryMailboxRegisterWrite
  | readLog => exact memOk_execReadLog
  | readCounters => exact memOk_execReadCounters
  | selectPerf => exact memOk_execSelectPerf
  | setPower => exact memOk_execSetPower
  | quiesceComplete => exact memOk_eventStep memOk_tryQuiesceComplete
  | readThermal => exact memOk_execReadThermal
  | preempt => exact memOk_execPreempt
  | resume => exact memOk_execResume
  | kill => exact memOk_execKill
  | setRoute => exact memOk_execSetRoute
  | peerEnable => exact memOk_execPeerEnable
  | attest => exact memOk_execAttest
  | inject => exact memOk_execInject
  | errorLogPost => exact memOk_eventStep memOk_tryErrorLogPost
  | moduleReset => exact memOk_eventStep memOk_tryModuleReset
  | hobbleWindow => exact memOk_eventStep memOk_tryHobbleWindow
  | computeDieOvertemp => exact memOk_eventStep memOk_tryComputeDieOvertemp
  | badOpc => exact memOk_eventStep memOk_tryBadOpc
  | ideKm => exact memOk_execIdeKm  | _ => cases hi

theorem memOk_exec (i : Instr) : OutcomeKeepsMem (exec i) := by
  intro s s' hs hnext
  cases hi : instrParts i with
  | none => exact memOk_exec_unencoded hi s s' hs hnext
  | some parts =>
    obtain ⟨F, h, t⟩ := parts
    obtain ⟨body, hbody⟩ := exec_runsHead s hi
    exact memOk_runHead h _ body s s' hs (hbody ▸ hnext)

/-! ### Every step -/

/-- Settles O18: a pcyc and the choice of the next agent keep the canonical form, and so does what the agent
does. -/
theorem memoryStaysCanonical : Obligations.MemoryStaysCanonical := by
  unfold Obligations.MemoryStaysCanonical
  intro s s' hs hstep
  unfold step at hstep
  split at hstep
  case isTrue =>
    split at hstep
    · cases hstep
    · exact memOk_exec _ _ _ (by exact memOk_tick s hs) hstep
    · cases hstep
      exact hs
  case isFalse =>
    split at hstep
    next hplan =>
      cases hstep
      exact memOk_plan_done _ _ (memOk_tick s hs) hplan
    next hplan => exact memOk_exec _ _ _ (memOk_plan_run _ _ _ (memOk_tick s hs) hplan) hstep

end Sys2Proof.Proofs
end

section

/-! The decoder undoes the encoder (R89-R103): fields, tails, the row of the opcode map that accepts a tail, and
the layout that a head and its tail select. -/

namespace Sys2Proof.Proofs

open Sys2Proof.Machine Sys2Proof.Laws Sys2Proof.Stated

/-! ### Source and destination fields (R92, R97) -/

theorem decodeSrc_encodeSrc (x : Src) : decodeSrc (encodeSrc x) = some x := by
  cases x with
  | q i => revert i; decide
  | n i => revert i; decide
  | zero => decide
  | lit => decide
  | k => decide
  | pop i => revert i; decide

theorem encodeSrc_eq_lit (x : Src) : encodeSrc x = 0b110001#6 ↔ x = .lit := by
  constructor
  · intro h
    have hx := decodeSrc_encodeSrc x
    rw [h] at hx
    exact (Option.some.inj hx).symm
  · rintro rfl
    rfl

theorem decodeDest_encodeDest (d : Dest) : decodeDest d.isSome (encodeDest d) = some d := by
  cases d with
  | none => rfl
  | some i => simp [decodeDest, encodeDest, decodeSrc_encodeSrc]

/-! ### The fields of a tail (R101) -/

/-- A field of a tail whose bits are `x` above `lo` and anything below. -/
theorem tailFld_ofNat {n lo w : Nat} {x : BitVec w} (hn : n < 2 ^ 48) (hx : n / 2 ^ lo % 2 ^ w = x.toNat) :
    tailFld (BitVec.ofNat 48 n) lo w = x := by
  apply BitVec.eq_of_toNat_eq
  rw [tailFld, BitVec.toNat_ofNat, BitVec.toNat_ofNat, Nat.mod_eq_of_lt hn, Nat.shiftRight_eq_div_pow, hx]

theorem decodeTail_encodeTail (t : Tail) :
    decodeTail (layoutOf t) (tailD t).isSome (encodeTail t) = some t := by
  cases t with
  | none => rfl
  | t16 m b a =>
    have hm := m.isLt; have hb := (encodeSrc b).isLt; have ha := (encodeSrc a).isLt
    have ea : tailFld (encodeTail (.t16 m b a)) 0 6 = encodeSrc a := tailFld_ofNat (by omega) (by omega)
    have eb : tailFld (encodeTail (.t16 m b a)) 6 6 = encodeSrc b := tailFld_ofNat (by omega) (by omega)
    have em : tailFld (encodeTail (.t16 m b a)) 12 4 = m := tailFld_ofNat (by omega) (by omega)
    simp only [decodeTail, layoutOf, tailD, ea, eb, em, decodeSrc_encodeSrc, Option.isSome_none]
  | i20 v a =>
    have hv := v.isLt; have ha := (encodeSrc a).isLt
    have ea : tailFld (encodeTail (.i20 v a)) 0 6 = encodeSrc a := tailFld_ofNat (by omega) (by omega)
    have ev : tailFld (encodeTail (.i20 v a)) 12 20 = v := tailFld_ofNat (by omega) (by omega)
    simp only [decodeTail, layoutOf, tailD, ea, ev, decodeSrc_encodeSrc, Option.isSome_none]
  | t32 m d c b a =>
    have hm := m.isLt; have hd := (encodeDest d).isLt; have hc := (encodeSrc c).isLt
    have hb := (encodeSrc b).isLt; have ha := (encodeSrc a).isLt
    have ea : tailFld (encodeTail (.t32 m d c b a)) 0 6 = encodeSrc a := tailFld_ofNat (by omega) (by omega)
    have eb : tailFld (encodeTail (.t32 m d c b a)) 6 6 = encodeSrc b := tailFld_ofNat (by omega) (by omega)
    have ec : tailFld (encodeTail (.t32 m d c b a)) 12 6 = encodeSrc c := tailFld_ofNat (by omega) (by omega)
    have ed : tailFld (encodeTail (.t32 m d c b a)) 18 6 = encodeDest d := tailFld_ofNat (by omega) (by omega)
    have em : tailFld (encodeTail (.t32 m d c b a)) 24 8 = m := tailFld_ofNat (by omega) (by omega)
    simp only [decodeTail, layoutOf, tailD, ea, eb, ec, ed, em, decodeSrc_encodeSrc, decodeDest_encodeDest]
  | t48l v m d a =>
    have hv := v.isLt; have hm := m.isLt; have hd := (encodeDest d).isLt; have ha := (encodeSrc a).isLt
    have ea : tailFld (encodeTail (.t48l v m d a)) 0 6 = encodeSrc a := tailFld_ofNat (by omega) (by omega)
    have ed : tailFld (encodeTail (.t48l v m d a)) 6 6 = encodeDest d := tailFld_ofNat (by omega) (by omega)
    have em : tailFld (encodeTail (.t48l v m d a)) 12 4 = m := tailFld_ofNat (by omega) (by omega)
    have ev : tailFld (encodeTail (.t48l v m d a)) 16 32 = v := tailFld_ofNat (by omega) (by omega)
    simp only [decodeTail, layoutOf, tailD, ea, ed, em, ev, decodeSrc_encodeSrc, decodeDest_encodeDest]
  | t48x f m d c b a =>
    have hf := f.isLt; have hm := m.isLt; have hd := (encodeDest d).isLt; have hc := (encodeSrc c).isLt
    have hb := (encodeSrc b).isLt; have ha := (encodeSrc a).isLt
    have ea : tailFld (encodeTail (.t48x f m d c b a)) 0 6 = encodeSrc a := tailFld_ofNat (by omega) (by omega)
    have eb : tailFld (encodeTail (.t48x f m d c b a)) 6 6 = encodeSrc b := tailFld_ofNat (by omega) (by omega)
    have ec : tailFld (encodeTail (.t48x f m d c b a)) 12 6 = encodeSrc c := tailFld_ofNat (by omega) (by omega)
    have ed : tailFld (encodeTail (.t48x f m d c b a)) 18 6 = encodeDest d := tailFld_ofNat (by omega) (by omega)
    have em : tailFld (encodeTail (.t48x f m d c b a)) 24 8 = m := tailFld_ofNat (by omega) (by omega)
    have ef : tailFld (encodeTail (.t48x f m d c b a)) 32 16 = f := tailFld_ofNat (by omega) (by omega)
    simp only [decodeTail, layoutOf, tailD, ea, eb, ec, ed, em, ef, decodeSrc_encodeSrc, decodeDest_encodeDest]

/-! ### The rows of an opcode (R110) -/

/-- The rows of the opcode map at an opcode value. -/
def rowsAt (opc : Nat) : List Row := opcodeRows.filter (fun r => r.form.opc == opc)

/-- The row that the decoder takes for a tail makes the instruction. -/
def FindsRow (i : Instr) (F : Form) (h : Head) (t : Tail) : Prop :=
  ∃ r, (rowsAt F.opc).find? (fun r => formAccepts r.form t) = some r ∧ r.form = F ∧ r.build h t = i

section

variable {F : Form} {h : Head} {t : Tail} {b : Head → Tail → Instr} {r1 r2 : Row}

theorem findsRow_of_single (hrows : rowsAt F.opc = [⟨F, b⟩]) (haccepts : formAccepts F t = true) :
    FindsRow (b h t) F h t := ⟨⟨F, b⟩, by simp [hrows, haccepts], rfl, rfl⟩

theorem findsRow_of_first {rs : List Row} (hrows : rowsAt F.opc = ⟨F, b⟩ :: rs)
    (haccepts : formAccepts F t = true) : FindsRow (b h t) F h t := ⟨⟨F, b⟩, by simp [hrows, haccepts], rfl, rfl⟩

theorem findsRow_of_second {rs : List Row} (hrows : rowsAt F.opc = r1 :: ⟨F, b⟩ :: rs)
    (haccepts : formAccepts F t = true) (h1 : formAccepts r1.form t = false) : FindsRow (b h t) F h t :=
  ⟨⟨F, b⟩, by simp [hrows, haccepts, h1], rfl, rfl⟩

theorem findsRow_of_third {rs : List Row} (hrows : rowsAt F.opc = r1 :: r2 :: ⟨F, b⟩ :: rs)
    (haccepts : formAccepts F t = true) (h1 : formAccepts r1.form t = false) (h2 : formAccepts r2.form t = false) :
    FindsRow (b h t) F h t :=
  ⟨⟨F, b⟩, by simp [hrows, haccepts, h1, h2], rfl, rfl⟩

/-! Rows that share an opcode accept no tail in common: their modifiers, their VC or their layouts differ. -/

/-- What a form accepts passes its own rules. -/
theorem ok_of_formAccepts (haccepts : formAccepts F t = true) : F.ok t = true := by
  simp only [formAccepts, Bool.and_eq_true] at haccepts
  exact haccepts.2

theorem not_formAccepts_of_not_ok (hok : F.ok t = false) : formAccepts F t = false := by
  simp [formAccepts, hok]

end

section

variable {h : Head} {t : Tail}

theorem okVbc_mode {mode : Nat} (hok : okVbc mode t = true) : vVC t = mode := by
  simp only [okVbc, Bool.and_eq_true, beq_iff_eq] at hok
  obtain ⟨⟨⟨⟨⟨hmode, -⟩, -⟩, -⟩, -⟩, -⟩ := hok
  exact hmode

theorem okVbc_of_other_mode {mode other : Nat} (hok : okVbc mode t = true) (hne : mode ≠ other) :
    okVbc other t = false := by
  simp [okVbc, okVbc_mode hok, hne]

theorem okVmovs_get_of_put (hok : okVmovs true t = true) : okVmovs false t = false := by
  have hx : vX t = 1 := by
    simp only [okVmovs, if_true, Bool.and_eq_true, beq_iff_eq] at hok
    exact hok.2.1.1
  simp [okVmovs, hx]

theorem findsRow_vbcastRow (haccepts : formAccepts form_vbcastRow t = true) :
    FindsRow (.vbcastRow h t) form_vbcastRow h t :=
  findsRow_of_second rfl haccepts
    (not_formAccepts_of_not_ok (okVbc_of_other_mode (ok_of_formAccepts haccepts) (by decide)))

theorem findsRow_vbcastCol (haccepts : formAccepts form_vbcastCol t = true) :
    FindsRow (.vbcastCol h t) form_vbcastCol h t :=
  findsRow_of_third rfl haccepts
    (not_formAccepts_of_not_ok (okVbc_of_other_mode (ok_of_formAccepts haccepts) (by decide)))
    (not_formAccepts_of_not_ok (okVbc_of_other_mode (ok_of_formAccepts haccepts) (by decide)))

theorem findsRow_vmovsPut (haccepts : formAccepts form_vmovsPut t = true) :
    FindsRow (.vmovsPut h t) form_vmovsPut h t :=
  findsRow_of_second rfl haccepts (not_formAccepts_of_not_ok (okVmovs_get_of_put (ok_of_formAccepts haccepts)))

theorem findsRow_aclr (haccepts : formAccepts form_aclr t = true) : FindsRow (.aclr h t) form_aclr h t := by
  have hm : tailM t = 16 := by
    have hok := ok_of_formAccepts haccepts
    simp only [form_aclr, Bool.and_eq_true, beq_iff_eq] at hok
    exact hok.1.2
  exact findsRow_of_second rfl haccepts (not_formAccepts_of_not_ok (by simp [form_tzero, m0, hm]))

/-- LDX and STX of an owner tag have modifiers from 8. -/
theorem le_tailM_of_tag (hm : (tailM t == 8 || tailM t == 12) = true) : 8 ≤ tailM t := by
  simp only [Bool.or_eq_true, beq_iff_eq] at hm
  omega

theorem findsRow_ldxTag (haccepts : formAccepts form_ldxTag t = true) : FindsRow (.ldxTag h t) form_ldxTag h t := by
  have hm : 8 ≤ tailM t := by
    have hok := ok_of_formAccepts haccepts
    simp only [form_ldxTag, Bool.and_eq_true] at hok
    exact le_tailM_of_tag hok.2
  exact findsRow_of_second rfl haccepts (not_formAccepts_of_not_ok (by simp [form_ldx, hm]))

theorem findsRow_stxTag (haccepts : formAccepts form_stxTag t = true) : FindsRow (.stxTag h t) form_stxTag h t := by
  have hm : 8 ≤ tailM t := by
    have hok := ok_of_formAccepts haccepts
    simp only [form_stxTag, Bool.and_eq_true] at hok
    exact le_tailM_of_tag hok.2
  exact findsRow_of_second rfl haccepts (not_formAccepts_of_not_ok (by simp [form_stx, hm]))

theorem findsRow_yieldImm (haccepts : formAccepts form_yieldImm t = true) :
    FindsRow (.yieldImm h t) form_yieldImm h t := by
  have hlay : layoutOf t = .t48l := by
    simp only [formAccepts, form_yieldImm, Bool.and_eq_true] at haccepts
    obtain ⟨⟨⟨hlay, -⟩, -⟩, -⟩ := haccepts
    simpa using hlay
  exact findsRow_of_second rfl haccepts (by simp [formAccepts, form_yield, hlay])

theorem findsRow_srctlStop (haccepts : formAccepts form_srctlStop t = true) :
    FindsRow (.srctlStop h t) form_srctlStop h t := by
  have hm : tailM t / 8 = 2 := by
    have hok := ok_of_formAccepts haccepts
    simp only [form_srctlStop, Bool.and_eq_true, beq_iff_eq] at hok
    exact hok.2
  exact findsRow_of_second rfl haccepts
    (not_formAccepts_of_not_ok (by simp only [form_srctlQuery, hm]; simp))

theorem findsRow_srctlRewind (haccepts : formAccepts form_srctlRewind t = true) :
    FindsRow (.srctlRewind h t) form_srctlRewind h t := by
  have hm : tailM t / 8 = 4 := by
    have hok := ok_of_formAccepts haccepts
    simp only [form_srctlRewind, Bool.and_eq_true, beq_iff_eq] at hok
    exact hok.2
  exact findsRow_of_third rfl haccepts
    (not_formAccepts_of_not_ok (by simp only [form_srctlQuery, hm]; simp))
    (not_formAccepts_of_not_ok (by simp only [form_srctlStop, hm]; simp))

theorem findsRow_lstatConfig (haccepts : formAccepts form_lstatConfig t = true) :
    FindsRow (.lstatConfig h t) form_lstatConfig h t := by
  have hm : tailM t = 1 := by
    have hok := ok_of_formAccepts haccepts
    simp only [form_lstatConfig, Bool.and_eq_true, beq_iff_eq] at hok
    exact hok.2
  exact findsRow_of_second rfl haccepts (not_formAccepts_of_not_ok (by simp [form_lstatRead, hm]))

theorem findsRow_lstatClose (haccepts : formAccepts form_lstatClose t = true) :
    FindsRow (.lstatClose h t) form_lstatClose h t := by
  have hm : tailM t = 2 := by
    have hok := ok_of_formAccepts haccepts
    simp only [form_lstatClose, Bool.and_eq_true, beq_iff_eq] at hok
    exact hok.2
  exact findsRow_of_third rfl haccepts (not_formAccepts_of_not_ok (by simp [form_lstatRead, hm]))
    (not_formAccepts_of_not_ok (by simp [form_lstatConfig, hm]))

end

/-- The scalar page of the opcode map: every row has an opcode of its own. -/
theorem findsRow_of_scalar {i : Instr} {F : Form} {h : Head} {t : Tail} (hi : instrParts i = some (F, h, t))
    (haccepts : formAccepts F t = true) (hopc : F.opc < 0x80) : FindsRow i F h t := by
  cases i with
  | add | sub | mul | mulh | madd | div | rem | neg | abs | min | max | adds | subs | and | or | xor | andn
    | orn | not | shl | shr | sar | rol | ror | clz | ctz | popc | brev | bswap | bfx | bfi | ext | cmp
    | test | sel | mov | ldi | ldih | ldk | lea | crc | fnv | coord | alignup | aligndn | bound | bset
    | bclr | btst | binv | perm | cls | absd | avg | mulw | shladd | fadd | fsub | fmul | fdiv | fsqrt
    | fma | fms | fnma | fmin | fmax | fabs | fneg | fcpys | fcmp | fclass | frint | fcvt | fcvti | icvtf
    | fcvtn | fcvtw | fminnum | fmaxnum | fscale | flogb | fexp2 | frcp | frsq | br | brz | brnz | jmp
    | call | calli | ret | loop | loopr | lbrk | pand | por | pxor | pnot | pset | pmov | trap | syscall
    | sysret | crd | cwr | halt | nop | pause | rdcyc | psave | pload | bkpt =>
    cases hi
    exact findsRow_of_single rfl haccepts
  | illegalOpcode => cases hi
  | vshape | vld | vst | vgath | vadd | vsub | vmul | vfma | vmin | vmax | vdiv | vcmp | vsel | vredr
    | vredc | vbcastSc | vbcastRow | vbcastCol | vtran | vcvt | vpack | vunpk | vexp2 | vlog2 | vrcp | vrsq
    | vwfu | vwfm | vmovsGet | vmovsPut | vspop | tcfg | tld | tst | tzero | aclr | tdrain | tchk | mmag
    | tring | mmaBf16Bf16 | mmaF16F16 | mmaE4m3E4m3 | mmaE4m3E5m2 | mmaE5m2E4m3 | mmaE5m2E5m2 | mmaE2m3E2m3
    | mmaE2m1E2m1 | mmaE2m1E4m3 | mmaE4m3E2m1 | mmaLg6Lg6 | mmaLg6E4m3 | mmaE4m3Lg6 | mmaLg6E2m1
    | mmaE2m1Lg6 | mmaInt8Int8 | mmaMxe4m3Mxe4m3 | mmaMxe2m1Mxe2m1 | mmaMxe2m3Mxe2m3 | mmaMxe2m1Mxe4m3
    | mmaMxe4m3Mxe2m1 | mmaMxe5m2Mxe5m2 | mmaBf16E4m3 | mmaBf16Lg6 | ld | st | ldp | stp | ldx | ldxTag
    | stx | stxTag | aadd | aand | aor | axor | amin | amax | aswap | acas | act | rld | rst | rred
    | rredRk | rcas | rsax | fence | fenceXp | cswap | gset | gclr | rfill | rldb | send | yield | yieldImm
    | cmask | cunmask | fork | join | post | decz | rngput | rngget | osub | srset | srctlQuery | srctlStop
    | srctlRewind | tbinit | tbarr | tbexp | tbwait | tbwaitB | tbtest | lfind | lput | lrel | lstatRead
    | lstatConfig | lstatClose | launch =>
    cases hi
    exact absurd hopc (by decide)
  | _ => cases hi

/-- The other pages. -/
theorem findsRow_of_unit {i : Instr} {F : Form} {h : Head} {t : Tail} (hi : instrParts i = some (F, h, t))
    (haccepts : formAccepts F t = true) (hopc : 0x80 ≤ F.opc) : FindsRow i F h t := by
  cases i with
  | vshape | vld | vst | vgath | vadd | vsub | vmul | vfma | vmin | vmax | vdiv | vcmp | vsel | vredr
    | vredc | vtran | vcvt | vpack | vunpk | vexp2 | vlog2 | vrcp | vrsq | vwfu | vwfm | vspop | tcfg | tld
    | tst | tdrain | tchk | mmag | tring | mmaBf16Bf16 | mmaF16F16 | mmaE4m3E4m3 | mmaE4m3E5m2
    | mmaE5m2E4m3 | mmaE5m2E5m2 | mmaE2m3E2m3 | mmaE2m1E2m1 | mmaE2m1E4m3 | mmaE4m3E2m1 | mmaLg6Lg6
    | mmaLg6E4m3 | mmaE4m3Lg6 | mmaLg6E2m1 | mmaE2m1Lg6 | mmaInt8Int8 | mmaMxe4m3Mxe4m3 | mmaMxe2m1Mxe2m1
    | mmaMxe2m3Mxe2m3 | mmaMxe2m1Mxe4m3 | mmaMxe4m3Mxe2m1 | mmaMxe5m2Mxe5m2 | mmaBf16E4m3 | mmaBf16Lg6 | ld
    | st | ldp | stp | aadd | aand | aor | axor | amin | amax | aswap | acas | act | rld | rst | rred
    | rredRk | rcas | rsax | fence | fenceXp | cswap | gset | gclr | rfill | rldb | send | cmask | cunmask
    | fork | join | post | decz | rngput | rngget | osub | srset | tbinit | tbarr | tbexp | tbwait
    | tbwaitB | tbtest | lfind | lput | lrel | launch =>
    cases hi
    exact findsRow_of_single rfl haccepts
  | vbcastSc | vmovsGet | tzero | ldx | stx | yield | srctlQuery | lstatRead =>
    cases hi
    exact findsRow_of_first rfl haccepts
  | vbcastRow => cases hi; exact findsRow_vbcastRow haccepts
  | vbcastCol => cases hi; exact findsRow_vbcastCol haccepts
  | vmovsPut => cases hi; exact findsRow_vmovsPut haccepts
  | aclr => cases hi; exact findsRow_aclr haccepts
  | ldxTag => cases hi; exact findsRow_ldxTag haccepts
  | stxTag => cases hi; exact findsRow_stxTag haccepts
  | yieldImm => cases hi; exact findsRow_yieldImm haccepts
  | srctlStop => cases hi; exact findsRow_srctlStop haccepts
  | srctlRewind => cases hi; exact findsRow_srctlRewind haccepts
  | lstatConfig => cases hi; exact findsRow_lstatConfig haccepts
  | lstatClose => cases hi; exact findsRow_lstatClose haccepts
  | illegalOpcode => cases hi
  | add | sub | mul | mulh | madd | div | rem | neg | abs | min | max | adds | subs | and | or | xor | andn
    | orn | not | shl | shr | sar | rol | ror | clz | ctz | popc | brev | bswap | bfx | bfi | ext | cmp
    | test | sel | mov | ldi | ldih | ldk | lea | crc | fnv | coord | alignup | aligndn | bound | bset
    | bclr | btst | binv | perm | cls | absd | avg | mulw | shladd | fadd | fsub | fmul | fdiv | fsqrt
    | fma | fms | fnma | fmin | fmax | fabs | fneg | fcpys | fcmp | fclass | frint | fcvt | fcvti | icvtf
    | fcvtn | fcvtw | fminnum | fmaxnum | fscale | flogb | fexp2 | frcp | frsq | br | brz | brnz | jmp
    | call | calli | ret | loop | loopr | lbrk | pand | por | pxor | pnot | pset | pmov | trap | syscall
    | sysret | crd | cwr | halt | nop | pause | rdcyc | psave | pload | bkpt =>
    cases hi
    exact absurd hopc (by decide)
  | _ => cases hi

theorem findsRow {i : Instr} {F : Form} {h : Head} {t : Tail} (hi : instrParts i = some (F, h, t))
    (haccepts : formAccepts F t = true) : FindsRow i F h t := by
  rcases Nat.lt_or_ge F.opc 0x80 with hopc | hopc
  · exact findsRow_of_scalar hi haccepts hopc
  · exact findsRow_of_unit hi haccepts hopc

/-! ### Facts about every row of the map -/

theorem opcAssigned_of_row : ∀ r ∈ opcodeRows, opcAssigned r.form.opc = true := by decide +kernel

theorem opc_lt_of_row : ∀ r ∈ opcodeRows, r.form.opc < 256 := by decide +kernel

/-- No opcode has both T48-L and T48-X (R102). -/
theorem layouts_apart : ∀ r ∈ opcodeRows.filter (fun r => r.form.lays.contains .t48x),
    ∀ q ∈ opcodeRows.filter (fun r => r.form.lays.contains .t48l), q.form.opc ≠ r.form.opc := by decide +kernel

theorem mem_rowsAt {r : Row} {opc : Nat} : r ∈ rowsAt opc ↔ r ∈ opcodeRows ∧ r.form.opc = opc := by
  simp [rowsAt]

/-! ### The layout that the decoder selects (R101, R102) -/

/-- Whether an opcode has a layout. -/
def opcodeHas (opc : Nat) (l : LayoutK) : Bool := (rowsAt opc).any (fun r => r.form.lays.contains l)

theorem opcodeHas_of_row {opc : Nat} {r : Row} {l : LayoutK} (hr : r ∈ rowsAt opc)
    (hlay : r.form.lays.contains l = true) : opcodeHas opc l = true := List.any_eq_true.mpr ⟨r, hr, hlay⟩

/-- An opcode with T48-X has no T48-L. -/
theorem not_opcodeHas_t48l {r : Row} (hr : r ∈ rowsAt r.form.opc) (hlay : r.form.lays.contains .t48x = true) :
    ¬ opcodeHas r.form.opc .t48l = true := by
  intro hl
  obtain ⟨q, hq, hql⟩ := List.any_eq_true.mp hl
  obtain ⟨hqrow, hqopc⟩ := mem_rowsAt.mp hq
  have hrow := (mem_rowsAt.mp hr).1
  exact layouts_apart r (List.mem_filter.mpr ⟨hrow, hlay⟩) q (List.mem_filter.mpr ⟨hqrow, hql⟩) hqopc

/-- Whether a head with this tail selects I20 rather than T32 (R103). -/
def marker (opc : Nat) (raw : BitVec 48) : Bool :=
  tailFld raw 6 6 == 0b110001#6 && opcodeHas opc .i20

theorem marker_i20 {opc : Nat} {r : Row} (hr : r ∈ rowsAt opc) (hlay : r.form.lays.contains .i20 = true)
    (v : BitVec 20) (a : Src) : marker opc (encodeTail (.i20 v a)) = true := by
  have hv := v.isLt
  have ha := (encodeSrc a).isLt
  have hfld : tailFld (encodeTail (.i20 v a)) 6 6 = 0b110001#6 := tailFld_ofNat (by omega) (by simp; omega)
  simp only [marker, hfld, opcodeHas_of_row hr hlay, beq_self_eq_true, Bool.and_self]

theorem marker_t32 {opc : Nat} {m : BitVec 8} {d : Dest} {c b a : Src} (hb : b ≠ .lit) :
    marker opc (encodeTail (.t32 m d c b a)) = false := by
  have hm := m.isLt
  have hd := (encodeDest d).isLt
  have hc := (encodeSrc c).isLt
  have hblt := (encodeSrc b).isLt
  have ha := (encodeSrc a).isLt
  have hfld : tailFld (encodeTail (.t32 m d c b a)) 6 6 = encodeSrc b := tailFld_ofNat (by omega) (by omega)
  have hne : ¬ encodeSrc b = 0b110001#6 := fun h => hb ((encodeSrc_eq_lit b).mp h)
  simp [marker, hfld, hne]

/-- T32 has no literal (R97). -/
theorem ne_lit_of_operandsOk_t32 {litX : Bool} {m : BitVec 8} {d : Dest} {c b a : Src}
    (hok : operandsOk litX (.t32 m d c b a) = true) : b ≠ .lit := by
  rintro rfl
  simp [operandsOk, countLit, List.filter_cons] at hok
  split at hok <;> simp at hok

/-- The layout of an accepted tail is the first of its TLEN that the opcode has. -/
theorem find_layout {F : Form} {t : Tail} {r : Row} (hr : r ∈ rowsAt F.opc) (hform : r.form = F)
    (haccepts : formAccepts F t = true) :
    (tlenLayouts (encodeTlen t) (marker F.opc (encodeTail t))).find? (opcodeHas F.opc) = some (layoutOf t) := by
  subst hform
  simp only [formAccepts, Bool.and_eq_true] at haccepts
  obtain ⟨⟨⟨hlay, hok⟩, -⟩, -⟩ := haccepts
  have hhas : opcodeHas r.form.opc (layoutOf t) = true := opcodeHas_of_row hr hlay
  cases t with
  | none => exact List.find?_cons_of_pos hhas
  | t16 m b a => exact List.find?_cons_of_pos hhas
  | i20 v a =>
    rw [marker_i20 hr hlay]
    exact List.find?_cons_of_pos hhas
  | t32 m d c b a =>
    rw [marker_t32 (ne_lit_of_operandsOk_t32 hok)]
    exact List.find?_cons_of_pos hhas
  | t48l v m d a => exact List.find?_cons_of_pos hhas
  | t48x f m d c b a =>
    change List.find? (opcodeHas r.form.opc) [LayoutK.t48l, LayoutK.t48x] = _
    rw [List.find?_cons_of_neg (not_opcodeHas_t48l hr hlay)]
    exact List.find?_cons_of_pos hhas

/-! ### The head word and the whole decoder (R89) -/

theorem extractLsb'_pred (head : BitVec 16) : head.extractLsb' 2 3 = BitVec.ofNat 3 (head.toNat / 4) := by
  apply BitVec.eq_of_toNat_eq
  rw [BitVec.extractLsb'_toNat, BitVec.toNat_ofNat, Nat.shiftRight_eq_div_pow]

/-- The decoder on a head word whose opcode and TLEN fields are these. -/
theorem decodeHead_of_fields {head : BitVec 16} {opc tlen : Nat} {h : Head} {d : Bool} (raw : BitVec 48)
    (hopc : head.toNat / 256 = opc) (htlen : head.toNat / 64 % 4 = tlen) (hchain : head.getLsbD 5 = h.chain)
    (hpred : head.extractLsb' 2 3 = h.pred) (hsense : head.getLsbD 1 = h.sense) (hd : head.getLsbD 0 = d) :
    decodeHead head raw =
      if (rowsAt opc).isEmpty then .ok (.illegalOpcode h (BitVec.ofNat 8 opc) (BitVec.ofNat 2 tlen) d raw)
      else
        match (tlenLayouts tlen (marker opc raw)).find? (opcodeHas opc) with
        | none => .bad .illegalOpcode
        | some l =>
          match decodeTail l d raw with
          | none => .bad .illegalOperand
          | some t =>
            match (rowsAt opc).find? (fun r => formAccepts r.form t) with
            | none => .bad .illegalOperand
            | some r => if headOk h then .ok (r.build h t) else .bad .illegalOperand := by
  obtain ⟨pred, sense, chain⟩ := h
  rw [extractLsb'_pred] at hpred
  subst hopc htlen hchain hpred hsense hd
  rfl

theorem decodeHead_illegalOpcode {h : Head} {opc : BitVec 8} {tlen : BitVec 2} {d : Bool} {raw : BitVec 48}
    (hopc : opcAssigned opc.toNat = false) :
    decodeHead (encodeHeadWord opc.toNat tlen.toNat h d) raw = .ok (.illegalOpcode h opc tlen d raw) := by
  obtain ⟨hop, htl, hch, hpr, hse, hdd⟩ := encodeHeadWord_fields opc.toNat tlen.toNat h d opc.isLt tlen.isLt
  have hempty : rowsAt opc.toNat = [] := by
    refine List.eq_nil_iff_forall_not_mem.mpr fun r hr => ?_
    obtain ⟨hrow, heq⟩ := mem_rowsAt.mp hr
    have hassigned := opcAssigned_of_row r hrow
    rw [heq, hopc] at hassigned
    cases hassigned
  rw [decodeHead_of_fields raw hop htl hch hpr hse hdd, hempty]
  simp

theorem decodeHead_encoded {i : Instr} {F : Form} {h : Head} {t : Tail} (hi : instrParts i = some (F, h, t))
    (haccepts : formAccepts F t = true) (hhead : headOk h = true) :
    decodeHead (encodeHeadWord F.opc (encodeTlen t) h (tailD t).isSome) (encodeTail t) = .ok i := by
  obtain ⟨r, hfind, hform, hbuild⟩ := findsRow hi haccepts
  have hr : r ∈ rowsAt F.opc := List.mem_of_find?_eq_some hfind
  have hlt : F.opc < 256 := hform ▸ opc_lt_of_row r (mem_rowsAt.mp hr).1
  obtain ⟨hop, htl, hch, hpr, hse, hdd⟩ :=
    encodeHeadWord_fields F.opc (encodeTlen t) h (tailD t).isSome hlt (encodeTlen_lt t)
  have hne : ¬ (rowsAt F.opc).isEmpty = true := by
    rw [List.isEmpty_iff]
    exact List.ne_nil_of_mem hr
  rw [decodeHead_of_fields _ hop htl hch hpr hse hdd, if_neg hne, find_layout hr hform haccepts]
  simp only [decodeTail_encodeTail, hfind, hhead, hbuild, if_true]

section

variable {i : Instr} {F : Form} {h : Head} {t : Tail}

theorem encode_of_parts (hi : instrParts i = some (F, h, t)) :
    encode i = some (encodeHeadWord F.opc (encodeTlen t) h (tailD t).isSome, encodeTail t) := by
  unfold encode
  split
  · cases hi
  · rw [hi]

theorem encode_of_no_parts (hi : instrParts i = none)
    (hopcode : ∀ h opc tlen d raw, i ≠ .illegalOpcode h opc tlen d raw) : encode i = none := by
  unfold encode
  split
  · exact absurd rfl (hopcode _ _ _ _ _)
  · rw [hi]

theorem accepts_of_wf (hi : instrParts i = some (F, h, t)) (hwf : i.wf = true) :
    formAccepts F t = true ∧ headOk h = true := by
  unfold Instr.wf at hwf
  split at hwf
  · cases hi
  · simpa [hi] using hwf

end

/-- Settles O17: a reserved opcode has no row and is read back from its fields; any other instruction's tail is
read back in its layout and accepted by its own row alone. -/
theorem decodeEncode : Obligations.DecodeEncode := by
  unfold Obligations.DecodeEncode
  intro i head tail hwf hencode
  by_cases hopcode : ∃ h opc tlen d raw, i = .illegalOpcode h opc tlen d raw
  case pos =>
    obtain ⟨h, opc, tlen, d, raw, rfl⟩ := hopcode
    cases hencode
    simp only [Instr.wf, Bool.and_eq_true, Bool.not_eq_true'] at hwf
    exact decodeHead_illegalOpcode hwf.1
  case neg =>
    cases hi : instrParts i with
    | none =>
      rw [encode_of_no_parts hi (fun h opc tlen d raw heq => hopcode ⟨h, opc, tlen, d, raw, heq⟩)] at hencode
      cases hencode
    | some parts =>
      obtain ⟨F, h, t⟩ := parts
      obtain ⟨haccepts, hhead⟩ := accepts_of_wf hi hwf
      rw [encode_of_parts hi] at hencode
      cases hencode
      exact decodeHead_encoded hi haccepts hhead

end Sys2Proof.Proofs
end

section

/-! The integer instructions: the numbers that a form reads and pushes are those of W bits under its suffix (R143),
and each form pushes its exact result (R145, R146). -/

namespace Sys2Proof.Proofs

open Sys2Proof.Machine Sys2Proof.Laws Sys2Proof.Stated

/-! ### Numbers of W bits (R143) -/

theorem intOf_eq_rd (sg : Bool) (w : Nat) (a : Word) : intOf sg w a = rd sg w a := by
  cases sg
  · exact intOf_false w a
  · exact intOf_true w a

theorem intPush_eq_wr (sg : Bool) (w : Nat) (r : Int) : intPush sg w r = wr sg w r := by
  cases sg
  · exact intPush_false w r
  · exact intPush_true w r

theorem clampInt_eq (sg : Bool) (w : Nat) (r : Int) :
    clampInt sg w r = max (least sg w) (min (greatest sg w) r) := by
  cases sg <;> simp [clampInt, least, greatest]

section

variable {s : State} {h : Head} {t : Tail} {a b c : Word} {st : Stage} {sg : Bool}

/-- An integer form pushes its exact result at width W under the suffix. -/
theorem intForm_pushes {f : Nat → Int → Int → Int → Int} {r : Int} (hissues : Issues s h)
    (hreads : Reads (.int (tailSigned t)) s t a b c st)
    (hr : f (tailW t) (rd (tailSigned t) (tailW t) a) (rd (tailSigned t) (tailW t) b)
      (rd (tailSigned t) (tailW t) c) = r) :
    intForm h t s f = .next (after s h (pushed st t (wr (tailSigned t) (tailW t) r))) := by
  rw [intForm_ok hissues.1 hissues.2 hreads, intPush_eq_wr, intOf_eq_rd, intOf_eq_rd, intOf_eq_rd, hr]

/-- A form that computes one value pushes it. -/
theorem pushForm_pushes {cl : LitClass} {f : State → Nat → Ctx → Word → Word → Word → Word} {v : Word}
    (hissues : Issues s h) (hreads : Reads cl s t a b c st) (hv : f s s.cur (me s) a b c = v) :
    pushForm cl h t s f = .next (after s h (pushed st t v)) := by
  rw [pushForm_ok hissues.1 hissues.2 hreads, hv]

end

theorem abs_eq_ite (x : Int) : (if x < 0 then -x else x) = |x| := by
  split
  next hneg => exact (abs_of_neg hneg).symm
  next hpos => exact (abs_of_nonneg (not_lt.mp hpos)).symm

theorem min_eq_ite (x y : Int) : (if y < x then y else x) = min x y := by
  split
  next hlt => exact (min_eq_right hlt.le).symm
  next hle => exact (min_eq_left (not_lt.mp hle)).symm

theorem max_eq_ite (x y : Int) : (if x < y then y else x) = max x y := by
  split
  next hlt => exact (max_eq_right hlt.le).symm
  next hle => exact (max_eq_left (not_lt.mp hle)).symm

/-- Settles O1: each form is an integer form of its exact result, or pushes it at a width of its own. -/
theorem integerArithmetic : Obligations.IntegerArithmetic := by
  unfold Obligations.IntegerArithmetic
  intro s h t a b c st sg w x y z is hissues hreads
  have exact_ {f : Nat → Int → Int → Int → Int} {r : Int} (hr : f w x y z = r) :
      intForm h t s f = .next (after s h (pushed st t (wr sg w r))) := intForm_pushes hissues hreads hr
  have hfdiv (v d : Int) (hd : 0 ≤ d) : v / d = Int.fdiv v d := (Int.fdiv_eq_ediv_of_nonneg v hd).symm
  refine ⟨(exec_add h t s).trans (exact_ rfl),
    (exec_sub h t s).trans (exact_ rfl),
    (exec_mul h t s).trans (exact_ rfl),
    (exec_mulh h t s).trans (exact_ ?mulh),
    (exec_madd h t s).trans (exact_ rfl),
    (exec_div h t s).trans (exact_ ?div),
    (exec_rem h t s).trans (exact_ rfl),
    (exec_neg h t s).trans (exact_ rfl),
    (exec_abs h t s).trans (exact_ (abs_eq_ite x)),
    (exec_min h t s).trans (exact_ (min_eq_ite x y)),
    (exec_max h t s).trans (exact_ (max_eq_ite x y)),
    (exec_adds h t s).trans (exact_ (clampInt_eq sg w _)),
    (exec_subs h t s).trans (exact_ (clampInt_eq sg w _)),
    (exec_mov h t s).trans (exact_ rfl),
    (exec_avg h t s).trans (exact_ (hfdiv _ 2 (by decide))),
    (exec_lea h t s).trans (exact_ ?lea),
    (exec_bound h t s).trans (exact_ rfl),
    (exec_shladd h t s).trans (pushForm_pushes hissues hreads ?shladd),
    (exec_absd h t s).trans (pushForm_pushes hissues hreads ?absd),
    (exec_mulw h t s).trans (pushForm_pushes hissues hreads ?mulw)⟩
  case mulh => simpa using hfdiv (x * y) (2 ^ w) (by positivity)
  case div => simp
  case lea => simp
  case shladd => simp [intPush_eq_wr, intOf_eq_rd, x, y, sg, w]
  case absd => simp [intPush_eq_wr, intOf_eq_rd, x, y, sg, w]
  case mulw => simp [intPush_eq_wr, intOf_eq_rd, x, y, sg, w]

end Sys2Proof.Proofs
end

section

/-! The logic, shift and bit forms: the natural number that each computes is the stated vector of W bits (R145). -/

namespace Sys2Proof.Proofs

open Sys2Proof.Machine Sys2Proof.Laws Sys2Proof.Stated

/-! ### Vectors of W bits pushed (R143) -/

theorem intPush_ofNat (sg : Bool) (w n : Nat) : intPush sg w (n : Int) = ext sg (BitVec.ofNat w n) :=
  intPush_nat sg w n

section

variable {s : State} {h : Head} {t : Tail} {a b c : Word} {st : Stage}

/-- A form on bit patterns pushes its vector of W bits, extended under the suffix. -/
theorem bitForm_pushes {f : Nat → Nat → Nat → Nat → Nat} {r : BitVec (tailW t)} (hissues : Issues s h)
    (hreads : Reads (.int (tailSigned t)) s t a b c st)
    (hr : BitVec.ofNat (tailW t) (f (tailW t) (a.setWidth (tailW t)).toNat b.toNat c.toNat) = r) :
    bitForm h t s f = .next (after s h (pushed st t (ext (tailSigned t) r))) := by
  rw [bitForm_ok hissues.1 hissues.2 hreads, intPush_ofNat, ← BitVec.toNat_setWidth, hr]

end

section

variable {w : Nat} (x y : BitVec w)

theorem ofNat_eq_of_toNat {n : Nat} {r : BitVec w} (hn : n % 2 ^ w = r.toNat) : BitVec.ofNat w n = r := by
  apply BitVec.eq_of_toNat_eq
  rw [BitVec.toNat_ofNat, hn]

/-! ### Logic and shifts -/

theorem ofNat_and (b : Word) : BitVec.ofNat w (x.toNat &&& b.toNat) = x &&& b.setWidth w := by
  apply BitVec.eq_of_getLsbD_eq
  intro i hi
  simp [hi]

theorem ofNat_or (b : Word) : BitVec.ofNat w (x.toNat ||| b.toNat) = x ||| b.setWidth w := by
  apply BitVec.eq_of_getLsbD_eq
  intro i hi
  simp [hi]

theorem ofNat_xor (b : Word) : BitVec.ofNat w (x.toNat ^^^ b.toNat) = x ^^^ b.setWidth w := by
  apply BitVec.eq_of_getLsbD_eq
  intro i hi
  simp [hi]

/-- The complement of the low W bits, as the forms compute it. -/
theorem complement_eq (b : Word) : 2 ^ w - 1 - b.toNat % 2 ^ w = (~~~(b.setWidth w)).toNat := by
  rw [BitVec.toNat_not, BitVec.toNat_setWidth]

theorem ofNat_toNat_and : BitVec.ofNat w (x.toNat &&& y.toNat) = x &&& y := by
  rw [← BitVec.toNat_and, BitVec.ofNat_toNat, BitVec.setWidth_eq]

theorem ofNat_toNat_or : BitVec.ofNat w (x.toNat ||| y.toNat) = x ||| y := by
  rw [← BitVec.toNat_or, BitVec.ofNat_toNat, BitVec.setWidth_eq]

theorem ofNat_andn (b : Word) :
    BitVec.ofNat w (x.toNat &&& (2 ^ w - 1 - b.toNat % 2 ^ w)) = x &&& ~~~(b.setWidth w) := by
  rw [complement_eq, ofNat_toNat_and]

theorem ofNat_orn (b : Word) :
    BitVec.ofNat w (x.toNat ||| (2 ^ w - 1 - b.toNat % 2 ^ w)) = x ||| ~~~(b.setWidth w) := by
  rw [complement_eq, ofNat_toNat_or]

theorem ofNat_not : BitVec.ofNat w (2 ^ w - 1 - x.toNat) = ~~~x := by
  rw [← BitVec.toNat_not, BitVec.ofNat_toNat, BitVec.setWidth_eq]

theorem ofNat_shl (n : Nat) : BitVec.ofNat w (x.toNat * 2 ^ n) = x <<< n :=
  ofNat_eq_of_toNat (by rw [BitVec.toNat_shiftLeft, Nat.shiftLeft_eq])

theorem ofNat_shr (n : Nat) : BitVec.ofNat w (x.toNat / 2 ^ n) = x >>> n :=
  ofNat_eq_of_toNat (by
    rw [← Nat.shiftRight_eq_div_pow, ← BitVec.toNat_ushiftRight, Nat.mod_eq_of_lt (BitVec.isLt _)])

theorem ofInt_sar (n : Nat) : BitVec.ofInt w (x.toInt / (2 ^ n : Nat)) = x.sshiftRight n := by
  rw [BitVec.sshiftRight, Int.shiftRight_eq_div_pow]

theorem ofNat_aligndn (k : Nat) : BitVec.ofNat w (x.toNat / 2 ^ k * 2 ^ k) = x >>> k <<< k :=
  ofNat_eq_of_toNat (by
    rw [BitVec.toNat_shiftLeft, BitVec.toNat_ushiftRight, Nat.shiftLeft_eq, Nat.shiftRight_eq_div_pow])

/-! ### Rotates -/

theorem ofNat_rotl {n : Nat} (hn : n < w) : BitVec.ofNat w (rotl w x.toNat n) = x.rotateLeft n := by
  have hq : x.toNat / 2 ^ (w - n) < 2 ^ n := by
    rw [Nat.div_lt_iff_lt_mul (by positivity), ← Nat.pow_add, Nat.add_sub_cancel' hn.le]
    exact x.isLt
  apply ofNat_eq_of_toNat
  rw [BitVec.toNat_rotateLeft, Nat.mod_eq_of_lt hn, rotl, Nat.mod_mod, ← Nat.shiftLeft_eq,
    Nat.shiftLeft_add_eq_or_of_lt hq, Nat.or_mod_two_pow, ← Nat.shiftRight_eq_div_pow,
    ← BitVec.toNat_ushiftRight, Nat.mod_eq_of_lt (BitVec.isLt (x >>> (w - n)))]

/-- A rotate right is a rotate left by what is left of the width. -/
theorem rotateLeft_complement {n : Nat} (hn : n < w) : x.rotateLeft ((w - n) % w) = x.rotateRight n := by
  rcases Nat.eq_zero_or_pos n with rfl | hpos
  · simp [BitVec.rotateLeft_def, BitVec.rotateRight_def, BitVec.ushiftRight_eq_zero]
  · rw [BitVec.rotateLeft_def, BitVec.rotateRight_def, Nat.mod_mod, Nat.mod_eq_of_lt (by omega : w - n < w),
      Nat.mod_eq_of_lt hn, Nat.sub_sub_self hn.le, BitVec.or_comm]

theorem ofNat_rotr {n : Nat} (hn : n < w) : BitVec.ofNat w (rotl w x.toNat ((w - n) % w)) = x.rotateRight n := by
  rw [ofNat_rotl x (Nat.mod_lt _ (by omega)), rotateLeft_complement x hn]

/-! ### Single bits -/

theorem toNat_twoPow_of_lt {n : Nat} (hn : n < w) : (BitVec.twoPow w n).toNat = 2 ^ n := by
  rw [BitVec.toNat_twoPow, Nat.mod_eq_of_lt (Nat.pow_lt_pow_right (by decide) hn)]

theorem ofNat_bset {n : Nat} (hn : n < w) : BitVec.ofNat w (x.toNat ||| 2 ^ n) = x ||| BitVec.twoPow w n := by
  rw [← toNat_twoPow_of_lt hn, ofNat_toNat_or]

theorem ofNat_binv {n : Nat} (hn : n < w) : BitVec.ofNat w (x.toNat ^^^ 2 ^ n) = x ^^^ BitVec.twoPow w n := by
  rw [← toNat_twoPow_of_lt hn, ← BitVec.toNat_xor, BitVec.ofNat_toNat, BitVec.setWidth_eq]

/-- A vector is its other bits and a bit that it has. -/
theorem and_not_twoPow_add {n : Nat} (hbit : x.getLsbD n = true) :
    (x &&& ~~~(BitVec.twoPow w n)) + BitVec.twoPow w n = x := by
  rw [BitVec.add_eq_or_of_and_eq_zero]
  · apply BitVec.eq_of_getLsbD_eq
    intro i hi
    rcases eq_or_ne i n with rfl | hin
    · simp [hi, hbit]
    · simp [hi, hin]
  · rw [BitVec.and_assoc, BitVec.and_comm (~~~_), BitVec.and_not_self]
    exact BitVec.and_zero

theorem and_not_twoPow_of_clear {n : Nat} (hbit : x.getLsbD n = false) : x &&& ~~~(BitVec.twoPow w n) = x := by
  apply BitVec.eq_of_getLsbD_eq
  intro i hi
  rcases eq_or_ne i n with rfl | hin
  · simp [(BitVec.getLsbD_eq_getElem hi).symm.trans hbit, hi]
  · simp [hi, hin]

/-- Taking away a bit that is set clears it. -/
theorem ofNat_bclr {n : Nat} (hn : n < w) :
    BitVec.ofNat w (if x.toNat.testBit n then x.toNat - 2 ^ n else x.toNat) = x &&& ~~~(BitVec.twoPow w n) := by
  rw [BitVec.testBit_toNat]
  split
  next hbit =>
    have hle : (BitVec.twoPow w n) ≤ x := by
      rw [BitVec.le_def, toNat_twoPow_of_lt hn]
      exact Nat.ge_two_pow_of_testBit (BitVec.testBit_toNat x ▸ hbit)
    rw [BitVec.eq_sub_iff_add_eq.mpr (and_not_twoPow_add x hbit), ← toNat_twoPow_of_lt hn,
      ← BitVec.toNat_sub_of_le hle, BitVec.ofNat_toNat, BitVec.setWidth_eq]
  next hbit =>
    rw [and_not_twoPow_of_clear x (Bool.eq_false_iff.mpr hbit), BitVec.ofNat_toNat, BitVec.setWidth_eq]

end

/-! ### Bits of a number read off -/

/-- A number is the vector of its bits. -/
theorem ofNat_eq_ofBoolList {w m n : Nat} {f : Nat → Bool} (hm : w ≤ m) (hbits : ∀ i, i < w → n.testBit i = f i) :
    BitVec.ofNat w n = (BitVec.ofBoolListLE ((List.range m).map f)).setWidth w := by
  apply BitVec.eq_of_getLsbD_eq
  intro i hi
  have him : i < m := by omega
  rw [BitVec.getLsbD_ofNat, BitVec.getLsbD_setWidth, BitVec.getLsbD_ofBoolListLE, hbits i hi]
  simp [him]

theorem brevN_lt (w a : Nat) : brevN w a < 2 ^ w := by
  induction w generalizing a with
  | zero => simp [brevN]
  | succ w ih =>
    have hrest := ih (a / 2)
    have hbit : a % 2 * 2 ^ w ≤ 1 * 2 ^ w := Nat.mul_le_mul_right _ (by omega)
    rw [brevN, Nat.pow_succ]
    omega

theorem testBit_brevN {w a i : Nat} (hi : i < w) : (brevN w a).testBit i = a.testBit (w - 1 - i) := by
  induction w generalizing a i with
  | zero => omega
  | succ w ih =>
    rw [brevN, Nat.mul_comm, Nat.testBit_two_pow_mul_add _ (brevN_lt w _)]
    split
    next hlow =>
      rw [ih hlow, Nat.testBit_div_two, show w - 1 - i + 1 = w + 1 - 1 - i by omega]
    next hhigh =>
      obtain rfl : i = w := by omega
      simp [Nat.testBit_zero]

/-! ### Bytes (R4) -/

theorem testBit_natLE (l : List Byte) (i : Nat) : (natLE l).testBit i = (l.getD (i / 8) 0).getLsbD (i % 8) := by
  induction l generalizing i with
  | nil => simp [natLE]
  | cons b r ih =>
    rw [natLE, Nat.add_comm, show (256 : Nat) = 2 ^ 8 by rfl, Nat.testBit_two_pow_mul_add _ b.isLt]
    split
    next hlow => simp [Nat.div_eq_of_lt hlow, Nat.mod_eq_of_lt hlow, BitVec.testBit_toNat]
    next hhigh =>
      have hdiv : i / 8 = (i - 8) / 8 + 1 := by omega
      have hmod : i % 8 = (i - 8) % 8 := by omega
      rw [ih, hdiv, hmod, List.getD_cons_succ]

theorem length_bytesLE (n v : Nat) : (bytesLE n v).length = n := by
  induction n generalizing v with
  | zero => rfl
  | succ n ih => rw [bytesLE, List.length_cons, ih]

theorem getD_bytesLE {n v j : Nat} (hj : j < n) : (bytesLE n v).getD j 0 = BitVec.ofNat 8 (v / 256 ^ j) := by
  induction n generalizing v j with
  | zero => omega
  | succ n ih =>
    cases j with
    | zero => simp [bytesLE]
    | succ j => rw [bytesLE, List.getD_cons_succ, ih (by omega), Nat.pow_succ', Nat.div_div_eq_div_mul]

theorem testBit_reverse_bytesLE {n v i : Nat} (hi : i < 8 * n) :
    (natLE (bytesLE n v).reverse).testBit i = v.testBit (8 * (n - 1 - i / 8) + i % 8) := by
  have hbyte : i / 8 < n := by omega
  have hmod : i % 8 < 8 := Nat.mod_lt _ (by decide)
  rw [testBit_natLE, List.getD_reverse _ (by rw [length_bytesLE]; exact hbyte), length_bytesLE,
    getD_bytesLE (by omega), BitVec.getLsbD_ofNat, show (256 : Nat) = 2 ^ 8 by rfl, ← Nat.pow_mul,
    Nat.testBit_div_two_pow]
  simp [hmod, Nat.add_comm]

/-! ### PERM (R145) -/

/-- A nibble below 8 has bit 3 clear. -/
theorem nibble_lt_iff (b j : Nat) : b / 16 ^ j % 16 < 8 ↔ b.testBit (4 * j + 3) = false := by
  have hpow : 2 ^ (4 * j + 3) = 16 ^ j * 8 := by rw [Nat.pow_add, Nat.pow_mul]
  rw [Nat.testBit_eq_decide_div_mod_eq, hpow, ← Nat.div_div_eq_div_mul, decide_eq_false_iff_not]
  omega

theorem nfld_nibble {b j : Nat} (hlow : b / 16 ^ j % 16 < 8) : nfld b (4 * j) 3 = b / 16 ^ j % 16 := by
  have hpow : 2 ^ (4 * j) = 16 ^ j := Nat.pow_mul 2 4 j
  rw [nfld, Nat.shiftRight_eq_div_pow, hpow]
  omega

/-- Byte `j` of PERM: the byte of `a` that nibble `j` of `b` names, or zero. -/
def permByte (a b j : Nat) : Nat := if b.testBit (4 * j + 3) then 0 else nfld a (8 * nfld b (4 * j) 3) 8

theorem permByte_lt (a b j : Nat) : permByte a b j < 2 ^ 8 := by
  unfold permByte
  split
  · decide
  · exact Nat.mod_lt _ (by decide)

theorem testBit_permByte {a b j i : Nat} (hi : i < 8) : (permByte a b j).testBit i =
    (decide (b / 16 ^ j % 16 < 8) && a.testBit (8 * (b / 16 ^ j % 16) + i)) := by
  by_cases hlow : b / 16 ^ j % 16 < 8
  · rw [permByte, (nibble_lt_iff b j).mp hlow, nfld_nibble hlow]
    simp only [Bool.false_eq_true, if_false, nfld, Nat.testBit_mod_two_pow, Nat.testBit_shiftRight, hi, hlow]
  · have hset : b.testBit (4 * j + 3) = true := by
      simpa using mt (nibble_lt_iff b j).mpr hlow
    simp [permByte, hset, hlow]

theorem testBit_permN {a b n j i : Nat} (hi : i < 8 * n) : (permN a b n j).testBit i =
    (decide (b / 16 ^ (j + i / 8) % 16 < 8) && a.testBit (8 * (b / 16 ^ (j + i / 8) % 16) + i % 8)) := by
  induction n generalizing j i with
  | zero => omega
  | succ n ih =>
    change (permByte a b j + 256 * permN a b n (j + 1)).testBit i = _
    rw [Nat.add_comm, show (256 : Nat) = 2 ^ 8 by rfl, Nat.testBit_two_pow_mul_add _ (permByte_lt a b j)]
    split
    next hlow => rw [testBit_permByte hlow, Nat.div_eq_of_lt hlow, Nat.mod_eq_of_lt hlow, Nat.add_zero]
    next hhigh =>
      have hdiv : j + i / 8 = j + 1 + (i - 8) / 8 := by omega
      have hmod : i % 8 = (i - 8) % 8 := by omega
      rw [ih (by omega), hdiv, hmod]

/-! ### The forms -/

theorem tailW_of_wide {t : Tail} (hwide : tailM t % 4 = 0) : tailW t = 64 := by simp [tailW, hwide]

/-- Settles O2: each form computes the number whose W bits are the stated vector. -/
theorem integerBits : Obligations.IntegerBits := by
  unfold Obligations.IntegerBits
  intro s h t a b c st sg w x y n k is hissues hreads
  have bits {f : Nat → Nat → Nat → Nat → Nat} {r : BitVec w}
      (hr : BitVec.ofNat w (f w x.toNat b.toNat c.toNat) = r) :
      bitForm h t s f = .next (after s h (pushed st t (ext sg r))) := bitForm_pushes hissues hreads hr
  have hn : n < w := Nat.mod_lt _ (tailW_pos t)
  have hbytes : 8 * (w / 8) = w := by rcases tailW_cases t with hw | hw | hw | hw <;> simp only [w, hw]
  refine ⟨(exec_and h t s).trans (bits (ofNat_and x b)),
    (exec_or h t s).trans (bits (ofNat_or x b)),
    (exec_xor h t s).trans (bits (ofNat_xor x b)),
    (exec_andn h t s).trans (bits (ofNat_andn x b)),
    (exec_orn h t s).trans (bits (ofNat_orn x b)),
    (exec_not h t s).trans (bits (ofNat_not x)),
    (exec_shl h t s).trans (bits (ofNat_shl x n)),
    (exec_shr h t s).trans (bits (ofNat_shr x n)),
    (exec_sar h t s).trans (pushForm_pushes hissues hreads ?sar),
    (exec_rol h t s).trans (bits (ofNat_rotl x hn)),
    (exec_ror h t s).trans (bits (ofNat_rotr x hn)),
    (exec_bset h t s).trans (bits (ofNat_bset x hn)),
    (exec_bclr h t s).trans (bits (ofNat_bclr x hn)),
    (exec_binv h t s).trans (bits (ofNat_binv x hn)),
    (exec_brev h t s).trans (bits (ofNat_eq_ofBoolList le_rfl fun i hi => testBit_brevN hi)),
    (exec_bswap h t s).trans (bits (ofNat_eq_ofBoolList le_rfl fun i hi =>
      testBit_reverse_bytesLE (hbytes.symm ▸ hi))),
    fun hwide => ?wide⟩
  case sar =>
    rw [intPush_eq_wr, wr, sint_eq, BitVec.ofNat_toNat, ofInt_sar]
  case wide =>
    have hw : w = 64 := tailW_of_wide hwide
    have hx : x.toNat = a.toNat := by
      rw [BitVec.toNat_setWidth, hw, Nat.mod_eq_of_lt a.isLt]
    refine ⟨(exec_alignup h t s).trans (bits ?_),
      (exec_aligndn h t s).trans (bits (ofNat_aligndn x k)),
      (exec_perm h t s).trans (bits (ofNat_eq_ofBoolList hw.le fun i hi => ?_))⟩
    · rw [hx, roundUp, Nat.add_sub_assoc (Nat.one_le_two_pow)]
    · rw [hx, testBit_permN (by omega), Nat.zero_add]
      rfl

end Sys2Proof.Proofs
end

section

/-! Comparisons and the forms of the predicate file (R149, R171-R173). -/

namespace Sys2Proof.Proofs

open Sys2Proof.Machine Sys2Proof.Laws Sys2Proof.Stated

theorem fld_eq_extractLsb' {w : Nat} (v : BitVec w) (lo len : Nat) : fld v lo len = (v.extractLsb' lo len).toNat := by
  rw [fld, BitVec.extractLsb'_toNat]

section

variable {s : State} {h : Head} {t : Tail} {a b c : Word} {st : Stage} {cl : LitClass}

/-- A comparison sets its predicate and raises no flag. -/
theorem predForm_sets {f : Ctx → Word → Word → Bool × Flags} {v : Bool} (hissues : Issues s h)
    (hreads : Reads cl s t a b c st) (hv : f (me s) a b = (v, 0)) :
    predForm cl h t s f = .next (after s h ((st.setPred (tailM t / 32) v).raise 0)) := by
  rw [predForm_ok hissues.1 hissues.2 hreads, hv]

theorem predOp_sets {op : Bool → Bool → Bool} (hissues : Issues s h) :
    predOp h t s op = .next (after s h ((bundle s).setPred ((tailF t).extractLsb' 8 3).toNat
      (op (Bool.xor ((me s).p.getLsbD ((tailF t).extractLsb' 0 3).toNat) ((tailF t).getLsbD 3))
        (Bool.xor ((me s).p.getLsbD ((tailF t).extractLsb' 4 3).toNat) ((tailF t).getLsbD 7))))) := by
  rw [predOp, runHead_ok hissues.1 hissues.2 rfl]
  simp only [fld_eq_extractLsb']

end

/-! ### Conditions (R149) -/

theorem toNat_and_setWidth (w : Nat) (a b : Word) :
    a.toNat % 2 ^ w &&& b.toNat % 2 ^ w = (a.setWidth w &&& b.setWidth w).toNat := by
  rw [BitVec.toNat_and, BitVec.toNat_setWidth, BitVec.toNat_setWidth]

theorem testCond_zero (w : Nat) (a b : Word) :
    testCond 0 (a.toNat % 2 ^ w) (b.toNat % 2 ^ w) = decide (a.setWidth w &&& b.setWidth w ≠ 0) := by
  rw [testCond, if_pos rfl, toNat_and_setWidth, bne, beq_eq_decide, ← decide_not]
  exact decide_eq_decide.mpr (not_congr (BitVec.toNat_eq (y := 0)).symm)

theorem testCond_one (w : Nat) (a b : Word) :
    testCond 1 (a.toNat % 2 ^ w) (b.toNat % 2 ^ w) = decide (a.setWidth w &&& b.setWidth w = 0) := by
  rw [testCond, if_neg (by decide), toNat_and_setWidth, beq_eq_decide]
  exact decide_eq_decide.mpr (BitVec.toNat_eq (y := 0)).symm

/-- The bit that BTST tests lies in the low W bits. -/
theorem testBit_low {w : Nat} (hw : 0 < w) (a b : Word) :
    (a.toNat % 2 ^ w).testBit (b.toNat % w) = a.getLsbD (b.toNat % w) := by
  rw [Nat.testBit_mod_two_pow, BitVec.testBit_toNat]
  simp [Nat.mod_lt _ hw]

theorem btstCond_zero {w : Nat} (hw : 0 < w) (a b : Word) :
    btstCond 0 w (a.toNat % 2 ^ w) b.toNat = a.getLsbD (b.toNat % w) := by
  rw [btstCond, if_pos rfl, testBit_low hw]

theorem btstCond_one {w : Nat} (hw : 0 < w) (a b : Word) :
    btstCond 1 w (a.toNat % 2 ^ w) b.toNat = !a.getLsbD (b.toNat % w) := by
  rw [btstCond, if_neg (by decide), testBit_low hw]

theorem lowBits_ne_zero (w : Nat) (a : Word) : (a.toNat % 2 ^ w != 0) = decide (a.setWidth w ≠ 0) := by
  rw [← BitVec.toNat_setWidth, bne, beq_eq_decide, ← decide_not]
  exact decide_eq_decide.mpr (not_congr (BitVec.toNat_eq (y := 0)).symm)

/-- The writes of PLOAD, in order (R173). -/
theorem loadPreds_eq (st : Stage) (a : Word) : loadPreds st a =
    { st with preds := st.preds ++ [(1, a.getLsbD 1), (2, a.getLsbD 2), (3, a.getLsbD 3), (4, a.getLsbD 4),
        (5, a.getLsbD 5), (6, a.getLsbD 6), (7, a.getLsbD 7)] } := by
  simp [loadPreds, Stage.setPred]

/-- Settles O3: a comparison computes the stated condition of its operands, and a predicate form sets what the
predicate file gives. -/
theorem predicates : Obligations.Predicates := by
  unfold Obligations.Predicates
  intro s h t a b c st sg w x y cond p f pa pb pd is hissues
  refine ⟨fun hreads => ?compare, fun hreads => ?test, (exec_pand h t s).trans (predOp_sets hissues),
    (exec_por h t s).trans (predOp_sets hissues), (exec_pxor h t s).trans (predOp_sets hissues),
    (exec_pmov h t s).trans (runHead_ok hissues.1 hissues.2 rfl),
    (exec_pnot h t s).trans (runHead_ok hissues.1 hissues.2 rfl),
    (exec_psave h t s).trans (runHead_ok hissues.1 hissues.2 ?save),
    fun hreads => (exec_pload h t s).trans (aForm_ok hissues.1 hissues.2 hreads ?load)⟩
  case compare =>
    have sets {v : Bool} (hv : cmpCond cond x y = v) :
        execCmp h t s = .next (after s h ((st.setPred (tailM t / 32) v).raise 0)) :=
      predForm_sets hissues hreads (by rw [intOf_eq_rd, intOf_eq_rd, hv])
    refine ⟨fun hc => (exec_cmp h t s).trans (sets ?_), fun hc => (exec_cmp h t s).trans (sets ?_),
      fun hc => (exec_cmp h t s).trans (sets ?_), fun hc => (exec_cmp h t s).trans (sets ?_),
      (exec_pset h t s).trans (predForm_sets hissues hreads ?_)⟩
    · simp [hc, cmpCond, beq_eq_decide]
    · simp [hc, cmpCond, bne, beq_eq_decide]
    · simp [hc, cmpCond]
    · simp [hc, cmpCond]
    · rw [lowBits_ne_zero]
  case test =>
    have test {v : Bool} (hv : testCond cond (a.toNat % 2 ^ w) (b.toNat % 2 ^ w) = v) :
        execTest h t s = .next (after s h ((st.setPred (tailM t / 32) v).raise 0)) :=
      predForm_sets hissues hreads (by rw [hv])
    have btst {v : Bool} (hv : btstCond cond w (a.toNat % 2 ^ w) b.toNat = v) :
        execBtst h t s = .next (after s h ((st.setPred (tailM t / 32) v).raise 0)) :=
      predForm_sets hissues hreads (by rw [hv])
    exact ⟨fun hc => (exec_test h t s).trans (test (hc ▸ testCond_zero w a b)),
      fun hc => (exec_test h t s).trans (test (hc ▸ testCond_one w a b)),
      fun hc => (exec_btst h t s).trans (btst (hc ▸ btstCond_zero (tailW_pos t) a b)),
      fun hc => (exec_btst h t s).trans (btst (hc ▸ btstCond_one (tailW_pos t) a b))⟩
  case save => rw [BitVec.ofNat_toNat]
  case load => rw [loadPreds_eq]

end Sys2Proof.Proofs
end

section

/-! The step of a context that issues (R29, R86-R88, R108): the clock and the choice of the context leave what the
issue reads, and the first head of the bundle at its PC is decoded and runs. -/

namespace Sys2Proof.Proofs

open Sys2Proof.Machine Sys2Proof.Laws Sys2Proof.Stated

/-! ### What passes with the clock -/

theorem foldl_keeps {β γ : Type} (π : State → γ) {f : State → β → State} (hf : ∀ s b, π (f s b) = π s) (l : List β)
    (s : State) : π (l.foldl f s) = π s := by
  induction l generalizing s with
  | nil => rfl
  | cons b r ih => exact (ih (f s b)).trans (hf s b)

/-- Counting on a tile changes that tile alone. -/
theorem countPerf_keeps {γ : Type} (π : State → γ) (hπ : ∀ s t x, π (State.setTile s t x) = π s) (s : State)
    (t ev n : Nat) : π (countPerf s t ev n) = π s := by
  unfold countPerf
  split
  · exact hπ _ _ _
  · rfl

theorem tick_keeps {γ : Type} (π : State → γ) (hπ : ∀ s t x, π (State.setTile s t x) = π s) (s : State) :
    π (tick s) = π { s with cycle := s.cycle + 1, fresh := s.fresh + 1 } := by
  refine foldl_keeps π (fun s e => ?_) _ _
  split
  · exact countPerf_keeps π hπ _ _ _ _
  · rfl

@[simp] theorem tick_ctxs (s : State) : (tick s).ctxs = s.ctxs := tick_keeps State.ctxs (fun _ _ _ => rfl) s
@[simp] theorem tick_cur (s : State) : (tick s).cur = s.cur := tick_keeps State.cur (fun _ _ _ => rfl) s
@[simp] theorem tick_agenda (s : State) : (tick s).agenda = s.agenda := tick_keeps State.agenda (fun _ _ _ => rfl) s

/-- Contexts stand in one table. -/
theorem ctx_eq_of_ctxs {s s' : State} (h : s'.ctxs = s.ctxs) (g : Nat) : s'.ctx g = s.ctx g := by
  rw [State.ctx, State.ctx, h]

@[simp] theorem tick_ctx (s : State) (g : Nat) : (tick s).ctx g = s.ctx g := ctx_eq_of_ctxs (tick_ctxs s) g

/-! ### The turn of a context (R29) -/

section

variable {s : State} {g : Nat} {r : List Turn}

theorem plan_of_ctx_turn (hstage : (s.ctx s.cur).stage = none) (hagenda : s.agenda = .ctx g :: r) :
    plan s = turnOf { s with agenda := r } g := by
  simp [plan, hstage, hagenda]

theorem turnOf_of_pick {h : Nat} (hrun : (s.ctx g).st = .run) (hpick : pickCtx s g = some h) :
    turnOf s g = issueCtx (noteIssue { s with cur := h } h) h := by
  simp [turnOf, hrun, hpick]

theorem not_heldBack_of_pick {h : Nat} (hpick : pickCtx s g = some h) : heldBack s h = false := by
  have hcan : canIssue s h = true := List.find?_some hpick
  simp only [canIssue, Bool.and_eq_true, Bool.not_eq_true'] at hcan
  exact hcan.2

theorem heldBack_noteIssue (h : Nat) : heldBack (noteIssue { s with cur := h } h) g = heldBack s g := rfl

theorem issueCtx_of_boundary (hrun : (s.ctx g).st = .run) (hstage : (s.ctx g).stage = none)
    (hdue : (s.ctx g).trapDue = none) (hheld : heldBack s g = false) :
    issueCtx s g = issueBundle s g (s.ctx g) := by
  simp [issueCtx, hrun, hstage, hdue, hheld]

end

/-! ### The first head of a bundle (R86-R88, R106, R108) -/

theorem nextHead_of_last {pc last H : Nat} (hlast : last ≤ H) (hH : H < 32) :
    nextHead (lineOf pc + 2 * last) H = if last < H then pc / 64 * 64 + 2 * last + 2 else pc / 64 * 64 + 66 := by
  have hhead : headOf (lineOf pc + 2 * last) = last := by simp only [headOf, lineOf]; omega
  have hline : lineOf (lineOf pc + 2 * last) = pc / 64 * 64 := by simp only [lineOf]; omega
  rw [nextHead, hhead, hline]
  rfl

theorem issueBundle_of_line {s : State} {g : Nat} {c : Ctx} {b : List Byte} (hline : lineNow s g c.pc = .line b)
    (heven : c.pc % 2 = 0) (hhead : c.pc % 64 ≠ 0) (htarget : lineTarget b c.pc = .ok) :
    issueBundle s g c = issueHead (holdLine s g c.pc b) g b c.pc := by
  have hodd : ¬ c.pc % 2 = 1 := by omega
  simp [issueBundle, hodd, hhead, hline, htarget]

/-- Settles O16: the turn reaches the first head of the bundle at the PC of its context, which decodes. -/
theorem stepRunsDecoded : Obligations.StepRunsDecoded := by
  unfold Obligations.StepRunsDecoded
  intro s g r b i u v c n H last hpower hmid hagenda hrun hstage hdue hpick hline hvalid heven hn hnH hstart hlast
    hdecode
  have hplan : plan (tick s) = issueHead (holdLine v g c.pc b) g b c.pc := by
    rw [plan_of_ctx_turn (by rw [tick_ctx, tick_cur]; exact hmid) (by rw [tick_agenda]; exact hagenda),
      turnOf_of_pick hrun hpick,
      issueCtx_of_boundary (s := v) hrun hstage hdue ((heldBack_noteIssue g).trans (not_heldBack_of_pick hpick))]
    have hhead : c.pc % 64 ≠ 0 := fun h0 => hn (by simp only [n, h0])
    exact issueBundle_of_line hline heven hhead (lineTarget_of_start hvalid hnH hstart)
  have hH : H < 32 := by
    have hword : natAt b 0 2 < 2 ^ 16 := natAt_lt b 0 2
    simp only [H]
    omega
  have hrest : nextHead (lineOf c.pc + 2 * last) (lineH (BitVec.ofNat 16 (natAt b 0 2))) =
      if last < H then c.pc / 64 * 64 + 2 * last + 2 else c.pc / 64 * 64 + 66 := by
    rw [lineH_lineWord]
    exact nextHead_of_last hlast hH
  have hissue : issueHead (holdLine v g c.pc b) g b c.pc = .run i { holdLine v g c.pc b with
      cur := g
      after := if last < H then c.pc / 64 * 64 + 2 * last + 2 else c.pc / 64 * 64 + 66 } := by
    rw [← hrest]
    simp only [issueHead]
    rw [show decodeLineHead b (headOf c.pc) = .ok i from hdecode]
    rfl
  rw [step, if_neg hpower, hplan, hissue]

end Sys2Proof.Proofs
end

section

/-! The machine after reset: no table lists an entry, so that each record reads as its reset value. -/

namespace Sys2Proof.Proofs

open Sys2Proof.Machine Sys2Proof.Laws Sys2Proof.Stated

theorem ctx_reset (g : Nat) : State.reset.ctx g = Ctx.reset g := rfl

theorem tile_reset (t : Nat) : State.reset.tile t = Tile.reset := rfl

/-- The predicate file after reset is %p0 alone (R132). -/
theorem getLsbD_resetPreds (k : Nat) : (1#8).getLsbD k = decide (k = 0) := by
  simp [BitVec.getLsbD_one]

/-- Settles O19: each record of the reset state is the reset record of its table. -/
theorem resetState : Obligations.ResetState := by
  unfold Obligations.ResetState
  refine ⟨rfl, rfl, rfl, fun g => ?_, fun g k => ?_, fun t => ?_, fun t => ?_, fun t => ?_, fun t => ?_,
    fun t p => ?_, rfl, rfl⟩
  · rw [ctx_reset]; rfl
  · rw [ctx_reset]; exact getLsbD_resetPreds k
  all_goals rw [tile_reset]; rfl

end Sys2Proof.Proofs
end

section

/-! Words written out from the encoding tables, decoded (R89, R97, R101). -/

namespace Sys2Proof.Proofs

open Sys2Proof.Machine Sys2Proof.Laws Sys2Proof.Stated

/-- Settles O37: the decoder evaluates on each word to its instruction. -/
theorem decodeWords : Obligations.DecodeWords := by
  unfold Obligations.DecodeWords
  decide +kernel

end Sys2Proof.Proofs
end

section

/-! The floating-point instructions: arithmetic, moves of bits, comparison and conversions (R154-R161). -/

namespace Sys2Proof.Proofs

open Sys2Proof.Machine Sys2Proof.Laws Sys2Proof.Stated

section

variable {s : State} {h : Head} {t : Tail} {a b c : Word} {st : Stage}

/-- A floating-point form pushes its code and raises its flags. -/
theorem fpForm_gives {f : Rm → Bool → Nat → Nat → Nat → Nat × Flags} {v : Word} {fl : Flags}
    (hissues : Issues s h) (hreads : Reads .fp s t a b c st)
    (hv : BitVec.ofNat 64 (f (rmOf (tailM t)) (me s).ftz (a.toNat % 2 ^ 32) (b.toNat % 2 ^ 32)
      (c.toNat % 2 ^ 32)).1 = v)
    (hfl : (f (rmOf (tailM t)) (me s).ftz (a.toNat % 2 ^ 32) (b.toNat % 2 ^ 32) (c.toNat % 2 ^ 32)).2 = fl) :
    fpForm h t s f = .next (after s h ((pushed st t v).raise fl)) := by
  rw [fpForm_ok hissues.1 hissues.2 hreads, hv, hfl]

end

/-- Settles O4: each form gives its exact value to the rounding, or the value and flags of its function. -/
theorem floatingArithmetic : Obligations.FloatingArithmetic := by
  unfold Obligations.FloatingArithmetic
  intro s h t a b c st z rm x y u is gives p q hissues hreads
  have rounds {f : Rm → Bool → Nat → Nat → Nat → Nat × Flags} {v : Val}
      (hf : f rm z (a.toNat % 2 ^ 32) (b.toNat % 2 ^ 32) (c.toNat % 2 ^ 32) = fpRound z v rm) :
      fpForm h t s f = .next (after s h
        ((pushed st t (BitVec.ofNat 64 (roundFtz z .fp32 v rm false).code)).raise
          (0 ||| (roundFtz z .fp32 v rm false).fl))) :=
    fpForm_gives hissues hreads (congrArg (fun r => BitVec.ofNat 64 r.1) hf)
      ((congrArg Prod.snd hf).trans BitVec.zero_or.symm)
  exact ⟨(exec_fadd h t s).trans (rounds rfl), (exec_fsub h t s).trans (rounds rfl),
    (exec_fmul h t s).trans (rounds rfl), (exec_fdiv h t s).trans (fpForm_gives hissues hreads rfl rfl),
    (exec_fsqrt h t s).trans (rounds rfl), (exec_fma h t s).trans (rounds rfl),
    (exec_fms h t s).trans (rounds rfl), (exec_fnma h t s).trans (rounds rfl),
    (exec_frint h t s).trans (rounds rfl),
    (exec_fmin h t s).trans (fpForm_gives hissues hreads rfl rfl),
    (exec_fmax h t s).trans (fpForm_gives hissues hreads rfl rfl),
    (exec_fminnum h t s).trans (fpForm_gives hissues hreads rfl rfl),
    (exec_fmaxnum h t s).trans (fpForm_gives hissues hreads rfl rfl),
    (exec_flogb h t s).trans (fpForm_gives hissues hreads rfl rfl),
    (exec_fexp2 h t s).trans (fpForm_gives hissues hreads rfl rfl),
    (exec_frcp h t s).trans (fpForm_gives hissues hreads rfl rfl),
    (exec_frsq h t s).trans (fpForm_gives hissues hreads rfl rfl)⟩

/-! ### Moves of bits (R156) -/

theorem ofNat_toNat_setWidth (x : BitVec 32) : BitVec.ofNat 64 x.toNat = x.setWidth 64 := by
  exact BitVec.ofNat_toNat 64 x

theorem toNat_clearSign (x : BitVec 32) : (x &&& 0x7FFFFFFF#32).toNat = x.toNat % 2 ^ 31 := by
  rw [BitVec.toNat_and]
  exact Nat.and_two_pow_sub_one_eq_mod x.toNat 31

/-- The sign of one code joined to the magnitude of another. -/
theorem toNat_copySign (x y : BitVec 32) :
    ((x &&& 0x7FFFFFFF#32) ||| (y &&& 0x80000000#32)).toNat = x.toNat % 2 ^ 31 + y.toNat / 2 ^ 31 * 2 ^ 31 := by
  rw [BitVec.toNat_or, toNat_clearSign, toNat_and_signBit, Nat.or_comm, Nat.mul_comm,
    ← Nat.two_pow_add_eq_or_of_lt (Nat.mod_lt _ (by decide)), Nat.add_comm]

theorem floatingBits : FloatingBits := by
  intro s h t a b c st x0 x y is hissues hreads
  have hx : ftzCode (me s).ftz .fp32 (a.toNat % 2 ^ 32) = x.toNat := by
    rw [← BitVec.toNat_setWidth 32 a]
    exact ftzCode_fp32 (me s).ftz x0
  have moves {f : Rm → Bool → Nat → Nat → Nat → Nat × Flags} {v : BitVec 32}
      (hf : f (rmOf (tailM t)) (me s).ftz (a.toNat % 2 ^ 32) (b.toNat % 2 ^ 32) (c.toNat % 2 ^ 32) =
        (v.toNat, 0)) :
      fpForm h t s f = .next (after s h ((pushed st t (v.setWidth 64)).raise 0)) :=
    fpForm_gives hissues hreads (by rw [hf, ofNat_toNat_setWidth]) (by rw [hf])
  refine ⟨(exec_fabs h t s).trans (moves ?abs), (exec_fneg h t s).trans (moves ?neg),
    (exec_fcpys h t s).trans (moves ?copy)⟩
  case abs => rw [hx, toNat_clearSign]
  case neg =>
    rw [hx, BitVec.toNat_xor]
    rfl
  case copy => rw [hx, toNat_copySign, BitVec.toNat_setWidth]

/-! ### Comparison and conversions (R157, R159-R161) -/

theorem bits_cvtFormat_narrow {n : Nat} (hn : n < 2) : (cvtFormat n).bits = 16 := by
  interval_cases n <;> rfl

theorem cvtPack_two (fc : Nat) (x y : Rounded) : cvtPack fc [x, y] =
    (x.code % 2 ^ (cvtFormat fc).bits + y.code % 2 ^ (cvtFormat fc).bits * 2 ^ (cvtFormat fc).bits,
      x.fl ||| y.fl) := by
  simp [cvtPack]

theorem cvtPack_four (fc : Nat) (x y u v : Rounded) : cvtPack fc [x, y, u, v] =
    (x.code % 2 ^ (cvtFormat fc).bits + y.code % 2 ^ (cvtFormat fc).bits * 2 ^ (cvtFormat fc).bits +
        u.code % 2 ^ (cvtFormat fc).bits * 2 ^ (2 * (cvtFormat fc).bits) +
        v.code % 2 ^ (cvtFormat fc).bits * 2 ^ (3 * (cvtFormat fc).bits),
      x.fl ||| y.fl ||| u.fl ||| v.fl) := by
  simp [cvtPack, Nat.mul_comm, Nat.add_assoc]

theorem floatingConversions : FloatingConversions := by
  intro s h t a b c st z rm m F x y w sg is r el hissues
  obtain ⟨hrun, hguard⟩ := hissues
  refine ⟨fun hreads => ⟨?cmp, (exec_fcvt h t s).trans (fpForm_gives ⟨hrun, hguard⟩ hreads rfl rfl),
    (exec_fcvtw h t s).trans (fpForm_gives ⟨hrun, hguard⟩ hreads rfl rfl), (exec_fcvti h t s).trans ?toInt,
    (exec_icvtf h t s).trans ?fromInt, fun hm => (exec_fcvtn h t s).trans ?packTwo,
    fun hm => (exec_fcvtn h t s).trans ?packFour⟩, fun hreads => (exec_fscale h t s).trans ?scale⟩
  case cmp => exact (exec_fcmp h t s).trans (predForm_ok hrun hguard hreads)
  case toInt =>
    rw [← intPush_eq_wr, execFcvti]
    exact runHead_ok hrun hguard (by rw [Reads] at hreads; rw [hreads]; rfl)
  case fromInt =>
    rw [← intOf_eq_rd, execIcvtf]
    exact runHead_ok hrun hguard (by rw [Reads] at hreads; rw [hreads]; rfl)
  case packTwo =>
    replace hm : tailM t / 16 < 2 := hm
    rw [Reads] at hreads
    rw [execFcvtn]
    refine runHead_ok hrun hguard ?_
    simp only [hreads, if_pos hm, cvtPack_two, bits_cvtFormat_narrow hm]
    rfl
  case packFour =>
    replace hm : 2 ≤ tailM t / 16 := hm
    rw [Reads] at hreads
    rw [execFcvtn]
    refine runHead_ok hrun hguard ?_
    simp only [hreads, if_neg (not_lt.mpr hm), List.cons_append, List.nil_append, cvtPack_four]
    rfl
  case scale =>
    rw [execFscale]
    exact runHead_ok hrun hguard (by rw [Reads] at hreads; rw [hreads]; rfl)

/-- Settles O38: a move pushes its bits, and a conversion the value and flags of its rounding. -/
theorem floatingMovesAndConversions : Obligations.FloatingMovesAndConversions := by
  unfold Obligations.FloatingMovesAndConversions
  exact ⟨floatingBits, floatingConversions⟩

end Sys2Proof.Proofs
end

section

/-! Constants, selection, checksums, coordinates, counts and bit fields (R145, R147, R148, R151-R153). -/

namespace Sys2Proof.Proofs

open Sys2Proof.Machine Sys2Proof.Laws Sys2Proof.Stated

/-! ### Bits of numbers -/

/-- The bits of a number one of whose fields is replaced. -/
theorem testBit_replaceField (v x : Nat) {pos n : Nat} (hx : x < 2 ^ n) (i : Nat) :
    (v - nfld v pos n * 2 ^ pos + x * 2 ^ pos).testBit i =
      if pos ≤ i ∧ i < pos + n then x.testBit (i - pos) else v.testBit i := by
  have hlow : v % 2 ^ pos < 2 ^ pos := Nat.mod_lt _ (by positivity)
  have hparts : v - nfld v pos n * 2 ^ pos + x * 2 ^ pos =
      2 ^ pos * (2 ^ n * (v / 2 ^ pos / 2 ^ n) + x) + v % 2 ^ pos := by
    have hv := Nat.div_add_mod v (2 ^ pos)
    have hq := Nat.div_add_mod (v / 2 ^ pos) (2 ^ n)
    rw [nfld, Nat.shiftRight_eq_div_pow]
    set q := v / 2 ^ pos / 2 ^ n
    set r := v / 2 ^ pos % 2 ^ n
    have hsum : v = 2 ^ pos * (2 ^ n * q) + r * 2 ^ pos + v % 2 ^ pos := by
      rw [Nat.mul_comm r, ← Nat.mul_add, hq, hv]
    rw [Nat.mul_add, Nat.mul_comm _ x]
    omega
  rw [hparts, Nat.testBit_two_pow_mul_add _ hlow]
  by_cases hi : i < pos
  · rw [if_pos hi, if_neg (by omega), Nat.testBit_mod_two_pow]
    simp [hi]
  · rw [if_neg hi, Nat.testBit_two_pow_mul_add _ hx]
    by_cases hn : i - pos < n
    · rw [if_pos hn, if_pos (by omega)]
    · rw [if_neg hn, if_neg (by omega), Nat.testBit_div_two_pow, Nat.testBit_div_two_pow]
      congr 1
      omega

theorem bytesLE_eq_map (n v : Nat) :
    bytesLE n v = (List.range n).map (fun j => BitVec.ofNat 8 (v / 256 ^ j)) := by
  apply List.ext_getElem
  · rw [length_bytesLE, List.length_map, List.length_range]
  · intro j hj _
    rw [length_bytesLE] at hj
    rw [← List.getD_eq_getElem _ 0, getD_bytesLE hj]
    simp

/-! ### Counts (R145) -/

section

variable {w : Nat} (x : BitVec w)

theorem leadingZeros_clzN : LeadingZeros x (clzN w x.toNat) := by
  rw [clzN, Nat.mod_eq_of_lt x.isLt]
  by_cases hzero : x.toNat = 0
  · rw [if_pos hzero]
    exact ⟨le_rfl, fun i _ => by rw [BitVec.getLsbD, hzero, Nat.zero_testBit], fun hlt => absurd hlt (lt_irrefl w)⟩
  · have hlog : Nat.log2 x.toNat < w := (Nat.log2_lt hzero).mpr x.isLt
    rw [if_neg hzero]
    refine ⟨by omega, fun i hi => ?_, fun _ => ?_⟩
    · exact Nat.testBit_lt_two_pow ((Nat.log2_lt hzero).mp (by omega))
    · rw [Nat.sub_sub_self (by omega)]
      exact Nat.testBit_log2 hzero

theorem ctzN_le (w a : Nat) : ctzN w a ≤ w := by
  induction w generalizing a with
  | zero => exact le_rfl
  | succ w ih =>
    rw [ctzN]
    split
    · exact Nat.zero_le _
    · have := ih (a / 2)
      omega

theorem testBit_lt_ctzN {w a i : Nat} (hi : i < ctzN w a) : a.testBit i = false := by
  induction w generalizing a i with
  | zero => exact absurd hi (Nat.not_lt_zero i)
  | succ w ih =>
    rw [ctzN] at hi
    split at hi
    next => exact absurd hi (Nat.not_lt_zero i)
    next heven =>
      cases i with
      | zero => simpa using heven
      | succ i => rw [Nat.testBit_succ]; exact ih (by omega)

theorem testBit_ctzN {w a : Nat} (hlt : ctzN w a < w) : a.testBit (ctzN w a) = true := by
  induction w generalizing a with
  | zero => exact absurd hlt (Nat.not_lt_zero _)
  | succ w ih =>
    rw [ctzN] at hlt ⊢
    split at hlt
    next hodd => simp [hodd]
    next heven =>
      rw [if_neg heven, Nat.add_comm, Nat.testBit_succ]
      exact ih (by omega)

theorem trailingZeros_ctzN : TrailingZeros x (ctzN w x.toNat) :=
  ⟨ctzN_le w x.toNat, fun _ hi => testBit_lt_ctzN hi, fun hlt => testBit_ctzN hlt⟩

theorem popcN_eq_length (w a : Nat) :
    popcN w a = ((List.range w).filter (fun i => a.testBit i)).length := by
  induction w generalizing a with
  | zero => rfl
  | succ w ih =>
    rw [popcN, ih, List.range_succ_eq_map, List.filter_cons, List.filter_map, Nat.testBit_zero]
    have htail : (fun i => a.testBit i) ∘ Nat.succ = fun i => (a / 2).testBit i := by
      funext i
      exact Nat.testBit_succ a i
    rw [htail]
    rcases Nat.mod_two_eq_zero_or_one a with hbit | hbit <;> simp [hbit, Nat.add_comm]

/-- The bits below the top one, complemented under a set top bit: their leading zeros are the run of the sign. -/
def belowSign (x : BitVec w) : BitVec (w - 1) :=
  if x.msb then ~~~(x.setWidth (w - 1)) else x.setWidth (w - 1)

theorem getLsbD_belowSign {i : Nat} (hi : i < w - 1) :
    (belowSign x).getLsbD i = Bool.xor (x.getLsbD i) x.msb := by
  rw [belowSign]
  split <;> simp_all

theorem clsN_eq_clzN : clsN w x.toNat = clzN (w - 1) (belowSign x).toNat := by
  rw [clsN, belowSign, BitVec.msb_eq_getLsbD_last, BitVec.getLsbD]
  split <;> simp_all

theorem signRun_clsN : SignRun x (clsN w x.toNat) := by
  rw [clsN_eq_clzN]
  obtain ⟨hle, hzeros, hone⟩ := leadingZeros_clzN (belowSign x)
  set n := clzN (w - 1) (belowSign x).toNat
  refine ⟨hle, fun i hi hiw => ?_, fun hlt => ?_⟩
  · rcases Nat.lt_or_ge i (w - 1) with hi1 | hi1
    · have hbit := hzeros i hi
      rw [getLsbD_belowSign x hi1] at hbit
      simpa using hbit
    · rw [BitVec.msb_eq_getLsbD_last, Nat.le_antisymm (by omega) hi1]
  · have hbit := hone hlt
    rw [getLsbD_belowSign x (by omega), show w - 1 - 1 - n = w - 2 - n by omega] at hbit
    cases hmsb : x.msb <;> simp_all

end

/-! ### Bit fields (R147) -/

theorem ofInt_bfx (sg : Bool) (a b : Word) :
    BitVec.ofInt 64 (bfx sg a.toNat b.toNat) =
      if (b.extractLsb' 8 7).toNat = 0 ∨ 64 ≤ (b.extractLsb' 0 7).toNat then 0
      else ext sg (a.extractLsb' (b.extractLsb' 0 7).toNat
        (min (b.extractLsb' 8 7).toNat (64 - (b.extractLsb' 0 7).toNat))) := by
  have hpos : b.toNat % 128 = (b.extractLsb' 0 7).toNat := by simp
  have hlen : b.toNat / 256 % 128 = (b.extractLsb' 8 7).toNat := by simp [Nat.shiftRight_eq_div_pow]
  simp only [bfx, hpos, hlen]
  generalize (b.extractLsb' 0 7).toNat = pos
  generalize (b.extractLsb' 8 7).toNat = len
  by_cases hnone : len = 0 ∨ 64 ≤ pos
  · rw [if_pos hnone, if_pos hnone]
    rfl
  · rw [if_neg hnone, if_neg hnone]
    cases sg
    · simp only [Bool.false_eq_true, if_false, ext]
      rw [BitVec.ofInt_natCast, ← BitVec.ofNat_toNat, BitVec.extractLsb'_toNat]
      rfl
    · simp only [if_true, ext, sint_eq]
      rfl

/-- The bits that BFI leaves: those of b in the field, as far as it lies in the word, and those of a elsewhere. -/
theorem testBit_bfi (a b c i : Nat) (hi : i < 64) : (bfi a b c).testBit i =
    if c % 128 ≤ i ∧ i < c % 128 + c / 256 % 128 then b.testBit (i - c % 128) else a.testBit i := by
  simp only [bfi]
  generalize c % 128 = pos
  generalize c / 256 % 128 = len
  by_cases hnone : len = 0 ∨ 64 ≤ pos
  · rw [if_pos hnone, if_neg (by omega)]
  · rw [if_neg hnone, testBit_replaceField _ _ (Nat.mod_lt _ (by positivity)), Nat.testBit_mod_two_pow]
    by_cases hin : pos ≤ i ∧ i < pos + len
    · rw [if_pos hin, if_pos (by omega)]
      simp [show i - pos < len ∧ i - pos < 64 - pos by omega]
    · rw [if_neg hin, if_neg (by omega)]

section

variable {s : State} {h : Head} {t : Tail} {a b c : Word} {st : Stage}

/-- A form on bit patterns whose result is a number. -/
theorem bitForm_pushes_nat {f : Nat → Nat → Nat → Nat → Nat} {n : Nat} (hissues : Issues s h)
    (hreads : Reads (.int (tailSigned t)) s t a b c st)
    (hn : f (tailW t) (a.setWidth (tailW t)).toNat b.toNat c.toNat = n) :
    bitForm h t s f = .next (after s h (pushed st t (wr (tailSigned t) (tailW t) n))) := by
  rw [bitForm_ok hissues.1 hissues.2 hreads, intPush_eq_wr, ← BitVec.toNat_setWidth, hn]

end

theorem integerCountsAndFields : IntegerCountsAndFields := by
  intro s h t a b c st sg w x is hissues hreads
  refine ⟨⟨_, leadingZeros_clzN x, (exec_clz h t s).trans (bitForm_pushes_nat hissues hreads rfl)⟩,
    ⟨_, trailingZeros_ctzN x, (exec_ctz h t s).trans (bitForm_pushes_nat hissues hreads rfl)⟩,
    ⟨_, signRun_clsN x, (exec_cls h t s).trans (bitForm_pushes_nat hissues hreads rfl)⟩,
    (exec_popc h t s).trans (bitForm_pushes_nat hissues hreads (popcN_eq_length w x.toNat)),
    (exec_ext h t s).trans (pushForm_pushes hissues hreads (intPush_eq_wr sg _ _)),
    (exec_bfx h t s).trans (pushForm_pushes hissues hreads (ofInt_bfx sg a b)), ?insert⟩
  case insert =>
    intro pos len hm
    have hwide : tailW t = 64 := by rw [tailW, hm]; rfl
    refine ⟨_, (exec_bfi h t s).trans (bitForm_pushes_nat hissues hreads rfl), fun i hi => ?_⟩
    have hpos : c.toNat % 128 = pos := by simp [pos]
    have hlen : c.toNat / 256 % 128 = len := by simp [len, Nat.shiftRight_eq_div_pow]
    have hbit := testBit_bfi (a.setWidth (tailW t)).toNat b.toNat c.toNat i hi
    rw [hpos, hlen] at hbit
    rw [← intPush_eq_wr, intPush_ofNat]
    have hext (n : Nat) : (ext (tailSigned t) (BitVec.ofNat (tailW t) n)).getLsbD i = n.testBit i := by
      rw [hwide]
      have hbits : (BitVec.ofNat 64 n).getLsbD i = n.testBit i := by rw [BitVec.getLsbD_ofNat]; simp [hi]
      cases tailSigned t <;> simpa [ext] using hbits
    rw [hext, hbit, hwide, BitVec.setWidth_eq]
    rfl

/-! ### Checksums and coordinates (R148, R153) -/

theorem foldl_bytesLE {α : Type} (f : α → Byte → α) (r : α) (n v : Nat) :
    (bytesLE n v).foldl f r = (List.range n).foldl (fun r j => f r (BitVec.ofNat 8 (v / 256 ^ j))) r := by
  rw [bytesLE_eq_map, List.foldl_map]

theorem crcBytes_bytesLE (r n v : Nat) : crcBytes r (bytesLE n v) = (List.range n).foldl (fun r j =>
    (List.range 8).foldl (fun r _ => r / 2 ^^^ (if r % 2 = 1 then 0x82F63B78 else 0)) (r ^^^ v / 256 ^ j % 256)) r :=
  foldl_bytesLE _ r n v

theorem fnvBytes_bytesLE (r n v : Nat) : fnvBytes r (bytesLE n v) = (List.range n).foldl (fun r j =>
    (r ^^^ v / 256 ^ j % 256) * 0x100000001B3 % 2 ^ 64) r :=
  foldl_bytesLE _ r n v

theorem extLit_toNat (sg : Bool) (k : BitVec 32) : extLit (.int sg) 32 k.toNat = ext sg k := by
  cases sg
  · exact BitVec.ofNat_toNat 64 k
  · rw [extLit, sint_eq, BitVec.ofNat_toNat, BitVec.setWidth_eq]
    rfl

theorem movesAndHashes : MovesAndHashes := by
  intro s h t a b c st sg w g is byte crcStep hissues
  refine ⟨fun hreads => ⟨(exec_sel h t s).trans (pushForm_pushes hissues hreads ?sel),
    (exec_ldi h t s).trans (pushForm_pushes hissues hreads rfl),
    (exec_ldk h t s).trans (pushForm_pushes hissues hreads (extLit_toNat sg _))⟩,
    fun hreads => ⟨(exec_ldih h t s).trans (pushForm_pushes hissues hreads rfl),
    (exec_crc h t s).trans (pushForm_pushes hissues hreads (congrArg _ (crcBytes_bytesLE _ _ _))),
    (exec_fnv h t s).trans (pushForm_pushes hissues hreads (congrArg _ (fnvBytes_bytesLE _ _ _))),
    fun hm => (exec_coord h t s).trans (pushForm_pushes hissues hreads ?place),
    fun hm => (exec_coord h t s).trans (pushForm_pushes hissues hreads ?stop),
    fun l hl => ⟨fun hm => (exec_coord h t s).trans (pushForm_pushes hissues hreads ?relative),
      fun hm => (exec_coord h t s).trans (pushForm_pushes hissues hreads ?size)⟩⟩⟩
  case sel => simp only [intPush_eq_wr, intOf_eq_rd, beq_iff_eq, sg, w]
  case place => simp only [hm]; rfl
  case stop => simp only [hm]; rfl
  case relative => simp only [hm, hl]; rfl
  case size => simp only [hm, hl]

/-- Settles O39: the counts are those of the bits, BFX and BFI move the stated field, and the other forms push
their value. -/
theorem movesHashesAndCounts : Obligations.MovesHashesAndCounts := by
  unfold Obligations.MovesHashesAndCounts
  exact ⟨movesAndHashes, integerCountsAndFields⟩

end Sys2Proof.Proofs
end

section

/-! Transfers, loop openings and system instructions at their issue (R162-R169, R174-R179). -/

namespace Sys2Proof.Proofs

open Sys2Proof.Machine Sys2Proof.Laws Sys2Proof.Stated

/-! ### A head that faults, traps, or reads srcA -/

section

variable {s : State} {h : Head} {t : Tail} {a b c : Word} {st st' : Stage} {n : Nat}

/-- A head whose body stops with a fault stages it. -/
theorem runHead_faults {f : State → Nat → Ctx → Stage → HeadResult} {x : HeadFault} (hissues : Issues s h)
    (hf : f s s.cur (me s) (bundle s) = .stop (.fault x)) : runHead s h n f = .next (faulting s h x) := by
  rw [runHead_stop hissues.1 hissues.2 hf, stopHead_fault]
  rfl

/-- A head whose body raises a trap stages it. -/
theorem runHead_traps {f : State → Nat → Ctx → Stage → HeadResult} {cause : Cause} {code : Word}
    (hissues : Issues s h) (hf : f s s.cur (me s) (bundle s) = .trap cause code) :
    runHead s h n f = .next (after s h
      { bundle s with trap := (bundle s).trap.or (some ((bundle s).at_, cause, code)) }) := by
  rw [runHead_true hissues.1 hissues.2, hf]

/-- A head whose body reports the pending GUARD stages the report. -/
theorem runHead_reports {f : State → Nat → Ctx → Stage → HeadResult} (hissues : Issues s h)
    (hf : f s s.cur (me s) (bundle s) = .guard) :
    runHead s h n f = .next (after s h
      { bundle s with guardAt := (bundle s).guardAt.or (some (bundle s).at_) }) := by
  rw [runHead_true hissues.1 hissues.2, hf]

variable {f : State → Nat → Ctx → Stage → Word → HeadResult}

/-- A form that reads srcA and gives a stage. -/
theorem aForm_gives (hissues : Issues s h) (hreads : Reads (.int false) s t a b c st)
    (hf : f s s.cur (me s) st a = .ok st') : aForm h t s f = .next (after s h st') :=
  aForm_ok hissues.1 hissues.2 hreads hf

theorem aForm_faults {x : HeadFault} (hissues : Issues s h) (hreads : Reads (.int false) s t a b c st)
    (hf : f s s.cur (me s) st a = .stop (.fault x)) : aForm h t s f = .next (faulting s h x) := by
  rw [Reads] at hreads
  exact runHead_faults hissues (by simp only [hreads, hf])

theorem aForm_traps {cause : Cause} {code : Word} (hissues : Issues s h)
    (hreads : Reads (.int false) s t a b c st) (hf : f s s.cur (me s) st a = .trap cause code) :
    aForm h t s f = .next (after s h
      { bundle s with trap := (bundle s).trap.or (some ((bundle s).at_, cause, code)) }) := by
  rw [Reads] at hreads
  exact runHead_traps hissues (by simp only [hreads, hf])

theorem privForm_gives {denied : Bool} (hissues : Issues s h) (hreads : Reads (.int false) s t a b c st)
    (hmode : denied = false ∨ (me s).sys = true) (hf : f s s.cur (me s) st a = .ok st') :
    privForm h t s denied f = .next (after s h st') :=
  privForm_ok hissues.1 hissues.2 (by rcases hmode with hd | hs <;> simp_all) hreads hf

theorem privForm_faults {x : HeadFault} (hissues : Issues s h) (hreads : Reads (.int false) s t a b c st)
    (hmode : (me s).sys = true) (hf : f s s.cur (me s) st a = .stop (.fault x)) :
    privForm h t s true f = .next (faulting s h x) := by
  rw [Reads] at hreads
  exact runHead_faults hissues (by simp only [hreads, hf, hmode]; rfl)

/-- User mode is denied a privileged form. -/
theorem privForm_privilege {denied : Bool} (hissues : Issues s h) (hdenied : denied = true)
    (hmode : (me s).sys = false) :
    privForm h t s denied f = .next (faulting s h ⟨.privilege, none, false, 0, none⟩) := by
  subst hdenied
  exact runHead_faults hissues (by simp only [hmode]; rfl)

end

/-! ### Targets (R106, R107, R169) -/

section

variable {s : State} {g : Nat} {c : Ctx} {st : Stage} {x : Nat}

theorem withTarget_good {go : HeadResult} (hgood : checkTarget s g x = .ok) : withTarget s g x go = go := by
  rw [withTarget, hgood]

theorem withTarget_bad {go : HeadResult} {e : TargetError} (hbad : checkTarget s g x = .err e)
    (hstall : e.stall = false) :
    withTarget s g x go = .stop (.fault ⟨e.cause, some x, true, 0, e.pte⟩) := by
  simp [withTarget, hbad, Stop.target, hstall]

/-- A target that passes its checks is jumped to, unless the body may not be left. -/
theorem transfer_good {inBody : Bool} (hgood : checkTarget s g x = .ok)
    (hstays : inBody = false ∨ c.leavesBody st.bpc x = false) :
    transfer s g c st x inBody = .ok { st with xfer := some (.jump x) } := by
  rw [transfer, withTarget_good hgood, if_neg]
  rcases hstays with hfree | hstays <;> simp_all

theorem transfer_bad {inBody : Bool} {e : TargetError} (hbad : checkTarget s g x = .err e)
    (hstall : e.stall = false) :
    transfer s g c st x inBody = .stop (.fault ⟨e.cause, some x, true, 0, e.pte⟩) :=
  withTarget_bad hbad hstall

/-- BAD_LOOP: a taken transfer leaves the innermost body (R169). -/
theorem transfer_leaves (hgood : checkTarget s g x = .ok) (hleaves : c.leavesBody st.bpc x = true) :
    transfer s g c st x true = .stop (.fault ⟨.badLoop, none, false, 0, none⟩) := by
  rw [transfer, withTarget_good hgood, if_pos (by simp [hleaves])]
  rfl

theorem linkTransfer_good (hgood : checkTarget s g x = .ok) :
    linkTransfer s g c st x =
      .ok { st with link := some (BitVec.ofNat 64 s.after), xfer := some (.jump x) } :=
  transfer_good hgood (.inl rfl)

theorem linkTransfer_bad {e : TargetError} (hbad : checkTarget s g x = .err e) (hstall : e.stall = false) :
    linkTransfer s g c st x = .stop (.fault ⟨e.cause, some x, true, 0, e.pte⟩) :=
  transfer_bad hbad hstall

end

/-- Settles O6: each form transfers to its checked target, and a condition that fails leaves the bundle. -/
theorem transfers : Obligations.Transfers := by
  unfold Obligations.Transfers
  intro s h t a b c st imm good stays goes link hissues hreads
  have gives {f : State → Nat → Ctx → Stage → Word → HeadResult} {st' : Stage}
      (hf : f s s.cur (me s) st a = .ok st') : aForm h t s f = .next (after s h st') :=
    aForm_gives hissues hreads hf
  refine ⟨fun hgood hstays => (exec_br h t s).trans (gives (transfer_good hgood (.inr hstays))),
    fun ha hgood hstays => (exec_brz h t s).trans
      (gives ((if_pos ha).trans (transfer_good hgood (.inr hstays)))),
    fun ha => (exec_brz h t s).trans (gives (if_neg ha)),
    fun ha hgood hstays => (exec_brnz h t s).trans
      (gives ((if_pos ha).trans (transfer_good hgood (.inr hstays)))),
    fun ha => (exec_brnz h t s).trans (gives (if_neg (not_not.mpr ha))),
    fun hgood hstays => (exec_jmp h t s).trans (gives (transfer_good hgood (.inr hstays))),
    fun hgood => (exec_call h t s).trans (gives (linkTransfer_good hgood)),
    fun hgood => (exec_calli h t s).trans (gives (linkTransfer_good hgood)),
    fun ha hgood => (exec_ret h t s).trans (gives ((if_neg ha).trans (transfer_good hgood (.inl rfl)))),
    fun ha => (exec_ret h t s).trans (gives (if_pos ha)), ?breaks⟩
  case breaks =>
    intro k l hinner hstart hexit
    refine (exec_lbrk h t s).trans (runHead_ok hissues.1 hissues.2 ?_)
    have hhas : l.has (bundle s).bpc = true := decide_eq_true ⟨hstart, hexit⟩
    simp only [hinner, hhas, if_true]

/-! ### Faults (R107, R166, R168, R169) -/

/-- A loop form out of order fails the checks that come before its body is walked (R166). -/
theorem loopPre_eq_false {c : Ctx} {h : Head} {k : Nat} {a : Word}
    (hout : k ≠ c.loops.length ∨ k = 3 ∨ h.chain = true ∨ a = 0 ∨ 2 ^ 32 ≤ a.toNat) :
    loopPre c h k a.toNat = false := by
  rcases hout with hk | hk | hchain | ha | ha
  · simp [loopPre, hk]
  · simp [loopPre, hk]
  · simp [loopPre, hchain]
  · simp [loopPre, ha]
  · rw [loopPre, decide_eq_false (not_lt.mpr ha), Bool.and_false]

theorem loopPre_eq_true {c : Ctx} {h : Head} {k n : Nat} (hk : k = c.loops.length) (hlt : k < 3)
    (hchain : h.chain = false) (hpos : 1 ≤ n) (hn : n < 2 ^ 32) : loopPre c h k n = true := by
  simp only [loopPre, ← hk, hchain, decide_eq_true hn, bne_iff_ne.mpr hlt.ne,
    bne_iff_ne.mpr (Nat.one_le_iff_ne_zero.mp hpos), beq_self_eq_true]
  rfl

theorem innermost_of_nil {c : Ctx} (hnil : c.loops = []) : c.innermost = none := by
  simp [Ctx.innermost, hnil]

theorem transferFaults : TransferFaults := by
  intro s h t a b c st e imm faults bad loop hissues hreads hstall
  have stops {f : State → Nat → Ctx → Stage → Word → HeadResult} {x : HeadFault}
      (hf : f s s.cur (me s) st a = .stop (.fault x)) : aForm h t s f = .next (faulting s h x) :=
    aForm_faults hissues hreads hf
  refine ⟨fun hbad => ?immBad, fun hbad => ?regBad, fun hgood hleaves => ?immLeaves,
    fun hgood hleaves => (exec_jmp h t s).trans (stops (transfer_leaves hgood hleaves)),
    fun hgood hout => (exec_loop h t s).trans (stops ?loopOut), fun hout => (exec_loopr h t s).trans (stops ?looprOut),
    fun hnil => (exec_lbrk h t s).trans (runHead_faults hissues ?noLevel), fun huser => ?user⟩
  case immBad =>
    exact ⟨(exec_br h t s).trans (stops (transfer_bad hbad hstall)),
      (exec_call h t s).trans (stops (linkTransfer_bad hbad hstall)),
      (exec_loop h t s).trans (stops (withTarget_bad hbad hstall)),
      fun ha => (exec_brz h t s).trans (stops ((if_pos ha).trans (transfer_bad hbad hstall))),
      fun ha => (exec_brnz h t s).trans (stops ((if_pos ha).trans (transfer_bad hbad hstall)))⟩
  case regBad =>
    exact ⟨(exec_jmp h t s).trans (stops (transfer_bad hbad hstall)),
      (exec_calli h t s).trans (stops (linkTransfer_bad hbad hstall)),
      fun ha => (exec_ret h t s).trans (stops ((if_neg ha).trans (transfer_bad hbad hstall))),
      fun hsys => (exec_sysret h t s).trans (privForm_faults hissues hreads hsys (withTarget_bad hbad hstall))⟩
  case immLeaves =>
    exact ⟨(exec_br h t s).trans (stops (transfer_leaves hgood hleaves)),
      fun ha => (exec_brz h t s).trans (stops ((if_pos ha).trans (transfer_leaves hgood hleaves))),
      fun ha => (exec_brnz h t s).trans (stops ((if_pos ha).trans (transfer_leaves hgood hleaves)))⟩
  case loopOut =>
    exact (withTarget_good hgood).trans (if_pos (by rw [loopPre_eq_false hout]; rfl))
  case looprOut =>
    refine if_pos ?_
    rcases hout with hk | hk | hchain | ha | ha | hm | hm
    · rw [loopPre_eq_false (.inl hk)]; rfl
    · rw [loopPre_eq_false (.inr (.inl hk))]; rfl
    · rw [loopPre_eq_false (.inr (.inr (.inl hchain)))]; rfl
    · rw [loopPre_eq_false (.inr (.inr (.inr (.inl ha))))]; rfl
    · rw [loopPre_eq_false (.inr (.inr (.inr (.inr ha))))]; rfl
    · simp [hm]
    · simp [hm]
  case noLevel => simp only [innermost_of_nil hnil]; rfl
  case user =>
    exact ⟨(exec_sysret h t s).trans (privForm_privilege hissues rfl huser),
      (exec_halt h t s).trans (runHead_faults hissues (by simp only [Ctx.sys, huser]; rfl)),
      fun hi => (exec_cwr h t s).trans (privForm_privilege hissues (bne_iff_ne.mpr hi) huser)⟩

/-! ### Opening a loop (R164-R166) -/

theorem openLoop_inside {s : State} {g : Nat} {c : Ctx} {st : Stage} {k n start exit : Nat}
    (hinside : ∀ j l, c.innermost = some (j, l) → l.start ≤ start ∧ exit < l.exit) :
    openLoop s g c st k n start exit = .ok { st with
      loopOpen := some (k, n, ⟨start, exit⟩)
      body := if c.loops.isEmpty then bodyLines s g start exit else [] } := by
  rw [openLoop]
  cases hinner : c.innermost with
  | none => rfl
  | some level =>
    obtain ⟨j, l⟩ := level
    exact if_pos (decide_eq_true (hinside j l hinner))

theorem loopsOpen : LoopsOpen := by
  intro s h t a b c st k inside opened hissues hreads hk hlt hchain hpos hn
  have hpre : loopPre (me s) h (tailM t % 4) a.toNat = true := loopPre_eq_true hk hlt hchain hpos hn
  refine ⟨fun hgood hreach hinside => (exec_loop h t s).trans (aForm_gives hissues hreads ?loop),
    fun exit hpos' hle hafter hinside => (exec_loopr h t s).trans (aForm_gives hissues hreads ?loopr)⟩
  case loop =>
    refine (withTarget_good hgood).trans ((if_neg (by simp [hpre])).trans ?_)
    simp only [hreach]
    exact openLoop_inside hinside
  case loopr =>
    have hm : (!loopPre (me s) h (tailM t % 4) a.toNat || (tailF t).toNat == 0 ||
        decide (256 < (tailF t).toNat)) = false := by
      rw [hpre]
      simpa using ⟨fun h0 => by simp [h0] at hpos', hle⟩
    simp only [hm, hafter]
    exact openLoop_inside hinside

theorem loopBodyInOneLine : LoopBodyInOneLine := by
  intro s g a exit ha hexit hline hlt
  have hlines : lineOf a = lineOf exit := by rw [lineOf, lineOf, hline]
  have hheads : headOf a < headOf exit := by rw [headOf, headOf]; omega
  have hbound : headOf exit < 32 := by rw [headOf]; omega
  rw [loopReaches, if_pos ⟨hlines, hheads.le⟩]
  exact congrArg Except.ok (decide_eq_true (by omega))

/-- Settles O42: the checks of a loop form pass, so that it opens its level; an exit in the line of the start is
reached at once. -/
theorem loopsOpening : Obligations.LoopsOpening := by
  unfold Obligations.LoopsOpening
  exact ⟨loopsOpen, loopBodyInOneLine⟩

/-! ### System instructions (R174-R179) -/

theorem systemInstructions : SystemInstructions := by
  intro s h t a b c st sys is reads hissues hreads
  have crd {i : Nat} {v : Word} (hv : readCreg s s.cur (me s) (bundle s).issued i = v) : reads i v := fun hi =>
    (exec_crd h t s).trans (runHead_ok hissues.1 hissues.2 (by rw [hi, hv]))
  exact ⟨(exec_nop h t s).trans (runHead_ok hissues.1 hissues.2 rfl),
    (exec_rdcyc h t s).trans (runHead_ok hissues.1 hissues.2 rfl),
    (exec_pause h t s).trans (aForm_gives hissues hreads rfl),
    crd rfl, crd rfl, crd rfl, crd rfl, crd rfl, crd rfl, crd rfl, crd rfl, crd rfl,
    fun hmode => (exec_cwr h t s).trans
      (privForm_gives hissues hreads (hmode.imp_left (bne_eq_false_iff_eq.mpr ·)) rfl),
    fun hsys => (exec_halt h t s).trans
      (runHead_ok hissues.1 hissues.2 (if_neg (by simp [Ctx.sys, show (me s).status.getLsbD 15 = true from hsys]))),
    fun hsys hgood => (exec_sysret h t s).trans
      (privForm_gives hissues hreads (.inr hsys) (withTarget_good hgood))⟩

/-! ### Writes of control registers (R135-R137, R177) -/

theorem ofNat_fld (v : Word) (lo len : Nat) : BitVec.ofNat 64 (fld v lo len) = (v.extractLsb' lo len).setWidth 64 := by
  rw [fld_eq_extractLsb', BitVec.ofNat_toNat]

/-- The writable bits of CTX_FPCTL: FTZ takes the written bit, and a sticky flag is cleared by a one (R137). -/
theorem getLsbD_writeFpctl (c : Ctx) (v : Word) {k : Nat} (hk : k < 64) :
    (c.writeCreg 2 v).fpctl.getLsbD k =
      if k < 5 then c.fpctl.getLsbD k && !v.getLsbD k else decide (k = 8) && v.getLsbD 8 := by
  have hftz : fld v 8 1 = (v.getLsbD 8).toNat := by
    rw [fld, Nat.shiftRight_eq_div_pow, BitVec.getLsbD, Nat.toNat_testBit, Nat.pow_one]
  have hmask : (0x1F#64).getLsbD k = decide (k < 5) := by interval_cases k <;> rfl
  have hhigh : (BitVec.ofNat 64 ((v.getLsbD 8).toNat * 256)).getLsbD k = (decide (k = 8) && v.getLsbD 8) := by
    cases v.getLsbD 8
    · simp
    · interval_cases k <;> rfl
  rw [Ctx.writeCreg, hftz, BitVec.getLsbD_or, hhigh, BitVec.getLsbD_and, BitVec.getLsbD_and, hmask]
  by_cases hlow : k < 5
  · simp [hlow, hk, show k ≠ 8 by omega]
  · simp [hlow]

/-- BASE and EFF of a written CTX_PRI (R55, R177). -/
theorem toNat_priWord {base inherited : Nat} (hb : base < 4) (hi : inherited < 4) :
    (priWord base inherited).toNat = base + 4 * max base inherited := by
  rw [priWord, BitVec.toNat_ofNat, Nat.mod_eq_of_lt (by omega)]

theorem extractLsb'_priWord_base (base inherited : Nat) :
    (priWord base inherited).extractLsb' 0 2 = BitVec.ofNat 2 base := by
  apply BitVec.eq_of_toNat_eq
  rw [priWord, BitVec.extractLsb'_toNat, BitVec.toNat_ofNat, BitVec.toNat_ofNat]
  simp only [Nat.shiftRight_zero]
  omega

theorem controlRegisterWrites : ControlRegisterWrites := by
  intro c v
  refine ⟨ofNat_fld v 0 48, fun k hk => getLsbD_writeFpctl c v hk, ofNat_fld v 0 16, ?base, fun hi => ?eff, ?saveptr,
    rfl, fun i hi => ?other, fun i => ?frame⟩
  case base =>
    rw [Ctx.writeCreg, extractLsb'_priWord_base, fld_eq_extractLsb', BitVec.ofNat_toNat, BitVec.setWidth_eq]
  case eff =>
    have hbase : fld v 0 2 < 4 := Nat.mod_lt _ (by decide)
    have hv : fld v 0 2 = v.toNat % 4 := by simp [fld]
    rw [Ctx.writeCreg, BitVec.extractLsb'_toNat, toNat_priWord hbase hi, Nat.shiftRight_eq_div_pow, hv]
    have hmax : max (v.toNat % 4) c.inherited < 4 := by omega
    omega
  case saveptr =>
    rw [Ctx.writeCreg, fld_eq_extractLsb']
    apply BitVec.eq_of_toNat_eq
    simp [BitVec.toNat_shiftLeft, Nat.shiftLeft_eq]
  case other =>
    obtain ⟨j, rfl⟩ : ∃ j, i = j + 6 := ⟨i - 6, by omega⟩
    rfl
  case frame =>
    match i with
    | 0 | 1 | 2 | 3 | 4 | 5 | _ + 6 => simp [Ctx.writeCreg]

/-- Settles O43: a system instruction stages what it states, and a write of a register leaves its writable bits. -/
theorem systemAndControlRegisters : Obligations.SystemAndControlRegisters := by
  unfold Obligations.SystemAndControlRegisters
  exact ⟨systemInstructions, controlRegisterWrites⟩

end Sys2Proof.Proofs
end

section

/-! Traps that an instruction raises by itself, and the end of a bundle that stops (R95, R96, R110, R174, R175,
R256, R407, R410). -/

namespace Sys2Proof.Proofs

open Sys2Proof.Machine Sys2Proof.Laws Sys2Proof.Stated

/-- After the last head of a bundle comes its end. -/
theorem after_of_last {s : State} {h : Head} {st : Stage} (hlast : h.chain = false) :
    after s h st = finishBundle s s.cur st := by
  rw [after, afterHead, nextHeadOf, hlast]
  rfl

theorem instructionTraps : InstructionTraps := by
  intro s h t a b c st takes hissues
  exact ⟨(exec_bkpt h t s).trans (runHead_traps hissues rfl), fun hreads =>
    ⟨(exec_trap h t s).trans (aForm_traps hissues hreads rfl),
      (exec_syscall h t s).trans (aForm_traps hissues hreads rfl)⟩⟩

/-! ### The end of a bundle that stops -/

section

variable {s : State} {g i : Nat} {st : Stage} {f : HeadFault}

/-- The pending GUARD precedes a fault and a trap of its bundle (R410). -/
theorem finishBundle_guard (hguard : st.guardAt = some i) : finishBundle s g st = takeGuard s g st.bpc i := by
  simp only [finishBundle, hguard]

/-- A fault whose walk is not counted and that is not served in WAIT traps (R96). -/
theorem faultHead_traps (hpage : f.cause ≠ .page) (hremote : f.cause ≠ .remoteVault)
    (hgrow : f.cause ≠ .stackGrow) :
    faultHead s g st f = takeTrap (s.modCtx g (fun c => { c with stage := none, resume := none })) g (f.info st) := by
  simp [faultHead, hpage, hremote, hgrow]

/-- A fault of a walk counts it first (R396). -/
theorem faultHead_walks (hwalk : f.cause = .page ∨ f.cause = .remoteVault) :
    faultHead s g st f = takeTrap ((noteWalk s (tileOf g) (s.ctx g).asid (f.addr.getD 0)).modCtx g
      (fun c => { c with stage := none, resume := none })) g (f.info st) := by
  have hgrow : f.cause ≠ .stackGrow := by rcases hwalk with h | h <;> rw [h] <;> decide
  simp [faultHead, hwalk, hgrow]

/-- STACK_GROW waits for its service (R141). -/
theorem faultHead_stackGrow (hgrow : f.cause = .stackGrow) :
    faultHead s g st f = s.modCtx g (fun c =>
      { c with st := .wait, waiting := .stackGrow (f.addr.getD 0), stage := none, resume := none }) := by
  simp [faultHead, hgrow]

/-- Only BAD_LINE resumes elsewhere than at its bundle (R407). -/
theorem info_of_ne_badLine (hline : f.cause ≠ .badLine) :
    f.info { st with at_ := i } =
      ⟨f.cause, i % 64 / 2, f.addr, f.target, false, false, 0, st.bpc, st.bpc, f.code, f.pte⟩ := by
  simp [HeadFault.info, hline, headOf]

end

theorem bundleStops : BundleStops := by
  intro s h st i f cause code x off n g none' issued hlast
  rw [after_of_last hlast]
  refine ⟨fun hguard hpending => ?guard, fun hguard hfault hpage hremote hgrow hline => ?fault,
    fun hguard hfault hwalk => ?walk, fun hguard hfault hgrow => ?grow, fun hguard hfault htrap => ?trap⟩
  case guard =>
    rw [finishBundle_guard hguard, takeGuard, hpending]
    rfl
  case fault =>
    rw [finishBundle_fault hguard hfault, faultHead_traps hpage hremote hgrow, info_of_ne_badLine hline]
  case walk =>
    have hline : f.cause ≠ .badLine := by rcases hwalk with h | h <;> rw [h] <;> decide
    rw [finishBundle_fault hguard hfault, faultHead_walks hwalk, info_of_ne_badLine hline]
  case grow => rw [finishBundle_fault hguard hfault, faultHead_stackGrow hgrow]
  case trap =>
    rw [finishBundle_trap hguard hfault htrap]
    rfl

theorem pendingGuard : PendingGuard := by
  intro s h t reports hissues hpending
  have fence (xp : Bool) : fenceForm xp h t s = _ := runHead_reports hissues (by simp only [hpending, if_true])
  have wait (bit0 : Bool) : tbwaitForm bit0 h t s = _ := runHead_reports hissues (by simp only [hpending, if_true])
  exact ⟨(exec_fence h t s).trans (fence false), (exec_fenceXp h t s).trans (fence true),
    (exec_tbwait h t s).trans (wait false), (exec_tbwaitB h t s).trans (wait true)⟩

theorem reservedOpcodes : ReservedOpcodes := by
  intro s h opc tlen d raw hrun
  rw [exec_illegalOpcode, execIllegalOpcode]
  exact if_neg (not_not.mpr hrun)

/-- Settles O44: a trap, a report and a fault are staged at their head, and the end of the bundle takes the first
of them in the order of R410. -/
theorem raisedTraps : Obligations.RaisedTraps := by
  unfold Obligations.RaisedTraps
  exact ⟨instructionTraps, bundleStops, pendingGuard, reservedOpcodes⟩

end Sys2Proof.Proofs
end

section

/-! Addresses, direct loads, and the load and store instructions (R36, R257-R264, R294). -/

namespace Sys2Proof.Proofs

open Sys2Proof.Machine Sys2Proof.Laws Sys2Proof.Stated

/-! ### Addresses (R257) -/

/-- A T32 tail that names the constant bank has no shift: its modifier byte is the index of the constant (R100). -/
theorem loadAddr_of_constant :
    loadAddr (.t32 0x10 none .zero .zero .k) 0 1 = 1 := by
  decide

theorem length_freeBytes (k i n : Nat) : (Config.freeBytes k i n).length = n := by
  rw [Config.freeBytes, List.length_map, List.length_range]

/-! ### A direct load in each case (R36, R256, R259, R261, R294, R41, R429) -/

theorem Stop.addr_eq (e : AddrError) (a : Nat) :
    Stop.addr e a = if e.stall then .stall else .fault ⟨e.cause, some a, false, 0, e.pte⟩ := rfl

section

variable {s : State} {r : Reach} {ea n al : Nat} {st : Stage} {l : Loc}

theorem loadBytes_refused {e : AddrError} (hloc : locate s s.cur r ea n al false = .error e) :
    loadBytes s s.cur r ea n al st = .error (Stop.addr e ea) := by
  simp only [loadBytes, hloc]

variable (hloc : locate s s.cur r ea n al false = .ok l)

include hloc

theorem loadBytes_stalled (hstall : stalledOver s l.key n = true) :
    loadBytes s s.cur r ea n al st = .error .stall := by
  simp only [loadBytes, hloc, hstall, if_true]

variable (hstall : stalledOver s l.key n = false)

include hstall

theorem loadBytes_guarded (hguard : guarded s l.key n = true) :
    loadBytes s s.cur r ea n al st = .ok (Config.freeBytes s.fresh (2 ^ 70 * st.acts.length + l.key) n,
      (touched s ea st l n).act (.guardTouch ea (keyOff l.key))) := by
  simp only [loadBytes, hloc, hstall, hguard, if_true, Bool.false_eq_true, if_false]
  rfl

variable (hguard : guarded s l.key n = false)

include hguard

theorem loadBytes_stale (hstale : staleAt s l.home (tagOf s (tileOf s.cur) (me s).asid) = true) :
    loadBytes s s.cur r ea n al st = .ok (Config.freeBytes s.fresh (2 ^ 70 * st.acts.length + l.key) n,
      (touched s ea st l n).act (.rejected 2)) := by
  simp only [loadBytes, hloc, hstall, hguard, hstale, if_true, Bool.false_eq_true, if_false]
  rfl

variable (hstale : staleAt s l.home (tagOf s (tileOf s.cur) (me s).asid) = false)

include hstale

/-- With no error to consume, the load reads what the context sees. -/
theorem loadBytes_seen (hinj : injRead s l.key = false) (hpoison : poisoned s l.key n = false) :
    loadBytes s s.cur r ea n al st = .ok (seen s st l.key n, touched s ea st l n) := by
  simp only [loadBytes, hloc, hstall, hguard, hstale, hinj, hpoison, Bool.false_and, Bool.false_eq_true, if_false]
  exact ite_self _

theorem loadBytes_injected (hopen : n = 0 ∨ covered (ownStores s (me s) st) l.key n = false)
    (hinj : injRead s l.key = true) (hdbl : injDbl s = true) :
    loadBytes s s.cur r ea n al st = .error (.poison ea (some l.key)) := by
  have hcov : (covered (ownStores s (me s) st) l.key n && n != 0) = false := by
    rcases hopen with hn | hc <;> simp_all
  simp only [loadBytes, hloc, hstall, hguard, hstale, hcov, hinj, hdbl, Bool.and_self, Bool.false_eq_true, if_false,
    if_true]

theorem loadBytes_poisoned (hopen : n = 0 ∨ covered (ownStores s (me s) st) l.key n = false)
    (hinj : injRead s l.key = false) (hpoison : poisoned s l.key n = true) :
    loadBytes s s.cur r ea n al st = .error (.poison ea none) := by
  have hcov : (covered (ownStores s (me s) st) l.key n && n != 0) = false := by
    rcases hopen with hn | hc <;> simp_all
  simp only [loadBytes, hloc, hstall, hguard, hstale, hcov, hinj, hpoison, Bool.false_and, Bool.false_eq_true,
    if_false, if_true]

end

theorem loadBytes_readable {s : State} {r : Reach} {ea n al : Nat} {st : Stage} {l : Loc}
    (hread : Readable s r ea n al l) :
    loadBytes s s.cur r ea n al st = .ok (seen s st l.key n, touched s ea st l n) := by
  obtain ⟨hloc, hstall, hguard, hstale, hinj, hpoison⟩ := hread
  exact loadBytes_seen hloc hstall hguard hstale hinj hpoison

/-! ### A load that crosses a granule (R223) -/

section

variable {s : State} {r : Reach} {ea a n al : Nat} {st : Stage}

/-- A load faults at its own address. -/
theorem addr_of_loadBytes_fault {f : HeadFault} (hfault : loadBytes s s.cur r ea n al st = .error (.fault f)) :
    f.addr = some ea := by
  cases hloc : locate s s.cur r ea n al false with
  | error e =>
    rw [loadBytes_refused hloc, Stop.addr_eq] at hfault
    split at hfault
    · cases hfault
    · cases hfault
      rfl
  | ok l =>
    simp only [loadBytes, hloc] at hfault
    split_ifs at hfault <;> cases hfault

/-- The last piece of a load is a load, which reports the address of the whole access. -/
theorem loadPieces_last {fuel : Nat} (hlast : n ≤ 128 - a % 128) {bs : List Byte} {st' : Stage}
    (hload : loadBytes s s.cur r a n al st = .ok (bs, st')) :
    loadPieces s s.cur r ea (fuel + 1) a n al st = .ok (bs, st') := by
  simp only [loadPieces, min_eq_left hlast, hload, le_refl, if_true]

theorem loadSpan_of_le (hfit : n ≤ 128 - ea % 128) :
    loadSpan s s.cur r ea n al st = loadBytes s s.cur r ea n al st := by
  simp only [loadSpan, loadPieces, min_eq_left hfit]
  cases hload : loadBytes s s.cur r ea n al st with
  | ok x => simp only [le_refl, if_true]
  | error x =>
    cases x with
    | fault f =>
      obtain ⟨cause, addr, target, code, pte⟩ := f
      cases addr_of_loadBytes_fault hload
      rfl
    | stall => rfl
    | poison _ _ => rfl

theorem loadSpan_of_two (hcross : 128 - ea % 128 < n) (hn : n ≤ 128) {l l' : Loc}
    (hfirst : Readable s r ea (128 - ea % 128) al l)
    (hsecond : Readable s r (ea + (128 - ea % 128)) (n - (128 - ea % 128)) 1 l') :
    loadSpan s s.cur r ea n al st = .ok
      (seen s st l.key (128 - ea % 128) ++
        seen s (touched s ea st l (128 - ea % 128)) l'.key (n - (128 - ea % 128)),
        touched s (ea + (128 - ea % 128)) (touched s ea st l (128 - ea % 128)) l' (n - (128 - ea % 128))) := by
  have hrest : n - (128 - ea % 128) ≤ 128 - (ea + (128 - ea % 128)) % 128 := by omega
  rw [loadSpan, loadPieces]
  simp only [min_eq_right hcross.le, loadBytes_readable hfirst, not_le.mpr hcross, if_false,
    loadPieces_last hrest (loadBytes_readable hsecond)]

end

theorem directLoads : DirectLoads := by
  intro s r ea n al st
  refine ⟨fun e hloc => loadBytes_refused hloc, fun l hloc => ⟨loadBytes_stalled hloc, fun hstall hguard => ?guarded,
    fun hstall hguard hstale => ?stale, loadBytes_readable, fun hstall hguard hstale hopen =>
      ⟨loadBytes_injected hloc hstall hguard hstale hopen, loadBytes_poisoned hloc hstall hguard hstale hopen⟩⟩,
    loadSpan_of_le, fun hcross hn l l' hfirst hsecond => loadSpan_of_two hcross hn hfirst hsecond⟩
  case guarded => exact ⟨_, length_freeBytes .., loadBytes_guarded hloc hstall hguard⟩
  case stale => exact ⟨_, length_freeBytes .., loadBytes_stale hloc hstall hguard hstale⟩

/-- Refutes O45: the statement shifts the index of a T32 tail by the two high bits of its modifier byte also where
a source is a constant; there the byte is the index of the constant and the index is not shifted (R100). Index 1
with the byte 0x10 gives the address 1, not 2. -/
theorem not_addressesAndLoads : ¬ Obligations.AddressesAndLoads := by
  unfold Obligations.AddressesAndLoads
  rintro ⟨haddresses, -⟩
  obtain ⟨-, hindexed, -⟩ := haddresses 0 1 0 0 0x10 0 0 none .k .zero .zero
  rw [loadAddr_of_constant] at hindexed
  exact absurd hindexed (by decide)

/-! ### LD, LDP, ST, STP (R262-R264) -/

section

variable {s : State} {h : Head} {t : Tail} {a b c : Word} {st st' : Stage} {n : Nat}
  {f : State → Nat → Ctx → Word → Word → Word → Stage → HeadResult}

theorem memForm_gives (hissues : Issues s h) (hreads : Reads (.int false) s t a b c st)
    (hf : f s s.cur (me s) a b c st = .ok st') : memForm h t s n f = .next (after s h st') :=
  memForm_ok hissues.1 hissues.2 hreads hf

theorem loadValue_eq_ext (t : Tail) (bs : List Byte) :
    loadValue t bs = ext (tailSigned t) (BitVec.ofNat (tailW t) (natLE bs)) := intPush_ofNat ..

end

/-- Settles O7: the bytes of the address are read, and each value is extended under the suffix. -/
theorem loads : Obligations.Loads := by
  unfold Obligations.Loads
  intro s h t a b c st l w n ea sg hissues hreads
  refine ⟨fun hread => (exec_ld h t s).trans (memForm_gives hissues hreads ?single),
    fun hread => (exec_ldp h t s).trans (memForm_gives hissues hreads ?pair)⟩
  case single =>
    simp only [show loadBytes s s.cur .plain (loadAddr t a b) (tailBytes t) (tailBytes t) st = _ from
      loadBytes_readable hread, loadValue_eq_ext]
    rfl
  case pair =>
    simp only [show loadBytes s s.cur .plain (loadAddr t a b) (2 * tailBytes t) (2 * tailBytes t) st = _ from
      loadBytes_readable hread, loadValue_eq_ext]
    cases tailD t <;> simp only [Stage.push, List.append_assoc, List.append_nil] <;> rfl

/-! ### Stores -/

section

variable {s : State} {t : Tail} {ea opc al n : Nat} {bs : List Byte} {st : Stage} {l : Loc}

/-- A store of at most one packet is one part. -/
theorem storeParts_one {tag : GenTag} {home key k : Nat} (hfit : bs.length ≤ Config.chunk) :
    storeParts tag home key ea bs (k + 1) = [(home, .store key ea bs tag false)] := by
  rw [storeParts, if_pos hfit]

/-- A store outside the own frame and stack of the context is held as one effect. -/
theorem storeBytes_held (hlen : bs.length = n) (hloc : locate s s.cur .plain ea n al true = .ok l)
    (hprivate : isPrivate (me s) ea n = false) (hfit : n ≤ 16) :
    HeadResult.of (storeBytes s s.cur opc t ea bs al st) = .ok (holds (walks s ea st) (mkEffect opc t 0 ea bs
      [(l.home, .store l.key ea bs (tagOf s (tileOf s.cur) (me s).asid) false)])) := by
  have hchunk : bs.length ≤ Config.chunk := by rw [hlen, Config.chunk]; omega
  simp only [storeBytes, hlen, hloc, hprivate, storeParts_one hchunk, Bool.false_eq_true, if_false]
  rfl

/-- A store in the own frame or stack of the context is an act of its bundle. -/
theorem storeBytes_direct (hlen : bs.length = n) (hloc : locate s s.cur .plain ea n al true = .ok l)
    (hprivate : isPrivate (me s) ea n = true) (hwrite : Writable s l n) :
    HeadResult.of (storeBytes s s.cur opc t ea bs al st) = .ok (st.act (.store l.key bs)) := by
  obtain ⟨hstall, hguard, hstale⟩ := hwrite
  simp only [storeBytes, hlen, hloc, hprivate, if_true, directStore, hstall, hguard, hstale, Bool.false_eq_true,
    if_false]
  rfl

/-- In T32 a pair is stored at a, elsewhere at the base address. -/
theorem execStp_eq (h : Head) (t : Tail) (s : State) :
    execStp h t s = memForm h t s 0 (fun s g _ a b c st => HeadResult.of (storeBytes s g 0xC3 t
      (if layoutOf t = .t32 then a.toNat else baseAddr t a)
      (bytesLE (tailBytes t) b.toNat ++ bytesLE (tailBytes t) c.toNat) (2 * tailBytes t) st)) := by
  cases t <;> rfl

end

theorem tailBytes_le (t : Tail) : tailW t / 8 ≤ 8 := by
  have := tailW_le t
  omega

/-- Settles O8: a store of one packet is held, and one of the own frame or stack is written by its bundle. -/
theorem stores : Obligations.Stores := by
  unfold Obligations.Stores
  intro s h t a b c st l n tag one two ea2 hissues hreads
  have hone : one.length = n := length_bytesLE n b.toNat
  have htwo : two.length = 2 * n := by rw [List.length_append, length_bytesLE, length_bytesLE, two_mul]
  have hn : n ≤ 8 := tailBytes_le t
  refine ⟨fun hloc => ⟨fun hprivate => (exec_st h t s).trans (memForm_gives hissues hreads ?_),
      fun hprivate hwrite => (exec_st h t s).trans (memForm_gives hissues hreads ?_)⟩,
    fun hloc => ⟨fun hprivate => (exec_stp h t s).trans ((execStp_eq h t s).trans (memForm_gives hissues hreads ?_)),
      fun hprivate hwrite => (exec_stp h t s).trans ((execStp_eq h t s).trans (memForm_gives hissues hreads ?_))⟩⟩
  · exact storeBytes_held hone hloc hprivate (by omega)
  · exact storeBytes_direct hone hloc hprivate hwrite
  · exact storeBytes_held htwo hloc hprivate (by omega)
  · exact storeBytes_direct htwo hloc hprivate hwrite

end Sys2Proof.Proofs
end

section

/-! Physical access, fences, page exchanges, guard bits, local atomics and remote forms at their issue (R253,
R265-R282). -/

namespace Sys2Proof.Proofs

open Sys2Proof.Machine Sys2Proof.Laws Sys2Proof.Stated

section

variable {s : State} {h : Head} {t : Tail} {a b c : Word} {st st' : Stage} {n : Nat}
  {f : State → Nat → Ctx → Word → Word → Word → Stage → HeadResult}

theorem sysForm_gives (hissues : Issues s h) (hsys : (me s).sys = true) (hreads : Reads (.int false) s t a b c st)
    (hf : f s s.cur (me s) a b c st = .ok st') : sysForm h t s n f = .next (after s h st') :=
  sysForm_ok hissues.1 hissues.2 hsys hreads hf

/-- User mode is denied a privileged memory form. -/
theorem sysForm_privilege (hissues : Issues s h) (huser : (me s).sys = false) :
    sysForm h t s n f = .next (faulting s h ⟨.privilege, none, false, 0, none⟩) :=
  runHead_faults hissues (by simp only [huser]; rfl)

end

/-! ### Physical locations (R265) -/

section

variable {s : State} {tile ea : Nat}

theorem physOf_table (hlow : Config.tableArea ≤ ea) (hhigh : ea < 2 ^ 21) : physOf s tile ea = some (.table ea) := by
  rw [physOf, if_pos (by omega), if_neg (by omega), if_pos hlow]

theorem physOf_scratch (hlow : ea < Config.tableArea) : physOf s tile ea = some (.bytes (keyScratch tile ea)) := by
  have hlow' := hlow
  rw [Config.tableArea] at hlow'
  rw [physOf, if_pos (by omega), if_neg (by omega), if_neg (by omega)]

theorem physOf_vault (hlow : 2 ^ 63 ≤ ea) (hhigh : ea < 2 ^ 63 + 2 ^ 29) :
    physOf s tile ea = some (.bytes (keyVault tile
      (pageInSlot (s.tile tile) (ea / 2 ^ 26 % 8) (ea / 2 ^ 16 % 1024)) (ea % 65536))) := by
  have hlayer : nfld (ea % 2 ^ 63) 26 3 = ea / 2 ^ 26 % 8 := by rw [nfld, Nat.shiftRight_eq_div_pow]; omega
  have hslot : nfld (ea % 2 ^ 63) 16 10 = ea / 2 ^ 16 % 1024 := by rw [nfld, Nat.shiftRight_eq_div_pow]; omega
  have hoff : ea % 2 ^ 63 % 65536 = ea % 65536 := by omega
  rw [physOf, if_neg (by omega)]
  simp only [hlayer, hslot, hoff]
  exact if_neg (by omega)

/-- A location that passes its checks. -/
theorem physCheck_ok {g al : Nat} {p : Phys} (hp : physOf s (tileOf g) ea = some p) (hal : ea % al = 0)
    (hstall : stalled s (p.key (tileOf g)) = false) : physCheck s g ea al = .ok p := by
  simp [physCheck, hp, hal, hstall]

/-- The line of a location, whose owner tag is accessed. -/
theorem physOf_key {k : Nat} (hk : (ea < 2 ^ 21 ∧ k = keyScratch tile ea) ∨
    (2 ^ 63 ≤ ea ∧ ea < 2 ^ 63 + 2 ^ 29 ∧ k = keyVault tile
      (pageInSlot (s.tile tile) (ea / 2 ^ 26 % 8) (ea / 2 ^ 16 % 1024)) (ea % 65536))) :
    ∃ p, physOf s tile ea = some p ∧ p.key tile = k := by
  rcases hk with ⟨hlow, rfl⟩ | ⟨hlow, hhigh, rfl⟩
  · rcases Nat.lt_or_ge ea Config.tableArea with htable | htable
    · exact ⟨_, physOf_scratch htable, rfl⟩
    · exact ⟨_, physOf_table htable hlow, rfl⟩
  · exact ⟨_, physOf_vault hlow hhigh, rfl⟩

end

theorem physicalAccess : PhysicalAccess := by
  intro s h t a b c st w n tile sg ea hissues
  refine ⟨fun hreads hsys => ⟨fun hal hlow hhigh hstall => ?table, fun k hk hal hstall => ?bytes,
    fun k hk hal hstall => ?tag⟩, fun huser i hi => ?user⟩
  case table =>
    have hcheck : physCheck s s.cur a.toNat (tailBytes t) = .ok (.table ea) :=
      physCheck_ok (physOf_table hlow hhigh) hal hstall
    refine ⟨(exec_ldx h t s).trans (sysForm_gives hissues hsys hreads ?_),
      (exec_stx h t s).trans (sysForm_gives hissues hsys hreads ?_)⟩
    · simp only [hcheck, loadValue_eq_ext]
      rfl
    · simp only [hcheck]
      rfl
  case bytes =>
    have hcheck : physCheck s s.cur a.toNat (tailBytes t) = .ok (.bytes k) := by
      rcases hk with ⟨hlow, rfl⟩ | ⟨hlow, hhigh, rfl⟩
      · exact physCheck_ok (physOf_scratch hlow) hal hstall
      · exact physCheck_ok (physOf_vault hlow hhigh) hal hstall
    refine ⟨fun hinj hpoison => (exec_ldx h t s).trans (sysForm_gives hissues hsys hreads ?_),
      (exec_stx h t s).trans (sysForm_gives hissues hsys hreads ?_)⟩
    · have hpoison' : poisoned s k (tailBytes t) = false := hpoison
      simp only [hcheck, hinj, hpoison', loadValue_eq_ext, Bool.false_and, Bool.false_eq_true, if_false]
      rfl
    · simp only [hcheck]
      rfl
  case tag =>
    obtain ⟨p, hp, rfl⟩ := physOf_key hk
    have hcheck : physCheck s s.cur a.toNat 128 = .ok p := physCheck_ok hp hal hstall
    refine ⟨(exec_ldxTag h t s).trans (sysForm_gives hissues hsys hreads ?_),
      (exec_stxTag h t s).trans (sysForm_gives hissues hsys hreads ?_)⟩
    · simp only [hcheck]
      rfl
    · simp only [hcheck]
      rfl
  case user =>
    simp only [List.mem_cons, List.not_mem_nil, or_false] at hi
    rcases hi with rfl | rfl | rfl | rfl | rfl | rfl
    · exact (exec_ldx h t s).trans (sysForm_privilege hissues huser)
    · exact (exec_stx h t s).trans (sysForm_privilege hissues huser)
    · exact (exec_ldxTag h t s).trans (sysForm_privilege hissues huser)
    · exact (exec_stxTag h t s).trans (sysForm_privilege hissues huser)
    · rw [exec_gset, execGset, guardForm, sysForm_privilege hissues huser]
    · rw [exec_gclr, execGclr, guardForm, sysForm_privilege hissues huser]

/-! ### Guard bits (R282) -/

section

variable {s : State} {tile ea n : Nat}

/-- A range of the scratchpad below the table area can be guarded. -/
theorem locate_windows {g : Nat} (hal : ea % 128 = 0) (hfit : ea + 128 * n ≤ Config.tableArea)
    (hgen : genV (genEntry s (tileOf g) (s.ctx g).asid) = true) :
    locate s g .windows ea (128 * n) 128 true = .ok ⟨localKey (s.ctx g) .windows (tileOf g) ea (128 * n), tileOf g⟩ := by
  rw [Config.tableArea] at hfit
  simp only [locate]
  rw [if_neg (by simp [hgen]; omega), if_pos (by omega), if_neg (by simp [Reach.local?]; omega),
    if_neg (by simp [hal]), if_neg (by simp; omega)]

theorem granules_scratch (hfit : ea + 128 * n ≤ Config.tableArea) (hal : ea % 128 = 0) :
    granules tile ea n = (List.range n).map (fun i => (tile, ea / 128 + i)) := by
  rw [Config.tableArea] at hfit
  refine List.map_congr_left fun i hi => ?_
  have hin : i < n := List.mem_range.mp hi
  rw [if_pos (by omega), show (ea + 128 * i) / 128 = ea / 128 + i by omega]

/-- Granules of one home are one part. -/
theorem granuleParts_one_home (set : Bool) (f : Nat → Nat) (n : Nat) :
    granuleParts set ((List.range n).map (fun i => (tile, f i))) =
      if n = 0 then [] else [(tile, .guardBits set ((List.range n).map f))] := by
  rcases Nat.eq_zero_or_pos n with rfl | hpos
  · rfl
  · have hhomes : (((List.range n).map (fun i => (tile, f i))).map (·.1)).dedup = [tile] := by
      rw [List.map_map, show ((·.1) ∘ fun i => (tile, f i)) = fun _ : Nat => tile from rfl, List.map_const',
        List.length_range, List.replicate_dedup hpos.ne']
    have hall : ((List.range n).map (fun i => (tile, f i))).filter (·.1 == tile) =
        (List.range n).map (fun i => (tile, f i)) :=
      List.filter_eq_self.mpr (by simp)
    rw [granuleParts, hhomes, if_neg hpos.ne', List.map_singleton, hall, List.map_map]
    rfl

theorem guardForm_gives {h : Head} {t : Tail} {a b c : Word} {st : Stage} {l : Loc} (set : Bool) (opc : Nat)
    (hissues : Issues s h) (hsys : (me s).sys = true) (hreads : Reads (.int false) s t a b c st)
    (hloc : locate s s.cur .windows a.toNat (128 * (b.toNat % 512)) 128 true = .ok l) :
    guardForm set opc h t s = .next (after s h (holds st (mkEffect opc t 0 a.toNat (bytesLE 8 (b.toNat % 512))
      (granuleParts set (granules (tileOf s.cur) a.toNat (b.toNat % 512)))))) :=
  sysForm_gives hissues hsys hreads (by simp only [hloc])

end

/-! ### Fences, row activation and page exchanges (R268, R279-R281) -/

section

variable {s : State} {h : Head} {t : Tail} {a b c : Word} {st : Stage}

theorem fenceForm_gives (xp : Bool) (hissues : Issues s h) (hguard : (me s).guard = none) :
    fenceForm xp h t s = .next (after s h ((bundle s).act (.fence (tailM t % 8) xp))) :=
  runHead_ok hissues.1 hissues.2 (by simp only [hguard]; rfl)

/-- ACT takes its address from the layout. -/
theorem execAct_eq : execAct h t s = memForm h t s 0 (fun s g _ a b _ st =>
    let ea := if layoutOf t = .t16 then a.toNat else loadAddr t a b
    match locate s g .plain ea 1 1 false with
    | .ok l => if isVault l.key then .ok ((st.walked s g ea).act (.activate l.key)) else .ok st
    | .error e => if e.stall then .stop .stall else .ok st) := by
  cases t <;> rfl

end

theorem fencesAndPages : FencesAndPages := by
  intro s h t a b c st bar tile is ea hissues
  refine ⟨fun hguard => ⟨(exec_fence h t s).trans (fenceForm_gives false hissues hguard),
      (exec_fenceXp h t s).trans (fenceForm_gives true hissues hguard)⟩,
    fun hreads => ⟨fun l hloc hvault => (exec_act h t s).trans (execAct_eq.trans (memForm_gives hissues hreads ?act)),
      fun l hloc hvault => (exec_act h t s).trans (execAct_eq.trans (memForm_gives hissues hreads ?away)),
      fun e hloc hstall => (exec_act h t s).trans (execAct_eq.trans (memForm_gives hissues hreads ?nowhere)),
      fun p hp hbar => ⟨fun hnone => (exec_cswap h t s).trans (memForm_gives hissues hreads ?single),
        fun hsome q hq => (exec_cswap h t s).trans (memForm_gives hissues hreads ?pair)⟩,
      fun hsys hal hfit hgen => ?scratch, fun hsys hloc => ?window⟩⟩
  case act =>
    simp only [show locate s s.cur .plain (if layoutOf t = .t16 then a.toNat else loadAddr t a b) 1 1 false = _
      from hloc, hvault, if_true]
    rfl
  case away =>
    simp only [show locate s s.cur .plain (if layoutOf t = .t16 then a.toNat else loadAddr t a b) 1 1 false = _
      from hloc, hvault, Bool.false_eq_true, if_false]
  case nowhere =>
    simp only [show locate s s.cur .plain (if layoutOf t = .t16 then a.toNat else loadAddr t a b) 1 1 false = _
      from hloc, hstall, Bool.false_eq_true, if_false]
  case single =>
    simp only [hp, hnone, if_true, show barOperand s s.cur .tileLocal (tailC t) c = _ from hbar]
    rfl
  case pair =>
    simp only [hp, hsome, hq, if_false, show barOperand s s.cur .tileLocal (tailC t) c = _ from hbar]
    rfl
  case scratch =>
    have hparts (set : Bool) : granuleParts set (granules (tileOf s.cur) a.toNat (b.toNat % 512)) = _ :=
      (congrArg (granuleParts set) (granules_scratch hfit hal)).trans (granuleParts_one_home set _ _)
    exact ⟨(exec_gset h t s).trans
        ((guardForm_gives true 0xD8 hissues hsys hreads (locate_windows hal hfit hgen)).trans (by rw [hparts])),
      (exec_gclr h t s).trans
        ((guardForm_gives false 0xD9 hissues hsys hreads (locate_windows hal hfit hgen)).trans (by rw [hparts]))⟩
  case window =>
    obtain ⟨l, hloc⟩ := hloc
    exact ⟨(exec_gset h t s).trans (guardForm_gives true 0xD8 hissues hsys hreads hloc),
      (exec_gclr h t s).trans (guardForm_gives false 0xD9 hissues hsys hreads hloc)⟩

/-- Settles O57: a form whose checks pass stages its wait, effect or act, and user mode is denied the privileged
ones. -/
theorem fencesPagesAndTags : Obligations.FencesPagesAndTags := by
  unfold Obligations.FencesPagesAndTags
  exact ⟨fencesAndPages, physicalAccess⟩

/-! ### Local atomics (R266, R267) -/

/-- An atomic takes its address from the layout. -/
theorem atomicForm_eq (opc : Nat) (h : Head) (t : Tail) (s : State) :
    atomicForm opc h t s = memForm h t s 1 (fun s g c a b d st =>
      let n := tailBytes t
      let ea := if layoutOf t = .t32 then a.toNat else baseAddr t a
      match locate s g .plain ea n n true with
      | .error e => .stop (.addr e ea)
      | .ok l =>
        if isPrivate c ea n then
          match loadBytes s g .plain ea n n st with
          | .error x => .stop x
          | .ok (bs, st1) =>
            let st2 := st1.push (loadValue t bs) (tailD t)
            if guarded s l.key n || staleAt s l.home (tagOf s (tileOf g) c.asid) then .ok st2
            else .ok (st2.act (.store l.key
              (bytesLE n (atomicNew opc (tailW t) (tailSigned t) (natLE bs) b.toNat d.toNat))))
        else
          let (st1, slot, wr) := (st.walked s g ea).pushLater (tailD t)
          let data := bytesLE n b.toNat ++ (if opc = 0xCD then bytesLE n d.toNat else [])
          .ok (st1.act (.blocking (mkEffect opc t 0 ea data
            [(l.home, .atomic l.key opc n (tailSigned t) b d (tagOf s (tileOf g) c.asid) (ownerOf s g) c.act)])
            slot wr))) := by
  cases t <;> rfl

section

variable {s : State} {h : Head} {t : Tail} {a b c : Word} {st : Stage} {l : Loc} {opc ea : Nat}

/-- In the own frame or stack of the context an atomic exchanges at once. -/
theorem atomicForm_private (hissues : Issues s h) (hreads : Reads (.int false) s t a b c st)
    (hea : ea = if layoutOf t = .t32 then a.toNat else baseAddr t a)
    (hloc : locate s s.cur .plain ea (tailW t / 8) (tailW t / 8) true = .ok l)
    (hprivate : isPrivate (me s) ea (tailW t / 8) = true)
    (hread : Readable s .plain ea (tailW t / 8) (tailW t / 8) l) :
    atomicForm opc h t s = .next (after s h ((pushed (touched s ea st l (tailW t / 8)) t
      (ext (tailSigned t) (BitVec.ofNat (tailW t) (natLE (seen s st l.key (tailW t / 8)))))).act
      (.store l.key (bytesLE (tailW t / 8) (atomicNew opc (tailW t) (tailSigned t)
        (natLE (seen s st l.key (tailW t / 8))) b.toNat c.toNat))))) := by
  subst hea
  obtain ⟨-, -, hguard, hstale, -, -⟩ := id hread
  rw [atomicForm_eq]
  refine memForm_gives hissues hreads ?_
  simp only [tailBytes, hloc, hprivate, if_true, loadBytes_readable hread, hguard, hstale, loadValue_eq_ext,
    Bool.or_self, Bool.false_eq_true, if_false]

/-- A walk leaves the pushes and the register writes, so that the reply's places are those of the bundle. -/
theorem pushLater_walked (st : Stage) (d : Dest) : (Stage.walked s s.cur ea st).pushLater d =
    ((walks s ea st).push 0 d, some st.pushes.length, d.map (fun _ => st.regs.length)) := by
  rw [Stage.pushLater, Stage.walked]
  split <;> rfl

/-- Elsewhere it is one request whose reply brings the old value. -/
theorem atomicForm_shared (hissues : Issues s h) (hreads : Reads (.int false) s t a b c st)
    (hea : ea = if layoutOf t = .t32 then a.toNat else baseAddr t a)
    (hloc : locate s s.cur .plain ea (tailW t / 8) (tailW t / 8) true = .ok l)
    (hprivate : isPrivate (me s) ea (tailW t / 8) = false) :
    atomicForm opc h t s = .next (after s h ((pushed (walks s ea st) t 0).act (.blocking
      (mkEffect opc t 0 ea
        (bytesLE (tailW t / 8) b.toNat ++ (if opc = 0xCD then bytesLE (tailW t / 8) c.toNat else []))
        [(l.home, .atomic l.key opc (tailW t / 8) (tailSigned t) b c (tagOf s (tileOf s.cur) (me s).asid)
          (ownerOf s s.cur) (me s).act)])
      (some st.pushes.length) ((tailD t).map (fun _ => st.regs.length))))) := by
  subst hea
  rw [atomicForm_eq]
  refine memForm_gives hissues hreads ?_
  simp only [tailBytes, hloc, hprivate, pushLater_walked, Bool.false_eq_true, if_false]

/-- The new value of an atomic, as a vector of the old one and the operands. -/
theorem atomicNew_lt {w : Nat} (sg : Bool) (p q : BitVec w) :
    (if sg then decide (sint w p.toNat < sint w q.toNat) else decide (p.toNat < q.toNat)) =
      if sg then p.slt q else p.ult q := by
  cases sg
  · rfl
  · simp only [if_true, sint_eq, BitVec.ofNat_toNat, BitVec.setWidth_eq]
    rfl

end

theorem localAtomics : LocalAtomics := by
  intro s h t a b c st l w n sg ea tag old x lt is hissues hreads hloc
  have gives {opc : Nat} {i : Instr} {new : BitVec w} (hexec : exec i s = atomicForm opc h t s)
      (hnew : atomicNew opc w sg (natLE (seen s st l.key n)) b.toNat c.toNat = new.toNat) : is i opc new := by
    refine ⟨fun hprivate hread => hexec.trans ?_, fun hprivate => hexec.trans ?_⟩
    · rw [← hnew]
      exact atomicForm_private hissues hreads rfl hloc hprivate hread
    · exact atomicForm_shared hissues hreads rfl hloc hprivate
  have hold : natLE (seen s st l.key n) % 2 ^ w = old.toNat := (BitVec.toNat_ofNat ..).symm
  have hx : b.toNat % 2 ^ w = x.toNat := (BitVec.toNat_setWidth ..).symm
  refine ⟨gives (exec_aadd h t s) ?_, gives (exec_aand h t s) ?_, gives (exec_aor h t s) ?_,
    gives (exec_axor h t s) ?_, gives (exec_amin h t s) ?_, gives (exec_amax h t s) ?_,
    gives (exec_aswap h t s) ?_, gives (exec_acas h t s) ?_⟩
  all_goals simp only [atomicNew, hold, hx]
  · rw [BitVec.toNat_add]
  · rw [BitVec.toNat_and]
  · rw [BitVec.toNat_or]
  · rw [BitVec.toNat_xor]
  · rw [atomicNew_lt, apply_ite BitVec.toNat]
  · rw [atomicNew_lt, apply_ite BitVec.toNat]
  · simp only [BitVec.toNat_inj, apply_ite BitVec.toNat, BitVec.toNat_setWidth]

/-! ### Remote forms (R269-R276) -/

/-- A remote form whose operands pass their checks holds its request, or waits for its reply. -/
theorem remoteIssue_gives {s : State} {t : Tail} {x : RemoteSpec} {r c : Word} {lval : Option Word} {value : Bool}
    {payload : Stage → Except Stop (Word × List Byte × Stage)} {st st1 : Stage} {lr : Loc} {bar : Option Bar}
    {v : Word} {data : List Byte} (hloc : locate s s.cur x.reach r.toNat x.n x.al x.write = .ok lr)
    (hspot : ∀ lv, lval = some lv → ∃ l, locate s s.cur .remoteL lv.toNat x.lbytes x.lalign true = .ok l)
    (hbar : rNB t = true → barOperand s s.cur .tileLocal (tailC t) c = .ok bar)
    (hpay : payload (walks s r.toNat st) = .ok (v, data, st1)) :
    remoteIssue s s.cur (me s) t x r lval c value payload st =
      .ok (requests s t x.opc x.lbytes lr r lval (if rNB t then bar else none) (if rNB t then c else 0) v data value
        st1) := by
  have hpay' : payload (Stage.walked s s.cur r.toNat st) = .ok (v, data, st1) := hpay
  unfold remoteIssue requests
  cases lval with
  | none =>
    cases hnb : rNB t with
    | true => simp only [hloc, hbar hnb, hpay', if_true]
    | false => cases value <;> simp only [hloc, hpay', Bool.false_eq_true, if_false, if_true] <;> rfl
  | some lv =>
    obtain ⟨l, hl⟩ := hspot lv rfl
    cases hnb : rNB t with
    | true => simp only [hloc, hl, hbar hnb, hpay', if_true]
    | false => cases value <;> simp only [hloc, hl, hpay', Bool.false_eq_true, if_false, if_true] <;> rfl

theorem remoteRequests : RemoteRequests := by
  intro s h t a b c st lr bar w e n nb st0 at_ spot is word hissues hreads hbar
  have nowhere (k al : Nat) (lv : Word) (hlv : (none : Option Word) = some lv) :
      ∃ l, locate s s.cur .remoteL lv.toNat k al true = .ok l := by cases hlv
  have here {k al : Nat} (hspot : spot k al) (lv : Word) (hlv : some b = some lv) :
      ∃ l, locate s s.cur .remoteL lv.toNat k al true = .ok l := by cases hlv; exact hspot
  refine ⟨fun hloc hspot => (exec_rld h t s).trans ?rld, fun hloc => (exec_rst h t s).trans ?rst,
    fun hloc hspot l hread => (exec_rred h t s).trans ?rred,
    fun hloc hspot l hread => ⟨fun hrank hmax hzero => (exec_rredRk h t s).trans ?rank,
      fun hzero => (exec_rsax h t s).trans ?rsax⟩,
    fun hloc => ⟨fun hnb hspot l hread => (exec_rcas h t s).trans ?casHeld,
      fun hnb => (exec_rcas h t s).trans ?casWaits⟩,
    fun hloc => (exec_rfill h t s).trans ?fill, fun hloc hspot => (exec_rldb h t s).trans ?block⟩
  case rld =>
    unfold execRld
    refine memForm_gives hissues hreads (remoteIssue_gives hloc (fun lv hlv => ?_) hbar rfl)
    cases hnb : rNB t with
    | true => rw [hnb] at hlv; exact here (hspot hnb) lv hlv
    | false => rw [hnb] at hlv; exact nowhere _ _ lv hlv
  case rst =>
    unfold execRst
    exact memForm_gives hissues hreads (remoteIssue_gives hloc (nowhere _ _) hbar rfl)
  case rred =>
    unfold execRred
    refine memForm_gives hissues hreads (remoteIssue_gives hloc (here hspot) hbar ?_)
    simp only [readL, show loadBytes s s.cur .remoteL b.toNat (rCount t * elemSize t) (elemSize t) _ = _ from
      loadBytes_readable hread]
    rfl
  case rank =>
    have hranks : (natAt (seen s st0 l.key (n + 8)) 2 2 ≤ natAt (seen s st0 l.key (n + 8)) 0 2 ||
        decide (1024 < natAt (seen s st0 l.key (n + 8)) 2 2) || natAt (seen s st0 l.key (n + 8)) 4 4 != 0) = false := by
      simp [not_le.mpr hrank, not_lt.mpr hmax, hzero]
    unfold execRredRk
    refine memForm_gives hissues hreads (remoteIssue_gives hloc (here hspot) hbar ?_)
    simp only [readL, show loadBytes s s.cur .remoteL b.toNat (rCount t * elemSize t + 8) 16 _ = _ from
      loadBytes_readable hread]
    exact if_neg (ne_true_of_eq_false hranks)
  case rsax =>
    have hzero' : (natAt (seen s st0 l.key (n + 8)) 4 4 != 0) = false := bne_eq_false_iff_eq.mpr hzero
    unfold execRsax
    refine memForm_gives hissues hreads (remoteIssue_gives hloc (here hspot) hbar ?_)
    simp only [readL, show loadBytes s s.cur .remoteL b.toNat (rCount t * elemSize t + 8) 16 _ = _ from
      loadBytes_readable hread]
    exact if_neg (ne_true_of_eq_false hzero')
  case casHeld =>
    have hheld : (if rNB t = true then some b else none) = some b := if_pos hnb
    unfold execRcas
    refine memForm_gives hissues hreads (Eq.trans (remoteIssue_gives (x := ⟨0xD3, .reduce, w, w, true, 16, 16⟩)
      (v := 0) (data := seen s st0 l.key 16) (st1 := touched s b.toNat st0 l 16) hloc ?_ hbar ?_) ?_)
    · exact fun lv hlv => here hspot lv (hheld.symm.trans hlv)
    · simp only [show rNB t = true from hnb, if_true, readL, show loadBytes s s.cur .remoteL b.toNat 16 16 _ = _ from
        loadBytes_readable hread]
      rfl
    · rw [hheld]
  case casWaits =>
    have hwaits : (if rNB t = true then some b else none) = none := if_neg (ne_true_of_eq_false hnb)
    unfold execRcas
    refine memForm_gives hissues hreads (Eq.trans (remoteIssue_gives (x := ⟨0xD3, .reduce, w, w, true, 16, 16⟩)
      (v := b) (data := bytesLE 8 c.toNat) (st1 := st0) hloc ?_ hbar ?_) ?_)
    · exact fun lv hlv => nowhere _ _ lv (hwaits.symm.trans hlv)
    · simp only [show rNB t = false from hnb, Bool.false_eq_true, if_false]
      rfl
    · rw [hwaits]
  case fill =>
    unfold execRfill
    exact memForm_gives hissues hreads (remoteIssue_gives hloc (nowhere _ _) hbar rfl)
  case block =>
    unfold execRldb
    exact memForm_gives hissues hreads (remoteIssue_gives hloc (here hspot) hbar rfl)

/-- Settles O59: an atomic exchanges at once or is one request, and a remote form whose operands pass their checks
holds or waits for its own. -/
theorem atomicsAndRemoteRequests : Obligations.AtomicsAndRemoteRequests := by
  unfold Obligations.AtomicsAndRemoteRequests
  exact ⟨localAtomics, remoteRequests⟩

end Sys2Proof.Proofs
end

section

/-! Queue, barrier, stream, lifeline and matrix instructions at their issue (R215, R216, R222-R236, R310,
R315-R325, R344-R347, R384-R390, R400-R402). -/

namespace Sys2Proof.Proofs

open Sys2Proof.Machine Sys2Proof.Laws Sys2Proof.Stated

/-! ### Forms on queues -/

/-- A step of a checked computation that gives a value. -/
theorem except_ok_bind {ε α β : Type} (x : α) (f : α → Except ε β) : (Except.ok x >>= f) = f x := rfl

section

variable {s : State} {h : Head} {t : Tail} {a b c : Word} {st st' : Stage} {n : Nat}

theorem queueForm_gives {f : State → Nat → Ctx → Word → Word → Word → Stage → Except Stop Stage}
    (hissues : Issues s h) (hreads : Reads (.int false) s t a b c st) (hf : f s s.cur (me s) a b c st = .ok st') :
    queueForm h t s n f = .next (after s h st') :=
  queueForm_ok hissues.1 hissues.2 hreads hf

theorem localCheck_ok {g : Nat} {r : Reach} {ea n al : Nat} {write : Bool} {l : Loc}
    (hloc : locate s g r ea n al write = .ok l) : localCheck s g r ea n al write = .ok l := by
  rw [localCheck, hloc]

theorem barAddr_ok {write : Bool} (hspot : ∃ l, locate s s.cur .shared a.toNat 16 16 write = .ok l) :
    barAddr s s.cur a write = .ok a.toNat := by
  obtain ⟨l, hl⟩ := hspot
  rw [barAddr, localCheck_ok hl]
  rfl

/-- A plain read that nothing hinders. -/
theorem plainRead_ok {ea : Nat} (hok : plainOk s ea n = true) :
    plainRead s s.cur ea n st = .ok (visRead s (keyScratch (tileOf s.cur) ea) n, false, st) := by
  simp only [plainOk, Bool.and_eq_true, Bool.not_eq_true'] at hok
  obtain ⟨⟨⟨hguard, hstale⟩, hinj⟩, hpoison⟩ := hok
  simp only [plainRead, hguard, hstale, hinj, hpoison, Bool.false_and, Bool.false_eq_true, if_false]

end

/-! ### Place words (R48, R315) -/

/-- A number of 16384 or more names no context, but the model takes its tile modulo 1024 (R19, R28): for 16384 the
word of the issuing tile itself names tile 0. -/
theorem placeWord_above_contexts : placeWord State.reset 16384 0 false = .ok (0, 0) := by
  decide

/-- Refutes O52: the statement takes the row of a tile from the number of the context without the reduction modulo
1024 that names a tile, so that for the number 16384, which names no context, it calls the place of the issuing tile
itself out of range; the model answers tile 0. -/
theorem not_placesMessagesAndYields : ¬ Obligations.PlacesMessagesAndYields := by
  unfold Obligations.PlacesMessagesAndYields
  rintro ⟨hplaces, -⟩
  obtain ⟨-, -, hrange, -⟩ := hplaces State.reset 16384 0 false
  have hrefused := hrange (by decide) (by decide)
  rw [placeWord_above_contexts] at hrefused
  cases hrefused

/-! ### Tasks and join counters (R319-R322) -/

theorem taskPcOk_of {pc : Nat} (heven : pc % 2 = 0) (hhead : pc % 64 ≠ 0) : taskPcOk pc = true := by
  simp [taskPcOk, heven, hhead]

theorem tasksAndJoins : TasksAndJoins := by
  intro s h t a b c st tgt off is here f pc rec_ hissues hreads
  have hpc : fld a 0 48 = pc := by simp [fld, pc]
  have hf : fld (tailF t) 0 2 = f % 4 := by simp [fld, f]
  refine ⟨fun heven hhead => ⟨fun hnone => (exec_fork h t s).trans (queueForm_gives hissues hreads ?free),
      fun hjoin hspot => (exec_fork h t s).trans (queueForm_gives hissues hreads ?joined)⟩,
    fun l hloc hplain => (exec_join h t s).trans (queueForm_gives hissues hreads ?join),
    fun hplace l hread => ?post,
    fun hplace bar hbar => (exec_decz h t s).trans (queueForm_gives hissues hreads ?decz)⟩
  case free =>
    simp only [hnone, if_true, except_ok_bind, hpc, hf, taskPcOk_of heven hhead, Bool.not_true, Bool.false_eq_true,
      if_false]
    rfl
  case joined =>
    obtain ⟨l, hl⟩ := hspot
    simp only [hjoin, if_false, localCheck_ok hl, Except.map, except_ok_bind, hpc, hf, taskPcOk_of heven hhead,
      Bool.not_true, Bool.false_eq_true]
    rfl
  case join =>
    simp only [localCheck_ok hloc, plainRead_ok hplain, except_ok_bind, Bool.false_eq_true, if_false]
    rfl
  case post =>
    intro card tr hcard
    refine (exec_post h t s).trans (queueForm_gives hissues hreads ?_)
    simp only [hplace, except_ok_bind, loadBytes_readable hread]
    rw [show cardFault s s.cur (cardTrigger (seen s st l.key 32) (me s).lslot) (seen s st l.key 32) = none from hcard]
    cases hjoin : (cardTrigger (seen s st l.key 32) (me s).lslot).join <;> simp only [recordWork, hjoin, tr, card] <;> rfl
  case decz =>
    simp only [hplace, hbar, except_ok_bind]
    rfl

theorem taskCards : TaskCards := by
  intro card l tr ctl j hint
  have hhint (w : Nat) : hintOf w = hint w := by simp [hintOf, hint, nfld, Nat.shiftRight_eq_div_pow]
  refine ⟨rfl, rfl, rfl, ?_, rfl, ?_, rfl, ?_⟩
  · simp [tr, cardTrigger, nfld, Nat.shiftRight_eq_div_pow, ctl]
  · rw [← hhint, ← hhint]
    rfl
  · simp [tr, cardTrigger, nfld, Nat.shiftRight_eq_div_pow, ctl, j]

/-- Settles O46: a form on tasks whose checks pass stages its effect or wait, and a card's fields are its bits. -/
theorem tasksJoinsAndCards : Obligations.TasksJoinsAndCards := by
  unfold Obligations.TasksJoinsAndCards
  exact ⟨tasksAndJoins, taskCards⟩

/-! ### Rings and submissions (R323-R325, R344) -/

section

variable {s : State} {t : Tail} {a l : Nat} {r : Rcb} {ci hdr : Nat} {st st' : Stage}

theorem ringHeader_ok {l1 : Loc} (hread : Readable s .tileLocal (r.base + ci % r.size) 4 4 l1) :
    ringHeader s s.cur r ci st =
      .ok (natLE (seen s st l1.key 4), touched s (r.base + ci % r.size) st l1 4) := by
  rw [ringHeader, loadBytes_readable hread]
  rfl

/-- A record without data is consumed by the store of CI. -/
theorem ringTake_empty (hlen : hdr % 65536 = 0)
    (hci : storeBytes s s.cur 0xE9 t (a + 16) (bytesLE 8 (ci + 8)) 8 st = .ok st') :
    ringTake s s.cur t a l r ci hdr st = .ok (pushed st' t (BitVec.ofNat 64 hdr)) := by
  simp only [ringTake, hlen, if_true, except_ok_bind, show recSize 0 = 8 from rfl, hci]
  rfl

/-- A record with data is copied before CI is stored. -/
theorem ringTake_data (hlen : hdr % 65536 ≠ 0) {l2 : Loc} {st4 : Stage}
    (hread : Readable s .tileLocal (r.base + ci % r.size + 4) (hdr % 65536) 1 l2)
    (hcopy : storeBytes s s.cur 0xE9 t l (seen s st l2.key (hdr % 65536)) 8
      (touched s (r.base + ci % r.size + 4) st l2 (hdr % 65536)) = .ok st4)
    (hci : storeBytes s s.cur 0xE9 t (a + 16) (bytesLE 8 (ci + recSize (hdr % 65536))) 8 st4 = .ok st') :
    ringTake s s.cur t a l r ci hdr st = .ok (pushed st' t (BitVec.ofNat 64 hdr)) := by
  simp only [ringTake, hlen, if_false, except_ok_bind, loadBytes_readable hread, hcopy, hci]
  rfl

end

theorem ringsAndSubmissions : RingsAndSubmissions := by
  intro s h t a b c st tgt off bar is f hissues hreads
  have hf : f < 2 ^ 16 := (tailF t).isLt
  refine ⟨fun hplace => ⟨fun hbar l hread => (exec_rngput h t s).trans (queueForm_gives hissues hreads ?put),
      fun l hread => (exec_osub h t s).trans (queueForm_gives hissues hreads ?osub)⟩,
    fun hbar l hread q hq => (exec_launch h t s).trans (queueForm_gives hissues hreads ?launch),
    fun l hread hspot r hr => ?get⟩
  case put =>
    have hhigh : fld (tailF t) 8 8 = f / 256 := by
      simp only [fld, Nat.shiftRight_eq_div_pow, f]
      omega
    have hlow : fld (tailF t) 0 8 = f % 256 := by simp [fld, f]
    simp only [hplace, except_ok_bind, loadBytes_readable hread, hbar, hhigh, hlow]
    rfl
  case osub =>
    simp only [hplace, except_ok_bind, loadBytes_readable hread]
    rfl
  case launch =>
    simp only [loadBytes_readable hread, except_ok_bind, hbar, hq]
    rfl
  case get =>
    obtain ⟨l', hl'⟩ := hspot
    have hcap : fld (tailF t) 0 8 = f % 256 := by simp [fld, f]
    intro st1
    refine ⟨fun hempty => (exec_rngget h t s).trans (queueForm_gives hissues hreads ?none),
      fun hsome l1 hread1 => ?some⟩
    case none =>
      simp only [loadBytes_readable hread, except_ok_bind, localCheck_ok hl', hr, hempty, if_true]
      rfl
    intro hdr st2 skip
    have hkind : nfld hdr 16 8 = hdr / 65536 % 256 := by simp [nfld, Nat.shiftRight_eq_div_pow]
    have hbody {st' : Stage} (hnext : (if nfld hdr 16 8 = 0 then
          let ci := (r.ci + hdr % 65536 + 4) % 2 ^ 64
          if r.pi = ci then (.ok (st2.push (BitVec.ofNat 64 (2 ^ 63)) (tailD t)) : Except Stop Stage)
          else do
            let (h1, st3) ← ringHeader s s.cur r ci st2
            if fld (tailF t) 0 8 < h1 % 65536 then .ok (st3.push (BitVec.ofNat 64 (2 ^ 62 + h1)) (tailD t))
            else ringTake s s.cur t a.toNat b.toNat r ci h1 st3
        else if fld (tailF t) 0 8 < hdr % 65536 then .ok (st2.push (BitVec.ofNat 64 (2 ^ 62 + hdr)) (tailD t))
        else ringTake s s.cur t a.toNat b.toNat r r.ci hdr st2) = .ok st') : is (.rngget h t) st' := by
      refine (exec_rngget h t s).trans (queueForm_gives hissues hreads ?_)
      rw [← hnext]
      simp only [loadBytes_readable hread, except_ok_bind, localCheck_ok hl', hr, hsome, if_false,
        ringHeader_ok hread1]
      rfl
    rw [hkind, hcap] at hbody
    refine ⟨fun hskip hlast => hbody ?_, fun hdata hbig => hbody ?_, fun hdata hzero st3 hci => hbody ?_,
      fun hdata hlen hfit l2 st4 st5 hread2 hcopy hci => hbody ?_⟩
    · rw [if_pos hskip]
      exact if_pos hlast
    · rw [if_neg hdata, if_pos hbig]
    · rw [if_neg hdata, if_neg (by omega)]
      exact ringTake_empty hzero hci
    · rw [if_neg hdata, if_neg (by omega)]
      exact ringTake_data hlen hread2 hcopy hci

section

variable {s : State} {h : Head} {t : Tail} {f : Stream → Option Stream} {r : Stream}

/-- SRCTL pushes the status of the record and sets what it becomes. -/
theorem srctlForm_sets {r' : Stream} (hissues : Issues s h)
    (hr : (me s).streams.toList.getD (tailM t % 8) Stream.idle = r) (hf : f r = some r') :
    srctlForm f h t s = .next (after s h { pushed (bundle s) t r.status with
      streams := (pushed (bundle s) t r.status).streams ++ [(tailM t % 8, r')] }) :=
  runHead_ok hissues.1 hissues.2 (by simp only [hr, hf])

theorem srctlForm_queries (hissues : Issues s h)
    (hr : (me s).streams.toList.getD (tailM t % 8) Stream.idle = r) (hf : f r = none) :
    srctlForm f h t s = .next (after s h (pushed (bundle s) t r.status)) :=
  runHead_ok hissues.1 hissues.2 (by simp only [hr, hf])

end

theorem streams : Streams := by
  intro s h t a b c st is k r st0 hissues
  refine ⟨(exec_srctlQuery h t s).trans (srctlForm_queries hissues rfl rfl),
    (exec_srctlStop h t s).trans (srctlForm_sets hissues rfl rfl),
    (exec_srctlRewind h t s).trans (srctlForm_sets hissues rfl rfl),
    fun hreads d st1 hload x hx hindex => (exec_srset h t s).trans (queueForm_gives hissues hreads ?_)⟩
  simp only [hload, except_ok_bind, hx]
  exact if_pos hindex

/-- Settles O53: a form on rings, queues or streams whose checks pass stages its effect, its stores or its record. -/
theorem ringsSubmissionsAndStreams : Obligations.RingsSubmissionsAndStreams := by
  unfold Obligations.RingsSubmissionsAndStreams
  exact ⟨ringsAndSubmissions, streams⟩

/-! ### Barriers (R400-R402) -/

/-- The status word of a barrier by its fields: the phase, the bits from 76, the pending sectors, the count. -/
theorem barStatus_eq (w : Nat) : barStatus w = BitVec.ofNat 64
    (w % 16 + w / 2 ^ 76 % 16 * 16 + w / 2 ^ 80 % 2 ^ 24 * 256 + w / 16 % 2 ^ 20 * 2 ^ 32) := by
  simp only [barStatus, nfld, Nat.shiftRight_eq_div_pow]
  congr 1
  omega

theorem phaseDone_parity (w p : Nat) : phaseDone w (p % 16) true = decide (w % 2 ≠ p % 2) := by
  simp only [phaseDone, if_true, nfld, Nat.shiftRight_zero, Nat.pow_one, bne, beq_eq_decide, ← decide_not]
  rw [show p % 16 % 2 = p % 2 by omega]

theorem phaseDone_number (w p : Nat) : phaseDone w (p % 16) false = decide (w % 16 ≠ p % 16) := by
  simp [phaseDone, nfld, bne, beq_eq_decide]

theorem fld_low (w : Word) (n : Nat) : fld w 0 n = w.toNat % 2 ^ n := by rw [fld, Nat.shiftRight_zero]

theorem tbwaitForm_gives {s : State} {h : Head} {t : Tail} {a b c : Word} {st : Stage} (bit0 : Bool)
    (hissues : Issues s h) (hreads : Reads (.int false) s t a b c st) (hguard : (me s).guard = none)
    (hspot : ∃ l, locate s s.cur .shared a.toNat 16 16 false = .ok l) (hplain : plainOk s a.toNat 16 = true) :
    tbwaitForm bit0 h t s = .next (after s h ((pushed st t 0).act (.barrier a.toNat (b.toNat % 16) bit0
      (some st.pushes.length) ((tailD t).map (fun _ => st.regs.length))))) := by
  rw [Reads] at hreads
  refine runHead_ok hissues.1 hissues.2 ?_
  simp only [hguard, hreads, barAddr_ok hspot, plainRead_ok hplain, fld_low]
  rfl

theorem arrivals_eq (t : Tail) (b : Word) : arrivals t b = if layoutOf t = .t16 then 1 else b.toNat := by
  cases t <;> rfl

theorem tbtestPred_eq (t : Tail) (w : Nat) (b : Word) (st : Stage) : tbtestPred t w b st =
    if layoutOf t = .t32 then st.setPred (tailM t / 32) (phaseDone w (b.toNat % 16) (tailM t / 16 % 2 == 1))
    else st := by
  have hphase : fld b 0 4 = b.toNat % 16 := fld_low b 4
  cases t <;> simp only [tbtestPred, layoutOf, hphase] <;> rfl

theorem barrierInstructions : BarrierInstructions := by
  intro s h t a b c st is here off spot n wait hissues hreads
  refine ⟨fun hspot hb => (exec_tbinit h t s).trans (queueForm_gives hissues hreads ?init),
    fun hspot hb => (exec_tbexp h t s).trans (queueForm_gives hissues hreads ?expect),
    fun tgt o hplace hpos hn => (exec_tbarr h t s).trans (queueForm_gives hissues hreads ?arrive),
    fun hguard hspot hplain => (exec_tbwait h t s).trans (tbwaitForm_gives false hissues hreads hguard hspot hplain),
    fun hguard hspot hplain => (exec_tbwaitB h t s).trans (tbwaitForm_gives true hissues hreads hguard hspot hplain),
    fun hspot hplain => ?test⟩
  case init =>
    simp only [barAddr_ok hspot, except_ok_bind, if_neg (not_le.mpr hb)]
    rfl
  case expect =>
    simp only [barAddr_ok hspot, except_ok_bind, if_neg (not_le.mpr hb)]
    rfl
  case arrive =>
    have hcount : ¬ (n = 0 ∨ 2 ^ 20 ≤ n) := by omega
    simp only [hplace, except_ok_bind, arrivals_eq]
    exact if_neg hcount
  case test =>
    intro w v st1
    have hplain' : plainOk s a.toNat 16 = true := hplain
    have htest {st' : Stage} (hst : tbtestPred t w b st1 = st') : is (.tbtest h t) st' := by
      refine (exec_tbtest h t s).trans (queueForm_gives hissues hreads ?_)
      simp only [barAddr_ok hspot, plainRead_ok hplain', except_ok_bind, barStatus_eq]
      exact congrArg Except.ok hst
    rw [tbtestPred_eq] at htest
    refine ⟨fun hlay => htest (if_neg hlay), fun hlay hbit => htest ?_, fun hlay hbit => htest ?_⟩
    · rw [if_pos hlay, hbit, show ((0 : Nat) == 1) = false from rfl, phaseDone_number]
    · rw [if_pos hlay, hbit, show ((1 : Nat) == 1) = true from rfl, phaseDone_parity]

/-! ### The lifeline (R384-R390) -/

section

variable {s : State} {h : Head} {t : Tail} {a b c : Word} {st : Stage} {bar : Option Bar} {l : Loc}
  {opc op n : Nat} {ok : List Byte → Bool}

/-- A lifeline instruction whose checks pass holds its request. -/
theorem lifeBody_gives (hbar : barOperand s s.cur .shared (tailB t) b = .ok bar)
    (hcap : capFault s s.cur (me s) 27 = none)
    (hspot : ∃ x, locate s s.cur .shared a.toNat n n true = .ok x) (hread : Readable s .shared a.toNat n n l)
    (hok : ok (seen s st l.key n) = true) :
    lifeBody opc op n ok t s s.cur (me s) a b st = .ok (holds (touched s a.toNat st l n)
      (mkEffect opc t 0 a.toNat (seen s st l.key n) [(1026 + stackOf (tileOf s.cur), .lifeline
        { opc := opc, op := op, tile := tileOf s.cur, ctx := ownerOf s s.cur % 16,
          gen := igen (genEntry s (tileOf s.cur) (me s).asid), l := a.toNat, bar := bar, lslot := (me s).lslot,
          asid := (me s).asid, block := seen s st l.key n, keyed := none })])) := by
  obtain ⟨x, hx⟩ := hspot
  simp only [lifeBody, localCheck_ok hx, hbar, hcap, loadBytes_readable hread, except_ok_bind, hok, Bool.not_true,
    Bool.false_eq_true, if_false]
  rfl

end

theorem lifelineInstructions : LifelineInstructions := by
  intro s h t a b c st bar l here is hissues hreads hbar hcap
  have user {i : Instr} {opc op n : Nat} {ok : List Byte → Bool} (hexec : exec i s = lifeForm opc op n ok h t s) :
      is i opc op n ok := fun hspot hread hok =>
    hexec.trans (queueForm_gives hissues hreads (lifeBody_gives hbar hcap hspot hread hok))
  have system {i : Instr} {opc op n : Nat} {ok : List Byte → Bool} (hsys : (me s).sys = true)
      (hexec : exec i s = lifeSysForm opc op n ok h t s) : is i opc op n ok := fun hspot hread hok =>
    hexec.trans (sysForm_gives hissues hsys hreads
      (congrArg HeadResult.of (lifeBody_gives hbar hcap hspot hread hok)))
  exact ⟨user (exec_lfind h t s), user (exec_lput h t s), user (exec_lrel h t s), user (exec_lstatRead h t s),
    fun hsys => ⟨system hsys (exec_lstatConfig h t s), system hsys (exec_lstatClose h t s)⟩⟩

/-- Settles O54: a barrier or lifeline instruction whose checks pass stages its effect, its wait or its fields. -/
theorem barrierAndLifelineInstructions : Obligations.BarrierAndLifelineInstructions := by
  unfold Obligations.BarrierAndLifelineInstructions
  exact ⟨barrierInstructions, lifelineInstructions⟩

/-! ### Matrix instructions (R215, R216, R222-R236) -/

theorem routeOk_of {r : Word} (hzero : r &&& 0xFFFFFFC0C0E0000E = 0)
    (hbar : r.getLsbD 0 = false → r.extractLsb' 4 17 = 0) : routeOk r = true := by
  have hoff : r.getLsbD 0 = false → fld r 4 17 = 0 := fun h0 => by rw [fld_eq_extractLsb', hbar h0]; rfl
  have hreserved : r.toNat &&& 0xFFFFFFC0C0E0000E = 0 :=
    (BitVec.toNat_and ..).symm.trans (congrArg BitVec.toNat hzero)
  rw [routeOk, hreserved, beq_self_eq_true, Bool.true_and]
  cases h0 : r.getLsbD 0 with
  | true => rfl
  | false => rw [hoff h0]; rfl

theorem place6_fld (r : Word) (lo : Nat) : place6 (fld r lo 6) = (r.extractLsb' lo 6).toInt := by
  rw [place6, sint_eq, fld_eq_extractLsb', BitVec.ofNat_toNat, BitVec.setWidth_eq]

section

variable {s : State} {h : Head} {t : Tail} {a b c : Word} {st st1 : Stage} {tgt opc : Nat} {chk : MatCheck}
  {desc : List Byte}

/-- The third operand that a command carries: MMA and MMAG scale by ones when it is absent (R230). -/
def matOperand (opc : Nat) (t : Tail) (c : Word) : Word :=
  if (opc = 0xA6 ∨ 0xA8 ≤ opc) ∧ tailC t = .zero then 0x3F8000003F800000 else c

/-- A matrix instruction whose checks pass holds its command. -/
theorem matForm_gives (hissues : Issues s h) (hreads : Reads (.int false) s t a b c st)
    (hroute : routeOk a = true)
    (htgt : placeTile s s.cur (a.extractLsb' 24 6).toInt (a.extractLsb' 32 6).toInt = some tgt)
    (hcap : capFault s s.cur (me s) 25 = none) (hchk : chk s s.cur b c st = .ok (desc, st1)) :
    matForm opc chk h t s = .next (after s h (holds st1 (matrixEffect s t opc tgt a b (matOperand opc t c)
      (nfld (capEntry s (tileOf s.cur) ((me s).cap.toNat / 256 % 256)) 16 8) desc))) := by
  rw [Reads] at hreads
  have hslot : fld (me s).cap 8 8 = (me s).cap.toNat / 256 % 256 := by simp [fld, Nat.shiftRight_eq_div_pow]
  refine runHead_ok hissues.1 hissues.2 ?_
  simp only [hreads, hroute, Bool.not_true, Bool.false_eq_true, if_false, place6_fld, htgt, hcap, hchk, hslot]
  rw [matrixEffect, matOperand, routeBar, fld_eq_extractLsb']

theorem matOperand_plain (hopc : opc < 0xA8) (hmmag : opc ≠ 0xA6) : matOperand opc t c = c :=
  if_neg (by omega)

theorem matOperand_scale (hopc : opc = 0xA6 ∨ 0xA8 ≤ opc) :
    matOperand opc t c = if tailC t = .zero then 0x3F8000003F800000 else c := by
  rw [matOperand]
  exact if_congr (and_iff_right hopc) rfl rfl

theorem valueCheck_ok {cause : Cause} {ok : Word → Word → Bool} (hok : ok b c = true) :
    valueCheck cause ok s s.cur b c st = .ok ([], st) := if_pos hok

theorem descCheck_ok {n : Nat} {f : List Byte → Option Cause}
    (hload : loadSpan s s.cur .plain b.toNat n 8 st = .ok (desc, st1)) (hf : f desc = none) :
    descCheck n f s s.cur b c st = .ok (desc, st1) := by
  simp only [descCheck, hload, hf]

theorem promoOk_of (hlow : 1 ≤ (tailF t).toNat % 32) (hhigh : (tailF t).toNat % 32 ≤ 16) : promoOk t = true := by
  have hp : fld (tailF t) 0 5 = (tailF t).toNat % 32 := by simp [fld]
  rw [promoOk, hp]
  exact decide_eq_true ⟨hlow, hhigh⟩

end

/-- Settles O9: the checks of a matrix instruction pass in their order, and its command is held. -/
theorem matrixInstructions : Obligations.MatrixInstructions := by
  unfold Obligations.MatrixInstructions
  intro s h t a b c st tgt here asid is small scale hissues hreads hroute htgt hcap
  have held {opc : Nat} {chk : MatCheck} {desc : List Byte} {st1 : Stage} {cv : Word}
      (hchk : chk s s.cur b c st = .ok (desc, st1)) (hcv : matOperand opc t c = cv) :
      matForm opc chk h t s = .next (after s h (holds st1 (matrixEffect s t opc tgt a b cv asid desc))) := by
    rw [← hcv]
    exact matForm_gives hissues hreads (routeOk_of hroute.1 hroute.2) htgt hcap hchk
  have plain {opc : Nat} (hopc : opc < 0xA8) (hmmag : opc ≠ 0xA6) : matOperand opc t c = c :=
    matOperand_plain hopc hmmag
  refine ⟨fun hok => (exec_tcfg h t s).trans (held (valueCheck_ok hok) (plain (by decide) (by decide))),
    fun d st1 hload => ⟨fun hd => (exec_tld h t s).trans (held (descCheck_ok hload hd) (plain (by decide) (by decide))),
      fun hd => (exec_tst h t s).trans (held (descCheck_ok hload hd) (plain (by decide) (by decide)))⟩,
    (exec_tzero h t s).trans (held rfl (plain (by decide) (by decide))),
    (exec_aclr h t s).trans (held rfl (plain (by decide) (by decide))),
    fun hb hc => (exec_tdrain h t s).trans (held (valueCheck_ok ?drain) (plain (by decide) (by decide))),
    fun hb => (exec_tchk h t s).trans (held (valueCheck_ok (beq_iff_eq.mpr hb)) (plain (by decide) (by decide))),
    fun hlow hhigh => ⟨fun hsum => (exec_mmag h t s).trans (held ?group (matOperand_scale (.inl rfl))), ?mma⟩,
    fun d st1 hload hd => (exec_tring h t s).trans (held (descCheck_ok hload hd) (plain (by decide) (by decide)))⟩
  case drain =>
    rw [fld_eq_extractLsb']
    exact Bool.and_eq_true_iff.mpr ⟨beq_iff_eq.mpr hb, beq_iff_eq.mpr hc⟩
  case group => simp only [promoOk_of hlow hhigh, not_lt.mpr hsum, Bool.not_true, Bool.false_eq_true, if_false]
  case mma =>
    have mma {opc : Nat} (hopc : 0xA8 ≤ opc) :
        mmaForm opc h t s = .next (after s h (holds st (matrixEffect s t opc tgt a b scale asid []))) :=
      held (valueCheck_ok (promoOk_of hlow hhigh)) (matOperand_scale (.inr hopc))
    simp only [mmas, List.forall_mem_cons]
    exact ⟨(exec_mmaBf16Bf16 h t s).trans (mma (by decide)), (exec_mmaF16F16 h t s).trans (mma (by decide)),
      (exec_mmaE4m3E4m3 h t s).trans (mma (by decide)), (exec_mmaE4m3E5m2 h t s).trans (mma (by decide)),
      (exec_mmaE5m2E4m3 h t s).trans (mma (by decide)), (exec_mmaE5m2E5m2 h t s).trans (mma (by decide)),
      (exec_mmaE2m3E2m3 h t s).trans (mma (by decide)), (exec_mmaE2m1E2m1 h t s).trans (mma (by decide)),
      (exec_mmaE2m1E4m3 h t s).trans (mma (by decide)), (exec_mmaE4m3E2m1 h t s).trans (mma (by decide)),
      (exec_mmaLg6Lg6 h t s).trans (mma (by decide)), (exec_mmaLg6E4m3 h t s).trans (mma (by decide)),
      (exec_mmaE4m3Lg6 h t s).trans (mma (by decide)), (exec_mmaLg6E2m1 h t s).trans (mma (by decide)),
      (exec_mmaE2m1Lg6 h t s).trans (mma (by decide)), (exec_mmaInt8Int8 h t s).trans (mma (by decide)),
      (exec_mmaMxe4m3Mxe4m3 h t s).trans (mma (by decide)), (exec_mmaMxe2m1Mxe2m1 h t s).trans (mma (by decide)),
      (exec_mmaMxe2m3Mxe2m3 h t s).trans (mma (by decide)), (exec_mmaMxe2m1Mxe4m3 h t s).trans (mma (by decide)),
      (exec_mmaMxe4m3Mxe2m1 h t s).trans (mma (by decide)), (exec_mmaMxe5m2Mxe5m2 h t s).trans (mma (by decide)),
      (exec_mmaBf16E4m3 h t s).trans (mma (by decide)), (exec_mmaBf16Lg6 h t s).trans (mma (by decide)),
      List.forall_mem_nil _⟩

end Sys2Proof.Proofs
end

section

/-! The vector instructions (R181-R207). -/

namespace Sys2Proof.Proofs

open Sys2Proof.Machine Sys2Proof.Laws Sys2Proof.Stated

/-! ### Forms -/

section

variable {s : State} {h : Head} {t : Tail} {a b c : Word} {st st' : Stage} {n : Nat}
  {f : State → Nat → Ctx → Shape → Word → Word → Word → Stage → HeadResult}

theorem vecForm_gives (hissues : Issues s h) (hreads : Reads (.int false) s t a b c st)
    (hf : f s s.cur (me s) (me s).shape a b c st = .ok st') : vecForm h t s n f = .next (after s h st') :=
  vecForm_ok hissues.1 hissues.2 hreads hf

theorem typedForm_gives (hissues : Issues s h) (hreads : Reads (.int false) s t a b c st)
    (hty : tyBytes (vTy t) = (me s).shape.e) (hf : f s s.cur (me s) (me s).shape a b c st = .ok st') :
    typedForm h t s n f = .next (after s h st') :=
  typedForm_ok hissues.1 hissues.2 hreads hty hf

theorem vecForm_faults {x : HeadFault} (hissues : Issues s h) (hreads : Reads (.int false) s t a b c st)
    (hf : f s s.cur (me s) (me s).shape a b c st = .stop (.fault x)) :
    vecForm h t s n f = .next (faulting s h x) := by
  rw [Reads] at hreads
  exact runHead_faults hissues (by simp only [hreads, hf])

/-- A TYPE of another width than that of %vshape is SHAPE (R186). -/
theorem typedForm_shape (hissues : Issues s h) (hreads : Reads (.int false) s t a b c st)
    (hty : tyBytes (vTy t) ≠ (me s).shape.e) :
    typedForm h t s n f = .next (faulting s h ⟨.shape, none, false, 0, none⟩) :=
  vecForm_faults hissues hreads (if_pos hty)

end

/-! ### Elements, rows and columns (R182) -/

theorem length_denseRead (m : List (Nat × Byte)) (k n : Nat) : (denseRead m k n).length = n := by
  induction n generalizing m k with
  | zero => rfl
  | succ n ih =>
    rw [denseRead]
    split
    · rw [List.length_cons, ih]
    · split <;> rw [List.length_cons, ih]

theorem length_toElems (e n : Nat) (l : List Byte) : (toElems e n l).length = n := by
  induction n generalizing l with
  | zero => rfl
  | succ n ih => rw [toElems, List.length_cons, ih]

theorem length_elems (c : Ctx) (r e n : Nat) : (c.elems r e n).length = n := length_toElems ..

/-- The rows of a row-major list, by index. -/
theorem toRows_eq_map (nc n : Nat) {l : List Nat} (hlen : l.length = n * nc) :
    toRows nc n l = (List.range n).map (fun i => (List.range nc).map (fun j => l.getD (i * nc + j) 0)) := by
  induction n generalizing l with
  | zero => rfl
  | succ n ih =>
    have hnc : nc ≤ l.length := by rw [hlen, Nat.succ_mul]; exact Nat.le_add_left ..
    have hdrop : (l.drop nc).length = n * nc := by rw [List.length_drop, hlen, Nat.succ_mul, Nat.add_sub_cancel]
    rw [toRows, ih hdrop, List.range_succ_eq_map, List.map_cons, List.map_map]
    congr 1
    · apply List.ext_getElem
      · simp [hnc]
      · intro j hj hj'
        simp only [List.length_map, List.length_range] at hj'
        simp [List.getD_eq_getElem?_getD, List.getElem?_eq_getElem (hj'.trans_le hnc)]
    · refine List.map_congr_left fun i _ => List.map_congr_left fun j _ => ?_
      simp only [List.getD_eq_getElem?_getD, List.getElem?_drop, Nat.succ_mul]
      congr 2
      omega

theorem toRows_map (f : Nat → Nat) (nc n : Nat) (l : List Nat) :
    toRows nc n (l.map f) = (toRows nc n l).map (fun r => r.map f) := by
  induction n generalizing l with
  | zero => rfl
  | succ n ih => rw [toRows, toRows, List.map_cons, ← ih, List.map_take, List.map_drop]

section

variable {nc n : Nat} {l : List Nat} (hlen : l.length = n * nc)

include hlen

theorem getD_toRows {i : Nat} (hi : i < n) :
    (toRows nc n l).getD i [] = (List.range nc).map (fun j => l.getD (i * nc + j) 0) := by
  rw [toRows_eq_map nc n hlen, List.getD_eq_getElem _ _ (by simpa using hi)]
  simp

theorem column_toRows {j : Nat} (hj : j < nc) :
    column (toRows nc n l) j = (List.range n).map (fun i => l.getD (i * nc + j) 0) := by
  rw [column, toRows_eq_map nc n hlen, List.map_map]
  refine List.map_congr_left fun i _ => ?_
  rw [Function.comp_apply, List.getD_eq_getElem _ _ (by simpa using hj)]
  simp

/-- The columns of a row-major list, by index. -/
theorem columns_toRows : (List.range nc).map (column (toRows nc n l)) =
    (List.range nc).map (fun j => (List.range n).map (fun i => l.getD (i * nc + j) 0)) :=
  List.map_congr_left fun _ hj => column_toRows hlen (List.mem_range.mp hj)

theorem flatMap_column : (List.range nc).flatMap (column (toRows nc n l)) =
    (List.range nc).flatMap (fun j => (List.range n).map (fun i => l.getD (i * nc + j) 0)) :=
  List.flatMap_congr fun _ hj => column_toRows hlen (List.mem_range.mp hj)

/-- One row repeated. -/
theorem replicate_row {k : Nat} (hk : k < n) : (List.replicate n ((toRows nc n l).getD k [])).flatten =
    (List.range n).flatMap (fun _ => (List.range nc).map (fun j => l.getD (k * nc + j) 0)) := by
  rw [getD_toRows hlen hk, List.flatMap, List.map_const', List.length_range]

/-- One column repeated. -/
theorem replicate_column {k : Nat} (hk : k < nc) :
    (toRows nc n l).flatMap (fun r => List.replicate nc (r.getD k 0)) =
      (List.range n).flatMap (fun i => (List.range nc).map (fun _ => l.getD (i * nc + k) 0)) := by
  rw [toRows_eq_map nc n hlen, List.flatMap_map]
  refine List.flatMap_congr fun i _ => ?_
  rw [List.getD_eq_getElem _ _ (by simpa using hk)]
  simp [List.map_const']

end

theorem elems_rows (c : Ctx) (r : Nat) (x : Shape) : (c.elems r x.e (x.nr * x.nc)).length = x.nr * x.nc :=
  length_elems ..

/-! ### Moves (R192, R195-R197, R206, R207) -/

theorem natLE_denseRead_lt (m : List (Nat × Byte)) (k e : Nat) : natLE (denseRead m k e) < 2 ^ (8 * e) := by
  have hlt := natLE_lt (denseRead m k e)
  rwa [length_denseRead, show 256 = 2 ^ 8 from rfl, ← Nat.pow_mul] at hlt

/-- An element read as a value is extended under its type. -/
theorem elemValue_eq_ext (sg : Bool) {w v : Nat} (hv : v < 2 ^ w) :
    (if sg then BitVec.ofInt 64 (sint w v) else BitVec.ofNat 64 v) = ext sg (BitVec.ofNat w v) := by
  cases sg
  · simp only [Bool.false_eq_true, if_false, ext]
    rw [← BitVec.ofNat_toNat, BitVec.toNat_ofNat, Nat.mod_eq_of_lt hv]
  · simp only [if_true, ext, sint_eq]
    rfl

theorem movsPos_eq {x : Shape} {b : Word} (hrow : b.toNat / 256 % 16 < x.nr) (hcol : b.toNat % 64 < x.nc) :
    movsPos x b = some ((b.toNat / 256 % 16 * x.nc + b.toNat % 64) * x.e) := by
  have hr : fld b 8 4 = b.toNat / 256 % 16 := by simp [fld, Nat.shiftRight_eq_div_pow]
  have hc : fld b 0 6 = b.toNat % 64 := by simp [fld]
  rw [movsPos, hr, hc, if_neg (by omega)]

/-- Settles O10: each form writes the elements, or the shape, that its operands name. -/
theorem vectorMoves : Obligations.VectorMoves := by
  unfold Obligations.VectorMoves
  intro s h t a b c st x n el grid is writes row col hissues
  refine ⟨fun hreads => ⟨fun hok => (exec_vshape h t s).trans (vecForm_gives hissues hreads (if_pos hok)),
    fun hty => ?typed⟩, fun hty k vs st1 hk hpops => (exec_vspop h t s).trans (runHead_ok hissues.1 hissues.2 ?pop)⟩
  case pop =>
    have hty' : ¬ tyBytes (vTy t) ≠ (me s).shape.e := not_not.mpr hty
    simp only [hty', hk, if_false, show popMany (me s) k.toNat ((me s).shape.nr * (me s).shape.nc) (bundle s) = _ from
      hpops]
    rfl
  case typed =>
    have gives {f : State → Nat → Ctx → Shape → Word → Word → Word → Stage → HeadResult} {st' : Stage} {k : Nat}
        (hf : f s s.cur (me s) x a b c st = .ok st') : typedForm h t s k f = .next (after s h st') :=
      typedForm_gives hissues hreads hty hf
    have hlen (r : Nat) : ((me s).elems r x.e (x.nr * x.nc)).length = x.nr * x.nc := elems_rows (me s) r x
    refine ⟨(exec_vsel h t s).trans (gives ?select), (exec_vbcastSc h t s).trans (gives rfl),
      fun hk => (exec_vbcastRow h t s).trans (gives ?row), fun hk => (exec_vbcastCol h t s).trans (gives ?column),
      fun hnc hnr hsize => (exec_vtran h t s).trans (gives ?transpose),
      fun hrow hcol => ⟨(exec_vmovsGet h t s).trans (gives ?get), (exec_vmovsPut h t s).trans (gives ?put)⟩⟩
    case select =>
      refine congrArg (fun l => HeadResult.ok (st.putV (vVD t) x.e l)) (List.map_congr_left fun e _ => ?_)
      by_cases hm : e.2.2 = 0 <;> simp [hm]
    case row => exact (if_neg (not_le.mpr hk)).trans (by rw [replicate_row (hlen _) hk])
    case column => exact (if_neg (not_le.mpr hk)).trans (by rw [replicate_column (hlen _) hk])
    case transpose =>
      have hok : (Shape.mk x.nc x.nr x.e).ok = true := decide_eq_true ⟨hnc, hnr, hsize⟩
      refine (if_neg (by simp [hok])).trans ?_
      simp only [flatMap_column (hlen (vVA t))]
      rfl
    case get =>
      simp only [movsPos_eq hrow hcol]
      rw [elemValue_eq_ext _ (natLE_denseRead_lt _ _ _)]
    case put =>
      simp only [movsPos_eq hrow hcol]
      rfl

/-! ### Element-wise arithmetic (R187, R188, R193) -/

section

variable {s : State} {h : Head} {t : Tail} {a b c : Word} {st : Stage}
  {fp : Rm → Bool → Nat → Nat → Nat → Nat → Nat × Flags} {int : Nat → Int → Int → Int → Int}
  {one : Nat × Nat × Nat → Nat × Flags}

/-- An arithmetic form writes the results of its elements and raises their flags. -/
theorem vecArith_gives (hissues : Issues s h) (hreads : Reads (.int false) s t a b c st)
    (hty : tyBytes (vTy t) = (me s).shape.e)
    (hone : ∀ e : Nat × Nat × Nat, (if vcls (vTy t) == some .fp
      then fp (rmOf (vNib t)) (me s).ftz (vTy t) e.1 e.2.1 e.2.2
      else (tyResult (vTy t) ((vNib t).testBit 3) (int (8 * (me s).shape.e) (tyInt (vTy t) e.1) (tyInt (vTy t) e.2.1)
        (tyInt (vTy t) e.2.2)), 0)) = one e) :
    vecArith h t s fp int = .next (after s h
      ((st.putV (vVD t) (me s).shape.e ((((me s).elems (vVA t) (me s).shape.e ((me s).shape.nr * (me s).shape.nc)).zip
        ((vecSrc (me s) (me s).shape (vBS t) b (vVB t)).zip
          (vecSrc (me s) (me s).shape (vCS t) c (vVC t)))).map one |>.map (fun e => e.1))).raise
        ((((me s).elems (vVA t) (me s).shape.e ((me s).shape.nr * (me s).shape.nc)).zip
          ((vecSrc (me s) (me s).shape (vBS t) b (vVB t)).zip
            (vecSrc (me s) (me s).shape (vCS t) c (vVC t)))).map one |>.foldl (fun f e => f ||| e.2) 0))) := by
  refine typedForm_gives hissues hreads hty ?_
  simp only [hone]
  rfl

end

theorem vectorArithmetic : VectorArithmetic := by
  intro s h t a b c st x n ty z rm sat xs ys zs is int fp mm hissues hreads hty
  have ints {i : Instr} {f : Rm → Bool → Nat → Nat → Nat → Nat → Nat × Flags} {g : Nat → Int → Int → Int → Int}
      {r : Int → Int → Int → Int} (hexec : exec i s = vecArith h t s f g) (hr : ∀ p q u, g (8 * x.e) p q u = r p q u) :
      int i r := fun hcls =>
    hexec.trans (vecArith_gives hissues hreads hty fun e => by
      rw [if_neg (by simpa using hcls), hr])
  have fps {i : Instr} {f : Rm → Bool → Nat → Nat → Nat → Nat → Nat × Flags} {g : Nat → Int → Int → Int → Int}
      {r : Nat × Nat × Nat → Nat × Flags} (hexec : exec i s = vecArith h t s f g) (hcls : vcls ty = some .fp)
      (hr : ∀ e : Nat × Nat × Nat, f rm z ty e.1 e.2.1 e.2.2 = r e) :
      is i ((xs.zip (ys.zip zs)).map r) :=
    hexec.trans (vecArith_gives hissues hreads hty fun e =>
      (if_pos (by simpa using hcls)).trans (hr e))
  refine ⟨ints (r := fun p q _ => p + q) (exec_vadd h t s) fun _ _ _ => rfl,
    fun hcls => fps (exec_vadd h t s) hcls fun _ => rfl,
    ints (r := fun p q _ => p - q) (exec_vsub h t s) fun _ _ _ => rfl,
    fun hcls => fps (exec_vsub h t s) hcls fun _ => rfl,
    ints (r := fun p q _ => tyInt ty (wrapInt (8 * x.e) (p * q))) (exec_vmul h t s) fun _ _ _ => rfl,
    fun hcls => fps (exec_vmul h t s) hcls fun _ => rfl,
    ints (r := fun p q u => p * q + u) (exec_vfma h t s) fun _ _ _ => rfl,
    fun hcls => fps (exec_vfma h t s) hcls fun _ => rfl,
    ints (r := fun p q _ => min p q) (exec_vmin h t s) fun p q _ => min_eq_ite p q,
    fun hcls => fps (exec_vmin h t s) hcls fun _ => rfl,
    ints (r := fun p q _ => max p q) (exec_vmax h t s) fun p q _ => max_eq_ite p q,
    fun hcls => fps (exec_vmax h t s) hcls fun _ => rfl,
    ints (r := fun p q _ => if q = 0 then 2 ^ (8 * x.e) - 1
      else if tySigned ty then sint (8 * x.e) (wrapInt (8 * x.e) (p.tdiv q)) else p.tdiv q) (exec_vdiv h t s)
      fun p q _ => ?quotient,
    fun hcls => fps (exec_vdiv h t s) hcls fun _ => rfl⟩
  case quotient =>
    push_cast
    rfl

/-! ### Comparison, reduction, conversion, special functions and statistics (R194, R199-R203) -/

theorem beq_some_fp (ty : Nat) : (vcls ty == some VCls.fp) = decide (vcls ty = some .fp) := beq_eq_decide ..

theorem joinFlags_map {α : Type} (l : List α) (f : α → Nat × Flags) :
    joinFlags (l.map f) = (l.map (fun v => (f v).1), l.foldl (fun g v => g ||| (f v).2) 0) := by
  rw [joinFlags, List.map_map, List.foldl_map]
  rfl

section

variable {s : State} {h : Head} {t : Tail} {a b c : Word} {st : Stage}

theorem vecSpecial_gives {f : Bool → Nat → Nat × Flags} (hissues : Issues s h)
    (hreads : Reads (.int false) s t a b c st) (hty : tyBytes (vTy t) = (me s).shape.e) :
    vecSpecial h t s f = .next (after s h ((st.putV (vVD t) (me s).shape.e
      (((me s).elems (vVA t) (me s).shape.e ((me s).shape.nr * (me s).shape.nc)).map (fun v => (f (me s).ftz v).1))).raise
      (((me s).elems (vVA t) (me s).shape.e ((me s).shape.nr * (me s).shape.nc)).foldl
        (fun g v => g ||| (f (me s).ftz v).2) 0))) :=
  typedForm_gives hissues hreads hty (by rw [joinFlags_map])

end

theorem vectorReductions : VectorReductions := by
  intro s h t a b c st x n ty z rm xs ys rows cols is each red special hissues hreads hty
  have gives {f : State → Nat → Ctx → Shape → Word → Word → Word → Stage → HeadResult} {st' : Stage} {k : Nat}
      (hf : f s s.cur (me s) x a b c st = .ok st') : typedForm h t s k f = .next (after s h st') :=
    typedForm_gives hissues hreads hty hf
  have hrows : toRows x.nc x.nr xs = rows := toRows_eq_map x.nc x.nr (elems_rows (me s) (vVA t) x)
  have hcols : (List.range x.nc).map (column (toRows x.nc x.nr xs)) = cols :=
    columns_toRows (elems_rows (me s) (vVA t) x)
  have hred (l : List Nat) : (if vcls (vTy t) == some .fp
      then reduceFp (me s).ftz (vTy t) (rmOf (vNib t)) (vVC t) l
      else (reduceInt (vTy t) ((vNib t).testBit 3) (vVC t) l, 0)) = red l := by
    rw [beq_some_fp]
    exact if_congr decide_eq_true_iff rfl rfl
  refine ⟨(exec_vredr h t s).trans (gives ?rows), (exec_vredc h t s).trans (gives ?columns),
    fun hok => (exec_vcvt h t s).trans (gives ?convert),
    (exec_vexp2 h t s).trans (vecSpecial_gives hissues hreads hty),
    (exec_vlog2 h t s).trans (vecSpecial_gives hissues hreads hty),
    (exec_vrcp h t s).trans (vecSpecial_gives hissues hreads hty),
    (exec_vrsq h t s).trans (vecSpecial_gives hissues hreads hty), ?compare, fun he => ⟨?pack, ?update, ?merge⟩,
    fun he => ?unpack⟩
  case rows =>
    rw [vecReduce]
    simp only [hred, Bool.false_eq_true, if_false]
    rw [show toRows x.nc x.nr ((me s).elems (vVA t) x.e (x.nr * x.nc)) = rows from hrows]
    rfl
  case columns =>
    rw [vecReduce]
    simp only [hred, if_true]
    rw [show (List.range x.nc).map (column (toRows x.nc x.nr ((me s).elems (vVA t) x.e (x.nr * x.nc)))) = cols from
      hcols]
    rfl
  case convert => exact if_neg (by simp [hok])
  case compare =>
    intro rel fl all
    have hres (e : Nat × Nat) : (if vcls (vTy t) == some .fp then
          (fpRel (vNib t % 8) (vSrc (me s).ftz (vTy t) e.1) (vSrc (me s).ftz (vTy t) e.2),
            fpRelFlags ((vNib t).testBit 3) (vSrc (me s).ftz (vTy t) e.1) (vSrc (me s).ftz (vTy t) e.2))
        else (fpRel (vNib t % 8) (.fin (Q.ofInt (tyInt (vTy t) e.1))) (.fin (Q.ofInt (tyInt (vTy t) e.2))), 0)) =
        (rel e.1 e.2, fl e.1 e.2) := by
      by_cases hfp : vcls ty = some .fp
      · rw [if_pos (by simpa using hfp)]
        exact Prod.ext (if_pos hfp).symm (if_pos hfp).symm
      · rw [if_neg (by simpa using hfp)]
        exact Prod.ext (if_neg hfp).symm (if_neg hfp).symm
    refine (exec_vcmp h t s).trans (gives ?_)
    simp only [hres]
    simp only [List.map_map, List.all_map, List.any_map, List.foldl_map, beq_iff_eq]
    rfl
  case pack =>
    intro w q sh hfit hok
    refine (exec_vpack h t s).trans (gives ?_)
    have hlegal : ¬ ((if (packFmt (vVC t)).bits = 4 then x.nc % 2 else x.nc % 4) ≠ 0 || !sh.ok) = true := by
      rw [hok]
      simpa using hfit
    refine (if_neg hlegal).trans ?_
    simp only [joinFlags_map, toRows_map]
    rw [show toRows x.nc x.nr ((me s).elems (vVA t) x.e (x.nr * x.nc)) = rows from hrows, List.flatMap_map]
    rfl
  case update =>
    refine (exec_vwfu h t s).trans (gives ?_)
    rw [← he, show toRows x.nc x.nr ((me s).elems (vVA t) x.e (x.nr * x.nc)) = rows from hrows]
    rfl
  case merge => exact (exec_vwfm h t s).trans (gives rfl)
  case unpack =>
    intro w m sh hrow hm hok
    refine (exec_vunpk h t s).trans (gives ?_)
    have hlegal : ¬ ((packFmt (vVC t)).bits == 6 && x.nc % 3 != 0 || decide (64 < x.nc * 8 / (packFmt (vVC t)).bits) ||
        !sh.ok) = true := by
      rw [hok]
      simpa [w, m] using ⟨fun h6 => Classical.not_not.mp fun h3 => hrow ⟨h6, h3⟩, hm⟩
    refine (if_neg hlegal).trans ?_
    rw [show toRows x.nc x.nr ((me s).elems (vVA t) 1 (x.nr * x.nc)) = rows by rw [← hrows, ← he]]
    rfl

/-- Settles O58: both halves, arithmetic by element and reductions, conversions and statistics. -/
theorem vectorArithmeticAndReductions : Obligations.VectorArithmeticAndReductions :=
  ⟨vectorArithmetic, vectorReductions⟩

/-! ### Memory forms (R204, R205) -/

theorem vecAddrs_eq (x : Shape) (a b : Word) : vecAddrs x a b =
    (List.range x.nr).flatMap (fun (i : Nat) => (List.range x.nc).map (fun (j : Nat) =>
      (a + BitVec.ofNat 64 i * b + BitVec.ofNat 64 (j * x.e)).toNat)) := by
  have haddr (i j : Nat) : wrapInt 64 ((a.toNat : Int) + i * b.toInt + j * x.e) =
      (a + BitVec.ofNat 64 i * b + BitVec.ofNat 64 (j * x.e)).toNat := by
    rw [wrapInt_eq, BitVec.ofInt_add, BitVec.ofInt_add, BitVec.ofInt_mul, BitVec.ofInt_toInt, ← Int.natCast_mul]
    simp only [BitVec.ofInt_natCast, BitVec.ofNat_toNat, BitVec.setWidth_eq]
  simp only [vecAddrs, haddr]

theorem vecLoad_ok {s : State} {g vd e : Nat} {eas vs : List Nat} {st st1 : Stage}
    (hcheck : ∃ ls, checkElems s g e false eas = .ok ls) (hload : loadElems s g e eas st = .ok (vs, st1)) :
    vecLoad s g vd e eas st = .ok (st1.putV vd e vs) := by
  obtain ⟨ls, hls⟩ := hcheck
  simp only [vecLoad, hls, hload]

/-- The first element that fails its checks gives the error of all (R204). -/
theorem checkElems_error {s : State} {g e : Nat} {w : Bool} {eas post : List Nat} {ea : Nat} {x : AddrError}
    (hbefore : ∀ y ∈ eas, ∃ l, locate s g .plain y e e w = .ok l) (hea : locate s g .plain ea e e w = .error x) :
    checkElems s g e w (eas ++ ea :: post) = .error (.addr x ea) := by
  induction eas with
  | nil => simp only [List.nil_append, checkElems, hea]
  | cons y ys ih =>
    obtain ⟨l, hl⟩ := hbefore y (List.mem_cons_self ..)
    simp only [List.cons_append, checkElems, hl, ih fun z hz => hbefore z (List.mem_cons_of_mem _ hz)]

section

variable {c : Ctx} {e : Nat}

theorem vstRuns_cons_private {x : VstElem} (r : List VstElem) (hx : isPrivate c x.1 e = true) :
    vstRuns c e (x :: r) = [] :: vstRuns c e r := by
  simp only [vstRuns, hx, if_true]

theorem vstRuns_private (els : List VstElem) (h : ∀ y ∈ els, isPrivate c y.1 e = true) :
    (vstRuns c e els).flatten = [] := by
  induction els with
  | nil => rfl
  | cons x r ih =>
    rw [vstRuns_cons_private r (h x (List.mem_cons_self ..))]
    simpa using ih fun y hy => h y (List.mem_cons_of_mem _ hy)

theorem vstDirect_shared {s : State} {g : Nat} (els : List VstElem) (st : Stage)
    (h : ∀ y ∈ els, isPrivate c y.1 e = false) : vstDirect s g e c els st = .ok st := by
  induction els with
  | nil => rfl
  | cons x r ih =>
    simp only [vstDirect, h x (List.mem_cons_self ..), Bool.false_eq_true, if_false]
    exact ih fun y hy => h y (List.mem_cons_of_mem _ hy)

/-- A shared element joins the run that follows it, where that has its home, or opens one. -/
theorem vstRuns_cons_shared {x : VstElem} (r : List VstElem) (hx : isPrivate c x.1 e = false) :
    (∃ y ys more, vstRuns c e r = (y :: ys) :: more ∧ y.2.1.home = x.2.1.home ∧
      vstRuns c e (x :: r) = (x :: y :: ys) :: more) ∨
    ∃ more, more.flatten = (vstRuns c e r).flatten ∧ (∀ m ∈ more, m ∈ vstRuns c e r) ∧
      vstRuns c e (x :: r) = [x] :: more := by
  simp only [vstRuns, hx, Bool.false_eq_true, if_false]
  match vstRuns c e r with
  | [] => exact .inr ⟨[], rfl, by simp, rfl⟩
  | [] :: more => exact .inr ⟨more, rfl, fun m hm => List.mem_cons_of_mem _ hm, rfl⟩
  | (y :: ys) :: more =>
    by_cases hhome : y.2.1.home = x.2.1.home
    · exact .inl ⟨y, ys, more, rfl, hhome, if_pos hhome⟩
    · exact .inr ⟨(y :: ys) :: more, rfl, fun m hm => hm, if_neg hhome⟩

theorem flatten_vstRuns (els : List VstElem) (h : ∀ y ∈ els, isPrivate c y.1 e = false) :
    (vstRuns c e els).flatten = els := by
  induction els with
  | nil => rfl
  | cons x r ih =>
    have hr := ih fun y hy => h y (List.mem_cons_of_mem _ hy)
    obtain ⟨y, ys, more, hrest, -, hruns⟩ | ⟨more, hflat, -, hruns⟩ :=
      vstRuns_cons_shared r (h x (List.mem_cons_self ..))
    · rw [hrest] at hr
      rw [hruns, ← hr]
      rfl
    · rw [hruns, List.flatten_cons, hflat, hr]
      rfl

theorem vstRuns_home (els : List VstElem) (h : ∀ y ∈ els, isPrivate c y.1 e = false) :
    ∀ r ∈ vstRuns c e els, ∀ y ∈ r, ∀ y' ∈ r, y.2.1.home = y'.2.1.home := by
  induction els with
  | nil => exact fun r hr => absurd hr (List.not_mem_nil)
  | cons x r ih =>
    have hr := ih fun y hy => h y (List.mem_cons_of_mem _ hy)
    obtain ⟨y, ys, more, hrest, hhome, hruns⟩ | ⟨more, -, hmem, hruns⟩ :=
      vstRuns_cons_shared r (h x (List.mem_cons_self ..))
    · rw [hrest] at hr
      have hsame : ∀ z ∈ x :: y :: ys, z.2.1.home = x.2.1.home := by
        intro z hz
        obtain rfl | hz := List.mem_cons.mp hz
        · rfl
        · exact (hr _ (List.mem_cons_self ..) z hz y (List.mem_cons_self ..)).trans hhome
      rw [hruns]
      intro run hrun
      obtain rfl | hrun := List.mem_cons.mp hrun
      · exact fun z hz z' hz' => (hsame z hz).trans (hsame z' hz').symm
      · exact hr run (List.mem_cons_of_mem _ hrun)
    · rw [hruns]
      intro run hrun
      obtain rfl | hrun := List.mem_cons.mp hrun
      · intro z hz z' hz'
        rw [List.mem_singleton.mp hz, List.mem_singleton.mp hz']
      · exact hr run (hmem run hrun)

end

/-- Settles O11: the addresses modulo 2^64, then the runs of a row by induction on its elements. -/
theorem vectorMemory : Obligations.VectorMemory := by
  intro s h t a b c st x n lin gat loads bytes hissues hreads
  have haddrs : vecAddrs x a b = lin := vecAddrs_eq x a b
  refine ⟨fun vs st1 hcheck hload => ?vld, fun hty vs st1 hcheck hload => ?vgath, fun ls st1 hcheck hdirect => ?vst,
    vstRuns_private, fun els st1 h => ⟨vstDirect_shared els st1 h, flatten_vstRuns els h, vstRuns_home els h⟩⟩
  case vld =>
    refine (exec_vld h t s).trans (vecForm_gives hissues hreads ?_)
    rw [show vecAddrs (me s).shape a b = lin from haddrs]
    exact vecLoad_ok hcheck hload
  case vgath =>
    refine (exec_vgath h t s).trans (typedForm_gives hissues hreads hty ?_)
    have hgat : ((me s).elems (vVB t) x.e n).map (fun v =>
        wrapInt 64 ((a.toNat : Int) + tyInt (vTy t) v * (2 ^ (vNib t % 4) : Nat))) = gat := by
      simp only [wrapInt_eq]
      rfl
    exact (congrArg (vecLoad s s.cur (vVD t) x.e · st) hgat).trans (vecLoad_ok hcheck hload)
  case vst =>
    intro tag rows es st2
    refine (exec_vst h t s).trans (vecForm_gives hissues hreads ?_)
    rw [vecStore, show vecAddrs (me s).shape a b = lin from haddrs]
    simp only [show checkElems s s.cur (me s).shape.e true lin = .ok ls from hcheck]
    rw [show vstDirect s s.cur (me s).shape.e (me s) (lin.zip (ls.zip (((me s).elems (vVA t) (me s).shape.e
      ((me s).shape.nr * (me s).shape.nc)).map (fun v => bytesLE (me s).shape.e v)))) st = .ok st1 from hdirect]
    rfl

theorem vectorFaults : VectorFaults := by
  intro s h t a b c st eas post ea e x hissues hreads
  refine ⟨fun haddrs w hbefore hea hstall => ?elements, fun hty i hi => ?types⟩
  case elements =>
    have hcheck : checkElems s s.cur x.e w (vecAddrs x a b) = .error (.fault ⟨e.cause, some ea, false, 0, e.pte⟩) := by
      rw [haddrs, checkElems_error hbefore hea, Stop.addr_eq, hstall]
      rfl
    cases w with
    | false =>
      refine (exec_vld h t s).trans (vecForm_faults hissues hreads ?_)
      simp only [vecLoad, show checkElems s s.cur (me s).shape.e false (vecAddrs (me s).shape a b) = _ from hcheck]
    | true =>
      refine (exec_vst h t s).trans (vecForm_faults hissues hreads ?_)
      simp only [vecStore, show checkElems s s.cur (me s).shape.e true (vecAddrs (me s).shape a b) = _ from hcheck]
  case types =>
    revert i
    simp only [List.forall_mem_cons]
    have shape {n : Nat} {f : State → Nat → Ctx → Shape → Word → Word → Word → Stage → HeadResult} :
        typedForm h t s n f = .next (faulting s h ⟨.shape, none, false, 0, none⟩) :=
      typedForm_shape hissues hreads hty
    have arith {fp int} : vecArith h t s fp int = .next (faulting s h ⟨.shape, none, false, 0, none⟩) := shape
    have special {f} : vecSpecial h t s f = .next (faulting s h ⟨.shape, none, false, 0, none⟩) := shape
    exact ⟨(exec_vadd h t s).trans arith, (exec_vsub h t s).trans arith, (exec_vmul h t s).trans arith,
      (exec_vfma h t s).trans arith, (exec_vmin h t s).trans arith, (exec_vmax h t s).trans arith,
      (exec_vdiv h t s).trans arith, (exec_vcmp h t s).trans shape, (exec_vsel h t s).trans shape,
      (exec_vredr h t s).trans shape, (exec_vredc h t s).trans shape, (exec_vbcastSc h t s).trans shape,
      (exec_vbcastRow h t s).trans shape, (exec_vbcastCol h t s).trans shape, (exec_vtran h t s).trans shape,
      (exec_vcvt h t s).trans shape, (exec_vpack h t s).trans shape, (exec_vunpk h t s).trans shape,
      (exec_vexp2 h t s).trans special, (exec_vlog2 h t s).trans special, (exec_vrcp h t s).trans special,
      (exec_vrsq h t s).trans special, (exec_vwfu h t s).trans shape, (exec_vwfm h t s).trans shape,
      (exec_vmovsGet h t s).trans shape, (exec_vmovsPut h t s).trans shape, (exec_vgath h t s).trans shape,
      fun _ hi => absurd hi List.not_mem_nil⟩

/-- Settles O41: the faults of transfers and of vector forms. -/
theorem headFaults : Obligations.HeadFaults := ⟨transferFaults, vectorFaults⟩

end Sys2Proof.Proofs
end

section

/-! What the sources of a tail give (R97-R104). -/

namespace Sys2Proof.Proofs

open Sys2Proof.Machine Sys2Proof.Laws Sys2Proof.Stated

theorem extLit_signed {w : Nat} (v : BitVec w) : extLit (.int true) w v.toNat = v.signExtend 64 := by
  simp only [extLit, sint_eq, BitVec.ofNat_toNat, BitVec.setWidth_eq]
  rfl

theorem extLit_unsigned {cl : LitClass} (hcl : cl ≠ .int true) {w : Nat} (v : BitVec w) :
    extLit cl w v.toNat = v.setWidth 64 := by
  match cl with
  | .int true => exact absurd rfl hcl
  | .int false => exact BitVec.ofNat_toNat ..
  | .fp => exact BitVec.ofNat_toNat ..

theorem extLit_eq (cl : LitClass) (k : BitVec 32) :
    extLit cl 32 k.toNat = if cl = .int true then k.signExtend 64 else k.setWidth 64 := by
  by_cases hcl : cl = .int true
  · rw [if_pos hcl, hcl, extLit_signed]
  · rw [if_neg hcl, extLit_unsigned hcl]

/-- A literal that stands above `n` zero bits. -/
theorem ofNat_shifted {w : Nat} (n : Nat) (v : BitVec w) :
    BitVec.ofNat 64 (v.toNat * 2 ^ n) = (v ++ 0#n).setWidth 64 := by
  apply BitVec.eq_of_toNat_eq
  rw [BitVec.toNat_ofNat, BitVec.toNat_setWidth, BitVec.toNat_append]
  simp [Nat.shiftLeft_eq]

section

variable {c : Ctx} {k : Nat} {st : Stage}

theorem popStream_next {v : Word} (hidx : isIndexSource c k = false)
    (hq : (c.streams.toList.getD k Stream.idle).queue[(st.pops.filter (· == k)).length]? = some (v, none)) :
    popStream c st k = .ok (v, { st with pops := st.pops ++ [k] }) := by
  simp only [popStream, hidx, hq, Bool.false_eq_true, if_false]

theorem popStream_none (hidx : isIndexSource c k = false)
    (hq : (c.streams.toList.getD k Stream.idle).queue[(st.pops.filter (· == k)).length]? = none) :
    popStream c st k = if (c.streams.toList.getD k Stream.idle).fetched < (c.streams.toList.getD k Stream.idle).count
      then .error .stall else .error (.of .illegalOperand) := by
  simp only [popStream, hidx, hq, Bool.false_eq_true, if_false]

end

/-- Settles O12, selector by selector. -/
theorem sourceValues : Obligations.SourceValues := by
  intro c t i st cl
  refine ⟨fun a => rfl, fun r => rfl, rfl, fun v m d x ht => ⟨fun hcl => ?long, fun hcl => ?long'⟩,
    fun f m d z y x ht => ⟨fun hcl => ?field, fun hcl => ?field', fun hcl => ?fp, fun k hk hx => ?index⟩,
    fun m d z y x k ht hk => ?const, fun v x ht => ?upper, fun k => ?pop⟩
  case long => rw [ht, hcl, ← extLit_signed]; rfl
  case long' => rw [ht, ← extLit_unsigned hcl]; rfl
  case field => rw [ht, hcl, ← extLit_signed]; rfl
  case field' => rw [ht, hcl, ← extLit_unsigned (cl := .int false) (by simp)]; rfl
  case fp => rw [ht, hcl, ← ofNat_shifted]; rfl
  case index => rw [← extLit_eq, ← hk, ht, hx]; rfl
  case const => rw [← extLit_eq, ← hk, ht]; rfl
  case upper => rw [ht, ← ofNat_shifted]; rfl
  case pop =>
    intro r j hidx
    exact ⟨fun v hq => popStream_next hidx hq, fun hq hmore => (popStream_none hidx hq).trans (if_pos hmore),
      fun hq hend => (popStream_none hidx hq).trans (if_neg (Nat.not_lt.mpr hend))⟩

end Sys2Proof.Proofs
end

section

/-! The end of a bundle (R94, R95, R108, R162-R168): what its acts do, its results, and where the context goes on. -/

namespace Sys2Proof.Proofs

open Sys2Proof.Machine Sys2Proof.Laws Sys2Proof.Stated

/-! ### The results of a bundle (R94, R98) -/

/-- The named registers after the writes of a bundle. -/
def regsAfter (n : Vector Word 32) (regs : List (Nat × Word)) (link : Option Word) : Vector Word 32 :=
  let written := regs.foldl (fun (n : Vector Word 32) e => if h : e.1 < 32 then n.set e.1 e.2 else n) n
  match link with
  | some v => written.set 30 v
  | none => written

/-- The stream records after a bundle (R99, R346). -/
def streamsAfter (v : Vector Stream 8) (pops : List Nat) (sets : List (Nat × Stream)) : Vector Stream 8 :=
  sets.foldl (fun (v : Vector Stream 8) (e : Nat × Stream) => if h : e.1 < 8 then v.set e.1 e.2 else v)
    (pops.foldl (fun (v : Vector Stream 8) (k : Nat) =>
      if h : k < 8 then v.set k { v[k] with queue := v[k].queue.tail, popped := v[k].popped + 1 } else v) v)

theorem foldl_setReg (l : List (Nat × Word)) (c : Ctx) :
    l.foldl (fun c e => c.setReg e.1 e.2) c = { c with n := regsAfter c.n l none } := by
  induction l generalizing c with
  | nil => rfl
  | cons e r ih => exact ih (c.setReg e.1 e.2)

/-- A context after a bundle that writes no control register and opens no loop. -/
theorem applyStage_eq (c : Ctx) {st : Stage} (hcregs : st.cregs = []) (hloop : st.loopOpen = none) :
    c.applyStage st = { c with
      q := st.pushes.foldl pushQ c.q
      p := st.preds.foldl (fun p e => setPredBit p e.1 e.2) c.p
      v := st.vregs.foldl (fun v e => writeVreg v e.1 e.2.1 e.2.2) c.v
      vshape := match st.vshape with
        | some x => BitVec.ofNat 14 x
        | none => c.vshape
      n := regsAfter c.n st.regs st.link
      fpctl := c.fpctl ||| BitVec.ofNat 64 st.flags
      streams := streamsAfter c.streams st.pops st.streams } := by
  simp only [Ctx.applyStage, foldl_setReg, hcregs, hloop, List.foldl_nil]
  cases st.link <;> rfl

/-- A bundle that opens a loop level does so after its other results (R164). -/
theorem applyStage_opens (c : Ctx) {st : Stage} {k n : Nat} {l : LoopLevel} (hcregs : st.cregs = [])
    (hloop : st.loopOpen = some (k, n, l)) : c.applyStage st =
      { (c.applyStage { st with loopOpen := none }).setLc k (BitVec.ofNat 32 n) with
        loops := c.loops ++ [l], body := if c.loops.isEmpty then st.body else c.body } := by
  rw [applyStage_eq c (st := { st with loopOpen := none }) hcregs rfl]
  simp only [Ctx.applyStage, foldl_setReg, hcregs, hloop, List.foldl_nil]
  cases st.link <;> rfl

/-- The link is written after the other registers, whatever loop the bundle opens (R163). -/
theorem applyStage_link (c : Ctx) {st : Stage} {v : Word} (hcregs : st.cregs = []) (hlink : st.link = some v) :
    (c.applyStage st).n[30] = v := by
  have hplain (st : Stage) (hcregs : st.cregs = []) (hlink : st.link = some v) (hloop : st.loopOpen = none) :
      (c.applyStage st).n[30] = v := by
    rw [applyStage_eq c hcregs hloop, hlink]
    exact Vector.getElem_set_self ..
  match hloop : st.loopOpen with
  | none => exact hplain st hcregs hlink hloop
  | some (k, n, l) =>
    rw [applyStage_opens c hcregs hloop]
    exact hplain { st with loopOpen := none } hcregs hlink rfl

/-- A write of a control register reads and changes none of the registers that results go to. -/
theorem writeCreg_results (c : Ctx) (i : Nat) (x : Word) (q : List Word) (p : BitVec 8) (v : List (Nat × Byte))
    (vshape : BitVec 14) (n : Vector Word 32) (o : Option Stage) :
    ({ c with q := q, p := p, v := v, vshape := vshape, n := n, stage := o } : Ctx).writeCreg i x =
      { c.writeCreg i x with q := q, p := p, v := v, vshape := vshape, n := n, stage := o } :=
  match i with
  | 0 | 1 | 2 | 3 | 4 | 5 | _ + 6 => rfl

/-- A control register is written before the flags of the bundle are raised (R137). -/
theorem applyStage_creg (c : Ctx) {st : Stage} {i : Nat} {v : Word} (o : Option Stage) (hcregs : st.cregs = [(i, v)])
    (hloop : st.loopOpen = none) : ({ c with stage := o } : Ctx).applyStage st =
      { c.writeCreg i v with
        q := st.pushes.foldl pushQ c.q
        p := st.preds.foldl (fun p e => setPredBit p e.1 e.2) c.p
        v := st.vregs.foldl (fun v e => writeVreg v e.1 e.2.1 e.2.2) c.v
        vshape := match st.vshape with
          | some x => BitVec.ofNat 14 x
          | none => c.vshape
        n := regsAfter c.n st.regs st.link
        stage := o
        fpctl := (c.writeCreg i v).fpctl ||| BitVec.ofNat 64 st.flags
        streams := streamsAfter (c.writeCreg i v).streams st.pops st.streams } := by
  simp only [Ctx.applyStage, foldl_setReg, hcregs, hloop, List.foldl_cons, List.foldl_nil]
  cases st.link <;> simp only [Ctx.setReg, writeCreg_results] <;> rfl

/-- Fifteen of the sixteen values stay behind a push, so the queue holds the newest sixteen (R98). -/
theorem foldl_pushQ (pushes q : List Word) (hq : q.length = 16) :
    pushes.foldl pushQ q = (pushes.reverse ++ q).take 16 := by
  induction pushes generalizing q with
  | nil => simp [← hq]
  | cons v r ih =>
    have hkept (j : Nat) (hj : j ≤ 16) : (pushQ q v).take j = (v :: q).take j := by
      cases j with
      | zero => rfl
      | succ j => rw [pushQ, List.take_succ_cons, List.take_succ_cons, List.take_take, min_eq_left (by omega)]
    rw [List.foldl_cons, ih _ (by simp [pushQ, hq]), List.take_append, hkept _ (by omega), ← List.take_append,
      List.reverse_cons, List.append_assoc]
    rfl

/-- The newest write of a register counts (R94). -/
theorem getElem_regsAfter (n : Vector Word 32) (regs : List (Nat × Word)) (r : Fin 32) :
    (regsAfter n regs none)[r] = match regs.reverse.find? (fun e => e.1 == r.val) with
      | some e => e.2
      | none => n[r] := by
  induction regs generalizing n with
  | nil => rfl
  | cons e l ih =>
    refine (ih (if h : e.1 < 32 then n.set e.1 e.2 else n)).trans ?_
    rw [List.reverse_cons, List.find?_append, List.find?_singleton]
    cases l.reverse.find? (fun e => e.1 == r.val) with
    | some e' => rfl
    | none =>
      by_cases hr : e.1 = r.val
      · simp [hr]
      · by_cases hlt : e.1 < 32 <;> simp [hr, hlt]

/-- A write of one predicate changes that predicate, and never %p0 (R132). -/
theorem getLsbD_setPredBit (p : BitVec 8) (j : Nat) (v : Bool) {k : Nat} (hk : k < 8) :
    (setPredBit p j v).getLsbD k = if k = 0 then p.getLsbD k else if j = k then v else p.getLsbD k := by
  have hbit : (1#8 <<< j).getLsbD k = decide (j = k) := by
    simp only [BitVec.getLsbD_shiftLeft, BitVec.getLsbD_one, hk, decide_true, Bool.true_and, Nat.zero_lt_succ]
    by_cases hj : j = k
    · simp [hj]
    · have : k < j ∨ k - j ≠ 0 := by omega
      rcases this with h | h <;> simp [hj, h]
  by_cases hj : j = 0
  · by_cases hk0 : k = 0
    · simp [setPredBit, hj, hk0]
    · simp [setPredBit, hj, hk0, Ne.symm hk0]
  · have hnew : (if v then p ||| (1#8 <<< j) else p &&& ~~~(1#8 <<< j)).getLsbD k = if j = k then v else p.getLsbD k := by
      cases v with
      | false =>
        rw [if_neg Bool.false_ne_true, BitVec.getLsbD_and, BitVec.getLsbD_not, hbit]
        by_cases hjk : j = k <;> simp [hjk, hk]
      | true =>
        rw [if_pos rfl, BitVec.getLsbD_or, hbit]
        by_cases hjk : j = k <;> simp [hjk]
    have hzero : k = 0 → j ≠ k := fun hk0 hjk => hj (hjk.trans hk0)
    rw [setPredBit, if_neg hj, hnew]
    by_cases hk0 : k = 0
    · rw [if_neg (hzero hk0), if_pos hk0]
    · rw [if_neg hk0]

/-- A predicate takes the newest of its writes, %p0 none (R132). -/
theorem getLsbD_foldl_setPredBit (p : BitVec 8) (preds : List (Nat × Bool)) {k : Nat} (hk : k < 8) :
    (preds.foldl (fun p e => setPredBit p e.1 e.2) p).getLsbD k =
      match (if k = 0 then none else preds.reverse.find? (fun e => e.1 == k)) with
      | some e => e.2
      | none => p.getLsbD k := by
  induction preds generalizing p with
  | nil => cases k <;> rfl
  | cons e l ih =>
    rw [List.foldl_cons, ih, List.reverse_cons, List.find?_append, List.find?_singleton, getLsbD_setPredBit p _ _ hk]
    by_cases hk0 : k = 0
    · simp only [hk0, if_true]
    · simp only [hk0, if_false]
      cases l.reverse.find? (fun e => e.1 == k) with
      | some e' => rfl
      | none => by_cases hjk : e.1 = k <;> simp [hjk]

/-! ### Counting an event (R396) -/

section

variable (s : State) (t ev n : Nat)

@[simp] theorem countPerf_ctx (g : Nat) : (countPerf s t ev n).ctx g = s.ctx g :=
  countPerf_keeps (State.ctx · g) (fun _ _ _ => rfl) s t ev n

@[simp] theorem countPerf_mem : (countPerf s t ev n).mem = s.mem :=
  countPerf_keeps State.mem (fun _ _ _ => rfl) s t ev n

/-- Counting an event changes the performance counters of its tile alone. -/
theorem tile_countPerf (u : Nat) : ∃ p, (countPerf s t ev n).tile u = { s.tile u with perf := p } := by
  unfold countPerf
  split
  · by_cases hu : u = t
    · exact ⟨_, by rw [hu, State.tile_modTile]⟩
    · exact ⟨(s.tile u).perf, State.tile_modTile_other _ _ hu⟩
  · exact ⟨(s.tile u).perf, rfl⟩

/-- A field of a tile other than its performance counters. -/
theorem tileField_countPerf {β : Type} (π : Tile → β) (hπ : ∀ x p, π { x with perf := p } = π x) (u : Nat) :
    π ((countPerf s t ev n).tile u) = π (s.tile u) := by
  obtain ⟨p, hp⟩ := tile_countPerf s t ev n u
  rw [hp, hπ]

end

/-- What a read sees depends on memory and the merge paths alone. -/
theorem visRead_congr {s t : State} (hmem : t.mem = s.mem) (hmerge : ∀ u, (t.tile u).merge = (s.tile u).merge)
    (k n : Nat) : visRead t k n = visRead s k n := by
  rw [visRead, visRead, hmem, hmerge]

/-! ### The acts of a bundle (R95) -/

/-- The state in which the acts of a bundle are done. -/
def staged (s : State) (g : Nat) (st : Stage) (acts : List Act) : State :=
  s.modCtx g (fun c => { c with stage := some { st with next := s.after, acts := acts } })

/-- The acts of a bundle as its end does them: tagged with the generation, the masks last (R294, R302). -/
def actsOf (s : State) (g : Nat) (st : Stage) : List Act :=
  orderActs (st.acts.map (Act.tagged (tagOf s (tileOf g) (s.ctx g).asid)))

/-- Whether the end of a wait also ends a raise of priorities (R55). -/
def Waiting.raises : Waiting → Bool
  | .join _ | .barrier .. => true
  | _ => false

section

variable {s s1 : State} {g : Nat} {st : Stage} {acts : List Act}

theorem finishBundle_acts (hguard : st.guardAt = none) (hpend : st.pend = none) (htrap : st.trap = none)
    (hsave : ((s.ctx g).saveDue && !owesGroup s g && !st.part) = false) (hresume : (s.ctx g).resume = none) :
    finishBundle s g st = continueBundle (staged s g st (actsOf s g st)) g (actsOf s g st) := by
  simp only [finishBundle, hguard, hpend, htrap, hsave, hresume, Bool.false_eq_true, if_false, staged, actsOf]

theorem actsDone_commits (hresume : (s.ctx g).resume = none) : actsDone s g st = commitBundle s g st := by
  simp only [actsDone, hresume]

theorem continueBundle_commits (hrun : runActs s g acts = (s1, none)) (hstage : (s1.ctx g).stage = some st)
    (hresume : (s1.ctx g).resume = none) : continueBundle s g acts =
      if Waiting.raises (s.ctx g).waiting then inherit (commitBundle s1 g st) else commitBundle s1 g st := by
  simp only [continueBundle, hrun, hstage, actsDone_commits hresume]
  cases (s.ctx g).waiting <;> rfl

theorem continueBundle_waits {w : Waiting} {rest : List Act} (hrun : runActs s g acts = (s1, some (w, rest))) :
    continueBundle s g acts =
      let s2 := s1.modCtx g (fun c => { c with
        st := .wait, waiting := w, stage := c.stage.map (fun st => { st with acts := rest }) })
      if Waiting.raises w then inherit s2 else s2 := by
  simp only [continueBundle, hrun]
  cases w <;> rfl

theorem runActs_next {a : Act} {r : List Act} (ha : doAct s g a = .next s1) : runActs s g (a :: r) = runActs s1 g r := by
  simp only [runActs, ha]

theorem runActs_wait {a : Act} {r first : List Act} {w : Waiting} (ha : doAct s g a = .wait s1 w first) :
    runActs s g (a :: r) = (s1, some (w, first ++ r)) := by
  simp only [runActs, ha]

end

/-! ### The bundle completes (R94, R95, R108) -/

/-- A context with the results of its bundle, back in RUN. -/
def completed (c : Ctx) (st : Stage) : Ctx :=
  { c.applyStage st with st := .run, waiting := .none, stage := none, resume := none, lastBpc := st.bpc }

/-- Where a context goes on after a bundle that does not end it (R108, R162, R168, R176). -/
def goesOn (st : Stage) (c : Ctx) : Ctx :=
  match st.xfer with
  | some (.jump a) => { c with pc := a, line := none }
  | some (.breakLoop a) => { c.breakLevel st.loopOpen.isSome with pc := a, line := none }
  | some (.sysret a) => sysReturn c a
  | _ => c.loopNext st.bpc st.next

/-- The state in which a bundle that does not end its context has completed. -/
def committed (s : State) (g : Nat) (st : Stage) : State :=
  (countPerf (s.modCtx g (completed · st)) (tileOf g) 0 1).modCtx g (goesOn st)

section

variable {s : State} {g : Nat} {st : Stage}

@[simp] theorem committed_ctx : (committed s g st).ctx g = goesOn st (completed (s.ctx g) st) := by
  simp [committed]

theorem committed_ctx_other {k : Nat} (hk : k ≠ g) : (committed s g st).ctx k = s.ctx k := by
  rw [committed, State.ctx_modCtx_other _ _ hk, countPerf_ctx, State.ctx_modCtx_other _ _ hk]

/-- Nothing but contexts and the counters of the tile changes. -/
theorem committed_keeps {γ : Type} (π : State → γ) (hctx : ∀ s k c, π (State.setCtx s k c) = π s)
    (htile : ∀ s t x, π (State.setTile s t x) = π s) : π (committed s g st) = π s := by
  rw [committed, State.modCtx, hctx, countPerf_keeps π htile, State.modCtx, hctx]

@[simp] theorem committed_mem : (committed s g st).mem = s.mem := committed_keeps _ (fun _ _ _ => rfl) (fun _ _ _ => rfl)

theorem tile_committed (u : Nat) : ∃ p, (committed s g st).tile u = { s.tile u with perf := p } :=
  tile_countPerf _ _ _ _ u

theorem visRead_committed (k n : Nat) : visRead (committed s g st) k n = visRead s k n :=
  visRead_congr committed_mem (fun u => by obtain ⟨p, hp⟩ := tile_committed (s := s) (g := g) (st := st) u; rw [hp]) k n

/-- A bundle whose waits checked no reply reports none (R278). -/
theorem failedReply_of_no_check (c : Ctx) (t : Nat) (hchecks : st.checks = []) : failedReply c t st = none := by
  simp [failedReply, Stage.reporter, hchecks]

theorem failedReply_of_no_fail {c : Ctx} (t : Nat) (hfail : c.fail = []) : failedReply c t st = none := by
  simp [failedReply, hfail]

theorem replyTrap_none (h : failedReply (s.ctx g) (tileOf g) st = none) : replyTrap s g st = s := by
  simp only [replyTrap, h]

theorem commitBundle_inherits (hxfer : ∀ a b, st.xfer ≠ some (.done a b)) : commitBundle s g st =
    replyTrap (if st.cregs.any (fun e => e.1 == 4) then inherit (committed s g st) else committed s g st) g st := by
  unfold commitBundle committed
  split
  · exact absurd ‹_› (hxfer _ _)
  · rfl

theorem commitBundle_eq (hxfer : ∀ a b, st.xfer ≠ some (.done a b)) (hcregs : st.cregs = [])
    (hreply : failedReply ((committed s g st).ctx g) (tileOf g) st = none) : commitBundle s g st = committed s g st := by
  rw [commitBundle_inherits hxfer, hcregs]
  exact replyTrap_none hreply

end

/-! ### The end of a bundle that stages no act -/

/-- The bundle that has completed, with its sequential next address. -/
abbrev ended (s : State) (st : Stage) (acts : List Act) : Stage := { st with next := s.after, acts := acts }

/-- The bundle ends with its own results: nothing is reported, and no pre-emption drops it (R410). -/
def Ends (s : State) (st : Stage) : Prop :=
  st.guardAt = none ∧ st.pend = none ∧ st.trap = none ∧ st.checks = [] ∧
    ((me s).saveDue && !owesGroup s s.cur && !st.part) = false ∧ (me s).waiting = .none ∧ (me s).resume = none

theorem ends_of_clean {s : State} {st : Stage} (hclean : Clean s st) : Ends s st := by
  obtain ⟨hguard, hpend, htrap, hchecks, hsave, hwaiting, hresume⟩ := hclean
  exact ⟨hguard, hpend, htrap, hchecks, by rw [hsave]; rfl, hwaiting, hresume⟩

/-- The context of the bundle at its end, and what the others and the rest of the state keep. -/
theorem staged_ctx (s : State) (g : Nat) (st : Stage) (acts : List Act) :
    (staged s g st acts).ctx g = { s.ctx g with stage := some (ended s st acts) } := State.ctx_modCtx ..

section

variable {s : State} {h : Head} {st : Stage}

theorem after_of_clean (hlast : h.chain = false) (hends : Ends s st) (hacts : st.acts = []) :
    after s h st = commitBundle (staged s s.cur st []) s.cur (ended s st []) := by
  obtain ⟨hguard, hpend, htrap, hchecks, hsave, hwaiting, hresume⟩ := hends
  have hnone : actsOf s s.cur st = [] := by rw [actsOf, hacts]; rfl
  rw [after_of_last hlast, finishBundle_acts hguard hpend htrap hsave hresume, hnone,
    continueBundle_commits (s1 := staged s s.cur st []) rfl (by rw [staged_ctx])
      (by rw [staged_ctx]; exact hresume), staged_ctx]
  simp only [hwaiting]
  rfl

/-- A bundle that writes no control register and does not end its context. -/
theorem after_of_plain (hlast : h.chain = false) (hends : Ends s st) (hacts : st.acts = [])
    (hxfer : ∀ a b, st.xfer ≠ some (.done a b)) (hcregs : st.cregs = []) :
    after s h st = committed (staged s s.cur st []) s.cur (ended s st []) := by
  obtain ⟨hguard, hpend, htrap, hchecks, hsave, hwaiting, hresume⟩ := hends
  rw [after_of_clean hlast ⟨hguard, hpend, htrap, hchecks, hsave, hwaiting, hresume⟩ hacts]
  exact commitBundle_eq hxfer hcregs (failedReply_of_no_check _ _ hchecks)

/-- What a bundle leaves does not depend on where it stands in its context. -/
theorem completed_ended (c : Ctx) (o : Option Stage) (acts : List Act) (hcregs : st.cregs = []) :
    completed { c with stage := o } (ended s st acts) = completed c st := by
  cases hloop : st.loopOpen with
  | none =>
    rw [completed, completed, applyStage_eq _ hcregs hloop, applyStage_eq _ (st := ended s st acts) hcregs hloop]
  | some x =>
    rw [completed, completed, applyStage_opens _ hcregs hloop, applyStage_opens _ (st := ended s st acts) hcregs hloop,
      applyStage_eq _ (st := { st with loopOpen := none }) hcregs rfl,
      applyStage_eq _ (st := { ended s st acts with loopOpen := none }) hcregs rfl]
    rfl

/-- The context after such a bundle. -/
theorem ctx_after_of_plain (hlast : h.chain = false) (hends : Ends s st) (hacts : st.acts = [])
    (hxfer : ∀ a b, st.xfer ≠ some (.done a b)) (hcregs : st.cregs = []) :
    (after s h st).ctx s.cur = goesOn (ended s st []) (completed (me s) st) := by
  rw [after_of_plain hlast hends hacts hxfer hcregs, committed_ctx, staged_ctx, completed_ended _ _ _ hcregs]

end

/-- A head with its CHAIN bit touches its context alone. -/
theorem chainedHeads : ChainedHeads := by
  intro s h st hchain t next
  have ht : t = s.modCtx s.cur (fun c => { c with stage := some next, resume := resumeAt c next }) := by
    change nextHeadOf s s.cur h.chain st = _
    rw [nextHeadOf, hchain]
    rfl
  rw [ht]
  refine ⟨?_, fun g hg => State.ctx_modCtx_other _ _ hg, rfl⟩
  rw [State.ctx_modCtx]
  rfl

/-! ### Loops (R167) -/

theorem loops_dropLast_of_innermost {c : Ctx} {j : Nat} {l : LoopLevel} (hlevel : c.innermost = some (j, l)) :
    c.loops.take j = c.loops.dropLast := by
  unfold Ctx.innermost at hlevel
  split at hlevel
  · obtain ⟨rfl, -⟩ := Prod.mk.inj (Option.some.inj hlevel)
    exact (List.dropLast_eq_take ..).symm
  · exact absurd hlevel (by simp)

theorem getD_setLc (c : Ctx) {k : Nat} (v : BitVec 32) (j : Nat) (hk : k < 3) :
    (c.setLc k v).lc.toList.getD j 0 = if j = k then v else c.lc.toList.getD j 0 := by
  simp only [Ctx.setLc, hk, dif_pos, Vector.toList_set, List.getD_eq_getElem?_getD, List.getElem?_set]
  by_cases hj : k = j
  · simp [hj, hj ▸ hk]
  · simp [hj, Ne.symm hj]

theorem loopNext_none {c : Ctx} {bpc next : Nat} (h : c.innermost = none) : c.loopNext bpc next = { c with pc := next } := by
  rw [Ctx.loopNext, h]

section

variable {c : Ctx} {bpc next j : Nat} {l : LoopLevel}

theorem has_iff {a : Nat} : l.has a = true ↔ l.start ≤ a ∧ a < l.exit := decide_eq_true_iff

theorem loopNext_outside (h : c.innermost = some (j, l)) (hout : ¬(l.start ≤ bpc ∧ bpc < l.exit) ∨ next ≠ l.exit) :
    c.loopNext bpc next = { c with pc := next } := by
  have hno : ¬(l.has bpc && next == l.exit) = true := by
    rw [Bool.and_eq_true, has_iff, beq_iff_eq]
    tauto
  rw [Ctx.loopNext, h]
  exact if_neg hno

theorem loopNext_exit (h : c.innermost = some (j, l)) (hin : l.start ≤ bpc ∧ bpc < l.exit) (hexit : next = l.exit) :
    c.loopNext bpc next = if 1 < (c.lc.toList.getD j 0).toNat
      then { c.setLc j (BitVec.ofNat 32 ((c.lc.toList.getD j 0).toNat - 1)) with pc := l.start }
      else { (c.setLc j 0).closeTo j with pc := next } := by
  rw [Ctx.loopNext, h]
  exact if_pos (by rw [Bool.and_eq_true, has_iff, beq_iff_eq]; exact ⟨hin, hexit⟩)

end

/-- Settles O15, level by level of `loopNext`. -/
theorem loopBack : Obligations.LoopBack := by
  intro s h st hlast hclean hacts hxfer hloop hcregs c c'
  have hends := ends_of_clean hclean
  have hc' : c' = (completed c st).loopNext st.bpc s.after := by
    refine (ctx_after_of_plain hlast hends hacts (by simp [hxfer]) hcregs).trans ?_
    rw [goesOn, hxfer]
  have hloops : (completed c st).loops = c.loops := by rw [completed, applyStage_eq c hcregs hloop]
  have hlc : (completed c st).lc = c.lc := by rw [completed, applyStage_eq c hcregs hloop]
  have hinner : (completed c st).innermost = c.innermost := by rw [Ctx.innermost, hloops]; rfl
  rw [hc']
  refine ⟨fun hnone => ?none, fun j l hlevel hj => ?level⟩
  case none =>
    rw [loopNext_none (hinner.trans hnone)]
    exact ⟨rfl, hloops, hlc⟩
  case level =>
    intro n inside
    have hlevel' := hinner.trans hlevel
    refine ⟨fun hin hexit hn => ?_, fun hin hexit hn => ?_, fun hout => ?_⟩
    · rw [loopNext_exit hlevel' hin hexit, hlc, if_pos hn]
      refine ⟨rfl, hloops, ?_⟩
      have hlt : n - 1 < 2 ^ 32 := by have := (c.lc.toList.getD j 0).isLt; omega
      exact (congrArg BitVec.toNat ((getD_setLc _ _ j hj).trans (if_pos rfl))).trans
        (by rw [BitVec.toNat_ofNat, Nat.mod_eq_of_lt hlt])
    · rw [loopNext_exit hlevel' hin hexit, hlc, if_neg (Nat.not_lt.mpr hn)]
      refine ⟨rfl, (congrArg (List.take j) hloops).trans (loops_dropLast_of_innermost hlevel), ?_⟩
      exact congrArg BitVec.toNat ((getD_setLc _ _ j hj).trans (if_pos rfl))
    · rw [loopNext_outside hlevel' hout]
      exact ⟨rfl, hloops, hlc⟩

/-! ### The frame of a bundle that only writes registers (R94, R98, R108) -/

section

variable {s : State} {h : Head} {st : Stage}

/-- Outside loops a bundle without a transfer moves on to the sequential next address. -/
theorem ctx_after_of_straight (hlast : h.chain = false) (hends : Ends s st) (hacts : st.acts = [])
    (hxfer : st.xfer = none) (hcregs : st.cregs = []) (hopen : st.loopOpen = none) (hloops : (me s).loops = []) :
    (after s h st).ctx s.cur = { completed (me s) st with pc := s.after } := by
  have hnone : (completed (me s) st).innermost = none := by
    rw [completed, applyStage_eq _ hcregs hopen, Ctx.innermost, hloops]
    rfl
  rw [ctx_after_of_plain hlast hends hacts (by simp [hxfer]) hcregs, goesOn]
  simp only [hxfer]
  exact loopNext_none hnone

/-- The end of a bundle without acts leaves every other context. -/
theorem ctx_after_other {g : Nat} (hlast : h.chain = false) (hends : Ends s st) (hacts : st.acts = [])
    (hxfer : ∀ a b, st.xfer ≠ some (.done a b)) (hcregs : st.cregs = []) (hg : g ≠ s.cur) :
    (after s h st).ctx g = s.ctx g := by
  rw [after_of_plain hlast hends hacts hxfer hcregs, committed_ctx_other hg]
  exact State.ctx_modCtx_other _ _ hg

/-- It leaves everything but contexts and the counters of the tile. -/
theorem after_keeps {γ : Type} (π : State → γ) (hctx : ∀ s k c, π (State.setCtx s k c) = π s)
    (htile : ∀ s t x, π (State.setTile s t x) = π s) (hlast : h.chain = false) (hends : Ends s st)
    (hacts : st.acts = []) (hxfer : ∀ a b, st.xfer ≠ some (.done a b)) (hcregs : st.cregs = []) :
    π (after s h st) = π s := by
  rw [after_of_plain hlast hends hacts hxfer hcregs, committed_keeps π hctx htile, staged, State.modCtx, hctx]

end

theorem bundlesComplete : BundlesComplete := by
  intro s h st hlast hclean hacts hxfer hlink hopen hcregs hloops hq t c c'
  have hends := ends_of_clean hclean
  have hdone : ∀ a b, st.xfer ≠ some (.done a b) := by simp [hxfer]
  have ht : t = committed (staged s s.cur st []) s.cur (ended s st []) :=
    after_of_plain hlast hends hacts hdone hcregs
  have hc' : c' = { completed c st with pc := s.after } :=
    ctx_after_of_straight hlast hends hacts hxfer hcregs hopen hloops
  have keeps {γ : Type} (π : State → γ) (hctx : ∀ s k c, π (State.setCtx s k c) = π s)
      (htile : ∀ s t x, π (State.setTile s t x) = π s) : π t = π s :=
    after_keeps π hctx htile hlast hends hacts hdone hcregs
  rw [completed, applyStage_eq c hcregs hopen, hlink] at hc'
  rw [hc']
  refine ⟨rfl, rfl, rfl, foldl_pushQ _ _ hq, getElem_regsAfter _ _, fun k => getLsbD_foldl_setPredBit _ _, rfl, rfl, rfl, rfl,
    rfl, rfl, rfl, rfl, rfl, rfl, rfl, rfl, rfl, rfl, rfl, rfl, fun hv => ?_, fun hv => ?_, fun hpops hstreams => ?_,
    fun g hg => ctx_after_other hlast hends hacts hdone hcregs hg, keeps State.mem (fun _ _ _ => rfl) (fun _ _ _ => rfl),
    fun k n => ht ▸ visRead_committed k n, fun u => ?_,
    keeps State.launches (fun _ _ _ => rfl) (fun _ _ _ => rfl), keeps State.pkts (fun _ _ _ => rfl) (fun _ _ _ => rfl),
    keeps State.queues (fun _ _ _ => rfl) (fun _ _ _ => rfl), keeps State.life (fun _ _ _ => rfl) (fun _ _ _ => rfl),
    keeps State.mgmt (fun _ _ _ => rfl) (fun _ _ _ => rfl), keeps State.routes (fun _ _ _ => rfl) (fun _ _ _ => rfl),
    keeps State.tileMap (fun _ _ _ => rfl) (fun _ _ _ => rfl)⟩
  · simp only [hv, List.foldl_nil]
  · simp only [hv]
  · simp only [hpops, hstreams]
    rfl
  · obtain ⟨p, hp⟩ := tile_committed (s := staged s s.cur st []) (g := s.cur) (st := ended s st []) u
    rw [ht, hp]
    rfl

/-! ### Transfers, loops and control registers at the end of a bundle (R95, R162-R168, R176, R177) -/

/-- The bits of a register one of whose fields is written. -/
theorem getLsbD_putFld (v : Word) (lo len x : Nat) {k : Nat} (hk : k < 64) :
    (putFld v lo len x).getLsbD k = if lo ≤ k ∧ k < lo + len then x.testBit (k - lo) else v.getLsbD k := by
  have hbits := testBit_replaceField v.toNat (x % 2 ^ len) (pos := lo) (Nat.mod_lt _ (by positivity)) k
  rw [putFld, BitVec.getLsbD_ofNat, decide_eq_true hk, Bool.true_and]
  refine hbits.trans ?_
  by_cases hin : lo ≤ k ∧ k < lo + len
  · rw [if_pos hin, if_pos hin, Nat.testBit_mod_two_pow, decide_eq_true (by omega : k - lo < len), Bool.true_and]
  · rw [if_neg hin, if_neg hin]
    rfl

/-- A context whose priority is raised: nothing changes but what it inherits and EFF (R55). -/
def Raised (c d : Ctx) : Prop :=
  ∃ i p, d = { c with inherited := i, pri := p } ∧ p.extractLsb' 0 2 = c.pri.extractLsb' 0 2

theorem Raised.refl (c : Ctx) : Raised c c := ⟨c.inherited, c.pri, rfl, rfl⟩

theorem Raised.trans {a b c : Ctx} (hab : Raised a b) (hbc : Raised b c) : Raised a c := by
  obtain ⟨i, p, rfl, hp⟩ := hab
  obtain ⟨j, q, rfl, hq⟩ := hbc
  exact ⟨j, q, rfl, hq.trans hp⟩

theorem raised_priWord (c : Ctx) (i : Nat) : Raised c { c with inherited := i, pri := priWord (fld c.pri 0 2) i } := by
  refine ⟨i, _, rfl, ?_⟩
  rw [extractLsb'_priWord_base, fld_eq_extractLsb', BitVec.ofNat_toNat, BitVec.setWidth_eq]

/-- Entries of a table that are related one by one. -/
theorem tabGet_map {β : Type} {R : β → β → Prop} {d : β} {f : Nat × β → Nat × β} (hd : R d d)
    (hf : ∀ e, (f e).1 = e.1 ∧ R e.2 (f e).2) (m : List (Nat × β)) (k : Nat) :
    R (tabGet d m k) (tabGet d (m.map f) k) := by
  induction m with
  | nil => exact hd
  | cons e r ih =>
    obtain ⟨hkey, hrel⟩ := hf e
    simp only [tabGet, storeGet, List.map_cons, hkey]
    split
    · exact hrel
    · exact ih

theorem raised_ownPri (s : State) (g : Nat) : Raised (s.ctx g) ((ownPri s).ctx g) := by
  refine tabGet_map (Raised.refl _) (fun e => ?_) s.ctxs g
  cases e.2.trig with
  | none => exact ⟨rfl, .refl _⟩
  | some t => exact ⟨rfl, raised_priWord e.2 0⟩

theorem raised_raiseCtxs (s : State) (g : Nat) : Raised (s.ctx g) ((raiseCtxs s).ctx g) := by
  refine tabGet_map (Raised.refl _) (fun e => ?_) s.ctxs g
  cases e.2.trig with
  | none => exact ⟨rfl, .refl _⟩
  | some t => exact ⟨rfl, raised_priWord e.2 _⟩

/-- Records of tiles are raised beside the contexts. -/
theorem inherit_ctxs (s : State) : (inherit s).ctxs = (raiseCtxs (raiseCtxs (raiseCtxs (raiseCtxs (ownPri s))))).ctxs := by
  rw [inherit]

theorem raised_inherit (s : State) (g : Nat) : Raised (s.ctx g) ((inherit s).ctx g) := by
  rw [ctx_eq_of_ctxs (inherit_ctxs s)]
  exact ((((raised_ownPri s g).trans (raised_raiseCtxs _ g)).trans (raised_raiseCtxs _ g)).trans
    (raised_raiseCtxs _ g)).trans (raised_raiseCtxs _ g)

/-- The end of a bundle that writes control registers, up to the priorities that it may raise (R177). -/
theorem after_of_cregs {s : State} {h : Head} {st : Stage} (hlast : h.chain = false) (hends : Ends s st)
    (hacts : st.acts = []) (hxfer : ∀ a b, st.xfer ≠ some (.done a b)) :
    after s h st = if st.cregs.any (fun e => e.1 == 4) then inherit (committed (staged s s.cur st []) s.cur (ended s st []))
      else committed (staged s s.cur st []) s.cur (ended s st []) := by
  have hchecks : st.checks = [] := hends.2.2.2.1
  rw [after_of_clean hlast hends hacts, commitBundle_inherits (st := ended s st []) hxfer]
  exact replyTrap_none (failedReply_of_no_check _ _ hchecks)

theorem loopNext_frame (c : Ctx) (bpc next : Nat) :
    ∃ pc loops body lc, c.loopNext bpc next = { c with pc := pc, loops := loops, body := body, lc := lc } := by
  unfold Ctx.loopNext
  split
  · split
    · simp only
      split
      · exact ⟨_, _, _, _, rfl⟩
      · exact ⟨_, _, _, _, rfl⟩
    · exact ⟨next, c.loops, c.body, c.lc, rfl⟩
  · exact ⟨next, c.loops, c.body, c.lc, rfl⟩

theorem breakLevel_frame (c : Ctx) (opened : Bool) :
    ∃ loops body lc, c.breakLevel opened = { c with loops := loops, body := body, lc := lc } := by
  cases opened <;> simp only [Ctx.breakLevel, Bool.false_eq_true, if_false, if_true] <;> split <;>
    exact ⟨_, _, _, rfl⟩

/-- A transfer changes the place of a context, its loops and its mode alone. -/
theorem goesOn_frame (st : Stage) (c : Ctx) : ∃ pc line loops body lc status faulted, goesOn st c =
    { c with pc := pc, line := line, loops := loops, body := body, lc := lc, status := status, faulted := faulted } := by
  unfold goesOn
  split
  · exact ⟨_, none, c.loops, c.body, c.lc, c.status, c.faulted, rfl⟩
  · obtain ⟨loops, body, lc, h⟩ := breakLevel_frame c st.loopOpen.isSome
    rw [h]
    exact ⟨_, none, loops, body, lc, c.status, c.faulted, rfl⟩
  · exact ⟨_, none, c.loops, c.body, c.lc, _, none, rfl⟩
  · obtain ⟨pc, loops, body, lc, h⟩ := loopNext_frame c st.bpc st.next
    rw [h]
    exact ⟨pc, c.line, loops, body, lc, c.status, c.faulted, rfl⟩

theorem innermost_of_last {c : Ctx} {l : LoopLevel} {r : List LoopLevel} (h : c.loops = r ++ [l]) :
    c.innermost = some (r.length, l) := by
  simp [Ctx.innermost, h]

/-- LBRK closes the innermost level and clears its counter (R168). -/
theorem breakLevel_eq {c : Ctx} (h : c.loops ≠ []) :
    c.breakLevel false = (c.setLc (c.loops.length - 1) 0).closeTo (c.loops.length - 1) := by
  have hn : c.loops.length ≠ 0 := by simpa using h
  simp [Ctx.breakLevel, hn]

theorem bundleTransfers : BundleTransfers := by
  intro s h st hlast hclean hacts c c'
  have hends := ends_of_clean hclean
  have goes (hcregs : st.cregs = []) (hxfer : ∀ a b, st.xfer ≠ some (.done a b)) :
      c' = goesOn (ended s st []) (completed c st) := ctx_after_of_plain hlast hends hacts hxfer hcregs
  refine ⟨fun a hjump hopen hcregs => ?jump, fun v hlink hcregs hxfer => ?link,
    fun a hbreak hopen hcregs hsome hlen => ?leave, fun a hret hopen hcregs => ?sysret,
    fun k n l hopen hxfer hcregs hk hbpc => ?opens, fun i v hcregs hxfer hopen hloops => ?creg⟩
  case jump =>
    rw [goes hcregs (by simp [hjump]), goesOn, completed, applyStage_eq c hcregs hopen]
    simp only [hjump]
    exact ⟨trivial, trivial, trivial, trivial, trivial, trivial⟩
  case link =>
    obtain ⟨pc, line, loops, body, lc, status, faulted, hgoes⟩ := goesOn_frame (ended s st []) (completed c st)
    rw [goes hcregs hxfer, hgoes]
    exact applyStage_link c hcregs hlink
  case leave =>
    have hloops : (completed c st).loops = c.loops := by rw [completed, applyStage_eq c hcregs hopen]
    have hlc : (completed c st).lc = c.lc := by rw [completed, applyStage_eq c hcregs hopen]
    have hpos : 0 < c.loops.length := List.length_pos_iff.mpr hsome
    rw [goes hcregs (by simp [hbreak]), goesOn]
    simp only [hbreak, hopen, Option.isSome_none]
    rw [breakLevel_eq (hloops ▸ hsome), hloops]
    refine ⟨rfl, rfl, trivial, (congrArg (List.take _) hloops).trans (List.dropLast_eq_take ..).symm, fun j hj => ?_⟩
    refine (getD_setLc _ 0 j (by omega)).trans ?_
    rw [hlc]
    exact if_congr (by omega) rfl rfl
  case sysret =>
    rw [goes hcregs (by simp [hret]), goesOn, completed, applyStage_eq c hcregs hopen]
    simp only [hret]
    refine ⟨rfl, rfl, rfl, rfl, rfl, fun k hk => ?_⟩
    rw [sysReturn, getLsbD_putFld _ _ _ _ hk, Nat.zero_testBit]
    exact if_congr (by omega) rfl rfl
  case opens =>
    have hopened := applyStage_opens c hcregs hopen
    rw [applyStage_eq c (st := { st with loopOpen := none }) hcregs rfl] at hopened
    have hloops : (completed c st).loops = c.loops ++ [l] := by rw [completed, hopened]
    have hbody : (completed c st).body = if c.loops.isEmpty then st.body else c.body := by rw [completed, hopened]
    have hlc : ∀ j, (completed c st).lc.toList.getD j 0 = if j = k then BitVec.ofNat 32 n else c.lc.toList.getD j 0 := by
      intro j
      rw [completed, hopened]
      exact getD_setLc _ _ j hk
    rw [goes hcregs (by simp [hxfer]), goesOn]
    simp only [hxfer]
    rw [loopNext_outside (innermost_of_last hloops) (.inl fun hin => absurd hin.1 (Nat.not_le.mpr hbpc))]
    exact ⟨rfl, rfl, rfl, hloops, hbody.trans (if_congr List.isEmpty_iff rfl rfl), fun j hj => hlc j⟩
  case creg =>
    have hdone : ∀ a b, st.xfer ≠ some (.done a b) := by simp [hxfer]
    obtain ⟨-, -, -, hbase, -, -, -, -, hframe⟩ := controlRegisterWrites c v
    obtain ⟨hstatus, -, -, -, -, -, -, -, hpri, -⟩ := hframe i
    set t := committed (staged s s.cur st []) s.cur (ended s st []) with ht
    have htctx : t.ctx s.cur = goesOn (ended s st []) (completed { c with stage := some (ended s st []) } (ended s st [])) := by
      rw [ht, committed_ctx, staged_ctx]
    have hloops' : (c.writeCreg i v).loops = [] := by
      match i with
      | 0 | 1 | 2 | 3 | 4 | 5 | _ + 6 => exact hloops
    rw [goesOn, completed, applyStage_creg c _ (st := ended s st []) hcregs hopen] at htctx
    simp only [hxfer] at htctx
    rw [loopNext_none (by simp [Ctx.innermost, hloops'])] at htctx
    have hraised : Raised (t.ctx s.cur) c' := by
      rw [show c' = (after s h st).ctx s.cur from rfl, after_of_cregs hlast hends hacts hdone]
      split
      · exact raised_inherit _ _
      · exact .refl _
    have hsame : i ≠ 4 → c' = t.ctx s.cur := by
      intro hi
      rw [show c' = (after s h st).ctx s.cur from rfl, after_of_cregs hlast hends hacts hdone, hcregs]
      simp [hi, ht]
    obtain ⟨j, p, hc', hp⟩ := hraised
    rw [htctx] at hsame hc' hp
    refine ⟨by rw [hc'], by rw [hc'], by rw [hc'], by rw [hc']; exact hstatus, by rw [hc'], by rw [hc'], by rw [hc'],
      by rw [hc'], fun hi => by rw [hsame hi]; exact hpri hi, fun hi => ?_⟩
    rw [hc']
    exact hp.trans (by subst hi; exact hbase)

end Sys2Proof.Proofs
end

section

/-! The frame of the register-only instructions (R91-R98): each completes with one value pushed or one predicate set,
so the end of its bundle changes nothing else. -/

namespace Sys2Proof.Proofs

open Sys2Proof.Machine Sys2Proof.Laws Sys2Proof.Stated

/-! ### What the operands and the results of such a head leave -/

/-- A source changes nothing of the bundle but its pops (R97). -/
theorem readSrc_pops {cl : LitClass} {c : Ctx} {t : Tail} {i : Nat} {x : Src} {st st' : Stage} {v : Word}
    (h : readSrc cl c t i x st = .ok (v, st')) : ∃ pops, st' = { st with pops := pops } := by
  have same {u : Word} (h : (Except.ok (u, st) : Except Stop (Word × Stage)) = .ok (v, st')) :
      ∃ pops, st' = { st with pops := pops } := ⟨st.pops, (Prod.mk.inj (Except.ok.inj h)).2.symm⟩
  cases x with
  | q a => exact same h
  | n r => exact same h
  | zero => exact same h
  | lit => exact same h
  | k => exact same h
  | pop k =>
    simp only [readSrc, popStream] at h
    split at h
    · exact absurd h (by simp)
    · split at h
      · exact ⟨_, (Prod.mk.inj (Except.ok.inj h)).2.symm⟩
      · split at h <;> exact absurd h (by simp)
      · split at h <;> exact absurd h (by simp)

/-- Whether a source can be read does not depend on how its literals are taken (R104). -/
theorem readSrc_class {cl : LitClass} (cl' : LitClass) {c : Ctx} {t : Tail} {i : Nat} {x : Src} {st st' : Stage}
    {v : Word} (h : readSrc cl c t i x st = .ok (v, st')) : ∃ v', readSrc cl' c t i x st = .ok (v', st') := by
  have same {u u' : Word} (h : (Except.ok (u, st) : Except Stop (Word × Stage)) = .ok (v, st')) :
      ∃ v', (Except.ok (u', st) : Except Stop (Word × Stage)) = .ok (v', st') :=
    ⟨u', by rw [(Prod.mk.inj (Except.ok.inj h)).2]⟩
  cases x with
  | q a => exact same h
  | n r => exact same h
  | zero => exact same h
  | lit => exact same h
  | k => exact same h
  | pop k => exact ⟨v, h⟩

/-- The three sources in their order (R94). -/
theorem operands_ok {cl : LitClass} {c : Ctx} {t : Tail} {st st' : Stage} {a b d : Word} :
    operands cl c t st = .ok (a, b, d, st') ↔ ∃ st1 st2, readSrc cl c t 0 (tailA t) st = .ok (a, st1) ∧
      readSrc cl c t 1 (tailB t) st1 = .ok (b, st2) ∧ readSrc cl c t 2 (tailC t) st2 = .ok (d, st') := by
  constructor
  · intro h
    unfold operands at h
    split at h
    · exact absurd h (by simp)
    next a' st1 ha =>
      split at h
      · exact absurd h (by simp)
      next b' st2 hb =>
        split at h
        · exact absurd h (by simp)
        next d' st3 hd =>
          obtain ⟨rfl, rfl, rfl, rfl⟩ : a' = a ∧ b' = b ∧ d' = d ∧ st3 = st' := by simpa using h
          exact ⟨st1, st2, ha, hb, hd⟩
  · rintro ⟨st1, st2, ha, hb, hd⟩
    simp only [operands, ha, hb, hd]

section

variable {cl : LitClass} {s : State} {t : Tail} {a b c : Word} {st : Stage}

theorem reads_pops (h : Reads cl s t a b c st) : ∃ pops, st = { bundle s with pops := pops } := by
  obtain ⟨st1, st2, ha, hb, hc⟩ := operands_ok.mp h
  obtain ⟨p, rfl⟩ := readSrc_pops ha
  obtain ⟨p', rfl⟩ := readSrc_pops hb
  obtain ⟨p'', rfl⟩ := readSrc_pops hc
  exact ⟨p'', rfl⟩

theorem reads_class (cl' : LitClass) (h : Reads cl s t a b c st) : ∃ a' b' c', Reads cl' s t a' b' c' st := by
  obtain ⟨st1, st2, ha, hb, hc⟩ := operands_ok.mp h
  obtain ⟨a', ha'⟩ := readSrc_class cl' ha
  obtain ⟨b', hb'⟩ := readSrc_class cl' hb
  obtain ⟨c', hc'⟩ := readSrc_class cl' hc
  exact ⟨a', b', c', operands_ok.mpr ⟨st1, st2, ha', hb', hc'⟩⟩

end

/-- One value is pushed, or one predicate is set, and flags are raised by the floating-point forms alone. -/
def Results (cl : LitClass) (t : Tail) (st st' : Stage) : Prop :=
  ∃ f : Flags, (cl ≠ .fp → f = 0) ∧
    ((∃ v, st' = (pushed st t v).raise f) ∨ ∃ b, st' = (st.setPred (tailM t / 32) b).raise f)

/-- An outcome is the end of the head with such results. -/
def Completes (cl : LitClass) (s : State) (h : Head) (t : Tail) (st : Stage) (o : Host.Outcome State Fault Refusal) :
    Prop := ∃ st', Results cl t st st' ∧ o = .next (after s h st')

theorem raise_zero (st : Stage) : st.raise 0 = st := by
  simp [Stage.raise]

section

variable {s : State} {h : Head} {t : Tail} {a b c : Word} {st : Stage} {cl : LitClass}

theorem completes_pushForm {f : State → Nat → Ctx → Word → Word → Word → Word} (hissues : Issues s h)
    (hreads : Reads cl s t a b c st) : Completes cl s h t st (pushForm cl h t s f) :=
  ⟨_, ⟨0, fun _ => rfl, .inl ⟨_, (raise_zero _).symm⟩⟩, pushForm_ok hissues.1 hissues.2 hreads⟩

/-- A comparison may take its literals otherwise than the form that names its operands (R149). -/
theorem completes_predForm {cl' : LitClass} {f : Ctx → Word → Word → Bool × Flags} (hissues : Issues s h)
    (hreads : Reads cl s t a b c st) (hf : cl ≠ .fp → ∀ c a b, (f c a b).2 = 0) :
    Completes cl s h t st (predForm cl' h t s f) := by
  obtain ⟨a', b', c', hreads'⟩ := reads_class cl' hreads
  exact ⟨_, ⟨_, fun hcl => hf hcl _ _ _, .inr ⟨_, rfl⟩⟩, predForm_ok hissues.1 hissues.2 hreads'⟩

theorem completes_fpForm {f : Rm → Bool → Nat → Nat → Nat → Nat × Flags} (hissues : Issues s h)
    (hreads : Reads .fp s t a b c st) : Completes .fp s h t st (fpForm h t s f) :=
  ⟨_, ⟨_, fun hcl => absurd rfl hcl, .inl ⟨_, rfl⟩⟩, fpForm_ok hissues.1 hissues.2 hreads⟩

theorem completes_runHead {f : State → Nat → Ctx → Stage → HeadResult} {n : Nat} {v : Word} {fl : Flags}
    (hissues : Issues s h) (hf : f s s.cur (me s) (bundle s) = .ok ((pushed st t v).raise fl)) :
    Completes .fp s h t st (runHead s h n f) :=
  ⟨_, ⟨fl, fun hcl => absurd rfl hcl, .inl ⟨v, rfl⟩⟩, runHead_ok hissues.1 hissues.2 hf⟩

theorem intInstrs_complete (hissues : Issues s h) (hreads : Reads (.int (tailSigned t)) s t a b c st) :
    ∀ i ∈ intInstrs h t, Completes (.int (tailSigned t)) s h t st (exec i s) := by
  have of {x y : Host.Outcome State Fault Refusal} (hxy : x = y) (hy : Completes (.int (tailSigned t)) s h t st y) :
      Completes (.int (tailSigned t)) s h t st x := hxy ▸ hy
  have push {f : State → Nat → Ctx → Word → Word → Word → Word} := completes_pushForm (f := f) hissues hreads
  have cond {cl'} {f : Ctx → Word → Word → Bool × Flags} (hf : ∀ c a b, (f c a b).2 = 0) :=
    completes_predForm (cl' := cl') (f := f) hissues hreads fun _ => hf
  simp only [intInstrs, List.forall_mem_cons]
  exact ⟨of (exec_add h t s) push, of (exec_sub h t s) push, of (exec_mul h t s) push,
    of (exec_mulh h t s) push, of (exec_madd h t s) push, of (exec_div h t s) push, of (exec_rem h t s) push,
    of (exec_neg h t s) push, of (exec_abs h t s) push, of (exec_min h t s) push, of (exec_max h t s) push,
    of (exec_adds h t s) push, of (exec_subs h t s) push, of (exec_and h t s) push, of (exec_or h t s) push,
    of (exec_xor h t s) push, of (exec_andn h t s) push, of (exec_orn h t s) push, of (exec_not h t s) push,
    of (exec_shl h t s) push, of (exec_shr h t s) push, of (exec_sar h t s) push, of (exec_rol h t s) push,
    of (exec_ror h t s) push, of (exec_clz h t s) push, of (exec_ctz h t s) push, of (exec_popc h t s) push,
    of (exec_brev h t s) push, of (exec_bswap h t s) push, of (exec_bfx h t s) push,
    of (exec_bfi h t s) push, of (exec_ext h t s) push, of (exec_cmp h t s) (cond fun _ _ _ => rfl),
    of (exec_test h t s) (cond fun _ _ _ => rfl), of (exec_btst h t s) (cond fun _ _ _ => rfl),
    of (exec_sel h t s) push, of (exec_mov h t s) push, of (exec_ldi h t s) push, of (exec_ldk h t s) push,
    of (exec_lea h t s) push, of (exec_alignup h t s) push, of (exec_aligndn h t s) push,
    of (exec_bound h t s) push, of (exec_bset h t s) push, of (exec_bclr h t s) push,
    of (exec_binv h t s) push, of (exec_perm h t s) push, of (exec_cls h t s) push,
    of (exec_absd h t s) push, of (exec_avg h t s) push, of (exec_mulw h t s) push,
    of (exec_shladd h t s) push,
    of (exec_pset h t s) (cond fun _ _ _ => rfl), fun _ hi => absurd hi List.not_mem_nil⟩

theorem fpInstrs_complete (hissues : Issues s h) (hreads : Reads .fp s t a b c st) :
    ∀ i ∈ fpInstrs h t, Completes .fp s h t st (exec i s) := by
  have of {x y : Host.Outcome State Fault Refusal} (hxy : x = y) (hy : Completes .fp s h t st y) :
      Completes .fp s h t st x := hxy ▸ hy
  have code {f : Rm → Bool → Nat → Nat → Nat → Nat × Flags} := completes_fpForm (f := f) hissues hreads
  have cond {f : Ctx → Word → Word → Bool × Flags} :=
    completes_predForm (cl' := .fp) (f := f) hissues hreads fun hcl => absurd rfl hcl
  have hops : operands .fp (me s) t (bundle s) = .ok (a, b, c, st) := hreads
  have toInt : Completes .fp s h t st (execFcvti h t s) := by
    rw [execFcvti]
    exact completes_runHead hissues (by simp only [hops]; rfl)
  have fromInt : Completes .fp s h t st (execIcvtf h t s) := by
    rw [execIcvtf]
    exact completes_runHead hissues (by simp only [hops]; rfl)
  have packed : Completes .fp s h t st (execFcvtn h t s) := by
    rw [execFcvtn]
    exact completes_runHead hissues (by simp only [hops]; rfl)
  simp only [fpInstrs, List.forall_mem_cons]
  exact ⟨of (exec_fadd h t s) code, of (exec_fsub h t s) code, of (exec_fmul h t s) code,
    of (exec_fdiv h t s) code, of (exec_fsqrt h t s) code, of (exec_fma h t s) code,
    of (exec_fms h t s) code, of (exec_fnma h t s) code, of (exec_fmin h t s) code,
    of (exec_fmax h t s) code, of (exec_fabs h t s) code, of (exec_fneg h t s) code,
    of (exec_fcpys h t s) code, of (exec_fcmp h t s) cond, of (exec_fclass h t s) code,
    of (exec_frint h t s) code, of (exec_fcvt h t s) code,
    of (exec_fcvti h t s) toInt,
    of (exec_icvtf h t s) fromInt,
    of (exec_fcvtn h t s) packed, of (exec_fcvtw h t s) code,
    of (exec_fminnum h t s) code, of (exec_fmaxnum h t s) code, of (exec_flogb h t s) code,
    of (exec_fexp2 h t s) code, of (exec_frcp h t s) code,
    of (exec_frsq h t s) code, fun _ hi => absurd hi List.not_mem_nil⟩

end

/-! ### The end of such a bundle -/

/-- A bundle that stages nothing but pushes, registers, predicates, flags and pops. -/
def Quiet (st : Stage) : Prop :=
  st.guardAt = none ∧ st.pend = none ∧ st.trap = none ∧ st.checks = [] ∧ st.acts = [] ∧ st.xfer = none ∧ st.link = none ∧
    st.loopOpen = none ∧ st.cregs = [] ∧ st.vregs = [] ∧ st.vshape = none ∧ st.part = false

theorem quiet_of_results {cl : LitClass} {t : Tail} {pc cyc : Nat} {pops : List Nat} {st' : Stage}
    (h : Results cl t { Stage.start pc cyc with pops := pops } st') : Quiet st' := by
  obtain ⟨f, -, ⟨v, rfl⟩ | ⟨b, rfl⟩⟩ := h
  · refine ⟨rfl, rfl, rfl, rfl, rfl, rfl, rfl, rfl, rfl, rfl, rfl, rfl⟩
  · refine ⟨rfl, rfl, rfl, rfl, rfl, rfl, rfl, rfl, rfl, rfl, rfl, rfl⟩

section

variable {s : State} {h : Head} {st : Stage}

/-- A due save drops the bundle, which is issued again; otherwise the bundle completes (R410). -/
theorem after_of_quiet (hlast : h.chain = false) (hquiet : Quiet st) (hwaiting : (me s).waiting = .none)
    (hresume : (me s).resume = none) :
    after s h st = s.modCtx s.cur (fun c => { c with stage := none, resume := none, tested := true }) ∨
      (Ends s st ∧ after s h st = committed (staged s s.cur st []) s.cur (ended s st [])) := by
  obtain ⟨hguard, hpend, htrap, hchecks, hacts, hxfer, -, -, hcregs, -, -, hpart⟩ := hquiet
  cases hsave : (me s).saveDue && !owesGroup s s.cur && !st.part with
  | true =>
    left
    rw [after_of_last hlast]
    simp only [finishBundle, hguard, hpend, htrap, hsave, if_true]
  | false =>
    have hends : Ends s st := ⟨hguard, hpend, htrap, hchecks, hsave, hwaiting, hresume⟩
    exact .inr ⟨hends, after_of_plain hlast hends hacts (by simp [hxfer]) hcregs⟩

/-- The context after such a bundle. -/
theorem ctx_after_of_quiet (hlast : h.chain = false) (hquiet : Quiet st) (hwaiting : (me s).waiting = .none)
    (hresume : (me s).resume = none) (hloops : (me s).loops = []) :
    (after s h st).ctx s.cur = { me s with stage := none, resume := none, tested := true } ∨
      (after s h st).ctx s.cur = { me s with
        q := st.pushes.foldl pushQ (me s).q
        p := st.preds.foldl (fun p e => setPredBit p e.1 e.2) (me s).p
        n := regsAfter (me s).n st.regs none
        fpctl := (me s).fpctl ||| BitVec.ofNat 64 st.flags
        streams := streamsAfter (me s).streams st.pops st.streams
        st := .run, waiting := .none, stage := none, resume := none, lastBpc := st.bpc, pc := s.after } := by
  obtain hdrop | ⟨hends, -⟩ := after_of_quiet hlast hquiet hwaiting hresume
  · exact .inl (by rw [hdrop, State.ctx_modCtx])
  · right
    obtain ⟨-, -, -, -, hacts, hxfer, hlink, hopen, hcregs, hvregs, hvshape, -⟩ := hquiet
    rw [ctx_after_of_straight hlast hends hacts hxfer hcregs hopen hloops, completed, applyStage_eq _ hcregs hopen, hlink,
      hvregs, hvshape]
    rfl

theorem ctx_after_of_quiet_other {g : Nat} (hlast : h.chain = false) (hquiet : Quiet st)
    (hwaiting : (me s).waiting = .none) (hresume : (me s).resume = none) (hg : g ≠ s.cur) :
    (after s h st).ctx g = s.ctx g := by
  obtain hdrop | ⟨hends, hends'⟩ := after_of_quiet hlast hquiet hwaiting hresume
  · rw [hdrop, State.ctx_modCtx_other _ _ hg]
  · rw [hends', committed_ctx_other hg, staged, State.ctx_modCtx_other _ _ hg]

theorem mem_after_of_quiet (hlast : h.chain = false) (hquiet : Quiet st) (hwaiting : (me s).waiting = .none)
    (hresume : (me s).resume = none) :
    (∀ k n, visRead (after s h st) k n = visRead s k n) ∧ (after s h st).mem = s.mem := by
  obtain hdrop | ⟨hends, hends'⟩ := after_of_quiet hlast hquiet hwaiting hresume
  · rw [hdrop]
    exact ⟨fun _ _ => rfl, rfl⟩
  · rw [hends']
    exact ⟨visRead_committed, committed_mem⟩

end

section

variable {cl : LitClass} {t : Tail} {pc cyc : Nat} {pops : List Nat} {st' : Stage}

/-- The registers, predicates and flags that such a head writes. -/
theorem writes_of_results (h : Results cl t { Stage.start pc cyc with pops := pops } st') :
    (∀ e ∈ st'.regs, ∃ d, tailD t = some d ∧ e.1 = d.toNat) ∧ (∀ e ∈ st'.preds, e.1 = tailM t / 32) ∧
      st'.flags < 2 ^ 5 ∧ (cl ≠ .fp → st'.flags = 0) := by
  obtain ⟨f, hf, ⟨v, rfl⟩ | ⟨b, rfl⟩⟩ := h
  · refine ⟨fun e he => ?_, fun e he => absurd he List.not_mem_nil, ?_, fun hcl => ?_⟩
    · cases hd : tailD t with
      | none => simp [Stage.raise, pushed, Stage.push, Stage.start, hd] at he
      | some d => exact ⟨d, rfl, by simp_all [Stage.raise, pushed, Stage.push, Stage.start]⟩
    · simpa [Stage.raise, Stage.push, Stage.start] using f.isLt
    · simp [Stage.raise, Stage.start, hf hcl]
  · refine ⟨fun e he => absurd he List.not_mem_nil, fun e he => ?_, ?_, fun hcl => ?_⟩
    · simp_all [Stage.raise, Stage.setPred, Stage.start]
    · simpa [Stage.raise, Stage.setPred, Stage.start] using f.isLt
    · simp [Stage.raise, Stage.setPred, Stage.start, hf hcl]

end

/-- Settles O14: the end of a bundle that only pushes, writes its destination or sets a predicate, or its drop. -/
theorem registerOnlyFrame : Obligations.RegisterOnlyFrame := by
  intro s h t i cl a b c st hinstr hissues hreads hlast hstage hloops hwaiting hresume
  have hcomplete : Completes cl s h t st (exec i s) := by
    obtain ⟨rfl, hi⟩ | ⟨rfl, hi⟩ := hinstr
    · exact intInstrs_complete hissues hreads i hi
    · exact fpInstrs_complete hissues hreads i hi
  obtain ⟨st', hresults, hexec⟩ := hcomplete
  obtain ⟨pops, rfl⟩ := reads_pops hreads
  rw [bundle, Ctx.stageNow, hstage] at hresults
  have hquiet : Quiet st' := quiet_of_results hresults
  obtain ⟨hregs, hpreds, hflags, hint⟩ := writes_of_results hresults
  refine ⟨_, hexec, ?_⟩
  intro x x'
  obtain ⟨hvis, hmem⟩ := mem_after_of_quiet hlast hquiet hwaiting hresume
  have hothers := fun g => ctx_after_of_quiet_other (g := g) hlast hquiet hwaiting hresume
  obtain hx' | hx' := ctx_after_of_quiet hlast hquiet hwaiting hresume hloops
  · simp only [x', hx']
    exact ⟨fun _ _ => rfl, fun _ _ _ => rfl, fun _ _ _ => rfl, fun _ => rfl, rfl, rfl, rfl, rfl, rfl, rfl, rfl, rfl, rfl, rfl,
      rfl, hothers, hvis, hmem⟩
  · simp only [x', hx']
    refine ⟨fun r hr => ?_, fun k hk hm => ?_, fun k hlo hk => ?_, fun hcl => ?_, rfl, rfl, rfl, rfl, rfl, rfl, rfl, rfl, rfl,
      rfl, rfl, hothers, hvis, hmem⟩
    · refine (getElem_regsAfter _ _ r).trans ?_
      have hnone : st'.regs.reverse.find? (fun e => e.1 == r.val) = none := by
        rw [List.find?_eq_none]
        intro e he
        obtain ⟨d, hd, hed⟩ := hregs e (List.mem_reverse.mp he)
        simpa [hed] using hr d hd
      rw [hnone]
    · refine (getLsbD_foldl_setPredBit _ _ hk).trans ?_
      have hnone : st'.preds.reverse.find? (fun e => e.1 == k) = none := by
        rw [List.find?_eq_none]
        intro e he
        simpa [hpreds e (List.mem_reverse.mp he)] using Ne.symm hm
      rw [hnone, ite_self]
    · rw [BitVec.getLsbD_or, BitVec.getLsbD_ofNat, Nat.testBit_lt_two_pow (hflags.trans_le (Nat.pow_le_pow_right (by
        decide) hlo)), Bool.and_false, Bool.or_false]
    · rw [hint hcl]
      exact BitVec.or_zero

end Sys2Proof.Proofs
end

section

/-! What a store leaves (R280, R284, R285): a read sees, byte by byte, memory with the entries of the write-merge path
of its home over it, and a performed store is one more entry. -/

namespace Sys2Proof.Proofs

open Sys2Proof.Machine Sys2Proof.Laws Sys2Proof.Stated

/-! ### Bytes of memory -/

theorem memRead_eq_map (m : Mem) (k n : Nat) : memRead m k n = (List.range n).map (fun i => memGet m (k + i)) := by
  induction n generalizing k with
  | zero => rfl
  | succ n ih =>
    rw [List.range_succ_eq_map, List.map_cons, List.map_map]
    exact congrArg _ ((ih (k + 1)).trans (List.map_congr_left fun i _ => congrArg (memGet m) (by
      omega)))

@[simp] theorem length_memRead (m : Mem) (k n : Nat) : (memRead m k n).length = n := by
  rw [memRead_eq_map, List.length_map, List.length_range]

theorem natLE_bytesLE (n v : Nat) : natLE (bytesLE n v) = v % 256 ^ n := by
  induction n generalizing v with
  | zero => rw [Nat.pow_zero, Nat.mod_one]; rfl
  | succ n ih =>
    have hstep : v % 256 ^ (n + 1) = v % 256 + 256 * (v / 256 % 256 ^ n) := by rw [Nat.pow_succ', Nat.mod_mul]
    rw [bytesLE, natLE, ih, BitVec.toNat_ofNat, hstep]

theorem bytesLE_add (m n v : Nat) : bytesLE (m + n) v = bytesLE m v ++ bytesLE n (v / 256 ^ m) := by
  induction m generalizing v with
  | zero => simp [bytesLE]
  | succ m ih =>
    rw [Nat.succ_add, bytesLE, ih, bytesLE, List.cons_append, Nat.div_div_eq_div_mul, Nat.pow_succ']

/-- Written bytes are read back. -/
theorem memRead_memWrite {m : Mem} (k i n : Nat) (bs : List Byte) (hm : memWf m = true) (hfit : i + n ≤ bs.length) :
    memRead (memWrite m k bs) (k + i) n = (bs.drop i).take n := by
  rw [memRead_eq_map]
  refine List.ext_getElem (by simp; omega) fun j hj hj' => ?_
  have hj : j < n := by simpa using hj
  rw [List.getElem_map, List.getElem_range, Nat.add_assoc, memGet_memWrite_inside bs hm (by omega), List.getElem_take,
    List.getElem_drop]

/-- One byte with the bytes of an entry over it. -/
def overByte (x : Nat) (b : Byte) (ek : Nat) (eb : List Byte) : Byte :=
  if ek ≤ x then (eb[x - ek]?).getD b else b

theorem overByte_outside {x : Nat} (b : Byte) {ek : Nat} {eb : List Byte} (h : x < ek ∨ ek + eb.length ≤ x) :
    overByte x b ek eb = b := by
  unfold overByte
  split
  · rw [List.getElem?_eq_none (by omega)]
    rfl
  · rfl

theorem overByte_inside {x : Nat} (b : Byte) {ek : Nat} {eb : List Byte} (h : ek ≤ x ∧ x < ek + eb.length) :
    overByte x b ek eb = eb[x - ek]'(by omega) := by
  rw [overByte, if_pos h.1, List.getElem?_eq_getElem (by omega)]
  rfl

theorem overlay_map_range (f : Nat → Byte) (k n ek : Nat) (eb : List Byte) :
    overlay ((List.range n).map (fun i => f (k + i))) k ek eb =
      (List.range n).map (fun i => overByte (k + i) (f (k + i)) ek eb) := by
  induction n generalizing k with
  | zero => rfl
  | succ n ih =>
    have hshift {β : Type} (g : Nat → β) : (List.range (n + 1)).map (fun i => g (k + i)) =
        g k :: (List.range n).map (fun i => g (k + 1 + i)) := by
      rw [List.range_succ_eq_map, List.map_cons, List.map_map]
      exact congrArg _ (List.map_congr_left fun i _ => congrArg g (by omega))
    rw [hshift f, hshift (fun x => overByte x (f x) ek eb), overlay, ih (k + 1)]
    rfl

/-- A whole entry laid over the bytes that it covers. -/
theorem overlay_same (l eb : List Byte) (k : Nat) (h : eb.length = l.length) : overlay l k k eb = eb := by
  have hl : l = (List.range l.length).map (fun i => (l[k + i - k]?).getD 0) := by
    refine List.ext_getElem (by simp) fun i hi hi' => ?_
    simp [List.getElem?_eq_getElem hi]
  rw [hl, overlay_map_range (fun x => (l[x - k]?).getD 0) k l.length k eb]
  refine List.ext_getElem (by simp [h]) fun i hi hi' => ?_
  rw [List.getElem_map, List.getElem_range, overByte_inside _ (by omega)]
  simp

/-! ### What a read sees (R280, R285) -/

/-- A byte as its home sees it: memory with the entries of the merge path over it, the newest last. -/
def seenByte (s : State) (home x : Nat) : Byte :=
  (s.tile home).merge.foldl (fun b e => overByte x b e.key e.bytes) (memGet s.mem x)

theorem foldl_overlay (es : List Merge) (f : Nat → Byte) (k n : Nat) :
    es.foldl (fun bs e => overlay bs k e.key e.bytes) ((List.range n).map (fun i => f (k + i))) =
      (List.range n).map (fun i => es.foldl (fun b e => overByte (k + i) b e.key e.bytes) (f (k + i))) := by
  induction es generalizing f with
  | nil => rfl
  | cons e r ih =>
    rw [List.foldl_cons, overlay_map_range]
    exact ih (fun x => overByte x (f x) e.key e.bytes)

theorem visRead_eq_map (s : State) (k n : Nat) :
    visRead s k n = (List.range n).map (fun i => seenByte s (homeTile k) (k + i)) := by
  rw [visRead, memRead_eq_map]
  exact foldl_overlay _ (memGet s.mem) k n

@[simp] theorem length_visRead (s : State) (k n : Nat) : (visRead s k n).length = n := by
  rw [visRead_eq_map, List.length_map, List.length_range]

theorem visRead_one (s : State) (k : Nat) : visRead s k 1 = [seenByte s (homeTile k) k] := by
  rw [visRead_eq_map]
  rfl

/-! ### A performed store (R280, R284) -/

section

variable {γ : Type} (π : State → γ)

theorem clearPoison_keeps (htile : ∀ s t x, π (State.setTile s t x) = π s) (s : State) (k n : Nat) :
    π (clearPoison s k n) = π s := by
  unfold clearPoison
  dsimp only
  split
  · rfl
  · exact htile _ _ _

theorem touchPage_keeps (htile : ∀ s t x, π (State.setTile s t x) = π s) (s : State) (k n : Nat) :
    π (touchPage s k n) = π s := by
  unfold touchPage
  split
  · rw [countPerf_keeps π htile, State.modTile, htile]
  · rfl

/-- A store changes memory or tiles alone. -/
theorem performStore_keeps (hmem : ∀ (s : State) m, π { s with mem := m } = π s)
    (htile : ∀ s t x, π (State.setTile s t x) = π s) (s : State) (k : Nat) (bs : List Byte) (act : Nat) :
    π (performStore s k bs act) = π s := by
  unfold performStore
  split
  · rfl
  · split
    · exact hmem _ _
    · rw [State.modTile, htile, touchPage_keeps π htile, clearPoison_keeps π htile]

end

section

variable {s : State} {k act : Nat} {bs : List Byte}

@[simp] theorem performStore_ctx (g : Nat) : (performStore s k bs act).ctx g = s.ctx g :=
  performStore_keeps (State.ctx · g) (fun _ _ => rfl) (fun _ _ _ => rfl) ..

/-- Outside host and peer memory a store changes tiles alone, and enters the path of its home. -/
theorem performStore_eq (hk : k < 2 ^ 60 ∨ 2 ^ 66 ≤ k) (hbs : bs ≠ []) : performStore s k bs act =
    (touchPage (clearPoison s k bs.length) k bs.length).modTile (homeTile k)
      (fun t => { t with merge := t.merge ++ [⟨k, bs, act⟩] }) := by
  have hno : ¬(2 ^ 60 ≤ k ∧ k < 2 ^ 66) := by omega
  rw [performStore, if_neg (by simpa using hbs), if_neg hno]

theorem performStore_mem (hk : k < 2 ^ 60 ∨ 2 ^ 66 ≤ k) : (performStore s k bs act).mem = s.mem := by
  by_cases hbs : bs = []
  · subst hbs
    rfl
  · rw [performStore_eq hk hbs]
    exact (touchPage_keeps State.mem (fun _ _ _ => rfl) _ _ _).trans (clearPoison_keeps State.mem (fun _ _ _ => rfl) _ _ _)

/-- A field of tiles that neither counters, LAST nor poison is. -/
theorem tileField_touched {β : Type} (π : Tile → β) (hperf : ∀ x p, π { x with perf := p } = π x)
    (hremap : ∀ x p, π { x with remap := p } = π x) (hpoison : ∀ x p, π { x with poison := p } = π x) (s : State)
    (k n u : Nat) : π ((touchPage (clearPoison s k n) k n).tile u) = π (s.tile u) := by
  have hclear : π ((clearPoison s k n).tile u) = π (s.tile u) := by
    unfold clearPoison
    dsimp only
    split
    · rfl
    · by_cases hu : u = homeTile k
      · subst hu
        rw [State.tile_setTile, hpoison]
      · rw [State.tile_setTile_other _ _ hu]
  unfold touchPage
  split
  · rw [tileField_countPerf _ _ _ _ π hperf]
    by_cases hu : u = homeTile k
    · subst hu
      rw [State.tile_modTile, hremap, hclear]
    · rw [State.tile_modTile_other _ _ hu, hclear]
  · exact hclear

theorem merge_performStore (hk : k < 2 ^ 60 ∨ 2 ^ 66 ≤ k) (hbs : bs ≠ []) (u : Nat) :
    ((performStore s k bs act).tile u).merge =
      if u = homeTile k then (s.tile u).merge ++ [⟨k, bs, act⟩] else (s.tile u).merge := by
  have hsame := tileField_touched Tile.merge (fun _ _ => rfl) (fun _ _ => rfl) (fun _ _ => rfl) s k bs.length u
  rw [performStore_eq hk hbs]
  by_cases hu : u = homeTile k
  · subst hu
    rw [State.tile_modTile, if_pos rfl, ← hsame]
  · rw [State.tile_modTile_other _ _ hu, if_neg hu, hsame]

/-- The home sees the stored bytes over what it saw. -/
theorem seenByte_performStore (hk : k < 2 ^ 60 ∨ 2 ^ 66 ≤ k) (hbs : bs ≠ []) (u x : Nat) :
    seenByte (performStore s k bs act) u x =
      if u = homeTile k then overByte x (seenByte s u x) k bs else seenByte s u x := by
  rw [seenByte, merge_performStore hk hbs, performStore_mem hk]
  split
  · rw [List.foldl_append]
    rfl
  · rfl

/-- A read of the stored bytes gives them (R284). -/
theorem visRead_performStore_same (hk : k < 2 ^ 60 ∨ 2 ^ 66 ≤ k) (hbs : bs ≠ []) :
    visRead (performStore s k bs act) k bs.length = bs := by
  rw [visRead_eq_map]
  refine List.ext_getElem (by simp) fun i hi hi' => ?_
  rw [List.getElem_map, List.getElem_range, seenByte_performStore hk hbs, if_pos rfl, overByte_inside _ (by omega)]
  simp

/-- Bytes outside a store stay (R284). -/
theorem visRead_performStore_other (hk : k < 2 ^ 60 ∨ 2 ^ 66 ≤ k) (hbs : bs ≠ []) {x : Nat}
    (hx : x < k ∨ k + bs.length ≤ x) : visRead (performStore s k bs act) x 1 = visRead s x 1 := by
  rw [visRead_one, visRead_one, seenByte_performStore hk hbs, overByte_outside _ hx, ite_self]

end

end Sys2Proof.Proofs
end

section

/-! The acts of a bundle at its end (R34, R36, R39, R265, R279, R302, R320, R369, R402): direct stores, held effects,
class masks, table words, and the waits that its heads have staged. -/

namespace Sys2Proof.Proofs

open Sys2Proof.Machine Sys2Proof.Laws Sys2Proof.Stated

/-! ### A bundle with one act -/

/-- A bundle that moves on to its next address: no transfer, no loop opened, no control register. -/
def Straight (st : Stage) : Prop := st.xfer = none ∧ st.loopOpen = none ∧ st.cregs = []

theorem orderActs_one (a : Act) : orderActs [a] = [a] := by
  cases h : a.isMask <;> simp [orderActs, h]

section

variable {s s1 : State} {h : Head} {st st1 : Stage} {g next : Nat}

theorem actsOf_one {a : Act} (hacts : st.acts = [a]) :
    actsOf s g st = [a.tagged (tagOf s (tileOf g) (s.ctx g).asid)] := by
  rw [actsOf, hacts]
  exact orderActs_one _

/-- The end of a bundle whose one act is done at once. -/
theorem after_of_act {a : Act} (hlast : h.chain = false) (hends : Ends s st) (hacts : actsOf s s.cur st = [a])
    (hdo : doAct (staged s s.cur st [a]) s.cur a = .next s1) (hstage : (s1.ctx s.cur).stage = some st1)
    (hresume : (s1.ctx s.cur).resume = none) : after s h st = commitBundle s1 s.cur st1 := by
  obtain ⟨hguard, hpend, htrap, -, hsave, hwaiting, hresume'⟩ := hends
  rw [after_of_last hlast, finishBundle_acts hguard hpend htrap hsave hresume', hacts,
    continueBundle_commits (runActs_next hdo) hstage hresume, staged_ctx]
  simp only [hwaiting]
  rfl

/-- The end of a bundle whose one act leaves its context in WAIT. -/
theorem after_of_wait {a : Act} {w : Waiting} {first : List Act} (hlast : h.chain = false) (hguard : st.guardAt = none)
    (hpend : st.pend = none) (htrap : st.trap = none) (hsave : (me s).saveDue = false) (hresume : (me s).resume = none)
    (hacts : actsOf s s.cur st = [a]) (hdo : doAct (staged s s.cur st [a]) s.cur a = .wait s1 w first) :
    after s h st =
      let s2 := s1.modCtx s.cur (fun c => { c with
        st := .wait, waiting := w, stage := c.stage.map (fun st => { st with acts := first }) })
      if Waiting.raises w then inherit s2 else s2 := by
  rw [after_of_last hlast, finishBundle_acts hguard hpend htrap (by rw [hsave]; rfl) hresume, hacts,
    continueBundle_waits (runActs_wait hdo), List.append_nil]

/-- What the bundle leaves beside its results stays as the acts have left it. -/
theorem completed_held (c : Ctx) (o : Option Stage) (held : List Effect) (hopen : st.loopOpen = none)
    (hcregs : st.cregs = []) :
    completed { c with stage := o, held := held } st = { completed c st with held := held } := by
  rw [completed, completed, applyStage_eq _ hcregs hopen, applyStage_eq _ hcregs hopen]

theorem completed_status (c : Ctx) (hopen : st.loopOpen = none) (hcregs : st.cregs = []) :
    (completed c st).status = c.status := by
  rw [completed, applyStage_eq _ hcregs hopen]

theorem completed_loops (c : Ctx) (hopen : st.loopOpen = none) (hcregs : st.cregs = []) :
    (completed c st).loops = c.loops := by
  rw [completed, applyStage_eq _ hcregs hopen]

/-- A context outside loops after the acts of its bundle, when it goes straight on. -/
theorem committed_ctx_straight {o : Option Stage} {held : List Effect} (hstraight : Straight st)
    (hctx : s1.ctx g = { s.ctx g with stage := o, held := held }) (hloops : (s.ctx g).loops = []) :
    (committed s1 g st).ctx g = { completed (s.ctx g) st with held := held, pc := st.next } := by
  obtain ⟨hxfer, hopen, hcregs⟩ := hstraight
  rw [committed_ctx, hctx, completed_held _ _ _ hopen hcregs, goesOn]
  simp only [hxfer]
  refine loopNext_none ?_
  rw [Ctx.innermost]
  simp only [completed_loops _ hopen hcregs, hloops]
  rfl

/-- Such a bundle has completed with its results. -/
theorem completed_committed {o : Option Stage} {held : List Effect} (hstraight : Straight st1)
    (hctx : s1.ctx g = { s.ctx g with stage := o, held := held }) (hloops : (s.ctx g).loops = [])
    (hnext : st1.next = next) (happly : (s.ctx g).applyStage st1 = (s.ctx g).applyStage st) :
    Completed s g next st (committed s1 g st1) := by
  have hstatus := completed_status (s.ctx g) hstraight.2.1 hstraight.2.2
  rw [Completed, committed_ctx_straight hstraight hctx hloops, ← happly]
  exact ⟨rfl, rfl, hnext, rfl, rfl, rfl, rfl, rfl, rfl, hstatus⟩

theorem applyStage_ended {acts : List Act} (c : Ctx) (hopen : st.loopOpen = none) (hcregs : st.cregs = []) :
    c.applyStage (ended s st acts) = c.applyStage st := by
  rw [applyStage_eq c hcregs hopen, applyStage_eq c (st := ended s st acts) hcregs hopen]

end

/-! ### Where a plain access may lie (R258, R259) -/

theorem tileOf_lt (g : Nat) : tileOf g < 1024 := Nat.mod_lt _ (by decide)

/-- Neither host nor peer memory. -/
def OnModule (k : Nat) : Prop := k < 2 ^ 60 ∨ 2 ^ 66 ≤ k

theorem onModule_keyTwin (g x : Nat) : OnModule (keyTwin g x) := by
  right
  unfold keyTwin
  omega

theorem onModule_keyScratch {t off : Nat} (ht : t < 2 ^ 20) (hoff : off < 2 ^ 40) : OnModule (keyScratch t off) := by
  left
  unfold keyScratch
  omega

theorem onModule_keyVault {t lpn off : Nat} (ht : t < 2 ^ 20) (hlpn : lpn < 2 ^ 40) (hoff : off < 2 ^ 40) :
    OnModule (keyVault t lpn off) := by
  left
  unfold keyVault
  omega

/-- A page of kind 0 is a vault page; the others lie behind a bridge or a port (R370). -/
theorem onModule_leafLoc {e : Word} {big : Bool} {va : Nat} (hhome : (leafLoc e big va).home < 1024) :
    OnModule (leafLoc e big va).key := by
  have hfld (lo len : Nat) : fld e lo len < 2 ^ len := Nat.mod_lt _ (by positivity)
  have hmid : (if big then nfld va 16 5 else 0) < 2 ^ 5 := by
    split
    · exact Nat.mod_lt _ (by decide)
    · decide
  match hkind : fld e 62 2 with
  | 0 =>
    have h1 := hfld 32 5
    have h2 := hfld 40 5
    have h3 := hfld 16 13
    simp only [leafLoc, hkind]
    refine onModule_keyVault ?_ (lt_of_lt_of_le (Nat.add_lt_add h3 hmid) (by decide))
      (lt_of_lt_of_le (Nat.mod_lt _ (by decide)) (by decide))
    unfold tileAt
    omega
  | 1 =>
    simp only [leafLoc, hkind] at hhome
    omega
  | n + 2 =>
    simp only [leafLoc, hkind] at hhome
    omega

theorem onModule_stackLoc {s : State} {asid va : Nat} {l : Loc} (h : stackLoc s asid va = some l) : OnModule l.key := by
  simp only [stackLoc] at h
  split at h
  · exact absurd h (by simp)
  · split at h
    · exact absurd h (by simp)
    next g c _ =>
      split at h
      · split at h
        · obtain rfl := Option.some.inj h
          refine onModule_keyVault (lt_trans (tileOf_lt _) (by decide)) ?_
            (lt_of_lt_of_le (Nat.mod_lt _ (by decide)) (by decide))
          exact lt_of_le_of_lt (Nat.sub_le ..) (by decide)
        · obtain rfl := Option.some.inj h
          exact onModule_keyTwin _ _
      · exact absurd h (by simp)

/-- A translation onto the module gives a place on it. -/
theorem onModule_translate {s : State} {t asid va : Nat} {w f : Bool} {l : Loc} (h : Machine.translate s t asid va w f = .ok l)
    (hhome : l.home < 1024) : OnModule l.key := by
  unfold Machine.translate at h
  split at h
  · exact absurd h (by simp)
  · split at h
    next l' hstack =>
      split at h
      · exact absurd h (by simp)
      · obtain rfl := Xlate.ok.inj h
        exact onModule_stackLoc hstack
    · dsimp only at h
      split at h
      · exact absurd h (by simp)
      · exact absurd h (by simp)
      · exact absurd h (by simp)
      · split at h
        · exact absurd h (by simp)
        · obtain rfl := Xlate.ok.inj h
          exact onModule_leafLoc hhome

theorem onModule_localKey {c : Ctx} {r : Reach} {t ea n : Nat} (ht : t < 2 ^ 20) (hea : ea < 2 ^ 40) :
    OnModule (localKey c r t ea n) := by
  have hframe (o : Option Nat) (ho : ∀ k ∈ o, OnModule k) : OnModule (o.getD (keyScratch t ea)) := by
    cases o with
    | none => exact onModule_keyScratch ht hea
    | some k => exact ho k rfl
  have htwin : ∀ k ∈ twinKey c ea n, OnModule k := by
    intro k hk
    unfold twinKey at hk
    split at hk
    · exact Option.some.inj hk ▸ onModule_keyTwin _ _
    · split at hk
      · exact Option.some.inj hk ▸ onModule_keyTwin _ _
      · exact absurd hk (by simp)
  have hown : ∀ k ∈ twinFrame c ea n, OnModule k := by
    intro k hk
    unfold twinFrame at hk
    split at hk
    · exact Option.some.inj hk ▸ onModule_keyTwin _ _
    · exact absurd hk (by simp)
  unfold localKey
  split
  · split
    · exact hframe _ htwin
    · exact hframe _ hown
  · exact onModule_keyScratch ht hea

theorem clusterMap_lt {c : Nat} (hc : c < 2 ^ 24) : (clusterMap c).2 < 2 ^ 40 := by
  unfold clusterMap
  dsimp only
  omega

theorem tileOfStop_lt {g stop : Nat} (hg : g < 1024) : tileOfStop (clusterOf g) stop < 2 ^ 20 := by
  unfold tileOfStop clusterOf tileAt tileX tileY
  dsimp only
  split <;> omega

theorem ok_of_ite_error {α ε : Type} {p : Prop} [Decidable p] {e : ε} {x : Except ε α} {v : α}
    (h : (if p then .error e else x) = .ok v) : ¬p ∧ x = .ok v := by
  obtain ⟨-, h⟩ | h := ite_eq_iff.mp h
  · exact absurd h (by simp)
  · exact h

/-- A load, a store or a local atomic reaches no host or peer memory (R258). -/
theorem onModule_locate {s : State} {g ea n al : Nat} {w : Bool} {l : Loc} (h : locate s g .plain ea n al w = .ok l) :
    OnModule l.key := by
  have ht := tileOf_lt g
  unfold locate at h
  extract_lets c t page aligned top at h
  obtain ⟨-, h⟩ := ok_of_ite_error h
  obtain ⟨hea, h⟩ | ⟨-, h⟩ := ite_eq_iff.mp h
  · -- the tile's own window
    obtain ⟨-, h⟩ := ok_of_ite_error h
    obtain ⟨-, h⟩ := ok_of_ite_error h
    obtain ⟨-, h⟩ := ok_of_ite_error h
    obtain rfl := Except.ok.inj h
    exact onModule_localKey (by omega) (by omega)
  obtain ⟨-, h⟩ := ok_of_ite_error h
  obtain ⟨-, h⟩ | ⟨-, h⟩ := ite_eq_iff.mp h
  · -- the cluster window
    obtain ⟨-, h⟩ := ok_of_ite_error h
    obtain ⟨-, h⟩ := ok_of_ite_error h
    obtain ⟨-, h⟩ := ok_of_ite_error h
    obtain rfl := Except.ok.inj h
    exact onModule_keyScratch (tileOfStop_lt ht) (clusterMap_lt (Nat.mod_lt _ (by decide)))
  obtain ⟨-, h⟩ := ok_of_ite_error h
  obtain ⟨-, h⟩ := ok_of_ite_error h
  obtain ⟨-, h⟩ := ok_of_ite_error h
  obtain ⟨-, h⟩ := ok_of_ite_error h
  obtain ⟨-, h⟩ | ⟨-, h⟩ := ite_eq_iff.mp h
  · -- a twin's own stack
    obtain ⟨-, h⟩ | ⟨-, h⟩ := ite_eq_iff.mp h
    · obtain rfl := Except.ok.inj h
      exact onModule_keyTwin _ _
    · exact absurd h (by simp [page])
  · -- translated addresses
    split at h
    · exact absurd h (by simp [page])
    · exact absurd h (by simp)
    · exact absurd h (by simp)
    next l' hx =>
      obtain ⟨hhome, h⟩ := ok_of_ite_error h
      obtain ⟨-, h⟩ := ok_of_ite_error h
      obtain rfl := Except.ok.inj h
      refine onModule_translate hx ?_
      have : l'.home = tileOf g := by simpa using hhome
      omega

/-! ### Acts that are done at once -/

section

variable {s s1 : State} {h : Head} {st : Stage} {a : Act} {held : List Effect}

/-- The end of a bundle whose act is done, when the act leaves its context as it is but for what it holds. -/
theorem after_of_done_act (hlast : h.chain = false) (hclean : Clean s st) (hstraight : Straight st)
    (hacts : actsOf s s.cur st = [a]) (hdo : doAct (staged s s.cur st [a]) s.cur a = .next s1)
    (hctx : s1.ctx s.cur = { me s with stage := some (ended s st [a]), held := held }) :
    after s h st = committed s1 s.cur (ended s st [a]) := by
  have ⟨_, _, _, hchecks, _, _, hresume⟩ := hclean
  obtain ⟨hxfer, -, hcregs⟩ := hstraight
  rw [after_of_act hlast (ends_of_clean hclean) hacts hdo (st1 := ended s st [a]) (by rw [hctx])
    (by rw [hctx]; exact hresume)]
  exact commitBundle_eq (by simp [hxfer]) hcregs (failedReply_of_no_check _ _ hchecks)

theorem completed_of_done_act (hstraight : Straight st) (hloops : (me s).loops = [])
    (hctx : s1.ctx s.cur = { me s with stage := some (ended s st [a]), held := held })
    (hothers : ∀ g, g ≠ s.cur → s1.ctx g = s.ctx g) :
    (Completed s s.cur s.after st (committed s1 s.cur (ended s st [a])) ∧
      ∀ g, g ≠ s.cur → (committed s1 s.cur (ended s st [a])).ctx g = s.ctx g) ∧
    ((committed s1 s.cur (ended s st [a])).ctx s.cur).held = held ∧
    ((committed s1 s.cur (ended s st [a])).ctx s.cur).groups = (me s).groups := by
  obtain ⟨hxfer, hopen, hcregs⟩ := hstraight
  refine ⟨⟨completed_committed ⟨hxfer, hopen, hcregs⟩ hctx hloops rfl (applyStage_ended _ hopen hcregs), fun g hg => ?_⟩, ?_⟩
  · rw [committed_ctx_other hg, hothers g hg]
  · rw [committed_ctx_straight (st := ended s st [a]) ⟨hxfer, hopen, hcregs⟩ hctx hloops]
    refine ⟨rfl, ?_⟩
    rw [completed, applyStage_eq _ (st := ended s st [a]) hcregs hopen]

theorem staged_ctx_other {g : Nat} {acts : List Act} (hg : g ≠ s.cur) : (staged s s.cur st acts).ctx g = s.ctx g :=
  State.ctx_modCtx_other _ _ hg

end

theorem tileField_committed {β : Type} (π : Tile → β) (hperf : ∀ x p, π { x with perf := p } = π x) (s : State) (g u : Nat)
    (st : Stage) : π ((committed s g st).tile u) = π (s.tile u) := by
  obtain ⟨p, hp⟩ := tile_committed (s := s) (g := g) (st := st) u
  rw [hp, hperf]

theorem heldBytes_tagged (es : List Effect) (tag : GenTag) :
    heldBytes (es.map (fun e => { e with tag := tag })) = (es.map Effect.size).sum := by
  rw [heldBytes, List.map_map]
  rfl

/-! ### The table area (R369, R372, R373, R377) -/

theorem tableBytes_eq_map (s : State) (t off n : Nat) :
    tableBytes s t off n = (List.range n).map (fun i => tableByte s t (off + i)) := by
  induction n generalizing off with
  | zero => rfl
  | succ n ih =>
    rw [List.range_succ_eq_map, List.map_cons, List.map_map]
    exact congrArg _ ((ih (off + 1)).trans (List.map_congr_left fun i _ => congrArg (tableByte s t) (by omega)))

/-- Capability and generation words stand in memory. -/
theorem tableBytes_words {s : State} {t off n : Nat} (hoff : off + n ≤ 0x1E0C00) :
    tableBytes s t off n = memRead s.mem (keyScratch t off) n := by
  rw [tableBytes_eq_map, memRead_eq_map]
  refine List.map_congr_left fun i hi => ?_
  have hi : i < n := List.mem_range.mp hi
  rw [tableByte, if_pos (by omega), keyScratch, keyScratch, Nat.add_assoc]

/-- A remap entry is read from the table of the vault. -/
theorem tableBytes_remap {s : State} {t w : Nat} (hw : 0x1F0000 ≤ 8 * w) :
    tableBytes s t (8 * w) 8 = bytesLE 8 (remapWord (remapOf (s.tile t) (w % 8192))) := by
  rw [tableBytes_eq_map]
  refine List.ext_getElem (by simp [length_bytesLE]) fun i hi hi' => ?_
  have hi : i < 8 := by simpa using hi
  have h1 : (8 * w + i) / 8 = w := by omega
  have h2 : (8 * w + i) % 8 = i := by omega
  rw [List.getElem_map, List.getElem_range, tableByte, if_neg (by omega), if_neg (by omega), if_neg (by omega),
    if_neg (by omega), if_pos (by omega), h1, h2, List.getD_eq_getElem _ _ (by rw [length_bytesLE]; exact hi)]

/-- A capability word with its reserved bits zero, and slot 0 never valid (R377). -/
def capFix (slot v : Nat) : Nat := if slot = 0 then (v &&& 0x8EFF00FF) % 2 ^ 31 else v &&& 0x8EFF00FF

theorem capFix_lt (slot v : Nat) : capFix slot v < 2 ^ 32 := by
  have hand : v &&& 0x8EFF00FF < 2 ^ 32 := Nat.and_lt_two_pow _ (by decide)
  unfold capFix
  split
  · exact lt_of_le_of_lt (Nat.mod_le ..) hand
  · exact hand

section

variable {s : State} {t off : Nat} {bs : List Byte}

/-- The eight bytes of the table around an address, as the store leaves them. -/
abbrev tableStored (s : State) (t off : Nat) (bs : List Byte) : List Byte :=
  overlay (tableBytes s t (off / 8 * 8) 8) (off / 8 * 8) off bs

theorem tableWrite_caps (hoff : off < 0x1E0400) : tableWrite s t off bs = { s with
    mem := memWrite s.mem (keyScratch t (off / 8 * 8)) (bytesLE 8 (capFix (off / 8 * 2 % 256) (natAt (tableStored s t off bs) 0 4) +
      2 ^ 32 * capFix (off / 8 * 2 % 256 + 1) (natAt (tableStored s t off bs) 4 4))) } := by
  have hslot : off / 4 % 256 / 2 * 2 = off / 8 * 2 % 256 := by omega
  rw [tableStored, tableBytes_words (by omega), ← hslot, tableWrite, if_pos hoff]
  rfl

theorem tableWrite_gens (hlo : 0x1E0400 ≤ off) (hhi : off < 0x1E0C00) : tableWrite s t off bs = { s with
    mem := memWrite s.mem (keyScratch t (off / 8 * 8)) (bytesLE 8 (natLE (tableStored s t off bs) &&& 0xFFFF9FFFFFFFF000)) } := by
  rw [tableStored, tableBytes_words (by omega), tableWrite, if_neg (by omega), if_pos hhi]

theorem tableWrite_remap (hlo : 0x1F0000 ≤ off) : tableWrite s t off bs = s.modTile t (fun x => { x with
    remap := tabSet x.remap (off / 8 % 8192) { remapOf (s.tile t) (off / 8 % 8192) with
      v := (natLE (tableStored s t off bs)).testBit 30 } }) := by
  rw [tableStored, Nat.mul_comm, tableBytes_remap (by omega), tableWrite, if_neg (by omega), if_neg (by omega), if_pos hlo,
    Nat.mul_comm]

theorem tableWrite_other (hlo : 0x1E0C00 ≤ off) (hhi : off < 0x1F0000) : tableWrite s t off bs = s := by
  rw [tableWrite, if_neg (by omega), if_neg (by omega), if_neg (by omega)]

@[simp] theorem tableWrite_ctx (g : Nat) : (tableWrite s t off bs).ctx g = s.ctx g := by
  unfold tableWrite
  dsimp only
  split
  · rfl
  · split
    · rfl
    · split
      · rfl
      · rfl

end

/-- The two halves of a written double word. -/
theorem tableWord_half {s : State} {t off i a b : Nat} (hm : s.MemOk) (hi : i < 2) (ha : a < 2 ^ 32) (hb : b < 2 ^ 32) :
    tableWord { s with mem := memWrite s.mem (keyScratch t off) (bytesLE 8 (a + 2 ^ 32 * b)) } t (off + 4 * i) 4 =
      if i = 0 then a else b := by
  have hsplit : bytesLE 8 (a + 2 ^ 32 * b) = bytesLE 4 (a + 2 ^ 32 * b) ++ bytesLE 4 ((a + 2 ^ 32 * b) / 256 ^ 4) :=
    bytesLE_add 4 4 _
  rw [tableWord, show keyScratch t (off + 4 * i) = keyScratch t off + 4 * i by simp [keyScratch, Nat.add_assoc],
    memRead_memWrite _ _ _ _ hm (by rw [length_bytesLE]; omega), hsplit]
  match i, hi with
  | 0, _ =>
    rw [Nat.mul_zero, List.drop_zero, List.take_left' (length_bytesLE ..), natLE_bytesLE, if_pos rfl]
    omega
  | 1, _ =>
    rw [Nat.mul_one, List.drop_left' (length_bytesLE ..), List.take_of_length_le (by rw [length_bytesLE]), natLE_bytesLE,
      if_neg Nat.one_ne_zero]
    omega

theorem tableWord_whole {s : State} {t off v : Nat} (hm : s.MemOk) (hv : v < 2 ^ 64) :
    tableWord { s with mem := memWrite s.mem (keyScratch t off) (bytesLE 8 v) } t off 8 = v := by
  have hread := memRead_memWrite (keyScratch t off) 0 8 (bytesLE 8 v) hm (by rw [length_bytesLE])
  rw [Nat.add_zero, List.drop_zero, List.take_of_length_le (by rw [length_bytesLE])] at hread
  rw [tableWord, hread, natLE_bytesLE]
  exact Nat.mod_eq_of_lt hv

theorem bundleActs : BundleActs := by
  refine ⟨fun s r ea n al w l hr ht hloc => onModule_locate (hr ▸ hloc),
    fun s h st hlast hclean hxfer hopen hlink hcregs hloops => ?_⟩
  intro c here t c' tag ends
  have hstraight : Straight st := ⟨hxfer, hopen, hcregs⟩
  -- what follows once the act is known
  have done {a : Act} {s1 : State} {held : List Effect} (hacts : st.acts = [a]) (hplain : a.tagged tag = a)
      (hdo : doAct (staged s s.cur st [a]) s.cur a = .next s1)
      (hctx : s1.ctx s.cur = { me s with stage := some (ended s st [a]), held := held }) :
      t = committed s1 s.cur (ended s st [a]) :=
    after_of_done_act hlast hclean hstraight ((actsOf_one hacts).trans (by rw [show Act.tagged _ a = a from hplain])) hdo hctx
  refine ⟨fun k bs hacts hk hbs => ?store, fun es hacts => ?effects, fun set bits hacts => ?mask,
    fun k tg hacts hhome => ?tag, fun off bs hacts hlo hhi hlen hal hmem => ?table⟩
  case store =>
    set s1 := performStore (staged s s.cur st [.store k bs]) k bs 0 with hs1
    have hctx : s1.ctx s.cur = { me s with stage := some (ended s st [.store k bs]), held := (me s).held } := by
      rw [hs1, performStore_ctx, staged_ctx]
    have ht : t = committed s1 s.cur (ended s st [.store k bs]) := done hacts rfl rfl hctx
    obtain ⟨hends, hheld, -⟩ := completed_of_done_act (a := .store k bs) hstraight hloops hctx
      fun g hg => by rw [hs1, performStore_ctx, staged_ctx_other hg]
    simp only [ends, c', ht]
    refine ⟨hends, hheld, ?_, ?_, fun x hx => ?_⟩
    · rw [committed_mem]
      exact performStore_mem hk
    · rw [visRead_committed]
      exact visRead_performStore_same hk hbs
    · rw [visRead_committed]
      exact visRead_performStore_other hk hbs hx
  case effects =>
    intro new total
    have hacts' : actsOf s s.cur st = [.effects new] := actsOf_one hacts
    have hbytes : heldBytes ((staged s s.cur st [.effects new]).ctx s.cur).held + heldBytes new = total := by
      rw [staged_ctx, heldBytes_tagged]
      rfl
    refine ⟨fun hroom => ?_, fun hfull => ?_⟩
    · set s1 := (staged s s.cur st [.effects new]).modCtx s.cur (fun c => { c with held := c.held ++ new }) with hs1
      have hdo : doAct (staged s s.cur st [.effects new]) s.cur (.effects new) = .next s1 := by
        rw [doAct, holdEffects, if_pos (by rw [hbytes]; exact hroom)]
      have hctx : s1.ctx s.cur = { me s with stage := some (ended s st [.effects new]), held := (me s).held ++ new } := by
        rw [hs1, State.ctx_modCtx, staged_ctx]
      have ht : t = committed s1 s.cur (ended s st [.effects new]) :=
        after_of_done_act hlast hclean hstraight hacts' hdo hctx
      obtain ⟨hends, hheld, hgroups⟩ := completed_of_done_act hstraight hloops hctx
        fun g hg => by rw [hs1, State.ctx_modCtx_other _ _ hg, staged_ctx_other hg]
      simp only [ends, c', ht]
      exact ⟨hends, hheld, hgroups, committed_mem, visRead_committed⟩
    · have hdo : doAct (staged s s.cur st [.effects new]) s.cur (.effects new) =
          .wait (release (staged s s.cur st [.effects new]) s.cur false) .buffer [.effects new] := by
        rw [doAct, holdEffects, if_neg (by rw [hbytes]; exact Nat.not_le.mpr hfull)]
      have ⟨hguard, hpend, htrap, _, hsave, _, hresume⟩ := hclean
      have ht := after_of_wait hlast hguard hpend htrap hsave hresume hacts' hdo
      simp only [Waiting.raises, Bool.false_eq_true, if_false] at ht
      have hc' : c' = _ := (congrArg (State.ctx · s.cur) ht).trans (State.ctx_modCtx ..)
      rw [release, State.ctx_modCtx, staged_ctx] at hc'
      rw [hc']
      refine ⟨rfl, rfl, rfl, rfl, ?_, rfl, rfl, rfl, (congrArg State.mem ht).trans rfl⟩
      rw [if_neg Bool.false_ne_true, getLsbD_putFld _ _ _ _ (by decide)]
      rfl
  case mask =>
    set s1 := (staged s s.cur st [.mask set bits]).modTile here (fun x =>
      let m := tabGet (0 : BitVec 16) x.masks c.lslot
      { x with masks := tabSet x.masks c.lslot (if set then m ||| BitVec.ofNat 16 bits else m &&& ~~~(BitVec.ofNat 16 bits)) })
      with hs1
    have hdo : doAct (staged s s.cur st [.mask set bits]) s.cur (.mask set bits) = .next s1 := by
      rw [doAct, staged_ctx]
    have hctx : s1.ctx s.cur = { me s with stage := some (ended s st [.mask set bits]), held := (me s).held } := by
      rw [hs1, State.ctx_modTile, staged_ctx]
    have ht : t = committed s1 s.cur (ended s st [.mask set bits]) := done hacts rfl hdo hctx
    obtain ⟨hends, -, -⟩ := completed_of_done_act (a := .mask set bits) hstraight hloops hctx
      fun g hg => by rw [hs1, State.ctx_modTile, staged_ctx_other hg]
    have hmasks : (t.tile here).masks = tabSet (s.tile here).masks c.lslot (if set
        then tabGet (0 : BitVec 16) (s.tile here).masks c.lslot ||| BitVec.ofNat 16 bits
        else tabGet (0 : BitVec 16) (s.tile here).masks c.lslot &&& ~~~(BitVec.ofNat 16 bits)) := by
      rw [ht, tileField_committed Tile.masks (fun _ _ => rfl), hs1, State.tile_modTile]
      rfl
    simp only [ends]
    refine ⟨by rw [ht]; exact hends, ?_, by rw [hmasks]; exact tabGet_tabSet_same .., fun l hl => by
      rw [hmasks]; exact tabGet_tabSet_other _ _ _ hl⟩
    rw [ht, committed_mem]
    rfl
  case tag =>
    set s1 := (staged s s.cur st [.physTag (k / 128) tg]).modTile here (fun x => { x with tags := tabSet x.tags (k / 128) tg })
      with hs1
    have hctx : s1.ctx s.cur = { me s with stage := some (ended s st [.physTag (k / 128) tg]), held := (me s).held } := by
      rw [hs1, State.ctx_modTile, staged_ctx]
    have ht : t = committed s1 s.cur (ended s st [.physTag (k / 128) tg]) := done hacts rfl rfl hctx
    obtain ⟨hends, -, -⟩ := completed_of_done_act (a := .physTag (k / 128) tg) hstraight hloops hctx
      fun g hg => by rw [hs1, State.ctx_modTile, staged_ctx_other hg]
    simp only [ends, ht]
    refine ⟨hends, committed_mem, ?_⟩
    rw [ownerTag, tileField_committed Tile.tags (fun _ _ => rfl), hs1, hhome, State.tile_modTile]
    exact tabGet_tabSet_same ..
  case table =>
    set s1 := tableWrite (staged s s.cur st [.physTable off bs]) here off bs with hs1
    have hctx : s1.ctx s.cur = { me s with stage := some (ended s st [.physTable off bs]), held := (me s).held } := by
      rw [hs1, tableWrite_ctx, staged_ctx]
    have ht : t = committed s1 s.cur (ended s st [.physTable off bs]) := done hacts rfl rfl hctx
    obtain ⟨hends, -, -⟩ := completed_of_done_act (a := .physTable off bs) hstraight hloops hctx
      fun g hg => by rw [hs1, tableWrite_ctx, staged_ctx_other hg]
    have hstage : (staged s s.cur st [.physTable off bs]).MemOk := hmem
    simp only [ends, ht]
    refine ⟨hends, fun hcap i hi => ?_, fun hlo' hgen => ?_, fun hremap => ?_, fun hlo' hrest => ?_⟩
    · have hword : tableWord (committed s1 s.cur (ended s st [.physTable off bs])) here (off / 8 * 8 + 4 * i) 4 =
          tableWord s1 here (off / 8 * 8 + 4 * i) 4 := by rw [tableWord, committed_mem, tableWord]
      rw [hword, hs1, tableWrite_caps hcap, tableWord_half hstage hi (capFix_lt _ _) (capFix_lt _ _)]
      match i, hi with
      | 0, _ => rfl
      | 1, _ => rfl
    · have hword : tableWord (committed s1 s.cur (ended s st [.physTable off bs])) here (off / 8 * 8) 8 =
          tableWord s1 here (off / 8 * 8) 8 := by rw [tableWord, committed_mem, tableWord]
      rw [hword, hs1, tableWrite_gens hlo' hgen, tableWord_whole hstage (Nat.and_lt_two_pow _ (by decide))]
      rfl
    · rw [committed_mem, remapOf, tileField_committed Tile.remap (fun _ _ => rfl), hs1, tableWrite_remap hremap,
        State.tile_modTile]
      exact ⟨rfl, tabGet_tabSet_same ..⟩
    · rw [committed_mem, hs1, tableWrite_other hlo' hrest]
      exact ⟨rfl, tileField_committed Tile.remap (fun _ _ => rfl) ..⟩

end Sys2Proof.Proofs
end

section

/-! The waits that a bundle's heads have staged (R28, R38, R39, R279, R280, R320, R402), and the end of a bundle as a
whole. -/

namespace Sys2Proof.Proofs

open Sys2Proof.Machine Sys2Proof.Laws Sys2Proof.Stated

/-! ### What a fence waits for (R279, R280) -/

theorem inScope_iff (t scope dst : Nat) : inScope t scope dst = true ↔ InScope t scope dst := by
  unfold inScope InScope
  split
  · simp
  · simp
  · simp
  · simp
  · next h0 h1 h2 h3 =>
    have hscope : 4 ≤ scope := by
      rcases Nat.lt_or_ge scope 4 with h | h
      · interval_cases scope <;> simp_all
      · exact h
    simp [hscope]

theorem fenceDone_iff (s : State) (g scope : Nat) (xp : Bool) : fenceDone s g scope xp = true ↔ Fenced s g scope xp := by
  have hsent : (s.pkts.all fun e => !(e.2.owner == .act (s.ctx g).act && inScope (tileOf g) scope e.2.dst)) = true ↔
      ∀ e ∈ s.pkts, e.2.owner = .act (s.ctx g).act → ¬InScope (tileOf g) scope e.2.dst := by
    simp only [List.all_eq_true, Bool.not_eq_true', Bool.and_eq_false_iff, beq_eq_false_iff_ne, ← inScope_iff,
      Bool.not_eq_true, imp_iff_not_or, ne_eq]
  have hmerged : (!xp || s.tiles.all fun e => !inScope (tileOf g) scope e.1 ||
      e.2.merge.all fun m => m.act != (s.ctx g).act) = true ↔
      (xp = true → ∀ e ∈ s.tiles, InScope (tileOf g) scope e.1 → ∀ m ∈ e.2.merge, m.act ≠ (s.ctx g).act) := by
    simp only [Bool.or_eq_true, Bool.not_eq_true', List.all_eq_true, bne_iff_ne, ← inScope_iff, imp_iff_not_or,
      Bool.not_eq_true]
  simp only [fenceDone, Fenced, Bool.and_eq_true, Bool.or_eq_true, List.isEmpty_iff, beq_iff_eq, hsent]
  rw [← hmerged, Bool.or_eq_true]

theorem phaseDone_iff (w ph : Nat) (b0 : Bool) :
    phaseDone w ph b0 = true ↔ if b0 then w % 2 ≠ ph % 2 else w % 16 ≠ ph % 16 := by
  cases b0 <;> simp [phaseDone, nfld]

/-! ### A bundle that completes after its wait -/

theorem completed_raised {s t t' : State} {g next : Nat} {st : Stage} (h : Completed s g next st t)
    (hraised : Raised (t.ctx g) (t'.ctx g)) : Completed s g next st t' := by
  obtain ⟨i, p, hctx, -⟩ := hraised
  rw [Completed] at h ⊢
  rw [hctx]
  exact h

theorem fill_ended (s : State) (st : Stage) (acts : List Act) (slot wr : Option Nat) (v : Word) :
    (ended s st acts).fill slot wr v = ended s (st.fill slot wr v) acts := by
  cases slot <;> cases wr <;> rfl

theorem straight_fill {st : Stage} (h : Straight st) (slot wr : Option Nat) (v : Word) : Straight (st.fill slot wr v) := by
  cases slot <;> cases wr <;> exact h

theorem next_fill (st : Stage) (slot wr : Option Nat) (v : Word) : (st.fill slot wr v).next = st.next := by
  cases slot <;> cases wr <;> rfl

theorem ctx_fillSlot {s : State} {g : Nat} {st : Stage} (slot wr : Option Nat) (v : Word)
    (h : (s.ctx g).stage = some st) : (fillSlot s g slot wr v).ctx g = { s.ctx g with stage := some (st.fill slot wr v) } := by
  rw [fillSlot, State.ctx_modCtx, h]
  rfl

section

variable {s s' s1 : State} {g next : Nat} {st st1 : Stage} {acts : List Act} {o : Option Stage} {held : List Effect}

theorem commitBundle_straight (hstraight : Straight st1)
    (hctx : s1.ctx g = { s.ctx g with stage := o, held := held }) (hloops : (s.ctx g).loops = [])
    (hfail : (s.ctx g).fail = []) : commitBundle s1 g st1 = committed s1 g st1 := by
  have ⟨hxfer, hopen, hcregs⟩ := hstraight
  refine commitBundle_eq (by simp [hxfer]) hcregs (failedReply_of_no_fail _ ?_)
  rw [committed_ctx_straight hstraight hctx hloops]
  simp only [completed, applyStage_eq _ hcregs hopen]
  exact hfail

/-- When the acts are done the bundle has completed, whatever priorities its end changes. -/
theorem continueBundle_completes (hrun : runActs s' g acts = (s1, none)) (hstraight : Straight st1)
    (hctx : s1.ctx g = { s.ctx g with stage := some st1, held := held }) (hloops : (s.ctx g).loops = [])
    (hfail : (s.ctx g).fail = []) (hresume : (s.ctx g).resume = none) (hnext : st1.next = next)
    (happly : (s.ctx g).applyStage st1 = (s.ctx g).applyStage st) :
    Completed s g next st (continueBundle s' g acts) := by
  rw [continueBundle_commits (st := st1) hrun (by rw [hctx]) (by rw [hctx]; exact hresume),
    commitBundle_straight hstraight hctx hloops hfail]
  have hdone := completed_committed hstraight hctx hloops hnext happly
  split
  · exact completed_raised hdone (raised_inherit _ _)
  · exact hdone

end

/-! ### The end of a bundle whose act may wait -/

section

variable {s s1 : State} {h : Head} {st : Stage} {a : Act}

theorem after_continues (hlast : h.chain = false) (hguard : st.guardAt = none) (hpend : st.pend = none)
    (htrap : st.trap = none) (hsave : (me s).saveDue = false) (hresume : (me s).resume = none)
    (hacts : actsOf s s.cur st = [a]) : after s h st = continueBundle (staged s s.cur st [a]) s.cur [a] := by
  rw [after_of_last hlast, finishBundle_acts hguard hpend htrap (by rw [hsave]; rfl) hresume, hacts]

end

/-- A context in WAIT after an act, up to what it may inherit. -/
theorem ctx_continue_waits {s s1 : State} {g : Nat} {acts rest : List Act} {w : Waiting}
    (hrun : runActs s g acts = (s1, some (w, rest))) :
    Raised ({ s1.ctx g with st := .wait, waiting := w, stage := (s1.ctx g).stage.map (fun st => { st with acts := rest }) })
      ((continueBundle s g acts).ctx g) := by
  rw [continueBundle_waits hrun]
  dsimp only
  split
  · refine Raised.trans ?_ (raised_inherit _ _)
    rw [State.ctx_modCtx]
    exact .refl _
  · rw [State.ctx_modCtx]
    exact .refl _

theorem inherit_mem (s : State) : (inherit s).mem = s.mem := rfl

theorem mem_continue_waits {s s1 : State} {g : Nat} {acts rest : List Act} {w : Waiting}
    (hrun : runActs s g acts = (s1, some (w, rest))) : (continueBundle s g acts).mem = s1.mem := by
  rw [continueBundle_waits hrun]
  dsimp only
  split
  · rfl
  · rfl

/-- What a commit point other than the end leaves of a context (R38, R39). -/
theorem release_ctx (s : State) (g : Nat) : (release s g false).ctx g = { s.ctx g with
    held := [], group := ((s.ctx g).group + 1) % 65536
    groups := (s.ctx g).groups ++ [⟨(s.ctx g).group, (s.ctx g).held, false, false⟩]
    status := putFld (s.ctx g).status 13 1 1 } := State.ctx_modCtx ..

/-- COMMITTED is set, and no other bit of STATUS changes (R38). -/
theorem committed_bit (v : Word) : (putFld v 13 1 1).getLsbD 13 = true ∧
    ∀ k, k < 64 → k ≠ 13 → (putFld v 13 1 1).getLsbD k = v.getLsbD k :=
  ⟨by rw [getLsbD_putFld _ _ _ _ (by decide)]; rfl,
    fun k hk hne => by rw [getLsbD_putFld _ _ _ _ hk, if_neg (by omega)]⟩

/-- A fence whose context has a group to forward waits (R279). -/
theorem fenceDone_of_groups {s : State} {g scope : Nat} {xp : Bool} (h : (s.ctx g).groups ≠ []) :
    fenceDone s g scope xp = false := by
  rw [← Bool.not_eq_true, fenceDone_iff]
  exact fun hdone => h hdone.1

/-! ### The turn of a context in WAIT (R28) -/

section

variable {s : State} {g : Nat} {st : Stage}

theorem issueCtx_of_wait (hwait : (s.ctx g).st = .wait) (hsave : (s.ctx g).saveDue = false)
    (hstage : (s.ctx g).stage = some st) (hbuffer : (s.ctx g).waiting ≠ .buffer) (hpoison : waitPoison s g = none) :
    issueCtx s g = .done (continueBundle s g st.acts) := by
  have hkept : waitKept s g = false := by simp [waitKept, hsave]
  simp only [issueCtx, hwait, hkept, Bool.false_eq_true, if_false, wakeCtx, hpoison, hstage]
  rw [if_neg (by simp [hbuffer])]

theorem waitPoison_join {off : Nat} (hw : (s.ctx g).waiting = .join off)
    (hclean : poisoned s (keyScratch (tileOf g) off) 8 = false) : waitPoison s g = none := by
  simp [waitPoison, hw, hclean]

theorem waitPoison_barrier {off ph : Nat} {b0 : Bool} (hw : (s.ctx g).waiting = .barrier off ph b0)
    (hclean : poisoned s (keyScratch (tileOf g) off) 16 = false) : waitPoison s g = none := by
  simp [waitPoison, hw, hclean]

/-- A wait that goes on leaves its context as it is (R28). -/
theorem continueBundle_stays {acts : List Act} (hstage : (s.ctx g).stage = some st)
    (hrun : runActs s g acts = (s, some ((s.ctx g).waiting, st.acts))) :
    let t := continueBundle s g acts
    t.mem = s.mem ∧ (t.ctx g).st = .wait ∧ (t.ctx g).waiting = (s.ctx g).waiting ∧ (t.ctx g).stage = (s.ctx g).stage := by
  obtain ⟨i, p, hctx, -⟩ := ctx_continue_waits hrun
  dsimp only
  rw [hctx, hstage]
  exact ⟨mem_continue_waits hrun, rfl, rfl, rfl⟩

end

/-! ### What the end of a bundle with one waiting act leaves -/

section

variable {s : State} {h : Head} {st : Stage} {a : Act}

/-- The act is done at once and fills what it owes. -/
theorem completed_of_filled {slot wr : Option Nat} {v : Word} (hstraight : Straight st) (hloops : (me s).loops = [])
    (hfail : (me s).fail = []) (hresume : (me s).resume = none)
    (hdo : doAct (staged s s.cur st [a]) s.cur a = .next (fillSlot (staged s s.cur st [a]) s.cur slot wr v)) :
    Completed s s.cur s.after (st.fill slot wr v) (continueBundle (staged s s.cur st [a]) s.cur [a]) := by
  have hctx := ctx_fillSlot slot wr v (show ((staged s s.cur st [a]).ctx s.cur).stage = some (ended s st [a]) by
    rw [staged_ctx])
  rw [staged_ctx, fill_ended] at hctx
  obtain ⟨-, hopen, hcregs⟩ := straight_fill hstraight slot wr v
  exact continueBundle_completes (st1 := ended s (st.fill slot wr v) [a]) (held := (me s).held) (runActs_next hdo)
    (straight_fill hstraight slot wr v) hctx hloops hfail hresume rfl (applyStage_ended _ hopen hcregs)

/-- The act waits, and nothing is released. -/
theorem ctx_of_waited {w : Waiting}
    (hdo : doAct (staged s s.cur st [a]) s.cur a = .wait (staged s s.cur st [a]) w [a]) :
    let c' := (continueBundle (staged s s.cur st [a]) s.cur [a]).ctx s.cur
    c'.st = .wait ∧ c'.waiting = w ∧ c'.stage = some (ended s st [a]) := by
  obtain ⟨i, p, hctx, -⟩ := ctx_continue_waits (runActs_wait (r := []) hdo)
  rw [staged_ctx] at hctx
  dsimp only
  rw [hctx]
  exact ⟨rfl, rfl, rfl⟩

/-- The act waits once everything that is held has been released as one group (R38). -/
theorem ctx_of_released {held : List Effect} {w : Waiting} {first : List Act} {s1 : State}
    (hctx : s1.ctx s.cur = { me s with stage := some (ended s st [a]), held := held }) (hmem : s1.mem = s.mem)
    (hdo : doAct (staged s s.cur st [a]) s.cur a = .wait (release s1 s.cur false) w first) :
    let t := continueBundle (staged s s.cur st [a]) s.cur [a]
    let c := me s
    let c' := t.ctx s.cur
    (c'.st = .wait ∧ c'.waiting = w ∧ c'.stage = some (ended s st first) ∧ c'.pc = c.pc ∧ c'.n = c.n ∧ t.mem = s.mem) ∧
      c'.held = [] ∧ c'.groups = c.groups ++ [⟨c.group, held, false, false⟩] ∧ c'.status.getLsbD 13 = true ∧
      ∀ k, k < 64 → k ≠ 13 → c'.status.getLsbD k = c.status.getLsbD k := by
  have hrun := runActs_wait (r := []) hdo
  obtain ⟨i, p, hctx', -⟩ := ctx_continue_waits hrun
  rw [release_ctx, hctx, List.append_nil] at hctx'
  dsimp only
  rw [hctx', mem_continue_waits hrun]
  exact ⟨⟨rfl, rfl, rfl, rfl, rfl, hmem⟩, rfl, rfl, committed_bit (me s).status⟩

end

theorem bundleWaits : BundleWaits := by
  intro s c here counter left hloops hfail hsave hresume
  refine ⟨fun h st hlast hguard hpend htrap hxfer hopen hlink hcregs hwaiting => ?staged,
    fun st hwait hstage hxfer hopen hlink hcregs => ?turn⟩
  case staged =>
    intro t c' waits released
    have hstraight : Straight st := ⟨hxfer, hopen, hcregs⟩
    have continues {a : Act} (hacts : actsOf s s.cur st = [a]) : t = continueBundle (staged s s.cur st [a]) s.cur [a] :=
      after_continues hlast hguard hpend htrap hsave hresume hacts
    refine ⟨fun scope xp hacts => ?fence, fun e slot wr hacts hroom => ?blocking,
      fun off slot wr hacts => ⟨fun hzero => ?joined, fun hzero => ?joining⟩,
      fun off ph b0 slot wr hacts => ⟨fun hleft => ?passed, fun hleft => ?passing⟩⟩
    case fence =>
      have hdo : doAct (staged s s.cur st [.fence scope xp]) s.cur (.fence scope xp) =
          .wait (release (staged s s.cur st [.fence scope xp]) s.cur false) (.fence scope xp) [.fenceWait scope xp] := by
        rw [doAct, fenceDone_of_groups (by rw [release_ctx]; simp)]
        rfl
      have ht := continues (a := .fence scope xp) (actsOf_one hacts)
      simp only [waits, released, c', List.append_nil]
      rw [ht]
      exact ctx_of_released (held := (me s).held) (staged_ctx ..) rfl hdo
    case blocking =>
      set e' : Effect := { e with tag := tagOf s here c.asid } with he'
      set s1 := (staged s s.cur st [.blocking e' slot wr]).modCtx s.cur (fun c => { c with held := c.held ++ [e'] }) with hs1
      have hfit : heldBytes ((staged s s.cur st [.blocking e' slot wr]).ctx s.cur).held + heldBytes [e'] ≤
          Config.bufferBytes := by
        rw [staged_ctx]
        exact hroom
      have hdo : doAct (staged s s.cur st [.blocking e' slot wr]) s.cur (.blocking e' slot wr) =
          .wait (release s1 s.cur false) (.reply s.cycle) [.awaitReply slot wr] := by
        rw [doAct, holdEffects]
        simp only [if_pos hfit]
        rfl
      have hctx : s1.ctx s.cur = { me s with stage := some (ended s st [.blocking e' slot wr]), held := (me s).held ++ [e'] } := by
        rw [hs1, State.ctx_modCtx, staged_ctx]
      have ht := continues (a := .blocking e' slot wr) (actsOf_one hacts)
      simp only [waits, released, c']
      rw [ht]
      exact ctx_of_released hctx rfl hdo
    case joined =>
      have ht := continues (a := .join off slot wr) (actsOf_one hacts)
      rw [ht]
      exact completed_of_filled hstraight hloops hfail hresume (if_pos hzero)
    case joining =>
      have ht := continues (a := .join off slot wr) (actsOf_one hacts)
      simp only [c']
      rw [ht]
      exact ctx_of_waited (if_neg hzero)
    case passed =>
      have ht := continues (a := .barrier off ph b0 slot wr) (actsOf_one hacts)
      rw [ht]
      exact completed_of_filled hstraight hloops hfail hresume (if_pos ((phaseDone_iff _ _ _).mpr hleft))
    case passing =>
      have ht := continues (a := .barrier off ph b0 slot wr) (actsOf_one hacts)
      simp only [c']
      rw [ht]
      exact ctx_of_waited (if_neg (mt (phaseDone_iff _ _ _).mp hleft))
  case turn =>
    have hstraight : Straight st := ⟨hxfer, hopen, hcregs⟩
    intro ends stays
    have hissue {w : Waiting} (hwaiting : c.waiting = w) (hbuffer : w ≠ .buffer) (hpoison : waitPoison s s.cur = none) :
        issueCtx s s.cur = .done (continueBundle s s.cur st.acts) :=
      issueCtx_of_wait hwait hsave hstage (hwaiting ▸ hbuffer) hpoison
    have hself : s.ctx s.cur = { s.ctx s.cur with stage := some st, held := (me s).held } := by rw [← hstage]
    have stay {a : Act} {w : Waiting} (hwaiting : c.waiting = w) (hacts : st.acts = [a]) (hbuffer : w ≠ .buffer)
        (hpoison : waitPoison s s.cur = none) (hdo : doAct s s.cur a = .wait s w [a]) : stays := by
      refine ⟨_, hissue hwaiting hbuffer hpoison, ?_⟩
      rw [hacts]
      refine continueBundle_stays hstage ((runActs_wait (r := []) hdo).trans ?_)
      rw [hacts, List.append_nil, show (s.ctx s.cur).waiting = w from hwaiting]
    have filled {a : Act} {w : Waiting} {slot wr : Option Nat} {v : Word} (hwaiting : c.waiting = w) (hacts : st.acts = [a])
        (hbuffer : w ≠ .buffer) (hpoison : waitPoison s s.cur = none)
        (hdo : doAct s s.cur a = .next (fillSlot s s.cur slot wr v)) : ends (st.fill slot wr v) := by
      refine ⟨_, hissue hwaiting hbuffer hpoison, ?_⟩
      rw [hacts]
      exact continueBundle_completes (st1 := st.fill slot wr v) (held := (me s).held) (runActs_next hdo)
        (straight_fill hstraight slot wr v) (ctx_fillSlot slot wr v hstage) hloops hfail hresume (next_fill ..) rfl
    refine ⟨fun scope xp hw hacts => ⟨fun hdone => ?fenced, fun hdone => ?fencing⟩, fun since slot wr hw hacts => ?replying,
      fun off slot wr hw hacts hclean => ⟨fun hzero => ?joined, fun hzero => ?joining⟩,
      fun off ph b0 slot wr hw hacts hclean => ⟨fun hleft => ?passed, fun hleft => ?passing⟩⟩
    case fenced =>
      refine ⟨_, hissue hw (by simp) (by simp [waitPoison, show (s.ctx s.cur).waiting = _ from hw]), ?_⟩
      rw [hacts]
      exact continueBundle_completes (st1 := st) (held := (me s).held)
        (runActs_next (if_pos ((fenceDone_iff _ _ _ _).mpr hdone))) hstraight hself hloops hfail hresume rfl rfl
    case fencing =>
      exact stay hw hacts (by simp) (by simp [waitPoison, show (s.ctx s.cur).waiting = _ from hw])
        (if_neg (mt (fenceDone_iff _ _ _ _).mp hdone))
    case replying =>
      refine stay hw hacts (by simp) (by simp [waitPoison, show (s.ctx s.cur).waiting = _ from hw]) ?_
      simp only [doAct, show (s.ctx s.cur).waiting = _ from hw]
    case joined =>
      exact filled hw hacts (by simp) (waitPoison_join hw hclean) (if_pos hzero)
    case joining =>
      exact stay hw hacts (by simp) (waitPoison_join hw hclean) (if_neg hzero)
    case passed =>
      exact filled hw hacts (by simp) (waitPoison_barrier hw hclean)
        (if_pos ((phaseDone_iff _ _ _).mpr hleft))
    case passing =>
      exact stay hw hacts (by simp) (waitPoison_barrier hw hclean)
        (if_neg (mt (phaseDone_iff _ _ _).mp hleft))

/-- Settles O47: chained heads, the results, transfers and acts of a bundle, and its waits. -/
theorem bundleProgress : Obligations.BundleProgress := by
  unfold Obligations.BundleProgress
  exact ⟨chainedHeads, bundlesComplete, bundleTransfers, bundleActs, bundleWaits⟩

end Sys2Proof.Proofs
end

section

/-! The effects buffer and the forwarding of a context's own stores (R36-R39), and the trap record (R407): what bytes
that are laid down one after the other hold. -/

namespace Sys2Proof.Proofs

open Sys2Proof.Machine Sys2Proof.Laws Sys2Proof.Stated

/-! ### Fields of a record that is laid down field by field -/

/-- A field behind the first one. -/
theorem natAt_skip {m v o n : Nat} {l : List Byte} (h : m ≤ o) : natAt (bytesLE m v ++ l) o n = natAt l (o - m) n := by
  rw [natAt, natAt, sliceB, sliceB, List.drop_append, List.drop_of_length_le (by rw [length_bytesLE]; exact h),
    List.nil_append, length_bytesLE]

/-- The first field. -/
theorem natAt_first {n v : Nat} {l : List Byte} : natAt (bytesLE n v ++ l) 0 n = v % 256 ^ n := by
  rw [natAt, sliceB, List.drop_zero, List.take_left' (length_bytesLE ..), length_bytesLE, Nat.sub_self,
    List.replicate_zero, List.append_nil, natLE_bytesLE]

/-- The only field. -/
theorem natAt_bytesLE {n v : Nat} : natAt (bytesLE n v) 0 n = v % 256 ^ n := by
  have h := natAt_first (n := n) (v := v) (l := [])
  rwa [List.append_nil] at h

/-! ### Forwarding (R36) -/

@[simp] theorem length_overlay (l eb : List Byte) (k ek : Nat) : (overlay l k ek eb).length = l.length := by
  induction l generalizing k with
  | nil => rfl
  | cons b r ih => rw [overlay, List.length_cons, List.length_cons, ih]

theorem getElem?_overlay (l eb : List Byte) (k ek i : Nat) :
    (overlay l k ek eb)[i]? = l[i]?.map (fun b => overByte (k + i) b ek eb) := by
  induction l generalizing k i with
  | nil => rfl
  | cons b r ih =>
    cases i with
    | zero => rfl
    | succ i =>
      rw [overlay, List.getElem?_cons_succ, List.getElem?_cons_succ, ih, Nat.add_right_comm, ← Nat.add_assoc]

theorem length_forward (ws : List (Nat × List Byte)) (k : Nat) (mem : List Byte) :
    (forward ws k mem).length = mem.length := by
  induction ws generalizing mem with
  | nil => rfl
  | cons w r ih => exact (ih _).trans (length_overlay ..)

/-- Stores that do not touch a byte leave it. -/
theorem getElem?_forward_outside {ws : List (Nat × List Byte)} {k i : Nat} (mem : List Byte)
    (h : ∀ w ∈ ws, k + i < w.1 ∨ w.1 + w.2.length ≤ k + i) : (forward ws k mem)[i]? = mem[i]? := by
  induction ws generalizing mem with
  | nil => rfl
  | cons w r ih =>
    refine (ih _ fun x hx => h x (List.mem_cons_of_mem _ hx)).trans ?_
    rw [getElem?_overlay]
    simp only [overByte_outside _ (h w (List.mem_cons_self ..)), Option.map_id']

theorem forward_append (ws ws' : List (Nat × List Byte)) (k : Nat) (mem : List Byte) :
    forward (ws ++ ws') k mem = forward ws' k (forward ws k mem) := List.foldl_append ..

theorem forwarding : Forwarding := by
  intro ws k n mem i hlen hi
  refine ⟨(length_forward ..).trans hlen, getElem?_forward_outside mem, fun pre w post hws hlo hhi hpost => ?_⟩
  have hin : i < (forward pre k mem).length := by rw [length_forward, hlen]; exact hi
  have hoff : k + i - w.1 < w.2.length := by omega
  rw [hws, forward_append]
  refine (getElem?_forward_outside _ hpost).trans ?_
  rw [getElem?_overlay, List.getElem?_eq_getElem hin, List.getElem?_eq_getElem hoff]
  exact congrArg some (overByte_inside _ ⟨hlo, hhi⟩)

/-! ### The buffer (R36-R39) -/

theorem effect_size_eq (e : Effect) : e.size = 16 + (e.data.length + 15) / 16 * 16 := rfl

theorem header_fields (e : Effect) :
    e.header.length = 16 ∧ natAt e.header 0 1 = e.opc % 256 ∧ natAt e.header 1 1 = e.modf % 256 ∧
    natAt e.header 2 2 = e.data.length % 65536 ∧ natAt e.header 4 2 = e.ctl % 65536 ∧ natAt e.header 6 2 = e.part % 65536 ∧
    natAt e.header 8 8 = e.addr.toNat := by
  have haddr : e.addr.toNat % 18446744073709551616 = e.addr.toNat := Nat.mod_eq_of_lt e.addr.isLt
  simp only [Effect.header, List.append_assoc]
  refine ⟨by simp [length_bytesLE], ?_, ?_, ?_, ?_, ?_, ?_⟩ <;>
    simp (disch := decide) only [natAt_skip, natAt_first, natAt_bytesLE, haddr, Nat.reduceSub, Nat.reducePow]

theorem effectsBuffer : EffectsBuffer := by
  intro s g e c
  have hbytes : heldBytes (s.ctx g).held + heldBytes [e] = (c.held.map Effect.size).sum + e.size := rfl
  refine ⟨rfl, header_fields e, fun hroom => ?_, fun hfull => ?_, fun final => ?_⟩
  · rw [holdEffects, if_pos (hbytes ▸ hroom)]
  · rw [holdEffects, if_neg (hbytes ▸ Nat.not_le.mpr hfull)]
  · cases final with
    | false =>
      dsimp only
      rw [release_ctx]
      exact ⟨rfl, rfl, fun _ => (committed_bit c.status).1, fun h => absurd h (by decide), (committed_bit c.status).2⟩
    | true =>
      dsimp only
      rw [release, State.ctx_modCtx]
      exact ⟨rfl, rfl, fun h => absurd h (by decide), fun _ => rfl, fun _ _ _ => rfl⟩

/-- Settles O48: the newest store over a byte, then the layout of an entry and the limit of the buffer. -/
theorem storeForwardingAndBuffer : Obligations.StoreForwardingAndBuffer := ⟨forwarding, effectsBuffer⟩

/-! ### The trap record (R407) -/

theorem code_lt (c : Cause) : c.code < 65536 := by
  cases c <;> decide

/-- The four flags of a record. -/
theorem testBit_flags (a b c d : Bool) :
    let n := (a.toNat + 2 * b.toNat + 4 * c.toNat + 8 * d.toNat) % 256 ^ 1
    n.testBit 0 = a ∧ n.testBit 1 = b ∧ n.testBit 2 = c ∧ n.testBit 3 = d := by
  revert a b c d
  decide

theorem trapRecordFields : TrapRecordFields := by
  intro i status cycle r
  have hcause : i.cause.code % 256 ^ 2 = i.cause.code := Nat.mod_eq_of_lt (code_lt _)
  have hhead : i.fhead % 32 % 256 ^ 1 = i.fhead % 32 := Nat.mod_eq_of_lt (by omega)
  have hstatus : status.toNat % 256 ^ 8 = status.toNat := Nat.mod_eq_of_lt status.isLt
  obtain ⟨hb0, hb1, hb2, hb3⟩ := testBit_flags i.addr.isSome i.target i.imprecise i.reply
  simp only [r, trapRecord, List.append_assoc]
  refine ⟨by simp [length_bytesLE], ?_, ?_, ?_, ?_, ?_, ?_, ?_, ?_, ?_, ?_, ?_, ?_, ?_, ?_⟩ <;>
    simp (disch := decide) only [natAt_skip, natAt_first, natAt_bytesLE, hcause, hhead, hstatus, hb0, hb1, hb2, hb3,
      Nat.reduceSub, Nat.zero_mod] <;> rfl

end Sys2Proof.Proofs
end

section

/-! Taking a trap (R406-R409), and the ends of contexts (R32, R42, R413). -/

namespace Sys2Proof.Proofs

open Sys2Proof.Machine Sys2Proof.Laws Sys2Proof.Stated

/-! ### What a walk, a firing and a log entry leave -/

/-- Two states with the same memory, contexts, cycle and write-merge paths. -/
structure SameStores (s t : State) : Prop where
  mem : t.mem = s.mem
  ctxs : t.ctxs = s.ctxs
  cycle : t.cycle = s.cycle
  merge : ∀ u, (t.tile u).merge = (s.tile u).merge

theorem SameStores.refl (s : State) : SameStores s s := ⟨rfl, rfl, rfl, fun _ => rfl⟩

theorem SameStores.trans {s t u : State} (hst : SameStores s t) (htu : SameStores t u) : SameStores s u :=
  ⟨htu.mem.trans hst.mem, htu.ctxs.trans hst.ctxs, htu.cycle.trans hst.cycle,
    fun x => (htu.merge x).trans (hst.merge x)⟩

theorem SameStores.visRead_eq {s t : State} (h : SameStores s t) (k n : Nat) : visRead t k n = visRead s k n :=
  visRead_congr h.mem h.merge k n

theorem SameStores.ctx_eq {s t : State} (h : SameStores s t) (g : Nat) : t.ctx g = s.ctx g := ctx_eq_of_ctxs h.ctxs g

theorem sameStores_setTile {s : State} {t : Nat} {x : Tile} (hx : x.merge = (s.tile t).merge) :
    SameStores s (s.setTile t x) := by
  refine ⟨rfl, rfl, rfl, fun u => ?_⟩
  by_cases hu : u = t
  · subst hu
    rw [State.tile_setTile, hx]
  · rw [State.tile_setTile_other _ _ hu]

theorem sameStores_modTile {s : State} {t : Nat} {f : Tile → Tile} (hf : ∀ x, (f x).merge = x.merge) :
    SameStores s (s.modTile t f) := sameStores_setTile (hf _)

theorem sameStores_foldl {β : Type} {f : State → β → State} (hf : ∀ s b, SameStores s (f s b)) (l : List β) (s : State) :
    SameStores s (l.foldl f s) := by
  induction l generalizing s with
  | nil => exact .refl s
  | cons b r ih => exact (hf s b).trans (ih (f s b))

theorem sameStores_countPerf (s : State) (t ev n : Nat) : SameStores s (countPerf s t ev n) := by
  unfold countPerf
  split
  · exact sameStores_modTile fun _ => rfl
  · exact .refl s

theorem sameStores_touchPage (s : State) (k n : Nat) : SameStores s (touchPage s k n) := by
  unfold touchPage
  split
  · refine SameStores.trans ?_ (sameStores_countPerf ..)
    exact sameStores_modTile fun _ => rfl
  · exact .refl s

theorem sameStores_logAt (s : State) (kind cause t lslot addr code : Nat) :
    SameStores s (logAt s kind cause t lslot addr code) := ⟨rfl, rfl, rfl, fun _ => rfl⟩

theorem sameStores_startRepair (s : State) (t : Nat) : SameStores s (startRepair s t) := by
  unfold startRepair
  dsimp only
  split
  · split
    · refine SameStores.trans ?_ (sameStores_logAt ..)
      exact sameStores_setTile rfl
    · exact sameStores_setTile rfl
  · exact .refl s

theorem sameStores_countCorrected (s : State) (t k : Nat) : SameStores s (countCorrected s t k) := by
  unfold countCorrected
  dsimp only
  split
  · refine SameStores.trans ?_ (sameStores_startRepair ..)
    exact sameStores_setTile rfl
  · exact sameStores_setTile rfl

theorem sameStores_injFire (s : State) (t addr : Nat) : SameStores s (injFire s t addr) := by
  have hlogged : ∀ i code, SameStores s (logAt { s with mgmt := { s.mgmt with inject := i } } 0x0B 0 t 0 addr code) :=
    fun _ _ => ⟨rfl, rfl, rfl, fun _ => rfl⟩
  unfold injFire
  dsimp only
  split
  · exact (hlogged _ _).trans (sameStores_countCorrected ..)
  · exact hlogged _ _

theorem sameStores_fireRead (s : State) (k : Nat) : SameStores s (fireRead s k) := by
  unfold fireRead
  split
  · exact sameStores_injFire ..
  · exact .refl s

theorem sameStores_fillTlb (s : State) (t asid va : Nat) : SameStores s (fillTlb s t asid va) := by
  have hread : ∀ s k, SameStores s (touchPage (fireRead s k) k 8) := fun s k =>
    (sameStores_fireRead s k).trans (sameStores_touchPage ..)
  have hcounted := (sameStores_foldl hread (walkKeys s va 4 (tableKey (genEntry s t asid).toNat)) s).trans
    (sameStores_countPerf _ t 7 1)
  unfold fillTlb
  dsimp only
  split
  · refine hcounted.trans ?_
    exact sameStores_modTile fun _ => rfl
  · exact hcounted

theorem sameStores_noteWalk (s : State) (t asid va : Nat) : SameStores s (noteWalk s t asid va) := by
  unfold noteWalk
  split
  · exact sameStores_fillTlb ..
  · exact .refl s

theorem sameStores_engineWalk (s : State) (t asid va : Nat) : SameStores s (engineWalk s t asid va) := by
  have hwalked := sameStores_fillTlb s t asid va
  unfold engineWalk
  split
  · unfold walkLogged
    dsimp only
    split
    · exact hwalked.trans (sameStores_logAt ..)
    · exact hwalked
  · exact .refl s

/-! ### Taking a trap (R406, R407) -/

/-- In user mode, with a place for the record and a vector that passes its checks, the trap is taken. -/
theorem takeTrap_enters {s : State} {g : Nat} {i : TrapInfo} {l : Loc} (hpte : i.pte = none)
    (huser : (s.ctx g).status.getLsbD 15 = false) (hgo : trapWaits s g = false)
    (hloc : locate (engineWalk s (tileOf g) (s.ctx g).asid (s.ctx g).saveptr.toNat) g .plain (s.ctx g).saveptr.toNat 64 64
      true = .ok l)
    (hfresh : staleAt (engineWalk s (tileOf g) (s.ctx g).asid (s.ctx g).saveptr.toNat) l.home
      (tagOf (engineWalk s (tileOf g) (s.ctx g).asid (s.ctx g).saveptr.toNat) (tileOf g) (s.ctx g).asid) = false)
    (hfree : guarded (engineWalk s (tileOf g) (s.ctx g).asid (s.ctx g).saveptr.toNat) l.key 64 = false)
    (hvec : checkTarget (trapped (engineWalk s (tileOf g) (s.ctx g).asid (s.ctx g).saveptr.toNat) g i l) g
        (fld (s.ctx g).trapvec 0 48) = .ok ∨
      checkTarget (trapped (engineWalk s (tileOf g) (s.ctx g).asid (s.ctx g).saveptr.toNat) g i l) g
        (fld (s.ctx g).trapvec 0 48) = .stall) :
    takeTrap s g i = (trapped (engineWalk s (tileOf g) (s.ctx g).asid (s.ctx g).saveptr.toNat) g i l).modCtx g
      (fun c => { c with pc := fld (s.ctx g).trapvec 0 48 }) := by
  have hctx := (sameStores_engineWalk s (tileOf g) (s.ctx g).asid (s.ctx g).saveptr.toNat).ctx_eq g
  rw [trapped, hctx] at hvec ⊢
  rw [takeTrap, hpte, logPte]
  simp only [Ctx.sys, huser, hgo, hloc, hfresh, hfree, Bool.false_eq_true, if_false, Bool.or_self]
  rcases hvec with hvec | hvec <;> rw [hvec]

theorem putFld_bit (v : Word) : putFld v 15 1 1 = v ||| BitVec.twoPow 64 15 := by
  apply BitVec.eq_of_getLsbD_eq
  intro k hk
  rw [getLsbD_putFld _ _ _ _ hk, BitVec.getLsbD_or, BitVec.getLsbD_twoPow]
  by_cases h15 : k = 15
  · simp [h15]
  · have hout : ¬(15 ≤ k ∧ k < 15 + 1) := by omega
    have hne : ¬15 = k := fun h => h15 h.symm
    simp [hout, hne]

/-- The record is written, and the handler runs in system mode at the vector. -/
theorem trapEntry : TrapEntry := by
  intro s g i l c vec t c' w
  refine ⟨fun st f hgrow hpage hremote => faultHead_traps hpage hremote hgrow, ?enters, ?waits⟩
  case waits =>
    intro hpte huser hwaits
    have ht : t = s.modCtx g (fun c => { c with
        st := .run, waiting := .none, stage := none, resume := none, trapDue := some { i with pte := none } }) := by
      simp only [t, takeTrap, hpte, logPte, Ctx.sys, c] at huser ⊢
      simp only [huser, hwaits, Bool.false_eq_true, if_false, if_true]
    have hi : ({ i with pte := none } : TrapInfo) = i := by rw [← hpte]
    simp only [c', ht, hi, State.ctx_modCtx]
    exact ⟨trivial, trivial, trivial, rfl, rfl, rfl⟩
  case enters =>
    intro hpte huser htile hgo hloc hfresh hfree hvec
    have hwalked := sameStores_engineWalk s (tileOf g) c.asid c.saveptr.toNat
    have hvec' : vec = fld c.trapvec 0 48 := by simp [vec, fld]
    have ht : t = (trapped w g i l).modCtx g (fun c => { c with pc := vec }) := by
      rw [hvec'] at hvec ⊢
      exact takeTrap_enters hpte huser hgo hloc hfresh hfree hvec
    have hkey : OnModule l.key := onModule_locate hloc
    have hlen : (trapRecord i c.status s.cycle).length = 64 := (trapRecordFields i c.status s.cycle).1
    have hrec : trapRecord i c.status s.cycle ≠ [] := by
      intro h
      rw [h] at hlen
      exact absurd hlen (by decide)
    have htrapped : trapped w g i l = (performStore w l.key (trapRecord i c.status s.cycle) 0).modCtx g (fun c => { c with
        status := putFld c.status 15 1 1, st := .run, waiting := .none, stage := none, resume := none, line := none,
        trapDue := none, lastBpc := i.bpc, tested := true,
        faulted := if i.imprecise || i.reply || i.cause == .trap || i.cause == .syscall || i.cause == .bkpt then none
          else some (i.ending false) }) := by
      simp only [trapped, w, hwalked.ctx_eq, hwalked.cycle, c]
    have hread : ∀ k n, visRead t k n = visRead (performStore w l.key (trapRecord i c.status s.cycle) 0) k n := by
      intro k n
      rw [ht, htrapped]
      exact visRead_congr rfl (fun _ => rfl) k n
    have hstored := visRead_performStore_same (s := w) (act := 0) hkey hrec
    rw [hlen, ← hread] at hstored
    have hctx : c' = { c with
        pc := vec, status := putFld c.status 15 1 1, st := .run, waiting := .none, stage := none, resume := none,
        line := none, trapDue := none, lastBpc := i.bpc, tested := true,
        faulted := if i.imprecise || i.reply || i.cause == .trap || i.cause == .syscall || i.cause == .bkpt then none
          else some (i.ending false) } := by
      simp only [c', ht, htrapped, State.ctx_modCtx, performStore_ctx]
      simp only [w, hwalked.ctx_eq, c]
    have hothers : ∀ x, x ≠ g → t.ctx x = s.ctx x := by
      intro x hx
      rw [ht, State.ctx_modCtx_other _ _ hx, htrapped, State.ctx_modCtx_other _ _ hx, performStore_ctx]
      exact hwalked.ctx_eq x
    have hmgmt : t.mgmt = w.mgmt := by
      rw [ht, htrapped]
      exact performStore_keeps State.mgmt (fun _ _ => rfl) (fun _ _ _ => rfl) ..
    rw [hctx]
    refine ⟨rfl, rfl, rfl, putFld_bit _, hstored, fun k hk => ?_, rfl, rfl, rfl, rfl, rfl, rfl, rfl, rfl, rfl, rfl, rfl,
      rfl, rfl, rfl, rfl, hothers, hmgmt⟩
    rw [hread, visRead_performStore_other hkey hrec (by rw [hlen]; exact hk)]
    exact hwalked.visRead_eq k 1

/-- Settles O49: the walk, the record and the entry of the handler touch nothing else. -/
theorem trapTaking : Obligations.TrapTaking := ⟨trapEntry, trapRecordFields⟩

/-! ### The end by a fault in system mode (R409, R413) -/

theorem tabGet_tabDel_same {β : Type} (d : β) (m : List (Nat × β)) (k : Nat) : tabGet d (tabDel m k) k = d := by
  induction m with
  | nil => rfl
  | cons e r ih =>
    by_cases hk : e.1 = k
    · simpa [tabDel, tabGet, storeGet, hk] using ih
    · simpa [tabDel, tabGet, storeGet, hk] using ih

theorem tabGet_tabDel_other {β : Type} (d : β) (m : List (Nat × β)) {k j : Nat} (hj : j ≠ k) :
    tabGet d (tabDel m k) j = tabGet d m j := by
  induction m with
  | nil => rfl
  | cons e r ih =>
    by_cases hk : e.1 = k
    · have hne : ¬ e.1 = j := fun h => hj (h.symm.trans hk)
      simpa [tabDel, tabGet, storeGet, hk, hne, Ne.symm hj] using ih
    · by_cases hej : e.1 = j
      · simp [tabDel, tabGet, storeGet, hej, hj]
      · simpa [tabDel, tabGet, storeGet, hk, hej] using ih

section

variable {γ : Type} (π : State → γ)

theorem freeCtx_keeps (hctxs : ∀ (s : State) l, π { s with ctxs := l } = π s) (s : State) (g : Nat) :
    π (freeCtx s g) = π s := by
  unfold freeCtx
  split <;> exact hctxs _ _

theorem consume_keeps (htile : ∀ s t x, π (State.setTile s t x) = π s) (s : State) (g : Nat) (flt : Bool) :
    π (consume s g flt) = π s := by
  unfold consume
  dsimp only
  split
  · split
    · exact htile _ _ _
    · rfl
  · rfl

theorem postKill_keeps (hmgmt : ∀ (s : State) m, π { s with mgmt := m } = π s) (s : State) (a : Nat) (e : List Byte) :
    π (postKill s a e) = π s := by
  unfold postKill
  split <;> exact hmgmt _ _

/-- The report changes the management state and the launch alone. -/
theorem killReport_keeps (hmgmt : ∀ (s : State) m, π { s with mgmt := m } = π s)
    (hlaunch : ∀ (s : State) l, π { s with launches := l } = π s) (s : State) (g : Nat) (e : Ending) :
    π (killReport s g e) = π s := by
  unfold killReport
  dsimp only
  split
  · exact (hlaunch _ _).trans (postKill_keeps π hmgmt ..)
  · exact postKill_keeps π hmgmt ..

end

section

variable (s : State) (g : Nat)

/-- A freed context is FREE and holds nothing (R28). -/
theorem freeCtx_ctx : ((freeCtx s g).ctx g).st = .free ∧ ((freeCtx s g).ctx g).held = [] := by
  unfold freeCtx
  split
  · simp only [State.ctx, tabGet_tabDel_same]
    exact ⟨rfl, rfl⟩
  · rw [State.ctx_modCtx]
    exact ⟨rfl, rfl⟩

theorem freeCtx_ctx_other {k : Nat} (hk : k ≠ g) : (freeCtx s g).ctx k = s.ctx k := by
  unfold freeCtx
  split
  · exact tabGet_tabDel_other _ _ hk
  · exact State.ctx_modCtx_other _ _ hk

/-- The kill report of a context. -/
def reportOf (e : Ending) : List Byte :=
  logEntry 1 e.cause (tileOf g) (g % 16) (killFlags (s.ctx g) e.nested) (s.ctx g).lslot (s.ctx g).fwd
    (dropCount (s.ctx g)) (s.ctx g).lost e.bpc e.addr e.code s.cycle

theorem killReport_mgmt (e : Ending) : (killReport s g e).mgmt = (postKill s (s.ctx g).act (reportOf s g e)).mgmt := by
  unfold killReport
  dsimp only
  split <;> rfl

/-- The launch of a killed context has failed (R413). -/
theorem killReport_launch (e : Ending) {l : Launch} (hl : s.launch (s.ctx g).lslot = some l) :
    (killReport s g e).launch (s.ctx g).lslot = some { l with failed := true } := by
  have hpost : (postKill s (s.ctx g).act (reportOf s g e)).launch (s.ctx g).lslot = some l :=
    (postKill_keeps (State.launch · (s.ctx g).lslot) (fun _ _ => rfl) ..).trans hl
  unfold killReport
  dsimp only
  rw [← reportOf, hpost]
  exact State.launch_setLaunch ..

variable {s g}

/-- A context with no twin and no pending GUARD ends by its report and its trigger (R413). -/
theorem endKilled_alone (e : Ending) (htwin : (s.ctx g).twin = none) (hguard : (s.ctx g).guard = none) :
    endKilled s g e = freeCtx (consume (killReport s g e) g true) g := by
  have howner : ownerOf s g = g := by simp only [ownerOf, htwin]
  have hlogs : logGuards s g = s := by simp only [logGuards, htwin, logGuard, hguard]
  have hctx : (consume (killReport s g e) g true).ctx g = s.ctx g :=
    (consume_keeps (State.ctx · g) (fun _ _ _ => rfl) ..).trans
      (killReport_keeps (State.ctx · g) (fun _ _ => rfl) (fun _ _ => rfl) ..)
  simp only [endKilled, howner, hlogs, freeBoth, hctx, htwin]

/-- What such an end leaves. -/
theorem endKilled_leaves (e : Ending) (htwin : (s.ctx g).twin = none) (hguard : (s.ctx g).guard = none) :
    ((endKilled s g e).ctx g).st = .free ∧ ((endKilled s g e).ctx g).held = [] ∧
      (endKilled s g e).mgmt = (postKill s (s.ctx g).act (reportOf s g e)).mgmt ∧
      (∀ l, s.launch (s.ctx g).lslot = some l →
        (endKilled s g e).launch (s.ctx g).lslot = some { l with failed := true }) ∧
      (∀ x, x ≠ g → (endKilled s g e).ctx x = s.ctx x) ∧ (endKilled s g e).mem = s.mem := by
  rw [endKilled_alone e htwin hguard]
  obtain ⟨hst, hheld⟩ := freeCtx_ctx (consume (killReport s g e) g true) g
  refine ⟨hst, hheld, ?_, fun l hl => ?_, fun x hx => ?_, ?_⟩
  · exact (freeCtx_keeps State.mgmt (fun _ _ => rfl) ..).trans
      ((consume_keeps State.mgmt (fun _ _ _ => rfl) ..).trans (killReport_mgmt s g e))
  · exact (freeCtx_keeps (State.launch · (s.ctx g).lslot) (fun _ _ => rfl) ..).trans
      ((consume_keeps (State.launch · (s.ctx g).lslot) (fun _ _ _ => rfl) ..).trans (killReport_launch s g e hl))
  · exact (freeCtx_ctx_other _ _ hx).trans ((consume_keeps (State.ctx · x) (fun _ _ _ => rfl) ..).trans
      (killReport_keeps (State.ctx · x) (fun _ _ => rfl) (fun _ _ => rfl) ..))
  · exact (freeCtx_keeps State.mem (fun _ _ => rfl) ..).trans
      ((consume_keeps State.mem (fun _ _ _ => rfl) ..).trans
        (killReport_keeps State.mem (fun _ _ => rfl) (fun _ _ => rfl) ..))

/-- A trap in system mode ends a context that has no twin (R409). -/
theorem takeTrap_nested {i : TrapInfo} (hpte : i.pte = none) (hsys : (s.ctx g).status.getLsbD 15 = true)
    (htwin : (s.ctx g).twin = none) : takeTrap s g i = endKilled s g (i.ending true) := by
  rw [takeTrap, hpte, logPte]
  simp only [Ctx.sys, hsys, if_true, endFault, htwin]
  rfl

end

/-- The report names the bundle and the fault of the head. -/
theorem nestedFaults : NestedFaults := by
  intro s g st f c dropped report hgrow hpage hremote hpte hsys htwin hguard t
  let u := s.modCtx g (fun c => { c with stage := none, resume := none })
  have hctx : u.ctx g = { c with stage := none, resume := none } := State.ctx_modCtx ..
  have hact : (u.ctx g).act = c.act := by rw [hctx]
  have hslot : (u.ctx g).lslot = c.lslot := by rw [hctx]
  have ht : t = endKilled u g ((f.info st).ending true) := by
    simp only [t, faultHead_traps hpage hremote hgrow]
    exact takeTrap_nested hpte (by rw [hctx]; exact hsys) (by rw [hctx]; exact htwin)
  have hreport : reportOf u g ((f.info st).ending true) = report := by
    simp only [reportOf, hctx, report, killFlags, dropCount, htwin, c, fld, Nat.shiftRight_eq_div_pow, dropped]
    simp [TrapInfo.ending, HeadFault.info, u]
  obtain ⟨hfree, hheld, hmgmt, hlaunch, hothers, hmem⟩ := endKilled_leaves ((f.info st).ending true)
    (s := u) (g := g) (by rw [hctx]; exact htwin) (by rw [hctx]; exact hguard)
  rw [← ht, hreport, hact] at hmgmt
  rw [hslot] at hlaunch
  rw [ht]
  refine ⟨hfree, hheld, fun hfly => ?_, fun hfly => ?_, hlaunch, fun x hx => ?_, hmem⟩
  · rw [← ht, hmgmt, postKill, if_neg (by rw [show actFlying u c.act = actFlying s c.act from rfl, hfly]; decide)]
    rfl
  · rw [← ht, hmgmt, postKill, if_pos (show actFlying u c.act = true from hfly)]
    rfl
  · exact (hothers x hx).trans (State.ctx_modCtx_other _ _ hx)

/-! ### The normal end (R32, R163) -/

/-- A normal end of a context that has no twin, no unresumed fault and no pending GUARD (R32). -/
theorem endNormal_alone {s : State} {g : Nat} (hfault : (s.ctx g).faulted = none) (htwin : (s.ctx g).twin = none)
    (hguard : (s.ctx g).guard = none) : endNormal s g none none =
      (release s g true).modCtx g (fun c => { c with
        st := .releasing, waiting := .none, stage := none, loops := [], body := [], cont := none, halted := none,
        guard := none, endedAt := s.cycle }) := by
  have hlog : logGuard s g = s := by simp only [logGuard, hguard]
  simp only [endNormal, hfault, htwin, hlog, Option.isSome_none, Bool.false_eq_true, if_false, Option.bind_none,
    Option.map_none, lastEffect]

/-- The state in which an activation ends, after its last bundle. -/
def atEnd (s : State) (st : Stage) : State :=
  countPerf ((staged s s.cur st []).modCtx s.cur (completed · (ended s st []))) (tileOf s.cur) 0 1

/-- A last bundle that stages an end and nothing else. -/
theorem after_of_end {s : State} {h : Head} {st : Stage} (hlast : h.chain = false) (hends : Ends s st)
    (hacts : st.acts = []) (hxfer : st.xfer = some (.done none none)) :
    after s h st = endNormal (atEnd s st) s.cur none none := by
  rw [after_of_clean hlast hends hacts]
  simp only [commitBundle, hxfer]
  rfl

/-- The bundle of RET to zero stages nothing but its pops, so it keeps what the end reads. -/
theorem normalEnd : NormalEnd := by
  intro s h t b c st hissues hreads hlast hstage htwin hfault hguard hsave hwaiting hresume
  obtain ⟨pops, hst⟩ := reads_pops hreads
  let st' : Stage := { st with xfer := some (.done none none) }
  have hbundle : bundle s = Stage.start (me s).pc s.cycle := by simp only [bundle, Ctx.stageNow, hstage, Option.getD_none]
  rw [hbundle] at hst
  have hends : Ends s st' := by
    subst hst
    exact ⟨rfl, rfl, rfl, rfl, by rw [hsave]; rfl, hwaiting, hresume⟩
  have hctx : (atEnd s st').ctx s.cur = completed (me s) st' := by
    subst hst
    rw [atEnd, countPerf_ctx, State.ctx_modCtx, staged_ctx, completed_ended _ _ _ rfl]
  have hcompleted : ∃ n q p v vs streams fpctl, completed (me s) st' = { me s with
      n := n, q := q, p := p, v := v, vshape := vs, streams := streams, fpctl := fpctl, st := .run, waiting := .none,
      stage := none, resume := none, lastBpc := st.bpc } := by
    subst hst
    rw [completed, applyStage_eq _ rfl rfl]
    exact ⟨_, _, _, _, _, _, _, rfl⟩
  obtain ⟨n, q, p, v, vs, streams, fpctl, hcompleted⟩ := hcompleted
  rw [hcompleted] at hctx
  have hend := endNormal_alone (s := atEnd s st') (g := s.cur) (by rw [hctx]; exact hfault) (by rw [hctx]; exact htwin)
    (by rw [hctx]; exact hguard)
  refine ⟨after s h st', (exec_ret h t s).trans (aForm_gives hissues hreads rfl), ?_⟩
  rw [after_of_end hlast hends (by subst hst; rfl) rfl, hend]
  have hreleased : ((release (atEnd s st') s.cur true).ctx s.cur).groups =
      (me s).groups ++ [⟨(me s).group, (me s).held, false, true⟩] ∧
      ((release (atEnd s st') s.cur true).ctx s.cur).held = [] := by
    rw [release, State.ctx_modCtx, hctx]
    exact ⟨rfl, rfl⟩
  rw [State.ctx_modCtx]
  refine ⟨rfl, hreleased.2, rfl, hreleased.1, fun k hk => ?_, ?_⟩
  · rw [State.ctx_modCtx_other _ _ hk, release, State.ctx_modCtx_other _ _ hk, atEnd, countPerf_ctx,
      State.ctx_modCtx_other _ _ hk, staged, State.ctx_modCtx_other _ _ hk]
  · rw [State.modCtx_mem, release, State.modCtx_mem, atEnd, countPerf_mem]
    rfl

/-- Settles O56: both ends leave every other context and memory as they were. -/
theorem endsOfContexts : Obligations.EndsOfContexts := ⟨nestedFaults, normalEnd⟩

end Sys2Proof.Proofs
end

section

/-! Stores, atomics and guard bits at their home, and the drain of the write-merge path (R280, R282, R284, R443). -/

namespace Sys2Proof.Proofs

open Sys2Proof.Machine Sys2Proof.Laws Sys2Proof.Stated

/-! ### What acknowledging an item leaves -/

section

variable {γ : Type} (π : State → γ)

theorem handOver_keeps (hpkts : ∀ (s : State) l, π { s with pkts := l } = π s)
    (hinbox : ∀ (s : State) l, π { s with inbox := l } = π s) (s : State) (id : Nat) : π (handOver s id) = π s := by
  unfold handOver
  split
  · exact (hpkts _ _).trans (hinbox _ _)
  · rfl

theorem ackPkt_keeps (hanswers : ∀ (s : State) l, π { s with answers := l } = π s) (s : State) (id : Nat)
    (fail : Option (Nat × Nat)) : π (ackPkt s id fail) = π s := by
  unfold ackPkt
  split
  · exact hanswers _ _
  · rfl

/-- Acknowledging an item touches the packets, the inbox and the answers alone. -/
theorem finish_keeps (hpkts : ∀ (s : State) l, π { s with pkts := l } = π s)
    (hinbox : ∀ (s : State) l, π { s with inbox := l } = π s)
    (hanswers : ∀ (s : State) l, π { s with answers := l } = π s) (s : State) (id : Nat) (fail : Option (Nat × Nat)) :
    π (finish s id fail) = π s := (ackPkt_keeps π hanswers ..).trans (handOver_keeps π hpkts hinbox ..)

end

section

variable (s : State) (id : Nat) (fail : Option (Nat × Nat))

@[simp] theorem finish_mem : (finish s id fail).mem = s.mem :=
  finish_keeps State.mem (fun _ _ => rfl) (fun _ _ => rfl) (fun _ _ => rfl) ..

@[simp] theorem finish_tile (t : Nat) : (finish s id fail).tile t = s.tile t :=
  finish_keeps (State.tile · t) (fun _ _ => rfl) (fun _ _ => rfl) (fun _ _ => rfl) ..

@[simp] theorem finish_ctx (g : Nat) : (finish s id fail).ctx g = s.ctx g :=
  finish_keeps (State.ctx · g) (fun _ _ => rfl) (fun _ _ => rfl) (fun _ _ => rfl) ..

end

/-! ### Draining (R443) -/

/-- Memory after entries of a path have drained to it, the first entry first. -/
def drained (m : Mem) (es : List Merge) : Mem := es.foldl (fun m e => memWrite m e.key e.bytes) m

theorem drainOne_cons {s : State} {t : Nat} {e : Merge} {r : List Merge} (h : (s.tile t).merge = e :: r) :
    drainOne s t = some ({ s with mem := memWrite s.mem e.key e.bytes }.modTile t (fun x => { x with merge := r })) := by
  simp only [drainOne, h]

/-- The first entries of the path reach memory, and the others stay. -/
theorem drainN_eq (n : Nat) (s : State) (t : Nat) : (drainN s t n).mem = drained s.mem ((s.tile t).merge.take n) ∧
    ((drainN s t n).tile t).merge = (s.tile t).merge.drop n := by
  induction n generalizing s with
  | zero => exact ⟨rfl, rfl⟩
  | succ n ih =>
    cases hm : (s.tile t).merge with
    | nil => simp [drainN, drainOne, hm, drained]
    | cons e r =>
      obtain ⟨hmem, hmerge⟩ := ih ({ s with mem := memWrite s.mem e.key e.bytes }.modTile t (fun x => { x with merge := r }))
      rw [State.tile_modTile] at hmem hmerge
      simp only [drainN, drainOne_cons hm]
      exact ⟨hmem, hmerge⟩

theorem memWf_drained {m : Mem} (es : List Merge) (h : memWf m = true) : memWf (drained m es) = true := by
  induction es generalizing m with
  | nil => exact h
  | cons e r ih => exact ih (memWf_memWrite _ _ h)

/-- Where the newest entry overlaps, the whole path drains. -/
theorem drainCount_last (es : List Merge) (e : Merge) {k n : Nat} (h : overlaps e.key e.bytes.length k n = true) :
    drainCount (es ++ [e]) k n = es.length + 1 := by
  simp [drainCount, List.zipIdx_append, h]

/-- An agent's write reaches the array with all that its home performed before it (R292). -/
theorem arrayStore_leaves {s : State} {k : Nat} {bs : List Byte} {a : Nat} (hk : k < 2 ^ 60) (hbs : bs ≠ [])
    (hm : s.MemOk) : ((arrayStore s k bs a).tile (homeTile k)).merge = [] ∧
      memRead (arrayStore s k bs a).mem k bs.length = bs := by
  have hpos := List.length_pos_iff.mpr hbs
  have hmerge := merge_performStore (s := s) (act := a) (.inl hk) hbs (homeTile k)
  rw [if_pos rfl] at hmerge
  have hall : drainCount ((performStore s k bs a).tile (homeTile k)).merge k bs.length =
      ((performStore s k bs a).tile (homeTile k)).merge.length := by
    rw [hmerge, drainCount_last _ _ (decide_eq_true (by show k < k + bs.length ∧ k < k + bs.length; omega))]
    simp
  obtain ⟨hmem, hrest⟩ := drainN_eq ((performStore s k bs a).tile (homeTile k)).merge.length (performStore s k bs a)
    (homeTile k)
  rw [arrayStore, hall]
  refine ⟨by rw [hrest, List.drop_length], ?_⟩
  rw [hmem, List.take_length, hmerge, performStore_mem (.inl hk), drained, List.foldl_append]
  exact (memRead_memWrite k 0 bs.length bs (memWf_drained _ hm) (by omega)).trans (by simp)

/-- The oldest entry of a path, over bytes of its home alone, drains unseen (R443, R280). -/
theorem seenByte_drained {s : State} {t : Nat} {e : Merge} {r : List Merge} (h : (s.tile t).merge = e :: r)
    (hhome : ∀ j, j < e.bytes.length → homeTile (e.key + j) = t) (hm : s.MemOk) (x : Nat) :
    seenByte ({ s with mem := memWrite s.mem e.key e.bytes }.modTile t (fun x => { x with merge := r })) (homeTile x) x =
      seenByte s (homeTile x) x := by
  have hover : memGet (memWrite s.mem e.key e.bytes) x = overByte x (memGet s.mem x) e.key e.bytes := by
    by_cases hin : e.key ≤ x ∧ x < e.key + e.bytes.length
    · obtain ⟨j, rfl⟩ := Nat.exists_eq_add_of_le hin.1
      rw [overByte_inside _ hin, memGet_memWrite_inside e.bytes hm (by omega)]
      simp
    · rw [overByte_outside _ (by omega), memGet_memWrite_other _ (by omega)]
  by_cases hx : homeTile x = t
  · rw [seenByte, seenByte, hx, State.tile_modTile, h]
    simp only [State.modTile_mem, hover, List.foldl_cons]
  · have hout : ¬(e.key ≤ x ∧ x < e.key + e.bytes.length) := by
      intro hin
      obtain ⟨j, rfl⟩ := Nat.exists_eq_add_of_le hin.1
      exact hx (hhome j (by omega))
    rw [overByte_outside _ (by omega)] at hover
    rw [seenByte, seenByte, State.tile_modTile_other _ _ hx]
    simp only [State.modTile_mem, hover]
    rfl

/-! ### Guard bits (R282) -/

theorem storeGet_storePuts {m : List (Nat × Bool)} (l : List Nat) (v : Bool) (h : storeWf false m = true) (i : Nat) :
    storeGet false (storePuts false m (l.map (fun i => (i, v)))) i = if i ∈ l then v else storeGet false m i := by
  induction l generalizing m with
  | nil => simp [storePuts]
  | cons j r ih =>
    rw [List.map_cons, storePuts, ih (storeWf_storeSet false j v h)]
    by_cases hr : i ∈ r
    · simp [hr]
    · by_cases hj : i = j
      · subst hj
        simp [hr, storeGet_storeSet_same false i v h]
      · simp [hr, hj, storeGet_storeSet_other false v hj]

/-! ### The items of a home -/

section

variable {s : State} {id : Nat} {p : Packet} (hitem : item s s.ev.who s.ev.idx = some (id, p))

include hitem

/-- A store packet is performed, noted at a guard bit, or refused for its generation or its page (R284, R294,
R256). -/
theorem storePerform_store {k ea : Nat} {bs : List Byte} {tag : GenTag} (hwork : p.work = .store k ea bs tag false) :
    exec .storePerform s = eventStep (fun _ => storeAll s p k ea bs tag [id]) s := by
  rw [exec_storePerform, execStorePerform]
  simp only [eventStep, tryStorePerform, hitem, hwork]

theorem storePerform_part {k ea : Nat} {bs : List Byte} {tag : GenTag} (hwork : p.work = .store k ea bs tag true) :
    exec .storePerform s = eventStep (fun _ => (restOf s s.ev.who id p).bind
      (fun e => storeAll s p k ea (bs ++ e.2) tag [id, e.1])) s := by
  rw [exec_storePerform, execStorePerform]
  simp only [eventStep, tryStorePerform, hitem, hwork]
  cases restOf s s.ev.who id p <;> rfl

theorem storePerform_engine {k : Nat} {bs : List Byte} {tag : GenTag} (hwork : p.work = .engWrite k bs tag)
    (hready : stalledOver s k bs.length = false) (hfresh : staleAt s s.ev.who tag = false) (hon : pageOff s k = false)
    (hfree : guarded s k bs.length = false) (hk : k < 2 ^ 60) (hclean : p.poison = false) :
    exec .storePerform s = .next (finish (engWrite s k bs) id none) := by
  rw [exec_storePerform, execStorePerform]
  refine eventStep_of_some ?_
  have hdevice : ¬ 2 ^ 60 ≤ k := Nat.not_le.mpr hk
  simp only [tryStorePerform, hitem, hwork, hready, hfresh, hon, hfree, hdevice, hclean, Bool.or_self, Bool.false_eq_true,
    if_false]

/-- A local atomic exchanges at its home, and the old value returns (R267). -/
theorem localAtomicPerform_exchanges {k op w ctx act : Nat} {b c : Word} {sg : Bool} {tag : GenTag}
    (hwork : p.work = .atomic k op w sg b c tag ctx act) (hready : stalled s k = false)
    (hfresh : staleAt s s.ev.who tag = false) (hon : pageOff s k = false) (hfree : guarded s k w = false)
    (hinj : injRead s k = false) (hpoison : poisoned s k w = false) :
    let old := visRead s k w
    let new := bytesLE w (atomicNew op (8 * w) sg (natLE old) b.toNat c.toNat)
    exec .localAtomicPerform s = .next (sendWork (finish (performStore s k new act) id none) s.ev.who p.src .none
        p.lslot (.reply ⟨atomicReq op w k p.src ctx act, 0, 1, 0, [], [], oldValue sg w old, true, false⟩)) := by
  intro old new
  rw [exec_localAtomicPerform, execLocalAtomicPerform]
  refine eventStep_of_some ?_
  simp only [tryLocalAtomicPerform, hitem, hwork, hready, hfresh, hon, hfree, Bool.false_eq_true, if_false, if_true,
    unitRead, uncorrectable_eq_false hinj hpoison, fireRead_of_not_injRead hinj,
    performStore_keeps State.ev (fun _ _ => rfl) (fun _ _ _ => rfl)]
  rfl

theorem guardBitsPerform_stale {set : Bool} {gr : List Nat} (hwork : p.work = .guardBits set gr)
    (hstale : pktStale s p = true) : exec .guardBitsPerform s = .next (rejectStale s id p) := by
  rw [exec_guardBitsPerform, execGuardBitsPerform]
  refine eventStep_of_some ?_
  simp only [tryGuardBitsPerform, hitem, hwork, hstale, if_true]

theorem guardBitsPerform_sets {set : Bool} {gr : List Nat} (hwork : p.work = .guardBits set gr)
    (hfresh : pktStale s p = false) : exec .guardBitsPerform s = .next (finish (s.modTile s.ev.who (fun x => { x with
        guardBits := storePuts false x.guardBits (gr.map (fun i => (i, set))) })) id none) := by
  rw [exec_guardBitsPerform, execGuardBitsPerform]
  refine eventStep_of_some ?_
  simp only [tryGuardBitsPerform, hitem, hwork, hfresh, Bool.false_eq_true, if_false]

end

section

variable {s : State} {p : Packet} {k ea : Nat} {bs : List Byte} {tag : GenTag} {ids : List Nat}
  (hready : stalledOver s k bs.length = false)

include hready

theorem storeAll_stale (hstale : staleAt s s.ev.who tag = true) :
    storeAll s p k ea bs tag ids = some (ids.foldl (fun s id => finish s id (some (2, 0))) s) := by
  simp only [storeAll, hready, hstale, Bool.false_eq_true, if_false, if_true]

theorem storeAll_offline (hfresh : staleAt s s.ev.who tag = false) (hoff : pageOff s k = true) :
    storeAll s p k ea bs tag ids = some (ids.foldl (fun s id => finish s id (some (1, 0))) s) := by
  simp only [storeAll, hready, hfresh, hoff, Bool.false_eq_true, if_false, if_true]

theorem storeAll_guarded (hfresh : staleAt s s.ev.who tag = false) (hon : pageOff s k = false)
    (hguard : guarded s k bs.length = true) : storeAll s p k ea bs tag ids =
      some (ids.foldl (fun s id => finish s id none) (touchAct s p.owner.actOf ea (keyOff k))) := by
  simp only [storeAll, hready, hfresh, hon, hguard, Bool.false_eq_true, if_false, if_true]

theorem storeAll_performs (hfresh : staleAt s s.ev.who tag = false) (hon : pageOff s k = false)
    (hfree : guarded s k bs.length = false) : storeAll s p k ea bs tag ids =
      some (ids.foldl (fun s id => finish s id none) (performStore s k bs p.owner.actOf)) := by
  simp only [storeAll, hready, hfresh, hon, hfree, Bool.false_eq_true, if_false]

end

/-- Settles O20: the store rules, item by item of a home, and the unseen drain. -/
theorem homeStores : Obligations.HomeStores := by
  refine ⟨fun s k bs a hk hbs => ⟨performStore_mem (.inl hk), fun hhome j hj => ?seen,
    fun x hx => visRead_performStore_other (.inl hk) hbs hx⟩, fun s k bs a hk hbs hm => arrayStore_leaves hk hbs hm,
    ?items, ?drain⟩
  case items =>
    intro s id p home hitem
    refine ⟨fun k ea bs tag hwork hready => ⟨fun hstale => ?stale, fun hfresh hoff => ?offline,
      fun hfresh hon hguard => ?guarded, fun hfresh hon hfree => ?performed⟩,
      fun k ea bs tag hwork => ⟨fun hrest => ?half, fun id2 b2 hrest hready hfresh hon hfree => ?whole⟩, ?engine, ?atomic,
      ?refused, ?bits⟩
    case stale => exact (storePerform_store hitem hwork).trans (eventStep_of_some (storeAll_stale hready hstale))
    case offline => exact (storePerform_store hitem hwork).trans (eventStep_of_some (storeAll_offline hready hfresh hoff))
    case guarded =>
      exact (storePerform_store hitem hwork).trans (eventStep_of_some (storeAll_guarded hready hfresh hon hguard))
    case performed =>
      exact (storePerform_store hitem hwork).trans (eventStep_of_some (storeAll_performs hready hfresh hon hfree))
    case half => exact (storePerform_part hitem hwork).trans (eventStep_of_none (by rw [hrest]; rfl))
    case whole =>
      exact (storePerform_part hitem hwork).trans
        (eventStep_of_some (by rw [hrest]; exact storeAll_performs hready hfresh hon hfree))
    case engine =>
      intro k bs tag hwork hready hfresh hon hfree hk hclean
      exact storePerform_engine hitem hwork hready hfresh hon hfree hk hclean
    case atomic =>
      intro k op w sg b c tag ctx act hwork hready hfresh hon hfree hinj hpoison
      exact localAtomicPerform_exchanges hitem hwork hready hfresh hon hfree hinj hpoison
    case refused =>
      intro set gr hwork hstale
      exact guardBitsPerform_stale hitem hwork hstale
    case bits =>
      intro set gr hwork hfresh hwf
      refine ⟨_, guardBitsPerform_sets hitem hwork hfresh, by simp, fun i => ?_⟩
      rw [finish_tile, State.tile_modTile]
      exact storeGet_storePuts gr set hwf i
  case seen =>
    rw [visRead_one, seenByte_performStore (.inl hk) hbs, if_pos (hhome j hj), overByte_inside _ (by omega),
      List.getElem?_eq_getElem hj]
    simp
  case drain =>
    intro s e r home hmerge hhome hm
    refine ⟨_, (exec_writeMergeDrain s).trans (eventStep_of_some (drainOne_cons hmerge)), ?_, rfl, fun k => ?_⟩
    · rw [State.tile_modTile]
    · rw [visRead_one, visRead_one, seenByte_drained hmerge hhome hm]

end Sys2Proof.Proofs
end

section

/-! Messages, join counters, deques and barriers at their homes (R301, R311-R313, R397, R398, R401). -/

namespace Sys2Proof.Proofs

open Sys2Proof.Machine Sys2Proof.Laws Sys2Proof.Stated

/-! ### What goes back to its queue (R41) -/

theorem takeBack_none {x : Tile} {kind : TrigKind} (h : x.redeliver = []) : takeBack x kind = none := by
  simp [takeBack, h]

/-- The first record that waits to go back goes first, where its queue has room. -/
theorem takeBack_first {x : Tile} {tr : Trigger} {w : List Trigger} (h : x.redeliver = tr :: w)
    (hroom : backRoom x tr = true) : takeBack x tr.kind = some { putBack x tr with redeliver := w } := by
  have hfind : x.redeliver.zipIdx.find? (fun e => e.1.kind == tr.kind && backRoom x e.1) = some (tr, 0) := by
    rw [h, List.zipIdx_cons, List.find?_cons_of_pos]
    simp [hroom]
  simp only [takeBack, hfind, dropAt]
  rw [h, List.eraseIdx_cons_zero]

/-- An address below the table area is not refused, where it is not guarded (R256). -/
theorem homeRefuses_eq_false {s : State} {t off n : Nat} (hin : off + n ≤ Config.tableArea)
    (hfree : guarded s (keyScratch t off) n = false) : homeRefuses s t off n = false := by
  simp [homeRefuses, inScratch, hin, hfree]

/-- Messages, counters and records at their homes. -/
theorem queueHomes : QueueHomes := by
  refine ⟨?items, ?pushed, ?back⟩
  case items =>
    intro s id p home hitem hfresh hback
    have hnone : ∀ kind, takeBack (s.tile s.ev.who) kind = none := fun kind => takeBack_none hback
    refine ⟨fun m hwork => ⟨fun hhandler => ?dropped, fun hhandler hroom => ?arrives⟩,
      fun off tr tgt hwork hin hfree hinj hpoison => ?counted, fun tr hwork hwait hroom => ?entered⟩
    case dropped =>
      rw [exec_messageArrival, execMessageArrival]
      refine eventStep_of_some ?_
      simp only [tryMessageArrival, hnone, show item s s.ev.who s.ev.idx = _ from hitem, hwork, hfresh, hhandler,
        Bool.not_false, Bool.false_eq_true, if_false, if_true]
      rfl
    case arrives =>
      refine ⟨finish (s.modTile home (fun x => { x with
          arrival := x.arrival ++ [{ m with pri := classPri s m.cls, eff := classPri s m.cls, time := s.cycle, passes := 0 }]
        })) id none, ?_, ?_⟩
      · rw [exec_messageArrival, execMessageArrival]
        refine eventStep_of_some ?_
        simp only [tryMessageArrival, hnone, show item s s.ev.who s.ev.idx = _ from hitem, hwork, hfresh, hhandler,
          Bool.not_true, Bool.false_eq_true, if_false]
        exact if_neg (Nat.not_le.mpr hroom)
      · rw [finish_tile, State.tile_modTile]
    case counted =>
      rw [exec_joinCountAdd, execJoinCountAdd]
      refine eventStep_of_some ?_
      simp only [tryJoinCountAdd, show item s s.ev.who s.ev.idx = _ from hitem, hwork, hfresh, homeRefuses_eq_false hin hfree,
        homeRead_eq_visRead _ hinj hpoison, Bool.false_eq_true, if_false, homeWrite, joinInc, nfld,
        Nat.shiftRight_eq_div_pow, Nat.pow_zero, Nat.div_one, Nat.pow_one, home]
    case entered =>
      have hfree : hasRoom (s.tile s.ev.who) tr = true := decide_eq_true hroom
      rw [exec_dequePush, execDequePush]
      refine eventStep_of_some ?_
      simp only [tryDequePush, hnone, show (s.tile s.ev.who).pushWait = [] from hwait, List.find?_nil,
        show item s s.ev.who s.ev.idx = _ from hitem, hwork, hfresh, hfree, Bool.false_eq_true, if_false, if_true]
      rfl
  case pushed =>
    intro s tr id w t hback hwait hroom
    have hfind : (s.tile s.ev.who).pushWait.find? (fun e => hasRoom (s.tile s.ev.who) e.1) = some (tr, id) := by
      rw [show (s.tile s.ev.who).pushWait = _ from hwait, List.find?_cons_of_pos]
      exact decide_eq_true hroom
    rw [exec_dequePush, execDequePush]
    refine eventStep_of_some ?_
    simp only [tryDequePush, show takeBack (s.tile s.ev.who) .task = none from takeBack_none hback, hfind]
    rfl
  case back =>
    intro s tr w t hback hroom back
    have htake := takeBack_first hback hroom
    refine ⟨fun hkind => ?_, fun hkind => ?_⟩
    · rw [hkind] at htake
      rw [exec_messageArrival, execMessageArrival]
      refine eventStep_of_some ?_
      simp only [tryMessageArrival, show takeBack (s.tile s.ev.who) .msg = _ from htake]
      rfl
    · rw [hkind] at htake
      rw [exec_dequePush, execDequePush]
      refine eventStep_of_some ?_
      simp only [tryDequePush, show takeBack (s.tile s.ev.who) .task = _ from htake]
      rfl

/-! ### Barriers (R397, R398, R401) -/

/-- The fields of a barrier lie apart. -/
theorem barVal_barBits {v : BarVal} (hphase : v.phase < 16) (harr : v.arr < 2 ^ 20) (hsect : v.sect < 2 ^ 32)
    (hload : v.load < 2 ^ 20) (hcode : v.code < 8) (haband : v.aband < 2 ^ 24) :
    barVal (barBits v) = v ∧ barBits v < 2 ^ 104 := by
  obtain ⟨phase, arr, sect, load, flt, code, aband⟩ := v
  have hflt : flt.toNat ≤ 1 := Bool.toNat_le flt
  have hbit : (barBits ⟨phase, arr, sect, load, flt, code, aband⟩).testBit 76 = flt := by
    rw [Nat.testBit_eq_decide_div_mod_eq]
    have hmid : barBits ⟨phase, arr, sect, load, flt, code, aband⟩ / 2 ^ 76 % 2 = flt.toNat := by
      simp only [barBits] at *
      omega
    rw [hmid]
    cases flt <;> rfl
  refine ⟨?_, ?_⟩
  · simp only [barVal, hbit, BarVal.mk.injEq, nfld, Nat.shiftRight_eq_div_pow, barBits] at *
    refine ⟨?_, ?_, ?_, ?_, trivial, ?_, ?_⟩ <;> omega
  · simp only [barBits] at *
    omega

section

variable (v : BarVal) (flt : Bool) (cls ab : Nat)

/-- A report leaves the counts and the phase alone. -/
theorem report_counts (a x : Nat) : BarVal.report { v with arr := a, sect := x } flt cls ab =
    { v.report flt cls ab with arr := a, sect := x } := by
  cases flt <;> rfl

theorem report_keeps : (v.report flt cls ab).phase = v.phase ∧ (v.report flt cls ab).arr = v.arr ∧
    (v.report flt cls ab).sect = v.sect ∧ (v.report flt cls ab).load = v.load := by
  cases flt <;> exact ⟨rfl, rfl, rfl, rfl⟩

/-- After an update with the counts `a` and `x`: a phase completes when both are 0. -/
theorem check_report {a x : Nat} : (BarVal.report { v with arr := a, sect := x } flt cls ab).check =
    if a = 0 ∧ x = 0 then
      ({ v.report flt cls ab with sect := x, phase := (v.phase + 1) % 16, arr := v.load }, true)
    else ({ v.report flt cls ab with arr := a, sect := x }, false) := by
  obtain ⟨hphase, -, -, hload⟩ := report_keeps v flt cls ab
  rw [report_counts, BarVal.check]
  simp only [hphase, hload]

theorem arrival_early {n : Nat} (h : v.arr < n) : v.arrival n flt cls ab =
    ({ v with flt := true, code := (if v.code = 0 then 1 else v.code) }, false) := by
  simp only [BarVal.arrival, h, if_true]

theorem arrival_eq {n : Nat} (h : n ≤ v.arr) : v.arrival n flt cls ab =
    if v.arr = n ∧ v.sect = 0 then ({ v.report flt cls ab with phase := (v.phase + 1) % 16, arr := v.load }, true)
    else ({ v.report flt cls ab with arr := v.arr - n }, false) := by
  have hsect := (report_keeps v flt cls ab).2.2.1
  have hzero : (v.arr - n = 0 ∧ v.sect = 0) = (v.arr = n ∧ v.sect = 0) := by rw [eq_iff_iff]; omega
  rw [BarVal.arrival, if_neg (by omega)]
  have hcheck := check_report v flt cls ab (a := v.arr - n) (x := v.sect)
  simp only [hzero] at hcheck
  refine hcheck.trans ?_
  by_cases hdone : v.arr = n ∧ v.sect = 0
  · rw [if_pos hdone, if_pos hdone, ← hsect]
  · rw [if_neg hdone, if_neg hdone, ← hsect]

theorem sectors_eq {n : Nat} (hsect : v.sect < 2 ^ 32) (h : n ≤ v.sect) : v.sectors (-n) flt cls ab =
    if v.arr = 0 ∧ v.sect = n then
      ({ v.report flt cls ab with sect := 0, phase := (v.phase + 1) % 16, arr := v.load }, true)
    else ({ v.report flt cls ab with sect := v.sect - n }, false) := by
  obtain ⟨hphase, harr, -, hload⟩ := report_keeps v flt cls ab
  have hwrap : wrapInt 32 ((v.sect : Int) + -(n : Int)) = v.sect - n := by
    rw [wrapInt]
    omega
  have hzero : (v.arr = 0 ∧ v.sect - n = 0) = (v.arr = 0 ∧ v.sect = n) := by rw [eq_iff_iff]; omega
  have hcheck := check_report v flt cls ab (a := v.arr) (x := v.sect - n)
  simp only [hzero] at hcheck
  rw [BarVal.sectors, hwrap]
  refine hcheck.trans ?_
  by_cases hdone : v.arr = 0 ∧ v.sect = n
  · rw [if_pos hdone, if_pos hdone, hdone.2, Nat.sub_self]
  · rw [if_neg hdone, if_neg hdone, ← harr]

end

section

variable {s : State} {id : Nat} {p : Packet} {off what : Nat} (hitem : item s s.ev.who s.ev.idx = some (id, p))
  (hfresh : pktStale s p = false) (hin : off + 16 ≤ Config.tableArea)
  (hfree : guarded s (keyScratch s.ev.who off) 16 = false) (hinj : injRead s (keyScratch s.ev.who off) = false)
  (hpoison : poisoned s (keyScratch s.ev.who off) 16 = false)

/-- The barrier at an offset with the value `r.1`, its outrider told where a phase completed. -/
def barPut (s : State) (home off : Nat) (r : BarVal × Bool) : State :=
  let s2 := performStore s (keyScratch home off) (bytesLE 16 (barBits r.1)) 0
  if r.2 then s2.modTile home (fun x => notifyOut x off) else s2

include hin hfree hinj hpoison in
theorem barUpdate_eq (f : BarVal → BarVal × Bool) : barUpdate s s.ev.who off what f =
    barPut s s.ev.who off (f (barVal (natLE (visRead s (keyScratch s.ev.who off) 16)))) := by
  simp only [barUpdate, homeRefuses_eq_false hin hfree, Bool.false_eq_true, if_false, homeRead_eq_visRead _ hinj hpoison]
  rfl

include hitem hfresh in
theorem barItem_gives {f : State → Nat → Work → Option State} {s1 : State} (hf : f s s.ev.who p.work = some s1) :
    eventStep (barItem f) s = .next (finish s1 id none) := by
  refine eventStep_of_some ?_
  simp only [barItem, hitem, hf, Option.map_some, hfresh, Bool.false_eq_true, if_false]

end

/-- The fields, the updates and the items of barriers. -/
theorem barrierUnit : BarrierUnit := by
  refine ⟨fun v hphase harr hsect hload hcode haband => barVal_barBits hphase harr hsect hload hcode haband,
    fun v n flt cls ab => ⟨arrival_early v flt cls ab, fun h hdone => ?arrived, fun h hdone => ?counted, ?same, ?reported,
      fun hsect h => ⟨fun hdone => ?finished, fun hdone => ?left⟩, rfl⟩, ?items⟩
  case arrived => rw [arrival_eq v flt cls ab h, if_pos hdone]
  case counted => rw [arrival_eq v flt cls ab h, if_neg hdone]
  case same =>
    rintro rfl
    rfl
  case reported =>
    rintro rfl
    exact ⟨rfl, rfl, rfl, rfl, rfl, rfl, rfl⟩
  case finished => rw [sectors_eq v flt cls ab hsect h, if_pos hdone]
  case left => rw [sectors_eq v flt cls ab hsect h, if_neg hdone]
  case items =>
    intro s id p off home k hitem hfresh hin hfree hinj hpoison v puts
    have hputs : ∀ {i : Instr} {f : State → Nat → Work → Option State} {what : Nat} {g : BarVal → BarVal × Bool},
        exec i s = eventStep (barItem f) s → f s s.ev.who p.work = some (barUpdate s s.ev.who off what g) → puts i (g v) := by
      intro i f what g hexec hf
      rw [barUpdate_eq hin hfree hinj hpoison] at hf
      exact hexec.trans (barItem_gives hitem hfresh hf)
    refine ⟨fun n flt cls ab hwork => ?_, fun n flt cls ab hwork => ?_, fun n hwork => ?_, fun n hwork => ?_⟩
    · exact hputs (g := fun v => v.arrival n flt cls ab) (by rw [exec_barrierArrival, execBarrierArrival]) (by rw [hwork])
    · exact hputs (g := fun v => v.sectors (-n) flt cls ab) (by rw [exec_sectorCompletion, execSectorCompletion])
        (by rw [hwork])
    · exact hputs (g := fun v => (v.init n, false)) (by rw [exec_tbinitPerform, execTbinitPerform]) (by rw [hwork])
    · exact hputs (g := fun v => v.sectors ((n + 31) / 32 : Nat) false 0 0) (by rw [exec_tbexpPerform, execTbexpPerform])
        (by rw [hwork])

/-- Settles O55: each home updates its own queue, counter or barrier. -/
theorem queueAndBarrierHomes : Obligations.QueueAndBarrierHomes := ⟨queueHomes, barrierUnit⟩

end Sys2Proof.Proofs
end

section

/-! Byte rings and launch queues at their writers (R304-R308, R325, R326). -/

namespace Sys2Proof.Proofs

open Sys2Proof.Machine Sys2Proof.Laws Sys2Proof.Stated

/-! ### The ring port (R306) -/

theorem recSize_eq (len : Nat) : recSize len = (4 + len + 7) / 8 * 8 := rfl

section

variable {s : State} {t : Nat} {p : Put} {r : Rcb} (hin : p.rcb + 32 ≤ Config.tableArea)
  (hfree : guarded s (keyScratch t p.rcb) 32 = false) (hinj : injRead s (keyScratch t p.rcb) = false)
  (hpoison : poisoned s (keyScratch t p.rcb) 32 = false) (hrcb : rcbOf (visRead s (keyScratch t p.rcb) 32) = some r)

/-- The fill before a record that would wrap. -/
def ringPad (r : Rcb) (p : Put) : Nat :=
  if r.size < r.pi % r.size + recSize (p.hdr % 65536) then r.size - r.pi % r.size else 0

include hin hfree hinj hpoison hrcb

theorem ringPut_holds (hfull : r.size < (r.pi + 2 ^ 64 - r.ci) % 2 ^ 64 + ringPad r p + recSize (p.hdr % 65536)) :
    ringPut s t p = .hold := by
  simp only [ringPut, homeRefuses_eq_false hin hfree, homeRead_eq_visRead _ hinj hpoison, hrcb, Bool.false_eq_true, if_false]
  exact if_pos hfull

theorem ringPut_writes (hroom : (r.pi + 2 ^ 64 - r.ci) % 2 ^ 64 + ringPad r p + recSize (p.hdr % 65536) ≤ r.size)
    (hpad : ringPad r p = 0 ∨ guarded s (keyScratch t (r.base + r.pi % r.size)) 4 = false)
    (hrec : guarded s (keyScratch t (r.base + (r.pi + ringPad r p) % r.size)) (recSize (p.hdr % 65536)) = false) :
    ringPut s t p = .written (performStore (performStore
        (if ringPad r p = 0 then s
          else performStore s (keyScratch t (r.base + r.pi % r.size)) (bytesLE 4 (ringPad r p - 4)) 0)
        (keyScratch t (r.base + (r.pi + ringPad r p) % r.size))
        (padTo (recSize (p.hdr % 65536)) (bytesLE 4 p.hdr ++ p.data)) 0)
      (keyScratch t (p.rcb + 8)) (bytesLE 8 (r.pi + ringPad r p + recSize (p.hdr % 65536))) 0) := by
  have hwritable : (ringPad r p != 0 && guarded s (keyScratch t (r.base + r.pi % r.size)) 4 ||
      guarded s (keyScratch t (r.base + (r.pi + ringPad r p) % r.size)) (recSize (p.hdr % 65536))) = false := by
    rw [hrec, Bool.or_false]
    rcases hpad with hpad | hpad
    · simp [hpad]
    · rw [hpad, Bool.and_false]
  simp only [ringPut, homeRefuses_eq_false hin hfree, homeRead_eq_visRead _ hinj hpoison, hrcb, Bool.false_eq_true, if_false]
  refine (if_neg (Nat.not_lt.mpr hroom)).trans ?_
  exact if_neg (by rw [Bool.not_eq_true]; exact hwritable)

end

/-! ### Puts as they arrive, are retried and are abandoned (R306-R308) -/

section

variable {s : State} {id : Nat} {p : Packet} {u : Put} (hitem : item s s.ev.who s.ev.idx = some (id, p))
  (hfresh : pktStale s p = false) (hwork : p.work = .ringPut u)
  (hothers : ∀ x ∈ (s.tile s.ev.who).puts, x.rcb ≠ u.rcb ∧ x.pkt ≠ id)

include hitem hwork in
/-- A put waits for the earlier ones to its ring. -/
theorem ringPutPerform_waits (hbefore : putBefore s s.ev.who u.rcb s.ev.idx = true) :
    exec .ringPutPerform s = .next s := by
  rw [exec_ringPutPerform, execRingPutPerform]
  refine eventStep_of_none ?_
  simp only [tryRingPutPerform, hitem, hwork, hbefore, Bool.or_true, if_true]

include hothers in
/-- The port holds neither this put nor another to its ring. -/
theorem port_free : (s.tile s.ev.who).puts.any (fun e => e.pkt == id) = false ∧
    (s.tile s.ev.who).puts.any (fun e => e.rcb == u.rcb) = false := by
  rw [List.any_eq_false, List.any_eq_false]
  exact ⟨fun x hx => by simpa using (hothers x hx).2, fun x hx => by simpa using (hothers x hx).1⟩

include hitem hfresh hwork hothers

theorem ringPutPerform_writes {s1 : State} (hfirst : putBefore s s.ev.who u.rcb s.ev.idx = false)
    (hput : ringPut s s.ev.who u = .written s1) :
    exec .ringPutPerform s = .next (sendArrival (finish s1 id none) s.ev.who u.lslot u.bar false 0 0) := by
  obtain ⟨hother, hring⟩ := port_free hothers
  rw [exec_ringPutPerform, execRingPutPerform]
  refine eventStep_of_some ?_
  simp only [tryRingPutPerform, hitem, hwork, hother, hfirst, hfresh, hring, hput, Bool.or_self, Bool.false_eq_true,
    if_false]

theorem ringPutPerform_holds (hfirst : putBefore s s.ev.who u.rcb s.ev.idx = false)
    (hput : ringPut s s.ev.who u = .hold) (hroom : (s.tile s.ev.who).puts.length < 16) :
    exec .ringPutPerform s = .next (s.modTile s.ev.who (fun x => { x with
      puts := x.puts ++ [{ u with time := p.since, pkt := id }] })) := by
  obtain ⟨hother, hring⟩ := port_free hothers
  rw [exec_ringPutPerform, execRingPutPerform]
  refine eventStep_of_some ?_
  simp only [tryRingPutPerform, hitem, hwork, hother, hfirst, hfresh, hring, hput, hroom, Bool.or_self,
    Bool.false_eq_true, if_false, if_true]

end

/-- The one held put is written and leaves the port (R307). -/
theorem ringPutRetry_writes {s s1 : State} {p : Put} (hheld : (s.tile s.ev.who).puts = [p])
    (hput : ringPut s s.ev.who p = .written s1) : exec .ringPutRetry s =
      .next ((sendArrival (finish s1 p.pkt none) s.ev.who p.lslot p.bar false 0 0).modTile s.ev.who
        (fun x => { x with puts := [] })) := by
  rw [exec_ringPutRetry, execRingPutRetry]
  refine eventStep_of_some ?_
  simp only [tryRingPutRetry, hheld, retryPuts, List.contains_nil, Bool.false_eq_true, if_false, hput]

/-- A packet in order that is abandoned is acknowledged (R362). -/
theorem abandonPkt_inOrder {s : State} {id : Nat} (h : ∀ q, s.pkt id = some q → q.place ≠ .early) :
    abandonPkt s id = finish s id none := by
  cases hp : s.pkt id with
  | none => simp only [abandonPkt, finish, handOver, ackPkt, hp]
  | some q => simp only [abandonPkt, hp, h q hp, if_false]

theorem ringPutAbandon_held {s : State} {p : Put} (hheld : (s.tile s.ev.who).puts[s.ev.idx]? = some p)
    (horder : ∀ q, s.pkt p.pkt = some q → q.place ≠ .early) : exec .ringPutAbandon s =
      .next (abandonPut (finish (s.modTile s.ev.who (fun x => { x with puts := dropAt x.puts s.ev.idx })) p.pkt none)
        s.ev.who p) := by
  rw [exec_ringPutAbandon, execRingPutAbandon]
  refine eventStep_of_some ?_
  simp only [tryRingPutAbandon, hheld]
  rw [abandonPkt_inOrder (s := s.modTile _ _) horder]

/-! ### Launch queues (R325, R326) -/

section

variable {s : State} {q : LaunchQueue} {w : LaunchWrite} (hqueue : s.queues[s.ev.who]? = some q)

/-- A slot is free once the record 64 before it has its STATUS. -/
theorem slotFree_of (hready : stalledOver s (slotKey q q.writeIdx) 128 = false)
    (hdone : q.writeIdx < 64 ∨ natLE (visRead s (slotKey q q.writeIdx + 126) 1) ≠ 0) : slotFree s q = true := by
  simpa [slotFree, hready] using hdone

include hqueue

theorem launchQueueWrite_held {r : List LaunchWrite} (hheld : q.held = w :: r) (hfree : slotFree s q = true) :
    exec .launchQueueWrite s =
      .next (finish (writeRecord s s.ev.who { q with held := r } w) w.pkt none) := by
  rw [exec_launchQueueWrite, execLaunchQueueWrite]
  refine eventStep_of_some ?_
  simp only [tryLaunchQueueWrite, hqueue, hheld, hfree, if_true, Option.some_or]

theorem launchWriteAbandon_held (hheld : q.held[s.ev.idx]? = some w) : exec .launchWriteAbandon s =
    .next (abandonWrite (finish (setQueue s s.ev.who { q with held := dropAt q.held s.ev.idx }) w.pkt none) s.ev.who q w) := by
  rw [exec_launchWriteAbandon, execLaunchWriteAbandon]
  refine eventStep_of_some ?_
  simp only [tryLaunchWriteAbandon, hqueue, hheld]

theorem launchQueueWrite_arrived {id i : Nat} {p : Packet} (hheld : q.held = [])
    (hrec : (recordItems s q s.ev.who)[s.ev.idx]? = some (id, w, i)) (hitem : item s q.tile i = some (id, p))
    (hfresh : pktStale s p = false) (hfree : slotFree s q = true) :
    exec .launchQueueWrite s = .next (finish (writeRecord s s.ev.who q w) id none) := by
  rw [exec_launchQueueWrite, execLaunchQueueWrite]
  refine eventStep_of_some ?_
  simp only [tryLaunchQueueWrite, hqueue, hheld, hrec, hitem, hfresh, hfree, Bool.false_eq_true, if_false, if_true,
    Option.some_or]

end

/-- Settles O22: puts at the ring port, and records at their queue. -/
theorem ringsAndLaunchQueues : Obligations.RingsAndLaunchQueues := by
  refine ⟨?port, ?arriving, fun s p s1 => ringPutRetry_writes, fun s p => ringPutAbandon_held, ?queue, ?arrived⟩
  case port =>
    intro s p r t k hin hfree hinj hpoison hrcb sz o pad used
    exact ⟨ringPut_holds hin hfree hinj hpoison hrcb, ringPut_writes hin hfree hinj hpoison hrcb⟩
  case arriving =>
    intro s id p u s1 t hitem hfresh hwork hothers
    refine ⟨ringPutPerform_waits hitem hwork, ringPutPerform_writes hitem hfresh hwork hothers,
      fun hfirst hput hroom => ⟨_, ringPutPerform_holds hitem hfresh hwork hothers hfirst hput hroom, ?_, rfl⟩⟩
    rw [State.tile_modTile]
  case queue =>
    intro s q w r k hqueue
    exact ⟨fun hheld hready hdone => launchQueueWrite_held hqueue hheld (slotFree_of hready hdone),
      launchWriteAbandon_held hqueue⟩
  case arrived =>
    intro s q w id i p k hqueue hheld hrec hitem hfresh hready hdone
    exact launchQueueWrite_arrived hqueue hheld hrec hitem hfresh (slotFree_of hready hdone)

end Sys2Proof.Proofs
end

section

/-! The scheduler of a tile (R29-R31, R43, R51, R54, R56): which context issues, which trigger is dispatched, the
context that starts, and stealing. -/

namespace Sys2Proof.Proofs

open Sys2Proof.Machine Sys2Proof.Laws Sys2Proof.Stated

/-! ### The processors (R29) -/

theorem canIssue_iff (s : State) (g : Nat) : canIssue s g = true ↔ (s.ctx g).st = .run ∧ heldBack s g = false := by
  simp [canIssue]

/-- The contexts of a processor in the order after `last`. -/
theorem pickCtx_eq (s : State) (g : Nat) :
    let last := (s.tile (tileOf g)).lastIssued.getD (g % 16 / 4) 0
    pickCtx s g = ((List.range 4).find? (fun i => canIssue s (g / 4 * 4 + (last + 1 + i) % 4))).map
      (fun i => g / 4 * 4 + (last + 1 + i) % 4) := by
  intro last
  rw [pickCtx, List.find?_map]
  rfl

/-- The first context in turn that can issue does. -/
theorem roundRobin : RoundRobin := by
  refine ⟨?picked, ?noted, ?held⟩
  case picked =>
    intro s g h last can
    have hpick : pickCtx s g = _ := pickCtx_eq s g
    refine ⟨fun hsome => ?_, fun hnone => ?_⟩
    · rw [hpick, Option.map_eq_some_iff] at hsome
      obtain ⟨i, hi, rfl⟩ := hsome
      obtain ⟨hcan, hlt, hbefore⟩ := List.find?_range_eq_some.mp hi
      rw [List.mem_range] at hlt
      have hturn : ((g / 4 * 4 + (last + 1 + i) % 4) % 4 + 3 - last % 4) % 4 = i := by omega
      refine ⟨by omega, (canIssue_iff _ _).mp hcan, fun j hj hno => ?_⟩
      have hskip := hbefore j (by rw [← hturn]; exact hj)
      rw [(canIssue_iff s _).mpr hno] at hskip
      exact absurd hskip (by decide)
    · rw [hpick, Option.map_eq_none_iff] at hnone
      intro j hj hcan
      have hskip : ¬ canIssue s (g / 4 * 4 + (last + 1 + (j + 3 - last % 4) % 4) % 4) = true :=
        List.find?_eq_none.mp hnone ((j + 3 - last % 4) % 4) (List.mem_range.mpr (by omega))
      have hturn : (last + 1 + (j + 3 - last % 4) % 4) % 4 = j := by omega
      rw [hturn] at hskip
      exact hskip ((canIssue_iff s _).mpr hcan)
  case noted =>
    intro s g hlen
    have hlt : g % 16 / 4 < (s.tile (tileOf g)).lastIssued.length := by omega
    rw [noteIssue, State.tile_modTile]
    simp [hlt]
  case held =>
    intro s g
    refine ⟨fun hstage htrap hsave => ?_, fun hbusy => ?_⟩
    · simp [heldBack, hstage, htrap, hsave]
    · rcases hbusy with hstage | htrap
      · simp [heldBack, Option.isNone_eq_false_iff.mpr hstage]
      · simp [heldBack, Option.isNone_eq_false_iff.mpr htrap]

/-! ### The choice of a trigger (R54) -/

/-- One trigger goes first: a higher priority, or an equal one and no later time. -/
def Ahead (a b : Trigger) : Prop := b.eff ≤ a.eff ∧ (b.eff = a.eff → a.time ≤ b.time)

theorem Ahead.refl (a : Trigger) : Ahead a a := ⟨Nat.le_refl _, fun _ => Nat.le_refl _⟩

theorem Ahead.trans {a b c : Trigger} (hab : Ahead a b) (hbc : Ahead b c) : Ahead a c := by
  obtain ⟨heff, htime⟩ := hab
  obtain ⟨heff', htime'⟩ := hbc
  exact ⟨by omega, fun h => (htime (by omega)).trans (htime' (by omega))⟩

theorem ahead_of_before {a b : Trigger} (h : a.before b = true) : Ahead a b := by
  simp only [Trigger.before, Bool.or_eq_true, Bool.and_eq_true, decide_eq_true_eq, beq_iff_eq] at h
  exact ⟨by omega, fun _ => by omega⟩

theorem ahead_of_not_before {a b : Trigger} (h : a.before b = false) : Ahead b a := by
  simp only [Trigger.before, Bool.or_eq_false_iff, Bool.and_eq_false_iff, decide_eq_false_iff_not, beq_eq_false_iff_ne] at h
  exact ⟨by omega, fun _ => by omega⟩

theorem firstTrig_none {l : List (Queued × Trigger)} (h : firstTrig l = none) : l = [] := by
  cases l with
  | nil => rfl
  | cons e r =>
    rw [firstTrig] at h
    cases hr : firstTrig r with
    | none => simp [hr] at h
    | some f =>
      simp only [hr] at h
      split at h <;> cases h

/-- The first trigger in dispatch order is one of them, and ahead of every other. -/
theorem firstTrig_some {l : List (Queued × Trigger)} {x : Queued × Trigger} (h : firstTrig l = some x) :
    x ∈ l ∧ ∀ e ∈ l, Ahead x.2 e.2 := by
  induction l generalizing x with
  | nil => simp [firstTrig] at h
  | cons e r ih =>
    rw [firstTrig] at h
    cases hr : firstTrig r with
    | none =>
      have hnil := firstTrig_none hr
      simp only [hr, Option.some.injEq] at h
      subst h hnil
      exact ⟨by simp, fun e' he' => by rw [List.mem_singleton] at he'; subst he'; exact Ahead.refl _⟩
    | some f =>
      obtain ⟨hmem, hahead⟩ := ih hr
      simp only [hr] at h
      split at h <;> rename_i hbefore
      · cases h
        exact ⟨List.mem_cons_of_mem _ hmem, List.forall_mem_cons.mpr ⟨ahead_of_before hbefore, hahead⟩⟩
      · cases h
        have hfirst := ahead_of_not_before (Bool.not_eq_true _ ▸ hbefore)
        exact ⟨List.mem_cons_self .., List.forall_mem_cons.mpr ⟨Ahead.refl _, fun e' he' => hfirst.trans (hahead e' he')⟩⟩

/-- A ready trigger stands in a queue, not among the staged records. -/
theorem readyAll_queued {x : Tile} {e : Queued × Trigger} (h : e ∈ readyAll x) (i : Nat) : e.1 ≠ .staged i := by
  rw [readyAll, List.mem_append, List.mem_append] at h
  rcases h with (h | h) | h
  · obtain ⟨a, -, ha⟩ := List.mem_filterMap.mp h
    split at ha <;> cases ha
    simp
  · obtain ⟨a, -, rfl⟩ := List.mem_map.mp h
    simp
  · obtain ⟨d, -, hd⟩ := List.mem_flatMap.mp h
    obtain ⟨a, -, rfl⟩ := List.mem_map.mp hd
    simp

/-- The triggers that can be taken and placed now. -/
def fitting (s : State) (t : Nat) : List (Queued × Trigger) :=
  (takeable (s.tile t) (readyRun s t)).filter (fun e => !(trigSlots s t e.2).isEmpty)

theorem mem_fitting {s : State} {t : Nat} {e : Queued × Trigger} (h : e ∈ fitting s t) :
    trigSlots s t e.2 ≠ [] ∧ e ∈ readyAll (s.tile t) := by
  obtain ⟨htake, hslots⟩ := List.mem_filter.mp h
  exact ⟨by simpa using hslots, List.mem_of_mem_filter (List.mem_of_mem_filter htake)⟩

/-- What is chosen stands in a queue. -/
theorem choose_queued {s : State} {t : Nat} {q : Queued} {tr : Trigger} (h : choose s t = some (q, tr)) (i : Nat) :
    q ≠ .staged i := by
  have hfits : ∀ (p : Queued × Trigger → Bool), firstTrig ((fitting s t).filter p) = some (q, tr) → q ≠ .staged i :=
    fun p hfirst => readyAll_queued (mem_fitting (List.mem_of_mem_filter (firstTrig_some hfirst).1)).2 i
  unfold choose at h
  dsimp only at h
  split at h
  · exact readyAll_queued (mem_fitting (firstTrig_some h).1).2 i
  · split at h
    · cases h
      exact hfits _ ‹_›
    · split at h
      · cases h
      · split at h
        · cases h
        · rintro rfl
          cases h
          rename_i hnot _
          exact hnot i rfl

/-- With no trigger passed 64 times nothing is held back (R54). -/
theorem keeper_none {s : State} {t : Nat} (hqueued : ∀ e ∈ readyAll (s.tile t), e.2.passes < 64)
    (hstaged : ∀ e ∈ (s.tile t).staging, e.1.passes < 64) : keeper s t = none := by
  have hnil : (readyRun s t ++ stagedRun s t).filter (fun e => decide (64 ≤ e.2.passes)) = [] := by
    rw [List.filter_eq_nil_iff]
    intro e he
    rw [decide_eq_true_eq, Nat.not_le]
    rcases List.mem_append.mp he with he | he
    · exact hqueued e (List.mem_of_mem_filter he)
    · obtain ⟨a, ha, rfl⟩ := List.mem_map.mp (List.mem_of_mem_filter he)
      exact hstaged a.1 (List.fst_mem_of_mem_zipIdx ha)
  rw [keeper, hnil]
  rfl

/-- A place is there only for a trigger of a launch that runs. -/
theorem ofRunning_of_slots {s : State} {t : Nat} {tr : Trigger} (h : trigSlots s t tr ≠ []) : ofRunning s tr = true := by
  unfold trigSlots at h
  unfold ofRunning
  split at h
  · exact absurd rfl h
  · rename_i l hl
    simp only [hl]
    by_cases hrun : l.state = .running
    · simp [hrun]
    · simp [hrun] at h

/-- The choice has a place, and nothing that could be taken and placed is ahead of it. -/
theorem choose_first {s : State} {t : Nat} {q : Queued} {tr : Trigger} (h : choose s t = some (q, tr))
    (hqueued : ∀ e ∈ readyAll (s.tile t), e.2.passes < 64) (hstaged : ∀ e ∈ (s.tile t).staging, e.1.passes < 64) :
    trigSlots s t tr ≠ [] ∧ (q, tr) ∈ readyAll (s.tile t) ∧
      ∀ e ∈ takeable (s.tile t) (readyAll (s.tile t)), trigSlots s t e.2 ≠ [] → Ahead tr e.2 := by
  have hfirst : firstTrig (fitting s t) = some (q, tr) := by
    unfold choose at h
    simp only [keeper_none hqueued hstaged] at h
    exact h
  obtain ⟨hmem, hahead⟩ := firstTrig_some hfirst
  obtain ⟨hslots, hready⟩ := mem_fitting hmem
  refine ⟨hslots, hready, fun e he hplace => hahead e ?_⟩
  obtain ⟨hall, htake⟩ := List.mem_filter.mp he
  exact List.mem_filter.mpr ⟨List.mem_filter.mpr ⟨List.mem_filter.mpr ⟨hall, ofRunning_of_slots hplace⟩, htake⟩,
    by simpa using hplace⟩

/-! ### Dispatch and staging (R56) -/

theorem dropTrig_staging {x : Tile} {q : Queued} (h : ∀ i, q ≠ .staged i) : (dropTrig x q).staging = x.staging := by
  cases q with
  | staged i => exact absurd rfl (h i)
  | _ => rfl

theorem stagedReady_none {s : State} {t : Nat}
    (h : ∀ e ∈ (s.tile t).staging, ofRunning s e.1 = true → farPages (s.tile t) e.1.hints ≠ []) : stagedReady s t = none := by
  rw [stagedReady, List.findIdx?_eq_none_iff]
  intro e he
  cases hrun : ofRunning s e.1 with
  | false => rfl
  | true => simpa using h e he hrun

/-- The position of the first element that satisfies a test. -/
theorem findIdx?_first {α : Type} {p : α → Bool} {pre post : List α} {x : α} (hx : p x = true)
    (hpre : ∀ e ∈ pre, p e = false) : (pre ++ x :: post).findIdx? p = some pre.length := by
  rw [List.findIdx?_append, List.findIdx?_eq_none_iff.mpr hpre, List.findIdx?_cons, hx]
  simp

theorem dispatchStaged_eq {s : State} {t n g : Nat} {tr : Trigger} {w : List Nat} {l : Launch}
    {pre post : List (Trigger × Nat × List Nat)} (hstaging : (s.tile t).staging = pre ++ (tr, n, g :: w) :: post)
    (hlaunch : s.launch tr.lslot = some l) (hrun : l.state = .running) : dispatchStaged s t pre.length =
      some (startTrig (s.modTile t (fun x => takeTrig x (.staged pre.length) tr)) (g, w.head?) l tr) := by
  have hat : (s.tile t).staging[pre.length]? = some (tr, n, g :: w) := by simp [hstaging]
  simp only [dispatchStaged, hat, hlaunch, hrun, BEq.rfl, if_true]

section

variable {s : State} {q : Queued} {tr : Trigger} {l : Launch} {g : Nat} {w : Option Nat}
  (hnone : stagedReady s s.ev.who = none) (hchoose : choose s s.ev.who = some (q, tr))
  (hslot : (trigSlots s s.ev.who tr)[s.ev.idx % (trigSlots s s.ev.who tr).length]? = some (g, w))

include hnone hchoose hslot

theorem dispatch_starts (hlaunch : s.launch tr.lslot = some l)
    (hnear : farPages (s.tile s.ev.who) tr.hints = [] ∨ tr.staged = true) : exec .dispatch s =
      .next (startTrig (s.modTile s.ev.who (fun x => takeTrig x q tr)) (g, w) l tr) := by
  have hgo : ((farPages (s.tile s.ev.who) tr.hints).isEmpty || tr.staged) = true := by
    rcases hnear with h | h <;> simp [h]
  rw [exec_dispatch, execDispatch]
  refine eventStep_of_some ?_
  simp only [tryDispatch, hnone, hchoose, hgo, if_true, dispatchNow, hlaunch, hslot]

theorem dispatch_stages (hfar : farPages (s.tile s.ev.who) tr.hints ≠ []) (honce : tr.staged = false) :
    exec .dispatch s = .next (s.modTile s.ev.who (fun x => { dropTrig x q with
      staging := x.staging ++ [({ tr with staged := true }, s.cycle, Slot.ctxs (g, w))]
      swaps := x.swaps ++ (farPages (s.tile s.ev.who) tr.hints).map (fun p => ⟨p, none, none, false, 0⟩) })) := by
  have hstop : ((farPages (s.tile s.ev.who) tr.hints).isEmpty || tr.staged) = false := by simp [hfar, honce]
  rw [exec_dispatch, execDispatch]
  refine eventStep_of_some ?_
  simp only [tryDispatch, hnone, hchoose, hstop, Bool.false_eq_true, if_false, stageNow, hslot]

end

end Sys2Proof.Proofs
end

section

/-! The context that a dispatch starts (R30, R31, R43, R46). -/

namespace Sys2Proof.Proofs

open Sys2Proof.Machine Sys2Proof.Laws Sys2Proof.Stated

/-! ### A block that the device writes (R30) -/

section

variable {γ : Type} (π : State → γ)

theorem drainN_keeps (hmem : ∀ (s : State) m, π { s with mem := m } = π s) (htile : ∀ s t x, π (State.setTile s t x) = π s)
    (n : Nat) (s : State) (t : Nat) : π (drainN s t n) = π s := by
  induction n generalizing s with
  | zero => rfl
  | succ n ih =>
    cases hm : (s.tile t).merge with
    | nil => simp [drainN, drainOne, hm]
    | cons e r =>
      simp only [drainN, drainOne_cons hm]
      rw [ih, State.modTile, htile, hmem]

/-- A block written by the device changes memory and tiles alone. -/
theorem blockWrite_keeps (hmem : ∀ (s : State) m, π { s with mem := m } = π s)
    (htile : ∀ s t x, π (State.setTile s t x) = π s) (s : State) (k n : Nat) (bs : List Byte) :
    π (blockWrite s k n bs) = π s := by
  rw [blockWrite, hmem, touchPage_keeps π htile, clearPoison_keeps π htile, drainN_keeps π hmem htile]

end

theorem drainCount_append (es : List Merge) (e : Merge) (k n : Nat) : drainCount (es ++ [e]) k n =
    if overlaps e.key e.bytes.length k n then es.length + 1 else drainCount es k n := by
  simp [drainCount, List.zipIdx_append]

theorem drainCount_le (es : List Merge) (k n : Nat) : drainCount es k n ≤ es.length := by
  induction es using List.reverseRecOn with
  | nil => exact Nat.le_refl _
  | append_singleton es e ih =>
    rw [drainCount_append, List.length_append, List.length_singleton]
    split <;> omega

/-- What is left of a path after its drain lies off the bytes that it was drained for. -/
theorem overlaps_of_left {es : List Merge} {k n : Nat} {e : Merge} (h : e ∈ es.drop (drainCount es k n)) :
    overlaps e.key e.bytes.length k n = false := by
  induction es using List.reverseRecOn with
  | nil => simp at h
  | append_singleton es x ih =>
    rw [drainCount_append] at h
    split at h
    · rw [List.drop_eq_nil_of_le (by simp)] at h
      cases h
    · rename_i hx
      rw [List.drop_append_of_le_length (drainCount_le es k n)] at h
      rcases List.mem_append.mp h with h | h
      · exact ih h
      · rw [List.mem_singleton.mp h]
        simpa using hx

theorem memGet_memClear {m : Mem} {k n x : Nat} (h : k ≤ x ∧ x < k + n) : memGet (memClear m k n) x = 0 := by
  induction m with
  | nil => rfl
  | cons e r ih =>
    by_cases hin : k ≤ e.1 ∧ e.1 < k + n
    · rw [memClear, List.filter_cons_of_neg (by simp [hin])]
      exact ih
    · have hne : e.1 ≠ x := fun he => hin (he ▸ h)
      rw [memClear, List.filter_cons_of_pos (by simp only [hin, decide_false, Bool.not_false])]
      simp only [memGet, storeGet, hne, if_false]
      exact ih

/-- Entries off a byte leave it. -/
theorem foldl_overByte_outside {es : List Merge} {x : Nat} (b : Byte)
    (h : ∀ e ∈ es, x < e.key ∨ e.key + e.bytes.length ≤ x) :
    es.foldl (fun b e => overByte x b e.key e.bytes) b = b := by
  induction es generalizing b with
  | nil => rfl
  | cons e r ih =>
    rw [List.foldl_cons, overByte_outside b (h e (List.mem_cons_self ..))]
    exact ih b fun e' he' => h e' (List.mem_cons_of_mem _ he')

/-- A block reads as its bytes with zeros after them. -/
theorem visRead_blockWrite {s : State} {k n : Nat} {bs : List Byte} (hm : s.MemOk)
    {i : Nat} (hi : i < n) (hhome : homeTile (k + i) = homeTile k) :
    visRead (blockWrite s k n bs) (k + i) 1 = [bs.getD i 0] := by
  have hmerge : ((blockWrite s k n bs).tile (homeTile k)).merge =
      (s.tile (homeTile k)).merge.drop (drainCount (s.tile (homeTile k)).merge k n) :=
    (tileField_touched Tile.merge (fun _ _ => rfl) (fun _ _ => rfl) (fun _ _ => rfl) _ k n _).trans (drainN_eq _ s _).2
  have hmem : memGet (blockWrite s k n bs).mem (k + i) = bs.getD i 0 := by
    have hwf : memWf (memClear (touchPage (clearPoison (drainN s (homeTile k)
        (drainCount (s.tile (homeTile k)).merge k n)) k n) k n).mem k n) = true := by
      refine memWf_memClear _ _ ?_
      rw [touchPage_keeps State.mem (fun _ _ _ => rfl), clearPoison_keeps State.mem (fun _ _ _ => rfl)]
      exact memOk_drainN _ _ _ hm
    show memGet (memWrite (memClear _ k n) k bs) (k + i) = _
    by_cases hin : i < bs.length
    · rw [memGet_memWrite_inside bs hwf hin, List.getD_eq_getElem _ _ hin]
    · rw [memGet_memWrite_other bs (.inr (by omega)), memGet_memClear (by omega), List.getD_eq_default _ _ (by omega)]
  rw [visRead_one, hhome, seenByte, hmerge, hmem, foldl_overByte_outside]
  intro e he
  have hoff := overlaps_of_left he
  rw [overlaps, decide_eq_false_iff_not] at hoff
  omega

/-! ### The context at its start (R30, R136) -/

/-- The registers that a start fills: the payload, the stack and the frame (R30). -/
def startRegs (tr : Trigger) (top frame : Nat) : List (Nat × Word) :=
  (List.range 8).map (fun i => (i, BitVec.ofNat 64 (natAt tr.payload (8 * i) 8))) ++
    [(29, BitVec.ofNat 64 top), (31, BitVec.ofNat 64 frame)]

theorem getElem_startRegs (tr : Trigger) (top frame : Nat) (i : Fin 32) :
    (regsAfter (Vector.replicate 32 0) (startRegs tr top frame) none)[i] =
      if i.val < 8 then BitVec.ofNat 64 (natAt tr.payload (8 * i.val) 8)
      else if i.val = 29 then BitVec.ofNat 64 top
      else if i.val = 31 then BitVec.ofNat 64 frame
      else 0 := by
  rw [getElem_regsAfter]
  fin_cases i <;> rfl

/-- A context at its start, with its registers zero. -/
def blankCtx (s : State) (g owner : Nat) (twin : Option Nat) (l : Launch) (tr : Trigger) : Ctx :=
  { Ctx.reset g with
    st := .run, pc := entryOf l tr, k := l.konst, status := startStatus g tr twin.isSome
    trapvec := BitVec.ofNat 64 (natAt l.record 32 8 % 2 ^ 48)
    fpctl := BitVec.ofNat 64 (natAt l.record 20 4 &&& 0x11F)
    cap := BitVec.ofNat 64 (natAt l.record 16 4 % 2 ^ 16)
    pri := priWord tr.pri (if tr.pri < tr.eff then tr.eff else 0)
    inherited := if tr.pri < tr.eff then tr.eff else 0
    saveptr := BitVec.ofNat 64 (savePtr l (s.ctx g).place), act := s.nextAct, trig := some tr
    lslot := tr.lslot, asid := l.asid, place := (s.ctx g).place, addrPlace := (s.ctx owner).place
    stackPages := max 1 (natAt l.desc 168 4), mapped := 1, twin := twin, isTwin := g != owner }

theorem startCtx_eq (s : State) (g owner : Nat) (twin : Option Nat) (l : Launch) (tr : Trigger) :
    startCtx s g owner twin l tr = { blankCtx s g owner twin l tr with
      n := regsAfter (Vector.replicate 32 0)
        (startRegs tr (blankCtx s g owner twin l tr).stackTop (blankCtx s g owner twin l tr).frame) none } := by
  have hregs := foldl_setReg (startRegs tr (blankCtx s g owner twin l tr).stackTop (blankCtx s g owner twin l tr).frame)
    (blankCtx s g owner twin l tr)
  rw [startRegs, List.foldl_append, List.foldl_map] at hregs
  exact hregs

theorem getLsbD_of_div {n k : Nat} {b : Bool} (hk : k < 64) (h : n / 2 ^ k % 2 = b.toNat) :
    (BitVec.ofNat 64 n).getLsbD k = b := by
  rw [BitVec.getLsbD_ofNat, decide_eq_true hk, Bool.true_and, Nat.testBit_eq_decide_div_mod_eq, h]
  cases b <;> rfl

/-- The fields of the status that a dispatch sets. -/
theorem startStatus_fields (g : Nat) (tr : Trigger) (span : Bool) :
    fld (startStatus g tr span) 4 4 = g % 16 / 4 * 4 + g % 4 ∧ (startStatus g tr span).getLsbD 14 = span ∧
      (startStatus g tr span).getLsbD 15 = false ∧ (startStatus g tr span).getLsbD 13 = false ∧
      (startStatus g tr span).getLsbD 12 = decide (0 < tr.redeliv) ∧ (startStatus g tr span).getLsbD 11 = tr.rerun := by
  have hspan := Bool.toNat_le span
  have hredeliv := Bool.toNat_le (decide (0 < tr.redeliv))
  have hrerun := Bool.toNat_le tr.rerun
  refine ⟨?_, getLsbD_of_div (by decide) ?_, getLsbD_of_div (by decide) ?_, getLsbD_of_div (by decide) ?_,
    getLsbD_of_div (by decide) ?_, getLsbD_of_div (by decide) ?_⟩
  · rw [fld, startStatus, BitVec.toNat_ofNat, Nat.shiftRight_eq_div_pow]
    omega
  · omega
  · rw [Bool.toNat_false]
    omega
  · rw [Bool.toNat_false]
    omega
  · omega
  · omega

section

variable (s : State) (l : Launch) (tr : Trigger) (g : Nat)

theorem startCopy_ctx (owner : Nat) (twin : Option Nat) :
    (startCopy s g owner twin l tr).ctx g = startCtx s g owner twin l tr := State.ctx_setCtx ..

theorem startCopy_ctx_other {owner k : Nat} {twin : Option Nat} (hk : k ≠ g) :
    (startCopy s g owner twin l tr).ctx k = s.ctx k :=
  (State.ctx_setCtx_other _ _ hk).trans (blockWrite_keeps (State.ctx · k) (fun _ _ => rfl) (fun _ _ _ => rfl) ..)

theorem startCopy_nextAct (owner : Nat) (twin : Option Nat) : (startCopy s g owner twin l tr).nextAct = s.nextAct := by
  rw [startCopy, State.setCtx_nextAct]
  exact blockWrite_keeps State.nextAct (fun _ _ => rfl) (fun _ _ _ => rfl) ..

/-- The owner of a place, and what the others keep. -/
theorem startTrig_ctx {w : Option Nat} (hw : w ≠ some g) :
    (startTrig s (g, w) l tr).ctx g = startCtx s g g w l tr ∧ (startTrig s (g, w) l tr).nextAct = s.nextAct + 1 ∧
      (∀ y, y ≠ g → w ≠ some y → (startTrig s (g, w) l tr).ctx y = s.ctx y) := by
  cases w with
  | none =>
    refine ⟨startCopy_ctx .., ?_, fun y hy _ => startCopy_ctx_other s l tr g hy⟩
    rw [startTrig, State.modTile_nextAct]
    exact congrArg (· + 1) (startCopy_nextAct ..)
  | some x =>
    have hx : g ≠ x := fun h => hw (h ▸ rfl)
    refine ⟨?_, ?_, fun y hy hyx => ?_⟩
    · exact (startCopy_ctx_other (startCopy s g g (some x) l tr) l tr x hx).trans (startCopy_ctx ..)
    · rw [startTrig, State.modTile_nextAct]
      exact congrArg (· + 1) ((startCopy_nextAct ..).trans (startCopy_nextAct ..))
    · have hne : y ≠ x := fun h => hyx (h ▸ rfl)
      exact (startCopy_ctx_other (startCopy s g g (some x) l tr) l tr x hne).trans (startCopy_ctx_other s l tr g hy)

theorem startTrig_twin (x : Nat) : (startTrig s (g, some x) l tr).ctx x =
    startCtx (startCopy s g g (some x) l tr) x g (some g) l tr := startCopy_ctx ..

theorem frameBytes_getD (hlen : tr.payload.length ≤ 224) (horigin : tr.origin = false) (i : Nat) :
    (frameBytes l tr).getD i 0 = tr.payload.getD i 0 := by
  have hbytes : frameBytes l tr = tr.payload ++ List.replicate (256 - tr.payload.length) 0 := by
    rw [frameBytes, horigin, List.take_of_length_le hlen, padTo, List.append_assoc]
    simp only [Bool.false_eq_true, if_false, List.replicate_append_replicate]
    congr 2
    omega
  rw [hbytes]
  by_cases hi : i < tr.payload.length
  · rw [List.getD_append _ _ _ _ hi]
  · rw [List.getD_append_right _ _ _ _ (by omega), List.getD_eq_default tr.payload _ (by omega),
      List.getD_eq_getElem?_getD, List.getElem?_replicate]
    split <;> rfl

theorem homeTile_frame (c : Ctx) {i : Nat} (hi : i < 4096) : homeTile (keyScratch (tileOf g) c.frame + i) = tileOf g := by
  have htile := tileOf_lt g
  have hframe : c.frame + i < 2 ^ 21 := by
    simp only [Ctx.frame, Config.frameBase]
    omega
  rw [homeTile, keyScratch, if_pos (by omega)]
  omega

/-- The frame starts with the payload, and is zero after it (R31). -/
theorem startTrig_frame (hlen : tr.payload.length ≤ 224) (horigin : tr.origin = false) (hm : s.MemOk)
    {i : Nat} (hi : i < 4096) :
    visRead (startTrig s (g, none) l tr) (keyScratch (tileOf g) ((startTrig s (g, none) l tr).ctx g).frame + i) 1 =
      [tr.payload.getD i 0] := by
  have hctx := (startTrig_ctx s l tr g (w := none) (by simp)).1
  have hkey : keyScratch (tileOf g) (startCtx s g g none l tr).frame = frameKey (startCtx s g g none l tr) g := by
    have howner : (startCtx s g g none l tr).isTwin = false := by
      rw [startCtx_eq]
      exact bne_self_eq_false g
    rw [frameKey, howner]
    rfl
  have hread : ∀ k n, visRead (startTrig s (g, none) l tr) k n =
      visRead (blockWrite s (frameKey (startCtx s g g none l tr) g) 4096 (frameBytes l tr)) k n := by
    intro k n
    refine visRead_congr (t := startTrig s (g, none) l tr) (s := blockWrite s (frameKey (startCtx s g g none l tr) g) 4096
      (frameBytes l tr)) rfl (fun u => ?_) k n
    by_cases hu : u = tileOf g
    · subst hu
      rw [startTrig, State.tile_modTile]
      rfl
    · rw [startTrig, State.tile_modTile_other _ _ hu]
      rfl
  have hhome : ∀ {i : Nat}, i < 4096 → homeTile (keyScratch (tileOf g) (startCtx s g g none l tr).frame + i) = tileOf g :=
    fun hi => homeTile_frame g _ hi
  rw [hread, hctx, ← hkey, visRead_blockWrite hm hi ((hhome hi).trans (hhome (i := 0) (by decide)).symm),
    frameBytes_getD l tr hlen horigin]

end

/-- A turn of the scheduler: the choice, its place or its staging, and the context that starts. -/
theorem dispatching : Dispatching := by
  refine ⟨?turn, ?staged, fun s t q tr hchoose hqueued hstaged => choose_first hchoose hqueued hstaged, ?started,
    fun s l tr g hlen horigin _ hm i hi => startTrig_frame s l tr g hlen horigin hm hi⟩
  case turn =>
    intro s q tr l g w t sl far hwaits hchoose hlaunch hslot
    have hnone := stagedReady_none hwaits
    refine ⟨dispatch_starts hnone hchoose hslot hlaunch, fun hfar honce =>
      ⟨_, dispatch_stages hnone hchoose hslot hfar honce, ?_, rfl, rfl, ?_⟩⟩
    · rw [State.tile_modTile, dropTrig_staging (choose_queued hchoose)]
      rfl
    · rw [State.tile_modTile]
  case staged =>
    intro s tr n g w pre post l t hstaging hlaunch hrun starts
    have hofrun : ofRunning s tr = true := by simp [ofRunning, hlaunch, hrun]
    have hstart := dispatchStaged_eq hstaging hlaunch hrun
    refine ⟨fun hpre hnear => ?_, fun hpre => ?_⟩
    · have hready : stagedReady s s.ev.who = some pre.length := by
        rw [stagedReady, show (s.tile s.ev.who).staging = _ from hstaging]
        refine findIdx?_first (by simp [hofrun, show farPages (s.tile s.ev.who) tr.hints = [] from hnear]) fun e he => ?_
        cases hrun : ofRunning s e.1 with
        | false => rfl
        | true => simpa using hpre e he hrun
      rw [exec_dispatch, execDispatch]
      refine eventStep_of_some ?_
      simp only [tryDispatch, hready]
      exact hstart
    · have hfirst : (s.tile s.ev.who).staging.findIdx? (fun e => ofRunning s e.1) = some pre.length := by
        rw [show (s.tile s.ev.who).staging = _ from hstaging]
        exact findIdx?_first hofrun hpre
      rw [exec_stageWaitExpire, execStageWaitExpire]
      refine eventStep_of_some ?_
      simp only [tryStageWaitExpire, hfirst]
      exact hstart
  case started =>
    intro s l tr g w hw u c
    obtain ⟨hctx, hact, hothers⟩ := startTrig_ctx s l tr g hw
    have hc : c = startCtx s g g w l tr := hctx
    obtain ⟨hnum, hspan, huser, hcommit, hredeliv, hrerun⟩ := startStatus_fields g tr w.isSome
    rw [startCtx_eq] at hc
    refine ⟨hact, ?_⟩
    rw [hc]
    refine ⟨rfl, rfl, rfl, rfl, rfl, rfl, rfl, rfl, rfl, rfl, rfl, getElem_startRegs tr _ _, rfl, rfl, rfl, rfl, rfl, rfl,
      rfl, rfl, rfl, rfl, hnum, hspan, huser, hcommit, hredeliv, hrerun, fun x hx => ?_, hothers⟩
    subst hx
    have htwin : u.ctx x = _ := startTrig_twin s l tr g x
    have hne : x ≠ g := fun h => hw (h ▸ rfl)
    rw [htwin, startCtx_eq]
    exact ⟨rfl, rfl, bne_iff_ne.mpr hne, rfl, startCopy_nextAct ..⟩

end Sys2Proof.Proofs
end

section

/-! Work stealing (R51), and the scheduler's obligation. -/

namespace Sys2Proof.Proofs

open Sys2Proof.Machine Sys2Proof.Laws Sys2Proof.Stated

/-- A stop other than a tile's own is another tile of its cluster (R16). -/
theorem tileOfStop_spec {t n : Nat} (hn : n < 8) (hne : n ≠ stopOf t) :
    clusterOf (tileOfStop (clusterOf t) n) = clusterOf t ∧ tileOfStop (clusterOf t) n ≠ t := by
  simp only [tileOfStop, clusterOf, tileAt, tileX, tileY, stopOf] at hne ⊢
  by_cases hlow : n < 4 <;> by_cases hrow : t / 32 % 2 = 0 <;> simp only [hlow, hrow, if_true, if_false] at hne ⊢ <;>
    exact ⟨by omega, by omega⟩

/-- The first seven tiles that a search tries are the others of its cluster. -/
theorem victim_near {x : Tile} {t pick : Nat} (hnear : x.lastVictim < 56) :
    clusterOf (victim x t pick).1 = clusterOf t ∧ (victim x t pick).1 ≠ t := by
  have htried : x.lastVictim / 8 < 7 := by omega
  have hstop : stopOf t < 8 := by
    simp only [stopOf, tileX]
    split <;> omega
  simp only [victim, htried, if_true]
  refine tileOfStop_spec ?_ ?_
  · split <;> omega
  · split <;> omega

theorem stealRequest_sends {s : State} (hidle : idle s s.ev.who = true) (hfree : (s.tile s.ev.who).stealing = false) :
    exec .stealRequest s = .next { s.modTile s.ev.who (fun x => { x with
      lastVictim := (victim (s.tile s.ev.who) s.ev.who s.ev.idx).2, stealing := true }) with
      steals := s.steals ++ [.request s.ev.who (victim (s.tile s.ev.who) s.ev.who s.ev.idx).1] } := by
  rw [exec_stealRequest, execStealRequest]
  refine eventStep_of_some ?_
  simp only [tryStealRequest, hidle, hfree, Bool.not_false, Bool.and_self, if_true]

/-- The record at the position that a steal finds may be given. -/
theorem stealAt_some {s : State} {th j : Nat} {d : List Trigger} (h : stealAt s th d = some j) {tr : Trigger}
    (hj : d[j]? = some tr) : tr.nosteal = false ∧ tr.rerun = false ∧
      ∃ l, s.launch tr.lslot = some l ∧ inRect l.record th = true := by
  rw [stealAt, Option.map_eq_some_iff] at h
  obtain ⟨e, hlast, rfl⟩ := h
  obtain ⟨hmem, hok⟩ := List.mem_filter.mp (List.mem_of_getLast? hlast)
  have htr : e.1 = tr := by
    have hat := List.mem_zipIdx_iff_getElem?.mp hmem
    exact Option.some.inj (hat.symm.trans hj)
  subst htr
  simp only [Bool.and_eq_true, Bool.not_eq_true'] at hok
  obtain ⟨⟨hsteal, hrerun⟩, hrect⟩ := hok
  refine ⟨hsteal, hrerun, ?_⟩
  split at hrect
  · exact ⟨_, ‹_›, hrect⟩
  · cases hrect

theorem stealFrom_some {s : State} {v th p j : Nat} (h : stealFrom s v th = some (p, j)) :
    stealAt s th ((s.tile v).deques.getD p []) = some j := by
  rw [stealFrom] at h
  obtain ⟨l1, p', l2, -, hp, -⟩ := List.findSome?_eq_some_iff.mp h
  rw [Option.map_eq_some_iff] at hp
  obtain ⟨i, hi, heq⟩ := hp
  cases heq
  exact hi

theorem requestTo_first {v th : Nat} {r : List StealMsg} : requestTo v (.request th v :: r) = some (0, th) := by
  simp [requestTo, List.zipIdx_cons]

theorem replyTo_first {th : Nat} {t : Option Trigger} {r : List StealMsg} :
    replyTo th (.reply th t :: r) = some (0, t) := by
  simp [replyTo, List.zipIdx_cons]

/-- The victim gives a record that may be stolen, or nothing; the reply ends the search. -/
theorem stealing : Stealing := by
  refine ⟨?request, ?serve, ?reply, ?pushed⟩
  case request =>
    intro s t x _ hidle hfree
    exact ⟨_, _, rfl, fun hnear => victim_near hnear, stealRequest_sends hidle hfree⟩
  case serve =>
    intro s th r v hmsgs
    have hto : requestTo s.ev.who s.steals = some (0, th) := by
      rw [hmsgs]
      exact requestTo_first
    refine ⟨fun hnone => ?_, fun p j tr hsome hat => ⟨?_, stealAt_some (stealFrom_some hsome) hat⟩⟩
    · rw [exec_stealServe, execStealServe]
      refine eventStep_of_some ?_
      simp only [tryStealServe, hto, show stealFrom s s.ev.who th = none from hnone]
      rw [hmsgs]
      rfl
    · rw [exec_stealServe, execStealServe]
      refine eventStep_of_some ?_
      simp only [tryStealServe, hto, show stealFrom s s.ev.who th = _ from hsome, dropAt,
        show ((s.tile s.ev.who).deques.getD p [])[j]? = _ from hat, List.eraseIdx_eq_take_drop_succ]
      rw [hmsgs]
      rfl
  case reply =>
    intro s r t
    refine ⟨fun hmsgs => ?_, fun tr hmsgs hroom => ?_⟩
    · have hto : replyTo s.ev.who s.steals = some (0, none) := by
        rw [hmsgs]
        exact replyTo_first
      rw [exec_stealReply, execStealReply]
      refine eventStep_of_some ?_
      simp only [tryStealReply, hto]
      rw [hmsgs]
      rfl
    · have hto : replyTo s.ev.who s.steals = some (0, some tr) := by
        rw [hmsgs]
        exact replyTo_first
      have hfree : hasRoom (s.tile s.ev.who) tr = true := decide_eq_true hroom
      rw [exec_stealReply, execStealReply]
      refine eventStep_of_some ?_
      simp only [tryStealReply, hto, hfree, if_true]
      rw [hmsgs]
      rfl
  case pushed =>
    intro x tr now hlen heff
    simp [pushRecord, hlen, heff]

/-- Settles O50: the processors, the choice and start of a trigger, and stealing. -/
theorem dispatchingAndStealing : Obligations.DispatchingAndStealing := ⟨roundRobin, dispatching, stealing⟩

end Sys2Proof.Proofs
end

section

/-! The vault agent and the replies at the issuer (R269-R278). -/

namespace Sys2Proof.Proofs

open Sys2Proof.Machine Sys2Proof.Laws Sys2Proof.Stated

/-! ### Taking a request (R277, R294) -/

section

variable {s : State} {opc id id' : Nat} {p p' : Packet} {r r0 : RemoteReq}
  (hitem : agentItem s s.ev.who s.ev.idx = some (id, p, r0))
  (hnext : oldestReq (agentQueue s s.ev.who) = some (id, p', r)) (hopc : r.opc = opc)
  (hidle : (s.tile s.ev.who).agent = none)

include hitem hnext hopc hidle

theorem takeRequest_stale (hstale : staleAt s s.ev.who r.tag = true) :
    takeRequest opc s = some (finish (rejectReq s s.ev.who r 2) id none) := by
  simp only [takeRequest, hitem, hnext, hopc, hidle, hstale, ne_eq, not_true, Option.isSome_none, Bool.false_eq_true,
    or_self, if_false, if_true]

theorem takeRequest_offline (hfresh : staleAt s s.ev.who r.tag = false) (hoff : pageOff s r.key = true) :
    takeRequest opc s = some (finish (rejectReq s s.ev.who r 1) id none) := by
  simp only [takeRequest, hitem, hnext, hopc, hidle, hfresh, hoff, ne_eq, not_true, Option.isSome_none,
    Bool.false_eq_true, or_self, if_false, if_true]

/-- A contribution that does not complete its entry touches no row. -/
theorem takeRequest_joins (hfresh : staleAt s s.ev.who r.tag = false) (hon : pageOff s r.key = false)
    (hranked : opc = 0xD2) (hpart : completes s s.ev.who r = false) :
    takeRequest opc s = some (performReq s s.ev.who r) := by
  subst hranked
  simp only [takeRequest, hitem, hnext, hopc, hidle, hfresh, hon, hpart, ne_eq, not_true, Option.isSome_none,
    Bool.false_eq_true, or_self, if_false, decide_true, Bool.not_false, Bool.and_self, if_true]

theorem takeRequest_held (hfresh : staleAt s s.ev.who r.tag = false) (hon : pageOff s r.key = false)
    (hother : opc ≠ 0xD2) (hrow : rowHeld s r.key (nextSpan r) = true) :
    takeRequest opc s = some (holdOp s s.ev.who ⟨r, 0, 0, [], false⟩) := by
  simp only [takeRequest, hitem, hnext, hopc, hidle, hfresh, hon, hrow, hother, ne_eq, not_true, Option.isSome_none,
    Bool.false_eq_true, or_self, if_false, decide_false, Bool.false_and, if_true]

theorem takeRequest_performs (hfresh : staleAt s s.ev.who r.tag = false) (hon : pageOff s r.key = false)
    (hrow : rowHeld s r.key (nextSpan r) = false) (hpage : pageBusy s r.key = false) :
    takeRequest opc s = some (performReq s s.ev.who r) := by
  simp only [takeRequest, hitem, hnext, hopc, hidle, hfresh, hon, hrow, hpage, ne_eq, not_true, Option.isSome_none,
    Bool.false_eq_true, or_self, if_false, ite_self]

end

/-- The agent performs the request that it serves next. -/
theorem takeRequest_of_serves {s : State} {opc id : Nat} {r : RemoteReq} (h : Serves s opc id r) :
    takeRequest opc s = some (performReq s s.ev.who r) := by
  obtain ⟨⟨p, r0, hitem⟩, ⟨p', hnext⟩, hopc, hidle, hfresh, hon, hrow, hpage⟩ := h
  exact takeRequest_performs hitem hnext hopc hidle hfresh hon hrow hpage

theorem continueBlock_idle {s : State} (opc : Nat) (hidle : (s.tile s.ev.who).agent = none) : continueBlock opc s = none := by
  simp only [continueBlock, hidle]

/-! ### The bytes of elements -/

theorem bytesLE_natLE (bs : List Byte) : bytesLE bs.length (natLE bs) = bs := by
  induction bs with
  | nil => rfl
  | cons b r ih =>
    have hb := b.isLt
    have hlow : BitVec.ofNat 8 (b.toNat + 256 * natLE r) = b := by
      apply BitVec.eq_of_toNat_eq
      rw [BitVec.toNat_ofNat]
      omega
    have hhigh : (b.toNat + 256 * natLE r) / 256 = natLE r := by omega
    rw [List.length_cons, natLE, bytesLE, hlow, hhigh, ih]

theorem bytesLE_natAt {bs : List Byte} {o n : Nat} (h : o + n ≤ bs.length) :
    bytesLE n (natAt bs o n) = (bs.drop o).take n := by
  have hlen : ((bs.drop o).take n).length = n := by
    rw [List.length_take, List.length_drop]
    omega
  have hslice : sliceB bs o n = (bs.drop o).take n := by rw [sliceB, hlen, Nat.sub_self, List.replicate_zero, List.append_nil]
  have hbytes := bytesLE_natLE ((bs.drop o).take n)
  rw [hlen] at hbytes
  rw [natAt, hslice, hbytes]

theorem flatMap_take (bs : List Byte) (e n : Nat) :
    (List.range n).flatMap (fun j => (bs.drop (e * j)).take e) = bs.take (e * n) := by
  induction n with
  | zero => rfl
  | succ n ih => rw [List.range_succ, List.flatMap_append, ih, Nat.mul_succ, List.take_add]; simp

/-- The elements of bytes make them up. -/
theorem flatMap_natAt (e n : Nat) {bs : List Byte} (h : bs.length = e * n) :
    (List.range n).flatMap (fun j => bytesLE e (natAt bs (e * j) e)) = bs := by
  have hparts : (List.range n).flatMap (fun j => bytesLE e (natAt bs (e * j) e)) =
      (List.range n).flatMap (fun j => (bs.drop (e * j)).take e) := by
    refine List.flatMap_congr fun j hj => bytesLE_natAt ?_
    have hle := Nat.mul_le_mul_left e (Nat.succ_le_of_lt (List.mem_range.mp hj))
    rw [Nat.mul_succ] at hle
    omega
  rw [hparts, flatMap_take, ← h, List.take_length]

theorem natAt_whole (bs : List Byte) : natAt bs 0 bs.length = natLE bs := by
  rw [natAt, sliceB, List.drop_zero, List.take_length, Nat.sub_self, List.replicate_zero, List.append_nil]

/-! ### The performed request (R271, R272, R274) -/

section

variable {γ : Type} (π : State → γ) (hmem : ∀ (s : State) m, π { s with mem := m } = π s)
  (htile : ∀ s t x, π (State.setTile s t x) = π s)

include hmem htile

theorem arrayStore_keeps (s : State) (k : Nat) (bs : List Byte) (a : Nat) : π (arrayStore s k bs a) = π s :=
  (drainN_keeps π hmem htile ..).trans (performStore_keeps π hmem htile ..)

end

/-- A read of sound elements touches the page and finds no bad one. -/
theorem readElems_sound {s : State} {r : RemoteReq} {e n : Nat} (h : Sound s r e n) : readElems s r e n =
    (touchPage s r.key (e * n), (List.range n).map (fun j => natAt (visRead s r.key (e * n)) (e * j) e), []) := by
  obtain ⟨hinj, hclean⟩ := h
  have hbad : (List.range n).filter (fun j => poisoned s (r.key + e * j) e || (false && injDbl s && j == 0)) = [] := by
    rw [List.filter_eq_nil_iff]
    intro j hj
    simp [hclean j (List.mem_range.mp hj)]
  simp only [readElems, hinj, Bool.false_eq_true, if_false, hbad]

/-- An element operation on sound elements: each new value from its index and its old one. -/
theorem performElems_sound {s : State} {r : RemoteReq} {e n : Nat} (h : Sound s r e n) (f : Nat → Nat → Nat)
    (o : Option Nat) (value : Nat → Word) : performElems s s.ev.who r e n f o value =
      agentReply (arrayStore (touchPage s r.key (e * n)) r.key
          ((List.range n).flatMap (fun j => bytesLE e (f j (natAt (visRead s r.key (e * n)) (e * j) e)))) r.act) s.ev.who
        ⟨r, 0, n, 0, o.toList.map (fun o => (o, visRead s r.key (e * n))), [],
          value (((List.range n).map (fun j => natAt (visRead s r.key (e * n)) (e * j) e)).headD 0), true, false⟩ := by
  have hvals : ((List.range n).map (fun j => natAt (visRead s r.key (e * n)) (e * j) e)).zipIdx.map
      (fun (v : Nat × Nat) => f v.2 v.1) = (List.range n).map (fun j => f j (natAt (visRead s r.key (e * n)) (e * j) e)) := by
    refine List.ext_getElem (by simp) fun i hi hi' => ?_
    simp
  have hold : ((List.range n).map (fun j => natAt (visRead s r.key (e * n)) (e * j) e)).flatMap (bytesLE e) =
      visRead s r.key (e * n) := by
    rw [List.flatMap_map]
    exact flatMap_natAt e n (length_visRead ..)
  simp only [performElems, readElems_sound h, writeElems, hvals, List.isEmpty_nil, if_true, List.flatMap_map, List.length_nil,
    Nat.sub_zero, badSectors, List.map_nil, List.dedup_nil]
  cases o with
  | none => rfl
  | some o => simp only [retWrites, hold, List.isEmpty_nil, if_true]; rfl

/-- Element operations touch memory and tiles before they reply. -/
theorem arrayStore_touched_ev (s : State) (k n : Nat) (bs : List Byte) (a : Nat) :
    (arrayStore (touchPage s k n) k bs a).ev = s.ev :=
  (arrayStore_keeps State.ev (fun _ _ => rfl) (fun _ _ _ => rfl) ..).trans (touchPage_keeps State.ev (fun _ _ _ => rfl) ..)

section

variable {s : State} {r : RemoteReq}

theorem performElems_replied {e n : Nat} (h : Sound s r e n) (f : Nat → Nat → Nat) (o : Option Nat) (value : Nat → Word) :
    finish (performElems s s.ev.who r e n f o value) r.pkt none =
      replied (arrayStore (touchPage s r.key (e * n)) r.key
        ((List.range n).flatMap (fun j => bytesLE e (f j (natAt (visRead s r.key (e * n)) (e * j) e)))) r.act) r n
        (o.toList.map (fun o => (o, visRead s r.key (e * n))))
        (value (((List.range n).map (fun j => natAt (visRead s r.key (e * n)) (e * j) e)).headD 0)) := by
  rw [performElems_sound h, replied, arrayStore_touched_ev]

theorem performReq_rld (hopc : r.opc = 0xCF) (h : Sound s r r.wBytes 1) : performReq s s.ev.who r =
    replied (touchPage s r.key r.wBytes) r 1 (if r.nb = true then [(0, visRead s r.key r.wBytes)] else [])
      (intPush r.isSigned (8 * r.wBytes) (natLE (visRead s r.key r.wBytes))) := by
  have hone : natAt (visRead s r.key r.wBytes) 0 r.wBytes = natLE (visRead s r.key r.wBytes) := by
    have hwhole := natAt_whole (visRead s r.key r.wBytes)
    rwa [length_visRead] at hwhole
  have hback : bytesLE r.wBytes (natLE (visRead s r.key r.wBytes)) = visRead s r.key r.wBytes := by
    have hbytes := bytesLE_natLE (visRead s r.key r.wBytes)
    rwa [length_visRead] at hbytes
  simp only [performReq, hopc, performRld, readElems_sound h, Nat.mul_one, List.range_one, List.map_cons, List.map_nil,
    Nat.mul_zero, hone, List.headD_cons, List.isEmpty_nil, if_true, hback, replied,
    touchPage_keeps State.ev (fun _ _ _ => rfl)]

theorem performReq_rst (hopc : r.opc = 0xD0) : performReq s s.ev.who r =
    replied (arrayStore s r.key (bytesLE r.wBytes r.v.toNat) r.act) r 1 [] 0 := by
  simp only [performReq, hopc, performRst, replied, arrayStore_keeps State.ev (fun _ _ => rfl) (fun _ _ _ => rfl)]

theorem performReq_rred (hopc : r.opc = 0xD1) (h : Sound s r r.elem r.count) : performReq s s.ev.who r =
    replied (arrayStore (touchPage s r.key (r.elem * r.count)) r.key ((List.range r.count).flatMap (fun j =>
        bytesLE r.elem (elemOp r.op r.ty (8 * r.elem) r.sat (natAt (visRead s r.key (r.elem * r.count)) (r.elem * j) r.elem)
          (natAt r.data (r.elem * j) r.elem)))) r.act)
      r r.count (if r.ret = true then [(0, visRead s r.key (r.elem * r.count))] else []) 0 := by
  simp only [performReq, hopc, performRred, performElems_replied h]
  cases r.ret <;> rfl

theorem performReq_rsax (hopc : r.opc = 0xD4) (h : Sound s r r.elem r.count) : performReq s s.ev.who r =
    replied (arrayStore (touchPage s r.key (r.elem * r.count)) r.key ((List.range r.count).flatMap (fun j =>
        bytesLE r.elem (saxElem r.ty (r.v.toNat % 2 ^ 32) (natAt (visRead s r.key (r.elem * r.count)) (r.elem * j) r.elem)
          (natAt r.data (r.elem * j) r.elem)))) r.act)
      r r.count (if r.ret = true then [(8, visRead s r.key (r.elem * r.count))] else []) 0 := by
  simp only [performReq, hopc, performRsax, performElems_replied h]
  cases r.ret <;> rfl

theorem performReq_rcas (hopc : r.opc = 0xD3) (h : Sound s r r.wBytes 1) :
    let one := natLE (visRead s r.key r.wBytes)
    performReq s s.ev.who r = replied (arrayStore (touchPage s r.key r.wBytes) r.key (bytesLE r.wBytes
        (if one = (if r.nb = true then natAt r.data 0 r.wBytes else r.v.toNat % 2 ^ (8 * r.wBytes))
          then natAt r.data (if r.nb = true then 8 else 0) r.wBytes else one)) r.act)
      r 1 (if r.nb = true then [(0, visRead s r.key r.wBytes)] else []) (intPush r.isSigned (8 * r.wBytes) one) := by
  intro one
  have hone : natAt (visRead s r.key r.wBytes) 0 r.wBytes = natLE (visRead s r.key r.wBytes) := by
    have hwhole := natAt_whole (visRead s r.key r.wBytes)
    rwa [length_visRead] at hwhole
  simp only [performReq, hopc, performRcas, performElems_replied h, Nat.mul_one, List.range_one, List.map_cons, List.map_nil,
    Nat.mul_zero, hone, List.headD_cons, List.flatMap_cons, List.flatMap_nil, List.append_nil]
  cases r.nb <;> rfl

theorem performReq_block (hopc : r.opc = 0xDA ∨ r.opc = 0xDB) :
    performReq s s.ev.who r = blockStep s s.ev.who ⟨r, 0, 0, [], false⟩ := by
  rcases hopc with hopc | hopc <;> simp only [performReq, hopc]

end

end Sys2Proof.Proofs
end

section

/-! What the vault agent performs, its queue, and the replies at the issuer (R271-R278). -/

namespace Sys2Proof.Proofs

open Sys2Proof.Machine Sys2Proof.Laws Sys2Proof.Stated

/-! ### Block forms, a block a step (R275, R277) -/

/-- A byte of a value repeated `n` times. -/
theorem getElem?_repeated (bs : List Byte) {n i : Nat} (hi : i < bs.length * n) :
    ((List.range n).flatMap (fun _ => bs))[i]? = bs[i % bs.length]? := by
  induction n generalizing i with
  | zero => simp at hi
  | succ n ih =>
    rw [List.range_succ_eq_map, List.flatMap_cons, List.flatMap_map]
    by_cases hfirst : i < bs.length
    · rw [List.getElem?_append_left hfirst, Nat.mod_eq_of_lt hfirst]
    · rw [Nat.mul_succ] at hi
      rw [List.getElem?_append_right (by omega), ih (by omega), Nat.mod_eq_sub_mod (a := i) (by omega)]

theorem wBytes_mul (r : RemoteReq) : r.wBytes * (32 / r.wBytes) = 32 := by
  have hlt : r.modf % 4 < 4 := Nat.mod_lt _ (by decide)
  rw [RemoteReq.wBytes]
  interval_cases r.modf % 4 <;> rfl

/-- The 32 bytes of a step of RFILL. -/
def fillBytes (r : RemoteReq) : List Byte := (List.range (32 / r.wBytes)).flatMap (fun _ => bytesLE r.wBytes r.v.toNat)

theorem getElem?_fillBytes (r : RemoteReq) {i : Nat} (hi : i < 32) :
    (fillBytes r)[i]? = (bytesLE r.wBytes r.v.toNat)[i % r.wBytes]? := by
  have hlen := length_bytesLE r.wBytes r.v.toNat
  rw [fillBytes, getElem?_repeated _ (by rw [hlen, wBytes_mul]; exact hi), hlen]

theorem length_fillBytes (r : RemoteReq) : (fillBytes r).length = 32 := by
  simp [fillBytes, List.length_flatMap, length_bytesLE, Nat.mul_comm, wBytes_mul]

/-- A byte of an agent's write as a read sees it, where its home is that of the write. -/
theorem visRead_arrayStore {s : State} {k a i : Nat} {bs : List Byte} (hk : k < 2 ^ 60) (hbs : bs ≠ []) (hm : s.MemOk)
    (hi : i < bs.length) (hhome : homeTile (k + i) = homeTile k) :
    visRead (arrayStore s k bs a) (k + i) 1 = bs[i]?.toList := by
  obtain ⟨hmerge, hmem⟩ := arrayStore_leaves (a := a) hk hbs hm
  have hbyte : memGet (arrayStore s k bs a).mem (k + i) = bs[i] := by
    have hget : (memRead (arrayStore s k bs a).mem k bs.length)[i]? = bs[i]? := by rw [hmem]
    rw [memRead_eq_map, List.getElem?_map, List.getElem?_range hi, List.getElem?_eq_getElem hi] at hget
    exact Option.some.inj hget
  rw [visRead_one, hhome, seenByte, hmerge, List.foldl_nil, hbyte, List.getElem?_eq_getElem hi]
  rfl

section

variable {s : State} {home : Nat} {o : AgentOp}

theorem blockSector_fill (hopc : o.req.opc = 0xDA) (hon : pageOff s (o.req.key + 32 * o.next) = false)
    (hbar : o.req.bar = none) : blockSector s home o =
      (arrayStore s (o.req.key + 32 * o.next) (fillBytes o.req) o.req.act,
        { o with next := o.next + 1, perf := o.perf + 1 }, []) := by
  simp only [blockSector, hon, hopc, hbar, Bool.false_eq_true, if_false, if_true]
  rfl

theorem blockSector_read (hopc : o.req.opc = 0xDB) (hon : pageOff s (o.req.key + 32 * o.next) = false)
    (hinj : injRead s (o.req.key + 32 * o.next) = false) (hpoison : poisoned s (o.req.key + 32 * o.next) 32 = false) :
    blockSector s home o = (touchPage s (o.req.key + 32 * o.next) 32, { o with next := o.next + 1, perf := o.perf + 1 },
      [(32 * o.next, visRead s (o.req.key + 32 * o.next) 32)]) := by
  simp only [blockSector, hon, hopc, Bool.false_eq_true, if_false, unitRead, fireRead_of_not_injRead hinj,
    uncorrectable_eq_false hinj hpoison]
  rfl

theorem blockStep_fill (hopc : o.req.opc = 0xDA) (hon : pageOff s (o.req.key + 32 * o.next) = false)
    (hbar : o.req.bar = none) (hmore : o.next + 1 < o.req.count) : blockStep s home o =
      (arrayStore s (o.req.key + 32 * o.next) (fillBytes o.req) o.req.act).modTile home
        (fun x => { x with agent := some { o with next := o.next + 1, perf := o.perf + 1 } }) := by
  simp only [blockStep, blockSector_fill hopc hon hbar, hmore, if_true, List.isEmpty_nil]

theorem blockStep_read (hopc : o.req.opc = 0xDB) (hon : pageOff s (o.req.key + 32 * o.next) = false)
    (hinj : injRead s (o.req.key + 32 * o.next) = false) (hpoison : poisoned s (o.req.key + 32 * o.next) 32 = false)
    (hmore : o.next + 1 < o.req.count) : blockStep s home o =
      (agentReply (touchPage s (o.req.key + 32 * o.next) 32) home ⟨o.req, 0, o.perf + 1, 0,
        [(32 * o.next, visRead s (o.req.key + 32 * o.next) 32)], [], 0, false, false⟩).modTile home
        (fun x => { x with agent := some { o with next := o.next + 1, perf := o.perf + 1 } }) := by
  simp only [blockStep, blockSector_read hopc hon hinj hpoison, hmore, if_true, List.isEmpty_cons, Bool.false_eq_true,
    if_false]

/-- A reply without failure is the next packet of its home. -/
theorem agentReply_pkt {rep : Reply} (hstatus : rep.status = 0) :
    ∃ p, (agentReply s home rep).pkt s.nextPkt = some p ∧ p.work = .reply rep := by
  simp only [agentReply, hstatus, bne_self_eq_false, Bool.and_false, Bool.false_eq_true, if_false, sendWork, sendTagged,
    sendOne]
  exact ⟨_, tabFind_tabSet_same _ _ _, rfl⟩

end

/-! ### Element operations (R272) -/

theorem elemOp_int {ty : Nat} (hty : ty ∈ [1, 2, 5, 6, 9, 10, 11, 12]) (op w : Nat) (sat : Bool) (a b : Nat) :
    elemOp op ty w sat a b = intOp op ty w sat a b := by
  have hfmt : typeFmt ty = none := by fin_cases hty <;> rfl
  simp only [elemOp, hfmt]

theorem typeInt_emod (ty w v : Nat) : typeInt ty w v % (2 ^ w : Nat) = (v : Int) % (2 ^ w : Nat) := by
  rw [typeInt]
  split
  · simp only [sint]
    split
    · rw [Int.sub_emod, Int.emod_self, sub_zero, Int.emod_emod_of_dvd _ (dvd_refl _), Int.natCast_emod,
        Int.emod_emod_of_dvd _ (dvd_refl _)]
    · rw [Int.natCast_emod, Int.emod_emod_of_dvd _ (dvd_refl _)]
  · rw [Int.natCast_emod, Int.emod_emod_of_dvd _ (dvd_refl _)]

theorem intOp_add (ty w a b : Nat) : intOp 0 ty w false a b = (a + b) % 2 ^ w := by
  have hsum : (typeInt ty w a + typeInt ty w b) % (2 ^ w : Nat) = ((a + b : Nat) : Int) % (2 ^ w : Nat) := by
    rw [Int.add_emod, typeInt_emod, typeInt_emod, ← Int.add_emod, Nat.cast_add]
  simp only [intOp, wrapInt, Bool.false_eq_true, if_false, hsum]
  rw [← Int.natCast_emod, Int.toNat_natCast]

/-- The next block of the form in progress (R277). -/
theorem continueBlock_steps {s : State} {o : AgentOp} {opc : Nat} (hop : (s.tile s.ev.who).agent = some o)
    (hopc : o.req.opc = opc) (hgo : o.remap = false) (hrow : rowHeld s (o.req.key + 32 * o.next) 32 = false)
    (hpage : pageBusy s (o.req.key + 32 * o.next) = false) :
    continueBlock opc s = some (blockStep s s.ev.who o) := by
  simp only [continueBlock, hop, hopc, hgo, hrow, hpage, ne_eq, not_true, decide_false, Bool.or_self, Bool.false_eq_true,
    if_false]

/-- Settles O26: each request as the agent performs it, block forms a block a step. -/
theorem remoteAgent : Obligations.RemoteAgent := by
  refine ⟨?performs, ?continues, ?blocks, ?ops⟩
  case performs =>
    intro s id r opc hserves w e old one
    have hopc : r.opc = opc := hserves.2.2.1
    have hidle : (s.tile s.ev.who).agent = none := hserves.2.2.2.1
    have htake := takeRequest_of_serves hserves
    refine ⟨fun hform hsound => ?rld, fun hform => ?rst, fun hform hsound => ?rred, fun hform hsound => ?rsax,
      fun hform hsound => ?rcas, fun hform => ?rfill, fun hform => ?rldb⟩ <;> subst hform
    case rld =>
      rw [exec_agentRld, execAgentRld]
      exact eventStep_of_some (htake.trans (congrArg some (performReq_rld hopc hsound)))
    case rst =>
      rw [exec_agentRst, execAgentRst]
      exact eventStep_of_some (htake.trans (congrArg some (performReq_rst hopc)))
    case rred =>
      rw [exec_agentRred, execAgentRred]
      exact eventStep_of_some (htake.trans (congrArg some (performReq_rred hopc hsound)))
    case rsax =>
      rw [exec_agentRsax, execAgentRsax]
      exact eventStep_of_some (htake.trans (congrArg some (performReq_rsax hopc hsound)))
    case rcas =>
      rw [exec_agentRcas, execAgentRcas]
      exact eventStep_of_some (htake.trans (congrArg some (performReq_rcas hopc hsound)))
    case rfill =>
      rw [exec_agentRfill, execAgentRfill]
      refine eventStep_of_some ?_
      rw [continueBlock_idle _ hidle, Option.none_or, htake, performReq_block (.inl hopc)]
    case rldb =>
      rw [exec_agentRldb, execAgentRldb]
      refine eventStep_of_some ?_
      rw [continueBlock_idle _ hidle, Option.none_or, htake, performReq_block (.inr hopc)]
  case continues =>
    intro s o home k hop hgo hrow hpage
    refine ⟨fun hopc => ?_, fun hopc => ?_⟩
    · rw [exec_agentRfill, execAgentRfill]
      refine eventStep_of_some ?_
      rw [continueBlock_steps hop hopc hgo hrow hpage, Option.some_or]
    · rw [exec_agentRldb, execAgentRldb]
      refine eventStep_of_some ?_
      rw [continueBlock_steps hop hopc hgo hrow hpage, Option.some_or]
  case blocks =>
    intro s home o r k hon hbar hmore hk hm
    refine ⟨fun hopc => ?_, fun hopc hinj hpoison => ?_⟩
    · have hstep := blockStep_fill (home := home) hopc hon hbar hmore
      have hlen := length_fillBytes r
      have hbytes : fillBytes r ≠ [] := by
        intro h
        rw [h] at hlen
        exact absurd hlen (by decide)
      rw [hstep]
      refine ⟨by rw [State.tile_modTile], fun i hi hhome => ?_⟩
      rw [← getElem?_fillBytes r hi]
      refine (SameStores.visRead_eq (sameStores_modTile ?_) _ _).trans
        (visRead_arrayStore hk hbytes hm (by rw [hlen]; exact hi) hhome)
      exact fun _ => rfl
    · have hstep := blockStep_read (home := home) hopc hon hinj hpoison hmore
      obtain ⟨p, hp, hwork⟩ := agentReply_pkt (s := touchPage s k 32) (home := home) (rep := ⟨r, 0, o.perf + 1, 0,
        [(32 * o.next, visRead s k 32)], [], 0, false, false⟩) rfl
      rw [touchPage_keeps State.nextPkt (fun _ _ _ => rfl)] at hp
      rw [hstep]
      exact ⟨by rw [State.tile_modTile], p, hp, hwork⟩
  case ops =>
    intro w a b ty hty _
    simp only [elemOp_int hty, intOp_add, true_and]
    exact ⟨rfl, rfl, rfl, rfl⟩

end Sys2Proof.Proofs
end

section

/-! Ranked reductions, requests turned away or held, and replies at the issuer (R273, R275, R276, R278, R294). -/

namespace Sys2Proof.Proofs

open Sys2Proof.Machine Sys2Proof.Laws Sys2Proof.Stated

/-! ### Ranked reductions (R273) -/

section

variable {s : State} {r : RemoteReq} {e : Ranked}

theorem rankedWith_opens (now : Nat) : rankedWith [] r now =
    some (0, ⟨r.key, r.op, r.ty, r.sat, r.count, r.ranks, now, [(r.rank, r)]⟩) := rfl

theorem rankedWith_rejects (now : Nat) (hmeets : e.meets r = true) (htakes : e.takes r = false) :
    rankedWith [e] r now = none := by
  simp [rankedWith, List.findIdx?_cons, hmeets, htakes]

theorem rankedWith_joins (now : Nat) (hmeets : e.meets r = true) (htakes : e.takes r = true) :
    rankedWith [e] r now = some (0, { e with got := e.got ++ [(r.rank, r)] }) := by
  simp [rankedWith, List.findIdx?_cons, hmeets, htakes]

theorem performReq_ranked {home : Nat} (hopc : r.opc = 0xD2) : performReq s home r = performRanked s home r := by
  simp only [performReq, hopc]

theorem performRanked_rejects {home : Nat} (hwith : rankedWith (s.tile home).ranked r s.cycle = none) :
    performRanked s home r = finish (rejectReq s home r 1) r.pkt none := by
  simp only [performRanked, hwith]

theorem performRanked_holds {home i : Nat} (hwith : rankedWith (s.tile home).ranked r s.cycle = some (i, e))
    (hpart : e.got.length ≠ e.n) : performRanked s home r = s.modTile home (fun x => { x with
      ranked := (s.tile home).ranked.take i ++ e :: (s.tile home).ranked.drop (i + 1) }) := by
  simp only [performRanked, hwith, hpart, if_false]

theorem performRanked_completes {home i : Nat} (hwith : rankedWith (s.tile home).ranked r s.cycle = some (i, e))
    (hall : e.got.length = e.n) : performRanked s home r =
      completeRanked (s.modTile home (fun x => { x with ranked := dropAt (s.tile home).ranked i })) home e r := by
  simp only [performRanked, hwith, hall, if_true]

theorem agentRredRk_performs {id : Nat} (hserves : Serves s 0xD2 id r) :
    exec .agentRredRk s = .next (performRanked s s.ev.who r) := by
  rw [exec_agentRredRk, execAgentRredRk]
  refine eventStep_of_some ?_
  rw [takeRequest_of_serves hserves, performReq_ranked hserves.2.2.1]

theorem modTile_congr {t : Nat} {f f' : Tile → Tile} (h : f (s.tile t) = f' (s.tile t)) :
    s.modTile t f = s.modTile t f' := by
  rw [State.modTile, State.modTile, h]

theorem rredRkExpire_closes (hranked : (s.tile s.ev.who).ranked = [e]) (hidx : s.ev.idx = 0) : exec .rredRkExpire s =
    .next (closeRanked (s.modTile s.ev.who (fun x => { x with ranked := [] })) s.ev.who e) := by
  have hat : (s.tile s.ev.who).ranked[s.ev.idx]? = some e := by rw [hranked, hidx]; rfl
  have hdrop : s.modTile s.ev.who (fun x => { x with ranked := dropAt x.ranked s.ev.idx }) =
      s.modTile s.ev.who (fun x => { x with ranked := [] }) := modTile_congr (by rw [hranked, hidx]; rfl)
  rw [exec_rredRkExpire, execRredRkExpire]
  refine eventStep_of_some ?_
  simp only [tryRredRkExpire, hat]
  rw [hdrop]

end

/-! ### Requests turned away, held and resumed (R278, R294) -/

/-- Every form of the agent takes its request first, with no operation in progress. -/
theorem agent_takes {s u : State} {i : Instr} {opc : Nat} (hform : (i, opc) ∈ [(Instr.agentRld, 0xCF), (.agentRst, 0xD0),
      (.agentRred, 0xD1), (.agentRredRk, 0xD2), (.agentRcas, 0xD3), (.agentRsax, 0xD4), (.agentRfill, 0xDA),
      (.agentRldb, 0xDB)])
    (hidle : (s.tile s.ev.who).agent = none) (htake : takeRequest opc s = some u) : exec i s = .next u := by
  simp only [List.mem_cons, List.not_mem_nil, or_false, Prod.mk.injEq] at hform
  rcases hform with ⟨rfl, rfl⟩ | ⟨rfl, rfl⟩ | ⟨rfl, rfl⟩ | ⟨rfl, rfl⟩ | ⟨rfl, rfl⟩ | ⟨rfl, rfl⟩ | ⟨rfl, rfl⟩ | ⟨rfl, rfl⟩
  · rw [exec_agentRld, execAgentRld]
    exact eventStep_of_some htake
  · rw [exec_agentRst, execAgentRst]
    exact eventStep_of_some htake
  · rw [exec_agentRred, execAgentRred]
    exact eventStep_of_some htake
  · rw [exec_agentRredRk, execAgentRredRk]
    exact eventStep_of_some htake
  · rw [exec_agentRcas, execAgentRcas]
    exact eventStep_of_some htake
  · rw [exec_agentRsax, execAgentRsax]
    exact eventStep_of_some htake
  · rw [exec_agentRfill, execAgentRfill]
    exact eventStep_of_some (by rw [continueBlock_idle _ hidle, Option.none_or, htake])
  · rw [exec_agentRldb, execAgentRldb]
    exact eventStep_of_some (by rw [continueBlock_idle _ hidle, Option.none_or, htake])

section

variable {s : State} {o : AgentOp} (hop : (s.tile s.ev.who).agent = some o) (hheld : o.remap = true)
  (hrow : rowHeld s (o.req.key + (if nextSpan o.req = 32 then 32 * o.next else 0)) (nextSpan o.req) = false)
  (hpage : pageBusy s (o.req.key + (if nextSpan o.req = 32 then 32 * o.next else 0)) = false)

include hop hheld hrow hpage

theorem agentRemapResume_block (hopc : o.req.opc = 0xDA ∨ o.req.opc = 0xDB) : exec .agentRemapResume s =
    .next (blockStep (s.modTile s.ev.who (fun x => { x with agent := some { o with remap := false } })) s.ev.who
      { o with remap := false }) := by
  rw [exec_agentRemapResume, execAgentRemapResume]
  refine eventStep_of_some ?_
  simp only [tryAgentRemapResume, hop, hheld, hrow, hpage, hopc, Bool.not_true, Bool.or_self, Bool.false_eq_true, if_false,
    if_true]

theorem agentRemapResume_word (hopc : ¬(o.req.opc = 0xDA ∨ o.req.opc = 0xDB)) : exec .agentRemapResume s =
    .next (performReq (s.modTile s.ev.who (fun x => { x with agent := none })) s.ev.who o.req) := by
  rw [exec_agentRemapResume, execAgentRemapResume]
  refine eventStep_of_some ?_
  simp only [tryAgentRemapResume, hop, hheld, hrow, hpage, hopc, Bool.not_true, Bool.or_self, Bool.false_eq_true, if_false]

end

/-- The queue of the agent. -/
theorem agentQueues : AgentQueues := by
  refine ⟨?opens, ?joins, ?expires, ?refused, ?resumed⟩
  case opens =>
    intro s id r hserves hranked hmany
    have hwith : rankedWith (s.tile s.ev.who).ranked r s.cycle = _ := (congrArg (rankedWith · r s.cycle) hranked).trans
      (rankedWith_opens s.cycle)
    rw [agentRredRk_performs hserves, performRanked_holds hwith (Nat.ne_of_lt hmany), hranked]
    rfl
  case joins =>
    intro s id r e home hserves hranked hmeets
    refine ⟨fun htakes => ?_, fun htakes => ?_⟩
    · have hwith : rankedWith (s.tile s.ev.who).ranked r s.cycle = none := by
        rw [show (s.tile s.ev.who).ranked = [e] from hranked]
        exact rankedWith_rejects _ hmeets htakes
      rw [agentRredRk_performs hserves, performRanked_rejects hwith]
    · intro e'
      have hwith : rankedWith (s.tile s.ev.who).ranked r s.cycle = some (0, e') := by
        rw [show (s.tile s.ev.who).ranked = [e] from hranked]
        exact rankedWith_joins _ hmeets htakes
      have hcount : e'.got.length = e.got.length + 1 := List.length_append
      refine ⟨fun hpart => ?_, fun hall => ?_⟩
      · rw [agentRredRk_performs hserves, performRanked_holds hwith (by rw [hcount]; exact hpart),
          show (s.tile s.ev.who).ranked = [e] from hranked]
        rfl
      · rw [agentRredRk_performs hserves, performRanked_completes hwith (by rw [hcount]; exact hall),
          show (s.tile s.ev.who).ranked = [e] from hranked]
        rfl
  case expires =>
    intro s e t hranked hidx
    exact rredRkExpire_closes hranked hidx
  case refused =>
    intro s id p q r0 r i home hitem hnext hidle hform
    refine ⟨fun hstale => agent_takes hform hidle (takeRequest_stale hitem hnext rfl hidle hstale),
      fun hfresh hoff => agent_takes hform hidle (takeRequest_offline hitem hnext rfl hidle hfresh hoff),
      fun hfresh hon hother hrow =>
        ⟨_, agent_takes hform hidle (takeRequest_held hitem hnext rfl hidle hfresh hon hother hrow), ?_, rfl⟩⟩
    rw [holdOp, countEvent, State.tile_modTile, State.tile_modTile]
  case resumed =>
    intro s o t k hop hheld hrow hpage
    exact ⟨agentRemapResume_block hop hheld hrow hpage, agentRemapResume_word hop hheld hrow hpage⟩

/-! ### Replies (R275, R276, R278) -/

section

variable {s : State} {id : Nat} {p : Packet} {rep : Reply} (hitem : item s s.ev.who s.ev.idx = some (id, p))
  (hwork : p.work = .reply rep)

include hitem hwork

/-- A reply that brings data to a guarded granule carries ABANDON (R256). -/
theorem replyArrival_guarded (hguard : replyGuarded s rep = true) (hnb : rep.req.nb = true) (hlast : rep.last = true) :
    exec .replyArrival s = .next (replyBarrier (replyWrites (finish (logAt s 8 Cause.abandon.code s.ev.who p.lslot
      (rep.req.l.getD 0) rep.req.opc) id none) rep.guard) s.ev.who p.lslot rep.guard) := by
  have hnb' : rep.guard.req.nb = true := hnb
  have hlast' : rep.guard.last = true := hlast
  rw [exec_replyArrival, execReplyArrival]
  refine eventStep_of_some ?_
  simp only [tryReplyArrival, hitem, hwork, hguard, if_true, Bool.true_or, hnb', hlast', Bool.and_self]
  rfl

variable (hfree : replyGuarded s rep = false) (hnone : tabGet 0 (s.tile s.ev.who).refused rep.req.pkt = 0)

include hfree hnone

/-- A reply of a non-blocking form stores its data and tells its barrier. -/
theorem replyArrival_stores (hnb : rep.req.nb = true) : exec .replyArrival s =
    .next (replyBarrier (replyWrites (finish s id none) rep) s.ev.who p.lslot rep) := by
  rw [exec_replyArrival, execReplyArrival]
  refine eventStep_of_some ?_
  simp only [tryReplyArrival, hitem, hwork, hfree, hnone, hnb, bne_self_eq_false, Bool.or_self, Bool.false_and,
    Bool.false_eq_true, if_false, if_true]

/-- The one copy that waits takes the last reply of a blocking form. -/
theorem replyArrival_answers {g : Nat} (hblocks : rep.req.nb = false) (hlast : rep.last = true)
    (hwaits : awaiting (replyWrites (finish s id none) rep) rep.req.act = [g]) : exec .replyArrival s =
      .next (if rep.poison then consumePoison (replyWrites (finish s id none) rep) g
        else answerCtx (replyWrites (finish s id none) rep) g p.src rep) := by
  rw [exec_replyArrival, execReplyArrival]
  refine eventStep_of_some ?_
  simp only [tryReplyArrival, hitem, hwork, hfree, hnone, hblocks, hlast, hwaits, bne_self_eq_false, Bool.or_self,
    Bool.false_and, Bool.not_true, Bool.false_eq_true, if_false, List.foldl_cons, List.foldl_nil]
  split <;> rfl

end

/-- What the barrier learns from the reply of each form (R275). -/
theorem replyBarrier_word {s : State} {t lslot : Nat} {rep : Reply} (hfill : rep.req.opc ≠ 0xDA) (hread : rep.req.opc ≠ 0xDB)
    (hlast : rep.last = true) : replyBarrier s t lslot rep =
      sendArrival s t lslot rep.req.bar (rep.status != 0) rep.status rep.ab := by
  simp only [replyBarrier, hfill, hread, hlast, if_false, if_true]

theorem replyBarrier_fill {s : State} {t lslot : Nat} {rep : Reply} (hfill : rep.req.opc = 0xDA) :
    replyBarrier s t lslot rep = sendSectors s t lslot rep.req.bar rep.ab true
      (if rep.status = 0 then 1 else rep.status) rep.ab := by
  simp only [replyBarrier, hfill]
  rfl

section

variable {s : State} {t lslot : Nat} {rep : Reply} (hread : rep.req.opc = 0xDB)

include hread

theorem replyBarrier_last (hlast : rep.last = true) : replyBarrier s t lslot rep = sendSectors
    ((sendSectors s t lslot rep.req.bar rep.lw.length false 0 0).modTile t
      (fun x => { x with refused := tabDel x.refused rep.req.pkt })) t lslot rep.req.bar
    (tabGet 0 (s.tile t).refused rep.req.pkt + rep.ab) true (if rep.status = 0 then 1 else rep.status)
    (tabGet 0 (s.tile t).refused rep.req.pkt + rep.ab) := by
  simp only [replyBarrier, hread, hlast, if_true]

theorem replyBarrier_more (hmore : rep.last = false) : replyBarrier s t lslot rep =
    if rep.ab = 0 then sendSectors s t lslot rep.req.bar rep.lw.length false 0 0
    else (sendSectors s t lslot rep.req.bar rep.lw.length false 0 0).modTile t (fun x => { x with
      refused := tabSet x.refused rep.req.pkt (tabGet 0 (s.tile t).refused rep.req.pkt + rep.ab) }) := by
  simp only [replyBarrier, hread, hmore, if_true, Bool.false_eq_true, if_false]

end

/-- A copy that awaits its reply goes on with its bundle. -/
theorem answerCtx_continues {s : State} {g home : Nat} {rep : Reply} {st : Stage} {slot wr : Option Nat} {acts : List Act}
    (hstage : (s.ctx g).stage = some st) (hacts : st.acts = .awaitReply slot wr :: acts) : answerCtx s g home rep =
      continueBundle (if rep.status = 0 then fillSlot s g slot wr rep.value
        else (fillSlot s g slot wr rep.value).modCtx g (fun c => { c with
          fail := c.fail ++ [(rep.status, rep.perf, home)] })) g acts := by
  simp only [answerCtx, hstage, hacts]

/-- The end of each form at its issuer. -/
theorem replies : Replies := by
  intro s id p rep t r hitem hwork s1 code n read is
  refine ⟨fun hguard hnb hlast => replyArrival_guarded hitem hwork hguard hnb hlast, fun hfree hnone => ?unguarded⟩
  case unguarded =>
    have hstores := replyArrival_stores hitem hwork hfree hnone
    refine ⟨fun hnb hfill hread hlast => ?_, fun hnb hfill => ?_, fun hnb hread hlast => ?_, fun hnb hread hmore hab => ?_,
      fun hnb hread hmore hab => ?_, fun g st slot wr acts hblocks hlast hwaits hstage hacts => ?_,
      fun k bs hl hlp hlw hpz => ?_⟩
    · exact (hstores hnb).trans (congrArg _ (replyBarrier_word hfill hread hlast))
    · exact (hstores hnb).trans (congrArg _ (replyBarrier_fill hfill))
    · exact (hstores hnb).trans (congrArg _ (replyBarrier_last hread hlast))
    · exact (hstores hnb).trans (congrArg _ ((replyBarrier_more hread hmore).trans (if_pos hab)))
    · exact (hstores hnb).trans (congrArg _ ((replyBarrier_more hread hmore).trans (if_neg hab)))
    · have hanswers := replyArrival_answers hitem hwork hfree hnone hblocks hlast hwaits
      have hcontinues := answerCtx_continues (home := p.src) (rep := rep) hstage hacts
      refine ⟨fun hpoison => ?_, fun hsound hstatus => ?_, fun hsound hstatus => ?_⟩
      · rw [hanswers, hpoison]
        rfl
      · rw [hanswers, hsound]
        exact congrArg _ (hcontinues.trans (by rw [if_pos hstatus]))
      · rw [hanswers, hsound]
        exact congrArg _ (hcontinues.trans (by rw [if_neg hstatus]))
    · have hplaces : rep.req.places = [k] := by rw [RemoteReq.places, hl, hlp]; rfl
      simp only [s1, replyWrites, hplaces, hlw, hpz, List.foldl_cons, List.foldl_nil, Nat.add_zero]
      rfl

/-- Settles O51: the queue of the agent at the home, and its replies at the issuer. -/
theorem agentQueuesAndReplies : Obligations.AgentQueuesAndReplies := ⟨agentQueues, replies⟩

end Sys2Proof.Proofs
end

section

/-! Release groups, spans, continuations and joined tasks (R40, R44, R45, R303, R311). -/

namespace Sys2Proof.Proofs

open Sys2Proof.Machine Sys2Proof.Laws Sys2Proof.Stated

/-! ### Forwarding (R40, R361) -/

theorem tabFind_map {β : Type} (f : Nat → β → β) (m : List (Nat × β)) (k : Nat) :
    tabFind (m.map (fun e => (e.1, f e.1 e.2))) k = (tabFind m k).map (f k) := by
  induction m with
  | nil => rfl
  | cons e r ih =>
    by_cases hk : e.1 = k
    · simp [tabFind, hk]
    · simpa [tabFind, hk] using ih

theorem markEffect_pkt (s : State) (n i : Nat) : (markEffect s n).pkt i =
    (s.pkt i).map (fun p => if n ≤ i then { p with effect := n } else p) := by
  have hmap : s.pkts.map (fun (e : Nat × Packet) => if n ≤ e.1 then (e.1, { e.2 with effect := n }) else e) =
      s.pkts.map (fun e => (e.1, if n ≤ e.1 then { e.2 with effect := n } else e.2)) := by
    refine List.map_congr_left fun e _ => ?_
    split <;> rfl
  rw [State.pkt, markEffect, hmap]
  exact tabFind_map (fun i p => if n ≤ i then { p with effect := n } else p) s.pkts i

section

variable (s : State) (src dst : Nat) (owner : Owner) (lslot : Nat) (tag : GenTag) (w : Work)

/-- The packet that a send makes. -/
theorem sendOne_pkt (after : Option Nat) : ∃ p, (sendOne s src dst owner lslot tag after w).pkt s.nextPkt = some p ∧
    p.src = src ∧ p.dst = dst ∧ p.work = w ∧ p.owner = owner ∧ p.place = .source ∧
    p.seq = tabGet 0 s.seqOut (pairKey src dst) ∧ p.after = after :=
  ⟨_, tabFind_tabSet_same _ _ _, rfl, rfl, rfl, rfl, rfl, rfl, rfl⟩

theorem sendOne_pkt_other (after : Option Nat) {i : Nat} (hi : i ≠ s.nextPkt) :
    (sendOne s src dst owner lslot tag after w).pkt i = s.pkt i := tabFind_tabSet_other _ _ hi

theorem sendTagged_join (off : Nat) (tr : Trigger) (tgt : Nat) :
    sendTagged s src dst owner lslot tag (.joinAdd off tr tgt) =
      sendOne (sendOne s src dst owner lslot tag none (.joinAdd off tr tgt)) src tgt owner lslot tag (some s.nextPkt)
        (.task tr) := rfl

theorem sendTagged_plain (h : ∀ off tr tgt, w ≠ .joinAdd off tr tgt) : sendTagged s src dst owner lslot tag w =
    sendOne s src dst owner lslot tag none w := by
  unfold sendTagged
  split
  · exact absurd rfl (h _ _ _)
  · rfl

/-- The first packet of a send is its own work. -/
theorem sendTagged_pkt : ∃ p, (sendTagged s src dst owner lslot tag w).pkt s.nextPkt = some p ∧
    p.src = src ∧ p.dst = dst ∧ p.work = w ∧ p.owner = owner ∧ p.place = .source ∧
    p.seq = tabGet 0 s.seqOut (pairKey src dst) := by
  obtain ⟨p, hp, hsrc, hdst, hwork, howner, hplace, hseq, -⟩ := sendOne_pkt s src dst owner lslot tag w none
  refine ⟨p, ?_, hsrc, hdst, hwork, howner, hplace, hseq⟩
  by_cases hjoin : ∃ off tr tgt, w = .joinAdd off tr tgt
  · obtain ⟨off, tr, tgt, rfl⟩ := hjoin
    rw [sendTagged_join, sendOne_pkt_other _ _ _ _ _ _ _ _ (Nat.ne_of_lt (Nat.lt_succ_self s.nextPkt)), hp]
  · rw [sendTagged_plain s src dst owner lslot tag w (fun off tr tgt h => hjoin ⟨off, tr, tgt, h⟩), hp]

variable {γ : Type} (π : State → γ)

theorem sendTagged_keeps (hsend : ∀ (s : State) l n q, π { s with pkts := l, nextPkt := n, seqOut := q } = π s) :
    π (sendTagged s src dst owner lslot tag w) = π s := by
  unfold sendTagged
  split
  · exact (hsend _ _ _ _).trans (hsend _ _ _ _)
  · exact hsend _ _ _ _

end

section

variable {s : State} {g : Nat} {gr : Group} {e : Effect} {d : Nat} {w : Work} (hone : gr.effects = [e])
  (hpart : e.parts = [(d, w)])

include hone hpart

/-- A group of one effect of one part sends that part. -/
theorem forwardGroup_one : forwardGroup s g gr = countPerf ((markEffect (sendTagged s (tileOf g) d (.act (s.ctx g).act)
    (s.ctx g).lslot e.tag w) s.nextPkt).modCtx g (fun c => { c with fwd := c.fwd + 1, fwdAny := true })) (tileOf g) 2 1 := by
  simp only [forwardGroup, hone, List.foldl_cons, List.foldl_nil, sendEffect, hpart, List.length_singleton]

theorem forwardGroup_keeps_sent {γ : Type} (π : State → γ) (hctx : ∀ s g c, π (State.setCtx s g c) = π s)
    (htile : ∀ s t x, π (State.setTile s t x) = π s) : π (forwardGroup s g gr) =
      π (markEffect (sendTagged s (tileOf g) d (.act (s.ctx g).act) (s.ctx g).lslot e.tag w) s.nextPkt) := by
  rw [forwardGroup_one hone hpart, countPerf_keeps π htile, State.modCtx, hctx]

theorem forwardGroup_mem : (forwardGroup s g gr).mem = s.mem :=
  (forwardGroup_keeps_sent hone hpart State.mem (fun _ _ _ => rfl) (fun _ _ _ => rfl)).trans
    (sendTagged_keeps s _ _ _ _ _ _ State.mem (fun _ _ _ _ => rfl))

theorem forwardGroup_fwd : ((forwardGroup s g gr).ctx g).fwd = (s.ctx g).fwd + 1 := by
  have hctx : (markEffect (sendTagged s (tileOf g) d (.act (s.ctx g).act) (s.ctx g).lslot e.tag w) s.nextPkt).ctx g =
      s.ctx g := sendTagged_keeps s _ _ _ _ _ _ (State.ctx · g) (fun _ _ _ _ => rfl)
  rw [forwardGroup_one hone hpart, countPerf_ctx, State.ctx_modCtx, hctx]

theorem forwardGroup_pkt (i : Nat) : (forwardGroup s g gr).pkt i =
    ((sendTagged s (tileOf g) d (.act (s.ctx g).act) (s.ctx g).lslot e.tag w).pkt i).map
      (fun p => if s.nextPkt ≤ i then { p with effect := s.nextPkt } else p) :=
  (forwardGroup_keeps_sent hone hpart (State.pkt · i) (fun _ _ _ => rfl) (fun _ _ _ => rfl)).trans (markEffect_pkt ..)

theorem forwardGroup_nextPkt : (forwardGroup s g gr).nextPkt =
    (sendTagged s (tileOf g) d (.act (s.ctx g).act) (s.ctx g).lslot e.tag w).nextPkt :=
  forwardGroup_keeps_sent hone hpart State.nextPkt (fun _ _ _ => rfl) (fun _ _ _ => rfl)

end

/-! ### Ends (R28, R303) -/

/-- A freed activation is FREE in every copy. -/
theorem freeBoth_free (s : State) (g : Nat) : ((freeBoth s g).ctx g).st = .free ∧
    ∀ w, (s.ctx g).twin = some w → ((freeBoth s g).ctx w).st = .free := by
  cases htwin : (s.ctx g).twin with
  | none =>
    simp only [freeBoth, htwin]
    exact ⟨(freeCtx_ctx s g).1, fun w h => by cases h⟩
  | some t =>
    simp only [freeBoth, htwin]
    refine ⟨(freeCtx_ctx _ g).1, fun w h => ?_⟩
    cases h
    by_cases hw : t = g
    · subst hw
      exact (freeCtx_ctx _ t).1
    · rw [freeCtx_ctx_other _ _ hw]
      exact (freeCtx_ctx s t).1

section

variable (s : State) (o : Nat)

/-- What HALT's entry and the trigger's subtraction leave before the contexts are freed. -/
theorem finishEnd_eq : ∃ u, finishEnd s o = freeBoth (consume u o false) o ∧ u.ctxs = s.ctxs ∧ u.tiles = s.tiles ∧
    u.mem = s.mem := by
  unfold finishEnd
  dsimp only
  split <;> exact ⟨_, rfl, rfl, rfl, rfl⟩

theorem finishEnd_free : ((finishEnd s o).ctx o).st = .free ∧
    ∀ w, (s.ctx o).twin = some w → ((finishEnd s o).ctx w).st = .free := by
  obtain ⟨u, hu, hctxs, -, -⟩ := finishEnd_eq s o
  have hctx : (consume u o false).ctx o = s.ctx o :=
    (consume_keeps (State.ctx · o) (fun _ _ _ => rfl) u o false).trans (ctx_eq_of_ctxs hctxs o)
  have hfree := freeBoth_free (consume u o false) o
  rw [hctx, ← hu] at hfree
  exact hfree

theorem freeBoth_keeps {γ : Type} (π : State → γ) (hctxs : ∀ (s : State) l, π { s with ctxs := l } = π s) :
    π (freeBoth s o) = π s := by
  unfold freeBoth
  split
  · exact (freeCtx_keeps π hctxs ..).trans (freeCtx_keeps π hctxs ..)
  · exact freeCtx_keeps π hctxs ..

/-- An end touches the subtractions of its tile alone. -/
theorem finishEnd_conts (t : Nat) : ((finishEnd s o).tile t).conts = (s.tile t).conts := by
  obtain ⟨u, hu, -, htiles, -⟩ := finishEnd_eq s o
  have htile : u.tile t = s.tile t := by rw [State.tile, State.tile, htiles]
  rw [hu, freeBoth_keeps _ _ (fun s => (s.tile t).conts) (fun _ _ => rfl), ← htile]
  unfold consume
  dsimp only
  split
  · split
    · by_cases ht : t = tileOf o
      · subst ht
        rw [State.tile_modTile]
      · rw [State.tile_modTile_other _ _ ht]
    · rfl
  · rfl

theorem afterForward_continues (hcont : (s.ctx o).cont ≠ none) : afterForward s o = s := by
  have hsome : (s.ctx o).cont.isNone = false :=
    Option.isNone_eq_false_iff.mpr (Option.isSome_iff_ne_none.mpr hcont)
  simp only [afterForward, hsome, Bool.and_false, Bool.false_eq_true, if_false]

theorem afterForward_ends (hended : endedAll s o = true) (hcont : (s.ctx o).cont = none) :
    afterForward s o = finishEnd s o := by
  simp only [afterForward, hended, hcont, Option.isNone_none, Bool.and_self, if_true]

end

/-! ### The release of a group (R40, R44) -/

section

variable {s : State} {gr : Group} {r : List Group} (hgroups : (s.ctx s.ev.who).groups = gr :: r)
  (hnew : gr.accepted = false) (hgood : (s.ctx s.ev.who).bufErr = false)

include hgroups hnew hgood

theorem releaseAccept_forwards (htwin : (s.ctx s.ev.who).twin = none) : exec .releaseAccept s =
    .next (afterForward ((forwardGroup s s.ev.who gr).modCtx s.ev.who (fun c => { c with groups := r })) s.ev.who) := by
  have hopen : (gr :: r).all (·.accepted) = false := by rw [List.all_cons, hnew, Bool.false_and]
  rw [exec_releaseAccept, execReleaseAccept]
  refine eventStep_of_some ?_
  simp only [tryReleaseAccept, hgroups, hopen, hgood, htwin, Bool.false_and, Option.isSome_none, Bool.false_eq_true, if_false]

theorem releaseAccept_accepts {w : Nat} (htwin : (s.ctx s.ev.who).twin = some w) : exec .releaseAccept s =
    .next (parkEnded (s.modCtx s.ev.who (fun c => { c with groups := { gr with accepted := true } :: r })) s.ev.who) := by
  have hopen : (s.ctx s.ev.who).groups.all (·.accepted) = false := by rw [hgroups, List.all_cons, hnew, Bool.false_and]
  have hfirst : s.modCtx s.ev.who (fun c => { c with groups := acceptFirst c.groups }) =
      s.modCtx s.ev.who (fun c => { c with groups := { gr with accepted := true } :: r }) := by
    rw [State.modCtx, State.modCtx, hgroups, acceptFirst, hnew]
    rfl
  rw [exec_releaseAccept, execReleaseAccept]
  refine eventStep_of_some ?_
  simp only [tryReleaseAccept, hopen, hgood, htwin, Bool.false_and, Option.isSome_some, Bool.false_eq_true, if_false, if_true]
  rw [hfirst]

end

/-- An ended copy of a span leaves its record with the interface, and its context is FREE (R28). -/
theorem parkCtx_leaves {s : State} {g w : Nat} (hg : g < 16384) (htwin : (s.ctx g).twin = some w) (hw : w ≠ g) :
    ((parkCtx s g).ctx g).st = .free ∧ (parkCtx s g).mem = s.mem ∧ ((parkCtx s g).ctx w).twin = some (parkedAt s g) ∧
      (parkedAt s g ≠ w → ((parkCtx s g).ctx (parkedAt s g)).groups = (s.ctx g).groups) := by
  have hpark : 16384 ≤ parkedAt s g := by
    simp only [parkedAt, numCtxs]
    omega
  have hpg : parkedAt s g ≠ g := by omega
  have heq : parkCtx s g = (freeCtx (s.setCtx (parkedAt s g) (s.ctx g)) g).modCtx w
      (fun d => { d with twin := some (parkedAt s g) }) := by
    simp only [parkCtx, numCtxs, Nat.not_le.mpr hg, if_false, htwin]
  rw [heq]
  refine ⟨?_, ?_, by rw [State.ctx_modCtx], fun hpw => ?_⟩
  · rw [State.ctx_modCtx_other _ _ (Ne.symm hw)]
    exact (freeCtx_ctx _ g).1
  · rw [State.modCtx_mem, freeCtx_keeps State.mem (fun _ _ => rfl), State.setCtx_mem]
  · rw [State.ctx_modCtx_other _ _ hpw, freeCtx_ctx_other _ _ hpg, State.ctx_setCtx]

/-! ### Spans (R44, R45) -/

section

variable {s : State} {o w : Nat} (hspan : spanOf s s.ev.who = some (o, w))

include hspan

section

variable {a b : Group} {ra rb : List Group} (ho : (s.ctx o).groups = a :: ra) (hw : (s.ctx w).groups = b :: rb)
  (ha : a.accepted = true) (hb : b.accepted = true)

include ho hw ha hb

theorem spanHashCompare_equal (heq : a.num = b.num ∧ groupHash a = groupHash b) : exec .spanHashCompare s =
    .next (afterForward (((forwardGroup s o a).modCtx o dropGroup).modCtx w dropGroup) o) := by
  rw [exec_spanHashCompare, execSpanHashCompare]
  refine eventStep_of_some ?_
  simp only [trySpanHashCompare, hspan, bothGroups, ho, hw, ha, hb, Bool.and_self, if_true]
  exact if_pos heq

theorem spanHashCompare_differs (hne : ¬(a.num = b.num ∧ groupHash a = groupHash b)) :
    exec .spanHashCompare s = .next (spanMismatch s o) := by
  rw [exec_spanHashCompare, execSpanHashCompare]
  refine eventStep_of_some ?_
  simp only [trySpanHashCompare, hspan, bothGroups, ho, hw, ha, hb, Bool.and_self, if_true]
  exact if_neg hne

end

/-- A span times out where one copy's accepted group, or its end, has no counterpart. -/
theorem spanTwinTimeout_mismatches
    (hwaits : ((s.ctx o).groups.any (·.accepted) = true ∧ (s.ctx w).groups = []) ∨
      ((s.ctx w).groups.any (·.accepted) = true ∧ (s.ctx o).groups = []) ∨
      ((s.ctx o).ending.isSome = true ∧ (s.ctx w).ending = none)) :
    exec .spanTwinTimeout s = .next (spanMismatch s o) := by
  rw [exec_spanTwinTimeout, execSpanTwinTimeout]
  refine eventStep_of_some ?_
  simp only [trySpanTwinTimeout, hspan]
  refine if_pos ?_
  rcases hwaits with ⟨hany, hnil⟩ | ⟨hany, hnil⟩ | ⟨hended, hnone⟩
  · simp only [hany, hnil, List.isEmpty_nil, Bool.and_self, Bool.true_or]
  · simp only [hany, hnil, List.isEmpty_nil, Bool.and_self, Bool.true_or, Bool.or_true]
  · simp only [hended, hnone, Option.isNone_none, Bool.and_self, Bool.true_or, Bool.or_true]

end

/-! ### Continuations (R303) -/

/-- The context of two whose activation ended first. -/
def earliest (s : State) (best : Option (Nat × Trigger)) (e : Nat × Trigger) : Option (Nat × Trigger) :=
  match best with
  | some b => if (s.ctx e.1).endedAt < (s.ctx b.1).endedAt then some e else best
  | none => some e

theorem earliest_some (s : State) (acc : Option (Nat × Trigger)) (e : Nat × Trigger) : ∃ x, earliest s acc e = some x ∧
    (x = e ∨ acc = some x) ∧ (s.ctx x.1).endedAt ≤ (s.ctx e.1).endedAt ∧
      ∀ b, acc = some b → (s.ctx x.1).endedAt ≤ (s.ctx b.1).endedAt := by
  cases acc with
  | none => exact ⟨e, rfl, .inl rfl, Nat.le_refl _, fun b hb => by cases hb⟩
  | some b =>
    by_cases hlt : (s.ctx e.1).endedAt < (s.ctx b.1).endedAt
    · exact ⟨e, if_pos hlt, .inl rfl, Nat.le_refl _, fun b' hb => by cases hb; omega⟩
    · exact ⟨b, if_neg hlt, .inr rfl, by omega, fun b' hb => by cases hb; exact Nat.le_refl _⟩

theorem foldl_earliest {s : State} {l : List (Nat × Trigger)} {acc : Option (Nat × Trigger)} {x : Nat × Trigger}
    (h : l.foldl (earliest s) acc = some x) : (x ∈ l ∨ acc = some x) ∧
      (∀ e ∈ l, (s.ctx x.1).endedAt ≤ (s.ctx e.1).endedAt) ∧
      ∀ b, acc = some b → (s.ctx x.1).endedAt ≤ (s.ctx b.1).endedAt := by
  induction l generalizing acc with
  | nil =>
    have hx : acc = some x := h
    subst hx
    exact ⟨.inr rfl, by simp, fun b hb => by cases hb; exact Nat.le_refl _⟩
  | cons e r ih =>
    obtain ⟨y, hy, hfrom, hle, hacc⟩ := earliest_some s acc e
    obtain ⟨hmem, hall, hfirst⟩ := ih h
    have hxy := hfirst y hy
    refine ⟨?_, List.forall_mem_cons.mpr ⟨hxy.trans hle, hall⟩, fun b hb => hxy.trans (hacc b hb)⟩
    rcases hmem with hmem | hmem
    · exact .inl (List.mem_cons_of_mem _ hmem)
    · have hxe : y = x := Option.some.inj (hy.symm.trans hmem)
      subst hxe
      rcases hfrom with rfl | hfrom
      · exact .inl (List.mem_cons_self ..)
      · exact .inr hfrom

/-- The contexts of a tile whose continuations may enter the queue. -/
def contsOf (s : State) (t : Nat) : List (Nat × Trigger) :=
  ((List.range 16).map (fun i => 16 * t + i)).filterMap (fun g =>
    let c := s.ctx g
    if !c.isTwin && endedAll s g then c.cont.map (fun k => (g, k)) else none)

theorem contReady_eq (s : State) (t : Nat) : contReady s t = (contsOf s t).foldl (earliest s) none := rfl

theorem mem_contsOf {s : State} {t g : Nat} {k : Trigger} : (g, k) ∈ contsOf s t ↔
    (∃ i, i < 16 ∧ 16 * t + i = g) ∧ (s.ctx g).isTwin = false ∧ endedAll s g = true ∧ (s.ctx g).cont = some k := by
  simp only [contsOf, List.mem_filterMap, List.mem_map, List.mem_range, Option.ite_none_right_eq_some, Bool.and_eq_true,
    Bool.not_eq_true', Option.map_eq_some_iff, Prod.mk.injEq]
  constructor
  · rintro ⟨a, ha, ⟨htwin, hended⟩, k', hk, rfl, rfl⟩
    exact ⟨ha, htwin, hended, hk⟩
  · rintro ⟨ha, htwin, hended, hk⟩
    exact ⟨g, ha, ⟨htwin, hended⟩, k, hk, rfl, rfl⟩

/-- The continuation that goes first was posted first. -/
theorem contReady_first {s : State} {t g : Nat} {k : Trigger} (h : contReady s t = some (g, k)) :
    (s.ctx g).cont = some k ∧ endedAll s g = true ∧ ∀ i, i < 16 → (s.ctx (16 * t + i)).isTwin = false →
      endedAll s (16 * t + i) = true → (s.ctx (16 * t + i)).cont ≠ none →
      (s.ctx g).endedAt ≤ (s.ctx (16 * t + i)).endedAt := by
  rw [contReady_eq] at h
  obtain ⟨hmem, hall, -⟩ := foldl_earliest h
  rcases hmem with hmem | hmem
  · obtain ⟨-, -, hended, hcont⟩ := mem_contsOf.mp hmem
    refine ⟨hcont, hended, fun i hi htwin hended' hcont' => ?_⟩
    obtain ⟨k', hk'⟩ := Option.ne_none_iff_exists'.mp hcont'
    have hin : (16 * t + i, k') ∈ contsOf s t := mem_contsOf.mpr ⟨⟨i, hi, rfl⟩, htwin, hended', hk'⟩
    exact hall (16 * t + i, k') hin
  · cases hmem

theorem continuationEnqueue_enters {s : State} {g : Nat} {k : Trigger} (hready : contReady s s.ev.who = some (g, k))
    (hback : (s.tile s.ev.who).redeliver = []) (hroom : (s.tile s.ev.who).conts.length < 64) :
    exec .continuationEnqueue s = .next (finishEnd (s.modTile s.ev.who (fun x => { x with
      conts := x.conts ++ [{ k with time := s.cycle }] })) g) := by
  rw [exec_continuationEnqueue, execContinuationEnqueue]
  refine eventStep_of_some ?_
  simp only [tryContinuationEnqueue, takeBack_none hback, hready, Nat.not_le.mpr hroom, if_false]

/-! ### Joined tasks (R311) -/

theorem taskJoinSubtract_subtracts {s : State} {home off act : Nat} {flt : Bool}
    (hsubs : (s.tile s.ev.who).joinSubs = [(home, off, flt, act)]) (hin : off + 8 ≤ Config.tableArea)
    (hfree : guarded s (keyScratch home off) 8 = false) (hdone : ∀ p ∈ s.pkts, p.2.owner ≠ .act act) :
    let s1 := s.modTile s.ev.who (fun x => { x with joinSubs := [] })
    exec .taskJoinSubtract s = .next (inherit (performStore s1 (keyScratch home off)
      (bytesLE 8 (joinSub (natLE (visRead s1 (keyScratch home off) 8)) flt)) 0)) := by
  intro s1
  have hall : s.pkts.all (fun p => p.2.owner != .act act) = true := by
    rw [List.all_eq_true]
    exact fun p hp => bne_iff_ne.mpr (hdone p hp)
  have hfind : (s.tile s.ev.who).joinSubs.zipIdx.find? (fun (e : (Nat × Nat × Bool × Nat) × Nat) =>
      s.pkts.all (fun p => p.2.owner != .act e.1.2.2.2)) = some ((home, off, flt, act), 0) := by
    rw [hsubs, List.zipIdx_cons, List.find?_cons_of_pos]
    exact hall
  have hdrop : s.modTile s.ev.who (fun x => { x with joinSubs := dropAt x.joinSubs 0 }) = s1 :=
    modTile_congr (by rw [hsubs]; rfl)
  have hwritable : (!inScratch off 8 || guarded s (keyScratch home off) 8) = false := by simp [inScratch, hin, hfree]
  rw [exec_taskJoinSubtract, execTaskJoinSubtract]
  refine eventStep_of_some ?_
  simp only [tryTaskJoinSubtract, hfind, hwritable, Bool.false_eq_true, if_false, hdrop, homeWrite]

theorem joinSub_eq (w : Nat) (flt : Bool) : joinSub w flt =
    (w % 2 ^ 32 - 1) + (if w.testBit 32 = true ∨ flt = true ∨ w % 2 ^ 32 = 0 then 2 ^ 32 else 0) := by
  have hlow : nfld w 0 32 = w % 2 ^ 32 := by rw [nfld, Nat.shiftRight_zero]
  rw [joinSub, hlow]
  by_cases hfault : w.testBit 32 = true ∨ flt = true ∨ w % 2 ^ 32 = 0
  · have hbit : (w.testBit 32 || flt || w % 2 ^ 32 == 0) = true := by simpa [or_assoc] using hfault
    simp only [hbit, if_pos hfault]
    rfl
  · have hbit : (w.testBit 32 || flt || w % 2 ^ 32 == 0) = false := by
      rw [← Bool.not_eq_true]
      simpa [or_assoc] using hfault
    simp only [hbit, if_neg hfault]
    rfl

/-- Settles O23: groups as they leave, and what their activations leave after them. -/
theorem groupsAndEnds : Obligations.GroupsAndEnds := by
  refine ⟨?forwards, ?accepts, ?sends, fun s g hended => ⟨?continues, ?ends⟩,
    fun s o w a b ra rb hspan ho hw ha hb => ⟨fun hnum hhash => ?equal, fun hne => ?differs⟩,
    fun s o w hspan => ⟨fun hany hnil => ?left, fun hany hnil => ?right, fun hended hnone => ?fell⟩, ?enqueues,
    fun s t g k h => contReady_first h, ?joins⟩
  case forwards =>
    intro s gr r g hgroups htwin hnew hgood
    exact releaseAccept_forwards hgroups hnew hgood htwin
  case accepts =>
    intro s gr r w g hgroups htwin hnew hgood s1
    have haccepts : exec .releaseAccept s = .next (parkEnded s1 g) := releaseAccept_accepts hgroups hnew hgood htwin
    have hctx : s1.ctx g = { s.ctx g with groups := { gr with accepted := true } :: r } := State.ctx_modCtx ..
    refine ⟨fun hrun => ?_, fun hend hcont hall hg hw => ?_⟩
    · have hstays : parkEnded s1 g = s1 := by
        refine if_neg fun h => hrun ?_
        rw [← h.1, hctx]
      rw [haccepts, hstays]
    · have hparks : parkEnded s1 g = parkCtx s1 g := by
        refine if_pos ?_
        rw [hctx]
        exact ⟨hend, by rw [List.all_cons, hall]; rfl, .inr hcont⟩
      obtain ⟨hfree, hmem, htw, hgroups'⟩ := parkCtx_leaves (s := s1) hg (by rw [hctx]; exact htwin) hw
      have hpark : 16384 ≤ parkedAt s1 g := by
        simp only [parkedAt, numCtxs]
        omega
      rw [haccepts, hparks]
      exact ⟨_, rfl, hfree, hmem, _, htw, hpark, hgroups'⟩
  case sends =>
    intro s g gr id e d w hone hpart hid u
    subst hid
    refine ⟨forwardGroup_fwd hone hpart, forwardGroup_mem hone hpart, ?_, fun hplain => ?_, fun off tr tgt hjoin => ?_⟩
    · obtain ⟨p, hp, hsrc, hdst, hwork, howner, hplace, hseq⟩ :=
        sendTagged_pkt s (tileOf g) d (.act (s.ctx g).act) (s.ctx g).lslot e.tag w
      refine ⟨{ p with effect := s.nextPkt }, ?_, hsrc, hdst, hwork, howner, hplace, hseq⟩
      rw [forwardGroup_pkt hone hpart, hp, Option.map_some, if_pos (Nat.le_refl _)]
    · rw [forwardGroup_nextPkt hone hpart, sendTagged_plain _ _ _ _ _ _ _ hplain]
      rfl
    · subst hjoin
      refine ⟨by rw [forwardGroup_nextPkt hone hpart]; rfl, ?_⟩
      obtain ⟨p, hp, hsrc, hdst, hwork, -, -, -, hafter⟩ := sendOne_pkt (sendOne s (tileOf g) d (.act (s.ctx g).act)
        (s.ctx g).lslot e.tag none (.joinAdd off tr tgt)) (tileOf g) tgt (.act (s.ctx g).act) (s.ctx g).lslot e.tag
        (.task tr) (some s.nextPkt)
      refine ⟨{ p with effect := s.nextPkt }, ?_, hsrc, hdst, hwork, hafter⟩
      rw [forwardGroup_pkt hone hpart, sendTagged_join]
      exact (congrArg (Option.map _) hp).trans (by rw [Option.map_some, if_pos (Nat.le_succ _)])
  case continues => exact afterForward_continues s g
  case ends =>
    intro hcont
    rw [afterForward_ends s g hended hcont]
    exact finishEnd_free s g
  case equal => exact spanHashCompare_equal hspan ho hw ha hb ⟨hnum, hhash⟩
  case differs => exact spanHashCompare_differs hspan ho hw ha hb hne
  case left => exact spanTwinTimeout_mismatches hspan (.inl ⟨hany, hnil⟩)
  case right => exact spanTwinTimeout_mismatches hspan (.inr (.inl ⟨hany, hnil⟩))
  case fell => exact spanTwinTimeout_mismatches hspan (.inr (.inr ⟨hended, hnone⟩))
  case enqueues =>
    intro s g k t hready hback hroom
    refine ⟨_, continuationEnqueue_enters hready hback hroom, ?_, (finishEnd_free _ g).1⟩
    rw [finishEnd_conts, State.tile_modTile]
  case joins =>
    intro s home off act flt t hsubs hin hfree hdone s1 w n
    rw [taskJoinSubtract_subtracts hsubs hin hfree hdone, joinSub_eq]

end Sys2Proof.Proofs
end

section

/-! The save image of a context (R142, R412). -/

namespace Sys2Proof.Proofs

open Sys2Proof.Machine Sys2Proof.Laws Sys2Proof.Stated

/-! ### Where a context's save area lies -/

/-- A place that is not in a scratchpad, or whose first 128 bytes lie in one tile's. -/
def Apart (k : Nat) : Prop := isScratch k = true → k % 2 ^ 21 + 128 ≤ 2 ^ 21

theorem apart_of_far {k : Nat} (h : 2 ^ 31 ≤ k) : Apart k := by
  intro hk
  rw [isScratch, decide_eq_true_eq] at hk
  omega

theorem apart_keyTwin (g x : Nat) : Apart (keyTwin g x) := apart_of_far (by rw [keyTwin]; omega)

theorem apart_keyVault (t p x : Nat) : Apart (keyVault t p x) := apart_of_far (by rw [keyVault]; omega)

theorem apart_keyScratch {t off : Nat} (h : off + 128 ≤ 2 ^ 21) : Apart (keyScratch t off) := by
  intro _
  rw [keyScratch]
  omega

theorem apart_stackLoc {s : State} {asid va : Nat} {l : Loc} (h : stackLoc s asid va = some l) : Apart l.key := by
  simp only [stackLoc] at h
  split at h
  · cases h
  · split at h
    · cases h
    · split at h
      · split at h <;> cases h
        · exact apart_keyVault _ _ _
        · exact apart_keyTwin _ _
      · cases h

theorem apart_leafLoc (e : Word) (big : Bool) (va : Nat) : Apart (leafLoc e big va).key := by
  simp only [leafLoc]
  split
  · exact apart_keyVault _ _ _
  · exact apart_of_far (by simp only [keyHost]; omega)
  · exact apart_of_far (by simp only [keyPeer]; omega)

theorem apart_translate {s : State} {t asid va : Nat} {w f : Bool} {l : Loc}
    (h : Machine.translate s t asid va w f = .ok l) : Apart l.key := by
  unfold Machine.translate at h
  split at h
  · cases h
  · split at h
    next l' hstack =>
      split at h <;> cases h
      exact apart_stackLoc hstack
    · dsimp only at h
      split at h
      · cases h
      · cases h
      · cases h
      · split at h <;> cases h
        exact apart_leafLoc _ _ _

theorem apart_localKey {c : Ctx} {r : Reach} {t ea n : Nat} (hea : ea + 128 ≤ 2 ^ 21) : Apart (localKey c r t ea n) := by
  have hscratch := apart_keyScratch (t := t) hea
  unfold localKey
  split
  · split
    · unfold twinKey
      split
      · exact apart_keyTwin _ _
      · split
        · exact apart_keyTwin _ _
        · exact hscratch
    · unfold twinFrame
      split
      · exact apart_keyTwin _ _
      · exact hscratch
  · exact hscratch

/-- The 16 KiB at CTX_SAVEPTR start inside one tile's scratchpad, or outside all of them. -/
theorem apart_locate {s : State} {g ea : Nat} {l : Loc} (h : locate s g .plain ea 16384 16384 true = .ok l) :
    Apart l.key := by
  unfold locate at h
  extract_lets c t page aligned top at h
  have htop : top = Config.tableArea := rfl
  simp only [Config.tableArea] at htop
  obtain ⟨-, h⟩ := ok_of_ite_error h
  obtain ⟨-, h⟩ | ⟨-, h⟩ := ite_eq_iff.mp h
  · -- the tile's own window
    obtain ⟨-, h⟩ := ok_of_ite_error h
    obtain ⟨-, h⟩ := ok_of_ite_error h
    obtain ⟨hfits, h⟩ := ok_of_ite_error h
    obtain rfl := Except.ok.inj h
    exact apart_localKey (by omega)
  obtain ⟨-, h⟩ := ok_of_ite_error h
  obtain ⟨-, h⟩ | ⟨-, h⟩ := ite_eq_iff.mp h
  · -- the cluster window
    obtain ⟨-, h⟩ := ok_of_ite_error h
    obtain ⟨halign, h⟩ := ok_of_ite_error h
    obtain ⟨hfits, h⟩ := ok_of_ite_error h
    obtain rfl := Except.ok.inj h
    have hmul : ea % 16384 = 0 := by simpa [aligned] using halign
    refine apart_keyScratch ?_
    simp only [Bool.or_eq_true, decide_eq_true_eq, not_or] at hfits
    omega
  obtain ⟨-, h⟩ := ok_of_ite_error h
  obtain ⟨-, h⟩ := ok_of_ite_error h
  obtain ⟨-, h⟩ := ok_of_ite_error h
  obtain ⟨-, h⟩ := ok_of_ite_error h
  obtain ⟨-, h⟩ | ⟨-, h⟩ := ite_eq_iff.mp h
  · -- a twin's own stack
    obtain ⟨-, h⟩ | ⟨-, h⟩ := ite_eq_iff.mp h
    · obtain rfl := Except.ok.inj h
      exact apart_keyTwin _ _
    · exact absurd h (by simp [page])
  · -- translated addresses
    split at h
    · exact absurd h (by simp [page])
    · exact absurd h (by simp)
    · exact absurd h (by simp)
    next l' hx =>
      obtain ⟨-, h⟩ := ok_of_ite_error h
      obtain ⟨-, h⟩ := ok_of_ite_error h
      obtain rfl := Except.ok.inj h
      exact apart_translate hx

/-! ### The bytes of the image (R142) -/

theorem storeGet_storePuts_other {m l : List (Nat × Byte)} {x : Nat} (h : ∀ e ∈ l, x ≠ e.1) :
    storeGet 0 (storePuts 0 m l) x = storeGet 0 m x := by
  induction l generalizing m with
  | nil => rfl
  | cons e r ih =>
    rw [storePuts, ih fun e' he' => h e' (List.mem_cons_of_mem _ he'),
      storeGet_storeSet_other 0 e.2 (h e (List.mem_cons_self ..))]

theorem drop_skip {m v o : Nat} {l : List Byte} (h : m ≤ o) : (bytesLE m v ++ l).drop o = l.drop (o - m) := by
  rw [List.drop_append, List.drop_of_length_le (by rw [length_bytesLE]; exact h), List.nil_append, length_bytesLE]

theorem take_first {n v : Nat} {l : List Byte} : (bytesLE n v ++ l).take n = bytesLE n v :=
  List.take_left' (length_bytesLE ..)

/-- The named registers lie one after another. -/
theorem words_at {l : List Word} {r : List Byte} {i : Nat} (hi : i < l.length) :
    ((l.flatMap (fun v => bytesLE 8 v.toNat) ++ r).drop (8 * i)).take 8 = bytesLE 8 (l.getD i 0).toNat := by
  induction l generalizing i with
  | nil => simp at hi
  | cons v l ih =>
    rw [List.flatMap_cons, List.append_assoc]
    cases i with
    | zero => exact take_first
    | succ i =>
      rw [drop_skip (by omega), show 8 * (i + 1) - 8 = 8 * i by omega, List.getD_cons_succ]
      exact ih (by simpa using hi)

/-- The part of an image after the first 64 bytes and the named registers. -/
theorem imageBytes_split (s : State) (g : Nat) : ∃ r, imageBytes s g = bytesLE 8 (s.ctx g).pc ++
    (bytesLE 8 (s.ctx g).status.toNat ++ (bytesLE 8 (s.ctx g).fpctl.toNat ++ (bytesLE 8 (s.ctx g).pri.toNat ++
    (bytesLE 8 (s.ctx g).cap.toNat ++ (bytesLE 8 (s.ctx g).trapvec.toNat ++
    (bytesLE 8 (heldBytes (s.ctx g).held % 2 ^ 13 + (s.ctx g).group % 2 ^ 16 * 2 ^ 16) ++ (bytesLE 8 (awaitedStep s g) ++
    ((s.ctx g).n.toList.flatMap (fun v => bytesLE 8 v.toNat) ++ r)))))))) := by
  simp only [imageBytes, List.append_assoc]
  exact ⟨_, rfl⟩

theorem imageBytes_fields (s : State) (g : Nat) : 320 ≤ (imageBytes s g).length ∧
    ((imageBytes s g).drop 0).take 8 = bytesLE 8 (s.ctx g).pc ∧
    ((imageBytes s g).drop 8).take 8 = bytesLE 8 (s.ctx g).status.toNat ∧
    ∀ i, i < 32 → ((imageBytes s g).drop (64 + 8 * i)).take 8 = bytesLE 8 ((s.ctx g).n.toList.getD i 0).toNat := by
  obtain ⟨r, hr⟩ := imageBytes_split s g
  have hregs : ((s.ctx g).n.toList.flatMap (fun v => bytesLE 8 v.toNat)).length = 256 := by
    simp [List.length_flatMap, length_bytesLE]
  rw [hr]
  refine ⟨?_, take_first, ?_, fun i hi => ?_⟩
  · simp only [List.length_append, length_bytesLE, hregs]
    omega
  · rw [drop_skip (Nat.le_refl _)]
    exact take_first
  · simp (disch := omega) only [drop_skip]
    rw [show 64 + 8 * i - 8 - 8 - 8 - 8 - 8 - 8 - 8 - 8 = 8 * i by omega]
    exact words_at (by simpa using hi)

/-- Where no granule is guarded, nothing is kept (R256). -/
theorem keepGuarded_free {s t : State} {old : List (Nat × Byte)} {k : Nat} (hfree : guarded s k 16384 = false)
    (hapart : Apart k) (hbits : ∀ u, (t.tile u).guardBits = (s.tile u).guardBits) :
    keepGuarded t old (k + 64) (16384 - 64) = t := by
  unfold keepGuarded
  split
  · rfl
  next hscratch =>
    have hin : isScratch (k + 64) = true := by simpa using hscratch
    have hscratch : k + 64 < 2 ^ 31 := of_decide_eq_true hin
    have hk : isScratch k = true := by
      rw [isScratch, decide_eq_true_eq]
      omega
    have hroom := hapart hk
    have hhome : homeTile (k + 64) = homeTile k := by
      rw [homeTile, homeTile, if_pos hscratch, if_pos (by omega)]
      omega
    have hoff : ∀ e ∈ (s.tile (homeTile k)).guardBits, ¬(128 * e.1 < keyOff k + 16384 ∧ keyOff k < 128 * e.1 + 128) := by
      rw [guarded, hk, Bool.true_and, List.any_eq_false] at hfree
      intro e he
      simpa [overlaps] using hfree e he
    rw [hhome, hbits]
    generalize (s.tile (homeTile k)).guardBits = bits at hoff
    induction bits with
    | nil => rfl
    | cons e r ih =>
      have he := hoff e (List.mem_cons_self ..)
      rw [List.foldl_cons]
      have hskip : ¬ max (k + 64) (k + 64 - keyOff (k + 64) + 128 * e.1) <
          min (k + 64 + (16384 - 64)) (k + 64 - keyOff (k + 64) + 128 * e.1 + 128) := by
        rw [keyOff] at he ⊢
        omega
      simp only [hskip, if_false]
      exact ih fun e' he' => hoff e' (List.mem_cons_of_mem _ he')

/-- Draining touches the path of its home alone. -/
theorem tileField_drainN {β : Type} (π : Tile → β) (hmerge : ∀ x p, π { x with merge := p } = π x) (n : Nat) (s : State)
    (t u : Nat) : π ((drainN s t n).tile u) = π (s.tile u) := by
  induction n generalizing s with
  | zero => rfl
  | succ n ih =>
    cases hm : (s.tile t).merge with
    | nil => simp [drainN, drainOne, hm]
    | cons e r =>
      simp only [drainN, drainOne_cons hm]
      rw [ih]
      by_cases hu : u = t
      · subst hu
        rw [State.tile_modTile, hmerge]
        rfl
      · rw [State.tile_modTile_other _ _ hu]
        rfl

theorem tileField_blockWrite {β : Type} (π : Tile → β) (hmerge : ∀ x p, π { x with merge := p } = π x)
    (hperf : ∀ x p, π { x with perf := p } = π x) (hremap : ∀ x p, π { x with remap := p } = π x)
    (hpoison : ∀ x p, π { x with poison := p } = π x) (s : State) (k n : Nat) (bs : List Byte) (u : Nat) :
    π ((blockWrite s k n bs).tile u) = π (s.tile u) :=
  (tileField_touched π hperf hremap hpoison _ k n u).trans (tileField_drainN π hmerge ..)

/-- The vector registers and the effects buffer lie behind the rest of an image. -/
theorem memGet_imageTail (m : Mem) (v : List (Nat × Byte)) (bs : List Byte) {k i : Nat} (hi : i < 0x400) :
    memGet (memWrite (storePuts 0 m (v.map (fun e => (k + 0x440 + e.1, e.2)))) (k + 0x2440) bs) (k + 64 + i) =
      memGet m (k + 64 + i) := by
  rw [memGet_memWrite_other bs (.inl (by omega))]
  refine storeGet_storePuts_other fun e he => ?_
  obtain ⟨a, -, rfl⟩ := List.mem_map.mp he
  dsimp only
  omega

/-- The state in which a context's save area is written: its home has drained (R285). -/
def imageReady (s : State) (g k : Nat) : State :=
  let s0 := engineWalk s (tileOf g) (s.ctx g).asid (s.ctx g).saveptr.toNat
  drainN s0 (homeTile k) (s0.tile (homeTile k)).merge.length

/-- The state with the whole image written, before the guarded granules take their bytes back. -/
def imageWritten (s : State) (g k : Nat) : State :=
  let t := blockWrite (imageReady s g k) (k + 64) (16384 - 64) (imageBytes s g)
  let m := storePuts 0 t.mem ((s.ctx g).v.map (fun e => (k + 0x440 + e.1, e.2)))
  { t with mem := memWrite m (k + 0x2440) (bufferImage (s.ctx g).held) }

theorem guardBits_blockWrite (s : State) (k n : Nat) (bs : List Byte) (u : Nat) :
    ((blockWrite s k n bs).tile u).guardBits = (s.tile u).guardBits :=
  tileField_blockWrite Tile.guardBits (fun _ _ => rfl) (fun _ _ => rfl) (fun _ _ => rfl) (fun _ _ => rfl) s k n bs u

theorem tile_withMem (s : State) (m : Mem) (u : Nat) : ({ s with mem := m } : State).tile u = s.tile u := rfl

theorem imageWritten_tile (s : State) (g k u : Nat) : (imageWritten s g k).tile u =
    (blockWrite (imageReady s g k) (k + 64) (16384 - 64) (imageBytes s g)).tile u := by
  unfold imageWritten
  exact tile_withMem ..

theorem guardBits_imageWritten (s : State) (g k u : Nat) : ((imageWritten s g k).tile u).guardBits =
    ((engineWalk s (tileOf g) (s.ctx g).asid (s.ctx g).saveptr.toNat).tile u).guardBits := by
  rw [imageWritten_tile, guardBits_blockWrite]
  exact tileField_drainN Tile.guardBits (fun _ _ => rfl) ..

/-- The bytes that a write of a block leaves. -/
theorem memRead_blockWrite {s : State} {k j m : Nat} {bs : List Byte} (n : Nat) (hm : s.MemOk)
    (hfit : j + m ≤ bs.length) : memRead (blockWrite s k n bs).mem (k + j) m = (bs.drop j).take m := by
  refine memRead_memWrite k j m bs (memWf_memClear _ _ ?_) hfit
  rw [touchPage_keeps State.mem (fun _ _ _ => rfl), clearPoison_keeps State.mem (fun _ _ _ => rfl)]
  exact memOk_drainN _ _ _ hm

theorem memOk_imageReady {s : State} {g k : Nat} (hm : s.MemOk) : (imageReady s g k).MemOk :=
  memOk_drainN _ _ _ ((congrArg memWf (sameStores_engineWalk s (tileOf g) _ _).mem).trans hm)

section

variable {s : State} {g : Nat} {l : Loc}
  (hloc : locate (engineWalk s (tileOf g) (s.ctx g).asid (s.ctx g).saveptr.toNat) g .plain (s.ctx g).saveptr.toNat 16384
    16384 true = .ok l)
  (hfree : guarded (engineWalk s (tileOf g) (s.ctx g).asid (s.ctx g).saveptr.toNat) l.key 16384 = false)

include hloc

theorem writeImage_eq : writeImage s g =
    keepGuarded (imageWritten s g l.key) (imageReady s g l.key).mem (l.key + 64) (16384 - 64) := by
  unfold writeImage
  extract_lets c s0
  rw [show locate s0 g .plain c.saveptr.toNat 16384 16384 true = .ok l from hloc]
  rfl

include hfree

/-- Where no granule is guarded, the whole image is written. -/
theorem writeImage_mem : (writeImage s g).mem =
    memWrite (storePuts 0 (blockWrite (imageReady s g l.key) (l.key + 64) (16384 - 64) (imageBytes s g)).mem
      ((s.ctx g).v.map (fun e => (l.key + 0x440 + e.1, e.2)))) (l.key + 0x2440) (bufferImage (s.ctx g).held) := by
  have hbits (u : Nat) : ((imageWritten s g l.key).tile u).guardBits =
      ((engineWalk s (tileOf g) (s.ctx g).asid (s.ctx g).saveptr.toNat).tile u).guardBits :=
    guardBits_imageWritten ..
  rw [writeImage_eq hloc, keepGuarded_free hfree (apart_locate hloc) hbits]
  rfl

/-- The bytes of an image in memory. -/
theorem memRead_writeImage {j : Nat} (hm : s.MemOk) (hj : j + 8 ≤ 320) :
    memRead (writeImage s g).mem (l.key + 64 + j) 8 = ((imageBytes s g).drop j).take 8 := by
  have hlen := (imageBytes_fields s g).1
  have hread : memRead (writeImage s g).mem (l.key + 64 + j) 8 =
      memRead (blockWrite (imageReady s g l.key) (l.key + 64) (16384 - 64) (imageBytes s g)).mem (l.key + 64 + j) 8 := by
    rw [writeImage_mem hloc hfree]
    generalize (blockWrite (imageReady s g l.key) (l.key + 64) (16384 - 64) (imageBytes s g)).mem = m
    rw [memRead_eq_map, memRead_eq_map]
    refine List.map_congr_left fun i hi => ?_
    rw [List.mem_range] at hi
    rw [Nat.add_assoc (l.key + 64), memGet_imageTail _ _ _ (by omega)]
  rw [hread]
  exact memRead_blockWrite _ (memOk_imageReady hm) (by omega)

end

end Sys2Proof.Proofs
end

section

/-! Waits, pre-emption, saves, restores, kills and time limits of contexts (R57, R141, R179, R404, R412). -/

namespace Sys2Proof.Proofs

open Sys2Proof.Machine Sys2Proof.Laws Sys2Proof.Stated

/-! ### The words of an image (R142) -/

theorem image_words {s : State} {g : Nat} {l : Loc} {i : Nat}
    (hloc : locate (engineWalk s (tileOf g) (s.ctx g).asid (s.ctx g).saveptr.toNat) g .plain (s.ctx g).saveptr.toNat 16384
      16384 true = .ok l)
    (hfree : guarded (engineWalk s (tileOf g) (s.ctx g).asid (s.ctx g).saveptr.toNat) l.key 16384 = false)
    (hi : i < 32) (hm : s.MemOk) :
    memRead (writeImage s g).mem (l.key + 0x80 + 8 * i) 8 = bytesLE 8 ((s.ctx g).n.toList.getD i 0).toNat ∧
      memRead (writeImage s g).mem (l.key + 0x40) 8 = bytesLE 8 (s.ctx g).pc ∧
      memRead (writeImage s g).mem (l.key + 0x48) 8 = bytesLE 8 (s.ctx g).status.toNat := by
  obtain ⟨-, hpc, hstatus, hregs⟩ := imageBytes_fields s g
  refine ⟨?_, ?_, ?_⟩
  · rw [show l.key + 0x80 + 8 * i = l.key + 64 + (64 + 8 * i) by omega, memRead_writeImage hloc hfree hm (by omega)]
    exact hregs i hi
  · exact (memRead_writeImage hloc hfree hm (j := 0) (by omega)).trans hpc
  · exact (memRead_writeImage hloc hfree hm (j := 8) (by omega)).trans hstatus

/-! ### What a restored context reads from its image (R8, R142) -/

theorem and_not_mask (n m : Nat) : BitVec.ofNat 64 (n &&& m) &&& ~~~BitVec.ofNat 64 m = 0 := by
  refine BitVec.eq_of_getLsbD_eq fun i hi => ?_
  rw [BitVec.getLsbD_and, BitVec.getLsbD_not, BitVec.getLsbD_ofNat, BitVec.getLsbD_ofNat, Nat.testBit_and]
  cases hb : m.testBit i
  · simp
  · simp [hi]

theorem mod_not_mask (n k : Nat) : BitVec.ofNat 64 (n % 2 ^ k) &&& ~~~BitVec.ofNat 64 (2 ^ k - 1) = 0 := by
  rw [← Nat.and_two_pow_sub_one_eq_mod]
  exact and_not_mask ..

theorem natAt_not_mask (b : List Byte) (o n : Nat) :
    BitVec.ofNat 64 (natAt b o n) &&& ~~~BitVec.ofNat 64 (2 ^ (8 * n) - 1) = 0 := by
  have hlt : natAt b o n < 2 ^ (8 * n) := (natAt_lt b o n).trans_eq (Nat.pow_mul 2 8 n).symm
  rw [← Nat.mod_eq_of_lt hlt]
  exact mod_not_mask ..

theorem fromImage_masks (c : Ctx) (b : List Byte) (v : List (Nat × Byte)) (k : List (BitVec 32)) (l : List LoopLevel)
    (e : List Effect) :
    (fromImage c b v k l e).status &&& ~~~0xF0F8F0#64 = 0 ∧ (fromImage c b v k l e).fpctl &&& ~~~0x11F#64 = 0 ∧
      (fromImage c b v k l e).pri &&& ~~~0xF#64 = 0 ∧ (fromImage c b v k l e).cap &&& ~~~0xFFFF#64 = 0 ∧
      (fromImage c b v k l e).trapvec &&& ~~~0xFFFFFFFFFFFF#64 = 0 ∧ (fromImage c b v k l e).p.getLsbD 0 = true := by
  refine ⟨and_not_mask .., and_not_mask .., mod_not_mask _ 4, natAt_not_mask b 32 2, natAt_not_mask b 40 6, ?_⟩
  show (BitVec.ofNat 8 (natAt b 448 1 / 2 * 2 + 1)).getLsbD 0 = true
  simp only [BitVec.getLsbD_ofNat, Nat.testBit_zero]
  simp

/-! ### Restores (R412) -/

theorem fld_place (v : Word) (d : Nat) : fld (putFld (putFld v 6 2 (d % 16 / 4)) 4 2 (d % 4)) 4 4 = d % 16 := by
  refine Nat.eq_of_testBit_eq fun i => ?_
  have h16 : d % 16 = d % 2 ^ 4 := rfl
  rw [fld, Nat.testBit_mod_two_pow, Nat.testBit_shiftRight, h16, Nat.testBit_mod_two_pow]
  by_cases hi : i < 4
  · simp only [hi, decide_true, Bool.true_and]
    change (putFld (putFld v 6 2 _) 4 2 _).getLsbD (4 + i) = _
    rw [getLsbD_putFld _ _ _ _ (by omega), getLsbD_putFld _ _ _ _ (by omega)]
    by_cases hlow : i < 2
    · rw [if_pos (by omega), show 4 + i - 4 = i by omega, show d % 4 = d % 2 ^ 2 from rfl, Nat.testBit_mod_two_pow]
      simp [hlow]
    · rw [if_neg (by omega), if_pos (by omega), show d % 2 ^ 4 / 4 = d % 2 ^ 4 / 2 ^ 2 from rfl, Nat.testBit_div_two_pow,
        Nat.testBit_mod_two_pow, show 4 + i - 6 + 2 = i by omega]
      simp [hi]
  · simp [hi]

theorem touchImage_ctx (s : State) (g x : Nat) : (touchImage s g).ctx x = s.ctx x := by
  have hwalk := (sameStores_engineWalk s (tileOf g) (s.ctx g).asid (s.ctx g).saveptr.toNat).ctx_eq x
  unfold touchImage
  dsimp only
  split
  · exact hwalk
  · exact (touchPage_keeps (State.ctx · x) (fun _ _ _ => rfl) ..).trans hwalk

theorem fromImage_waiting (c : Ctx) (b : List Byte) (v : List (Nat × Byte)) (k : List (BitVec 32)) (l : List LoopLevel)
    (e : List Effect) (body : List (Nat × List Byte)) :
    ({ fromImage c b v k l e with body := body } : Ctx).waiting = c.waiting := rfl

theorem readImage_waiting (s : State) (g : Nat) (c : Ctx) : (readImage s g c).waiting = c.waiting := by
  unfold readImage
  dsimp only
  split
  · rfl
  · exact fromImage_waiting ..

theorem placeCtx_ctx (s : State) (g d : Nat) (twin : Option Nat) :
    ((placeCtx s g d twin).ctx d).st = restoredState (s.ctx g).waiting ∧
      fld ((placeCtx s g d twin).ctx d).status 4 4 = d % 16 := by
  have hwait : (readImage (touchImage s g) g ((touchImage s g).ctx g)).waiting = (s.ctx g).waiting := by
    rw [readImage_waiting, touchImage_ctx]
  rw [← hwait]
  unfold placeCtx
  dsimp only
  generalize readImage (touchImage s g) g ((touchImage s g).ctx g) = c
  split
  all_goals
    rw [State.ctx_setCtx]
    exact ⟨rfl, fld_place c.status d⟩

theorem tileOf_slot (g i : Nat) : tileOf (16 * tileOf g + i % 16) = tileOf g := by
  simp only [tileOf]
  omega

/-! ### Pre-emption (R57) -/

/-- A context that runs or waits is to be saved. -/
def ordered (c : Ctx) : Ctx := if c.st = .run ∨ c.st = .wait then { c with saveDue := true, tested := false } else c

theorem ordered_saveDue {c : Ctx} (h : c.st = .run ∨ c.st = .wait) : (ordered c).saveDue = true := by
  rw [ordered, if_pos h]

theorem ordered_keeps {c : Ctx} (h : c.saveDue = true) : (ordered c).saveDue = true := by
  unfold ordered
  split
  · rfl
  · exact h

theorem ordered_st (c : Ctx) : (ordered c).st = c.st := by
  unfold ordered
  split <;> rfl

theorem orderSave_alone {s : State} {g : Nat} (h : (s.ctx g).twin = none) : orderSave s g = s.modCtx g ordered := by
  simp only [orderSave, h]
  rfl

theorem orderSave_span {s : State} {g w : Nat} (h : (s.ctx g).twin = some w) :
    orderSave s g = (s.modCtx g ordered).modCtx w ordered := by
  simp only [orderSave, h]
  rfl

/-- Ordering one context saved leaves an order that another has. -/
theorem saveDue_modCtx {s : State} {g : Nat} (w : Nat) (h : (s.ctx g).saveDue = true) :
    ((s.modCtx w ordered).ctx g).saveDue = true := by
  by_cases hw : g = w
  · rw [← hw, State.ctx_modCtx]
    exact ordered_keeps h
  · rw [State.ctx_modCtx_other _ _ hw]
    exact h

theorem saveDue_ordered {s : State} {g : Nat} (h : (s.ctx g).st = .run ∨ (s.ctx g).st = .wait) :
    ((s.modCtx g ordered).ctx g).saveDue = true := by
  rw [State.ctx_modCtx]
  exact ordered_saveDue h

theorem st_modCtx_ordered (s : State) (g w : Nat) : ((s.modCtx g ordered).ctx w).st = (s.ctx w).st := by
  by_cases hw : w = g
  · rw [hw, State.ctx_modCtx]
    exact ordered_st _
  · rw [State.ctx_modCtx_other _ _ hw]

theorem orderSave_leaves {s : State} {g : Nat} (h : (s.ctx g).st = .run ∨ (s.ctx g).st = .wait) :
    ((orderSave s g).ctx g).saveDue = true ∧
      (∀ w, (s.ctx g).twin = some w → ((s.ctx w).st = .run ∨ (s.ctx w).st = .wait) →
        ((orderSave s g).ctx w).saveDue = true) ∧ (orderSave s g).mem = s.mem := by
  cases htwin : (s.ctx g).twin with
  | none =>
    rw [orderSave_alone htwin]
    exact ⟨saveDue_ordered h, nofun, rfl⟩
  | some w =>
    rw [orderSave_span htwin]
    refine ⟨saveDue_modCtx w (saveDue_ordered h), fun w' hw' hst => ?_, rfl⟩
    obtain rfl : w = w' := Option.some.inj hw'
    refine saveDue_ordered ?_
    rw [st_modCtx_ordered]
    exact hst

/-! ### Saves (R412) -/

theorem saveable_of {c : Ctx} (hgroups : c.groups = []) (htrap : c.trapDue = none)
    (h : (c.st = .run ∧ c.stage = none ∧ c.tested = true) ∨ (c.st = .wait ∧
      ((∃ o, c.waiting = .join o) ∨ (∃ o p b, c.waiting = .barrier o p b) ∨ ∃ a, c.waiting = .stackGrow a))) :
    saveable c = true := by
  rcases h with ⟨hst, hstage, htested⟩ | ⟨hst, ⟨o, hw⟩ | ⟨o, p, b, hw⟩ | ⟨a, hw⟩⟩
  · simp [saveable, hgroups, htrap, hst, hstage, htested]
  all_goals simp [saveable, hgroups, htrap, hst, hw]

/-! ### Ends by a kill (R404, R413) -/

section

variable {s : State} {g : Nat}

/-- A context with no twin ends by its report, its pending GUARD logged first (R410, R413). -/
theorem endKilled_single (e : Ending) (htwin : (s.ctx g).twin = none) :
    endKilled s g e = freeCtx (consume (killReport (logGuard s g) g e) g true) g := by
  have hlog : (logGuard s g).ctx g = s.ctx g := by
    unfold logGuard
    dsimp only
    split <;> rfl
  have howner : ownerOf s g = g := by simp only [ownerOf, htwin]
  have hlogs : logGuards s g = logGuard s g := by simp only [logGuards, htwin]
  have hctx : (consume (killReport (logGuard s g) g e) g true).ctx g = s.ctx g :=
    (consume_keeps (State.ctx · g) (fun _ _ _ => rfl) ..).trans
      ((killReport_keeps (State.ctx · g) (fun _ _ => rfl) (fun _ _ => rfl) ..).trans hlog)
  simp only [endKilled, howner, hlogs, freeBoth, hctx, htwin]

variable {α : Type} {π : State → α}

theorem logGuard_keeps (hmgmt : ∀ (s : State) m, π { s with mgmt := m } = π s) (s : State) (g : Nat) :
    π (logGuard s g) = π s := by
  unfold logGuard
  dsimp only
  split
  · exact hmgmt _ _
  · rfl

/-- What such an end does not change. -/
theorem endKilled_keeps (e : Ending) (htwin : (s.ctx g).twin = none)
    (hfree : ∀ s : State, π (freeCtx s g) = π s) (htile : ∀ s t x, π (State.setTile s t x) = π s)
    (hmgmt : ∀ (s : State) m, π { s with mgmt := m } = π s)
    (hlaunch : ∀ (s : State) l, π { s with launches := l } = π s) : π (endKilled s g e) = π s := by
  rw [endKilled_single e htwin, hfree, consume_keeps π htile, killReport_keeps π hmgmt hlaunch, logGuard_keeps hmgmt]

theorem freeCtx_groups (s : State) (g : Nat) : ((freeCtx s g).ctx g).groups = [] := by
  unfold freeCtx
  split
  · simp only [State.ctx, tabGet_tabDel_same]
    rfl
  · rw [State.ctx_modCtx]
    rfl

/-- The join counter of the ended task is to be decremented (R311). -/
theorem endKilled_join {t : Trigger} {n off : Nat} (e : Ending) (htwin : (s.ctx g).twin = none)
    (htrig : (s.ctx g).trig = some t) (hjoin : t.join = some (n, off)) :
    (n, off, true, (s.ctx g).act) ∈ ((endKilled s g e).tile (tileOf g)).joinSubs := by
  rw [endKilled_single e htwin, freeCtx_keeps (State.tile · (tileOf g)) (fun _ _ => rfl)]
  have hctx : (killReport (logGuard s g) g e).ctx g = s.ctx g :=
    (killReport_keeps (State.ctx · g) (fun _ _ => rfl) (fun _ _ => rfl) ..).trans
      (logGuard_keeps (π := (State.ctx · g)) (fun _ _ => rfl) ..)
  simp only [consume, hctx, htrig, hjoin]
  rw [State.tile_modTile]
  exact List.mem_append_right _ (List.mem_singleton_self _)

end

/-- Settles O24. -/
theorem contextEvents : Obligations.ContextEvents := by
  unfold Obligations.ContextEvents
  refine ⟨?pause, ?grow, ?preempt, ?save, ?image, ?restore, ?masks, ?kill, ?timeout, ?ended⟩
  case pause =>
    intro s
    rw [exec_pauseExpire, execPauseExpire]
    exact eventStep_of_some rfl
  case grow =>
    intro s a g hst hwait
    refine ⟨fun hroom => ?_, fun hfull => ?_⟩
    · refine ⟨s.modCtx g (fun c => { c with
        st := .run, waiting := .none, mapped := c.mapped + 1, streams := rereadStack c.streams }), ?_, ?_⟩
      · rw [exec_stackGrowService, execStackGrowService]
        refine eventStep_of_some ?_
        simp only [tryStackGrowService, show (s.ctx s.ev.who).st = .wait from hst,
          show (s.ctx s.ev.who).waiting = .stackGrow a from hwait,
          show (s.ctx s.ev.who).mapped < (s.ctx s.ev.who).stackPages from hroom, if_true]
        rfl
      · rw [State.ctx_modCtx]
        exact ⟨rfl, rfl, rfl, rfl, rfl⟩
    · rw [exec_stackGrowService, execStackGrowService]
      refine eventStep_of_some ?_
      simp only [tryStackGrowService, show (s.ctx s.ev.who).st = .wait from hst,
        show (s.ctx s.ev.who).waiting = .stackGrow a from hwait]
      exact if_neg (Nat.not_lt.mpr hfull)
  case preempt =>
    intro s g hst
    refine ⟨orderSave s g, ?_, orderSave_leaves hst⟩
    rw [exec_preemption, execPreemption]
    exact eventStep_of_some (if_pos hst)
  case save =>
    intro s g c hdue hgroups htrap howes hstill hstall hstands
    rw [exec_contextSave, execContextSave]
    refine eventStep_of_some (if_pos ?_)
    have hable : saveable (s.ctx s.ev.who) = true := saveable_of hgroups htrap hstands
    simp only [hable, show (s.ctx s.ev.who).saveDue = true from hdue,
      show owesGroup s s.ev.who = false from howes, show twinStill s s.ev.who = true from hstill,
      show saveStalled s s.ev.who = false from hstall]
    rfl
  case image =>
    intro s g l i c s0 hloc hfree hi hm
    exact image_words hloc hfree hi hm
  case restore =>
    intro s l g c d hst hcopy htwin hlaunch hrun hstall hwaits hdest _
    have hto : restoreTo s g d = true := by
      rw [restoreTo, show tileOf d = tileOf g from tileOf_slot ..]
      rcases hdest with hsame | ⟨hfree, hkeeps⟩
      · simp [hsame]
      · simp [hfree, hkeeps]
    obtain ⟨hplaced, hfld⟩ := placeCtx_ctx s g d none
    refine ⟨?_, hplaced, hfld⟩
    rw [exec_contextRestore, execContextRestore]
    refine eventStep_of_some ?_
    simp only [tryContextRestore, show (s.ctx s.ev.who).st = .saved from hst,
      show s.launch (s.ctx s.ev.who).lslot = some l from hlaunch, hrun, show saveStalled s s.ev.who = false from hstall,
      show restoreWaits s (s.ctx s.ev.who).lslot = false from hwaits, show (s.ctx s.ev.who).twin = none from htwin]
    exact if_pos hto
  case masks =>
    intro c b v k l e
    exact fromImage_masks c b v k l e
  case kill =>
    intro s g o e hst
    rw [exec_contextKill, execContextKill]
    refine eventStep_of_some ?_
    rcases hst with hst | hst | hst
    all_goals
      simp only [tryContextKill, show (s.ctx s.ev.who).st = _ from hst]
      rfl
  case timeout =>
    intro s n g o e hst hwait
    rw [exec_blockingTimeout, execBlockingTimeout]
    refine eventStep_of_some ?_
    simp only [tryBlockingTimeout, show (s.ctx s.ev.who).st = _ from hst,
      show (s.ctx s.ev.who).waiting = _ from hwait]
    rfl
  case ended =>
    intro s g e htwin
    have hfreed := freeCtx_ctx (consume (killReport (logGuard s g) g e) g true) g
    rw [← endKilled_single e htwin] at hfreed
    obtain ⟨hst, hheld⟩ := hfreed
    refine ⟨hst, hheld, ?_, fun h hh => ?_, ?_, fun t n off htrig hjoin => endKilled_join e htwin htrig hjoin⟩
    · rw [endKilled_single e htwin]
      exact freeCtx_groups ..
    · exact endKilled_keeps (π := (State.ctx · h)) e htwin (fun _ => freeCtx_ctx_other _ _ hh) (fun _ _ _ => rfl)
        (fun _ _ => rfl) (fun _ _ => rfl)
    · exact endKilled_keeps (π := State.mem) e htwin (fun _ => freeCtx_keeps State.mem (fun _ _ => rfl) ..)
        (fun _ _ _ => rfl) (fun _ _ => rfl) (fun _ _ => rfl)

end Sys2Proof.Proofs
end

section

/-! Gang admission, launch records and the completion of a launch (R53, R325-R327, R376, R394). -/

namespace Sys2Proof.Proofs

open Sys2Proof.Machine Sys2Proof.Laws Sys2Proof.Stated

/-! ### What stores of units leave of a tile -/

section

variable {β : Type} (π : Tile → β) (hmerge : ∀ x p, π { x with merge := p } = π x)
  (hperf : ∀ x p, π { x with perf := p } = π x) (hremap : ∀ x p, π { x with remap := p } = π x)
  (hpoison : ∀ x p, π { x with poison := p } = π x)

include hmerge hperf hremap hpoison

theorem tileField_performStore (s : State) (k : Nat) (bs : List Byte) (act u : Nat) :
    π ((performStore s k bs act).tile u) = π (s.tile u) := by
  have htouched := tileField_touched π hperf hremap hpoison s k bs.length u
  unfold performStore
  split
  · rfl
  · split
    · rfl
    · by_cases hu : u = homeTile k
      · rw [← htouched, hu, State.tile_modTile]
        exact hmerge _ _
      · rw [State.tile_modTile_other _ _ hu, htouched]

theorem tileField_engWrite (s : State) (k : Nat) (bs : List Byte) (u : Nat) :
    π ((engWrite s k bs).tile u) = π (s.tile u) := by
  unfold engWrite
  split
  · rfl
  · exact (tileField_touched π hperf hremap hpoison _ k bs.length u).trans (tileField_drainN π hmerge ..)

theorem tileField_setLife (s : State) (q : Nat) (l : Lifeline) (u : Nat) :
    π ((setLife s q l).tile u) = π (s.tile u) := by
  unfold setLife
  dsimp only
  split
  · rfl
  · refine (foldl_keeps (fun s : State => π (s.tile u)) (fun s w => ?_) ..).trans rfl
    unfold areaWrite
    split
    · rfl
    · exact tileField_engWrite π hmerge hperf hremap hpoison ..

end

section

variable {α : Type} (π : State → α)

theorem engWrite_keeps (hmem : ∀ (s : State) m, π { s with mem := m } = π s)
    (htile : ∀ s t x, π (State.setTile s t x) = π s) (s : State) (k : Nat) (bs : List Byte) :
    π (engWrite s k bs) = π s := by
  unfold engWrite
  split
  · rfl
  · exact (hmem _ _).trans ((touchPage_keeps π htile ..).trans
      ((clearPoison_keeps π htile ..).trans (drainN_keeps π hmem htile ..)))

theorem setLife_keeps (hmem : ∀ (s : State) m, π { s with mem := m } = π s)
    (htile : ∀ s t x, π (State.setTile s t x) = π s) (hlife : ∀ (s : State) l, π { s with life := l } = π s)
    (s : State) (q : Nat) (l : Lifeline) : π (setLife s q l) = π s := by
  unfold setLife
  dsimp only
  split
  · exact hlife _ _
  · refine (foldl_keeps π (fun s w => ?_) ..).trans (hlife _ _)
    unfold areaWrite
    split
    · rfl
    · exact engWrite_keeps π hmem htile ..

theorem sendArrival_keeps (hsend : ∀ (s : State) l n q, π { s with pkts := l, nextPkt := n, seqOut := q } = π s)
    (s : State) (src lslot : Nat) (bar : Option Bar) (flt : Bool) (cls ab : Nat) :
    π (sendArrival s src lslot bar flt cls ab) = π s := by
  unfold sendArrival
  split
  · rfl
  · exact sendTagged_keeps (π := π) _ _ _ _ _ _ _ hsend

theorem sendStart_keeps (hsend : ∀ (s : State) l n q, π { s with pkts := l, nextPkt := n, seqOut := q } = π s)
    (s : State) (l : Launch) (slot : Nat) : π (sendStart s l slot) = π s :=
  foldl_keeps π (fun _ _ => foldl_keeps π (fun _ _ => sendTagged_keeps (π := π) _ _ _ _ _ _ _ hsend) ..) ..

end

/-! ### Gang admission (R53) -/

/-- One tile's reservation for a gang. -/
def admitOn (l : Launch) (slot : Nat) (s : State) (e : Nat × Option (List Nat)) : State :=
  (clearPipes s l e.1).modTile e.1 (fun x => { x with
    reserved := x.reserved ++ (e.2.getD []).map (fun g => (g, slot)) })

theorem reserved_clearPipes (s : State) (l : Launch) (t u : Nat) :
    ((clearPipes s l t).tile u).reserved = (s.tile u).reserved := by
  refine foldl_keeps (fun s : State => (s.tile u).reserved) (fun s p => ?_) ..
  dsimp only
  split
  · exact tileField_performStore Tile.reserved (fun _ _ => rfl) (fun _ _ => rfl) (fun _ _ => rfl) (fun _ _ => rfl) ..
  · rfl

theorem reserved_admitOn (l : Launch) (slot : Nat) (s : State) (e : Nat × Option (List Nat)) (u : Nat) :
    ((admitOn l slot s e).tile u).reserved =
      if u = e.1 then (s.tile u).reserved ++ (e.2.getD []).map (fun g => (g, slot)) else (s.tile u).reserved := by
  unfold admitOn
  split
  · next hu =>
    rw [hu, State.tile_modTile, reserved_clearPipes]
  · next hu => rw [State.tile_modTile_other _ _ hu, reserved_clearPipes]

theorem mem_reserved_admitOn {l : Launch} {slot u : Nat} {s : State} {x : Nat × Nat} (e : Nat × Option (List Nat))
    (hx : x ∈ (s.tile u).reserved) : x ∈ ((admitOn l slot s e).tile u).reserved := by
  rw [reserved_admitOn]
  split
  · exact List.mem_append_left _ hx
  · exact hx

theorem mem_reserved_foldl {l : Launch} {slot u : Nat} {x : Nat × Nat} (es : List (Nat × Option (List Nat)))
    {s : State} (hx : x ∈ (s.tile u).reserved) : x ∈ ((es.foldl (admitOn l slot) s).tile u).reserved := by
  induction es generalizing s with
  | nil => exact hx
  | cons e es ih => exact ih (mem_reserved_admitOn e hx)

/-- Every tile of the gang has the contexts reserved that it gives. -/
theorem reserved_admitted {l : Launch} {slot g : Nat} {e : Nat × Option (List Nat)} {es : List (Nat × Option (List Nat))}
    (s : State) (he : e ∈ es) (hg : g ∈ e.2.getD []) :
    (g, slot) ∈ ((es.foldl (admitOn l slot) s).tile e.1).reserved := by
  induction es generalizing s with
  | nil => simp at he
  | cons e' es ih =>
    rcases List.mem_cons.mp he with rfl | he
    · refine mem_reserved_foldl es ?_
      rw [reserved_admitOn, if_pos rfl]
      exact List.mem_append_right _ (List.mem_map_of_mem hg)
    · exact ih _ he

/-- A gang that fits on every tile of its rectangle is admitted. -/
theorem tryGangAdmit_fits {s : State} {l : Launch} (hlaunch : s.launch s.ev.who = some l) (hstate : l.state = .admission)
    (hfits : ∀ t ∈ rectTiles l, (gangOn s l t).isSome = true) : tryGangAdmit s =
      some (sendStart ((((rectTiles l).map (fun t => (t, gangOn s l t))).foldl (admitOn l s.ev.who) s).setLaunch
        s.ev.who { l with state := .running }) l s.ev.who) := by
  have hall : ((rectTiles l).map (fun t => (t, gangOn s l t))).all (fun e => e.2.isSome) = true := by
    rw [List.all_map, List.all_eq_true]
    exact hfits
  simp only [tryGangAdmit, hlaunch, hstate, hall, if_true]
  rfl

/-! ### The checks of a record (R327, R376) -/

theorem judge_unready {s : State} {r : List Byte} (a : Nat) (h : recordOk r = false) : judge s r a = .refuse s 3 := by
  simp [judge, h]

theorem judge_unplaced {s : State} {r : List Byte} (a : Nat) (h : recordOk r = true) (hrect : rectOk s r = false) :
    judge s r a = .refuse s 2 := by
  simp [judge, h, hrect]

theorem judge_taken {s : State} {r : List Byte} (a : Nat) (h : recordOk r = true) (hrect : rectOk s r = true)
    (hslot : (s.launch (natAt r 4 2)).isSome = true) : judge s r a = .refuse s 4 := by
  simp [judge, h, hrect, hslot]

/-- The tiles of a list with a free block each. -/
def blocksOf (s : State) (ts : List Nat) : Option (List (Nat × Nat)) :=
  ts.foldr (fun (t : Nat) (acc : Option (List (Nat × Nat))) =>
    match freeBlock s t, acc with
    | some k, some l => some ((t, k) :: l)
    | _, _ => none) (some [])

theorem blocksOf_cons {s : State} {t : Nat} {ts : List Nat} {bs : List (Nat × Nat)} (h : blocksOf s (t :: ts) = some bs) :
    ∃ k l, freeBlock s t = some k ∧ blocksOf s ts = some l ∧ bs = (t, k) :: l := by
  rw [blocksOf, List.foldr_cons] at h
  split at h
  · next k l hk hl => exact ⟨k, l, hk, hl, (Option.some.inj h).symm⟩
  · nomatch h

theorem freeBlock_sound {s : State} {t k : Nat} (h : freeBlock s t = some k) : k < 16 ∧ blockOwner s t k = none := by
  obtain hmem := List.mem_of_find?_eq_some h
  have hfree := List.find?_some h
  exact ⟨List.mem_range.mp hmem, by simpa using hfree⟩

theorem blocksOf_sound {s : State} {ts : List Nat} {bs : List (Nat × Nat)} (h : blocksOf s ts = some bs) :
    ∀ t ∈ ts, ∃ b, b < 16 ∧ (t, b) ∈ bs ∧ blockOwner s t b = none := by
  induction ts generalizing bs with
  | nil => simp
  | cons u ts ih =>
    obtain ⟨k, l, hk, hl, rfl⟩ := blocksOf_cons h
    intro t ht
    rcases List.mem_cons.mp ht with rfl | ht
    · obtain ⟨hlt, hfree⟩ := freeBlock_sound hk
      exact ⟨k, hlt, List.mem_cons_self .., hfree⟩
    · obtain ⟨b, hb, hmem, hfree⟩ := ih hl t ht
      exact ⟨b, hb, List.mem_cons_of_mem _ hmem, hfree⟩

/-- What an accepted record gives. -/
theorem judge_accept {s s2 : State} {r : List Byte} {a n : Nat} {l : Launch} (h : judge s r a = .accept s2 n l) :
    n = natAt r 4 2 ∧ l.record = r ∧ descOk l.desc = true ∧ l.statusKey = a ∧ s.launch n = none ∧
      ∀ t ∈ rectTiles l, ∃ b, b < 16 ∧ (t, b) ∈ l.blocks ∧ blockOwner s t b = none := by
  unfold judge at h
  extract_lets t asid slot at h
  split at h
  · nomatch h
  split at h
  · nomatch h
  split at h
  · nomatch h
  next hslot =>
  split at h
  · nomatch h
  · nomatch h
  next s1 d hread =>
  split at h
  · nomatch h
  next hdesc =>
  extract_lets konst at h
  split at h
  · nomatch h
  · nomatch h
  · nomatch h
  next s3 k bs hkonst hblocks =>
  injection h with _ hn hl
  subst hl
  refine ⟨hn.symm, rfl, by simpa using hdesc, rfl, ?_, ?_⟩
  · rw [← hn]
    simpa using hslot
  · exact blocksOf_sound (ts := (List.range 1024).filter (inRect r)) hblocks

/-! ### The answer to a record -/

theorem visRead_sendArrival (s : State) (src lslot : Nat) (bar : Option Bar) (flt : Bool) (cls ab k n : Nat) :
    visRead (sendArrival s src lslot bar flt cls ab) k n = visRead s k n :=
  sendArrival_keeps (visRead · k n) (fun _ _ _ _ => rfl) ..

theorem visRead_homeWrite_byte (s : State) {k : Nat} (v : Nat) (hk : k < 2 ^ 60) :
    visRead (homeWrite s k (bytesLE 1 v)) k 1 = [BitVec.ofNat 8 v] := by
  have hread := visRead_performStore_same (s := s) (k := k) (bs := bytesLE 1 v) (act := 0) (.inl hk) (by simp [bytesLE])
  rw [length_bytesLE] at hread
  exact hread.trans (by simp [bytesLE])

theorem answerRecord_leaves (s : State) {k : Nat} (q : LaunchQueue) (st : Nat) (hk : k < s.queues.length) :
    (∃ q', (answerRecord s k q st).queues[k]? = some q' ∧ q'.next = q.next + 1) ∧
      (slotKey q q.next + 126 < 2 ^ 60 →
        visRead (answerRecord s k q st) (slotKey q q.next + 126) 1 = [BitVec.ofNat 8 st]) := by
  refine ⟨⟨{ q with next := q.next + 1, bars := q.bars.filter (fun (e : Nat × Bar) => e.1 != q.next) }, ?_, rfl⟩,
    fun hkey => ?_⟩
  · unfold answerRecord
    dsimp only
    rw [sendArrival_keeps State.queues (fun _ _ _ _ => rfl)]
    refine List.getElem?_set_self ?_
    rw [homeWrite, performStore_keeps State.queues (fun _ _ => rfl) (fun _ _ _ => rfl)]
    exact hk
  · unfold answerRecord
    dsimp only
    rw [visRead_sendArrival]
    exact (visRead_congr rfl (fun _ => rfl) _ _).trans (visRead_homeWrite_byte s st hkey)

section

variable {s : State} {q : LaunchQueue} (hq : s.queues[s.ev.who]? = some q) (htaking : taking s = true)
  (hstall : stalled s (slotKey q q.next) = false) (hon : pageOff s (slotKey q q.next) = false)
  (hinj : injRead s (slotKey q q.next) = false) (hpoison : poisoned s (slotKey q q.next) 128 = false)
  (hready : natLE (visRead s (slotKey q q.next + 127) 1) = q.next % 255 + 1)

include hq htaking hstall hon hinj hpoison hready

theorem tryLaunchRecordTake_refuse {s2 : State} {st : Nat}
    (h : judge s (visRead s (slotKey q q.next) 128) (slotKey q q.next + 126) = .refuse s2 st) :
    tryLaunchRecordTake s = some (answerRecord s2 s.ev.who q st) := by
  simp [tryLaunchRecordTake, hq, htaking, hstall, hon, hready, unitRead, fireRead_of_not_injRead hinj,
    uncorrectable_eq_false hinj hpoison, h]

theorem tryLaunchRecordTake_accept {s2 : State} {slot : Nat} {l : Launch}
    (h : judge s (visRead s (slotKey q q.next) 128) (slotKey q q.next + 126) = .accept s2 slot l) :
    tryLaunchRecordTake s = some (beginLaunch (answerRecord s2 s.ev.who q 1) slot l) := by
  simp [tryLaunchRecordTake, hq, htaking, hstall, hon, hready, unitRead, fireRead_of_not_injRead hinj,
    uncorrectable_eq_false hinj hpoison, h]

end

/-! ### Completion (R327) -/

/-- An effect of a completed launch has been performed. -/
theorem launchDone_effects {s : State} {l : Launch} {k act : Nat} {e : Nat × Packet} (hdone : launchDone s k l = true)
    (he : e ∈ s.pkts) (howner : e.2.owner = .act act) (hslot : e.2.lslot = k) (hwork : ∀ u, e.2.work ≠ .osub u) :
    e.2.place = .done := by
  have hpkts : s.pkts.all (fun e => !workHolds e.2.work k && !effectFlies e.2 k) = true := by
    simp only [launchDone, Bool.and_eq_true] at hdone
    obtain ⟨⟨-, hpkts⟩, -⟩ := hdone
    exact hpkts
  have hflies := List.all_eq_true.mp hpkts e he
  by_contra hplace
  have heffect : effectFlies e.2 k = true := by
    rw [effectFlies, howner]
    split
    · next u _ hosub => exact absurd hosub (hwork _)
    · simp [hslot, hplace]
    · next hact _ => exact (hact act rfl).elim
  simp [heffect] at hflies

section

variable {α : Type} (π : State → α)

theorem ackDropped_keeps (hpkts : ∀ (s : State) l, π { s with pkts := l } = π s)
    (hinbox : ∀ (s : State) l, π { s with inbox := l } = π s)
    (hanswers : ∀ (s : State) l, π { s with answers := l } = π s) (s : State) (slot : Nat) :
    π (ackDropped s slot) = π s := foldl_keeps π (fun _ _ => finish_keeps π hpkts hinbox hanswers ..) ..

theorem dropPins_keeps (hmem : ∀ (s : State) m, π { s with mem := m } = π s)
    (htile : ∀ s t x, π (State.setTile s t x) = π s) (hlife : ∀ (s : State) l, π { s with life := l } = π s)
    (s : State) (slot : Nat) : π (dropPins s slot) = π s :=
  foldl_keeps π (fun _ _ => setLife_keeps π hmem htile hlife ..) ..

end

/-- The state in which a completed launch writes its STATUS. -/
def released (s : State) (k : Nat) : State := dropPins (ackDropped s k) k

theorem released_ctxs (s : State) (k : Nat) : (released s k).ctxs = s.ctxs :=
  (dropPins_keeps State.ctxs (fun _ _ => rfl) (fun _ _ _ => rfl) (fun _ _ => rfl) ..).trans
    (ackDropped_keeps State.ctxs (fun _ _ => rfl) (fun _ _ => rfl) (fun _ _ => rfl) ..)

theorem released_matrix (s : State) (k u : Nat) : ((released s k).tile u).matrix = (s.tile u).matrix := by
  refine (foldl_keeps (fun s : State => (s.tile u).matrix) (fun s q => ?_) ..).trans
    (ackDropped_keeps (fun s => (s.tile u).matrix) (fun _ _ => rfl) (fun _ _ => rfl) (fun _ _ => rfl) ..)
  exact tileField_setLife Tile.matrix (fun _ _ => rfl) (fun _ _ => rfl) (fun _ _ => rfl) (fun _ _ => rfl) ..

/-- STATUS written where its page is on line. -/
def withStatus (s : State) (l : Launch) : State :=
  if pageOff s l.statusKey then s else homeWrite s l.statusKey (bytesLE 1 (if l.failed then 6 else 5))

/-- The launch of a slot struck out. -/
def struckOut (s : State) (slot : Nat) (ls : List (Nat × Launch)) (m : Mgmt) : State :=
  { s with
    launches := ls, mgmt := m
    tiles := s.tiles.map (fun (e : Nat × Tile) => (e.1, dropAtTile slot e.2)) }

/-- The arrival that a completed launch makes at DONE. -/
def doneBar (l : Launch) : Option Bar :=
  if (natAt l.record 40 8).testBit 0 then
    some ⟨tileAt (nfld (natAt l.record 40 8) 32 5) (nfld (natAt l.record 40 8) 40 5), 16 * nfld (natAt l.record 40 8) 4 17⟩
  else none

theorem tryLaunchComplete_done {s : State} {l : Launch} (hlaunch : s.launch s.ev.who = some l)
    (hdone : launchDone s s.ev.who l = true) (hstall : stalled s l.statusKey = false)
    (hpins : pinsWait s s.ev.who = false) : ∃ m, tryLaunchComplete s =
      some (sendArrival (struckOut (withStatus (released s s.ev.who) l) s.ev.who
        (tabDel (released s s.ev.who).launches s.ev.who) m) (homeTile l.statusKey) s.ev.who (doneBar l) l.failed
        l.failed.toNat 0) := by
  refine ⟨?_, ?_⟩
  rotate_left
  · simp only [tryLaunchComplete, hlaunch, hdone, hstall, hpins]
    rfl

/-- What a change of every entry leaves of one. -/
theorem tabGet_map_field {γ β : Type} (π : γ → β) {f : γ → γ} (hf : ∀ x, π (f x) = π x) (d : γ) (m : List (Nat × γ))
    (k : Nat) : π (tabGet d (m.map (fun e => (e.1, f e.2))) k) = π (tabGet d m k) := by
  induction m with
  | nil => rfl
  | cons e r ih =>
    by_cases hk : e.1 = k
    · simpa [tabGet, storeGet, hk] using hf e.2
    · simpa [tabGet, storeGet, hk] using ih

/-- What every changed entry has. -/
theorem tabGet_map_of {γ : Type} {p : γ → Prop} {f : γ → γ} (hf : ∀ x, p (f x)) {d : γ} (hd : p d) (m : List (Nat × γ))
    (k : Nat) : p (tabGet d (m.map (fun e => (e.1, f e.2))) k) := by
  induction m with
  | nil => exact hd
  | cons e r ih =>
    by_cases hk : e.1 = k
    · simpa [tabGet, storeGet, hk] using hf e.2
    · simpa [tabGet, storeGet, hk] using ih

/-- A field that the striking out of a launch leaves. -/
theorem tileField_struckOut {β : Type} (π : Tile → β) (slot : Nat) (hdrop : ∀ x, π (dropAtTile slot x) = π x) (s : State)
    (ls : List (Nat × Launch)) (m : Mgmt) (t : Nat) : π ((struckOut s slot ls m).tile t) = π (s.tile t) :=
  tabGet_map_field π hdrop ..

theorem visRead_struckOut (s : State) (slot : Nat) (ls : List (Nat × Launch)) (m : Mgmt) (k n : Nat) :
    visRead (struckOut s slot ls m) k n = visRead s k n :=
  visRead_congr (t := struckOut s slot ls m) (s := s) rfl
    (fun _ => tileField_struckOut Tile.merge slot (fun _ => rfl) s ls m _) k n

theorem reserved_struckOut (s : State) (slot : Nat) (ls : List (Nat × Launch)) (m : Mgmt) (t : Nat) :
    (((struckOut s slot ls m).tile t).reserved.all (fun e => e.2 != slot)) = true := by
  refine tabGet_map_of (p := fun x : Tile => x.reserved.all (fun e => e.2 != slot) = true) (fun x => ?_) rfl ..
  exact List.all_eq_true.mpr fun e he => (List.mem_filter.mp he).2

theorem tabFind_tabDel {β : Type} (m : List (Nat × β)) (k : Nat) : tabFind (tabDel m k) k = none := by
  induction m with
  | nil => rfl
  | cons e r ih =>
    by_cases hk : e.1 = k
    · simpa [tabDel, hk] using ih
    · simpa [tabDel, tabFind, hk] using ih

theorem withStatus_ctxs (s : State) (l : Launch) : (withStatus s l).ctxs = s.ctxs := by
  unfold withStatus
  split
  · rfl
  · exact performStore_keeps State.ctxs (fun _ _ => rfl) (fun _ _ _ => rfl) ..

theorem withStatus_matrix (s : State) (l : Launch) (t : Nat) : ((withStatus s l).tile t).matrix = (s.tile t).matrix := by
  unfold withStatus
  split
  · rfl
  · exact tileField_performStore Tile.matrix (fun _ _ => rfl) (fun _ _ => rfl) (fun _ _ => rfl) (fun _ _ => rfl) ..

theorem visRead_withStatus {s : State} {l : Launch} (hon : pageOff s l.statusKey = false) (hkey : l.statusKey < 2 ^ 60) :
    visRead (withStatus s l) l.statusKey 1 = [if l.failed = true then 6 else 5] := by
  rw [withStatus, hon]
  refine (visRead_homeWrite_byte s _ hkey).trans ?_
  split <;> rfl

/-- What a completed launch leaves (R327). -/
theorem launchComplete_leaves (s : State) (l : Launch) (m : Mgmt) (src : Nat) (bar : Option Bar) :
    let u := sendArrival (struckOut (withStatus (released s s.ev.who) l) s.ev.who
      (tabDel (released s s.ev.who).launches s.ev.who) m) src s.ev.who bar l.failed l.failed.toNat 0
    u.launch s.ev.who = none ∧ u.ctxs = s.ctxs ∧ (∀ t, (u.tile t).reserved.all (fun e => e.2 != s.ev.who) = true) ∧
      (∀ t, (u.tile t).matrix = (s.tile t).matrix) ∧
      (pageOff (released s s.ev.who) l.statusKey = false → l.statusKey < 2 ^ 60 →
        visRead u l.statusKey 1 = [if l.failed = true then 6 else 5]) := by
  intro u
  have htile (t : Nat) : u.tile t = (struckOut (withStatus (released s s.ev.who) l) s.ev.who
      (tabDel (released s s.ev.who).launches s.ev.who) m).tile t :=
    sendArrival_keeps (State.tile · t) (fun _ _ _ _ => rfl) ..
  refine ⟨?_, ?_, fun t => ?_, fun t => ?_, fun hon hkey => ?_⟩
  · refine (sendArrival_keeps (State.launch · s.ev.who) (fun _ _ _ _ => rfl) ..).trans ?_
    exact tabFind_tabDel ..
  · refine (sendArrival_keeps State.ctxs (fun _ _ _ _ => rfl) ..).trans ?_
    exact (withStatus_ctxs ..).trans (released_ctxs ..)
  · rw [htile]
    exact reserved_struckOut ..
  · rw [htile, tileField_struckOut Tile.matrix _ (fun _ => rfl), withStatus_matrix, released_matrix]
  · refine (visRead_sendArrival ..).trans (Eq.trans ?_ (visRead_withStatus hon hkey))
    exact visRead_struckOut ..

/-- Settles O25. -/
theorem launchEvents : Obligations.LaunchEvents := by
  unfold Obligations.LaunchEvents
  refine ⟨?gang, ?record, ?judged, ?answer, ?lookup, ?complete, ?effects⟩
  case gang =>
    intro s l k hlaunch hstate hfits
    have hstep := eventStep_of_some (tryGangAdmit_fits hlaunch hstate hfits)
    refine ⟨_, (exec_gangAdmit s).trans hstep,
      (sendStart_keeps (State.launch · k) (fun _ _ _ _ => rfl) ..).trans (State.launch_setLaunch ..), fun t ht g hg => ?_⟩
    · rw [sendStart_keeps (State.tile · t) (fun _ _ _ _ => rfl)]
      have he : (t, gangOn s l t) ∈ (rectTiles l).map (fun t => (t, gangOn s l t)) := List.mem_map_of_mem ht
      have hadmitted := reserved_admitted (l := l) (slot := k) (g := g) s he hg
      rw [State.tile, State.setLaunch_tiles]
      exact hadmitted
  case record =>
    intro s q k a hq htaking hstall hon hinj hpoison hready
    refine ⟨fun s2 st h => ?_, fun s2 slot l h => ?_⟩
    · rw [exec_launchRecordTake, execLaunchRecordTake]
      exact eventStep_of_some (tryLaunchRecordTake_refuse hq htaking hstall hon hinj hpoison hready h)
    · rw [exec_launchRecordTake, execLaunchRecordTake]
      exact eventStep_of_some (tryLaunchRecordTake_accept hq htaking hstall hon hinj hpoison hready h)
  case judged =>
    intro s r a
    exact ⟨judge_unready a, judge_unplaced a, judge_taken a, fun s2 n l => judge_accept⟩
  case answer =>
    intro s k q st u hk
    exact answerRecord_leaves s q st hk
  case lookup =>
    intro s l k hlaunch hstate hlookup
    refine ⟨?_, fun hgang => ?_⟩
    · rw [exec_keyedLookupResult, execKeyedLookupResult]
      refine eventStep_of_some ?_
      simp only [tryKeyedLookupResult, show s.launch s.ev.who = some l from hlaunch, hstate]
      exact if_pos (by simpa using hlookup)
    · refine ⟨{ l with state := .running }, ?_, rfl⟩
      simp only [startLaunch, hgang]
      exact (sendStart_keeps (State.launch · k) (fun _ _ _ _ => rfl) ..).trans (State.launch_setLaunch ..)
  case complete =>
    intro s l k hlaunch hdone hstall hpins
    obtain ⟨m, hstep⟩ := tryLaunchComplete_done hlaunch hdone hstall hpins
    exact ⟨_, (exec_launchComplete s).trans (eventStep_of_some hstep), launchComplete_leaves s l m _ _⟩
  case effects =>
    intro s l k e act hdone he howner hslot hwork
    exact launchDone_effects hdone he howner hslot hwork

end Sys2Proof.Proofs
end

section

/-! Accesses from host and peers: an injection armed at a port (R424, R429). -/

namespace Sys2Proof.Proofs

open Sys2Proof.Machine Sys2Proof.Laws Sys2Proof.Stated

/-- The injection of a bit error at port 0, for its next flit only. -/
def portError : Word := 0xC000000000000000#64

/-- A module that has not booted and to which port 0 may turn, with an injection armed at that port, whose turn is
a read of one byte through it. -/
def armedPort : State :=
  { State.reset with
    ev := { EventArg.none with val := 1 }
    mgmt := { Mgmt.reset with peerMask := 1, inject := portError } }

/-- What the injection leaves when it fires. -/
def portFired (s : State) : State :=
  logAt { s with mgmt := { s.mgmt with inject := putFld portError 63 1 0 } } 0x0B 0 0 0 0 portError.toNat

theorem injHits_port {s : State} (h : s.mgmt.inject = portError) : injHits s 4 0 0 = true := by
  rw [injHits, h]
  decide

theorem injFire_port {s : State} (h : s.mgmt.inject = portError) : injFire s 0 0 = portFired s := by
  rw [injFire, h]
  rfl

theorem injHits_fired (s : State) : injHits (portFired s) 4 0 0 = false := by
  show injHits { s with mgmt := { s.mgmt with inject := putFld portError 63 1 0 } } 4 0 0 = false
  rw [injHits]
  show ((putFld portError 63 1 0).getLsbD 63 && _ && _ && _) = false
  rw [show (putFld portError 63 1 0).getLsbD 63 = false by decide]
  rfl

/-- A port takes each flit past its injections. -/
def portStep (s : State) (_ : Nat) : State := if injHits s 4 0 0 then injFire s 0 0 else s

theorem foldl_portStep {s : State} (h : injHits s 4 0 0 = false) (l : List Nat) : l.foldl portStep s = s := by
  induction l with
  | nil => rfl
  | cons n l ih =>
    rw [List.foldl_cons, portStep, h]
    exact ih

theorem crossPort_armed {s : State} (h : s.mgmt.inject = portError) : crossPort s 1032 = portFired s := by
  have hfirst : portStep s 0 = portFired s := by rw [portStep, injHits_port h, if_pos rfl, injFire_port h]
  show (List.range 16).foldl portStep s = portFired s
  rw [show List.range 16 = 0 :: (List.range 15).map (· + 1) from rfl, List.foldl_cons, hfirst,
    foldl_portStep (injHits_fired s)]

theorem outsideRead_closed {s : State} {o n : Nat} (ho : o < 2 ^ 39) (hn : lineLen o n ≠ 0)
    (hclosed : memoryClosed s = true) :
    outsideRead s o n = some (busReturn s (Config.freeBytes s.fresh 0 (lineLen o n)) true) := by
  have hin : decide (2 ^ 39 ≤ o) = false := decide_eq_false (Nat.not_le.mpr ho)
  simp only [outsideRead, hin, hn, hclosed, decide_false, Bool.or_false, Bool.or_true, if_true]
  rfl

theorem armedPort_peer : exec .peerInboundAccess armedPort = .next (busReturn (portFired armedPort)
    (Config.freeBytes (portFired armedPort).fresh 0 (lineLen 0 1)) true) := by
  rw [exec_peerInboundAccess, execPeerInboundAccess]
  refine eventStep_of_some ?_
  unfold tryPeerInboundAccess
  dsimp only
  rw [show 1032 + armedPort.ev.who = 1032 from rfl, crossPort_armed rfl]
  have hclosed : memoryClosed (portFired armedPort) = true := rfl
  refine Eq.trans ?_ (outsideRead_closed (o := 0) (n := 1) (by decide) (by decide) hclosed)
  rfl

theorem armedPort_host : exec .hdmRead armedPort =
    .next (busReturn armedPort (Config.freeBytes armedPort.fresh 0 (lineLen 0 1)) true) := by
  rw [exec_hdmRead, execHdmRead]
  exact eventStep_of_some (outsideRead_closed (o := 0) (n := 1) (by decide) (by decide) rfl)

/-- Refutes O34: a read through a port at which an injection is armed fires it, and the same read from the host
does not. -/
theorem not_hostAccess : ¬ Obligations.HostAccess := by
  unfold Obligations.HostAccess
  intro ⟨_, _, hpeer, _⟩
  obtain ⟨-, hopen⟩ := hpeer armedPort (Nat.zero_lt_succ 7)
  obtain ⟨hread, -⟩ := hopen rfl List.not_mem_nil
  have hsame := hread rfl
  rw [armedPort_peer, armedPort_host] at hsame
  injection hsame with hstate
  have hinject : putFld portError 63 1 0 = portError := congrArg (fun s => s.mgmt.inject) hstate
  exact absurd hinject (by decide)

end Sys2Proof.Proofs
end

section

/-! The mailbox commands (R404, R412, R420-R422, R424, R426, R427, R429, R375). -/

namespace Sys2Proof.Proofs

open Sys2Proof.Machine Sys2Proof.Laws Sys2Proof.Stated

/-- The little-endian number in `n` bytes of the payload. -/
def payload (s : State) (i n : Nat) : Nat := natLE (storeRead (0 : Byte) s.mgmt.mbBuf i n)

/-! ### A command that GO starts (R420, R421) -/

/-- The state in which a command acts: GO has been taken. -/
def goTaken (s : State) : State := { s with mgmt := { s.mgmt with go := false } }

section

variable {s : State} {opc need : Nat}

theorem mailCmd_run (h : Commands s opc need) (f : State → State) : mailCmd opc need f s = some (f (goTaken s)) := by
  obtain ⟨hgo, hbusy, hopc, hbooted, hneed, hlen⟩ := h
  have hfree : s.mgmt.busy = false := hbusy
  simp [mailCmd, hgo, hfree, Mgmt.opc, hopc, hbooted, Mgmt.len, Nat.not_lt.mpr hneed, Nat.not_lt.mpr hlen,
    goTaken]

/-- Nothing starts while BUSY, or without GO. -/
theorem mailCmd_idle (h : s.mgmt.mbStatus.getLsbD 0 = true ∨ s.mgmt.go = false) (opc need : Nat) (f : State → State) :
    mailCmd opc need f s = none := by
  rcases h with hbusy | hgo
  · have hbusy : s.mgmt.busy = true := hbusy
    simp [mailCmd, hbusy]
  · simp [mailCmd, hgo]

theorem mailCmd_unbooted (hgo : s.mgmt.go = true) (hbusy : s.mgmt.mbStatus.getLsbD 0 = false)
    (hopc : fld s.mgmt.mbCmd 0 16 = opc) (hread : opc ≠ 1) (hbooted : s.booted = false) (f : State → State) :
    mailCmd opc need f s = some (answer (goTaken s) 3 []) := by
  have hfree : s.mgmt.busy = false := hbusy
  simp [mailCmd, hgo, hfree, Mgmt.opc, hopc, hbooted, goTaken, hread]

theorem slotCmd_run (h : Commands s opc 2) (f : State → Nat → Launch → State) {l : Launch}
    (hl : s.launch (payload s 0 2) = some l) :
    slotCmd opc f s = some (f (goTaken s) (payload s 0 2) l) := by
  have hlaunch : (goTaken s).launch ((goTaken s).mgmt.bufAt 0 2) = some l := hl
  rw [slotCmd, mailCmd_run h]
  dsimp only
  rw [hlaunch]
  rfl

theorem slotCmd_none (h : Commands s opc 2) (f : State → Nat → Launch → State)
    (hl : s.launch (payload s 0 2) = none) :
    slotCmd opc f s = some (answer (goTaken s) 2 []) := by
  have hlaunch : (goTaken s).launch ((goTaken s).mgmt.bufAt 0 2) = none := hl
  rw [slotCmd, mailCmd_run h]
  dsimp only
  rw [hlaunch]

end

/-- A state that keeps MB_CMD answers with its TAG. -/
theorem answer_eq {s t : State} (h : t.mgmt.mbCmd = s.mgmt.mbCmd) (r : Nat) (out : List Byte) :
    answer t r out = Stated.completed t (fld s.mgmt.mbCmd 16 16) r out := by
  rw [← h]
  rfl

theorem buf_eq (s : State) (i : Nat) : s.mgmt.buf i = payload s i 1 := by
  simp [payload, Mgmt.buf, storeRead, natLE]

/-! ### What pre-emption and kills leave of the mailbox -/

theorem orderSave_keeps {γ : Type} (π : State → γ) (hctx : ∀ s g c, π (State.setCtx s g c) = π s) (s : State) (g : Nat) :
    π (orderSave s g) = π s := by
  unfold orderSave
  dsimp only
  split
  · exact (hctx _ _ _).trans (hctx _ _ _)
  · exact hctx _ _ _

/-- Orders a context of a launch saved. -/
def orderLaunch (slot : Nat) (s : State) (e : Nat × Ctx) : State :=
  if e.2.lslot = slot && e.2.act != 0 then orderSave s e.1 else s

theorem orderLaunch_keeps {γ : Type} (π : State → γ) (hctx : ∀ s g c, π (State.setCtx s g c) = π s) (slot : Nat)
    (s : State) (e : Nat × Ctx) : π (orderLaunch slot s e) = π s := by
  unfold orderLaunch
  split
  · exact orderSave_keeps π hctx ..
  · rfl

/-- A launch put aside once its contexts are ordered saved. -/
def shelve (s : State) (slot : Nat) (byHost : Bool) (l : Launch) : State :=
  { s with
    tiles := s.tiles.map (fun (e : Nat × Tile) => (e.1, unstage slot e.2))
    mgmt := { s.mgmt with
      order := s.mgmt.order + 1, restoring := s.mgmt.restoring.filter (fun i => i != slot) } }.setLaunch slot
        { l with state := .preempted byHost, resume := l.state, savedAt := s.mgmt.order }

theorem preemptLaunch_keeps {γ : Type} (π : State → γ) (hctx : ∀ s g c, π (State.setCtx s g c) = π s)
    (hshelve : ∀ s slot b l, π (shelve s slot b l) = π s) (s : State) (slot : Nat) (b : Bool) :
    π (preemptLaunch s slot b) = π s := by
  unfold preemptLaunch
  split
  · rfl
  · split
    · rfl
    · next l _ _ =>
      show π (shelve (s.ctxs.foldl (orderLaunch slot) s) slot b l) = π s
      exact (hshelve ..).trans (foldl_keeps π (orderLaunch_keeps π hctx slot) ..)

theorem forwardGroup_keeps {γ : Type} (π : State → γ) (hctx : ∀ s g c, π (State.setCtx s g c) = π s)
    (htile : ∀ s t x, π (State.setTile s t x) = π s)
    (hsend : ∀ (s : State) l n q, π { s with pkts := l, nextPkt := n, seqOut := q } = π s) (s : State) (g : Nat)
    (gr : Group) : π (forwardGroup s g gr) = π s := by
  unfold forwardGroup
  dsimp only
  rw [countPerf_keeps π htile, State.modCtx, hctx]
  refine foldl_keeps π (fun s e => ?_) ..
  exact (hsend _ _ _ _).trans (foldl_keeps π (fun s p => sendTagged_keeps (π := π) _ _ _ _ _ _ _ hsend) ..)

theorem mbCmd_logGuard (s : State) (g : Nat) : (logGuard s g).mgmt.mbCmd = s.mgmt.mbCmd := by
  unfold logGuard
  dsimp only
  split <;> rfl

theorem mbCmd_logGuards (s : State) (o : Nat) : (logGuards s o).mgmt.mbCmd = s.mgmt.mbCmd := by
  unfold logGuards
  split
  · exact (mbCmd_logGuard ..).trans (mbCmd_logGuard ..)
  · exact mbCmd_logGuard ..

theorem mbCmd_killReport (s : State) (g : Nat) (e : Ending) : (killReport s g e).mgmt.mbCmd = s.mgmt.mbCmd := by
  rw [killReport_mgmt, postKill]
  split <;> rfl

theorem mbCmd_freeBoth (s : State) (g : Nat) : (freeBoth s g).mgmt = s.mgmt := by
  have hfree := freeCtx_keeps State.mgmt (fun _ _ => rfl)
  unfold freeBoth
  split
  · exact (hfree _ _).trans (hfree _ _)
  · exact hfree _ _

theorem mbCmd_commandKill (s : State) (g : Nat) : (commandKill s g).mgmt.mbCmd = s.mgmt.mbCmd := by
  have hforward : (forwardReleased s g).mgmt = s.mgmt := by
    unfold forwardReleased
    dsimp only
    split
    · rfl
    · exact foldl_keeps State.mgmt
        (fun _ _ => forwardGroup_keeps State.mgmt (fun _ _ _ => rfl) (fun _ _ _ => rfl) (fun _ _ _ _ => rfl) ..) ..
  rw [commandKill, endKilled, mbCmd_freeBoth, consume_keeps State.mgmt (fun _ _ _ => rfl), mbCmd_killReport,
    mbCmd_logGuards, hforward]

theorem mbCmd_killLaunch (s : State) (slot : Nat) : (killLaunch s slot).mgmt.mbCmd = s.mgmt.mbCmd := by
  refine foldl_keeps (fun s : State => s.mgmt.mbCmd) (fun s e => ?_) ..
  dsimp only
  split
  · exact mbCmd_commandKill ..
  · rfl

/-! ### Single commands -/

/-- The field that a command writes into its own word. -/
theorem fld_putFld (v : Word) {lo len : Nat} (x : Nat) (hfit : lo + len ≤ 64) :
    fld (putFld v lo len x) lo len = x % 2 ^ len := by
  refine Nat.eq_of_testBit_eq fun i => ?_
  rw [fld, Nat.testBit_mod_two_pow, Nat.testBit_shiftRight, Nat.testBit_mod_two_pow]
  by_cases hi : i < len
  · have hbit := getLsbD_putFld v lo len x (k := lo + i) (by omega)
    rw [if_pos ⟨Nat.le_add_right .., by omega⟩, Nat.add_sub_cancel_left] at hbit
    exact congrArg (decide (i < len) && ·) hbit
  · simp [hi]

theorem length_storeRead (m : List (Nat × Byte)) (k n : Nat) : (storeRead (0 : Byte) m k n).length = n := by
  induction n generalizing k with
  | zero => rfl
  | succ n ih => rw [storeRead, List.length_cons, ih]

/-- The report of ATTEST (R426). -/
def attestation (s : State) : List Byte :=
  storeRead 0 s.mgmt.mbBuf 0 32 ++ (padTo 64 s.mgmt.digest).take 64 ++ bytesLE 4 s.mgmt.oneTimeKey ++
    Config.freeBytes s.fresh 64 2820

theorem attestation_fields (s : State) : (attestation s).length = 2920 ∧
    (s.mgmt.digest.length = 64 → ((attestation s).drop 32).take 64 = s.mgmt.digest) ∧
    (attestation s).take 32 = storeRead (0 : Byte) s.mgmt.mbBuf 0 32 := by
  have hnonce := length_storeRead s.mgmt.mbBuf 0 32
  have hdigest : ((padTo 64 s.mgmt.digest).take 64).length = 64 := by
    simp [padTo]
    omega
  refine ⟨?_, fun hlen => ?_, ?_⟩
  · simp only [attestation, List.length_append, hnonce, hdigest, length_bytesLE, length_freeBytes]
  · rw [attestation, List.append_assoc, List.append_assoc, List.drop_left' hnonce, List.take_left' hdigest, padTo, hlen]
    simp [← hlen]
  · rw [attestation, List.append_assoc, List.append_assoc, List.take_left' hnonce]

/-- Three bytes for each stack. -/
theorem length_thermal {f : Nat → List Byte} (hf : ∀ q, (f q).length = 3) :
    ((List.range 4).flatMap f).length = 12 := by
  rw [List.length_flatMap, show (List.range 4).map (fun q => (f q).length) = (List.range 4).map (fun _ => 3) by simp [hf]]
  rfl

/-! ### Each command -/

section

variable {s : State}

theorem readLog_run (h : Commands s 1 0) : ∃ u, exec .readLog s = .next u ∧ u.mgmt.log = s.mgmt.log.drop 60 ∧
    u.mgmt.mbBuf = storeWrite (0 : Byte) s.mgmt.mbBuf 0 (s.mgmt.log.take 60).flatten ∧
    u.mgmt.msix0 = s.mgmt.msix0 + 1 ∧ u.mgmt.mbStatus = BitVec.ofNat 64 (fld s.mgmt.mbCmd 16 16 * 2 ^ 16) ∧
    fld u.mgmt.mbCmd 32 12 = 64 * (s.mgmt.log.take 60).length % 2 ^ 12 := by
  refine ⟨_, (exec_readLog s).trans (eventStep_of_some (mailCmd_run h _)), ?_, ?_, ?_, ?_, ?_⟩
  · rfl
  · rfl
  · rfl
  · show BitVec.ofNat 64 (fld s.mgmt.mbCmd 16 16 * 2 ^ 16 + 0 * 2 ^ 8) = _
    rw [Nat.zero_mul, Nat.add_zero]
  · exact fld_putFld _ _ (by omega)

theorem readCounters_run (h : Commands s 2 2) (hx : payload s 0 1 < 32)
    (hy : payload s 1 1 < 32) : exec .readCounters s =
      .next (Stated.completed (goTaken s) (fld s.mgmt.mbCmd 16 16) 0
        (((s.tile (tileAt (payload s 0 1) (payload s 1 1))).evc ++
          (s.tile (tileAt (payload s 0 1)
            (payload s 1 1))).perf).flatMap (bytesLE 8))) := by
  rw [← buf_eq] at hx hy ⊢
  rw [← buf_eq]
  rw [exec_readCounters, execReadCounters, eventStep_of_some (mailCmd_run h _)]
  exact congrArg _ (if_neg (not_or.mpr ⟨Nat.not_le.mpr hx, Nat.not_le.mpr hy⟩))

theorem readCounters_bad (h : Commands s 2 2) (hx : 32 ≤ payload s 0 1) :
    exec .readCounters s = .next (Stated.completed (goTaken s) (fld s.mgmt.mbCmd 16 16) 2 []) := by
  rw [← buf_eq] at hx
  rw [exec_readCounters, execReadCounters, eventStep_of_some (mailCmd_run h _)]
  exact congrArg _ (if_pos (Or.inl hx))

theorem selectPerf_run (h : Commands s 3 10) (hsel : ∀ i, i < 8 → payload s (2 + i) 1 < 8)
    (hx : payload s 0 1 < 32) (hy : payload s 1 1 < 32) :
    exec .selectPerf s = .next (Stated.completed ((goTaken s).modTile
      (tileAt (payload s 0 1) (payload s 1 1))
      (selectAt ((List.range 8).map (fun i => payload s (2 + i) 1))))
      (fld s.mgmt.mbCmd 16 16) 0 []) := by
  simp only [← buf_eq] at hsel hx hy ⊢
  rw [exec_selectPerf, execSelectPerf, eventStep_of_some (mailCmd_run h _)]
  have hgood : ((List.range 8).map (fun i => s.mgmt.buf (2 + i))).any (fun v => decide (8 ≤ v)) = false := by
    rw [List.any_map, List.any_eq_false]
    intro i hi
    simpa using hsel i (List.mem_range.mp hi)
  refine congrArg _ ((if_neg (ne_true_of_eq_false hgood)).trans ((if_neg ?_).trans
    ((if_neg (not_or.mpr ⟨Nat.not_le.mpr hx, Nat.not_le.mpr hy⟩)).trans ?_)))
  · rintro ⟨hall, -⟩
    have hall : s.mgmt.buf 0 = 0xFF := hall
    omega
  · rfl

theorem setPower_eq (h : Commands s 0x10 1) :
    exec .setPower s = .next (setPowerTo (goTaken s) (payload s 0 1)) := by
  rw [← buf_eq, exec_setPower, execSetPower, eventStep_of_some (mailCmd_run h _)]
  rfl

/-- The module as QUIESCED is asked for. -/
def quiesceFrom (s : State) : State :=
  let s1 := s.launches.foldl (fun (s : State) (e : Nat × Launch) => preemptLaunch s e.1 false) s
  { s1 with mgmt := { s1.mgmt with power := .quiescing, quiesceTag := s.mgmt.tag, mbStatus := s1.mgmt.mbStatus ||| 1 } }

theorem setPowerTo_quiesce (hpower : s.mgmt.power = .active) : setPowerTo s 2 = quiesceFrom s := by
  simp only [setPowerTo, hpower]
  rfl

theorem setPower_quiesce (h : Commands s 0x10 1) (hgoal : payload s 0 1 = 2) (hpower : s.mgmt.power = .active) :
    ∃ u, exec .setPower s = .next u ∧ u.mgmt.power = .quiescing ∧ u.mgmt.quiesceTag = fld s.mgmt.mbCmd 16 16 ∧
      u.mgmt.mbStatus.getLsbD 0 = true ∧ u.mgmt.msix0 = s.mgmt.msix0 := by
  refine ⟨quiesceFrom (goTaken s), ?_, rfl, rfl, ?_, ?_⟩
  · rw [setPower_eq h, hgoal, setPowerTo_quiesce (s := goTaken s) hpower]
  · simp [quiesceFrom]
  · exact foldl_keeps (fun s : State => s.mgmt.msix0)
      (fun _ _ => preemptLaunch_keeps (fun s : State => s.mgmt.msix0) (fun _ _ _ => rfl) (fun _ _ _ _ => rfl) ..) ..

theorem preempt_run {l : Launch} (h : Commands s 0x20 2)
    (hl : s.launch (payload s 0 2) = some l) (hsaved : l.saved = false) :
    exec .preempt s = .next (Stated.completed (preemptLaunch (goTaken s) (payload s 0 2) true)
      (fld s.mgmt.mbCmd 16 16) 0 []) := by
  rw [exec_preempt, execPreempt, eventStep_of_some (slotCmd_run h _ hl), hsaved]
  exact congrArg _ (answer_eq (preemptLaunch_keeps (fun s : State => s.mgmt.mbCmd) (fun _ _ _ => rfl)
    (fun _ _ _ _ => rfl) ..) ..)

theorem resumeLaunch_launch {k : Nat} {l : Launch} (hl : s.launch k = some l) (hsaved : l.saved = true) :
    (resumeLaunch s k).launch k = some { l with state := l.resume } := by
  simp only [resumeLaunch, hl, hsaved]
  exact State.launch_setLaunch ..

theorem resume_run {l : Launch} (h : Commands s 0x21 2)
    (hl : s.launch (payload s 0 2) = some l) (hstate : l.state = .preempted true)
    (hpower : s.mgmt.power = .active) (hon : onLostTile s l = false) : ∃ u, exec .resume s = .next u ∧
      u.launch (payload s 0 2) = some { l with state := l.resume } := by
  refine ⟨answer (cancelSaves (resumeLaunch (goTaken s) (payload s 0 2)) (payload s 0 2)) 0 [], ?_, ?_⟩
  · rw [exec_resume, execResume, eventStep_of_some (slotCmd_run h _ hl), hstate]
    have hactive : ((goTaken s).mgmt.power == .active) = true := by
      rw [beq_iff_eq]
      exact hpower
    have hlost : onLostTile (goTaken s) l = false := hon
    simp only [hactive, hlost]
    rfl
  · exact resumeLaunch_launch (s := goTaken s) hl (by simp [Launch.saved, hstate])

theorem resume_bad {l : Launch} (h : Commands s 0x21 2)
    (hl : s.launch (payload s 0 2) = some l) (hstate : l.state ≠ .preempted true) :
    exec .resume s = .next (Stated.completed (goTaken s) (fld s.mgmt.mbCmd 16 16) 3 []) := by
  rw [exec_resume, execResume, eventStep_of_some (slotCmd_run h _ hl)]
  exact congrArg _ (if_pos (by simpa using hstate))

theorem kill_run {l : Launch} (h : Commands s 0x22 2)
    (hl : s.launch (payload s 0 2) = some l) : exec .kill s =
      .next (Stated.completed (killLaunch (goTaken s) (payload s 0 2))
        (fld s.mgmt.mbCmd 16 16) 0 []) := by
  rw [exec_kill, execKill, eventStep_of_some (slotCmd_run h _ hl)]
  exact congrArg _ (answer_eq (mbCmd_killLaunch ..) ..)

theorem kill_none (h : Commands s 0x22 2) (hl : s.launch (payload s 0 2) = none) :
    exec .kill s = .next (Stated.completed (goTaken s) (fld s.mgmt.mbCmd 16 16) 2 []) := by
  rw [exec_kill, execKill, eventStep_of_some (slotCmd_none h _ hl)]
  rfl

end

end Sys2Proof.Proofs
end

section

/-! Every mailbox command (R421). -/

namespace Sys2Proof.Proofs

open Sys2Proof.Machine Sys2Proof.Laws Sys2Proof.Stated

section

variable {s : State}

theorem setPower_reduced (h : Commands s 0x10 1) (hgoal : payload s 0 1 = 1) (hpower : s.mgmt.power = .active) :
    exec .setPower s = .next (Stated.completed { goTaken s with mgmt := { (goTaken s).mgmt with power := .reduced } }
      (fld s.mgmt.mbCmd 16 16) 0 []) := by
  have hpower : (goTaken s).mgmt.power = .active := hpower
  rw [setPower_eq h, hgoal]
  simp only [setPowerTo, hpower]
  rfl

theorem setPower_sleep (h : Commands s 0x10 1) (hgoal : payload s 0 1 = 3) (hpower : s.mgmt.power = .quiesced) :
    exec .setPower s = .next (Stated.completed { goTaken s with mgmt := { (goTaken s).mgmt with power := .sleep } }
      (fld s.mgmt.mbCmd 16 16) 0 []) := by
  have hpower : (goTaken s).mgmt.power = .quiesced := hpower
  rw [setPower_eq h, hgoal]
  simp only [setPowerTo, hpower]
  rfl

theorem setPower_refused (h : Commands s 0x10 1) (hgoal : payload s 0 1 = 3) (hpower : s.mgmt.power = .active) :
    exec .setPower s = .next (Stated.completed (goTaken s) (fld s.mgmt.mbCmd 16 16) 3 []) := by
  have hpower : (goTaken s).mgmt.power = .active := hpower
  rw [setPower_eq h, hgoal]
  simp only [setPowerTo, hpower]
  rfl

theorem quiesceComplete_run (hpower : s.mgmt.power = .quiescing) (hsaved : allSaved s = true) :
    exec .quiesceComplete s = .next (Stated.completed { s with mgmt := { s.mgmt with power := .quiesced } }
      s.mgmt.quiesceTag 0 []) := by
  rw [exec_quiesceComplete, execQuiesceComplete]
  exact eventStep_of_some (if_pos (by simp [hpower, hsaved]))

theorem readThermal_run (h : Commands s 0x11 0) : ∃ u out, exec .readThermal s = .next u ∧
    u = Stated.completed (goTaken s) (fld s.mgmt.mbCmd 16 16) 0 out ∧ out.length = 12 := by
  refine ⟨_, _, (exec_readThermal s).trans (eventStep_of_some (mailCmd_run h _)), rfl, ?_⟩
  refine length_thermal fun q => ?_
  simp only [List.length_append, length_bytesLE]

theorem setRoute_run (h : Commands s 0x30 2) (hclass : payload s 0 1 < 16)
    (hgood : routeBad (payload s 0 1) (payload s 1 1 &&& 0x3B) = false) (hsaved : ∀ x ∈ s.launches, x.2.saved = true) :
    exec .setRoute s = .next (Stated.completed { goTaken s with
      routes := (goTaken s).routes.set (payload s 0 1) (BitVec.ofNat 8 (payload s 1 1 &&& 0x3B)) }
        (fld s.mgmt.mbCmd 16 16) 0 []) := by
  rw [← buf_eq] at hclass
  simp only [← buf_eq] at hgood ⊢
  have hall : s.launches.any (fun x => !x.2.saved) = false := by
    rw [List.any_eq_false]
    intro x hx
    simp [hsaved x hx]
  have hok : (routeBad (s.mgmt.buf 0) (s.mgmt.buf 1 &&& 0x3B) || s.launches.any (fun x => !x.2.saved)) = false := by
    rw [hgood, hall]
    rfl
  rw [exec_setRoute, execSetRoute, eventStep_of_some (mailCmd_run h _)]
  exact congrArg _ ((if_neg (Nat.not_le.mpr hclass)).trans ((if_neg (ne_true_of_eq_false hok)).trans rfl))

theorem setRoute_refused (h : Commands s 0x30 2) (hclass : payload s 0 1 < 16)
    (hbad : routeBad (payload s 0 1) (payload s 1 1 &&& 0x3B) = true) :
    exec .setRoute s = .next (Stated.completed (goTaken s) (fld s.mgmt.mbCmd 16 16) 3 []) := by
  rw [← buf_eq] at hclass
  simp only [← buf_eq] at hbad
  have hor : (routeBad (s.mgmt.buf 0) (s.mgmt.buf 1 &&& 0x3B) || s.launches.any (fun x => !x.2.saved)) = true := by
    rw [hbad]
    rfl
  rw [exec_setRoute, execSetRoute, eventStep_of_some (mailCmd_run h _)]
  exact congrArg _ ((if_neg (Nat.not_le.mpr hclass)).trans ((if_pos hor).trans rfl))

theorem peerEnable_run (h : Commands s 0x31 1) : exec .peerEnable s = .next (Stated.completed
    { goTaken s with mgmt := { (goTaken s).mgmt with peerMask := payload s 0 1 } } (fld s.mgmt.mbCmd 16 16) 0 []) := by
  rw [← buf_eq, exec_peerEnable, execPeerEnable, eventStep_of_some (mailCmd_run h _)]
  rfl

theorem attest_run (h : Commands s 0x40 32) (hkey : s.mgmt.oneTimeKey < 2 ^ 20) : exec .attest s =
    .next (Stated.completed { goTaken s with mgmt := { (goTaken s).mgmt with oneTimeKey := s.mgmt.oneTimeKey + 1 } }
      (fld s.mgmt.mbCmd 16 16) 0 (attestation s)) := by
  rw [exec_attest, execAttest, eventStep_of_some (mailCmd_run h _)]
  exact congrArg _ ((if_neg (Nat.not_le.mpr hkey)).trans rfl)

theorem attest_exhausted (h : Commands s 0x40 32) (hkey : 2 ^ 20 ≤ s.mgmt.oneTimeKey) :
    exec .attest s = .next (Stated.completed (goTaken s) (fld s.mgmt.mbCmd 16 16) 4 []) := by
  rw [exec_attest, execAttest, eventStep_of_some (mailCmd_run h _)]
  exact congrArg _ ((if_pos hkey).trans rfl)

/-- For any word, so that no number is evaluated. -/
theorem answer_inject (s : State) (v : Word) : answer { s with mgmt := { s.mgmt with inject := v } } 0 [] =
    Stated.completed { s with mgmt := { s.mgmt with inject := v } } (fld s.mgmt.mbCmd 16 16) 0 [] := rfl

theorem inject_run (h : Commands s 0x50 8) (hgood : injectBad (payload s 0 8) = false) : exec .inject s =
    .next (Stated.completed { goTaken s with mgmt := { (goTaken s).mgmt with
      inject := BitVec.ofNat 64 (payload s 0 8 / 2 ^ 37 * 2 ^ 37) } } (fld s.mgmt.mbCmd 16 16) 0 []) := by
  have hbuf : (goTaken s).mgmt.bufAt 0 8 = payload s 0 8 := rfl
  rw [exec_inject, execInject, eventStep_of_some (mailCmd_run h _)]
  dsimp only
  rw [hbuf, hgood, if_neg Bool.false_ne_true]
  exact congrArg _ (answer_inject (goTaken s) (BitVec.ofNat 64 (payload s 0 8 / 2 ^ 37 * 2 ^ 37)))

theorem inject_bad (h : Commands s 0x50 8) (hbad : injectBad (payload s 0 8) = true) :
    exec .inject s = .next (Stated.completed (goTaken s) (fld s.mgmt.mbCmd 16 16) 2 []) := by
  rw [exec_inject, execInject, eventStep_of_some (mailCmd_run h _)]
  exact congrArg _ (if_pos hbad)

theorem badOpc_run (hgo : s.mgmt.go = true) (hbusy : s.mgmt.mbStatus.getLsbD 0 = false)
    (hopc : fld s.mgmt.mbCmd 0 16 ∉ mailCodes) : exec .badOpc s =
      .next (Stated.completed (goTaken s) (fld s.mgmt.mbCmd 16 16) (if s.booted = true then 1 else 3) []) := by
  have hopc : s.mgmt.opc ∉ mailCodes := hopc
  have hfree : s.mgmt.busy = false := hbusy
  rw [exec_badOpc, execBadOpc]
  refine eventStep_of_some ((if_neg ?_).trans rfl)
  simp [hgo, hfree, hopc]

theorem setPower_unbooted (hgo : s.mgmt.go = true) (hbusy : s.mgmt.mbStatus.getLsbD 0 = false)
    (hopc : fld s.mgmt.mbCmd 0 16 = 0x10) (hbooted : s.booted = false) :
    exec .setPower s = .next (Stated.completed (goTaken s) (fld s.mgmt.mbCmd 16 16) 3 []) := by
  rw [exec_setPower, execSetPower,
    eventStep_of_some (mailCmd_unbooted hgo hbusy hopc (by decide) hbooted _)]
  rfl

/-- Nothing starts while BUSY, or without GO (R420). -/
theorem mailbox_idle (h : s.mgmt.mbStatus.getLsbD 0 = true ∨ s.mgmt.go = false) :
    ∀ i ∈ [Instr.readLog, .readCounters, .selectPerf, .setPower, .readThermal, .preempt, .resume, .kill, .setRoute,
      .peerEnable, .attest, .inject, .badOpc], exec i s = .next s := by
  have hcmd (opc need : Nat) (f : State → State) : eventStep (mailCmd opc need f) s = .next s :=
    eventStep_of_none (mailCmd_idle h opc need f)
  have hslot (opc : Nat) (f : State → Nat → Launch → State) : eventStep (slotCmd opc f) s = .next s :=
    eventStep_of_none (mailCmd_idle h opc 2 _)
  have hbad : eventStep tryBadOpc s = .next s := by
    refine eventStep_of_none (if_pos ?_)
    rcases h with hbusy | hgo
    · have hbusy : s.mgmt.busy = true := hbusy
      simp [hbusy]
    · simp [hgo]
  simp only [List.forall_mem_cons, List.not_mem_nil, false_implies, implies_true, and_true]
  exact ⟨(exec_readLog s).trans (hcmd ..), (exec_readCounters s).trans (hcmd ..), (exec_selectPerf s).trans (hcmd ..),
    (exec_setPower s).trans (hcmd ..), (exec_readThermal s).trans (hcmd ..), (exec_preempt s).trans (hslot ..),
    (exec_resume s).trans (hslot ..), (exec_kill s).trans (hslot ..), (exec_setRoute s).trans (hcmd ..),
    (exec_peerEnable s).trans (hcmd ..), (exec_attest s).trans (hcmd ..), (exec_inject s).trans (hcmd ..),
    (exec_badOpc s).trans hbad⟩

end

/-- Settles O35. -/
theorem mailboxCommands : Obligations.MailboxCommands := by
  unfold Obligations.MailboxCommands
  refine ⟨fun s => ?_, fun s h => mailbox_idle h⟩
  intro m g tag done buf
  exact ⟨readLog_run, readCounters_run, readCounters_bad, selectPerf_run, setPower_reduced, setPower_sleep,
    setPower_refused, setPower_quiesce, quiesceComplete_run, readThermal_run, fun _ => preempt_run, fun _ => resume_run,
    fun _ => resume_bad, fun _ => kill_run, kill_none, setRoute_run, setRoute_refused, peerEnable_run,
    fun h hkey => ⟨_, _, attest_run h hkey, rfl, attestation_fields s⟩, attest_exhausted, inject_run, inject_bad, badOpc_run,
    setPower_unbooted⟩

end Sys2Proof.Proofs
end

section

/-! Boot, link keys, the interlock and the temperature of the compute dies (R416, R426, R428). -/

namespace Sys2Proof.Proofs

open Sys2Proof.Machine Sys2Proof.Laws Sys2Proof.Stated

/-! ### Boot (R426) -/

/-- The module that a verified boot leaves: `r` is what the reset left. -/
def bootedFrom (r : State) (firmware : List Byte) (c : CfgImage) : State :=
  { r with
    tiles := repaired c.repair, tileMap := c.tileMap.map (fun m => m.map mapFrom)
    routes := (List.range 16).map (routeFrom c.routes), pools := c.pools, nodeAreas := c.nodes
    queues := (List.range 16).map (fun i =>
      let q := c.queues.getD i (0, 0)
      (⟨q.1, q.2, 0, 0, [], []⟩ : LaunchQueue))
    booted := true
    mgmt := { r.mgmt with
      minVersion := c.version, version := c.version, power := .active, digest := imageDigests firmware c } }

section

variable {s : State}

theorem bootFailure_none (hfirm : s.ev.flag = true) (hconf : s.ev.flag2 = true)
    (hversion : s.mgmt.minVersion ≤ s.ev.img.version) : bootFailure s = 0 := by
  simp [bootFailure, hfirm, hconf, Nat.not_lt.mpr hversion]

theorem bootFailure_some (h : s.ev.flag = false ∨ s.ev.flag2 = false ∨ s.ev.img.version < s.mgmt.minVersion) :
    ∃ n, bootFailure s = n + 1 := by
  unfold bootFailure
  cases hfirm : s.ev.flag
  · exact ⟨0, rfl⟩
  · cases hconf : s.ev.flag2
    · exact ⟨1, rfl⟩
    · rcases h with h | h | h
      · exact absurd (h.symm.trans hfirm) (by decide)
      · exact absurd (h.symm.trans hconf) (by decide)
      · exact ⟨2, if_pos h⟩

theorem moduleReset_boots (h : bootFailure s = 0) :
    exec .moduleReset s = .next (bootedFrom (Machine.resetState s) s.ev.bytes s.ev.img) := by
  rw [exec_moduleReset, execModuleReset]
  refine eventStep_of_some ?_
  simp only [tryModuleReset, h]
  rfl

theorem moduleReset_refused {n : Nat} (h : bootFailure s = n + 1) :
    exec .moduleReset s = .next (logAt (Machine.resetState s) 0x0C 0 0 0 0 (n + 1)) := by
  rw [exec_moduleReset, execModuleReset]
  refine eventStep_of_some ?_
  simp only [tryModuleReset, h]

/-- What the reset leaves, but for the entry of a lost boot. -/
theorem resetState_keeps {γ : Type} (π : State → γ)
    (hpost : ∀ (s : State) l, π { s with mgmt := { s.mgmt with logWait := l } } = π s) : π (Machine.resetState s) =
      π { State.reset with
        agenda := s.agenda, ev := s.ev, fresh := s.fresh
        mgmt := { Mgmt.reset with minVersion := s.mgmt.minVersion, oneTimeKey := s.mgmt.oneTimeKey } } := by
  unfold Machine.resetState
  dsimp only
  split
  · exact hpost _ _
  · rfl

end

/-- The routes at reset are good. -/
theorem routeBad_reset : ∀ k, k < 16 → routeBad k ((List.replicate 15 (0 : BitVec 8) ++ [0x08]).getD k 0).toNat = false := by
  decide

theorem routeBad_routeFrom (l : List (BitVec 8)) {k : Nat} (hk : k < 16) : routeBad k (routeFrom l k).toNat = false := by
  unfold routeFrom
  dsimp only
  split
  · exact routeBad_reset k hk
  · next hgood => exact Bool.eq_false_iff.mpr hgood

theorem routes_booted (r : State) (b : List Byte) (c : CfgImage) {k : Nat} (hk : k < 16) :
    routeBad k ((bootedFrom r b c).routes.getD k 0).toNat = false := by
  have hroute : (bootedFrom r b c).routes.getD k 0 = routeFrom c.routes k := by
    simp [bootedFrom, hk]
  rw [hroute]
  exact routeBad_routeFrom _ hk

/-! ### Tile-map entries (R374) -/

theorem mapFrom_fields (e : BitVec 16) : mapFrom e &&& 0x7E00 = 0 ∧ fld (mapFrom e) 0 9 < 264 ∧
    (fld e 0 9 < 264 → fld (mapFrom e) 0 9 = fld e 0 9 ∧ (mapFrom e).getLsbD 15 = e.getLsbD 15) := by
  have hfld : fld (e &&& 0x81FF) 0 9 = fld e 0 9 := by
    refine Nat.eq_of_testBit_eq fun i => ?_
    simp only [fld, Nat.testBit_mod_two_pow, Nat.testBit_shiftRight, BitVec.toNat_and, Nat.testBit_and]
    by_cases hi : i < 9
    · have hmask : ∀ i, i < 9 → Nat.testBit (BitVec.toNat (0x81FF : BitVec 16)) (0 + i) = true := by decide
      simp only [hmask i hi, Bool.and_true]
    · simp [hi]
  unfold mapFrom
  split
  · next hbad => exact ⟨by decide, by decide, fun h => absurd h (Nat.not_lt.mpr hbad)⟩
  · next hgood =>
    refine ⟨?_, ?_, fun _ => ⟨hfld, ?_⟩⟩
    · rw [BitVec.and_assoc]
      exact BitVec.and_zero
    · rw [hfld]
      omega
    · rw [BitVec.getLsbD_and]
      exact Bool.and_true _

/-! ### The interlock (R428) -/

theorem hobbleWindow_leaves {s : State} (hhalves : (s.tile s.ev.who).halvedMatrix.length = 4)
    (hevents : (s.tile s.ev.who).evc.length = 8) : ∃ u, exec .hobbleWindow s = .next u ∧ u.mem = s.mem ∧
      (u.tile s.ev.who).halvedMatrix.getD (s.ev.idx % 4) false =
        (if s.ev.flag2 = true then !((s.tile s.ev.who).halvedMatrix.getD (s.ev.idx % 4) false) else !s.ev.flag) ∧
      (u.tile s.ev.who).evc.getD 3 0 = ((s.tile s.ev.who).evc.getD 3 0 + 1) % 2 ^ 64 := by
  have hquad : s.ev.idx % 4 < (s.tile s.ev.who).halvedMatrix.length := by omega
  refine ⟨_, (exec_hobbleWindow s).trans (eventStep_of_some (f := tryHobbleWindow) rfl), rfl, ?_, ?_⟩
  · rw [countEvent, State.tile_modTile, State.tile_setTile]
    simp [hquad]
  · rw [countEvent, State.tile_modTile, State.tile_setTile]
    simp [bump, hevents]

/-! ### The temperature of a compute die (R428) -/

section

variable {s : State}

theorem dieTemp_cool (h : s.ev.idx < 110) : exec .computeDieOvertemp s =
    .next { s with mgmt := { s.mgmt with dieTemp := s.mgmt.dieTemp.set s.ev.who s.ev.idx } } := by
  rw [exec_computeDieOvertemp, execComputeDieOvertemp]
  refine eventStep_of_some ?_
  simp only [tryComputeDieOvertemp, if_neg (show ¬ 110 ≤ s.ev.idx by omega), if_neg (show ¬ 125 ≤ s.ev.idx by omega)]

theorem dieTemp_warm (h : 110 ≤ s.ev.idx) (hlt : s.ev.idx < 125) : ∃ u, exec .computeDieOvertemp s = .next u ∧
    u.mgmt.power = s.mgmt.power ∧ u.mgmt.logWait.length = s.mgmt.logWait.length + 1 := by
  refine ⟨logAt { s with mgmt := { s.mgmt with dieTemp := s.mgmt.dieTemp.set s.ev.who s.ev.idx } } 0x0C 0 0 0 s.ev.who
    s.ev.idx, ?_, rfl, List.length_append⟩
  rw [exec_computeDieOvertemp, execComputeDieOvertemp]
  refine eventStep_of_some ?_
  simp only [tryComputeDieOvertemp, if_pos h, if_neg (show ¬ 125 ≤ s.ev.idx by omega)]

theorem dieTemp_hot (h : 125 ≤ s.ev.idx) : ∃ u, exec .computeDieOvertemp s = .next u ∧ u.mgmt.power = .removed ∧
    u.mgmt.overtemp = some (s.ev.who, s.ev.idx) := by
  exact ⟨_, (exec_computeDieOvertemp s).trans
    (eventStep_of_some (f := tryComputeDieOvertemp) (congrArg some (if_pos h))), rfl, rfl⟩

end

/-- Settles O36. -/
theorem moduleEvents : Obligations.ModuleEvents := by
  unfold Obligations.ModuleEvents
  refine ⟨?boot, mapFrom_fields, ?keys, ?hobble, ?temperature, ?kept, ?removed⟩
  case boot =>
    intro s c
    refine ⟨fun hfirm hconf hversion => ?_, fun h => ?_⟩
    · refine ⟨_, moduleReset_boots (bootFailure_none hfirm hconf hversion), rfl, rfl, rfl, ?_, rfl,
        fun k hk => routes_booted _ _ _ hk, rfl, rfl, ?_, ?_, ?_, ?_, ?_, rfl, rfl⟩
      · exact resetState_keeps (fun r => r.mgmt.oneTimeKey) (fun _ _ => rfl)
      · exact resetState_keeps State.mem (fun _ _ => rfl)
      · exact resetState_keeps State.ctxs (fun _ _ => rfl)
      · exact resetState_keeps State.launches (fun _ _ => rfl)
      · exact resetState_keeps State.pkts (fun _ _ => rfl)
      · exact resetState_keeps (fun r => r.mgmt.log) (fun _ _ => rfl)
    · obtain ⟨n, hn⟩ := bootFailure_some h
      refine ⟨_, moduleReset_refused hn, ?_, ?_, List.append_ne_nil_of_right_ne_nil _ (List.cons_ne_nil _ _)⟩
      · exact resetState_keeps State.booted (fun _ _ => rfl)
      · exact resetState_keeps (fun r => r.mgmt.minVersion) (fun _ _ => rfl)
  case keys =>
    intro s
    rw [exec_ideKm, execIdeKm]
    exact eventStep_of_some rfl
  case hobble =>
    intro s t k x hhalves hevents
    exact hobbleWindow_leaves hhalves hevents
  case temperature =>
    intro s d
    exact ⟨dieTemp_cool, dieTemp_warm, dieTemp_hot⟩
  case kept =>
    intro s q temp hkept hfirm hconf hversion
    refine ⟨_, moduleReset_boots (bootFailure_none hfirm hconf hversion), ?_, ?_⟩
    · exact resetState_keeps (fun r => r.mgmt.overtemp) (fun _ _ => rfl)
    · show (Machine.resetState s).mgmt.logWait = _
      simp only [Machine.resetState, hkept]
      rfl
  case removed =>
    intro s hpower hagenda
    rw [step, if_pos hpower, hagenda]

end Sys2Proof.Proofs
end

section

/-! The lifeline controllers: entry, the five operations, and the reply (R379-R393). -/

namespace Sys2Proof.Proofs

open Sys2Proof.Machine Sys2Proof.Laws Sys2Proof.Stated

/-! ### Entry (R381, R385) -/

section

variable {s : State} {id : Nat} {p : Packet} {r : LifeReq} (hitem : item s s.ev.who s.ev.idx = some (id, p))
  (hwork : p.work = .lifeline r) (hfirst : requestBefore s s.ev.who s.ev.idx = false)

include hitem hwork hfirst

theorem lifelineEntry_forwarded (hlow : 1026 ≤ p.src) (hhigh : p.src < 1030) : exec .lifelineEntryRequest s =
    .next (queueLife (finish s id none) ((s.ev.who + 2) % 4) r) := by
  rw [exec_lifelineEntryRequest, execLifelineEntryRequest]
  refine eventStep_of_some ?_
  simp only [tryLifelineEntryRequest, hitem, hwork, hfirst, Bool.false_eq_true, if_false]
  exact if_pos ⟨hlow, hhigh⟩

theorem lifelineEntry_waits (hsrc : p.src < 1024) (hbusy : (lifeAt s ((s.ev.who + 2) % 4)).queue ≠ []) :
    exec .lifelineEntryRequest s = .next s := by
  have hqueue : (!(lifeAt s ((s.ev.who + 2) % 4)).queue.isEmpty) = true := by simpa using hbusy
  rw [exec_lifelineEntryRequest, execLifelineEntryRequest]
  refine eventStep_of_none ?_
  simp only [tryLifelineEntryRequest, hitem, hwork, hfirst, Bool.false_eq_true, if_false, hqueue, if_true]
  exact if_neg (by omega)

/-- A request that enters here is taken when nothing stands before it. -/
theorem lifelineEntry_enters {u : State} (hsrc : p.src < 1024) (hidle : (lifeAt s ((s.ev.who + 2) % 4)).queue = [])
    (h : enterLife (finish s id none) ((s.ev.who + 2) % 4) r = some u) : exec .lifelineEntryRequest s = .next u := by
  rw [exec_lifelineEntryRequest, execLifelineEntryRequest]
  refine eventStep_of_some ?_
  simp only [tryLifelineEntryRequest, hitem, hwork, hfirst, Bool.false_eq_true, if_false, hidle, List.isEmpty_nil,
    Bool.not_true]
  exact (if_neg (by omega)).trans h

end

section

variable {s : State} {e : Nat} {r : LifeReq}

theorem enterLife_stat (h : r.opc = 0xF6) : enterLife s e r = some (queueLife s e r) := if_pos h

theorem enterLife_unknown (hopc : r.opc = 0xF3) (h : treeOf s e r = none) :
    enterLife s e r = some (lifeFail s e r 6 false) := by
  simp [enterLife, hopc, h]

theorem enterLife_routed {s1 : State} {t : Tree} {b : List Byte} (hopc : r.opc = 0xF3) (h : treeOf s e r = some t)
    (hcount : t.chunk ≤ r.count) (hread : lifeRead s r r.sym (4 * t.chunk) = .ok s1 b) :
    enterLife s e r = some (routeLife s1 e (fnvBytes 0xCBF29CE484222325 b / 2 ^ 62) r) := by
  simp [enterLife, hopc, h, Nat.not_lt.mpr hcount, hread]

end

/-! ### The operations (R387-R390) -/

section

variable {s s1 : State} {opc op : Nat} {r : LifeReq}

theorem takeLife_takes (h : Takes s s1 opc op r) : takeLife s opc op = some (s.ev.who, r, s1) := by
  obtain ⟨rest, hqueue, hopc, hop, hwho, hstall, rfl⟩ := h
  simp only [takeLife, hqueue]
  exact if_pos ⟨hopc, hop, hwho, hstall⟩

theorem lfindPerform_takes {u : State} (h : Takes s s1 0xF3 0 r) (hstep : performFind s1 s.ev.who r = some u) :
    exec .lfindPerform s = .next u := by
  rw [exec_lfindPerform, execLfindPerform]
  refine eventStep_of_some ?_
  simp only [tryLfindPerform, takeLife_takes h]
  exact hstep

theorem lputPerform_takes {u : State} (h : Takes s s1 0xF4 0 r) (hstep : performPut s1 s.ev.who r = some u) :
    exec .lputPerform s = .next u := by
  rw [exec_lputPerform, execLputPerform]
  refine eventStep_of_some ?_
  simp only [tryLputPerform, takeLife_takes h]
  exact hstep

end

section

variable {s : State} {q : Nat} {r : LifeReq}

theorem performFind_unknown (h : treeOf s q r = none) : performFind s q r = some (lifeFail s q r 6 false) := by
  simp [performFind, h]

/-- How far an input matches the tree. -/
def matched (s : State) (q : Nat) (r : LifeReq) (t : Tree) (b : List Byte) : Match :=
  walkTree s q r.tree (4 * t.chunk) (chunkKeys (4 * t.chunk) (r.count / t.chunk) b) b ⟨none, 0, false⟩

/-- The state after the walk of an input, with its counters. -/
def walked (s : State) (q : Nat) (r : LifeReq) (t : Tree) (b : List Byte) : State :=
  countLife (countLife (countLife
    (touchWalk s q r.tree (4 * t.chunk) (chunkKeys (4 * t.chunk) (r.count / t.chunk) b) b) q r.tree 0 1) q r.tree 1
    (matched s q r t b).depth) q r.tree 2 (matched s q r t b).collision.toNat

section

variable {s2 : State} {t : Tree} {b : List Byte} {i : Nat} {x : Node} (htree : treeOf s q r = some t)
  (hread : lifeRead s r r.sym (r.count / t.chunk * (4 * t.chunk)) = .ok s2 b)

include htree hread

/-- An input that matches no node. -/
theorem performFind_none (hnode : (matched s2 q r t b).node = none) : performFind s q r =
    some (lifeFail (tickLife (walked s2 q r t b) q) q r (if (matched s2 q r t b).collision = true then 3 else 0)
      false) := by
  simp only [matched] at hnode
  simp only [performFind, htree, hread, hnode, Option.bind_none]
  rfl

variable (hnode : (matched s2 q r t b).node = some i) (hx : tabFind (lifeAt (walked s2 q r t b) q).nodes i = some x)

include hnode hx

theorem performFind_full (hpin : pinPath (walked s2 q r t b) q r.lslot i = none) : performFind s q r =
    some (lifeAnswer (tickLife (walked s2 q r t b) q) q r 5 false (nodeResult 5 t q i x 0 false)) := by
  simp only [walked, matched] at hnode hx hpin ⊢
  simp only [performFind, htree, hread, hnode, hx, hpin, Option.bind_some, Option.map_some]

theorem performFind_pinned {pin : Nat} {s4 : State} (hpin : pinPath (walked s2 q r t b) q r.lslot i = some (pin, s4)) :
    performFind s q r = some (lifeAnswer (tickLife s4 q) q r (if (matched s2 q r t b).collision = true then 3 else 0) false
      (nodeResult (if (matched s2 q r t b).collision = true then 3 else 0) t q i x pin true)) := by
  simp only [walked, matched] at hnode hx hpin ⊢
  simp only [performFind, htree, hread, hnode, hx, hpin, Option.bind_some, Option.map_some]
  rfl

end

theorem performPut_step {s2 s3 : State} {t : Tree} {b snap : List Byte} (htree : treeOf s q r = some t)
    (hread : lifeRead s r r.sym (4 * r.count) = .ok s2 b)
    (hsnap : lifeRead s2 r (natAt r.block 16 8) (if natAt r.block 13 1 = 3 then 128 else natAt r.block 24 4) = .ok s3 snap)
    (hlist : natAt r.block 13 1 = 3 → listOk snap (natAt r.block 24 4) = true) :
    performPut s q r = some (putStep s3 q r t b snap) := by
  have hok : ((natAt r.block 13 1 == 3) && !listOk snap (natAt r.block 24 4)) = false := by
    by_cases hpages : natAt r.block 13 1 = 3
    · simp [hlist hpages]
    · simp [hpages]
  have hpages : (if (natAt r.block 13 1 == 3) = true then 128 else natAt r.block 24 4) =
      if natAt r.block 13 1 = 3 then 128 else natAt r.block 24 4 := if_congr beq_iff_eq rfl rfl
  simp only [performPut, htree, hread, hpages, hsnap, hok, Bool.false_eq_true, if_false]

end

/-! ### LPUT at its shard (R388) -/

section

variable (s : State) (q : Nat) (r : LifeReq) (t : Tree) (b snap : List Byte)

/-- The keys of the chunks of an input. -/
def putKeys : List Nat := chunkKeys (4 * t.chunk) (r.count / t.chunk) b

/-- How far the chunks before the last match. -/
def putMatch : Match :=
  walkTree s q r.tree (4 * t.chunk) ((putKeys r t b).take (r.count / t.chunk - 1)) b ⟨none, 0, false⟩

/-- The state after the walk. -/
def putWalk : State := touchWalk s q r.tree (4 * t.chunk) (putKeys r t b) b

/-- The key of the last chunk. -/
def putKey : Nat := (putKeys r t b).getD (r.count / t.chunk - 1) 0

/-- The last chunk. -/
def putChunk : List Byte := b.drop ((r.count / t.chunk - 1) * (4 * t.chunk))

variable {s q r t b} (hcoll : (putMatch s q r t b).collision = false)
  (hdepth : (putMatch s q r t b).depth + 1 = r.count / t.chunk)

include hcoll hdepth

theorem putStep_found {i : Nat} {x : Node} (hfind : (lifeAt (putWalk s q r t b) q).find r.tree (putKey r t b) = some (i, x))
    (hsame : memRead (putWalk s q r t b).mem (poolKey (putWalk s q r t b) q x.syms) (4 * t.chunk) = putChunk r t b) :
    putStep s q r t b snap = lifeAnswer (countLife (tickLife (putWalk s q r t b) q) q r.tree 4 1) q r 1 false
      (nodeResult 1 t q i x 0 true) := by
  have hdeep : ¬ (putMatch s q r t b).depth + 1 < r.count / t.chunk := by omega
  simp only [putMatch, putKeys, putWalk, putKey, putChunk] at hcoll hdeep hfind hsame ⊢
  simp only [putStep, hcoll, Bool.false_eq_true, if_false, hdeep, hfind, hsame, if_true]
  rfl

theorem putStep_created {s1 : State} {p : Nat × Nat}
    (hfind : (lifeAt (putWalk s q r t b) q).find r.tree (putKey r t b) = none)
    (hroom : makeRoom (putWalk s q r t b) q r.tree t.nmax (4 * t.chunk) snap.length (putMatch s q r t b).node (2 ^ 20 + 1) =
      (s1, some p)) :
    let c := createNode s1 q r (putMatch s q r t b).node (putKey r t b) (r.count / t.chunk) p (putChunk r t b) snap
    putStep s q r t b snap = lifeAnswer (countLife (tickLife c.1 q) q r.tree 3 1) q r 0 false
      (nodeResult 0 t q c.2.1 c.2.2 0 true) := by
  have hdeep : ¬ (putMatch s q r t b).depth + 1 < r.count / t.chunk := by omega
  simp only [putMatch, putKeys, putWalk, putKey, putChunk] at hcoll hdeep hfind hroom ⊢
  simp only [putStep, hcoll, Bool.false_eq_true, if_false, hdeep, hfind, hroom]
  rfl

end

/-! ### LREL and LSTAT (R389, R390) -/

section

variable {s s1 : State} {r : LifeReq}

theorem lrelPerform_takes (h : Takes s s1 0xF5 0 r) :
    (r.pin = 0 → exec .lrelPerform s = .next (lifeFail s1 s.ev.who r 0 false)) ∧
    (r.pin ≠ 0 → (lifeAt s1 s.ev.who).holds r.pin r.lslot = true → exec .lrelPerform s =
      .next (lifeFail (setLife s1 s.ev.who ((lifeAt s1 s.ev.who).unpin (r.pin % 4096))) s.ev.who r 0 false)) ∧
    (r.pin ≠ 0 → (lifeAt s1 s.ev.who).holds r.pin r.lslot = false →
      exec .lrelPerform s = .next (lifeFail s1 s.ev.who r 10 false)) := by
  rw [exec_lrelPerform, execLrelPerform]
  refine ⟨fun hpin => ?_, fun hpin hheld => ?_, fun hpin hheld => ?_⟩
  · refine eventStep_of_some ?_
    simp only [tryLrelPerform, takeLife_takes h]
    exact if_pos hpin
  · refine eventStep_of_some ?_
    simp only [tryLrelPerform, takeLife_takes h]
    exact (if_neg hpin).trans (if_pos hheld)
  · refine eventStep_of_some ?_
    simp only [tryLrelPerform, takeLife_takes h]
    exact (if_neg hpin).trans (if_neg (ne_true_of_eq_false hheld))

theorem lstatRead_takes (h : Takes s s1 0xF6 0 r) (htree : treeOf s1 s.ev.who r ≠ none) :
    exec .lstatReadPerform s = .next (lifeAnswer s1 s.ev.who r 0 false ((List.range 8).flatMap (fun i =>
      bytesLE 8 ((s1.life.map (fun l => (l.report r.tree).getD i 0)).sum % 2 ^ 64)))) := by
  obtain ⟨t, ht⟩ := Option.ne_none_iff_exists'.mp htree
  rw [exec_lstatReadPerform, execLstatReadPerform]
  refine eventStep_of_some ?_
  simp only [tryLstatReadPerform, takeLife_takes h, ht]

theorem lstatConfig_new (h : Takes s s1 0xF6 1 r) (htree : tabFind (lifeAt s1 s.ev.who).trees r.tree = none) :
    exec .lstatConfigPerform s = .next (lifeAnswer { s1 with life := s1.life.map (fun l => { l with
      trees := tabSet l.trees r.tree (treeFrom r.block), stats := tabDel l.stats r.tree }) } s.ev.who r 0 false
      (bytesLE 1 0)) := by
  rw [exec_lstatConfigPerform, execLstatConfigPerform]
  refine eventStep_of_some ?_
  simp only [tryLstatConfigPerform, takeLife_takes h, htree]
  rfl

theorem lstatConfig_open (h : Takes s s1 0xF6 1 r) (htree : (tabFind (lifeAt s1 s.ev.who).trees r.tree).isSome = true) :
    exec .lstatConfigPerform s = .next (lifeAnswer s1 s.ev.who r 9 false (bytesLE 1 9)) := by
  rw [exec_lstatConfigPerform, execLstatConfigPerform]
  refine eventStep_of_some ?_
  simp only [tryLstatConfigPerform, takeLife_takes h, htree, if_true]

/-- No controller keeps a closed tree. -/
theorem lstatClose_free (h : Takes s s1 0xF6 2 r) (htree : treeOf s1 s.ev.who r ≠ none)
    (hfree : ∀ l ∈ s1.life, (l.report r.tree).getD 7 0 = 0) :
    ∃ u, exec .lstatClosePerform s = .next u ∧ ∀ l ∈ u.life, tabFind l.trees r.tree = none := by
  obtain ⟨t, ht⟩ := Option.ne_none_iff_exists'.mp htree
  have hnone : s1.life.any (fun l => (l.report r.tree).getD 7 0 != 0) = false := by
    rw [List.any_eq_false]
    intro l hl
    rw [hfree l hl]
    decide
  have hstep : tryLstatClosePerform s = some (lifeAnswer
      { (List.range 4).foldl (fun (s : State) (k : Nat) => evictTree s k r.tree (lifeAt s k).nodes.length) s1 with
        life := ((List.range 4).foldl (fun (s : State) (k : Nat) =>
          evictTree s k r.tree (lifeAt s k).nodes.length) s1).life.map (fun l => { l with trees := tabDel l.trees r.tree }) }
      s.ev.who r 0 false (bytesLE 1 0)) := by
    simp only [tryLstatClosePerform, takeLife_takes h, ht]
    exact if_neg (ne_true_of_eq_false hnone)
  refine ⟨_, (exec_lstatClosePerform s).trans (eventStep_of_some hstep), ?_⟩
  rw [lifeAnswer, sendWork, sendTagged_keeps (π := State.life) _ _ _ _ _ _ _ (fun _ _ _ _ => rfl)]
  intro l hl
  obtain ⟨l', -, rfl⟩ := List.mem_map.mp hl
  exact tabFind_tabDel ..

theorem lstatClose_pinned (h : Takes s s1 0xF6 2 r) (htree : treeOf s1 s.ev.who r ≠ none)
    (hpinned : ∃ l ∈ s1.life, (l.report r.tree).getD 7 0 ≠ 0) :
    exec .lstatClosePerform s = .next (lifeAnswer s1 s.ev.who r 9 false (bytesLE 1 9)) := by
  obtain ⟨t, ht⟩ := Option.ne_none_iff_exists'.mp htree
  have hany : s1.life.any (fun l => (l.report r.tree).getD 7 0 != 0) = true := by
    obtain ⟨l, hl, hne⟩ := hpinned
    exact List.any_eq_true.mpr ⟨l, hl, by simpa using hne⟩
  rw [exec_lstatClosePerform, execLstatClosePerform]
  refine eventStep_of_some ?_
  simp only [tryLstatClosePerform, takeLife_takes h, ht]
  exact if_pos hany

end

/-! ### Replies (R385) -/

section

variable {s : State} {id st cls : Nat} {p : Packet} {r : LifeReq} {data : List Byte}
  (hitem : item s s.ev.who s.ev.idx = some (id, p)) (hwork : p.work = .lifeReply r st cls data)

include hitem hwork

theorem lifelineReply_issuer (hkeyed : r.keyed = none) (hfree : guarded s (keyScratch s.ev.who r.l) data.length = false) :
    exec .lifelineReply s = .next (sendArrival (arrayStore (finish s id none) (keyScratch s.ev.who r.l) data 0) s.ev.who
      r.lslot r.bar (cls != 0) cls 0) := by
  have hguard : guarded (finish s id none) (keyScratch s.ev.who r.l) data.length = false := by
    rw [guarded, finish_tile]
    exact hfree
  rw [exec_lifelineReply, execLifelineReply]
  refine eventStep_of_some ?_
  simp only [tryLifelineReply, hitem, hwork, hkeyed, hguard, Bool.false_and, Bool.false_eq_true, if_false]

theorem lifelineReply_keyed {n : Nat} {l : Launch} (hkeyed : r.keyed = some n) (hlaunch : s.launch n = some l) :
    exec .lifelineReply s = .next ((finish s id none).setLaunch n { l with
      lookup := if st < 4 then data else data.take 4 ++ List.replicate 4 0 ++ data.drop 8 }) := by
  have hslot : (finish s id none).launch n = some l :=
    (finish_keeps (State.launch · n) (fun _ _ => rfl) (fun _ _ => rfl) (fun _ _ => rfl) ..).trans hlaunch
  rw [exec_lifelineReply, execLifelineReply]
  refine eventStep_of_some ?_
  simp only [tryLifelineReply, hitem, hwork, hkeyed, hslot]

end

/-! ### Nodes in memory (R382) -/

theorem nodeBytes_fields (q va : Nat) (n : Node) : (nodeBytes q va n).length = 64 ∧
    natAt (nodeBytes q va n) 0 8 = n.key.toNat ∧ natAt (nodeBytes q va n) 12 4 = n.depth % 2 ^ 32 ∧
    natAt (nodeBytes q va n) 16 1 = (if n.pages = true then 3 else 2) ∧
    natAt (nodeBytes q va n) 20 4 = n.nchild % 2 ^ 32 ∧ natAt (nodeBytes q va n) 24 4 = n.refs % 2 ^ 32 ∧
    natAt (nodeBytes q va n) 28 4 = n.stamp % 2 ^ 32 := by
  have hkey : n.key.toNat < 256 ^ 8 := n.key.isLt
  simp only [nodeBytes, List.append_assoc]
  refine ⟨?_, ?_, ?_, ?_, ?_, ?_, ?_⟩
  · simp only [List.length_append, length_bytesLE]
  · rw [natAt_first, Nat.mod_eq_of_lt hkey]
  · simp (disch := omega) only [natAt_skip]
    exact natAt_first
  · simp (disch := omega) only [natAt_skip]
    cases n.pages <;> rfl
  · simp (disch := omega) only [natAt_skip]
    exact natAt_first
  · simp (disch := omega) only [natAt_skip]
    exact natAt_first
  · simp (disch := omega) only [natAt_skip]
    exact natAt_first

/-- The bytes of a node that changes are written in the node area. -/
theorem memRead_setLife {s : State} {q i : Nat} {l : Lifeline} {b : List Byte} (hbase : s.nodeAreas.getD q 0 ≠ 0)
    (hwrites : nodeWrites q (lifeAt s q) l = [(i, b)]) (hlen : b.length = 64) (hm : s.MemOk)
    (hon : pageOff s (s.nodeAreas.getD q 0 + 64 * i) = false) :
    memRead (setLife s q l).mem (s.nodeAreas.getD q 0 + 64 * i) 64 = b := by
  have hset : setLife s q l = engWrite { s with life := s.life.set q l } (s.nodeAreas.getD q 0 + 64 * i) b := by
    have hon' : pageOff { s with life := s.life.set q l } (s.nodeAreas.getD q 0 + 64 * i) = false := hon
    simp only [setLife, hbase, if_false, hwrites, List.foldl_cons, List.foldl_nil, areaWrite, hon']
    rfl
  have hne : b.isEmpty = false := by
    cases b with
    | nil => simp at hlen
    | cons _ _ => rfl
  rw [hset, engWrite, hne, if_neg Bool.false_ne_true]
  dsimp only
  have hread := memRead_memWrite (s.nodeAreas.getD q 0 + 64 * i) 0 64 b
    (m := (touchPage (clearPoison (drainN { s with life := s.life.set q l } (homeTile (s.nodeAreas.getD q 0 + 64 * i))
      (drainCount (State.tile { s with life := s.life.set q l } (homeTile (s.nodeAreas.getD q 0 + 64 * i))).merge
        (s.nodeAreas.getD q 0 + 64 * i) b.length)) (s.nodeAreas.getD q 0 + 64 * i) b.length)
      (s.nodeAreas.getD q 0 + 64 * i) b.length).mem) ?_ (by omega)
  · rw [Nat.add_zero, List.drop_zero, List.take_of_length_le (by omega)] at hread
    exact hread
  · rw [touchPage_keeps State.mem (fun _ _ _ => rfl), clearPoison_keeps State.mem (fun _ _ _ => rfl)]
    exact memOk_drainN _ _ _ hm

/-- Settles O33. -/
theorem lifelineEvents : Obligations.LifelineEvents := by
  unfold Obligations.LifelineEvents
  refine ⟨?entry, ?find, ?put, ?step, ?release, ?stat, ?issuer, ?keyed, nodeBytes_fields, ?area⟩
  case entry =>
    intro s id p r e hitem hwork hfirst
    refine ⟨lifelineEntry_forwarded hitem hwork hfirst, lifelineEntry_waits hitem hwork hfirst, fun hsrc hidle hopc => ?_,
      fun hsrc hidle hopc htree => ?_, fun t s1 b hsrc hidle hopc htree hcount hread => ?_⟩
    · exact lifelineEntry_enters hitem hwork hfirst hsrc hidle (enterLife_stat hopc)
    · exact lifelineEntry_enters hitem hwork hfirst hsrc hidle (enterLife_unknown hopc htree)
    · exact lifelineEntry_enters hitem hwork hfirst hsrc hidle (enterLife_routed hopc htree hcount hread)
  case find =>
    intro s s1 r q htakes
    refine ⟨fun htree => lfindPerform_takes htakes (performFind_unknown htree), fun t s2 b htree hread => ?_⟩
    intro ks m s3 st
    exact ⟨fun hnode => lfindPerform_takes htakes (performFind_none htree hread hnode),
      fun i x hnode hx hpin => lfindPerform_takes htakes (performFind_full htree hread hnode hx hpin),
      fun i x pin s4 hnode hx hpin => lfindPerform_takes htakes (performFind_pinned htree hread hnode hx hpin)⟩
  case put =>
    intro s s1 s2 s3 r t b snap q htakes htree hread hsnap hlist
    exact lputPerform_takes htakes (performPut_step htree hread hsnap hlist)
  case step =>
    intro s q r t b snap n j ks m w hcoll hdepth
    exact ⟨fun i x => putStep_found snap hcoll hdepth, fun s1 p => putStep_created snap hcoll hdepth⟩
  case release =>
    intro s s1 r q htakes
    exact lrelPerform_takes htakes
  case stat =>
    intro s s1 r q
    exact ⟨lstatRead_takes, lstatConfig_new, lstatConfig_open, lstatClose_free, lstatClose_pinned⟩
  case issuer =>
    intro s id st cls p r data t hitem hwork hkeyed hfree
    exact lifelineReply_issuer hitem hwork hkeyed hfree
  case keyed =>
    intro s id st cls n p r data l hitem hwork hkeyed hlaunch
    exact lifelineReply_keyed hitem hwork hkeyed hlaunch
  case area =>
    intro s q i l b base hbase hwrites hlen hm hon
    exact memRead_setLife hbase hwrites hlen hm hon

end Sys2Proof.Proofs
end

section

/-! The vault controllers and the walker: exchanges, heat, scrubbing, repair, retirement and walks (R245-R256, R281,
R371-R374). -/

namespace Sys2Proof.Proofs

open Sys2Proof.Machine Sys2Proof.Laws Sys2Proof.Stated

/-! ### What single actions leave of a tile -/

section

variable {β : Type} (π : Tile → β)

theorem tileField_setTile {s : State} {t : Nat} {x : Tile} (hx : π x = π (s.tile t)) (u : Nat) :
    π ((s.setTile t x).tile u) = π (s.tile u) := by
  by_cases hu : u = t
  · rw [hu, State.tile_setTile, hx]
  · rw [State.tile_setTile_other _ _ hu]

theorem tileField_modTile (s : State) (t : Nat) {f : Tile → Tile} (hf : ∀ x, π (f x) = π x) (u : Nat) :
    π ((s.modTile t f).tile u) = π (s.tile u) := tileField_setTile π (hf _) u

theorem tileField_startRepair (hcorrected : ∀ x p, π { x with corrected := p } = π x)
    (hrepair : ∀ x p, π { x with repair := p } = π x) (s : State) (t u : Nat) :
    π ((startRepair s t).tile u) = π (s.tile u) := by
  unfold startRepair
  dsimp only
  split
  · split
    · exact tileField_setTile π (hcorrected _ _) u
    · exact tileField_setTile π (hrepair _ _) u
  · rfl

theorem tileField_touchPage (hperf : ∀ x p, π { x with perf := p } = π x) (hremap : ∀ x p, π { x with remap := p } = π x)
    (s : State) (k n u : Nat) : π ((touchPage s k n).tile u) = π (s.tile u) := by
  unfold touchPage
  split
  · exact (tileField_countPerf _ _ _ _ π hperf u).trans (tileField_modTile π _ _ (fun _ => hremap _ _) u)
  · rfl

theorem tileField_fireRead (hcounted : ∀ x n l, π { x with fixes := n, corrected := l } = π x)
    (hcorrected : ∀ x p, π { x with corrected := p } = π x) (hrepair : ∀ x p, π { x with repair := p } = π x)
    (s : State) (k u : Nat) : π ((fireRead s k).tile u) = π (s.tile u) := by
  unfold fireRead
  split
  · unfold injFire
    dsimp only
    split
    · unfold countCorrected
      dsimp only
      split
      · exact (tileField_startRepair π hcorrected hrepair ..).trans (tileField_setTile π (hcounted ..) u)
      · exact tileField_setTile π (hcounted ..) u
    · rfl
  · rfl

end

/-! ### The cable engine (R246, R281) -/

section

variable {x : Tile} {p q : Nat}

theorem remapOf_markBusy (hpq : p ≠ q) (b : Bool) : (remapOf (markBusy x p q b) p).busy = b ∧
    (remapOf (markBusy x p q b) q).busy = b := by
  simp only [remapOf, markBusy]
  rw [tabGet_tabSet_other _ _ _ hpq, tabGet_tabSet_same, tabGet_tabSet_other _ _ _ hpq.symm]
  refine ⟨rfl, ?_⟩
  rw [tabGet_tabSet_same]

theorem remapOf_exchange (hpq : p ≠ q) :
    remapOf (exchange x p q) p = { remapOf x p with
      layer := (remapOf x q).layer, slot := (remapOf x q).slot, busy := false } ∧
    remapOf (exchange x p q) q = { remapOf x q with
      layer := (remapOf x p).layer, slot := (remapOf x p).slot, busy := false } ∧
    ∀ z, z ≠ p → z ≠ q → remapOf (exchange x p q) z = remapOf x z := by
  refine ⟨?_, ?_, fun z hp hq => ?_⟩
  · exact (tabGet_tabSet_other _ _ _ hpq).trans (tabGet_tabSet_same ..)
  · exact tabGet_tabSet_same ..
  · exact (tabGet_tabSet_other _ _ _ hq).trans (tabGet_tabSet_other _ _ _ hp)

end

section

variable {s : State}

/-- An exchange begins: both pages are marked. -/
theorem cableSwapStart_marks {p q ls : Nat} {bar : Option Bar} {r : List Swap} (hpq : p ≠ q)
    (hitem : swapItem s s.ev.who = none) (hswaps : (s.tile s.ev.who).swaps = ⟨p, some q, bar, false, ls⟩ :: r)
    (hp : (remapOf (s.tile s.ev.who) p).v = true) (hq : (remapOf (s.tile s.ev.who) q).v = true)
    (hlayer : (remapOf (s.tile s.ev.who) p).layer ≠ (remapOf (s.tile s.ev.who) q).layer)
    (hwaitp : swapWaits (s.tile s.ev.who) p = false) (hwaitq : swapWaits (s.tile s.ev.who) q = false) :
    ∃ u, exec .cableSwapStart s = .next u ∧ (remapOf (u.tile s.ev.who) p).busy = true ∧
      (remapOf (u.tile s.ev.who) q).busy = true ∧ (u.tile s.ev.who).swaps = ⟨p, some q, bar, true, ls⟩ :: r ∧
      u.mem = s.mem := by
  obtain ⟨hbusyp, hbusyq⟩ := remapOf_markBusy (x := s.tile s.ev.who) hpq true
  refine ⟨s.setTile s.ev.who { markBusy (s.tile s.ev.who) p q true with swaps := ⟨p, some q, bar, true, ls⟩ :: r }, ?_⟩
  rw [State.tile_setTile]
  refine ⟨?_, hbusyp, hbusyq, rfl, rfl⟩
  rw [exec_cableSwapStart, execCableSwapStart]
  refine eventStep_of_some ?_
  simp [tryCableSwapStart, hitem, startSwap, hswaps, hp, hq, hlayer, hwaitp, hwaitq]

/-- An exchange ends: exactly the two pages have changed places. -/
theorem cableSwapComplete_exchanges {p q ls : Nat} {bar : Option Bar} {r : List Swap} (hpq : p ≠ q)
    (hswaps : (s.tile s.ev.who).swaps = ⟨p, some q, bar, true, ls⟩ :: r) :
    ∃ u, exec .cableSwapComplete s = .next u ∧ (u.tile s.ev.who).swaps = r ∧ u.mem = s.mem ∧
      remapOf (u.tile s.ev.who) p = { remapOf (s.tile s.ev.who) p with
        layer := (remapOf (s.tile s.ev.who) q).layer, slot := (remapOf (s.tile s.ev.who) q).slot, busy := false } ∧
      remapOf (u.tile s.ev.who) q = { remapOf (s.tile s.ev.who) q with
        layer := (remapOf (s.tile s.ev.who) p).layer, slot := (remapOf (s.tile s.ev.who) p).slot, busy := false } ∧
      ∀ z, z ≠ p → z ≠ q → remapOf (u.tile s.ev.who) z = remapOf (s.tile s.ev.who) z := by
  have hstep : tryCableSwapComplete s = some (startRepair (sendArrival (s.setTile s.ev.who
      { exchange (s.tile s.ev.who) p q with swaps := r }) s.ev.who ls bar false 0 0) s.ev.who) := by
    simp only [tryCableSwapComplete, hswaps]
  refine ⟨_, (exec_cableSwapComplete s).trans (eventStep_of_some hstep), ?_, ?_, ?_⟩
  · rw [tileField_startRepair Tile.swaps (fun _ _ => rfl) (fun _ _ => rfl),
      sendArrival_keeps (State.tile · s.ev.who) (fun _ _ _ _ => rfl), State.tile_setTile]
  · refine (sameStores_startRepair ..).mem.trans ?_
    exact sendArrival_keeps State.mem (fun _ _ _ _ => rfl) ..
  · have hremap (z : Nat) : remapOf ((startRepair (sendArrival (s.setTile s.ev.who
        { exchange (s.tile s.ev.who) p q with swaps := r }) s.ev.who ls bar false 0 0) s.ev.who).tile s.ev.who) z =
        remapOf (exchange (s.tile s.ev.who) p q) z := by
      rw [tileField_startRepair (remapOf · z) (fun _ _ => rfl) (fun _ _ => rfl),
        sendArrival_keeps (State.tile · s.ev.who) (fun _ _ _ _ => rfl), State.tile_setTile]
      rfl
    rw [hremap, hremap]
    obtain ⟨hp, hq, hother⟩ := remapOf_exchange (x := s.tile s.ev.who) hpq
    exact ⟨hp, hq, fun z hzp hzq => (hremap z).trans (hother z hzp hzq)⟩

/-- A CSWAP of an offline page ends at once (R281, R373). -/
theorem cableSwapStart_offline {id : Nat} {k : Packet} {w : Swap} (hitem : swapItem s s.ev.who = some (id, k, w))
    (hstale : pktStale s k = false) (hswaps : (s.tile s.ev.who).swaps = [])
    (hoff : (remapOf (s.tile s.ev.who) w.p).v = false) (hq : w.q = none) (hbusy : w.busy = false) (hbar : w.bar ≠ none) :
    ∃ u, exec .cableSwapStart s = .next u ∧ (u.tile s.ev.who).swaps = [] ∧
      (u.tile s.ev.who).remap = (s.tile s.ev.who).remap := by
  obtain ⟨b, hb⟩ := Option.ne_none_iff_exists'.mp hbar
  have htile : ((finish s id none).modTile s.ev.who (fun x => { x with swaps := x.swaps ++ [w] })).tile s.ev.who =
      { s.tile s.ev.who with swaps := [w] } := by
    rw [State.tile_modTile, finish_tile, hswaps]
    rfl
  have hstart : startSwap ((finish s id none).modTile s.ev.who (fun x => { x with swaps := x.swaps ++ [w] })) s.ev.who =
      some (sendArrival (((finish s id none).modTile s.ev.who (fun x => { x with swaps := x.swaps ++ [w] })).setTile
        s.ev.who { s.tile s.ev.who with swaps := [] }) s.ev.who w.lslot w.bar true 1 0) := by
    have hoff' : (remapOf { s.tile s.ev.who with swaps := [w] } w.p).v = false := hoff
    simp only [startSwap, htile, hbusy, hoff', hq, hb]
    rfl
  have hstep : tryCableSwapStart s = some (sendArrival (((finish s id none).modTile s.ev.who (fun x => { x with
      swaps := x.swaps ++ [w] })).setTile s.ev.who { s.tile s.ev.who with swaps := [] }) s.ev.who w.lslot w.bar true 1
      0) := by
    simp only [tryCableSwapStart, hitem, hstale, hstart, Bool.false_eq_true, if_false, Option.getD_some]
  refine ⟨_, (exec_cableSwapStart s).trans (eventStep_of_some hstep), ?_, ?_⟩
  · rw [sendArrival_keeps (State.tile · s.ev.who) (fun _ _ _ _ => rfl), State.tile_setTile]
  · rw [sendArrival_keeps (State.tile · s.ev.who) (fun _ _ _ _ => rfl), State.tile_setTile]

theorem refresh_keeps (s : State) : ∃ u, exec .refresh s = .next u ∧ u.mem = s.mem ∧ u.ctxs = s.ctxs ∧ u.pkts = s.pkts := by
  refine ⟨_, (exec_refresh s).trans (eventStep_of_some (f := tryRefresh) rfl), ?_, ?_, ?_⟩
  · refine foldl_keeps State.mem (fun _ _ => ?_) ..
    rfl
  · refine foldl_keeps State.ctxs (fun _ _ => ?_) ..
    rfl
  · refine foldl_keeps State.pkts (fun _ _ => ?_) ..
    rfl

/-! ### Heat (R248) -/

theorem thermalNext_steps (x : Thermal) (temp : Nat) : (95 ≤ temp → thermalNext x temp = .hold) ∧
    (temp < 85 → x = .throttle → thermalNext x temp = .normal) ∧
    (temp < 90 → x = .hold → thermalNext x temp = .throttle) ∧ (90 ≤ temp → x = .hold → thermalNext x temp = .hold) ∧
    (85 ≤ temp → temp < 95 → x ≠ .hold → thermalNext x temp = .throttle) ∧
    (temp < 85 → x = .normal → thermalNext x temp = .normal) := by
  cases x
  case normal =>
    refine ⟨fun h => if_pos h, nofun, nofun, nofun, fun h h' _ => ?_, fun h _ => ?_⟩
    · exact (if_neg (by omega)).trans (if_pos h)
    · exact (if_neg (by omega)).trans (if_neg (by omega))
  case throttle =>
    refine ⟨fun h => if_pos h, fun h _ => ?_, nofun, nofun, fun h h' _ => ?_, nofun⟩
    · exact (if_neg (by omega)).trans (if_pos h)
    · exact (if_neg (by omega)).trans (if_neg (by omega))
  case hold =>
    exact ⟨fun h => if_neg (by omega), nofun, fun h _ => if_pos h, fun h _ => if_neg (by omega),
      fun _ _ h => absurd rfl h, nofun⟩

/-! ### Scrubbing (R254, R255) -/

theorem mem_storeSet_same {γ : Type} [DecidableEq γ] {d v : γ} (hv : v ≠ d) (m : List (Nat × γ)) (k : Nat) :
    (k, v) ∈ storeSet d m k v := by
  induction m with
  | nil => simp [storeSet, hv]
  | cons e r ih =>
    unfold storeSet
    split
    · simp
    · split
      · simp
      · exact List.mem_cons_of_mem _ ih

theorem mem_storeSet_other {γ : Type} [DecidableEq γ] {d v : γ} (hv : v ≠ d) {e : Nat × γ} {m : List (Nat × γ)} {k : Nat}
    (he : e ∈ m) (hk : e.1 ≠ k) : e ∈ storeSet d m k v := by
  induction m with
  | nil => simp at he
  | cons e' r ih =>
    unfold storeSet
    split
    · exact List.mem_cons_of_mem _ he
    · split
      · next hsame =>
        rcases List.mem_cons.mp he with rfl | he
        · exact absurd hsame.symm hk
        · exact List.mem_cons_of_mem _ he
      · rcases List.mem_cons.mp he with rfl | he
        · exact List.mem_cons_self ..
        · exact List.mem_cons_of_mem _ (ih he)

/-- A flag once set stays through further settings. -/
theorem mem_storePuts_set {m : List (Nat × Bool)} {ks : List Nat} {k : Nat}
    (h : (k, true) ∈ m ∨ k ∈ ks) : (k, true) ∈ storePuts false m (ks.map (fun i => (i, true))) := by
  induction ks generalizing m with
  | nil =>
    rcases h with h | h
    · exact h
    · simp at h
  | cons j ks ih =>
    refine ih ?_
    by_cases hj : k = j
    · exact .inl (hj ▸ mem_storeSet_same (d := false) (v := true) (by decide) m j)
    · rcases h with h | h
      · exact .inl (mem_storeSet_other (d := false) (v := true) (by decide) h hj)
      · exact .inr ((List.mem_cons.mp h).resolve_left hj)

/-- The bytes of one line have one home. -/
theorem homeTile_line {k j : Nat} (h : k / 128 = j / 128) : homeTile k = homeTile j := by
  have hlt (n : Nat) : (k < 128 * n ↔ j < 128 * n) := by omega
  have hle : 2 ^ 66 ≤ k ↔ 2 ^ 66 ≤ j := by
    have := hlt (2 ^ 59)
    omega
  have h31 : k < 2 ^ 31 ↔ j < 2 ^ 31 := hlt (2 ^ 24)
  have h40 : k < 2 ^ 40 ↔ j < 2 ^ 40 := hlt (2 ^ 33)
  have h41 : k < 2 ^ 41 ↔ j < 2 ^ 41 := hlt (2 ^ 34)
  have hdiv (n : Nat) : k / (128 * n) = j / (128 * n) := by
    rw [← Nat.div_div_eq_div_mul, ← Nat.div_div_eq_div_mul, h]
  have d21 : k / 2 ^ 21 = j / 2 ^ 21 := hdiv (2 ^ 14)
  have d29 : k / 2 ^ 29 = j / 2 ^ 29 := hdiv (2 ^ 22)
  have d49 : k / 2 ^ 49 = j / 2 ^ 49 := hdiv (2 ^ 42)
  unfold homeTile
  simp only [h31, h40, h41, hle, d21, d29, d49]

/-- A word of a line that is poisoned makes the line poisoned. -/
theorem poisoned_setPoison {s : State} {t a : Nat} :
    poisoned (setPoison s (keyScratch t (a / 16 * 16)) 16) (keyScratch t (a / 128 * 128)) 128 = true := by
  have hhome : homeTile (keyScratch t (a / 128 * 128)) = homeTile (keyScratch t (a / 16 * 16)) :=
    homeTile_line (by simp only [keyScratch]; omega)
  have hmem : (keyScratch t (a / 16 * 16) / 16, true) ∈
      ((setPoison s (keyScratch t (a / 16 * 16)) 16).tile (homeTile (keyScratch t (a / 16 * 16)))).poison := by
    rw [setPoison, State.tile_modTile]
    have hset (ks : List Nat) (hk : keyScratch t (a / 16 * 16) / 16 ∈ ks) :
        (keyScratch t (a / 16 * 16) / 16, true) ∈ storePuts false
          (s.tile (homeTile (keyScratch t (a / 16 * 16)))).poison (ks.map (fun i => (i, true))) :=
      mem_storePuts_set (.inr hk)
    have hlist (first cnt : Nat) : (List.range cnt).map (fun i => (first / 16 + i, true)) =
        ((List.range cnt).map (fun i => first / 16 + i)).map (fun i => (i, true)) := by rw [List.map_map]; rfl
    dsimp only
    rw [hlist]
    refine hset _ (List.mem_map.mpr ⟨keyScratch t (a / 16 * 16) / 16 -
      keyScratch t (a / 16 * 16) / (if isVault (keyScratch t (a / 16 * 16)) = true then 32 else 16) *
        (if isVault (keyScratch t (a / 16 * 16)) = true then 32 else 16) / 16, ?_, ?_⟩)
    · rw [List.mem_range]
      generalize keyScratch t (a / 16 * 16) = k
      split <;> omega
    · generalize keyScratch t (a / 16 * 16) = k
      split <;> omega
  rw [poisoned, hhome, List.any_eq_true]
  refine ⟨_, hmem, ?_⟩
  refine decide_eq_true ?_
  simp only [keyScratch]
  omega

end

end Sys2Proof.Proofs
end

section

/-! Scrubbing, repair, parity errors, retirement and walks at a vault (R249-R251, R254, R255, R371, R374). -/

namespace Sys2Proof.Proofs

open Sys2Proof.Machine Sys2Proof.Laws Sys2Proof.Stated

/-! ### Scrubbing (R254, R255) -/

/-- An error of a scratchpad word is found as it arises. -/
def scrubbed (s : State) : State :=
  if s.ev.val = 2 then setPoison s (keyScratch s.ev.who (s.ev.idx / 16 * 16)) 16 else s

section

variable {s : State} (hline : s.ev.idx < 2 ^ 21)
  (hinj : injRead s (keyScratch s.ev.who (s.ev.idx / 128 * 128)) = false)
  (hpoison : poisoned s (keyScratch s.ev.who (s.ev.idx / 128 * 128)) 128 = false)

include hline hinj hpoison

/-- The reading of a scratchpad line that meets no error of before. -/
theorem tryScrubRead_line (hval : s.ev.val < 3) : tryScrubRead s =
    if poisoned (scrubbed s) (keyScratch s.ev.who (s.ev.idx / 128 * 128)) 128 then
      some (lineFound (scrubbed s) (keyScratch s.ev.who (s.ev.idx / 128 * 128)) 128)
    else if s.ev.val = 1 then some (logCorrected (scrubbed s) s.ev.who (keyScratch s.ev.who (s.ev.idx / 128 * 128))
      (keyScratch s.ev.who (s.ev.idx / 128 * 128)))
    else some (scrubbed s) := by
  have hlow : ¬ 3 ≤ s.ev.val := by omega
  simp only [tryScrubRead, scrubbed, hlow, decide_eq_true hline, if_true, if_false, unitRead,
    fireRead_of_not_injRead hinj, uncorrectable_eq_false hinj hpoison, Bool.false_eq_true]
  rfl

theorem scrubRead_clean (hval : s.ev.val = 0) : exec .scrubRead s = .next s := by
  have hsame : scrubbed s = s := by simp [scrubbed, hval]
  rw [exec_scrubRead, execScrubRead]
  refine eventStep_of_some ?_
  rw [tryScrubRead_line hline hinj hpoison (by omega), hsame, hpoison, hval]
  rfl

theorem scrubRead_corrected (hval : s.ev.val = 1) (htile : s.ev.who < 2 ^ 19) : exec .scrubRead s =
    .next ((logAt s 0x0C 0 s.ev.who 0 (keyScratch s.ev.who (s.ev.idx / 128 * 128)) 0).modTile s.ev.who
      (fun x => { x with fixes := x.fixes + 1 })) := by
  have hvault : isVault (keyScratch s.ev.who (s.ev.idx / 128 * 128)) = false := by
    refine decide_eq_false ?_
    simp only [keyScratch]
    omega
  have hlogged : logCorrected s s.ev.who (keyScratch s.ev.who (s.ev.idx / 128 * 128))
      (keyScratch s.ev.who (s.ev.idx / 128 * 128)) =
      (logAt s 0x0C 0 s.ev.who 0 (keyScratch s.ev.who (s.ev.idx / 128 * 128)) 0).modTile s.ev.who
        (fun x => { x with fixes := x.fixes + 1 }) := by
    simp only [logCorrected, fourthError, hvault, Bool.false_and, Bool.false_eq_true, if_false, countCorrected]
    rfl
  rw [exec_scrubRead, execScrubRead, ← hlogged]
  refine eventStep_of_some ?_
  have hsame : scrubbed s = s := by simp [scrubbed, hval]
  rw [tryScrubRead_line hline hinj hpoison (by omega), hsame, hpoison, hval]
  rfl

theorem scrubRead_found (hval : s.ev.val = 2) : exec .scrubRead s =
    .next (lineFound (setPoison s (keyScratch s.ev.who (s.ev.idx / 16 * 16)) 16)
      (keyScratch s.ev.who (s.ev.idx / 128 * 128)) 128) := by
  rw [exec_scrubRead, execScrubRead]
  refine eventStep_of_some ?_
  have hset : scrubbed s = setPoison s (keyScratch s.ev.who (s.ev.idx / 16 * 16)) 16 := if_pos hval
  rw [tryScrubRead_line hline hinj hpoison (by omega), hset, poisoned_setPoison, if_pos rfl]

end

theorem memGet_memClear_other {m : Mem} {k n x : Nat} (h : x < k ∨ k + n ≤ x) :
    memGet (memClear m k n) x = memGet m x := by
  induction m with
  | nil => rfl
  | cons e r ih =>
    by_cases hin : k ≤ e.1 ∧ e.1 < k + n
    · have hne : e.1 ≠ x := by omega
      simpa [memClear, memGet, storeGet, hin, hne] using ih
    · have hkeep : (!(decide (k ≤ e.1 ∧ e.1 < k + n))) = true := by
        rw [decide_eq_false hin]
        rfl
      rw [memClear, List.filter_cons_of_pos (by exact hkeep)]
      by_cases hx : e.1 = x
      · simp [memGet, storeGet, hx]
      · simpa [memClear, memGet, storeGet, hx] using ih

theorem memRead_one (m : Mem) (k : Nat) : memRead m k 1 = [memGet m k] := by
  rw [memRead_eq_map]
  rfl

/-- A poisoned unit that nobody owns is cleared. -/
theorem poisonFound_free {s : State} {k u : Nat} (hu : u = if isVault k then 32 else 16)
    (htag : ownerTag s k / 1024 % 4 = 0) (hpoison : poisoned s (k / u * u) u = true) :
    (poisonFound s k).mem = memClear s.mem (k / u * u) u := by
  simp only [poisonFound, htag]
  rw [← hu, hpoison, if_pos rfl]
  exact congrArg (memClear · (k / u * u) u) (clearPoison_keeps State.mem (fun _ _ _ => rfl) ..)

/-! ### Row repair (R249) -/

theorem rowRepairComplete_leaves {s : State} {r : Machine.Row} (hrepair : (s.tile s.ev.who).repair = some r)
    (hrows : ∀ e ∈ (s.tile s.ev.who).corrected, e.1 = r) : ∃ u, exec .rowRepairComplete s = .next u ∧
      (u.tile s.ev.who).repair = none ∧
      (u.tile s.ev.who).retired = (r, nextSpare (s.tile s.ev.who) r) :: (s.tile s.ev.who).retired ∧
      (u.tile s.ev.who).corrected = [] ∧ u.mgmt.logWait = s.mgmt.logWait ++
        [logEntry 7 0 s.ev.who 0 0 0 0 0 0 0 0 (r.layer + 2 ^ 8 * r.bank + 2 ^ 16 * r.row) s.cycle] := by
  have hnone : (s.tile s.ev.who).corrected.filter (fun e => e.1 != r) = [] := by
    refine List.filter_eq_nil_iff.mpr fun e he => ?_
    simp [hrows e he]
  have htile : (logAt (countEvent (s.setTile s.ev.who { s.tile s.ev.who with
      repair := none, retired := (r, nextSpare (s.tile s.ev.who) r) :: (s.tile s.ev.who).retired, corrected := [] })
      s.ev.who 0) 7 0 s.ev.who 0 0 (rowCode r)).tile s.ev.who = { s.tile s.ev.who with
        repair := none, retired := (r, nextSpare (s.tile s.ev.who) r) :: (s.tile s.ev.who).retired, corrected := []
        evc := bump (s.tile s.ev.who).evc 0 } := by
    show (countEvent _ _ _).tile s.ev.who = _
    rw [countEvent, State.tile_modTile, State.tile_setTile]
  refine ⟨logAt (countEvent (s.setTile s.ev.who { s.tile s.ev.who with
      repair := none, retired := (r, nextSpare (s.tile s.ev.who) r) :: (s.tile s.ev.who).retired, corrected := [] })
      s.ev.who 0) 7 0 s.ev.who 0 0 (rowCode r), ?_, ?_⟩
  · rw [exec_rowRepairComplete, execRowRepairComplete]
    refine eventStep_of_some ?_
    simp only [tryRowRepairComplete, hrepair, hnone, startRepair, htile, List.find?_nil]
  · rw [htile]
    exact ⟨rfl, rfl, rfl, rfl⟩

/-! ### Wires and lost tiles (R250, R251) -/

section

variable {s : State}

theorem parityError_counted (hflag : s.ev.flag = false) :
    exec .vaultBusParityError s = .next (countEvent s s.ev.who 7) := by
  rw [exec_vaultBusParityError, execVaultBusParityError]
  refine eventStep_of_some ?_
  simp [tryVaultBusParityError, hflag]

variable (hflag : s.ev.flag = true)

include hflag

theorem parityError_spare (hspare : 0 < ((countEvent s s.ev.who 7).tile s.ev.who).spare.getD (s.ev.idx % 16) 0) :
    exec .vaultBusParityError s = .next ((countEvent s s.ev.who 7).setTile s.ev.who
      { (countEvent s s.ev.who 7).tile s.ev.who with
        spare := ((countEvent s s.ev.who 7).tile s.ev.who).spare.set (s.ev.idx % 16)
          (((countEvent s s.ev.who 7).tile s.ev.who).spare.getD (s.ev.idx % 16) 0 - 1) }) := by
  rw [exec_vaultBusParityError, execVaultBusParityError]
  refine eventStep_of_some ?_
  simp only [tryVaultBusParityError, hflag]
  exact if_pos hspare

variable (hspare : ((countEvent s s.ev.who 7).tile s.ev.who).spare.getD (s.ev.idx % 16) 0 = 0)

include hspare

theorem parityError_half (hhalf : ((countEvent s s.ev.who 7).tile s.ev.who).badHalf = none) :
    exec .vaultBusParityError s = .next (logAt ((countEvent s s.ev.who 7).setTile s.ev.who
      { (countEvent s s.ev.who 7).tile s.ev.who with badHalf := some (s.ev.idx % 16 / 8) }) 7 3 s.ev.who 0 0
      (s.ev.idx % 16)) := by
  rw [exec_vaultBusParityError, execVaultBusParityError]
  refine eventStep_of_some ?_
  simp only [tryVaultBusParityError, hflag, hspare, hhalf]
  rfl

omit hflag hspare in
theorem offline_putBack (x : Tile) (tr : Trigger) : (putBack x tr).offline = x.offline := by
  unfold putBack
  split <;> rfl

omit hflag hspare in
theorem offline_unstage (slot : Nat) (x : Tile) : (unstage slot x).offline = x.offline := by
  unfold unstage
  dsimp only
  generalize (x.staging.filter (fun e => e.1.lslot == slot)).map (fun e => e.1) = back
  induction back with
  | nil => rfl
  | cons tr back ih =>
    rw [List.foldr_cons]
    split
    · exact (offline_putBack ..).trans ih
    · exact ih

omit hflag hspare in
theorem offline_preemptLaunch (s : State) (slot : Nat) (b : Bool) (t : Nat) :
    ((preemptLaunch s slot b).tile t).offline = (s.tile t).offline := by
  refine preemptLaunch_keeps (fun s => (s.tile t).offline) (fun _ _ _ => rfl) (fun s slot b l => ?_) ..
  exact tabGet_map_field Tile.offline (offline_unstage slot) ..

theorem parityError_lost {h : Nat} (hhalf : ((countEvent s s.ev.who 7).tile s.ev.who).badHalf = some h)
    (hother : h ≠ s.ev.idx % 16 / 8) (hon : ((countEvent s s.ev.who 7).tile s.ev.who).offline = false) :
    ∃ u, exec .vaultBusParityError s = .next u ∧ (u.tile s.ev.who).offline = true := by
  have hstep : tryVaultBusParityError s = some ((residentOn (logAt ((countEvent s s.ev.who 7).setTile s.ev.who
      { (countEvent s s.ev.who 7).tile s.ev.who with offline := true }) 7 4 s.ev.who 0 0 (s.ev.idx % 16)) s.ev.who).foldl
      (fun (s : State) (e : Nat × Launch) => preemptLaunch s e.1 false) (logAt ((countEvent s s.ev.who 7).setTile s.ev.who
      { (countEvent s s.ev.who 7).tile s.ev.who with offline := true }) 7 4 s.ev.who 0 0 (s.ev.idx % 16))) := by
    simp only [tryVaultBusParityError, hflag, hspare, hhalf, hother, hon, decide_false, Bool.or_false,
      Bool.false_eq_true, if_false]
    rfl
  refine ⟨_, (exec_vaultBusParityError s).trans (eventStep_of_some hstep), ?_⟩
  refine (foldl_keeps (fun u : State => (u.tile s.ev.who).offline) (fun _ _ => offline_preemptLaunch ..) ..).trans ?_
  show (State.tile (State.setTile _ _ _) s.ev.who).offline = true
  rw [State.tile_setTile]

end

/-! ### Retirement of a tile (R374) -/

theorem getD_set_same {γ : Type} {l : List γ} {i : Nat} (v d : γ) (hi : i < l.length) : (l.set i v).getD i d = v := by
  simp [hi]

theorem getD_set_other {γ : Type} (l : List γ) {i j : Nat} (v d : γ) (hij : i ≠ j) :
    (l.set i v).getD j d = l.getD j d := by
  simp [hij]

/-- The tile map with one entry changed. -/
def mapPut (s : State) (t : Nat) (v : BitVec 16) : State :=
  { s with tileMap := s.tileMap.set (stackOf t) ((s.tileMap.getD (stackOf t) []).set (mapIndex t) v) }

/-- What stands for a retired tile. -/
def sparedTile (x : Tile) : Tile :=
  { x with
    tlb := [], remap := [], retired := [], corrected := [], repair := none, spare := List.replicate 16 4
    badHalf := none, offline := false, halvedMatrix := List.replicate 4 false, openRows := [], scrubbed := 0
    thermal := .normal, dramTemp := 0 }

section

variable {s : State} {t : Nat} (htile : t < 1024) (hstacks : s.tileMap.length = 4) (hmaps : ∀ l ∈ s.tileMap, l.length = 256)

include htile hstacks hmaps

theorem mapEntry_mapPut_same (v : BitVec 16) : mapEntry (mapPut s t v) t = v := by
  have hstack : stackOf t < s.tileMap.length := by
    simp only [stackOf, tileX, tileY]
    omega
  have hindex : mapIndex t < (s.tileMap.getD (stackOf t) []).length := by
    rw [List.getD_eq_getElem _ _ hstack, hmaps _ (List.getElem_mem hstack)]
    simp only [mapIndex]
    omega
  simp only [mapEntry, mapPut]
  rw [getD_set_same _ _ hstack, getD_set_same _ _ hindex]

omit htile hmaps in
theorem mapEntry_mapPut_other (htile : t < 1024) (v : BitVec 16) {w : Nat} (hw : w < 1024) (hne : w ≠ t) :
    mapEntry (mapPut s t v) w = mapEntry s w := by
  have hstack : stackOf t < s.tileMap.length := by
    simp only [stackOf, tileX, tileY]
    omega
  simp only [mapEntry, mapPut]
  by_cases hsame : stackOf w = stackOf t
  · have hindex : mapIndex t ≠ mapIndex w := by
      simp only [stackOf, mapIndex, tileX, tileY] at hsame ⊢
      omega
    rw [hsame, getD_set_same _ _ hstack, getD_set_other _ _ _ hindex]
  · rw [getD_set_other _ _ _ (Ne.symm hsame)]

end

theorem resumeOn_keeps {γ : Type} (π : State → γ) (hlaunch : ∀ s n l, π (State.setLaunch s n l) = π s) (s : State)
    (t : Nat) : π (resumeOn s t) = π s := by
  refine foldl_keeps π (fun s e => ?_) ..
  split
  · unfold resumeLaunch
    split
    · split
      · exact hlaunch _ _ _
      · rfl
    · rfl
  · rfl

theorem tileRetire_leaves {s : State} {p : Nat} (hoff : (s.tile s.ev.who).offline = true)
    (hquiet : tileQuiet s s.ev.who = true) (htile : s.ev.who < 1024) (hmapped : (mapEntry s s.ev.who).getLsbD 15 = true)
    (hstacks : s.tileMap.length = 4) (hmaps : ∀ l ∈ s.tileMap, l.length = 256)
    (hunused : unusedPhys { s with mgmt := { s.mgmt with
      badTiles := (stackOf s.ev.who, fld (mapEntry s s.ev.who) 0 9) :: s.mgmt.badTiles } } (stackOf s.ev.who) = some p) :
    ∃ u, exec .tileRetire s = .next u ∧ mapEntry u s.ev.who = BitVec.ofNat 16 (0x8000 + p) ∧
      (u.tile s.ev.who).offline = false ∧ u.mem = s.mem ∧
      ∀ v, v < 1024 → v ≠ s.ev.who → mapEntry u v = mapEntry s v := by
  have hstep : tryTileRetire s = some (resumeOn (logAt ((mapPut { s with mgmt := { s.mgmt with
      badTiles := (stackOf s.ev.who, fld (mapEntry s s.ev.who) 0 9) :: s.mgmt.badTiles } } s.ev.who
      (BitVec.ofNat 16 (0x8000 + p))).setTile s.ev.who (sparedTile (s.tile s.ev.who))) 7 5 s.ev.who 0 0 p) s.ev.who) := by
    have hin : decide (1024 ≤ s.ev.who) = false := decide_eq_false (Nat.not_le.mpr htile)
    simp only [tryTileRetire, hoff, hquiet, hin, hmapped, hunused, Bool.not_true, Bool.or_false, Bool.false_eq_true,
      if_false]
    rfl
  have hentry (v : Nat) : mapEntry (resumeOn (logAt ((mapPut { s with mgmt := { s.mgmt with
      badTiles := (stackOf s.ev.who, fld (mapEntry s s.ev.who) 0 9) :: s.mgmt.badTiles } } s.ev.who
      (BitVec.ofNat 16 (0x8000 + p))).setTile s.ev.who (sparedTile (s.tile s.ev.who))) 7 5 s.ev.who 0 0 p) s.ev.who) v =
      mapEntry (mapPut s s.ev.who (BitVec.ofNat 16 (0x8000 + p))) v :=
    resumeOn_keeps (mapEntry · v) (fun _ _ _ => rfl) ..
  refine ⟨_, (exec_tileRetire s).trans (eventStep_of_some hstep), ?_, ?_, ?_, fun v hv hne => ?_⟩
  · rw [hentry]
    exact mapEntry_mapPut_same htile hstacks hmaps _
  · rw [resumeOn_keeps (State.tile · s.ev.who) (fun _ _ _ => rfl)]
    show (State.tile (State.setTile _ _ _) s.ev.who).offline = false
    rw [State.tile_setTile]
    rfl
  · exact resumeOn_keeps State.mem (fun _ _ _ => rfl) ..
  · rw [hentry]
    exact mapEntry_mapPut_other hstacks htile _ hv hne

/-! ### The walker (R371) -/

section

variable (s : State) (t asid va : Nat)

theorem walkLogged_tile (u : Nat) : (walkLogged s t asid va).tile u = (fillTlb s t asid va).tile u := by
  unfold walkLogged
  dsimp only
  split <;> rfl

theorem walkLogged_mem : (walkLogged s t asid va).mem = s.mem := by
  refine Eq.trans ?_ (sameStores_fillTlb s t asid va).mem
  unfold walkLogged
  dsimp only
  split <;> rfl

/-- The state after the reads of a walk. -/
def walkRead : State :=
  countPerf ((walkKeys s va 4 (tableKey (genEntry s t asid).toNat)).foldl (fun s k => touchPage (fireRead s k) k 8) s) t 7 1

theorem walkRead_tlb (u : Nat) : ((walkRead s t asid va).tile u).tlb = (s.tile u).tlb := by
  refine (tileField_countPerf _ _ _ _ Tile.tlb (fun _ _ => rfl) u).trans ?_
  refine foldl_keeps (fun s => (s.tile u).tlb) (fun s k => ?_) ..
  exact (tileField_touchPage Tile.tlb (fun _ _ => rfl) (fun _ _ => rfl) ..).trans
    (tileField_fireRead Tile.tlb (fun _ _ _ => rfl) (fun _ _ => rfl) (fun _ _ => rfl) ..)

variable {s t asid va}

/-- A walk that finds a leaf puts it first. -/
theorem fillTlb_leaf {e : Word} (hwalk : walk s t asid va = .leaf e false) : ∃ l,
    ((fillTlb s t asid va).tile t).tlb = (⟨asid, false, va / 65536, e, igen (genEntry s t asid)⟩ :: l).take tlbSize := by
  refine ⟨((walkRead s t asid va).tile t).tlb.filter (fun y => !(y.asid == asid &&
    (if y.big then y.page / 32 == va / 2 ^ 21 else y.page == va / 65536))), ?_⟩
  unfold fillTlb
  dsimp only
  rw [hwalk]
  dsimp only
  rw [State.tile_modTile]
  rfl

theorem fillTlb_other (hwalk : ∀ e b, walk s t asid va ≠ .leaf e b) :
    ((fillTlb s t asid va).tile t).tlb = (s.tile t).tlb := by
  unfold fillTlb
  dsimp only
  split
  · next e b h => exact absurd h (hwalk e b)
  · exact walkRead_tlb ..

end

theorem tryTlbWalk_valid {s : State} (hvalid : genV (genEntry s s.ev.who s.ev.idx) = true) (hasid : s.ev.idx < 256) :
    exec .tlbWalk s = .next (walkLogged s s.ev.who s.ev.idx s.ev.val) := by
  have hin : decide (256 ≤ s.ev.idx) = false := decide_eq_false (Nat.not_le.mpr hasid)
  rw [exec_tlbWalk, execTlbWalk]
  refine eventStep_of_some ?_
  simp only [tryTlbWalk, hvalid, hin]
  rfl

/-- Settles O31. -/
theorem vaultEvents : Obligations.VaultEvents := by
  unfold Obligations.VaultEvents
  refine ⟨?swap, ?offline, refresh_keeps, ?thermal, ?scrub, ?found, ?row, ?parity, ?retire, ?walk⟩
  case swap =>
    intro s p q ls bar r t x hpq
    exact ⟨cableSwapStart_marks hpq, cableSwapComplete_exchanges hpq⟩
  case offline =>
    intro s id k w t hitem hstale hswaps hoff hq hbusy hbar
    exact cableSwapStart_offline hitem hstale hswaps hoff hq hbusy hbar
  case thermal =>
    intro s t x n
    refine ⟨?_, thermalNext_steps x.thermal s.ev.idx⟩
    rw [exec_thermalSample, execThermalSample]
    exact eventStep_of_some rfl
  case scrub =>
    intro s t k hline hinj hpoison
    exact ⟨scrubRead_clean hline hinj hpoison, scrubRead_corrected hline hinj hpoison, scrubRead_found hline hinj hpoison⟩
  case found =>
    intro s k u b htag hpoison
    refine ⟨fun i hi => ?_, fun x hx => ?_⟩
    · rw [poisonFound_free rfl htag hpoison, memRead_one, memGet_memClear ⟨Nat.le_add_right .., Nat.add_lt_add_left hi _⟩]
    · rw [poisonFound_free rfl htag hpoison, memRead_one, memRead_one, memGet_memClear_other hx]
  case row =>
    intro s r t hrepair hrows
    exact rowRepairComplete_leaves hrepair hrows
  case parity =>
    intro s t g x n
    exact ⟨parityError_counted, parityError_spare, parityError_half, fun h hflag hspare => parityError_lost hflag hspare⟩
  case retire =>
    intro s p t e hoff hquiet htile hmapped hstacks hmaps b hunused
    exact tileRetire_leaves hoff hquiet htile hmapped hstacks hmaps hunused
  case walk =>
    intro s t a hvalid hasid
    refine ⟨fun e hwalk => ?_, fun hwalk => ?_⟩
    · obtain ⟨l, hl⟩ := fillTlb_leaf hwalk
      refine ⟨_, tryTlbWalk_valid hvalid hasid, ⟨⟨a, false, s.ev.val / 65536, e, igen (genEntry s t a)⟩, ?_, rfl, rfl, rfl,
        rfl, rfl⟩, ?_, walkLogged_mem ..⟩
      · rw [walkLogged_tile, hl]
        rfl
      · rw [walkLogged_tile, hl]
        exact List.length_take_le ..
    · refine ⟨_, tryTlbWalk_valid hvalid hasid, ?_, walkLogged_mem ..⟩
      rw [walkLogged_tile]
      exact fillTlb_other hwalk

end Sys2Proof.Proofs
end

section

/-! Command queues of outriders, their port, and the acceptance of commands (R328-R332, R338, R339, R344, R457). -/

namespace Sys2Proof.Proofs

open Sys2Proof.Machine Sys2Proof.Laws Sys2Proof.Stated

/-! ### The submission port (R344) -/

section

variable {s : State} {u : Submission} {t k : Nat} {q : Queue} {b : Qcb} {l : Loc} (pkt : Nat)
  (hnamed : queueNamed s t u.qcb = some (k, q)) (hin : u.qcb + 32 ≤ Config.tableArea)
  (hinj : injRead s (keyScratch t u.qcb) = false) (hpoison : poisoned s (keyScratch t u.qcb) 32 = false)
  (hqcb : qcbOf s t (visRead s (keyScratch t u.qcb) 32) = some b) (hlen : u.bytes.length = 64)
  (hslot : b.slotLoc s t b.wi = some l) (hfree : guarded s (keyScratch t u.qcb) 32 = false)
  (hstall : stalled s l.key = false) (hslotfree : guarded s l.key 64 = false)

include hnamed hin hinj hpoison hqcb hlen hslot hfree hstall hslotfree

/-- A submission of one packet is written where the queue has room. -/
theorem submit_one : submit s t u pkt = if b.ri + b.n < b.wi + 1 then .hold else
    .written (modQueue (engWrite (performStore s (keyScratch t (u.qcb + 16)) (bytesLE 8 (b.wi + 1)) 0) l.key
      (u.bytes.take 63 ++ bytesLE 1 (b.wi % 255 + 1))) t k (fun x => { x with pend := x.pend ++ [(b.wi, pkt)] })) := by
  have hrefuse : homeRefuses s t u.qcb 32 = false := by
    simp only [homeRefuses, inScratch, decide_eq_true hin, hfree]
    rfl
  have hread : homeRead s t u.qcb 32 0xEA = (s, some (visRead s (keyScratch t u.qcb) 32)) := by
    simp only [homeRead, unitRead, fireRead_of_not_injRead hinj, uncorrectable_eq_false hinj hpoison, Bool.false_eq_true,
      if_false]
  have himg : sliceB u.bytes 0 63 = u.bytes.take 63 := by
    simp [sliceB, hlen]
  simp only [submit, hnamed, hrefuse, hread, hqcb, hlen, hslot, hstall, hslotfree, Nat.reduceDiv,
    Nat.add_sub_cancel, Bool.or_false, Bool.false_eq_true, if_false, himg, decide_eq_true_eq,
    if_neg (show ¬ 1 = 2 by decide)]
  rfl

end

section

variable {s : State}

theorem retrySubs_none (s : State) (t : Nat) : retrySubs s t [] [] = (s, [], false) := rfl

section

variable {id : Nat} {p : Packet} {u : Submission} (hitem : item s s.ev.who s.ev.idx = some (id, p))
  (hwork : p.work = .osub u) (hsubs : (s.tile s.ev.who).subs = []) (hheld : subHeld s s.ev.who id = false)
  (hstale : pktStale s p = false)

include hitem hwork hsubs hheld hstale

theorem osubPerform_written {s1 : State} (h : submit s s.ev.who u id = .written s1) : exec .osubPerform s = .next s1 := by
  rw [exec_osubPerform, execOsubPerform]
  refine eventStep_of_some ?_
  simp [tryOsubPerform, hsubs, retrySubs_none, hitem, hwork, hheld, hstale, h]

theorem osubPerform_reject {s1 : State} (h : submit s s.ev.who u id = .reject s1) :
    exec .osubPerform s = .next (abandonSub (finish s1 id none) s.ev.who u) := by
  rw [exec_osubPerform, execOsubPerform]
  refine eventStep_of_some ?_
  simp [tryOsubPerform, hsubs, retrySubs_none, hitem, hwork, hheld, hstale, h]

theorem osubPerform_hold (h : submit s s.ev.who u id = .hold) : exec .osubPerform s = .next (s.modTile s.ev.who
    (fun x => { x with subs := x.subs ++ [{ u with time := p.since, pkt := id }] })) := by
  rw [exec_osubPerform, execOsubPerform]
  refine eventStep_of_some ?_
  simp [tryOsubPerform, hsubs, retrySubs_none, hitem, hwork, hheld, hstale, h]

end

section

variable {u : Submission} (hsubs : (s.tile s.ev.who).subs = [u])

include hsubs

theorem osubPerform_retried {s1 : State} (h : submit s s.ev.who u u.pkt = .written s1) :
    exec .osubPerform s = .next (s1.modTile s.ev.who (fun x => { x with subs := [] })) := by
  rw [exec_osubPerform, execOsubPerform]
  refine eventStep_of_some ?_
  simp [tryOsubPerform, hsubs, retrySubs, h]

theorem osubAbandon_first (hidx : s.ev.idx = 0) : exec .osubAbandon s = .next (abandonSub
    (finish (s.modTile s.ev.who (fun x => { x with subs := [] })) u.pkt none) s.ev.who u) := by
  have hdrop : s.modTile s.ev.who (fun x => { x with subs := dropAt x.subs 0 }) =
      s.modTile s.ev.who (fun x => { x with subs := [] }) := modTile_congr (by rw [hsubs]; rfl)
  rw [exec_osubAbandon, execOsubAbandon]
  refine eventStep_of_some ?_
  simp only [tryOsubAbandon, hsubs, hidx]
  exact congrArg (fun v => some (abandonSub (finish v u.pkt none) s.ev.who u)) hdrop

end

/-! ### Acceptance (R329, R331, R338, R457) -/

section

variable {t : Nat} {q : Queue} (hin : q.qcb + 32 ≤ Config.tableArea) (hinj : injRead s (keyScratch t q.qcb) = false)
  (hpoison : poisoned s (keyScratch t q.qcb) 32 = false)

include hin hinj hpoison

theorem qcbRead_sound : qcbRead s t q.qcb = (s, some (engRead s (keyScratch t q.qcb) 32)) := by
  simp only [qcbRead, inScratch, decide_eq_true hin, Bool.not_true, Bool.false_eq_true, if_false, homeRead, unitRead,
    fireRead_of_not_injRead hinj, uncorrectable_eq_false hinj hpoison]

end

section

variable {q : Queue} (hqueue : queueAt s s.ev.who s.ev.idx = some q) (hidx : s.ev.idx < 8)
  (hread : qcbRead s s.ev.who q.qcb = (s, some (engRead s (keyScratch s.ev.who q.qcb) 32)))

include hqueue hidx in
theorem queueAt_filter : (queueAt s s.ev.who s.ev.idx).filter (fun _ => decide (s.ev.idx < 8)) = some q := by
  rw [hqueue, decide_eq_true hidx]
  rfl

include hqueue hidx hread

theorem outriderAccept_malformed (hqcb : qcbOf s s.ev.who (engRead s (keyScratch s.ev.who q.qcb) 32) = none)
    (hnew : q.malformed ≠ some (engRead s (keyScratch s.ev.who q.qcb) 32)) : exec .outriderAccept s =
      .next (logAt (modQueue s s.ev.who s.ev.idx (fun r => { r with
        malformed := some (engRead s (keyScratch s.ev.who q.qcb) 32) })) 8 Cause.abandon.code s.ev.who q.lslot q.qcb 0) := by
  rw [exec_outriderAccept, execOutriderAccept]
  refine eventStep_of_some ?_
  simp [tryOutriderAccept, queueAt_filter hqueue hidx, hread, hqcb, hnew]

theorem outriderAccept_known (hqcb : qcbOf s s.ev.who (engRead s (keyScratch s.ev.who q.qcb) 32) = none)
    (hold : q.malformed = some (engRead s (keyScratch s.ev.who q.qcb) 32)) : exec .outriderAccept s = .next s := by
  rw [exec_outriderAccept, execOutriderAccept]
  refine eventStep_of_none ?_
  simp [tryOutriderAccept, queueAt_filter hqueue hidx, hread, hqcb, hold]

theorem outriderAccept_mended (hqcb : qcbOf s s.ev.who (engRead s (keyScratch s.ev.who q.qcb) 32) ≠ none)
    (hbad : q.malformed ≠ none) : exec .outriderAccept s =
      .next (modQueue s s.ev.who s.ev.idx (fun r => { r with malformed := none })) := by
  obtain ⟨b, hb⟩ := Option.ne_none_iff_exists'.mp hqcb
  rw [exec_outriderAccept, execOutriderAccept]
  refine eventStep_of_some ?_
  simp [tryOutriderAccept, queueAt_filter hqueue hidx, hread, hb, Option.isSome_iff_ne_none.mpr hbad]

theorem outriderAccept_takes {b : Qcb} {h : List Byte} {e : Option (List Byte)}
    (hqcb : qcbOf s s.ev.who (engRead s (keyScratch s.ev.who q.qcb) 32) = some b) (hgood : q.malformed = none)
    (hroom : (s.tile s.ev.who).out.cmds.length < 256) (hturn : inTurn s s.ev.who s.ev.idx = true)
    (hfree : guarded s (keyScratch s.ev.who q.qcb) 32 = false) (hready : ready s s.ev.who b = some (h, e)) :
    exec .outriderAccept s = .next (takeCommand s s.ev.who s.ev.idx q b h e) := by
  rw [exec_outriderAccept, execOutriderAccept]
  refine eventStep_of_some ?_
  simp [tryOutriderAccept, queueAt_filter hqueue hidx, hread, hqcb, hgood, hturn, hfree, hready, Nat.not_le.mpr hroom]

end

theorem admitCopy_zero {t handle : Nat} {tag : Bool} {c : Copy} (h : firstFailure s t handle tag c = 0) :
    admitCopy s t handle tag c = modOut s t (fun o => { o with cmds := o.cmds ++ [c] }) := by
  unfold admitCopy
  generalize firstFailure s t handle tag c = n at h ⊢
  subst h
  rfl

theorem cmds_modOut (t : Nat) (f : Outrider → Outrider) : ((modOut s t f).tile t).out = f (s.tile t).out :=
  congrArg Tile.out (State.tile_modTile ..)

theorem admitCopy_passes {t handle : Nat} {tag : Bool} {c : Copy} (h : firstFailure s t handle tag c = 0) :
    ((admitCopy s t handle tag c).tile t).out.cmds = (s.tile t).out.cmds ++ [c] := by
  rw [admitCopy_zero h, cmds_modOut]

theorem admitCopy_fails {t handle n : Nat} {tag : Bool} {c : Copy} (hn : 0 < n) (h : firstFailure s t handle tag c = n)
    (hcrc : c.crcOn = false) : admitCopy s t handle tag c = rejectCopy s t c n := by
  obtain ⟨m, rfl⟩ := Nat.exists_eq_succ_of_ne_zero (Nat.ne_of_gt hn)
  unfold admitCopy
  generalize firstFailure s t handle tag c = k at h ⊢
  subst h
  exact if_neg (by rw [hcrc]; exact Bool.false_ne_true)

/-- The step of RI over one packet, or over two with an extension. -/
theorem takeCommand_eq (s : State) (t k : Nat) (q : Queue) (b : Qcb) (h : List Byte) (e : Option (List Byte)) :
    let ri := (b.ri + 1 + (if e = none then 0 else 1)) % 2 ^ 64
    let s2 := engWrite (touchSlots s t b (if e = none then 1 else 2)) (keyScratch t (q.qcb + 24)) (bytesLE 8 ri)
    let s3 := modOut s2 t (fun o => { o with next := (k + 1) % 8 })
    let id := (s3.tile t).out.ids + 1
    let s4 := modOut s3 t (fun o => { o with ids := id })
    takeCommand s t k q b h e = admitCopy (acceptPend s4 t k ri) t (handleOf e b.handle) true
      (newCopy s4 t id k none h e b.asid b.handle) := by
  cases e <;> rfl

theorem stalledSlot_logged {q : Queue} {b : Qcb} (hqueue : queueAt s s.ev.who s.ev.idx = some q) (hidx : s.ev.idx < 8)
    (hin : q.qcb + 32 ≤ Config.tableArea) (hqcb : qcbOf s s.ev.who (memRead s.mem (keyScratch s.ev.who q.qcb) 32) = some b)
    (hwi : b.ri < b.wi) (htag : tagged s s.ev.who b b.ri = none) (hnew : q.stalledAt ≠ b.ri + 1) : exec .stalledSlot s =
      .next (logAt (modQueue s s.ev.who s.ev.idx (fun r => { r with stalledAt := b.ri + 1 })) 6 0 s.ev.who q.lslot q.qcb
        b.ri) := by
  have hnow : qcbNow s s.ev.who q = some b := by
    simp only [qcbNow, inScratch, decide_eq_true hin, if_true]
    exact hqcb
  rw [exec_stalledSlot, execStalledSlot]
  refine eventStep_of_some ?_
  simp [tryStalledSlot, queueAt_filter hqueue hidx, hnow, hwi, htag, hnew]

/-! ### The start of a command (R338, R341) -/

section

variable {c : Copy} (hcmd : cmdAt s s.ev.who s.ev.idx = some c) (hstarted : c.started = false)
  (haccepted : c.rejected = false)

include hcmd hstarted haccepted

theorem cmdStart_starts (hchain : c.crcOn = true → c.chains = true → (chainOf s s.ev.who c).failed = false) :
    exec .outriderCmdStart s = .next (setCmd (setChain s s.ev.who c (fun x => { x with failed := false })) s.ev.who
      { c with started := true, crc := if c.chains = true ∧ (chainOf s s.ev.who c).run = true then
        (chainOf s s.ev.who c).value else 0xFFFFFFFF }) := by
  have hpass : (c.crcOn && c.chains && (chainOf s s.ev.who c).failed) = false := by
    cases hcrc : c.crcOn
    · rfl
    · cases hchains : c.chains
      · rfl
      · exact hchain hcrc hchains
  rw [exec_outriderCmdStart, execOutriderCmdStart]
  refine eventStep_of_some ?_
  simp only [tryOutriderCmdStart, hcmd, hstarted, haccepted, hpass, Bool.false_eq_true, if_false, Bool.and_eq_true]

theorem cmdStart_failed (hcrc : c.crcOn = true) (hchains : c.chains = true)
    (hfailed : (chainOf s s.ev.who c).failed = true) : exec .outriderCmdStart s =
      .next (setChain (delCmd (rejectCopy s s.ev.who c 5) s.ev.who c.id) s.ev.who c (fun x => { x with failed := true })) := by
  rw [exec_outriderCmdStart, execOutriderCmdStart]
  refine eventStep_of_some ?_
  simp [tryOutriderCmdStart, hcmd, hstarted, haccepted, hcrc, hchains, hfailed]

end

end

theorem outriderQueues : Stated.OutriderQueues := by
  unfold Stated.OutriderQueues
  refine ⟨?submit, ?perform, ?retry, ?accept, ?stalled, ?start⟩
  case submit =>
    intro s u pkt k q b l t hnamed hin hinj hpoison hqcb hlen hslot hfree hstall hslotfree
    have hsubmit := submit_one pkt hnamed hin hinj hpoison hqcb hlen hslot hfree hstall hslotfree
    exact ⟨fun hfull => hsubmit.trans (if_pos hfull), fun hroom => hsubmit.trans (if_neg (by omega))⟩
  case perform =>
    intro s id p u t hitem hwork hsubs hheld hstale
    exact ⟨fun s1 => osubPerform_written hitem hwork hsubs hheld hstale,
      fun s1 => osubPerform_reject hitem hwork hsubs hheld hstale, osubPerform_hold hitem hwork hsubs hheld hstale⟩
  case retry =>
    intro s u t hsubs
    exact ⟨fun s1 => osubPerform_retried hsubs, osubAbandon_first hsubs⟩
  case accept =>
    intro s q b h e t k ri bytes hqueue hidx hin hinj hpoison
    have hread := qcbRead_sound hin hinj hpoison
    refine ⟨outriderAccept_malformed hqueue hidx hread, outriderAccept_known hqueue hidx hread,
      outriderAccept_mended hqueue hidx hread, fun hqcb hgood hroom hturn hfree hready => ?_⟩
    intro s2 s3 id s4 c
    refine ⟨?_, admitCopy_passes, fun n => admitCopy_fails⟩
    exact (outriderAccept_takes hqueue hidx hread hqcb hgood hroom hturn hfree hready).trans
      (congrArg _ (takeCommand_eq s t k q b h e))
  case stalled =>
    intro s q b t hqueue hidx hin hqcb hwi htag hnew
    exact stalledSlot_logged hqueue hidx hin hqcb hwi htag hnew
  case start =>
    intro s c t hcmd hstarted
    exact ⟨fun haccepted hchain => cmdStart_starts hcmd hstarted haccepted hchain,
      fun haccepted => cmdStart_failed hcmd hstarted haccepted⟩

end Sys2Proof.Proofs
end

section

/-! Command lists and the pacers of streams (R342, R345, R348). -/

namespace Sys2Proof.Proofs

open Sys2Proof.Machine Sys2Proof.Laws Sys2Proof.Stated

section

variable {s : State} {c : Copy} {l : CmdList} (hcmd : cmdAt s s.ev.who s.ev.idx = some c)

/-! ### The packets of a list (R342) -/

section

variable (hlistCode : c.code = 0x10) (hstarted : c.started = true)

include hcmd hlistCode hstarted

theorem listStart_begins (hnone : listOf s s.ev.who c.id = none) : exec .listStart s =
    .next (modOut s s.ev.who (fun o => { o with
      lists := o.lists ++ [⟨c.id, 0, [], ⟨0xFFFFFFFF, false, false⟩, false, 0, 0, false⟩] })) := by
  rw [exec_listStart, execListStart]
  refine eventStep_of_some ?_
  simp [tryListStart, hcmd, hlistCode, hstarted, hnone]

section

variable {s1 : State} {b : List Byte} (hlist : listOf s s.ev.who c.id = some l) (hlive : l.ended = false)
  (hread : listPacket s s.ev.who c l.at_ = .packet s1 b)

include hlist hlive hread

theorem listStart_loop (hop : natAt b 0 1 = 0x11) : exec .listStart s = .next (listLoop s1 s.ev.who c l b) := by
  rw [exec_listStart, execListStart]
  refine eventStep_of_some ?_
  simp [tryListStart, hcmd, hlistCode, hstarted, hlist, hlive, hread, hop]

theorem listStart_end (hop : natAt b 0 1 = 0x13) (hok : controlOk b 0 false false = true) : exec .listStart s =
    .next (modList s1 s.ev.who c.id (fun l => { l with ended := true })) := by
  rw [exec_listStart, execListStart]
  refine eventStep_of_some ?_
  simp [tryListStart, hcmd, hlistCode, hstarted, hlist, hlive, hread, hop, hok]

theorem listStart_command (hop : natAt b 0 1 < 0x11) (hext : natAt b 1 1 % 2 = 0)
    (hroom : (s1.tile s.ev.who).out.cmds.length < 256) : exec .listStart s =
      .next (listCommand s1 s.ev.who c l b none) := by
  rw [exec_listStart, execListStart]
  refine eventStep_of_some ?_
  simp only [tryListStart, hcmd, hlistCode, hstarted, hlist, hlive, hread, ne_eq, not_true, Bool.not_true,
    Bool.or_false, decide_false, Bool.false_eq_true, if_false]
  generalize natAt b 0 1 = op at hop
  split
  · omega
  · omega
  · omega
  · exact (if_neg (Nat.not_le.mpr hroom)).trans (if_pos hext)

end

end

/-! ### LOOP (R342) -/

section

variable {t : Nat} {b : List Byte} (hok : controlOk b 1 false true = true) (hback : 0 < natAt b 8 1)
  (hreach : natAt b 8 1 ≤ l.at_)

include hok hback

include hreach in
theorem listLoop_first (hnew : tabFind l.loops l.at_ = none) (hroom : l.loops.length < 4) :
    listLoop s t c l b = if max 1 (natAt b 24 2) = 1 then modList s t c.id (fun l => { l with at_ := l.at_ + 1 }) else
      modList s t c.id (fun x => { x with
        at_ := x.at_ - natAt b 8 1, loops := tabSet x.loops x.at_ (max 1 (natAt b 24 2) - 2) }) := by
  simp [listLoop, hok, Nat.ne_of_gt hback, hnew, Nat.not_le.mpr hroom, Nat.not_lt.mpr hreach]

theorem listLoop_nested (hnew : tabFind l.loops l.at_ = none) (hfull : 4 ≤ l.loops.length) :
    listLoop s t c l b = stopList s t c.id 1 := by
  simp [listLoop, hok, Nat.ne_of_gt hback, hnew, hfull]

theorem listLoop_last (hlast : tabFind l.loops l.at_ = some 0) : listLoop s t c l b =
    modList s t c.id (fun l => { l with at_ := l.at_ + 1, loops := tabDel l.loops l.at_ }) := by
  simp [listLoop, hok, Nat.ne_of_gt hback, hlast]

include hreach in
theorem listLoop_again {k : Nat} (hmore : tabFind l.loops l.at_ = some (k + 1)) : listLoop s t c l b =
    modList s t c.id (fun l => { l with at_ := l.at_ - natAt b 8 1, loops := tabSet l.loops l.at_ k }) := by
  simp [listLoop, hok, Nat.ne_of_gt hback, hmore, Nat.not_lt.mpr hreach]

end

/-! ### BRANCH and the end of a list (R342) -/

theorem cmds_delCmd (s : State) (t id : Nat) : ∀ x ∈ ((delCmd s t id).tile t).out.cmds, x.id ≠ id := by
  rw [delCmd, cmds_modOut]
  intro x hx
  simpa using (List.mem_filter.mp hx).2

theorem cmds_endCopy (s : State) (t : Nat) (c : Copy) : ∀ x ∈ ((endCopy s t c).tile t).out.cmds, x.id ≠ c.id := by
  unfold endCopy
  split
  · exact cmds_delCmd _ t c.id
  · exact cmds_delCmd _ t c.id

section

variable (hlist : listOf s s.ev.who c.id = some l)
  (hdone : ∀ x ∈ (s.tile s.ev.who).out.cmds, x.list ≠ some c.id)

include hdone in
theorem none_of_list : ((s.tile s.ev.who).out.cmds.any (fun x => x.list == some c.id)) = false := by
  simpa using hdone

include hcmd hlist hdone

theorem listBranch_goes {s1 : State} {b : List Byte} (hlive : l.ended = false)
    (hread : listPacket s s.ev.who c l.at_ = .packet s1 b) (hop : natAt b 0 1 = 0x12)
    (hok : controlOk b 1 true false = true) (halign : natAt b 16 8 % 8 = 0)
    (hin : natAt b 16 8 + 8 ≤ Config.tableArea) (hgen : staleAt s1 s.ev.who (some (c.asid, c.gen)) = false)
    (hfree : guarded s1 (keyScratch s.ev.who (natAt b 16 8)) 8 = false)
    (hinj : injRead s1 (keyScratch s.ev.who (natAt b 16 8)) = false)
    (hpoison : poisoned s1 (keyScratch s.ev.who (natAt b 16 8)) 8 = false)
    (hfits : l.at_ + 1 + natAt b 8 1 < 4096) : exec .listBranch s = .next (modList s1 s.ev.who c.id (fun x => { x with
      at_ := l.at_ + 1 + (if natLE (memRead s1.mem (keyScratch s.ev.who (natAt b 16 8)) 8) = 0 then 0 else
        natAt b 8 1) })) := by
  have hunit : unitRead s1 (keyScratch s.ev.who (natAt b 16 8)) 8 = (s1, false) := by
    simp only [unitRead, fireRead_of_not_injRead hinj, uncorrectable_eq_false hinj hpoison]
  rw [exec_listBranch, execListBranch]
  refine eventStep_of_some ?_
  simp only [tryListBranch, hcmd, hlist, hlive, none_of_list hdone, hread, hop, hok, halign, hgen, hfree, hunit,
    decide_eq_false (Nat.not_lt.mpr hin), Bool.or_false, Bool.false_eq_true, if_false, ne_eq, not_true, Bool.not_true,
    decide_false]
  by_cases hzero : natLE (memRead s1.mem (keyScratch s.ev.who (natAt b 16 8)) 8) = 0
  · simp only [engRead, hzero, if_true, Nat.add_zero, if_neg (show ¬ 4096 ≤ l.at_ + 1 by omega)]
  · simp only [engRead, hzero, if_false, if_neg (Nat.not_le.mpr hfits)]

theorem listEnd_removes (hended : l.ended = true) : ∃ u, exec .listEnd s = .next u ∧
    (∀ x ∈ (u.tile s.ev.who).out.lists, x.id ≠ c.id) ∧ (∀ x ∈ (u.tile s.ev.who).out.cmds, x.id ≠ c.id) := by
  have hstep : tryListEnd s = some (modOut (endCopy s s.ev.who { c with
      cls := l.cls, aband := l.aband, stopped := l.flt }) s.ev.who (fun o => { o with
        lists := o.lists.filter (fun x => x.id != c.id) })) := by
    simp [tryListEnd, hcmd, hlist, hended, none_of_list hdone]
  refine ⟨_, (exec_listEnd s).trans (eventStep_of_some hstep), ?_, ?_⟩
  · rw [cmds_modOut]
    intro x hx
    simpa using (List.mem_filter.mp hx).2
  · rw [cmds_modOut]
    intro x hx
    exact cmds_endCopy s s.ev.who { c with cls := l.cls, aband := l.aband, stopped := l.flt } x hx

end

end

/-! ### Pacers (R345, R348) -/

section

variable {s : State} (hlive : (s.ctx s.ev.who).st = .run ∨ (s.ctx s.ev.who).st = .wait)
  (hleft : ((s.ctx s.ev.who).streams.toList.getD s.ev.idx Stream.idle).popped <
    ((s.ctx s.ev.who).streams.toList.getD s.ev.idx Stream.idle).count)
  (hmore : ((s.ctx s.ev.who).streams.toList.getD s.ev.idx Stream.idle).fetched <
    ((s.ctx s.ev.who).streams.toList.getD s.ev.idx Stream.idle).count)
  (hroom : ((s.ctx s.ev.who).streams.toList.getD s.ev.idx Stream.idle).queue.length < 16)
  (hdirect : ((s.ctx s.ev.who).streams.toList.getD s.ev.idx Stream.idle).idx = false)

include hlive hleft hmore hroom hdirect

theorem tryPacerRead_direct : tryPacerRead s = pacerLoad s s.ev.who s.ev.idx
    (((s.ctx s.ev.who).streams.toList.getD s.ev.idx Stream.idle).addr
      ((s.ctx s.ev.who).streams.toList.getD s.ev.idx Stream.idle).fetched) := by
  have hst : ((s.ctx s.ev.who).st == .run || (s.ctx s.ev.who).st == .wait) = true := by
    simpa using hlive
  have hfit : ¬ max 16 (vspopNeed (s.ctx s.ev.who) s.ev.idx) ≤
      ((s.ctx s.ev.who).streams.toList.getD s.ev.idx Stream.idle).queue.length := by omega
  simp only [tryPacerRead, hst, Stream.isIdle, decide_eq_false (Nat.not_le.mpr hleft),
    decide_eq_false (Nat.not_le.mpr hmore), decide_eq_false hfit, hdirect, Bool.not_true, Bool.not_false, Bool.or_false,
    Bool.false_eq_true, if_false, if_true]

end

theorem addr_oneDimension {r : Stream} (h : r.n0 = 1) (e : Nat) :
    (r.addr e : Int) = ((r.base : Int) + e * r.s1) % 2 ^ 64 := by
  simp only [Stream.addr, wrapInt, h, Nat.mod_one, Nat.div_one, Nat.cast_zero, Int.zero_mul, Int.add_zero]
  exact Int.toNat_of_nonneg (Int.emod_nonneg _ (by decide))

theorem listsAndPacers : Stated.ListsAndPacers := by
  unfold Stated.ListsAndPacers
  refine ⟨?start, ?loop, ?branch, ?ended, ?pacer, fun r e h => addr_oneDimension h e⟩
  case start =>
    intro s c t hcmd hcode hstarted
    exact ⟨listStart_begins hcmd hcode hstarted, fun l s1 b hlist hlive hread =>
      ⟨listStart_loop hcmd hcode hstarted hlist hlive hread, listStart_end hcmd hcode hstarted hlist hlive hread,
        listStart_command hcmd hcode hstarted hlist hlive hread⟩⟩
  case loop =>
    intro s t c l b d n set hok hback hreach
    refine ⟨fun hnew hroom hone => ?_, fun hnew hroom hmany => ?_, listLoop_nested hok hback,
      fun hlast => listLoop_last hok hback hlast, fun k hmore => listLoop_again hok hback hreach hmore⟩
    · exact (listLoop_first hok hback hreach hnew hroom).trans (if_pos hone)
    · exact (listLoop_first hok hback hreach hnew hroom).trans (if_neg (Nat.ne_of_gt hmany))
  case branch =>
    intro s s1 c l b t a hcmd hlist hlive hdone hread hop hok halign hin hgen hfree hinj hpoison hfits
    exact listBranch_goes hcmd hlist hdone hlive hread hop hok halign hin hgen hfree hinj hpoison hfits
  case ended =>
    intro s c l t hcmd hlist hended hdone
    exact listEnd_removes hcmd hlist hdone hended
  case pacer =>
    intro s v g k r a hlive hk hleft hmore hroom hdirect
    have htry := tryPacerRead_direct hlive hleft hmore hroom hdirect
    refine ⟨fun st hload => ?_, fun f hload hpte => ?_⟩
    · refine (exec_pacerRead s).trans (eventStep_of_some (htry.trans ?_))
      simp only [pacerLoad]
      rw [hload]
    · refine (exec_pacerRead s).trans (eventStep_of_some (htry.trans ?_))
      simp only [pacerLoad]
      rw [hload]
      simp only [hpte, logPte]
      rfl

/-- Settles O60. -/
theorem outriderQueuesListsAndPacers : Obligations.OutriderQueuesListsAndPacers := by
  unfold Obligations.OutriderQueuesListsAndPacers
  exact ⟨outriderQueues, listsAndPacers⟩

end Sys2Proof.Proofs
end

section

/-! What a walk of a copy command moves, where, and what its end reports (R335-R341, R446, R451). -/

namespace Sys2Proof.Proofs

open Sys2Proof.Machine Sys2Proof.Laws Sys2Proof.Stated

/-! ### Index tuples and addresses (R336) -/

theorem cnt_pos (c : Copy) (k : Nat) : 0 < c.cnt k := Nat.lt_of_lt_of_le Nat.one_pos (Nat.le_max_left ..)

theorem index_lt_cnt (c : Copy) (pos k : Nat) : c.index pos k < c.cnt k := Nat.mod_lt _ (cnt_pos c k)

section

variable {c : Copy} {pos : Nat}

theorem index_unit {k : Nat} (h : c.cnt k = 1) : c.index pos k = 0 := by
  rw [Copy.index, h, Nat.mod_one]

section

variable (hwalk : c.walks = true) (hpos : pos < c.total) (h1 : c.cnt 1 = 1) (h2 : c.cnt 2 = 1) (h3 : c.cnt 3 = 1)
  (h4 : c.cnt 4 = 1) (h5 : c.cnt 5 = 1)

include h1 h2 h3 h4 h5

include hwalk hpos in
/-- A walk of one dimension has its linear index as its first. -/
theorem index_first : c.index pos 0 = pos := by
  have hcnt : pos < c.cnt 0 := by
    simpa [Copy.total, hwalk, List.range_succ, h1, h2, h3, h4, h5] using hpos
  simp [Copy.index, Nat.mod_eq_of_lt hcnt]

include hwalk hpos in
theorem srcAt_oneDimension (hbound : c.bnd 0 = 0) : (c.srcAt pos : Int) = ((c.src : Int) + pos * c.ss 0) % 2 ^ 64 := by
  have hsrc : c.srcAt pos = wrapInt 64 ((c.src : Int) + pos * c.ss 0) := by
    simp [Copy.srcAt, List.range_succ, index_first hwalk hpos h1 h2 h3 h4 h5, index_unit h1, index_unit h2,
      index_unit h3, index_unit h4, index_unit h5, hbound]
  rw [hsrc]
  exact Int.toNat_of_nonneg (Int.emod_nonneg _ (by decide))

include hwalk hpos in
theorem dstAt_oneDimension (hcode : c.code = 1) : (c.dstAt pos : Int) = ((c.dst : Int) + pos * c.ds 0) % 2 ^ 64 := by
  have hdst : c.dstAt pos = wrapInt 64 ((c.dst : Int) + pos * c.ds 0) := by
    simp [Copy.dstAt, hcode, List.range_succ, index_first hwalk hpos h1 h2 h3 h4 h5, index_unit h1, index_unit h2,
      index_unit h3, index_unit h4, index_unit h5]
  rw [hdst]
  exact Int.toNat_of_nonneg (Int.emod_nonneg _ (by decide))

end

end

/-! ### One element (R336-R339) -/

/-- The state after the walks of translation that an element's two addresses take. -/
def elemWalked (s : State) (t : Nat) (c : Copy) : State :=
  engineWalk (engineWalk s t c.asid (c.srcAt c.pos)) t c.asid (c.dstAt c.pos)

section

variable {s : State} {t : Nat} {c : Copy} {a d : Loc}
  (hsrc : engineLoc s t c.asid (c.srcAt c.pos) false false = some a)
  (hdst : engineLoc s t c.asid (c.dstAt c.pos) true true = some d) (hhome : a.home = t)
  (hready : stalled (elemWalked s t c) a.key = false) (hdready : d.home = t → stalled (elemWalked s t c) d.key = false)
  (hapart : copyOverlaps (elemWalked s t c) t c.id a.key c.elem = false)

include hready hdready hapart in
/-- Nothing holds the element up. -/
theorem elem_ready : ¬ (stalled (elemWalked s t c) a.key || (d.home == t && stalled (elemWalked s t c) d.key) ||
    copyOverlaps (elemWalked s t c) t c.id a.key c.elem ||
    ([] : List (Nat × List Byte)).any (fun w => overlaps w.1 w.2.length a.key c.elem)) = true := by
  have hwait : (d.home == t && stalled (elemWalked s t c) d.key) = false := by simpa using hdready
  rw [hready, hwait, hapart]
  exact Bool.false_ne_true

include hhome in
theorem elem_fresh (hfresh : staleAt (elemWalked s t c) t (some (c.asid, c.gen)) = false) : ¬ (staleAt (elemWalked s t c) a.home (some (c.asid, c.gen)) ||
    (d.home == t && staleAt (elemWalked s t c) t (some (c.asid, c.gen)))) = true := by
  rw [hhome, hfresh, Bool.and_false]
  exact Bool.false_ne_true

include hsrc hdst hhome hready hdready hapart

theorem moveElem_stale (hstale : staleAt (elemWalked s t c) t (some (c.asid, c.gen)) = true) :
    moveElem s t c [] = .stop (elemWalked s t c) 2 := by
  unfold moveElem
  rw [hsrc, hdst, ← elemWalked]
  dsimp only
  rw [if_neg (elem_ready hready hdready hapart), if_pos (by rw [hhome, hstale]; rfl)]

section

variable (hfresh : staleAt (elemWalked s t c) t (some (c.asid, c.gen)) = false)

include hfresh

theorem moveElem_guarded (hguard : guarded (elemWalked s t c) a.key c.elem = true ∨
    (d.home = t ∧ guarded (elemWalked s t c) d.key c.elem = true)) : moveElem s t c [] = .stop (elemWalked s t c) 1 := by
  unfold moveElem
  rw [hsrc, hdst, ← elemWalked]
  dsimp only
  rw [if_neg (elem_ready hready hdready hapart), if_neg (elem_fresh hhome hfresh), if_pos (by simpa using hguard)]

/-- An element moves: what it leaves at its own tile, and what it sends. -/
theorem moveElem_moves (hfree : guarded (elemWalked s t c) a.key c.elem = false)
    (hdfree : d.home = t → guarded (elemWalked s t c) d.key c.elem = false)
    (hunarmed : (elemWalked s t c).mgmt.inject.getLsbD 63 = false)
    (hclean : poisoned (elemWalked s t c) a.key c.elem = false) (hsector : c.sector = none) :
    let bs := memRead (elemWalked s t c).mem a.key c.elem
    let w := touchPage (elemWalked s t c) a.key c.elem
    moveElem s t c [] = .done (if d.home = t then engWrite w d.key bs else w) { c with
      pos := c.pos + 1, moved := c.moved + c.elem, crc := if c.crcOn = true then crcBytes c.crc bs else c.crc,
      sector := some (a.key / 32, none) } d.home (if d.home = t then [] else [(d.key, bs)]) false := by
  have hgo : (d.home == t && guarded (elemWalked s t c) d.key c.elem) = false := by simpa using hdfree
  have hhits (kind x y : Nat) : injHits (elemWalked s t c) kind x y = false := by
    rw [injHits, hunarmed]
    rfl
  have hinj : injRead (elemWalked s t c) a.key = false := by rw [injRead, hhits, Bool.and_false]
  have hread : unitRead (elemWalked s t c) a.key c.elem = (elemWalked s t c, false) := by
    simp only [unitRead, fireRead_of_not_injRead hinj, uncorrectable_eq_false hinj hclean]
  have hflip : sectorRead (elemWalked s t c) t c a.key = (elemWalked s t c, none) := by
    simp only [sectorRead, hsector, hhits, Bool.false_eq_true, if_false]
  unfold moveElem
  rw [hsrc, hdst, ← elemWalked]
  dsimp only
  rw [if_neg (elem_ready hready hdready hapart), if_neg (elem_fresh hhome hfresh),
    if_neg (by rw [hfree, hgo]; exact Bool.false_ne_true), hflip]
  dsimp only
  rw [hread]
  rfl

end

end

/-! ### Padding (R256, R340) -/

/-- A byte of a tile's scratchpad is zero in the array, and no store that its home has performed covers it. -/
def ZeroAt (s : State) (t x : Nat) : Prop := memGet s.mem (keyScratch t x) = 0 ∧
  ∀ e ∈ (s.tile t).merge, overlaps e.key e.bytes.length (keyScratch t x) 1 = false

theorem homeTile_keyScratch {t x : Nat} (ht : t < 1024) (hx : x < 2 ^ 21) : homeTile (keyScratch t x) = t := by
  rw [homeTile, keyScratch, if_pos (by omega)]
  omega

theorem memGet_drained {x : Nat} {es : List Merge} (h : ∀ e ∈ es, overlaps e.key e.bytes.length x 1 = false) (m : Mem) :
    memGet (drained m es) x = memGet m x := by
  induction es generalizing m with
  | nil => rfl
  | cons e r ih =>
    have hoff := of_decide_eq_false (h e (List.mem_cons_self ..))
    exact (ih (fun e' he' => h e' (List.mem_cons_of_mem _ he')) _).trans
      (memGet_memWrite_other _ (by omega))

section

variable {s : State} {k : Nat} {bs : List Byte} (hbs : bs ≠ [])

include hbs

theorem mem_engWrite : (engWrite s k bs).mem = memWrite (drained s.mem ((s.tile (homeTile k)).merge.take
    (drainCount (s.tile (homeTile k)).merge k bs.length))) k bs := by
  rw [engWrite, if_neg (by simpa using hbs)]
  show memWrite (touchPage (clearPoison (drainN ..) ..) ..).mem k bs = _
  rw [touchPage_keeps State.mem (fun _ _ _ => rfl), clearPoison_keeps State.mem (fun _ _ _ => rfl), (drainN_eq _ s _).1]

theorem merge_engWrite : ((engWrite s k bs).tile (homeTile k)).merge = (s.tile (homeTile k)).merge.drop
    (drainCount (s.tile (homeTile k)).merge k bs.length) := by
  rw [engWrite, if_neg (by simpa using hbs)]
  exact (tileField_touched Tile.merge (fun _ _ => rfl) (fun _ _ => rfl) (fun _ _ => rfl) _ k _ _).trans (drainN_eq _ s _).2

end

section

variable {s : State} {t : Nat}

/-- Zeros written by an engine are in the array, under no store. -/
theorem zeroAt_written {lo m x : Nat} (hm : s.MemOk) (hhome : homeTile (keyScratch t lo) = t) (hx : lo ≤ x ∧ x < lo + m) :
    ZeroAt (engWrite s (keyScratch t lo) (List.replicate m 0)) t x := by
  have hbs : List.replicate m (0 : Byte) ≠ [] := by
    rw [ne_eq, List.replicate_eq_nil_iff]
    omega
  have hkey : keyScratch t x = keyScratch t lo + (x - lo) := by
    rw [keyScratch, keyScratch]
    omega
  constructor
  · rw [mem_engWrite hbs, hkey, memGet_memWrite_inside _ (memWf_drained _ hm) (by rw [List.length_replicate]; omega),
      List.getElem_replicate]
  · intro e he
    have hmerge := merge_engWrite (s := s) (k := keyScratch t lo) hbs
    rw [hhome] at hmerge
    rw [hmerge] at he
    have hoff := of_decide_eq_false (overlaps_of_left he)
    rw [List.length_replicate] at hoff
    exact decide_eq_false (by omega)

/-- Bytes that are zero so stay zero when an engine writes elsewhere in the scratchpad. -/
theorem zeroAt_kept {lo x : Nat} {bs : List Byte} (hbs : bs ≠ []) (hhome : homeTile (keyScratch t lo) = t)
    (hx : x < lo) (hzero : ZeroAt s t x) : ZeroAt (engWrite s (keyScratch t lo) bs) t x := by
  obtain ⟨hmem, hclear⟩ := hzero
  constructor
  · rw [mem_engWrite hbs, hhome, memGet_memWrite_other _ (.inl (by rw [keyScratch, keyScratch]; omega)),
      memGet_drained (fun e he => hclear e (List.mem_of_mem_take he)), hmem]
  · intro e he
    have hmerge := merge_engWrite (s := s) (k := keyScratch t lo) hbs
    rw [hhome] at hmerge
    rw [hmerge] at he
    exact hclear e (List.mem_of_mem_drop he)

theorem guarded_none {k n : Nat} (h : (s.tile (homeTile k)).guardBits = []) : guarded s k n = false := by
  rw [guarded, h, List.any_nil, Bool.and_false]

end

/-- What padding leaves so far: nothing refused, and the bytes below `hi` zero. -/
def Padded (t a n hi : Nat) (e : State × Nat) : Prop :=
  e.1.MemOk ∧ (e.1.tile t).guardBits = [] ∧ e.2 = 0 ∧ ∀ x, a ≤ x → x < a + n → x < hi → ZeroAt e.1 t x

/-- The padding of one sector of a slot. -/
def padSector (t a n : Nat) (e : State × Nat) (i : Nat) : State × Nat :=
  let x := 32 * (a / 32 + i)
  let lo := max a x
  let m := min (a + n) (x + 32) - lo
  if m = 0 then e
  else if !inScratch lo m || guarded e.1 (keyScratch t lo) m then (e.1, e.2 + 1)
  else (engWrite e.1 (keyScratch t lo) (List.replicate m 0), e.2)

theorem padSlot_eq (s : State) (t a n : Nat) : padSlot s t a n =
    (List.range ((a + n + 31) / 32 - a / 32)).foldl (padSector t a n) (s, 0) := rfl

section

variable {t a n : Nat} (ht : t < 1024) (hfit : a + n ≤ Config.tableArea)

include ht hfit

theorem padded_padSector {e : State × Nat} {i : Nat} (h : Padded t a n (32 * (a / 32 + i)) e) :
    Padded t a n (32 * (a / 32 + (i + 1))) (padSector t a n e i) := by
  obtain ⟨hm, hbits, hnone, hzero⟩ := h
  unfold padSector
  dsimp only
  have harea : Config.tableArea = 0x1E0000 := rfl
  split
  · exact ⟨hm, hbits, hnone, fun x hlo hhi hx => hzero x hlo hhi (by omega)⟩
  · rename_i hsome
    have hhome : homeTile (keyScratch t (max a (32 * (a / 32 + i)))) = t := homeTile_keyScratch ht (by omega)
    rw [if_neg (by
      rw [guarded_none (by rw [hhome]; exact hbits), inScratch, decide_eq_true (by omega)]
      exact Bool.false_ne_true)]
    refine ⟨memOk_engWrite _ _ _ hm, ?_, hnone, fun x hlo hhi hx => ?_⟩
    · exact (tileField_engWrite Tile.guardBits (fun _ _ => rfl) (fun _ _ => rfl) (fun _ _ => rfl) (fun _ _ => rfl)
        ..).trans hbits
    · by_cases hold : x < 32 * (a / 32 + i)
      · refine zeroAt_kept ?_ hhome (by omega) (hzero x hlo hhi hold)
        rw [ne_eq, List.replicate_eq_nil_iff]
        exact hsome
      · exact zeroAt_written hm hhome (by omega)

theorem padded_foldl {s : State} (hm : s.MemOk) (hbits : (s.tile t).guardBits = []) (j : Nat) :
    Padded t a n (32 * (a / 32 + j)) ((List.range j).foldl (padSector t a n) (s, 0)) := by
  induction j with
  | zero => exact ⟨hm, hbits, rfl, fun x hlo _ hx => absurd hx (by omega)⟩
  | succ j ih =>
    rw [List.range_succ, List.foldl_append]
    exact padded_padSector ht hfit ih

theorem padSlot_zeros {s : State} (hm : s.MemOk) (hbits : (s.tile t).guardBits = []) : (padSlot s t a n).2 = 0 ∧
    ∀ i, i < n → memRead (padSlot s t a n).1.mem (keyScratch t (a + i)) 1 = [0] := by
  obtain ⟨-, -, hnone, hzero⟩ := padded_foldl ht hfit hm hbits ((a + n + 31) / 32 - a / 32)
  rw [← padSlot_eq] at hnone hzero
  refine ⟨hnone, fun i hi => ?_⟩
  rw [memRead_one, (hzero (a + i) (by omega) (by omega) (by omega)).1]

end

/-! ### Transfers and slots of a stream (R337, R340) -/

section

variable {s : State} {c : Copy} (hcmd : cmdAt s s.ev.who s.ev.idx = some c)

include hcmd

section

variable (hmay : c.mayMove = true) (hcool : (s.tile s.ev.who).thermal ≠ .hold)

include hmay hcool

theorem copyTransfer_stops {s1 : State} {cls : Nat} (h : moveElem s s.ev.who c [] = .stop s1 cls) :
    exec .copyTransfer s = .next (setCmd s1 s.ev.who { c with cls := cls, stopped := true }) := by
  rw [exec_copyTransfer, execCopyTransfer]
  refine eventStep_of_some ?_
  simp [tryCopyTransfer, hcmd, hmay, hcool, h]

theorem copyTransfer_moves {s1 : State} {c1 : Copy} {home : Nat} {w : List (Nat × List Byte)} {bad : Bool}
    (h : moveElem s s.ev.who c [] = .done s1 c1 home w bad) :
    let r := moveMore s1 s.ev.who (recheck s1 s.ev.who c1) w bad 31
    exec .copyTransfer s =
      .next (setCmd (sendSector r.1 s.ev.who r.2.1 home r.2.2.1 r.2.2.2) s.ev.who r.2.1) := by
  rw [exec_copyTransfer, execCopyTransfer]
  refine eventStep_of_some ?_
  simp [tryCopyTransfer, hcmd, hmay, hcool, h]

end

section

variable (hstream : c.code = 2) (hstarted : c.started = true) (hlive : c.stopped = false) (hok : c.cls = 0)

include hstream hstarted hlive hok

theorem streamSlotFill_whole (hfull : c.moved = c.slot * c.slotBytes + c.slotBytes) (hsize : 0 < c.slotBytes)
    (hmore : c.pos < c.total) : exec .streamSlotFill s = .next (setCmd (listReport (copyArrive s s.ev.who c 0 0)
      s.ev.who c.list 0 0) s.ev.who { c with slot := c.slot + 1, cls := 0 }) := by
  have hdone : c.moved - c.slot * c.slotBytes = c.slotBytes := by omega
  have hlast : (c.pos == c.total) = false := by
    simpa using Nat.ne_of_lt hmore
  rw [exec_streamSlotFill, execStreamSlotFill]
  refine eventStep_of_some ?_
  simp [tryStreamSlotFill, hcmd, hstream, hstarted, hlive, hok, hdone, hlast, Nat.ne_of_gt hsize]

theorem streamSlotFill_last (hsome : c.slot * c.slotBytes < c.moved) (hpart : c.moved < c.slot * c.slotBytes + c.slotBytes)
    (hlast : c.pos = c.total) :
    let done := c.moved - c.slot * c.slotBytes
    let pad := padSlot s s.ev.who (c.wbase + c.slotBytes * (c.slot % c.nslot) + done) (c.slotBytes - done)
    let w := writeCrco pad.1 s.ev.who c
    let code := if c.crcBad = true then 3 else 0
    pad.2 = 0 → w.2 = 0 → exec .streamSlotFill s = .next (setCmd (listReport (copyArrive w.1 s.ev.who c code 0)
      s.ev.who c.list code 0) s.ev.who { c with slot := c.slot + 1, cls := 0 }) := by
  intro done pad w code hpad hw
  have hpos : 0 < done := Nat.sub_pos_of_lt hsome
  have hless : done < c.slotBytes := by omega
  rw [exec_streamSlotFill, execStreamSlotFill]
  refine eventStep_of_some ?_
  have hend : (c.pos == c.total) = true := by simp [hlast]
  have hgo : ¬ (decide (c.code ≠ 2) || !c.started || decide (done = 0) || !(decide (c.slotBytes ≤ done) ||
      (c.pos == c.total && !c.stopped))) = true := by
    simp [hstream, hstarted, hlive, hend, Nat.ne_of_gt hpos]
  simp only [tryStreamSlotFill, hcmd]
  rw [if_neg hgo]
  simp only [hend, if_true, if_pos (show c.moved - c.slot * c.slotBytes < c.slotBytes from hless),
    show (padSlot s s.ev.who (c.wbase + c.slotBytes * (c.slot % c.nslot) + (c.moved - c.slot * c.slotBytes))
      (c.slotBytes - (c.moved - c.slot * c.slotBytes))).2 = 0 from hpad,
    show (writeCrco (padSlot s s.ev.who (c.wbase + c.slotBytes * (c.slot % c.nslot) + (c.moved - c.slot * c.slotBytes))
      (c.slotBytes - (c.moved - c.slot * c.slotBytes))).1 s.ev.who c).2 = 0 from hw,
    hok, hlive, Nat.add_zero, ne_eq, not_true, if_false, Bool.true_and, Bool.false_eq_true, Bool.not_false,
    if_neg (show ¬ (0 : Nat) = 4 by decide)]
  rfl

end

/-! ### The end of a copy (R296, R339-R341) -/

section

variable (hcopy : c.code = 1)

include hcopy

theorem copyComplete_ends (hstarted : c.started = true) (hwalked : c.stopped = true ∨ c.pos = c.total)
    (hidle : copyBusy s s.ev.who c.id = false) : exec .copyComplete s = .next (endCopy s s.ev.who c) := by
  have hend : (c.stopped || c.pos == c.total) = true := by simpa using hwalked
  rw [exec_copyComplete, execCopyComplete]
  refine eventStep_of_some ?_
  simp [tryCopyComplete, hcmd, hcopy, hstarted, hend, hidle]

end

end

section

variable {s : State} {t : Nat} {c : Copy} (hcopy : c.code = 1)

include hcopy

section

variable (hplain : c.crcOn = false)

include hplain

theorem endCopy_walked (hwhole : c.stopped = false) (hok : c.cls = 0) (hunchecked : c.checks = false) :
    endCopy s t c = delCmd (listReport (copyArrive s t c 0 c.aband) t c.list 0 c.aband) t c.id := by
  simp [endCopy, endChain, setChain, writeCrco, hcopy, hplain, hwhole, hok, Copy.crcBad, hunchecked]

theorem endCopy_stopped (hstopped : c.stopped = true) : endCopy s t c = delCmd (listReport (copyArrive s t c c.cls
    (c.aband + abandoned s t c)) t c.list c.cls (c.aband + abandoned s t c)) t c.id := by
  simp [endCopy, endChain, setChain, writeCrco, hcopy, hplain, hstopped, Copy.walks]

end

theorem mem_sectorsLeft (x : Nat) : x ∈ c.sectorsLeft ↔ ∃ i, c.pos ≤ i ∧ i < c.total ∧ x = c.dstAt i / 32 := by
  simp only [Copy.sectorsLeft, List.mem_dedup, List.mem_map, List.mem_range, Copy.sectorAt, hcopy,
    if_neg (show ¬ 1 = 2 by decide)]
  constructor
  · rintro ⟨i, hi, rfl⟩
    exact ⟨c.pos + i, by omega, by omega, rfl⟩
  · rintro ⟨i, hpos, hi, rfl⟩
    exact ⟨i - c.pos, by omega, by rw [Nat.add_sub_cancel' hpos]⟩

omit hcopy in
/-- Where no home refused a sector, each sector left counts. -/
theorem abandoned_noneRefused (hnone : c.refused = []) : abandoned s t c = c.sectorsLeft.length := by
  rw [abandoned, hnone, List.length_nil, Nat.zero_add]
  refine congrArg List.length (List.filter_eq_self.mpr fun a _ => ?_)
  cases engineLoc s t c.asid (32 * a) true true <;> simp

end

theorem copyArrive_clean (s : State) (t : Nat) (c : Copy) : copyArrive s t c 0 0 =
    if c.bar = 0 then s else sendWork s t t .none (cmdSlot s t c) (.arrival c.bar 1 false 0 0) := by
  by_cases hbar : c.bar = 0
  · simp [copyArrive, hbar]
  · simp [copyArrive, hbar, sendArrival]

/-- Settles O30. -/
theorem outriderWalks : Obligations.OutriderWalks := by
  unfold Obligations.OutriderWalks
  refine ⟨fun c pos => ⟨fun k _ => index_lt_cnt c pos k, fun hwalk hpos h1 h2 h3 h4 h5 hbound =>
      ⟨srcAt_oneDimension hwalk hpos h1 h2 h3 h4 h5 hbound, dstAt_oneDimension hwalk hpos h1 h2 h3 h4 h5⟩⟩,
    ?element, ?transfer, ?slot, fun s t a n hfit hbits hm ht => padSlot_zeros ht hfit hm hbits, ?complete,
    fun s t c hcopy => ⟨List.nodup_dedup _, mem_sectorsLeft hcopy, abandoned_noneRefused⟩, copyArrive_clean⟩
  case element =>
    intro s t c a d n w0 hsrc hdst bs c' hhome hready hdready hapart
    refine ⟨moveElem_stale hsrc hdst hhome hready hdready hapart,
      moveElem_guarded hsrc hdst hhome hready hdready hapart, fun hfresh hfree hunarmed hclean hsector => ?_⟩
    have hmoves (hdfree : d.home = t → guarded w0 d.key n = false) :=
      moveElem_moves hsrc hdst hhome hready hdready hapart hfresh hfree hdfree hunarmed hclean hsector
    refine ⟨fun hown hdfree => ?_, fun hother => ?_⟩
    · refine (hmoves fun _ => hdfree).trans ?_
      rw [if_pos hown, if_pos hown, hown]
      rfl
    · refine (hmoves fun hown => absurd hown hother).trans ?_
      rw [if_neg hother, if_neg hother]
      rfl
  case transfer =>
    intro s c t hcmd hmay hcool
    exact ⟨fun s1 cls => copyTransfer_stops hcmd hmay hcool,
      fun s1 c1 home w bad => copyTransfer_moves hcmd hmay hcool⟩
  case slot =>
    intro s c t b next hcmd hstream hstarted hlive hok
    have hnext : next = { c with slot := c.slot + 1, cls := 0 } := rfl
    rw [hnext]
    exact ⟨streamSlotFill_whole hcmd hstream hstarted hlive hok, streamSlotFill_last hcmd hstream hstarted hlive hok⟩
  case complete =>
    intro s c t hcmd hcopy hstarted hwalked hidle
    exact ⟨copyComplete_ends hcmd hcopy hstarted hwalked hidle, endCopy_walked hcopy, endCopy_stopped hcopy⟩

end Sys2Proof.Proofs
end

section

/-! The steps of the matrix transfers TLD, TST and TDRAIN (R224, R225, R227, R228, R239). -/

namespace Sys2Proof.Proofs

open Sys2Proof.Machine Sys2Proof.Laws Sys2Proof.Stated

/-! ### What reports and steps change -/

section

variable (s : State) (t : Nat)

@[simp] theorem unitOf_setUnit (u : MatUnit) : unitOf (setUnit s t u) t = u := by
  rw [unitOf, setUnit, State.tile_modTile]

@[simp] theorem unitOf_countPerf (t' ev n : Nat) : unitOf (countPerf s t' ev n) t = unitOf s t :=
  tileField_countPerf s t' ev n (fun x => x.matrix.unit) (fun _ _ => rfl) t

theorem matrix_countPerf (t' ev n : Nat) : ((countPerf s t' ev n).tile t).matrix = (s.tile t).matrix :=
  tileField_countPerf s t' ev n Tile.matrix (fun _ _ => rfl) t

theorem cur_setCur (c : Option Current) : ((setCur s t c).tile t).matrix.cur = c := by
  rw [setCur, State.tile_modTile]

theorem matArrive_tile (c : MatCmd) (cls ab u : Nat) : (matArrive s t c cls ab).tile u = s.tile u := by
  unfold matArrive
  split
  · exact sendArrival_keeps (State.tile · u) (fun _ _ _ _ => rfl) ..
  · split <;> rfl

/-- A report leaves the carriage and the unit; at most its command joins those whose writes are under way. -/
theorem matDone_cur (id : Nat) (c : MatCmd) (cls ab : Nat) (refused : List Nat) :
    ((matDone s t id c cls ab refused).tile t).matrix.cur = (s.tile t).matrix.cur ∧
      unitOf (matDone s t id c cls ab refused) t = unitOf s t := by
  unfold matDone
  split
  · rw [unitOf, State.tile_modTile]
    exact ⟨rfl, rfl⟩
  · rw [unitOf, matArrive_tile]
    exact ⟨rfl, rfl⟩

section

variable {s t} {c : Current} {steps : Nat}

theorem stepDone_next (h : c.step + 1 < steps) :
    stepDone s t c steps = setCur (countPerf s t 5 1) t (some { c with step := c.step + 1 }) := if_pos h

theorem stepDone_end (h : steps ≤ c.step + 1) : stepDone s t c steps = endCmd (countPerf s t 5 1) t c :=
  if_neg (Nat.not_lt.mpr h)

theorem endCmd_cur : ((endCmd s t c).tile t).matrix.cur = none :=
  (matDone_cur _ t c.id c.cmd c.cls 0 c.refused).1.trans (cur_setCur s t none)

end

end

theorem guards_nil (c : Current) : c.guards [] = c := rfl

/-! ### Loads (R211, R224) -/

section

variable {u : MatUnit} {n i w : Nat} {els scs : List Byte} {b : Bool}

theorem loadRow_inside {j : Nat} (h : storeWf 0 u.tr = true) (hj : j < els.length) :
    storeGet 0 (u.loadRow n i w els scs b).tr (8192 * n + i * cfgRsz w + j) = els.getD j 0 := by
  rw [List.getD_eq_getElem _ _ hj]
  exact storeGet_storeWrite_inside 0 els h hj

theorem loadRow_outside {x : Nat} (h : x < 8192 * n + i * cfgRsz w ∨ 8192 * n + i * cfgRsz w + els.length ≤ x) :
    storeGet 0 (u.loadRow n i w els scs b).tr x = storeGet 0 u.tr x := storeGet_storeWrite_other 0 els h

theorem loadRow_bad (h : storeWf false u.poison = true) : (u.loadRow n i w els scs b).bad n i = b :=
  storeGet_storeSet_same false _ b h

end

/-- A row none of whose blocks is in error or malformed is loaded without poison. -/
theorem loadRowStep_clean {s : State} {t : Nat} {c : Current} {w : Nat} {pe pc : List (Option (List Piece))}
    (h1 : ∀ b ∈ (readSpans s pe).2.2, b = false) (h2 : ∀ b ∈ (readSpans (readSpans s pe).1 pc).2.2, b = false)
    (hscale : ∀ b, b < cfgKb w → cfgScl w ≠ 0 →
      scaleBad (cfgScl w) ((readSpans (readSpans s pe).1 pc).2.1.getD b 0).toNat = false) :
    let r1 := readSpans s pe
    let r2 := readSpans r1.1 pc
    loadRowStep s t c w pe pc = stepDone (setUnit r2.1 t ((unitOf r2.1 t).loadRow c.cmd.fA c.step w r1.2.1 r2.2.1 false)) t
      { c with moved := c.moved + cfgRsz w } (cfgRows w) := by
  intro r1 r2
  have hgetD {l : List Bool} (h : ∀ b ∈ l, b = false) (b : Nat) : l.getD b false = false := by
    by_cases hb : b < l.length
    · rw [List.getD_eq_getElem _ _ hb]
      exact h _ (List.getElem_mem hb)
    · exact List.getD_eq_default _ _ (Nat.not_lt.mp hb)
  have hany {l : List Bool} (h : ∀ b ∈ l, b = false) : l.any id = false := by simpa using h
  have hmal : (List.range (cfgKb w)).filter (fun b => r1.2.2.getD b false || r2.2.2.getD b false ||
      (cfgScl w != 0 && scaleBad (cfgScl w) (r2.2.1.getD b 0).toNat)) = [] := by
    refine List.filter_eq_nil_iff.mpr fun b hb => ?_
    rw [hgetD h1, hgetD h2]
    by_cases hnone : cfgScl w = 0
    · simp [hnone]
    · rw [hscale b (List.mem_range.mp hb) hnone, Bool.and_false]
      exact Bool.false_ne_true
  unfold loadRowStep
  dsimp only
  rw [hany h1, hany h2, hmal]
  rfl

/-! ### What a gate makes of a step (R224, R239) -/

/-- A step that traps, stops or goes as its gate says; one that waits is not taken. -/
def gated (g : StepGate) (trap stop : Nat → State) (go : List Piece → State) : Option State :=
  match g with
  | .wait => none
  | .trap k => some (trap k)
  | .stop cls => some (stop cls)
  | .go l => some (go l)

section

variable {f : State → Option State} {s : State} {g : StepGate} {trap stop : Nat → State} {go : List Piece → State}
  (hf : f s = gated g trap stop go)

include hf

theorem eventStep_trap {k : Nat} (h : g = .trap k) : eventStep f s = .next (trap k) :=
  eventStep_of_some (hf.trans (by rw [h]; rfl))

theorem eventStep_stop {cls : Nat} (h : g = .stop cls) : eventStep f s = .next (stop cls) :=
  eventStep_of_some (hf.trans (by rw [h]; rfl))

theorem eventStep_go {l : List Piece} (h : g = .go l) : eventStep f s = .next (go l) :=
  eventStep_of_some (hf.trans (by rw [h]; rfl))

end

section

variable {s : State} {c : Current}

/-! ### TLD (R224) -/

/-- The ranges of row `i` of a TLD into a register of configuration `w`: the last row of a descriptor repeats. -/
def tldRowSpans (c : MatCmd) (w i : Nat) : List (Nat × Nat) × List (Nat × Nat) :=
  tldSpans c w (min i ((if natAt c.desc 26 1 = 0 then cfgRows w else natAt c.desc 26 1) - 1))

/-- A step of TLD. -/
theorem tryTldStep_gated (hstep : stepOf s 0xA1 = some c) :
    let t := s.ev.who
    let w := (unitOf s t).cfg c.cmd.fA
    let spans := tldRowSpans c.cmd w
    let pe := spanPieces s t c.cmd.asid false (spans c.step).1
    let pc := spanPieces s t c.cmd.asid false (spans c.step).2
    let w0 := walkSpans s t c.cmd.asid ((spans c.step).1 ++ (spans c.step).2)
    tryTldStep s = gated (stepGate s t c (joinPieces (pe ++ pc)) (cfgRsz w)) (carriageTrap w0 t)
      (fun cls => stopCmd (setUnit w0 t ((unitOf w0 t).leaveRows c.cmd.fA c.step (cfgRows w))) t c cls false
        (rowsLeft (fun i => (spans i).1 ++ (spans i).2) c.step (cfgRows w)))
      (fun _ => loadRowStep w0 t c w pe pc) := by
  unfold tryTldStep
  rw [hstep]
  rfl

/-! ### TST (R225) -/

/-- A step of TST. -/
theorem tryTstStep_gated (hstep : stepOf s 0xA2 = some c) (hlive : c.stopped = false) :
    let t := s.ev.who
    let w := (unitOf s t).cfg c.cmd.fA
    let spans := tstSpans c.cmd w
    let w0 := walkSpans s t c.cmd.asid (spans c.step)
    let s0 := readRows w0 t c.cmd.lslot c.cmd.fA [c.step]
    let u := unitOf s0 t
    let put (l : List Piece) := writePieces s0 t (.matrix t c.id) c.cmd.lslot c.cmd.tag l
      (storeRead 0 u.tr (8192 * c.cmd.fA + c.step * cfgRsz w) (cfgRsz w) ++
        (if cfgScl w = 0 then [] else storeRead 0 u.scale (512 * c.cmd.fA + 8 * c.step) (cfgKb w)))
    tryTstStep s = gated (stepGate s t c (joinPieces (spanPieces s t c.cmd.asid true (spans c.step))) (cfgRsz w))
      (carriageTrap w0 t) (fun cls => stopCmd w0 t c cls true (rowsLeft spans c.step (cfgRows w)))
      (fun l => stepDone (put l).1 t { (if u.bad c.cmd.fA c.step then c.fail 4 else c).guards (put l).2 with
        moved := c.moved + cfgRsz w } (cfgRows w)) := by
  unfold tryTstStep
  rw [hstep]
  dsimp only
  rw [if_neg (by rw [hlive]; exact Bool.false_ne_true)]
  rfl

/-! ### TDRAIN (R227, R228) -/

/-- A step of TDRAIN. -/
theorem tryTdrainStep_gated (hstep : stepOf s 0xA4 = some c) (hlive : c.stopped = false) :
    let t := s.ev.who
    let n := c.cmd.dCols * ofmtBits c.cmd.dFmt / 8
    let dst (i : Nat) : Nat := addrPlus c.cmd.b.toNat ((i : Int) * sint 64 c.cmd.c.toNat)
    let w0 := engineWalks s t c.cmd.asid (dst c.step) n
    let s1 := drainCheck w0 t c.cmd c.step
    let put (l : List Piece) := writePieces
      (setUnit s1 t (if c.cmd.dZd then (unitOf s1 t).zeroRow c.cmd.dK c.step else unitOf s1 t)) t (.matrix t c.id)
      c.cmd.lslot c.cmd.tag l (packCodes (ofmtBits c.cmd.dFmt) (drainRow (unitOf w0 t) c.cmd c.step).1)
    tryTdrainStep s = gated (stepGate s t c (engPieces s t c.cmd.asid (dst c.step) n true false) n) (carriageTrap w0 t)
      (fun cls => stopCmd s1 t c cls true (rowsLeft (fun i => [(dst i, n)]) c.step c.cmd.dRows))
      (fun l => stepDone (put l).1 t { c.guards (put l).2 with moved := c.moved + n } c.cmd.dRows) := by
  unfold tryTdrainStep
  rw [hstep]
  dsimp only
  rw [if_neg (by rw [hlive]; exact Bool.false_ne_true)]
  rfl

end

section

variable {s : State} {t k lslot : Nat}

/-- A row whose checksum disagrees has one entry, of kind 0x0A (R228). -/
theorem reportRows_one (i : Nat) : reportRows s t k lslot [i] =
    logAt (countEvent (setUnit s t ((unitOf s t).stick k 8)) t 6) 0x0A 0 t lslot i k := rfl

theorem natAt_logEntry_kind {kind : Nat} (h : kind < 256) (cause tile ctx flags slot fwd drop lost pc addr code cycle : Nat) :
    natAt (logEntry kind cause tile ctx flags slot fwd drop lost pc addr code cycle) 0 1 = kind := by
  simp [natAt, sliceB, logEntry, bytesLE, natLE, Nat.mod_eq_of_lt h]

variable {c : MatCmd} {i : Nat}

theorem drainCheck_agrees (h : (unitOf s t).rowOk c.dK i = true) : drainCheck s t c i =
    let s0 := readAcc s t c.lslot c.dK [i]
    setUnit s0 t ((unitOf s0 t).stick c.dK (drainRow (unitOf s t) c i).2) := by
  have hnone : badRows (unitOf s t) c.dK [i] = [] := by simp [badRows, h]
  rw [drainCheck, hnone]
  rfl

theorem drainCheck_disagrees (h : (unitOf s t).rowOk c.dK i = false) : (drainCheck s t c i).mgmt.logWait =
    (readAcc s t c.lslot c.dK [i]).mgmt.logWait ++ [logEntry 0x0A 0 t 0 0 c.lslot 0 0 0 0 i c.dK
      (readAcc s t c.lslot c.dK [i]).cycle] := by
  have hone : badRows (unitOf s t) c.dK [i] = [i] := by simp [badRows, h]
  rw [drainCheck, hone, reportRows_one]
  rfl

end

/-- Settles O28. -/
theorem matrixTransfers : Obligations.MatrixTransfers := by
  unfold Obligations.MatrixTransfers
  refine ⟨?tld, ?tst, ?tdrain, ?row, ?done⟩
  case tld =>
    intro s c t n w d rows rb row els scs pe pc gate w0 hstep
    have htry := tryTldStep_gated hstep
    refine ⟨fun k h => (exec_tldStep s).trans (eventStep_trap htry h),
      fun cls h => (exec_tldStep s).trans (eventStep_stop htry h),
      fun l h => (exec_tldStep s).trans (eventStep_go htry h), ?_⟩
    intro r1 r2 h1 h2 hscale
    exact loadRowStep_clean h1 h2 hscale
  case tst =>
    intro s c t n v w d spans gate w0 hstep hlive
    have htry := tryTstStep_gated hstep hlive
    refine ⟨fun k h => (exec_tstStep s).trans (eventStep_trap htry h),
      fun cls h => (exec_tstStep s).trans (eventStep_stop htry h), fun l h => ?_⟩
    intro s0 u r hnone
    have hgo : exec .tstStep s = .next (stepDone r.1 t { (if u.bad n c.step = true then c.fail 4 else c).guards r.2 with
      moved := c.moved + cfgRsz w } (cfgRows w)) := (exec_tstStep s).trans (eventStep_go htry h)
    rw [hnone, guards_nil] at hgo
    refine ⟨fun hgood => hgo.trans ?_, fun hbad => hgo.trans ?_⟩
    · rw [if_neg (by rw [hgood]; exact Bool.false_ne_true)]
    · rw [if_pos hbad]
      rfl
  case tdrain =>
    intro s c t k n dst gate w0 v s1 hstep hlive
    have htry := tryTdrainStep_gated hstep hlive
    refine ⟨fun k h => (exec_tdrainStep s).trans (eventStep_trap htry h),
      fun cls h => (exec_tdrainStep s).trans (eventStep_stop htry h), fun l h => ?_, drainCheck_agrees,
      fun h => ⟨_, drainCheck_disagrees h, natAt_logEntry_kind (by decide) ..⟩⟩
    intro r hnone
    refine ((exec_tdrainStep s).trans (eventStep_go htry h)).trans ?_
    show Host.Outcome.next (stepDone r.1 t { c.guards r.2 with moved := c.moved + n } c.cmd.dRows) = _
    rw [hnone, guards_nil]
  case row =>
    intro u n i w j els scs b hwf hj
    exact ⟨loadRow_inside hwf hj, fun x hx => loadRow_outside hx, loadRow_bad⟩
  case done =>
    intro s t c steps
    refine ⟨fun h => ?_, fun h => ?_⟩
    · rw [stepDone_next h, cur_setCur]
    · rw [stepDone_end h, endCmd_cur]

end Sys2Proof.Proofs
end

section

/-! The command queue of the matrix unit, its one-step commands and its holder (R217, R218, R221, R222, R226, R229,
R236, R240). -/

namespace Sys2Proof.Proofs

open Sys2Proof.Machine Sys2Proof.Laws Sys2Proof.Stated

/-! ### Arrival and choice (R217, R218) -/

theorem matrixCmdArrival_queues {s : State} {id : Nat} {p : Packet} {c : MatCmd}
    (hitem : item s s.ev.who s.ev.idx = some (id, p)) (hfresh : pktStale s p = false) (hwork : p.work = .matrix c)
    (hroom : (s.tile s.ev.who).matrix.queue.length < 64) : exec .matrixCmdArrival s =
      .next (finish (s.modTile s.ev.who (fun x => { x with
        matrix := { x.matrix with queue := x.matrix.queue ++ [c] } })) id none) := by
  rw [exec_matrixCmdArrival, execMatrixCmdArrival]
  refine eventStep_of_some ?_
  simp [tryMatrixCmdArrival, hitem, hfresh, hwork, Nat.not_le.mpr hroom]

section

variable {s : State} {c : MatCmd} {r : List MatCmd} (hqueue : (s.tile s.ev.who).matrix.queue = c :: r)

include hqueue

/-- The tile with its oldest command taken, in its clear state where it had no holder. -/
def cmdTaken (s : State) (t : Nat) (r : List MatCmd) : State :=
  let s1 := s.modTile t (fun x => { x with matrix := { x.matrix with queue := r } })
  if (s.tile t).matrix.holder.isNone then setUnit s1 t MatUnit.clear else s1

omit hqueue in
theorem cmdTaken_keeps (s : State) (t : Nat) (r : List MatCmd) : ((cmdTaken s t r).tile t).matrix.queue = r ∧
    (cmdTaken s t r).cycle = s.cycle := by
  unfold cmdTaken
  dsimp only
  split
  · rw [setUnit, State.tile_modTile, State.tile_modTile]
    exact ⟨rfl, rfl⟩
  · rw [State.tile_modTile]
    exact ⟨rfl, rfl⟩

section

variable (hmay : mayTake (s.tile s.ev.who).matrix c = true)
  (hholder : (s.tile s.ev.who).matrix.holder = some c.lslot ∨
    ((s.tile s.ev.who).matrix.holder = none ∧ imageOf s c.lslot s.ev.who = none))

include hmay hholder

omit hqueue hmay in
/-- The unit serves this launch, or may begin to. -/
theorem holder_serves : ¬ ((s.tile s.ev.who).matrix.holder.isSome && (s.tile s.ev.who).matrix.holder != some c.lslot) = true ∧
    ¬ ((s.tile s.ev.who).matrix.holder.isNone && (imageOf s c.lslot s.ev.who).isSome) = true := by
  rcases hholder with h | ⟨h, hnone⟩
  · simp [h]
  · simp [h, hnone]

theorem matrixCmdTake_rejects {cause : Nat} (hfault : arrivalFault (cmdTaken s s.ev.who r) s.ev.who c = some cause) :
    exec .matrixCmdTake s = .next (rejectCmd (cmdTaken s s.ev.who r) s.ev.who c cause) := by
  obtain ⟨hserved, hsaved⟩ := holder_serves hholder
  rw [exec_matrixCmdTake, execMatrixCmdTake]
  refine eventStep_of_some ?_
  unfold tryMatrixCmdTake
  dsimp only
  rw [hqueue]
  dsimp only
  rw [if_neg (by rw [hmay]; exact Bool.false_ne_true), if_neg hserved, if_neg hsaved]
  generalize hf : arrivalFault _ _ c = f
  obtain rfl := hf.symm.trans hfault
  rfl

theorem matrixCmdTake_starts (hpass : arrivalFault (cmdTaken s s.ev.who r) s.ev.who c = none) :
    exec .matrixCmdTake s = .next (startCmd (cmdTaken s s.ev.who r) s.ev.who c) := by
  obtain ⟨hserved, hsaved⟩ := holder_serves hholder
  rw [exec_matrixCmdTake, execMatrixCmdTake]
  refine eventStep_of_some ?_
  unfold tryMatrixCmdTake
  dsimp only
  rw [hqueue]
  dsimp only
  rw [if_neg (by rw [hmay]; exact Bool.false_ne_true), if_neg hserved, if_neg hsaved]
  generalize hf : arrivalFault _ _ c = f
  obtain rfl := hf.symm.trans hpass
  rfl

end

/-- A command waits while another runs, and a transfer while stores of the ring are under way. -/
theorem matrixCmdTake_waits (h : (s.tile s.ev.who).matrix.cur ≠ none ∨ (c.opc ∈ [0xA1, 0xA2, 0xA4, 0xA5] ∧
    ((s.tile s.ev.who).matrix.pending ≠ [] ∨ (s.tile s.ev.who).matrix.unit.tiles ≠ []))) :
    exec .matrixCmdTake s = .next s := by
  have hmay : mayTake (s.tile s.ev.who).matrix c = false := by
    rcases h with hbusy | ⟨hopc, hpending⟩
    · simp [mayTake, hbusy]
    · have hover : c.mayOverlap = false := by
        simp only [List.mem_cons, List.not_mem_nil, or_false] at hopc
        rcases hopc with h | h | h | h <;> simp [MatCmd.mayOverlap, h]
      rcases hpending with h | h <;> simp [mayTake, hover, h]
  rw [exec_matrixCmdTake, execMatrixCmdTake]
  refine eventStep_of_none ?_
  simp [tryMatrixCmdTake, hqueue, hmay]

end

theorem startCmd_leaves {s : State} {t : Nat} {c : MatCmd} (h : c.opc ≠ 0xA6) : ((startCmd s t c).tile t).matrix =
    { (s.tile t).matrix with holder := some c.lslot, cur := some ⟨s.cycle, c, 0, 0, 0, [], false, 0, false⟩ } := by
  rw [startCmd]
  dsimp only
  rw [if_neg h, setCur, State.tile_modTile, State.tile_modTile]

/-! ### What reads of the unit's storage find (R211, R212, R252) -/

section

variable {u : MatUnit} {n i : Nat} {rows : List Nat} {e : Nat × Bool}

theorem errHits_iff : u.errHits n i e = true ↔ (e.1 < 8192 ∧ e.1 / 512 = n ∧
      overlaps (16 * (e.1 % 512)) 16 (i * cfgRsz (u.cfg n)) (cfgRsz (u.cfg n)) = true) ∨
    (8192 ≤ e.1 ∧ cfgScl (u.cfg n) ≠ 0 ∧ e.1 - 8192 = 32 * n + i / 2) := by
  unfold MatUnit.errHits
  dsimp only
  split
  · next h => simp [h]
  · next h => simp [h, Nat.not_lt.mp h]

theorem findRegs_poisons (he : e ∈ u.regErr) (hi : i ∈ rows) (hhit : u.errHits n i e = true)
    (hwf : storeWf false u.poison = true) : (u.findRegs n rows).1.bad n i = true ∧
      (u.bad n i = false → (u.findRegs n rows).2 = true) := by
  have hbad : i ∈ rows.filter (fun i => u.regErr.any (u.errHits n i)) :=
    List.mem_filter.mpr ⟨hi, List.any_eq_true.mpr ⟨e, he, hhit⟩⟩
  constructor
  · have hputs := storeGet_storePuts ((rows.filter (fun i => u.regErr.any (u.errHits n i))).map (fun i => 64 * n + i))
      true hwf (n * 64 + i)
    rw [List.map_map] at hputs
    refine hputs.trans (if_pos ?_)
    rw [Nat.mul_comm]
    exact List.mem_map_of_mem hbad
  · intro hnew
    exact List.any_eq_true.mpr ⟨i, hbad, by rw [hnew]; rfl⟩

end

section

variable {s : State} {t lslot : Nat}

theorem readRows_clean (h : (unitOf s t).regErr = []) (n : Nat) (rows : List Nat) :
    readRows s t lslot n rows = setUnit s t (unitOf s t) := by
  have hnone : rows.filter (fun i => (unitOf s t).regErr.any ((unitOf s t).errHits n i)) = [] := by simp [h]
  simp [readRows, foundIn, MatUnit.findRegs, hnone, storePuts]

theorem readAcc_clean (h : (unitOf s t).accErr = []) (a : Nat) (rows : List Nat) :
    readAcc s t lslot a rows = setUnit s t (unitOf s t) := by
  have hsame : { unitOf s t with accErr := [] } = unitOf s t := by rw [← h]
  simp [readAcc, foundIn, MatUnit.findAcc, h, hsame]

theorem matrix_setUnit_same : ((setUnit s t (unitOf s t)).tile t).matrix = (s.tile t).matrix := by
  rw [setUnit, State.tile_modTile]
  rfl

end

/-- A swap that reads a unit without errors in its storage finds it as it stands. -/
theorem readWhole_clean {s : State} {t lslot : Nat} (hreg : (unitOf s t).regErr = []) (hacc : (unitOf s t).accErr = []) :
    ((readWhole s t lslot).tile t).matrix = (s.tile t).matrix := by
  have hrows (l : List Nat) (s' : State) (h : (s'.tile t).matrix = (s.tile t).matrix) :
      ((l.foldl (fun s n => readRows s t lslot n (List.range 64)) s').tile t).matrix = (s.tile t).matrix := by
    induction l generalizing s' with
    | nil => exact h
    | cons n l ih =>
      refine ih _ ?_
      show ((readRows s' t lslot n (List.range 64)).tile t).matrix = _
      rw [readRows_clean (by rw [unitOf, h]; exact hreg), matrix_setUnit_same, h]
  have haccs (l : List Nat) (s' : State) (h : (s'.tile t).matrix = (s.tile t).matrix) :
      ((l.foldl (fun s a => readAcc s t lslot a (List.range 64)) s').tile t).matrix = (s.tile t).matrix := by
    induction l generalizing s' with
    | nil => exact h
    | cons a l ih =>
      refine ih _ ?_
      show ((readAcc s' t lslot a (List.range 64)).tile t).matrix = _
      rw [readAcc_clean (by rw [unitOf, h]; exact hacc), matrix_setUnit_same, h]
  exact haccs _ _ (hrows _ _ rfl)

/-! ### Words of an accumulator (R212, R226) -/

theorem storeGet_filter {α : Type} (d : α) (p : Nat → Bool) (m : List (Nat × α)) (k : Nat) :
    storeGet d (m.filter (fun e => p e.1)) k = if p k then storeGet d m k else d := by
  induction m with
  | nil => simp [storeGet]
  | cons e r ih =>
    by_cases hk : e.1 = k
    · subst hk
      by_cases hp : p e.1
      · simp [hp, storeGet]
      · rw [List.filter_cons_of_neg (by simpa using hp), ih]
        simp [hp]
    · by_cases hp : p e.1
      · rw [List.filter_cons_of_pos (by simpa using hp)]
        simp only [storeGet, hk, if_false, ih]
      · rw [List.filter_cons_of_neg (by simpa using hp), ih]
        simp only [storeGet, hk, if_false]

section

variable {u : MatUnit} {a i j : Nat} {v : BitVec 32}

theorem word_setWord_same (h : storeWf 0 u.acc = true) : (u.setWord a i j v).word a i j = v :=
  storeGet_storeSet_same 0 _ v h

theorem sum_setWord (h : storeWf 0 u.csum = true) : (u.setWord a i j v).sum a i = u.sum a i + v - u.word a i j :=
  storeGet_storeSet_same 0 _ _ h

theorem word_setWord_other {a' i' j' : Nat} (hi : i < 64) (hj : j < 64) (hi' : i' < 64) (hj' : j' < 64)
    (h : (a', i', j') ≠ (a, i, j)) : (u.setWord a i j v).word a' i' j' = u.word a' i' j' := by
  refine storeGet_storeSet_other 0 v fun hkey => h ?_
  have ha : a' = a := by omega
  have hrow : i' = i := by omega
  have hcol : j' = j := by omega
  rw [ha, hrow, hcol]

theorem word_aclr {m : Nat} (hi : i < 64) (hj : j < 64) :
    (u.aclr m).word a i j = if m.testBit a then 0 else u.word a i j := by
  have hkey : (4096 * a + 64 * i + j) / 4096 = a := by omega
  have hget := storeGet_filter 0 (fun k => !m.testBit (k / 4096)) u.acc (4096 * a + 64 * i + j)
  rw [hkey] at hget
  refine hget.trans ?_
  cases m.testBit a <;> rfl

/-- The sum of a row changes by what one of its words changes by. -/
theorem foldl_add_update {f g : Nat → BitVec 32} {n : Nat} (hj : j < n) (hother : ∀ x, x < n → x ≠ j → g x = f x) :
    (List.range n).foldl (fun x j => x + g j) 0 = (List.range n).foldl (fun x j => x + f j) 0 + g j - f j := by
  have hsame (m : Nat) (hm : m ≤ n) (hmj : m ≤ j) :
      (List.range m).foldl (fun x j => x + g j) 0 = (List.range m).foldl (fun x j => x + f j) 0 :=
    List.foldl_ext _ _ _ fun x k hk => by rw [hother k (by simp at hk; omega) (by simp at hk; omega)]
  induction n with
  | zero => omega
  | succ n ih =>
    rw [List.range_succ, List.foldl_append, List.foldl_append]
    show List.foldl (fun x j => x + g j) 0 (List.range n) + g n = List.foldl (fun x j => x + f j) 0 (List.range n) + f n + g j - f j
    by_cases hlast : j = n
    · subst hlast
      rw [hsame j (Nat.le_succ j) (Nat.le_refl j)]
      bv_omega
    · rw [ih (by omega) (fun x hx => hother x (by omega)) (fun m hm => hsame m (by omega)), hother n (by omega) (by omega)]
      bv_omega

theorem rowOk_setWord (hi : i < 64) (hj : j < 64) (hacc : storeWf 0 u.acc = true) (hcsum : storeWf 0 u.csum = true)
    (h : u.rowOk a i = true) : (u.setWord a i j v).rowOk a i = true := by
  have hsum := foldl_add_update (f := u.word a i) (g := (u.setWord a i j v).word a i) hj fun x hx hne =>
    word_setWord_other hi hj hi hx (by simpa using hne)
  rw [MatUnit.rowOk, beq_iff_eq] at h ⊢
  rw [hsum, sum_setWord hcsum, word_setWord_same hacc, h]

end

/-! ### Commands of one step (R222, R226, R229, R236) -/

section

variable {s : State} {c : Current}

/-- A command of one step is over with it. -/
theorem stepDone_one (s : State) (t : Nat) (c : Current) : stepDone s t c 1 = endCmd (countPerf s t 5 1) t c :=
  stepDone_end (Nat.le_add_left 1 c.step)

theorem tcfgPerform_ends (hstep : stepOf s 0xA0 = some c) : exec .tcfgPerform s = .next (endCmd (countPerf
    (setUnit s s.ev.who { unitOf s s.ev.who with
      tcfg := (unitOf s s.ev.who).tcfg.setIfInBounds c.cmd.fA (BitVec.ofNat 32 c.cmd.b.toNat) }) s.ev.who 5 1) s.ev.who c) := by
  rw [exec_tcfgPerform, execTcfgPerform]
  refine eventStep_of_some ?_
  rw [tryTcfgPerform, hstep, Option.map_some, stepDone_one]

theorem tzeroPerform_ends (hstep : stepOf s 0xA3 = some c) (hop : c.cmd.isAclr = false) : exec .tzeroPerform s =
    .next (endCmd (countPerf (setUnit s s.ev.who ((unitOf s s.ev.who).tzero (c.cmd.ctl % 2 ^ 16))) s.ev.who 5 1)
      s.ev.who c) := by
  rw [exec_tzeroPerform, execTzeroPerform]
  refine eventStep_of_some ?_
  simp only [tryTzeroPerform, hstep, hop, Bool.false_eq_true, if_false, stepDone_one]

theorem aclrPerform_ends (hstep : stepOf s 0xA3 = some c) (hop : c.cmd.isAclr = true) : exec .aclrPerform s =
    .next (endCmd (countPerf (setUnit s s.ev.who ((unitOf s s.ev.who).aclr (c.cmd.ctl % 16))) s.ev.who 5 1)
      s.ev.who c) := by
  rw [exec_aclrPerform, execAclrPerform]
  refine eventStep_of_some ?_
  simp only [tryAclrPerform, hstep, hop, if_true, stepDone_one]

theorem tringInstall_ends (hstep : stepOf s 0xA7 = some c) (htiles : (unitOf s s.ev.who).tiles = [])
    (hpending : (s.tile s.ev.who).matrix.pending = []) : exec .tringInstall s = .next (endCmd (countPerf
      (setUnit s s.ev.who { unitOf s s.ev.who with ring := some c.cmd.desc, fill := 0, drain := 0, tiles := [], ringT := 0 })
      s.ev.who 5 1) s.ev.who c) := by
  have hnone : (s.tile s.ev.who).matrix.unit.tiles = [] := htiles
  rw [exec_tringInstall, execTringInstall]
  refine eventStep_of_some ?_
  simp only [tryTringInstall, hstep, hnone, hpending, List.isEmpty_nil, Bool.not_true, Bool.or_self, Bool.false_eq_true,
    if_false, stepDone_one]
  rfl

/-! ### TCHK (R228, R229) -/

/-- What TCHK finds, in a state whose unit is the one that it checks. -/
def checked (s : State) (c : Current) (w : State) : State :=
  reportRows (readAcc w s.ev.who c.cmd.lslot c.cmd.dK (List.range 64)) s.ev.who c.cmd.dK c.cmd.lslot
    (badRows (unitOf s s.ev.who) c.cmd.dK (List.range 64))

theorem badRows_eq (u : MatUnit) (k : Nat) (rows : List Nat) :
    badRows u k rows = rows.filter (fun i => decide (u.rowOk k i = false)) :=
  List.filter_congr fun i _ => by cases u.rowOk k i <;> rfl

theorem tchkPerform_silent (hstep : stepOf s 0xA5 = some c) (hnob : c.cmd.nob = true) :
    exec .tchkPerform s = .next (endCmd (countPerf (checked s c s) s.ev.who 5 1) s.ev.who c) := by
  rw [exec_tchkPerform, execTchkPerform]
  refine eventStep_of_some ?_
  simp only [tryTchkPerform, hstep, hnob, if_true, stepDone_one]
  rfl

theorem tryTchkPerform_gated (hstep : stepOf s 0xA5 = some c) (hnob : c.cmd.nob = false) :
    let t := s.ev.who
    let w0 := engineWalks s t c.cmd.asid c.cmd.b.toNat 8
    let w1 := checked s c w0
    let put (l : List Piece) := writePieces w1 t (.matrix t c.id) c.cmd.lslot c.cmd.tag l
      (chkStatus (unitOf w1 t) (badRows (unitOf s t) c.cmd.dK (List.range 64)).length)
    tryTchkPerform s = gated (stepGate s t c (engPieces s t c.cmd.asid c.cmd.b.toNat 8 true false) 8) (carriageTrap w0 t)
      (fun cls => stopCmd w1 t c cls true [(c.cmd.b.toNat, 8)])
      (fun l => stepDone (put l).1 t (c.guards (put l).2) 1) := by
  unfold tryTchkPerform
  rw [hstep]
  dsimp only
  rw [if_neg (by rw [hnob]; exact Bool.false_ne_true)]
  rfl

end

section

variable {s : State} {t k lslot : Nat}

theorem reportRows_none : reportRows s t k lslot [] = s := rfl

theorem readAcc_clean_mgmt (h : (unitOf s t).accErr = []) (a : Nat) (rows : List Nat) :
    (readAcc s t lslot a rows).mgmt = s.mgmt := by
  rw [readAcc_clean h]
  rfl

theorem readAcc_sticky (a : Nat) (rows : List Nat) : (unitOf (readAcc s t lslot a rows) t).sticky = (unitOf s t).sticky := by
  have hset : (unitOf (setUnit s t ((unitOf s t).findAcc a rows).1) t).sticky = (unitOf s t).sticky := by
    rw [unitOf_setUnit]
    rfl
  unfold readAcc foundIn
  dsimp only
  split
  · exact hset
  · exact hset

theorem reportRows_one_sticky (i : Nat) : (unitOf (reportRows s t k lslot [i]) t).sticky =
    (unitOf s t).sticky ||| BitVec.ofNat 16 (8 * 2 ^ (4 * k)) := by
  rw [reportRows_one]
  show (unitOf (countEvent (setUnit s t ((unitOf s t).stick k 8)) t 6) t).sticky = _
  rw [countEvent, unitOf, State.tile_modTile]
  show (unitOf (setUnit s t ((unitOf s t).stick k 8)) t).sticky = _
  rw [unitOf_setUnit]
  rfl

theorem readAcc_cycle (a : Nat) (rows : List Nat) : (readAcc s t lslot a rows).cycle = s.cycle := by
  unfold readAcc foundIn
  dsimp only
  split <;> rfl

end

/-! ### Waits of the carriage and the holder (R221, R239, R240) -/

section

variable {s : State}

theorem carriageStepResume_row (hstall : (s.tile s.ev.who).matrix.stall = 1) (hready : (s.tile s.ev.who).repair = none) :
    exec .carriageStepResume s =
      .next (s.modTile s.ev.who (fun x => { x with matrix := { x.matrix with stall := 0 } })) := by
  rw [exec_carriageStepResume, execCarriageStepResume]
  refine eventStep_of_some ?_
  simp [tryCarriageStepResume, hstall, hready]

theorem carriageStepResume_cool (hstall : (s.tile s.ev.who).matrix.stall = 2) (hcool : (s.tile s.ev.who).thermal ≠ .hold) :
    exec .carriageStepResume s =
      .next (s.modTile s.ev.who (fun x => { x with matrix := { x.matrix with stall := 0 } })) := by
  rw [exec_carriageStepResume, execCarriageStepResume]
  refine eventStep_of_some ?_
  simp [tryCarriageStepResume, hstall, hcool]

theorem matrix_fillTlb (s : State) (t asid va u : Nat) : ((fillTlb s t asid va).tile u).matrix = (s.tile u).matrix := by
  have hcounted := (tileField_countPerf ((walkKeys s va 4 (tableKey (genEntry s t asid).toNat)).foldl
      (fun s k => touchPage (fireRead s k) k 8) s) t 7 1 Tile.matrix (fun _ _ => rfl) u).trans
    (foldl_keeps (fun s : State => (s.tile u).matrix) (fun s k =>
      (tileField_touchPage Tile.matrix (fun _ _ => rfl) (fun _ _ => rfl) ..).trans
        (tileField_fireRead Tile.matrix (fun _ _ _ => rfl) (fun _ _ => rfl) (fun _ _ => rfl) ..)) _ s)
  unfold fillTlb
  dsimp only
  split
  · refine (tileField_modTile Tile.matrix _ _ ?_ u).trans hcounted
    exact fun _ => rfl
  · exact hcounted

theorem matrix_engineWalk (s : State) (t asid va u : Nat) : ((engineWalk s t asid va).tile u).matrix = (s.tile u).matrix := by
  unfold engineWalk
  split
  · unfold walkLogged
    dsimp only
    split <;> exact matrix_fillTlb ..
  · rfl

theorem engineWalks_leaves (s : State) (t asid va n u : Nat) :
    ((engineWalks s t asid va n).tile u).matrix = (s.tile u).matrix ∧ (engineWalks s t asid va n).mem = s.mem :=
  ⟨foldl_keeps (fun s : State => (s.tile u).matrix) (fun _ _ => matrix_engineWalk ..) _ s,
    foldl_keeps State.mem (fun _ _ => (sameStores_engineWalk ..).mem) _ s⟩

theorem touchUnit_leaves (s : State) (ks : List (Nat × Nat)) (u : Nat) :
    ((touchUnit s ks).tile u).matrix = (s.tile u).matrix ∧ (touchUnit s ks).mem = s.mem :=
  ⟨foldl_keeps (fun s : State => (s.tile u).matrix) (fun _ _ =>
      tileField_touchPage Tile.matrix (fun _ _ => rfl) (fun _ _ => rfl) ..) _ s,
    foldl_keeps State.mem (fun _ _ => touchPage_keeps State.mem (fun _ _ _ => rfl) ..) _ s⟩

theorem tile_setLaunch (s : State) (slot u : Nat) (l : Launch) : (s.setLaunch slot l).tile u = s.tile u := rfl

theorem imageOf_setLaunch (s : State) (slot t : Nat) (l : Launch) : imageOf (s.setLaunch slot l) slot t = tabFind l.images t := by
  rw [imageOf, State.launch_setLaunch]

/-- A holder that is saved leaves its unit clear, and its image holds what the unit did. -/
theorem swapOut_leaves (s : State) (t h : Nat) (l : Launch) : let m := ((readWhole s t h).tile t).matrix
    let u := swapOut s t h l
    (u.tile t).matrix.unit = MatUnit.clear ∧ (u.tile t).matrix.holder = none ∧ (u.tile t).matrix.cur = none ∧
      (u.tile t).matrix.queue = m.queue.filter (fun c => c.lslot != h) ∧
      imageOf u h t = some (m.unit, m.cur, m.queue.filter (fun c => c.lslot == h)) := by
  intro m u
  have himage : imageOf u h t = _ := (imageOf_setLaunch ..).trans (tabFind_tabSet_same ..)
  refine ⟨?_, ?_, ?_, ?_, himage⟩
  · show ((State.setLaunch (State.modTile _ t _) h _).tile t).matrix.unit = _
    rw [tile_setLaunch, State.tile_modTile]
  · show ((State.setLaunch (State.modTile _ t _) h _).tile t).matrix.holder = _
    rw [tile_setLaunch, State.tile_modTile]
  · show ((State.setLaunch (State.modTile _ t _) h _).tile t).matrix.cur = _
    rw [tile_setLaunch, State.tile_modTile]
  · show ((State.setLaunch (State.modTile _ t _) h _).tile t).matrix.queue = _
    rw [tile_setLaunch, State.tile_modTile]

theorem matrixSwap_saves {h : Nat} {l : Launch} (hholder : (s.tile s.ev.who).matrix.holder = some h)
    (hlaunch : s.launch h = some l) (hsaved : l.saved = true) (harea : msaveOf l s.ev.who ≠ 0)
    (hpending : (s.tile s.ev.who).matrix.pending = []) (hready : saveWaits s s.ev.who l = false) :
    exec .matrixSwap s = .next (swapOut s s.ev.who h l) := by
  rw [exec_matrixSwap, execMatrixSwap]
  refine eventStep_of_some ?_
  simp [tryMatrixSwap, hholder, hlaunch, hsaved, harea, hpending, hready]

theorem matrixSwap_loads {w : Nat} {l : Launch} {i : MatUnit × Option Current × List MatCmd}
    (hholder : (s.tile s.ev.who).matrix.holder = none) (hcur : (s.tile s.ev.who).matrix.cur = none)
    (hpending : (s.tile s.ev.who).matrix.pending = []) (hwanted : wanted s s.ev.who = some w) (hlaunch : s.launch w = some l)
    (hrunning : l.saved = false) (hready : saveWaits s s.ev.who l = false) (himage : imageOf s w s.ev.who = some i) :
    exec .matrixSwap s = .next (swapIn s s.ev.who w l i) := by
  have hfind : tabFind l.images s.ev.who = some i := by rwa [imageOf, hlaunch] at himage
  rw [exec_matrixSwap, execMatrixSwap]
  refine eventStep_of_some ?_
  simp [tryMatrixSwap, loadWanted, hholder, hcur, hpending, hwanted, hlaunch, hrunning, hready, hfind]

theorem readUnit_congr {s s' : State} (h : s'.mem = s.mem) (ks : List (Nat × Nat)) : readUnit s' ks = readUnit s ks := by
  rw [readUnit, readUnit, h]

section

variable {t w : Nat} {l : Launch} {i : MatUnit × Option Current × List MatCmd}

/-- An image whose area can be read goes back with what the area holds. -/
theorem swapIn_mapped {ks : List (Nat × Nat)} (hkeys : saveKeys s t l.asid (msaveOf l t) false = some ks) :
    ((swapIn s t w l i).tile t).matrix.unit = unitFrom i.1 (readUnit s ks) := by
  obtain ⟨-, hmem⟩ := engineWalks_leaves s t l.asid (msaveOf l t) saveArea t
  unfold swapIn
  rw [hkeys]
  show ((State.setLaunch (State.modTile _ t _) w _).tile t).matrix.unit = _
  rw [tile_setLaunch, State.tile_modTile]
  dsimp only
  rw [readUnit_congr hmem]

theorem swapIn_unmapped (hkeys : saveKeys s t l.asid (msaveOf l t) false = none) :
    ((swapIn s t w l i).tile t).matrix.unit = i.1 ∧ ((swapIn s t w l i).tile t).matrix.cur = i.2.1 := by
  unfold swapIn
  rw [hkeys]
  show ((State.setLaunch (State.modTile _ t _) w _).tile t).matrix.unit = _ ∧
    ((State.setLaunch (State.modTile _ t _) w _).tile t).matrix.cur = _
  rw [tile_setLaunch, State.tile_modTile]
  exact ⟨rfl, rfl⟩

/-- The state that an image goes back to is the one that the walks and the reads of its area leave. -/
def swapBase (s : State) (t : Nat) (l : Launch) : State :=
  let s0 := engineWalks s t l.asid (msaveOf l t) saveArea
  match saveKeys s t l.asid (msaveOf l t) false with
  | some ks => touchUnit s0 ks
  | none => s0

theorem swapBase_leaves : ((swapBase s t l).tile t).matrix = (s.tile t).matrix ∧ (swapBase s t l).mem = s.mem := by
  unfold swapBase
  dsimp only
  generalize hwalked : engineWalks s t l.asid (msaveOf l t) saveArea = w0
  obtain ⟨hwalk, hmem⟩ := engineWalks_leaves s t l.asid (msaveOf l t) saveArea t
  rw [hwalked] at hwalk hmem
  split
  · next ks _ =>
    obtain ⟨htouch, htmem⟩ := touchUnit_leaves w0 ks t
    exact ⟨htouch.trans hwalk, htmem.trans hmem⟩
  · exact ⟨hwalk, hmem⟩

theorem swapIn_base : ∃ u cur, swapIn s t w l i = ((swapBase s t l).modTile t (fun x => { x with matrix := { x.matrix with
    unit := u, holder := some w, cur := cur, queue := i.2.2 ++ x.matrix.queue } })).setLaunch w
      { l with images := tabDel l.images t } := by
  unfold swapIn swapBase
  cases saveKeys s t l.asid (msaveOf l t) false with
  | some ks => exact ⟨_, _, rfl⟩
  | none => exact ⟨_, _, rfl⟩

theorem swapIn_leaves : ((swapIn s t w l i).tile t).matrix.holder = some w ∧
    ((swapIn s t w l i).tile t).matrix.queue = i.2.2 ++ (s.tile t).matrix.queue ∧ (swapIn s t w l i).mem = s.mem := by
  obtain ⟨hmatrix, hmem⟩ := swapBase_leaves (s := s) (t := t) (l := l)
  obtain ⟨u, cur, hin⟩ := swapIn_base (s := s) (t := t) (w := w) (l := l) (i := i)
  rw [hin, tile_setLaunch, State.tile_modTile, hmatrix]
  exact ⟨rfl, rfl, hmem⟩

theorem swapIn_image : imageOf (swapIn s t w l i) w t = none := by
  obtain ⟨u, cur, hin⟩ := swapIn_base (s := s) (t := t) (w := w) (l := l) (i := i)
  rw [hin, imageOf_setLaunch, tabFind_tabDel]

end

/-- No launch's image wants the unit. -/
theorem wanted_none {t : Nat} (hqueue : (s.tile t).matrix.queue = []) (hnone : ∀ e ∈ s.launches, tabFind e.2.images t = none) :
    wanted s t = none := by
  unfold wanted
  rw [hqueue]
  dsimp only
  rw [List.find?_eq_none.mpr, Option.map_none]
  intro e he
  rw [hnone e he, Bool.and_false]
  exact Bool.false_ne_true

/-- The unit as its completed holder leaves it (R221). -/
def unitFreed (s : State) (t : Nat) : State :=
  s.modTile t (fun x => { x with matrix := { x.matrix with unit := MatUnit.clear, holder := none } })

theorem matrixSwap_frees {h : Nat} (hholder : (s.tile s.ev.who).matrix.holder = some h) (hdone : s.launch h = none)
    (hcur : (s.tile s.ev.who).matrix.cur = none) (hpending : (s.tile s.ev.who).matrix.pending = [])
    (hqueue : (s.tile s.ev.who).matrix.queue = []) (hnone : ∀ e ∈ s.launches, tabFind e.2.images s.ev.who = none) :
    exec .matrixSwap s = .next (unitFreed s s.ev.who) := by
  have hwanted : wanted (unitFreed s s.ev.who) s.ev.who = none :=
    wanted_none (by rw [unitFreed, State.tile_modTile, hqueue]) hnone
  rw [exec_matrixSwap, execMatrixSwap]
  refine eventStep_of_some ?_
  unfold tryMatrixSwap
  dsimp only
  rw [hholder]
  dsimp only
  rw [hdone, hcur, hpending]
  show some ((loadWanted (unitFreed s s.ev.who) s.ev.who).getD (unitFreed s s.ev.who)) = _
  rw [loadWanted, hwanted]
  rfl

end

/-- Settles O27. -/
theorem matrixControl : Obligations.MatrixControl := by
  unfold Obligations.MatrixControl
  refine ⟨?arrival, ?take, fun s c r hqueue => matrixCmdTake_waits hqueue, ?regs, ?steps, ?chk, ?words, ?resume, ?save,
    ?load, ?free⟩
  case arrival =>
    intro s id p c t hitem hfresh hwork hroom
    exact matrixCmdArrival_queues hitem hfresh hwork hroom
  case take =>
    intro s c r t m hqueue hmay hholder s1 s2
    have hs2 : s2 = cmdTaken s t r := by
      show (if (s.tile t).matrix.holder = none then _ else _) = _
      rw [cmdTaken]
      cases (s.tile t).matrix.holder <;> rfl
    rw [hs2]
    obtain ⟨hrest, hcycle⟩ := cmdTaken_keeps s t r
    refine ⟨fun cause => matrixCmdTake_rejects hqueue hmay hholder, fun hpass hopc =>
      ⟨_, matrixCmdTake_starts hqueue hmay hholder hpass, ?_⟩⟩
    have hstarted : ((startCmd (cmdTaken s t r) t c).tile t).matrix = _ := startCmd_leaves hopc
    show ((startCmd (cmdTaken s t r) t c).tile t).matrix.cur = _ ∧ _
    rw [hstarted, hcycle]
    exact ⟨rfl, rfl, hrest, rfl⟩
  case regs =>
    intro u n i rows e he hi _ hwf hhit
    obtain ⟨hbad, hnew⟩ := findRegs_poisons he hi (errHits_iff.mpr hhit) hwf
    exact ⟨hbad, hnew, rfl⟩
  case steps =>
    intro s c t v ends
    exact ⟨tcfgPerform_ends, tzeroPerform_ends, aclrPerform_ends, tringInstall_ends⟩
  case chk =>
    intro s c t k bad s0 s1 w0 w1 hstep
    have hbad : bad = badRows (unitOf s t) k (List.range 64) := (badRows_eq ..).symm
    have hs1 : s1 = checked s c s := by rw [checked, ← hbad]
    have hw1 : w1 = checked s c w0 := by rw [checked, ← hbad]
    refine ⟨fun hnob => ?_, fun l hnob hgate => ?_, fun hclean => readAcc_clean_mgmt hclean .., fun hnone => ?_,
      fun i hone => ?_⟩
    · rw [hs1]
      exact tchkPerform_silent hstep hnob
    · intro w hnone
      have hgo : exec .tchkPerform s = .next (stepDone w.1 t (c.guards w.2) 1) := by
        refine ((exec_tchkPerform s).trans (eventStep_go (tryTchkPerform_gated hstep hnob) hgate)).trans ?_
        rw [← hw1, ← hbad]
        rfl
      rwa [hnone, guards_nil, stepDone_one] at hgo
    · show reportRows s0 t k c.cmd.lslot bad = s0
      rw [hnone, reportRows_none]
    · rw [show s1 = reportRows s0 t k c.cmd.lslot [i] from congrArg (reportRows s0 t k c.cmd.lslot) hone]
      refine ⟨(reportRows_one_sticky i).trans (congrArg (· ||| _) (readAcc_sticky ..)), ?_⟩
      rw [reportRows_one]
      show s0.mgmt.logWait ++ [logEntry 0x0A 0 t 0 0 c.cmd.lslot 0 0 0 0 i k s0.cycle] = _
      rw [show s0.cycle = s.cycle from readAcc_cycle ..]
  case words =>
    intro u a i j v hi hj hacc hcsum
    exact ⟨word_setWord_same hacc, sum_setWord hcsum, rowOk_setWord hi hj hacc hcsum,
      fun a' i' j' hi' hj' hne => word_setWord_other hi hj hi' hj' hne, fun m i' j' hi' hj' _ => word_aclr hi' hj'⟩
  case resume =>
    intro s t x
    exact ⟨carriageStepResume_row, carriageStepResume_cool⟩
  case save =>
    intro s h l t m hholder hlaunch hsaved harea hpending hready
    exact ⟨readWhole_clean, _, matrixSwap_saves hholder hlaunch hsaved harea hpending hready, swapOut_leaves s t h l⟩
  case load =>
    intro s w l i t m hholder hcur hpending hwanted hlaunch hrunning hready himage
    refine ⟨_, matrixSwap_loads hholder hcur hpending hwanted hlaunch hrunning hready himage, ?_⟩
    obtain ⟨hserves, hcmds, hmem⟩ := swapIn_leaves (s := s) (t := t) (w := w) (l := l) (i := i)
    exact ⟨hserves, hcmds, hmem, swapIn_image, fun ks => swapIn_mapped, swapIn_unmapped⟩
  case free =>
    intro s h t m hholder hdone hcur hpending hqueue hnone
    refine ⟨_, matrixSwap_frees hholder hdone hcur hpending hqueue hnone, ?_, rfl⟩
    rw [unitFreed, State.tile_modTile]

end Sys2Proof.Proofs
end

section

/-! The steps of the products, the ring and the cast-off engine (R128, R129, R211, R232, R233, R235, R237). -/

namespace Sys2Proof.Proofs

open Sys2Proof.Machine Sys2Proof.Laws Sys2Proof.Stated

/-! ### One block of a product (R128, R129, R232) -/

/-- Two units with the same registers: elements, scales, poison bits and configuration. -/
structure SameRegs (u v : MatUnit) : Prop where
  tr : v.tr = u.tr
  scale : v.scale = u.scale
  poison : v.poison = u.poison
  tcfg : v.tcfg = u.tcfg

/-- The accumulators, checksums and partials of a unit are in canonical form. -/
structure AccWf (u : MatUnit) : Prop where
  acc : storeWf 0 u.acc = true
  csum : storeWf 0 u.csum = true
  part : storeWf 0 u.part = true

/-- The partial of an element. -/
def partAt (u : MatUnit) (k i j : Nat) : BitVec 40 := storeGet 0 u.part (4096 * k + 64 * i + j)

section

variable {u v : MatUnit}

theorem SameRegs.trans {w : MatUnit} (h : SameRegs u v) (h' : SameRegs v w) : SameRegs u w :=
  ⟨h'.tr.trans h.tr, h'.scale.trans h.scale, h'.poison.trans h.poison, h'.tcfg.trans h.tcfg⟩

section

variable (h : SameRegs u v)

include h

theorem SameRegs.cfg (n : Nat) : v.cfg n = u.cfg n := by rw [MatUnit.cfg, MatUnit.cfg, h.tcfg]

theorem SameRegs.bad (n i : Nat) : v.bad n i = u.bad n i := by rw [MatUnit.bad, MatUnit.bad, h.poison]

theorem SameRegs.block (n i b : Nat) : v.block n i b = u.block n i b := by
  simp only [MatUnit.block, h.cfg, h.tr]

theorem SameRegs.blockVal (pair ra rb i j b : Nat) : v.blockVal pair ra rb i j b = u.blockVal pair ra rb i j b := by
  simp only [MatUnit.blockVal, h.bad, h.block]

theorem SameRegs.scaleVal (n i b : Nat) : v.scaleVal n i b = u.scaleVal n i b := by
  simp only [MatUnit.scaleVal, h.cfg, h.scale]

/-- The partial after a block rests on the registers and on the element's partial alone. -/
theorem SameRegs.nextPart {k i j : Nat} (hpart : partAt v k i j = partAt u k i j) (pair ra rb b : Nat) :
    v.nextPart pair k ra rb i j i b = u.nextPart pair k ra rb i j i b := by
  unfold partAt at hpart
  simp only [MatUnit.nextPart, hpart, h.blockVal, h.scaleVal]

end

section

variable (u) (pair k ra rb b tsA tsB : Nat) (due : Bool) (e : Nat × Nat)

theorem sameRegs_mmaElem : SameRegs u (mmaElem pair k ra rb b due tsA tsB u e) := by
  unfold mmaElem
  dsimp only
  split <;> exact ⟨rfl, rfl, rfl, rfl⟩

theorem accWf_mmaElem (h : AccWf u) : AccWf (mmaElem pair k ra rb b due tsA tsB u e) := by
  unfold mmaElem
  dsimp only
  split
  · exact ⟨storeWf_storeSet _ _ _ h.acc, storeWf_storeSet _ _ _ h.csum, storeWf_storeSet _ _ _ h.part⟩
  · exact ⟨h.acc, h.csum, storeWf_storeSet _ _ _ h.part⟩

theorem mmaElem_same (h : AccWf u) : let v := u.nextPart pair k ra rb e.1 e.2 e.1 b
    let u' := mmaElem pair k ra rb b due tsA tsB u e
    u'.word k e.1 e.2 = (if due then (promote (u.word k e.1 e.2) v tsA tsB).1 else u.word k e.1 e.2) ∧
      partAt u' k e.1 e.2 = (if due then 0 else BitVec.ofNat 40 (round .a40 v .rne false).code) := by
  unfold mmaElem
  dsimp only
  cases due
  · exact ⟨rfl, storeGet_storeSet_same 0 _ _ h.part⟩
  · exact ⟨storeGet_storeSet_same 0 _ _ h.acc, storeGet_storeSet_same 0 _ _ h.part⟩

theorem mmaElem_other {i j : Nat} (hj : j < 64) (he : e.1 < 64 ∧ e.2 < 64) (hne : (i, j) ≠ e) :
    let u' := mmaElem pair k ra rb b due tsA tsB u e
    u'.word k i j = u.word k i j ∧ partAt u' k i j = partAt u k i j := by
  have hkey : 4096 * k + 64 * i + j ≠ 4096 * k + 64 * e.1 + e.2 := fun h => hne (by
    rw [show i = e.1 by omega, show j = e.2 by omega])
  unfold mmaElem
  dsimp only
  cases due
  · exact ⟨rfl, storeGet_storeSet_other 0 _ hkey⟩
  · exact ⟨storeGet_storeSet_other 0 _ hkey, storeGet_storeSet_other 0 _ hkey⟩

end

section

variable {pair k ra rb b tsA tsB : Nat} {due : Bool} {l : List (Nat × Nat)} (hl : ∀ e ∈ l, e.1 < 64 ∧ e.2 < 64)
  {i j : Nat} (hj : j < 64)

include hl hj

/-- Elements that a step does not visit keep their words and partials. -/
theorem mmaFold_other (hout : (i, j) ∉ l) (u : MatUnit) : let u' := l.foldl (mmaElem pair k ra rb b due tsA tsB) u
    u'.word k i j = u.word k i j ∧ partAt u' k i j = partAt u k i j := by
  induction l generalizing u with
  | nil => exact ⟨rfl, rfl⟩
  | cons e r ih =>
    obtain ⟨hword, hpart⟩ := mmaElem_other u pair k ra rb b tsA tsB due e hj (hl e (List.mem_cons_self ..))
      (fun h => hout (h ▸ List.mem_cons_self ..))
    obtain ⟨hword', hpart'⟩ := ih (fun x hx => hl x (List.mem_cons_of_mem _ hx))
      (fun h => hout (List.mem_cons_of_mem _ h)) (mmaElem pair k ra rb b due tsA tsB u e)
    exact ⟨hword'.trans hword, hpart'.trans hpart⟩

/-- An element that a step visits once gets its word and its partial from those before the step. -/
theorem mmaFold_visited (hin : (i, j) ∈ l) (honce : l.Nodup) (u : MatUnit) (h : AccWf u) :
    let v := u.nextPart pair k ra rb i j i b
    let u' := l.foldl (mmaElem pair k ra rb b due tsA tsB) u
    u'.word k i j = (if due then (promote (u.word k i j) v tsA tsB).1 else u.word k i j) ∧
      partAt u' k i j = (if due then 0 else BitVec.ofNat 40 (round .a40 v .rne false).code) := by
  induction l generalizing u with
  | nil => cases hin
  | cons e r ih =>
    obtain ⟨hnew, hrest⟩ := List.nodup_cons.mp honce
    have hlr : ∀ x ∈ r, x.1 < 64 ∧ x.2 < 64 := fun x hx => hl x (List.mem_cons_of_mem _ hx)
    by_cases he : (i, j) = e
    · subst he
      obtain ⟨hword, hpart⟩ := mmaFold_other (pair := pair) (k := k) (ra := ra) (rb := rb) (b := b) (tsA := tsA)
        (tsB := tsB) (due := due) hlr hj hnew (mmaElem pair k ra rb b due tsA tsB u (i, j))
      obtain ⟨hword', hpart'⟩ := mmaElem_same u pair k ra rb b tsA tsB due (i, j) h
      exact ⟨hword.trans hword', hpart.trans hpart'⟩
    · obtain ⟨hword, hpart⟩ := mmaElem_other u pair k ra rb b tsA tsB due e hj (hl e (List.mem_cons_self ..)) he
      have hlater := ih hlr ((List.mem_cons.mp hin).resolve_left he) hrest _ (accWf_mmaElem u pair k ra rb b tsA tsB due e h)
      rw [(sameRegs_mmaElem u pair k ra rb b tsA tsB due e).nextPart hpart, hword] at hlater
      exact hlater

end

theorem mem_corner {lo m n i j : Nat} : (i, j) ∈ corner lo m n ↔ lo ≤ i ∧ i < lo + m ∧ j < n := by
  simp only [corner, List.mem_flatMap, List.mem_range, List.mem_map, Prod.mk.injEq]
  constructor
  · rintro ⟨x, hx, y, hy, rfl, rfl⟩
    omega
  · rintro ⟨hlo, hhi, hj⟩
    exact ⟨i - lo, by omega, j, hj, by omega, rfl⟩

theorem nodup_corner (lo m n : Nat) : (corner lo m n).Nodup := by
  refine List.nodup_flatMap.mpr ⟨fun i _ => ?_, ?_⟩
  · exact List.nodup_range.map fun x y h => (Prod.mk.inj h).2
  · refine List.nodup_range.imp_of_mem ?_
    intro x y _ _ hne e hx hy
    obtain ⟨a, -, rfl⟩ := List.mem_map.mp hx
    obtain ⟨c, -, h⟩ := List.mem_map.mp hy
    exact hne (by have := (Prod.mk.inj h).1; omega)

theorem cfgRows_le (w : Nat) : cfgRows w ≤ 64 :=
  Nat.succ_le_of_lt (Nat.mod_lt (w >>> 8) (show 0 < 64 by decide))

section

variable {c : MatCmd} {ra rb lo m b : Nat} (hfit : lo + m ≤ 64) {i j : Nat}

/-- The step's elements lie in an accumulator. -/
theorem corner_bounds : ∀ e ∈ corner lo m (cfgRows (u.cfg rb)), lo + m ≤ 64 → e.1 < 64 ∧ e.2 < 64 := by
  intro e he hfit
  have hrows := cfgRows_le (u.cfg rb)
  have := mem_corner.mp he
  omega

/-- The words and partials of a step are those of its elements, a poisoned row apart. -/
theorem mmaBlock_word (k i j : Nat) : let u' := (corner lo m (cfgRows (u.cfg rb))).foldl (mmaElem c.pair c.fK ra rb b
      ((b + 1) % c.fP == 0 || b + 1 == cfgKb (u.cfg ra)) (fld c.c 0 32) (fld c.c 32 32)) u
    (mmaBlock u c ra rb lo m b).1.word k i j = u'.word k i j ∧
      partAt (mmaBlock u c ra rb lo m b).1 k i j = partAt u' k i j := by
  unfold mmaBlock
  dsimp only
  split <;> exact ⟨rfl, rfl⟩

theorem mmaBlock_bad (hi : lo ≤ i ∧ i < lo + m) (hj : j < cfgRows (u.cfg rb)) (h : u.bad ra i = true ∨ u.bad rb j = true) :
    (mmaBlock u c ra rb lo m b).2 = true ∧ u.blockVal c.pair ra rb i j b = .nan false := by
  constructor
  · show ((List.range m).any _ || (List.range _).any _) = true
    rw [Bool.or_eq_true, List.any_eq_true, List.any_eq_true]
    rcases h with h | h
    · exact .inl ⟨i - lo, List.mem_range.mpr (by omega), by rw [Nat.add_sub_cancel' hi.1]; exact h⟩
    · exact .inr ⟨j, List.mem_range.mpr hj, h⟩
  · rw [MatUnit.blockVal, if_pos (by rw [Bool.or_eq_true]; exact h)]

end

end

/-! ### The steps (R232, R235) -/

section

variable {s : State} {c : Current}

/-- A step of MMA. -/
theorem mmaStep_steps (hcur : (s.tile s.ev.who).matrix.cur = some c) (hgo : (s.tile s.ev.who).matrix.stall = 0)
    (hop : 0xA8 ≤ c.cmd.opc) (hcopy : c.copying = false) :
    let t := s.ev.who
    let m := (s.tile t).matrix
    let rows := cfgRows (m.unit.cfg c.cmd.fA)
    let s0 := readProduct s t c.cmd c.cmd.fB (List.range rows)
    let r := mmaBlock (unitOf s0 t) c.cmd c.cmd.fA c.cmd.fB 0 rows c.step
    let c1 := if r.2 = true then c.fail 4 else c
    let s1 := countPerf (setUnit s0 t r.1) t 5 1
    exec .mmaStep s = .next (if c.step + 1 < cfgKb (m.unit.cfg c.cmd.fA) then
      setCur s1 t (some { c1 with step := c.step + 1 }) else productDone s1 t c1) := by
  intro t m rows s0 r c1 s1
  rw [exec_mmaStep, execMmaStep]
  refine eventStep_of_some ?_
  unfold tryMmaStep
  dsimp only
  rw [hcur]
  dsimp only
  rw [if_neg (by rw [hgo, hcopy]; simp [Nat.not_lt.mpr hop])]
  exact (apply_ite some _ _ _).symm

theorem fRing_fail (b : Bool) : (if b = true then c.fail 4 else c).cmd = c.cmd := by cases b <;> rfl

/-- A step of MMAG. -/
theorem mmagStep_steps (hstep : stepOf s 0xA6 = some c) :
    let t := s.ev.who
    let lo := (c.cmd.groups.take c.group).sum
    let n := c.cmd.groups.getD c.group 0
    let rb := (c.cmd.fB + c.group) % 16
    let s0 := readProduct s t c.cmd rb ((List.range n).map (fun i => lo + i))
    let v := unitOf s0 t
    let r := mmaBlock v c.cmd c.cmd.fA rb lo n c.step
    let c1 := if r.2 = true then c.fail 4 else c
    let s1 := countPerf (setUnit s0 t r.1) t 5 1
    exec .mmagStep s = .next (if c.step + 1 < cfgKb (v.cfg c.cmd.fA) then setCur s1 t (some { c1 with step := c.step + 1 })
      else if c.cmd.fRing = true then setCur s1 t (some { c1 with copying := true })
      else groupDone (matArrive s1 t c.cmd c1.cls 0) t c1) := by
  intro t lo n rb s0 v r c1 s1
  rw [exec_mmagStep, execMmagStep]
  refine eventStep_of_some ?_
  unfold tryMmagStep
  rw [hstep]
  refine Eq.trans ?_ (apply_ite some _ _ _).symm
  refine congrArg (ite _ _) ?_
  exact (apply_ite some _ _ _).symm

end

/-! ### The ring (R233, R237) -/

section

variable {s : State} {t : Nat}

theorem setCur_keeps (c : Option Current) : unitOf (setCur s t c) t = unitOf s t ∧ (setCur s t c).mem = s.mem := by
  rw [unitOf, setCur, State.tile_modTile]
  exact ⟨rfl, rfl⟩

theorem groupDone_keeps (c : Current) : unitOf (groupDone s t c) t = unitOf s t ∧ (groupDone s t c).mem = s.mem := by
  unfold groupDone
  split <;> exact setCur_keeps _

end

section

variable {s : State} {c : Current} {d : List Byte} {l : List Piece}

/-- The state in which a finished product is in its slot (R233). -/
def ringFilled (s : State) (t : Nat) (c : Current) (d : List Byte) (words : List Byte) (l : List Piece) (cls : Nat) : State :=
  let v := unitOf s t
  let e := productCorner v c
  let s0 := readAcc s t c.cmd.lslot c.cmd.fK ((List.range e.2.1).map (fun i => e.1 + i))
  let w := (writePieces s0 t (.matrix t c.id) c.cmd.lslot c.cmd.tag l words).1
  setUnit w t { (corner e.1 e.2.1 e.2.2).foldl (fun (u : MatUnit) x => u.setWord c.cmd.fK x.1 x.2 0) (unitOf w t) with
    fill := (v.fill + 1) % natAt d 4 1
    tiles := v.tiles ++ [⟨c.cmd, e.2.1, e.2.2, c.cmd.fK, cls⟩] }

theorem ringSlotCopy_fills (hcur : (s.tile s.ev.who).matrix.cur = some c) (hring : (unitOf s s.ev.who).ring = some d)
    (hcopy : c.copying = true) (hroom : (unitOf s s.ev.who).tiles.length < natAt d 4 1) :
    let t := s.ev.who
    let v := unitOf s t
    let k := c.cmd.fK
    let e := productCorner v c
    let words := (corner e.1 e.2.1 e.2.2).flatMap (fun x => bytesLE 4 (v.word k x.1 x.2).toNat)
    let s0 := readAcc s t c.cmd.lslot k ((List.range e.2.1).map (fun i => e.1 + i))
    engPieces s0 t c.cmd.asid (natAt d 0 4 + 16384 * v.fill) words.length true false = some l →
    (writePieces s0 t (.matrix t c.id) c.cmd.lslot c.cmd.tag l words).2 = [] →
    exec .ringSlotCopy s = .next (if c.cmd.opc = 0xA6 then groupDone (ringFilled s t c d words l c.cls) t c else
      setCur (ringFilled s t c d words l c.cls) t none) := by
  intro t v k e words s0 hpieces hnone
  rw [exec_ringSlotCopy, execRingSlotCopy]
  refine eventStep_of_some ?_
  unfold tryRingSlotCopy
  dsimp only
  rw [hcur, hring]
  dsimp only
  rw [if_neg (by rw [hcopy, ringSlots, decide_eq_false (Nat.not_le.mpr hroom)]; exact Bool.false_ne_true)]
  generalize hp : engPieces _ _ _ _ _ _ _ = ps
  obtain rfl := hp.symm.trans hpieces
  show some (if c.cmd.opc = 0xA6 then groupDone (ringFilled s t c d words l (if c.cls = 0 ∧ ((some l).isNone = true ∨
      (writePieces s0 t (.matrix t c.id) c.cmd.lslot c.cmd.tag l words).2.isEmpty = false) then 1 else c.cls)) t c else
    setCur (ringFilled s t c d words l (if c.cls = 0 ∧ ((some l).isNone = true ∨
      (writePieces s0 t (.matrix t c.id) c.cmd.lslot c.cmd.tag l words).2.isEmpty = false) then 1 else c.cls)) t none) = _
  rw [hnone, if_neg (show ¬ (c.cls = 0 ∧ ((some l).isNone = true ∨ [].isEmpty = false)) by simp)]

end

section

variable {s : State} {r : RingTile} {q : List RingTile} {d : List Byte}

theorem castoffTile_frees (htiles : (unitOf s s.ev.who).tiles = r :: q) (hring : (unitOf s s.ev.who).ring = some d)
    (hready : castWaits s s.ev.who r d = false) : ∃ u, exec .castoffTile s = .next u ∧
      (unitOf u s.ev.who).tiles = q ∧ (unitOf u s.ev.who).drain = ((unitOf s s.ev.who).drain + 1) % natAt d 4 1 ∧
      (unitOf u s.ev.who).ringT = ((unitOf s s.ev.who).ringT + 1) % 2 ^ 32 := by
  have hstep : ∃ (w : State) (v : MatUnit) (cls left : Nat) (refused : List Nat), tryCastoffTile s = some (matDone (setUnit w s.ev.who { v with
      tiles := q, drain := ((unitOf s s.ev.who).drain + 1) % natAt d 4 1
      ringT := ((unitOf s s.ev.who).ringT + 1) % 2 ^ 32 }) s.ev.who s.cycle r.cmd cls left refused) := by
    unfold tryCastoffTile
    dsimp only
    rw [htiles, hring]
    dsimp only
    rw [if_neg (by rw [hready]; exact Bool.false_ne_true)]
    exact ⟨_, _, _, _, _, rfl⟩
  obtain ⟨w, v, cls, left, refused, hstep⟩ := hstep
  refine ⟨_, (exec_castoffTile s).trans (eventStep_of_some hstep), ?_⟩
  rw [(matDone_cur ..).2, unitOf_setUnit]
  exact ⟨rfl, rfl, rfl⟩

end

/-- Settles O29. -/
theorem matrixProducts : Obligations.MatrixProducts := by
  unfold Obligations.MatrixProducts
  refine ⟨?mma, ?mmag, ?block, ?copy, fun s r q d htiles hring hready => castoffTile_frees htiles hring hready⟩
  case mma =>
    intro s c t m hcur hgo hop hcopy rows s0 r c1 s1
    have hstep : exec .mmaStep s = .next (if c.step + 1 < cfgKb (m.unit.cfg c.cmd.fA) then
      setCur s1 t (some { c1 with step := c.step + 1 }) else productDone s1 t c1) := mmaStep_steps hcur hgo hop hcopy
    have hdone : productDone s1 t c1 = if c.cmd.fRing = true then setCur s1 t (some { c1 with copying := true })
        else endCmd s1 t c1 := by rw [productDone, show c1.cmd = c.cmd from fRing_fail r.2]
    rw [hdone] at hstep
    refine ⟨fun hmore => ?_, fun hlast hring => ?_, fun hlast hring => ?_⟩
    · rw [hstep, if_pos hmore]
    · rw [hstep, if_neg (Nat.not_lt.mpr hlast), hring, if_neg Bool.false_ne_true]
    · rw [hstep, if_neg (Nat.not_lt.mpr hlast), if_pos hring]
  case mmag =>
    intro s c t gs lo n rb s0 v hstep r c1 s1
    have hexec : exec .mmagStep s = .next (if c.step + 1 < cfgKb (v.cfg c.cmd.fA) then
        setCur s1 t (some { c1 with step := c.step + 1 })
      else if c.cmd.fRing = true then setCur s1 t (some { c1 with copying := true })
      else groupDone (matArrive s1 t c.cmd c1.cls 0) t c1) := mmagStep_steps hstep
    refine ⟨fun hmore => ?_, fun hlast hring => ?_⟩
    · rw [hexec, if_pos hmore]
    · rw [hexec, if_neg (Nat.not_lt.mpr hlast), hring, if_neg Bool.false_ne_true]
  case block =>
    intro u c ra rb lo m b i j hfit hlo hhi hj hacc hcsum hpart u' v due
    have hl : ∀ e ∈ corner lo m (cfgRows (u.cfg rb)), e.1 < 64 ∧ e.2 < 64 := fun e he => corner_bounds e he hfit
    have hj64 : j < 64 := Nat.lt_of_lt_of_le hj (cfgRows_le _)
    obtain ⟨hword, hpartial⟩ := mmaBlock_word (u := u) (c := c) (ra := ra) (rb := rb) (lo := lo) (m := m) (b := b) c.fK i j
    obtain ⟨hvword, hvpart⟩ := mmaFold_visited (pair := c.pair) (k := c.fK) (ra := ra) (rb := rb) (b := b)
      (tsA := fld c.c 0 32) (tsB := fld c.c 32 32) (due := (b + 1) % c.fP == 0 || b + 1 == cfgKb (u.cfg ra)) hl
      hj64 (mem_corner.mpr ⟨hlo, hhi, hj⟩) (nodup_corner ..) u ⟨hacc, hcsum, hpart⟩
    have hdue : due ↔ ((b + 1) % c.fP == 0 || b + 1 == cfgKb (u.cfg ra)) = true := by
      rw [Bool.or_eq_true, beq_iff_eq, beq_iff_eq]
    refine ⟨fun h => ?_, fun h => ?_, mmaBlock_bad ⟨hlo, hhi⟩ hj, fun x _ hout y hy => ?_⟩
    · exact ⟨hword.trans (hvword.trans (if_pos (hdue.mp h))), hpartial.trans (hvpart.trans (if_pos (hdue.mp h)))⟩
    · have hnot := fun h' => h (hdue.mpr h')
      exact ⟨hword.trans (hvword.trans (if_neg hnot)), hpartial.trans (hvpart.trans (if_neg hnot))⟩
    · exact (mmaBlock_word c.fK x y).1.trans
        (mmaFold_other hl hy (fun hin => by have := mem_corner.mp hin; omega) u).1
  case copy =>
    intro s c d l t v k e words hcur hring hcopy hroom s0 hpieces hnone
    have hexec := ringSlotCopy_fills hcur hring hcopy hroom hpieces hnone
    have hunit : unitOf (ringFilled s t c d words l c.cls) t = _ := unitOf_setUnit ..
    by_cases hop : c.cmd.opc = 0xA6
    · rw [if_pos hop] at hexec
      obtain ⟨hkept, hmem⟩ := groupDone_keeps (s := ringFilled s t c d words l c.cls) (t := t) c
      refine ⟨_, hexec, hmem, ?_, fun hne => absurd hop hne⟩
      rw [hkept, hunit]
    · rw [if_neg hop] at hexec
      obtain ⟨hkept, hmem⟩ := setCur_keeps (s := ringFilled s t c d words l c.cls) (t := t) none
      refine ⟨_, hexec, hmem, ?_, fun _ => ⟨cur_setCur .., ?_⟩⟩
      · rw [hkept, hunit]
      · rw [hkept, hunit]

end Sys2Proof.Proofs
end

section

/-! Packets on the rounds: injection, links, hops, the escape channel and the end of a pcyc (R350-R356, R360, R440). -/

namespace Sys2Proof.Proofs

open Sys2Proof.Machine Sys2Proof.Laws Sys2Proof.Stated

/-! ### Links (R360, R429) -/

section

variable {s : State}

theorem injHits_unarmed (h : s.mgmt.inject.getLsbD 63 = false) (kind x y : Nat) : injHits s kind x y = false := by
  rw [injHits, h]
  rfl

/-- No port takes an injection that is not armed. -/
theorem crossPort_unarmed (h : s.mgmt.inject.getLsbD 63 = false) (e : Nat) : crossPort s e = s := by
  unfold crossPort
  split
  · rw [show (fun (s : State) (_ : Nat) => if injHits s 4 (e - 1032) 0 then injFire s 0 (e - 1032) else s) = _ from rfl]
    generalize List.range 16 = l
    induction l with
    | nil => rfl
    | cons i l ih => rwa [List.foldl_cons, injHits_unarmed h, if_neg Bool.false_ne_true]
  · rfl

theorem crossPort_tile {e : Nat} (h : e < 1024) : crossPort s e = s := if_neg (by omega)

/-- The state after a flit has come over a link: its replays are forgotten. -/
def linkCrossed (s : State) (link : Nat) : State :=
  { s with mgmt := { s.mgmt with replays := tabDel s.mgmt.replays (100 + link) } }

section

variable {link t who : Nat} (hunarmed : s.mgmt.inject.getLsbD 63 = false)

theorem crossFlit_down (hdead : link ∈ s.deadLinks) : crossFlit s link t who = .down := by
  rw [crossFlit]
  exact if_pos (by simpa using hdead)

section

variable (hup : link ∉ s.deadLinks)

include hunarmed hup

theorem crossFlit_ok (hflag : s.ev.flag = false) : crossFlit s link t who = .ok (linkCrossed s link) := by
  simp only [crossFlit, injHits_unarmed hunarmed, hflag, Bool.and_false, Bool.or_self, Bool.false_eq_true, if_false]
  rw [if_neg (by simpa using hup)]
  rfl

/-- A flit that an error meets has so many replays more. -/
theorem crossFlit_replays (hflag : s.ev.flag = true) {i : Nat} (hi : i < 16)
    (hn : tabGet 0 s.mgmt.replays (100 + link) = 16 * who + i) : crossFlit s link t who =
      if i + 1 ≤ 8 then
        .retry { s with mgmt := { s.mgmt with replays := tabSet s.mgmt.replays (100 + link) (16 * who + (i + 1)) } }
      else .broken (logAt { s with
        deadLinks := link :: s.deadLinks
        mgmt := { s.mgmt with replays := tabDel s.mgmt.replays (100 + link) } } 9 0 (t % 1024) 0 link 0) := by
  have hwho : (16 * who + i) / 16 = who := by omega
  have hcount : (16 * who + i) % 16 = i := by omega
  simp only [crossFlit, injHits_unarmed hunarmed, hflag, hn, hwho, hcount, Bool.and_false, Bool.or_true,
    Bool.false_eq_true, if_false, if_true]
  rw [if_neg (by simpa using hup)]

theorem crossLink_ok (hflag : s.ev.flag = false) (id i : Nat) :
    crossLink s link t id i = some (linkCrossed s link, true) := by
  rw [crossLink, crossFlit_ok hunarmed hup hflag]

end

end

theorem badHeader_clean (h : s.ev.val = 0) (p : Packet) : badHeader s p = false := by
  rw [badHeader, h]
  rfl

/-! ### Rings -/

@[simp] theorem ring_modRing (cl : Nat) (cw : Bool) (f : Ring → Ring) : (s.modRing cl cw f).ring cl cw = f (s.ring cl cw) :=
  tabGet_tabSet_same ..

theorem ring_setPkt (i : Nat) (p : Packet) (cl : Nat) (cw : Bool) : (s.setPkt i p).ring cl cw = s.ring cl cw := rfl

end

/-! ### Injection (R351-R353) -/

section

variable {s : State} {p : Packet}

theorem stamp_keeps : (p.stamp s).ts = (if p.stamped = true then p.ts else ageNow s) ∧ (p.stamp s).seq = p.seq := ⟨rfl, rfl⟩

section

variable (hpkt : s.pkt s.ev.who = some p) (hplace : p.place = .source)

include hpkt hplace

theorem packetInject_waits (hafter : p.after ≠ none) : exec .packetInject s = .next s := by
  have hmay : mayInject s s.ev.who p = false := by
    rw [mayInject, Option.isNone_eq_false_iff.mpr (Option.isSome_iff_ne_none.mpr hafter)]
    rfl
  rw [exec_packetInject, execPacketInject]
  refine eventStep_of_none ?_
  simp [tryPacketInject, hpkt, hplace, hmay]

variable (hmay : mayInject s s.ev.who p = true)

include hmay

theorem packetInject_header : tryPacketInject s = injectHeader (crossPort s p.src) s.ev.who p := by
  simp [tryPacketInject, hpkt, hplace, hmay]

theorem packetInject_self (hself : p.src = p.dst) (htake : canEject (crossPort s p.src) (p.stamp (crossPort s p.src)) = true) :
    exec .packetInject s = .next ((crossPort s p.src).setPkt s.ev.who
      { (p.stamp (crossPort s p.src)).allAt .ejected with place := .ejected }) := by
  rw [exec_packetInject, execPacketInject]
  refine eventStep_of_some ((packetInject_header hpkt hplace hmay).trans ?_)
  rw [injectHeader]
  dsimp only
  rw [if_pos (show (p.stamp (crossPort s p.src)).src = (p.stamp (crossPort s p.src)).dst from hself), if_pos htake]

theorem packetInject_round (hother : p.src ≠ p.dst) (hsrc : p.src < 1024) (hdst : p.dst < 1024)
    (hlocal : clusterOf p.src = clusterOf p.dst) :
    let id := s.ev.who
    let q := p.stamp s
    let cw := dirOf s q
    let l := onRound s (clusterOf p.src) cw
    let r := s.ring (clusterOf p.src) cw
    vcFree r l id q cw (stopOf p.src) = true → roomAt r l (stopOf p.src) = true → stopOf p.src ∉ r.injected →
    exec .packetInject s = .next (countPerf ((noteInjected s id q cw 0).setPkt id
      { q.moved s 0 (.pool (stopOf p.src) 0) with place := .round cw none }) p.src 4 1) := by
  intro id q cw l r hvc hroom hfirst
  have hq : q.local? = true := by
    show (decide (p.src < 1024 ∧ p.dst < 1024) && clusterOf p.src == clusterOf p.dst) = true
    simp [hsrc, hdst, hlocal]
  rw [exec_packetInject, execPacketInject]
  refine eventStep_of_some ((packetInject_header hpkt hplace hmay).trans ?_)
  rw [crossPort_tile hsrc, injectHeader]
  dsimp only
  rw [if_neg (show ¬ q.src = q.dst from hother), if_pos hq]
  refine if_pos ?_
  show (!r.injected.contains (stopOf p.src) && vcFree r l id q cw (stopOf p.src) && roomAt r l (stopOf p.src)) = true
  rw [hvc, hroom]
  simpa using hfirst

end

end

/-! ### Hops (R353, R354, R440) -/

section

variable {s : State} {p : Packet} {cw : Bool} {esc : Option Nat} {i : Nat} (hpkt : s.pkt s.ev.who = some p)
  (hplace : p.place = .round cw esc)

/-- The flit hops from a stop in a state in which its link has been taken. -/
def hopped (s : State) (id : Nat) (p : Packet) (cw : Bool) (st i : Nat) : State :=
  (leavePool (linkCrossed (s.modRing (clusterOf p.src) cw (fun r => { r with links := st :: r.links }))
    (roundLink (clusterOf p.src) st cw)) id p cw st i).setPkt id (p.moved s i (hopTo s p cw st i))

theorem hopped_leaves (s : State) (id : Nat) (p : Packet) (cw : Bool) (st i : Nat) :
    (hopped s id p cw st i).pkt id = some (p.moved s i (hopTo s p cw st i)) ∧
      st ∈ ((hopped s id p cw st i).ring (clusterOf p.src) cw).links ∧
      (id, i) ∈ ((hopped s id p cw st i).ring (clusterOf p.src) cw).moved := by
  refine ⟨State.pkt_setPkt .., ?_, ?_⟩
  · rw [hopped, ring_setPkt, leavePool, ring_modRing]
    show st ∈ ((s.modRing (clusterOf p.src) cw (fun r => { r with links := st :: r.links })).ring (clusterOf p.src) cw).links
    rw [ring_modRing]
    exact List.mem_cons_self ..
  · rw [hopped, ring_setPkt, leavePool, ring_modRing]
    exact List.mem_cons_self ..

theorem hopFlit_clean {id st : Nat} (hlink : roundLink (clusterOf p.src) st cw ∉ s.deadLinks)
    (hunarmed : s.mgmt.inject.getLsbD 63 = false) (hflag : s.ev.flag = false) (hval : s.ev.val = 0) :
    hopFlit s id p cw st i = some (hopped s id p cw st i) := by
  have hcross := crossLink_ok (s := s.modRing (clusterOf p.src) cw (fun r => { r with links := st :: r.links }))
    (t := tileOfStop (clusterOf p.src) st) hunarmed hlink hflag id i
  unfold hopFlit
  dsimp only
  rw [hcross]
  dsimp only
  rw [if_neg (by rw [badHeader_clean hval]; exact fun h => Bool.false_ne_true h.2)]
  rfl

/-- What a flit that may hop meets. -/
theorem mayHop_facts {l : List (Nat × Packet)} {id st : Nat} (h : mayHop s l id p cw st i = true) :
    st ≠ stopOf p.dst ∧ p.place ≠ .round cw (some st) ∧ (id, i) ∉ (s.ring (clusterOf p.src) cw).moved ∧
      roundLink (clusterOf p.src) st cw ∉ s.deadLinks := by
  simp only [mayHop, Bool.and_eq_true] at h
  obtain ⟨⟨⟨⟨⟨⟨⟨hst, hesc⟩, -⟩, hmoved⟩, -⟩, hlink⟩, -⟩, -⟩ := h
  exact ⟨by simpa using hst, by simpa using hesc, by simpa using hmoved, by simpa using hlink⟩

section

variable {st v : Nat} (hflit : p.flits[i]? = some (.pool st v))

include hpkt hplace hflit

theorem flitAdvance_hops (hidx : s.ev.idx = i) (hmay : mayHop s (onRound s (clusterOf p.src) cw) s.ev.who p cw st i = true)
    (hwins : winner s (onRound s (clusterOf p.src) cw) s.ev.who p cw st = true)
    (hunarmed : s.mgmt.inject.getLsbD 63 = false) (hflag : s.ev.flag = false) (hval : s.ev.val = 0) :
    exec .flitAdvance s = .next (hopped s s.ev.who p cw st i) := by
  obtain ⟨hst, hesc, hmoved, hlink⟩ := mayHop_facts hmay
  have hnot : ¬ (i ≠ 0 ∧ wantsEscape s p cw st i = true) := by
    rintro ⟨hi, h⟩
    cases esc with
    | none => simp [wantsEscape, hplace, hi] at h
    | some x =>
      simp only [wantsEscape, hplace, Bool.and_eq_true, beq_iff_eq] at h
      exact hesc (by rw [hplace, h.1.1.2])
  rw [exec_flitAdvance, execFlitAdvance]
  refine eventStep_of_some ?_
  unfold tryFlitAdvance
  dsimp only
  rw [hidx, hpkt]
  dsimp only
  rw [hplace]
  dsimp only
  rw [hflit]
  dsimp only
  rw [if_neg (by simpa using hmoved), if_neg hst, if_neg hnot, if_pos (by rw [hmay, hwins]; rfl),
    hopFlit_clean hlink hunarmed hflag hval]

theorem flitAdvance_ejects (hidx : s.ev.idx = i) (hmoved : (s.ev.who, i) ∉ (s.ring (clusterOf p.src) cw).moved)
    (hst : st = stopOf p.dst) (htake : canEject s p = true) : exec .flitAdvance s =
      .next ((leavePool s s.ev.who p cw st i).setPkt s.ev.who (p.moved s i .ejected)) := by
  rw [exec_flitAdvance, execFlitAdvance]
  refine eventStep_of_some ?_
  unfold tryFlitAdvance
  dsimp only
  rw [hidx, hpkt]
  dsimp only
  rw [hplace]
  dsimp only
  rw [hflit]
  dsimp only
  rw [if_neg (by simpa using hmoved), if_pos hst, if_pos htake]

/-- A flit that has moved in this pcyc waits for its end. -/
theorem flitAdvance_passes (hidx : s.ev.idx = i) (hmoved : (s.ev.who, i) ∈ (s.ring (clusterOf p.src) cw).moved) :
    tryFlitAdvance s = passPcyc s (clusterOf p.src) cw := by
  unfold tryFlitAdvance
  dsimp only
  rw [hidx, hpkt]
  dsimp only
  rw [hplace]
  dsimp only
  rw [hflit]
  dsimp only
  rw [if_pos (by simpa using hmoved)]

end

/-! ### The end of a pcyc (R353-R356) -/

theorem passPcyc_ends {cl : Nat} (hopen : pcycOpen s cl cw = false) (hnone : escCrossing s cl cw = none) :
    passPcyc s cl cw = some (endPcyc s cl cw) := by
  rw [passPcyc, hopen, if_neg Bool.false_ne_true, hnone]

end

theorem tabGet_map_filter (l : List Nat) (f : Nat → Nat) (P : Nat → Bool) (k : Nat) :
    tabGet 0 ((l.filter P).map (fun k => (k, f k))) k = if k ∈ l ∧ P k = true then f k else 0 := by
  induction l with
  | nil => simp [tabGet, storeGet]
  | cons a l ih =>
    by_cases hP : P a = true
    · rw [List.filter_cons_of_pos hP, List.map_cons]
      by_cases ha : a = k
      · subst ha
        simp [tabGet, storeGet, hP]
      · simpa [tabGet, storeGet, ha, Ne.symm ha] using ih
    · rw [List.filter_cons_of_neg hP, ih]
      by_cases ha : a = k
      · subst ha
        simp [hP]
      · simp [Ne.symm ha]

/-- What the end of a pcyc leaves on its ring. -/
theorem endPcyc_ring (s : State) (cl : Nat) (cw : Bool) : (endPcyc s cl cw).ring cl cw = { Ring.reset with
    refused := ((List.range 8).filter (fun st => escRefused s cl st cw)).map
      (fun st => (st, tabGet 0 (s.ring cl cw).refused st + 1))
    claims := (s.ring cl cw).claims.filter (fun x => !(s.ring cl cw).emptied.contains x)
    slots := (s.ring cl cw).turned cw } := ring_modRing ..

theorem tabFind_map_keyed {α : Type} {g : Nat × α → Nat × α} (hg : ∀ e, (g e).1 = e.1) {l : List (Nat × α)} {k : Nat}
    {x : α} (h : tabFind l k = some x) : tabFind (l.map g) k = some (g (k, x)).2 := by
  induction l with
  | nil => cases h
  | cons e l ih =>
    rw [List.map_cons]
    by_cases hk : e.1 = k
    · subst hk
      rw [tabFind, if_pos rfl] at h
      cases h
      rw [tabFind, if_pos (hg e)]
    · rw [tabFind, if_neg hk] at h
      rw [tabFind, if_neg (by rwa [hg e])]
      exact ih h

theorem endPcyc_pkt {s : State} {cl : Nat} {cw : Bool} {id : Nat} {p : Packet} {esc : Option Nat} (hpkt : s.pkt id = some p)
    (hplace : p.place = .round cw esc) (hcl : clusterOf p.src = cl) :
    (endPcyc s cl cw).pkt id = some (p.passed (s.ring cl cw) cw id) := by
  refine (tabFind_map_keyed ?_ hpkt).trans ?_
  · intro e
    split
    · split <;> rfl
    · rfl
  · simp [hplace, hcl]

section

variable {r : Ring} {cw : Bool} {id st v : Nat} {p : Packet} (hhead : p.flits.head? = some (.pool st v))

include hhead

theorem passed_head : (p.passed r cw id).flits.head? = some (.pool st v) := by
  show (p.flits.map (FlitPos.turn cw)).head? = _
  rw [List.head?_map, hhead]
  rfl

theorem passed_waited : (p.passed r cw id).waited = if (id, 0) ∈ r.moved then p.waited else p.waited + 1 := by
  have hhead' : p.flits.headD .source = .pool st v := by rw [List.headD_eq_head?_getD, hhead]; rfl
  unfold Packet.passed
  dsimp only
  rw [hhead']
  simp

end

/-! ### The escape channel (R355, R356) -/

section

variable {s : State} {p : Packet} {cw : Bool} {r : List FlitPos} (hpkt : s.pkt s.ev.who = some p)

include hpkt

section

variable {st v : Nat} (hplace : p.place = .round cw none) (hflits : p.flits = .pool st v :: r) (hst : st ≠ stopOf p.dst)
  (hlong : escLimit s p ≤ p.waited) (hopen : escOpen (s.ring (clusterOf p.src) cw) (onRound s (clusterOf p.src) cw) st = true)

include hplace hflits hst hlong hopen

theorem escapeEnter_enters : exec .escapeEnter s = .next (countPerf
    (enterEscape s s.ev.who { p with place := .round cw (some st) } cw st 0) (tileOfStop (clusterOf p.src) st) 6 1) := by
  have hwants : wantsEscape s p cw st 0 = true := by
    simp [wantsEscape, hplace, hst, hlong]
  rw [exec_escapeEnter, execEscapeEnter]
  refine eventStep_of_some ?_
  unfold tryEscapeEnter
  dsimp only
  rw [hpkt]
  dsimp only
  rw [hplace, hflits]
  exact if_pos ⟨hwants, hopen⟩

end

section

variable {esc : Option Nat} (hplace : p.place = .round cw esc) (hflits : p.flits = .escape (stopOf p.dst) :: r)

include hplace hflits

theorem escapeArrival_judged : exec .escapeArrival s = .next (
    let s1 := s.modRing (clusterOf p.src) cw (fun x => { x with emptied := stopOf p.dst :: x.emptied })
    if escBuffer s p.dst + p.flits.length ≤ 8 then s1.setPkt s.ev.who (p.moved s 0 .ejected)
    else lose s1 s.ev.who p.dst true) := by
  rw [exec_escapeArrival, execEscapeArrival]
  refine eventStep_of_some ?_
  unfold tryEscapeArrival
  dsimp only
  rw [hpkt]
  dsimp only
  rw [hplace, hflits]
  dsimp only
  rw [if_neg (not_not_intro rfl), ← hflits]
  exact (apply_ite some _ _ _).symm

end

end

section

variable {s : State} {q : Packet} {cw : Bool} {st v : Nat} {e : Option Nat} {r : List FlitPos}

/-- A packet whose header is in the escape channel is not yet at its interface. -/
theorem moved_escape (hflits : q.flits = .pool st v :: r) : (q.moved s 0 (.escape st)).flits = .escape st :: r ∧
    (q.moved s 0 (.escape st)).place = q.place := by
  have hset : q.flits.set 0 (.escape st) = .escape st :: r := by rw [hflits]; rfl
  unfold Packet.moved
  dsimp only
  rw [if_pos rfl, Packet.settle, if_neg]
  · exact ⟨hset, rfl⟩
  · show ¬ (q.flits.set 0 (.escape st)).all (fun f => f == .ejected) = true
    rw [hset]
    simp

/-- A header that has entered the escape channel, at a stop that reserves no slot any more. -/
theorem enterEscape_leaves (hflits : q.flits = .pool st v :: r) (hplace : q.place = .round cw e) (id : Nat) :
    let u := enterEscape s id q cw st 0
    (∃ x, u.pkt id = some x ∧ x.flits = .escape st :: r ∧ x.place = .round cw e) ∧
      st ∉ (u.ring (clusterOf q.src) cw).claims ∧ st ∈ (u.ring (clusterOf q.src) cw).entered := by
  intro u
  obtain ⟨hf, hp⟩ := moved_escape (s := s) hflits
  refine ⟨⟨_, State.pkt_setPkt .., hf, hp.trans hplace⟩, ?_, ?_⟩
  · show st ∉ ((enterEscape s id q cw st 0).ring (clusterOf q.src) cw).claims
    rw [enterEscape, ring_setPkt, ring_modRing]
    simp
  · show st ∈ ((enterEscape s id q cw st 0).ring (clusterOf q.src) cw).entered
    rw [enterEscape, ring_setPkt, ring_modRing]
    exact List.mem_cons_self ..

theorem escapeSlotReserve_reserves (hnew : s.ev.idx ∉ (s.ring s.ev.who s.ev.flag).claims)
    (hnone : ∀ e ∈ (s.ring s.ev.who s.ev.flag).slots, e.2 ≠ s.ev.idx)
    (hlong : 8 ≤ tabGet 0 (s.ring s.ev.who s.ev.flag).refused s.ev.idx) : exec .escapeSlotReserve s =
      .next (s.modRing s.ev.who s.ev.flag (fun r => { r with claims := s.ev.idx :: r.claims })) := by
  rw [exec_escapeSlotReserve, execEscapeSlotReserve]
  refine eventStep_of_some ?_
  have hslots : (s.ring s.ev.who s.ev.flag).slots.any (fun e => e.2 == s.ev.idx) = false := by simpa using hnone
  have hclaims : (s.ring s.ev.who s.ev.flag).claims.contains s.ev.idx = false := by simpa using hnew
  simp only [tryEscapeSlotReserve, hslots, hclaims, decide_eq_false (Nat.not_lt.mpr hlong), Bool.or_self,
    Bool.false_eq_true, if_false]

theorem escapeSlotReserve_early (hearly : tabGet 0 (s.ring s.ev.who s.ev.flag).refused s.ev.idx < 8) :
    exec .escapeSlotReserve s = .next s := by
  rw [exec_escapeSlotReserve, execEscapeSlotReserve]
  refine eventStep_of_none ?_
  simp only [tryEscapeSlotReserve, decide_eq_true hearly, Bool.or_true, if_true]

end

/-! ### Flits of the escape channel at the end of a pcyc (R355, R356) -/

section

variable {s : State} {p : Packet} {cw : Bool} {esc : Option Nat} {st : Nat}

/-- The flits of one packet in escape: packet, flit and stop. -/
def escOf (e : Nat × Packet) : List (Nat × Nat × Nat) :=
  e.2.flits.zipIdx.filterMap (fun f => match f.1 with
    | .escape st => some (e.1, f.2, st)
    | _ => none)

theorem escFlits_eq (l : List (Nat × Packet)) : escFlits l = l.flatMap escOf := rfl

theorem mem_escOf {e : Nat × Packet} {x : Nat × Nat × Nat} (h : x ∈ escOf e) : x.1 = e.1 := by
  obtain ⟨f, -, hf⟩ := List.mem_filterMap.mp h
  split at hf
  · cases hf
    rfl
  · cases hf

/-- A flit of a list is the only one of its index. -/
theorem find_zipIdx (id : Nat) {l : List FlitPos} {i : Nat} (n : Nat) (h : l[i]? = some (.escape st)) :
    ((l.zipIdx n).filterMap (fun f => match f.1 with
      | .escape st => some (id, f.2, st)
      | _ => none)).find? (fun x => x.1 == id && x.2.1 == n + i) = some (id, n + i, st) := by
  induction l generalizing i n with
  | nil => cases h
  | cons a l ih =>
    rw [List.zipIdx_cons]
    cases i with
    | zero =>
      cases (Option.some.inj h : a = .escape st)
      simp
    | succ i =>
      have hlater := ih (n + 1) (show l[i]? = _ from h)
      rw [show n + 1 + i = n + (i + 1) by omega] at hlater
      cases a <;> simpa using hlater

theorem find_flatMap_keyed {id i : Nat} {l : List (Nat × Packet)} {P : Nat × Packet → Bool} (hfind : tabFind l id = some p)
    (hP : P (id, p) = true) (hflit : p.flits[i]? = some (.escape st)) :
    ((l.filter P).flatMap escOf).find? (fun x => x.1 == id && x.2.1 == i) = some (id, i, st) := by
  induction l with
  | nil => cases hfind
  | cons e l ih =>
    by_cases he : e.1 = id
    · rw [tabFind, if_pos he] at hfind
      obtain rfl : e = (id, p) := Prod.ext he (Option.some.inj hfind)
      have hown := find_zipIdx id 0 hflit
      rw [Nat.zero_add] at hown
      rw [List.filter_cons_of_pos hP, List.flatMap_cons, List.find?_append]
      exact congrArg (Option.or · _) hown
    · rw [tabFind, if_neg he] at hfind
      by_cases hPe : P e = true
      · have hnone : (escOf e).find? (fun x => x.1 == id && x.2.1 == i) = none := by
          refine List.find?_eq_none.mpr fun x hx => ?_
          rw [mem_escOf hx]
          simp [he]
        rw [List.filter_cons_of_pos hPe, List.flatMap_cons, List.find?_append, hnone]
        exact ih hfind
      · rw [List.filter_cons_of_neg hPe]
        exact ih hfind

/-- The flit that the event names is the first whose crossing may fail. -/
theorem escCrossing_named (hpkt : s.pkt s.ev.who = some p) (hplace : p.place = .round cw esc)
    (hflit : p.flits[s.ev.idx]? = some (.escape st)) :
    escCrossing s (clusterOf p.src) cw = some (s.ev.who, s.ev.idx, st) := by
  unfold escCrossing
  dsimp only
  rw [escFlits_eq, onRound, find_flatMap_keyed hpkt (by simp [hplace]) hflit]
  rfl

/-- The slots advance when a flit of one of them has crossed its link. -/
theorem flitAdvance_turns (hpkt : s.pkt s.ev.who = some p) (hplace : p.place = .round cw esc)
    (hflit : p.flits[s.ev.idx]? = some (.escape st)) (hst : st ≠ stopOf p.dst)
    (hopen : pcycOpen s (clusterOf p.src) cw = false) (hlink : escLink (clusterOf p.src) st cw ∉ s.deadLinks)
    (hunarmed : s.mgmt.inject.getLsbD 63 = false) (hflag : s.ev.flag = false) (hval : s.ev.val = 0) :
    exec .flitAdvance s =
      .next (endPcyc (linkCrossed s (escLink (clusterOf p.src) st cw)) (clusterOf p.src) cw) := by
  have hstays : (linkCrossed s (escLink (clusterOf p.src) st cw)).pkt s.ev.who = some p := hpkt
  rw [exec_flitAdvance, execFlitAdvance]
  refine eventStep_of_some ?_
  unfold tryFlitAdvance
  dsimp only
  rw [hpkt]
  dsimp only
  rw [hplace]
  dsimp only
  rw [hflit]
  dsimp only
  rw [if_neg hst, passPcyc, hopen, if_neg Bool.false_ne_true, escCrossing_named hpkt hplace hflit]
  dsimp only
  rw [crossFlit_ok hunarmed hlink hflag]
  dsimp only
  rw [hstays]
  dsimp only
  rw [if_neg (by rw [badHeader_clean hval]; exact fun h => Bool.false_ne_true h.2)]

end

end Sys2Proof.Proofs
end

section

/-! Packets in the Clos, their arrival in order, answers and loss (R350, R357-R364, R404, R414, R415). -/

namespace Sys2Proof.Proofs

open Sys2Proof.Machine Sys2Proof.Laws Sys2Proof.Stated

/-! ### The Clos (R358-R360, R364) -/

section

variable {s : State} {p : Packet} {id : Nat}

/-- A packet discarded where it stands is lost, and its NACK is on its way. -/
theorem lose_leaves {at_ : Nat} {noEject : Bool} (hpkt : s.pkt id = some p) : ∃ y, (lose s id at_ noEject).pkt id = some y ∧
    y.place = .lost ∧ (lose s id at_ noEject).mgmt = s.mgmt ∧ ∃ a ∈ (lose s id at_ noEject).answers, a.ack = false ∧ a.pkt = id := by
  have hlose : lose s id at_ noEject = { s with
      answers := s.answers ++ [(⟨false, at_, p.src, id, none, noEject, p.nackPlace⟩ : Answer)]
      inbox := s.inbox.filter (fun e => e.2 != id) }.setPkt id { p.allAt .source with place := .lost } := by
    simp only [lose, loseAt, hpkt]
  rw [hlose]
  exact ⟨_, State.pkt_setPkt .., rfl, rfl, _, List.mem_append_right _ (List.mem_singleton_self _), rfl, rfl⟩

section

variable (hpkt : s.pkt s.ev.who = some p)

include hpkt

section

variable (hplace : p.place = .source) (hmay : mayInject s s.ev.who p = true) (hother : p.src ≠ p.dst)
  (hfar : (p.stamp s).local? = false) (hroom : p.flits.length ≤ closFree s (leafInput p.src) (p.cls == 15))
  (hlink : leafLink p.src ∉ s.deadLinks) (hunarmed : s.mgmt.inject.getLsbD 63 = false) (hflag : s.ev.flag = false)

/-- The state in which a packet has crossed to its edge switch. -/
def leafCrossed (s : State) (p : Packet) : State := linkCrossed (s.setPkt s.ev.who (p.stamp s)) (leafLink p.src)

include hplace hmay hother hfar hroom hlink hunarmed hflag

theorem packetInject_clos : exec .packetInject s = .next (if badHeader s (p.stamp s) = true then
      discardBad (leafCrossed s p) s.ev.who (p.stamp s) p.src
    else countPerf ((leafCrossed s p).setPkt s.ev.who { p.stamp s with place := leafInput p.src }) p.src 4
      p.flits.length) := by
  have hcross := crossLink_ok (s := s.setPkt s.ev.who (p.stamp s)) (t := p.src) hunarmed hlink hflag s.ev.who
    (crossIdx s (p.stamp s))
  rw [exec_packetInject, execPacketInject]
  refine eventStep_of_some ((packetInject_header hpkt hplace hmay).trans ?_)
  rw [crossPort_unarmed hunarmed, injectHeader]
  dsimp only
  rw [if_neg (show ¬ (p.stamp s).src = (p.stamp s).dst from hother), hfar, if_neg Bool.false_ne_true]
  refine (if_pos hroom).trans ?_
  rw [show crossLink (s.setPkt s.ev.who (p.stamp s)) (leafLink (p.stamp s).src) (p.stamp s).src s.ev.who
    (crossIdx s (p.stamp s)) = _ from hcross]
  exact (apply_ite some _ _ _).symm

theorem packetInject_enters (hval : s.ev.val = 0) : ∃ u, exec .packetInject s = .next u ∧
    u.pkt s.ev.who = some { p.stamp s with place := leafInput p.src } ∧ u.mem = s.mem := by
  have hexec := packetInject_clos hpkt hplace hmay hother hfar hroom hlink hunarmed hflag
  rw [badHeader_clean hval, if_neg Bool.false_ne_true] at hexec
  refine ⟨_, hexec, ?_, ?_⟩
  · rw [countPerf_keeps (State.pkt · s.ev.who) (fun _ _ _ => rfl)]
    exact State.pkt_setPkt ..
  · rw [countPerf_keeps State.mem (fun _ _ _ => rfl)]
    rfl

theorem packetInject_malformed (hval : s.ev.val ≠ 0) (hbad : headerOk (headerWord (p.stamp s) ^^^ s.ev.val) = false) :
    ∃ u y, exec .packetInject s = .next u ∧ u.pkt s.ev.who = some y ∧ y.place = .lost ∧
      (∃ e, u.mgmt.logWait = s.mgmt.logWait ++ [e] ∧ natAt e 0 1 = 4) ∧ ∃ a ∈ u.answers, a.ack = false ∧ a.pkt = s.ev.who := by
  have hexec := packetInject_clos hpkt hplace hmay hother hfar hroom hlink hunarmed hflag
  rw [badHeader, hbad, if_pos (by simpa using hval)] at hexec
  have hstays : (logAt (leafCrossed s p) 4 0 (p.src % 1024) (p.stamp s).lslot
      ((headerWord (p.stamp s) ^^^ (leafCrossed s p).ev.val) % 2 ^ 64)
      ((headerWord (p.stamp s) ^^^ (leafCrossed s p).ev.val) / 2 ^ 64 % 2 ^ 64)).pkt s.ev.who = some (p.stamp s) :=
    State.pkt_setPkt ..
  obtain ⟨y, hy, hlost, hmgmt, hnack⟩ := lose_leaves (at_ := p.src) (noEject := false) hstays
  refine ⟨_, y, hexec, hy, hlost, ⟨_, congrArg (fun m => m.logWait) hmgmt, natAt_logEntry_kind (by decide) ..⟩, hnack⟩

end

/-! ### Forwarding -/

section

variable (hfree : closContended s s.ev.who p (closHop s p) = false) (hunarmed : s.mgmt.inject.getLsbD 63 = false)
  (hflag : s.ev.flag = false) (hval : s.ev.val = 0)

include hfree hunarmed hflag hval

theorem closForward_leaf (hhop : closHop s p = .leaf) (htake : canEject s p = true) (hlink : leafDown p.dst ∉ s.deadLinks) :
    exec .closForward s = .next ((linkCrossed s (leafDown p.dst)).setPkt s.ev.who
      { (p.allAt .ejected).aged s with place := .ejected, since := s.cycle }) := by
  have hcross := crossLink_ok (t := 1024) hunarmed hlink hflag s.ev.who (crossIdx s p)
  rw [hhop] at hfree
  rw [exec_closForward, execClosForward]
  refine eventStep_of_some ?_
  unfold tryClosForward
  dsimp only
  rw [hpkt]
  dsimp only
  rw [hhop, hfree, hopOpen, htake, if_neg (by simp), crossHop, hcross]
  dsimp only
  rw [badHeader_clean hval, if_neg Bool.false_ne_true]

theorem closForward_input {x : PktPlace} {link : Nat} (hhop : closHop s p = .input (x, link))
    (hroom : p.flits.length ≤ closFree s x (p.cls == 15)) (hlink : link ∉ s.deadLinks) :
    exec .closForward s = .next ((linkCrossed s link).setPkt s.ev.who { p.aged s with place := x, since := s.cycle }) := by
  have hcross := crossLink_ok (t := 1024) hunarmed hlink hflag s.ev.who (crossIdx s p)
  rw [hhop] at hfree
  rw [exec_closForward, execClosForward]
  refine eventStep_of_some ?_
  unfold tryClosForward
  dsimp only
  rw [hpkt]
  dsimp only
  rw [hhop, hfree, hopOpen, decide_eq_true hroom, if_neg (by simp), crossHop, hcross]
  dsimp only
  rw [badHeader_clean hval, if_neg Bool.false_ne_true]

end

theorem closEvict_evicts {x : PktPlace} {y : Nat} (hwaits : waitsFor s p = some x) (hurgent : urgent s p.cls = true)
    (hdata : p.cls ≠ 15) (hfull : closFree s x false < p.flits.length) (hyoung : youngestIn s x = some y) :
    exec .closEvict s = .next (lose s y p.src false) := by
  rw [exec_closEvict, execClosEvict]
  refine eventStep_of_some ?_
  simp [tryClosEvict, hpkt, hwaits, hurgent, hdata, hfull, hyoung]

theorem ejectTimeout_loses (hwaits : waitsToEject s p = true) :
    exec .ejectTimeout s = .next (lose (s.setPkt s.ev.who (p.stamp s)) s.ev.who p.dst true) := by
  rw [exec_ejectTimeout, execEjectTimeout]
  refine eventStep_of_some ?_
  simp only [tryEjectTimeout, hpkt, hwaits, if_true]

/-! ### Arrival in order (R362) -/

theorem packetArrival_judged (hplace : p.place = .ejected) : exec .packetArrival s = .next (
    let s1 := crossPort s p.dst
    if isNext s1 s.ev.who p = true then pullEarly (accept s1 s.ev.who p) p.src p.dst 32
    else if earlyHeld s1 p.dst < 32 then s1.setPkt s.ev.who { p with place := .early }
    else lose s1 s.ev.who p.dst false) := by
  rw [exec_packetArrival, execPacketArrival]
  refine eventStep_of_some ?_
  unfold tryPacketArrival
  dsimp only
  rw [hpkt]
  dsimp only
  rw [if_neg (not_not_intro hplace)]
  refine Eq.trans ?_ (apply_ite some _ _ _).symm
  exact congrArg (ite _ _) (apply_ite some _ _ _).symm

end

end

/-! ### Answers (R350, R357, R361) -/

section

variable {s : State} {a : Answer} (hans : s.answers[s.ev.who]? = some a)

include hans

theorem answerAt_some (b : Bool) (h : a.ack = b) : answerAt s b = some a := by
  rw [answerAt, hans, Option.filter_some, h, if_pos (beq_self_eq_true b)]

section

variable {p : Packet} (hpkt : s.pkt a.pkt = some p) (hhere : a.place = .here)

include hpkt hhere

section

variable (hack : a.ack = true) (howner : ∀ t n, p.owner ≠ .matrix t n)

omit hans hpkt hhere in
include howner in
theorem settleOwner_other (s : State) : settleOwner s p = s := by
  unfold settleOwner
  split
  · next t n h => exact absurd h (howner t n)
  · rfl

/-- The state without an answer and the copy of the packet that it answers. -/
def answered (s : State) (n : Nat) : State := { s with answers := dropAt s.answers s.ev.who, pkts := tabDel s.pkts n }

include hack howner

theorem ackArrival_frees (hfail : a.fail = none) :
    exec .ackArrival s = .next (releaseAfter (answered s a.pkt) a.pkt) := by
  rw [exec_ackArrival, execAckArrival]
  refine eventStep_of_some ?_
  unfold tryAckArrival
  rw [answerAt_some hans true hack]
  dsimp only
  rw [if_neg (not_not_intro hhere), hpkt]
  dsimp only
  rw [hfail, settleOwner_other howner]
  rfl

theorem ackArrival_fails {st pf : Nat} (hfail : a.fail = some (st, pf)) :
    exec .ackArrival s = .next (dropAfter (ownerFails (answered s a.pkt) p st pf) a.pkt) := by
  rw [exec_ackArrival, execAckArrival]
  refine eventStep_of_some ?_
  unfold tryAckArrival
  rw [answerAt_some hans true hack]
  dsimp only
  rw [if_neg (not_not_intro hhere), hpkt]
  dsimp only
  rw [hfail, settleOwner_other howner]
  rfl

end

variable (hnack : a.ack = false)

include hnack

theorem nackArrival_resends (hagain : a.noEject = true ∨ p.resends < 16) : exec .nackArrival s =
    .next ({ s with answers := dropAt s.answers s.ev.who }.setPkt a.pkt { p.allAt .source with
      place := .source, resent := true, resends := if a.noEject then p.resends else p.resends + 1, since := s.cycle }) := by
  rw [exec_nackArrival, execNackArrival]
  refine eventStep_of_some ?_
  unfold tryNackArrival
  rw [answerAt_some hans false hnack]
  dsimp only
  rw [if_neg (not_not_intro hhere), hpkt]
  dsimp only
  rw [if_neg]
  rcases hagain with h | h
  · simp [h]
  · simp [h]

theorem nackArrival_loses (hcounted : a.noEject = false) (hlast : 16 ≤ p.resends) :
    exec .nackArrival s = .next (losePacket s a.pkt p) := by
  rw [exec_nackArrival, execNackArrival]
  refine eventStep_of_some ?_
  simp [tryNackArrival, answerAt_some hans false hnack, hhere, hpkt, hcounted, hlast]

end

/-- An answer takes its slot of the acknowledgement ring. -/
theorem moveAnswer_enters (hplace : a.place = .sender) (hother : a.src ≠ a.dst) (hsrc : a.src < 1024) (hdst : a.dst < 1024)
    (hcl : clusterOf a.src = clusterOf a.dst) :
    let cw := decide ((stopOf a.dst + 8 - stopOf a.src) % 8 ≤ 4)
    ackSlotFree s (clusterOf a.src) cw (stopOf a.src) = true →
    let u := setAnswer s s.ev.who a (.ring (clusterOf a.src) cw (stopOf a.src))
    (a.ack = true → exec .ackArrival s = .next u) ∧ (a.ack = false → exec .nackArrival s = .next u) := by
  intro cw hslot u
  have haway : a.place ≠ .here := by rw [hplace]; exact fun h => nomatch h
  have hmove : moveAnswer s s.ev.who a = some u := by
    unfold moveAnswer
    rw [hplace]
    dsimp only
    rw [if_neg hother, if_pos ⟨hsrc, hdst, hcl⟩, if_pos hslot]
  refine ⟨fun h => ?_, fun h => ?_⟩
  · rw [exec_ackArrival, execAckArrival]
    refine eventStep_of_some ?_
    simp only [tryAckArrival, answerAt_some hans true h, ne_eq, haway, not_false_eq_true, if_true, hmove]
  · rw [exec_nackArrival, execNackArrival]
    refine eventStep_of_some ?_
    simp only [tryNackArrival, answerAt_some hans false h, ne_eq, haway, not_false_eq_true, if_true, hmove]

end

/-! ### A failure reaches the activation that awaits it (R361) -/

section

variable {γ : Type} {π : State → γ}

/-- Handing packets to their units changes them, the queues of the units and the next SEQs alone. -/
theorem pullEarly_keeps (haccept : ∀ (s : State) i q l, π { s with inbox := i, seqIn := q, pkts := l } = π s)
    (src dst n : Nat) (s : State) : π (pullEarly s src dst n) = π s := by
  induction n generalizing s with
  | zero => rfl
  | succ n ih =>
    unfold pullEarly
    split
    · exact (ih _).trans (haccept s _ _ _)
    · rfl

theorem dropAfter_keeps (haccept : ∀ (s : State) i q l, π { s with inbox := i, seqIn := q, pkts := l } = π s)
    (s : State) (id : Nat) : π (dropAfter s id) = π s :=
  (foldl_keeps π (fun s _ => pullEarly_keeps haccept _ _ 32 s) _ _).trans (haccept s s.inbox s.seqIn _)

end

theorem tabGet_eq {β : Type} (d : β) (m : List (Nat × β)) (k : Nat) : tabGet d m k = (tabFind m k).getD d := by
  induction m with
  | nil => rfl
  | cons e m ih =>
    by_cases hk : e.1 = k
    · simp [tabGet, storeGet, tabFind, hk]
    · simpa [tabGet, storeGet, tabFind, hk] using ih

/-- A context that runs an activation is listed. -/
theorem tabFind_ctx {s : State} {g : Nat} (hact : (s.ctx g).act ≠ 0) : tabFind s.ctxs g = some (s.ctx g) := by
  rw [State.ctx, tabGet_eq] at hact ⊢
  cases h : tabFind s.ctxs g with
  | none =>
    rw [h] at hact
    exact absurd rfl hact
  | some c => rfl

theorem ownerFails_fail {s : State} {p : Packet} {n g : Nat} (howner : p.owner = .act n) (hn : n ≠ 0)
    (hact : (s.ctx g).act = n) (st pf : Nat) :
    ((ownerFails s p st pf).ctx g).fail = (s.ctx g).fail ++ [(st, pf, p.dst)] := by
  have hlisted := tabFind_ctx (s := s) (g := g) (by rwa [hact])
  have hmapped : tabFind (ownerFails s p st pf).ctxs g =
      some { s.ctx g with fail := (s.ctx g).fail ++ [(st, pf, p.dst)] } := by
    rw [ownerFails, howner]
    refine (tabFind_map_keyed (fun e => ?_) hlisted).trans ?_
    · split <;> rfl
    · rw [if_pos ⟨hact, hn⟩]
  rw [State.ctx, tabGet_eq, hmapped]
  rfl

theorem releaseAfter_frees {s : State} {id n : Nat} {q : Packet} (hpkt : s.pkt n = some q) (hafter : q.after = some id) :
    (releaseAfter s id).pkt n = some { q with after := none } := by
  refine (tabFind_map_keyed (fun e => ?_) hpkt).trans ?_
  · split <;> rfl
  · rw [if_pos hafter]

/-! ### Loss (R404, R413, R414) -/

theorem loseEffect_counts {s : State} {p q : Packet} {n : Nat} (hpkt : s.pkt n = some q) (heffect : q.effect = p.effect) :
    ∃ x, (loseEffect s p).pkt n = some x ∧ x.counted = true := by
  refine ⟨_, tabFind_map_keyed (fun e => ?_) hpkt, ?_⟩
  · split <;> rfl
  · rw [if_pos heffect]

theorem lostPacket_logs {s : State} {p : Packet} (howner : p.owner = .none) :
    ∃ e, (lostPacket s p).mgmt.logWait = s.mgmt.logWait ++ [e] ∧ natAt e 0 1 = 0x0D := by
  rw [lostPacket, howner]
  exact ⟨_, rfl, natAt_logEntry_kind (by decide) ..⟩

/-- The loss of an effect ends its activation in the context listed first. -/
theorem lostPacket_ends {s : State} {p : Packet} {n g : Nat} {c : Ctx} {l : List (Nat × Ctx)} (howner : p.owner = .act n)
    (hn : n ≠ 0) (hctxs : s.ctxs = (g, c) :: l) (hact : c.act = n) (htwin : c.isTwin = false)
    (hlives : c.st = .run ∨ c.st = .wait ∨ c.st = .saved) :
    lostPacket s p = endKilled (s.modCtx g (fun c => { c with lost := c.lost + (if p.counted = true then 0 else 1) })) g
      ⟨Cause.timeout.code, c.lastBundle, 0, 0, c.sys⟩ := by
  have hctx : s.ctx g = c := by
    rw [State.ctx, hctxs]
    exact if_pos rfl
  have howns : ownerOf s g = g := by
    unfold ownerOf
    dsimp only
    rw [hctx, htwin]
    split <;> rfl
  have hfinds : s.ctxs.find? (fun (e : Nat × Ctx) => e.2.act == n && n != 0 &&
      (e.2.st == .run || e.2.st == .wait || e.2.st == .saved)) = some (g, c) := by
    rw [hctxs]
    refine List.find?_cons_of_pos ?_
    rcases hlives with h | h | h <;> simp [hact, hn, h]
  have hcounts : (!p.counted).toNat = if p.counted = true then 0 else 1 := by cases p.counted <;> rfl
  unfold lostPacket
  dsimp only
  rw [howner]
  dsimp only
  rw [hfinds]
  dsimp only
  rw [howns, endingBy, hctx, hcounts]

/-! ### What no arrival makes anew (R404) -/

/-- No packet has this number, and none will take it. -/
def Absent (id : Nat) (s : State) : Prop := (∀ e ∈ s.pkts, e.1 ≠ id) ∧ id < s.nextPkt

/-- The packets in flight and the number of the next one. -/
def pktsOf (s : State) : List (Nat × Packet) × Nat := (s.pkts, s.nextPkt)

section

variable {id : Nat} {s t : State}

theorem Absent.of_keys (h : Absent id s) (hkeys : ∀ e ∈ t.pkts, ∃ x ∈ s.pkts, x.1 = e.1) (hnext : t.nextPkt = s.nextPkt) :
    Absent id t := by
  obtain ⟨hpkts, hlt⟩ := h
  refine ⟨fun e he => ?_, hnext ▸ hlt⟩
  obtain ⟨x, hx, hxe⟩ := hkeys e he
  exact hxe ▸ hpkts x hx

theorem Absent.of_eq (h : Absent id s) (heq : pktsOf t = pktsOf s) : Absent id t := by
  obtain ⟨hpkts, hnext⟩ := Prod.mk.inj heq
  exact h.of_keys (fun e he => ⟨e, hpkts ▸ he, rfl⟩) hnext

theorem tabFind_none {β : Type} {m : List (Nat × β)} {k : Nat} (h : ∀ e ∈ m, e.1 ≠ k) : tabFind m k = none := by
  induction m with
  | nil => rfl
  | cons e m ih =>
    rw [tabFind, if_neg (h e (List.mem_cons_self ..))]
    exact ih (fun x hx => h x (List.mem_cons_of_mem _ hx))

theorem Absent.pkt (h : Absent id s) : s.pkt id = none := by
  obtain ⟨hpkts, -⟩ := h
  exact tabFind_none hpkts

theorem key_of_mem_tabSet {β : Type} {m : List (Nat × β)} {k : Nat} {v : β} {e : Nat × β} (h : e ∈ tabSet m k v) :
    e.1 = k ∨ e ∈ m := by
  induction m with
  | nil => exact .inl (congrArg Prod.fst (List.mem_singleton.mp h))
  | cons x m ih =>
    unfold tabSet at h
    split at h
    · rcases List.mem_cons.mp h with rfl | h
      · exact .inl rfl
      · exact .inr h
    · split at h
      · rcases List.mem_cons.mp h with rfl | h
        · exact .inl rfl
        · exact .inr (List.mem_cons_of_mem _ h)
      · rcases List.mem_cons.mp h with rfl | h
        · exact .inr (List.mem_cons_self ..)
        · exact (ih h).imp_right (List.mem_cons_of_mem _)

theorem Absent.loseEffect (h : Absent id s) (p : Packet) : Absent id (loseEffect s p) := by
  refine h.of_keys (fun e he => ?_) rfl
  obtain ⟨x, hx, rfl⟩ := List.mem_map.mp he
  refine ⟨x, hx, ?_⟩
  split <;> rfl

/-- An activation's end hands nothing to the fabric. -/
theorem pktsOf_endKilled (s : State) (g : Nat) (e : Ending) : pktsOf (endKilled s g e) = pktsOf s := by
  have hlogs (o : Nat) : pktsOf (logGuards s o) = pktsOf s := by
    unfold logGuards
    split
    · exact (logGuard_keeps (fun _ _ => rfl) ..).trans (logGuard_keeps (fun _ _ => rfl) ..)
    · exact logGuard_keeps (fun _ _ => rfl) ..
  unfold endKilled
  dsimp only
  rw [freeBoth_keeps _ _ pktsOf (fun _ _ => rfl), consume_keeps pktsOf (fun _ _ _ => rfl),
    killReport_keeps pktsOf (fun _ _ => rfl) (fun _ _ => rfl), hlogs]

theorem pktsOf_ownerFails (s : State) (p : Packet) (st pf : Nat) : pktsOf (ownerFails s p st pf) = pktsOf s := by
  unfold ownerFails
  split <;> rfl

theorem pktsOf_lostPacket (s : State) (p : Packet) : pktsOf (lostPacket s p) = pktsOf s := by
  unfold lostPacket
  dsimp only
  split
  · split
    · exact pktsOf_endKilled ..
    · split <;> rfl
  · rfl
  · exact pktsOf_ownerFails ..

/-- What is sent takes the next number. -/
theorem Absent.sendArrival (h : Absent id s) (src lslot : Nat) (bar : Option Bar) (flt : Bool) (cls ab : Nat) :
    Absent id (sendArrival s src lslot bar flt cls ab) := by
  cases bar with
  | none => exact h
  | some b =>
    obtain ⟨hpkts, hlt⟩ := h
    have hplain (off : Nat) (tr : Trigger) (tgt : Nat) : Work.arrival b.off 1 flt cls ab ≠ .joinAdd off tr tgt :=
      fun h => nomatch h
    rw [Machine.sendArrival, sendWork, sendTagged_plain _ _ _ _ _ _ _ hplain]
    refine ⟨fun e he => ?_, Nat.lt_succ_of_lt hlt⟩
    rcases key_of_mem_tabSet he with h | h
    · omega
    · exact hpkts e h

theorem Absent.matArrive (h : Absent id s) (t : Nat) (c : MatCmd) (cls ab : Nat) : Absent id (matArrive s t c cls ab) := by
  unfold Machine.matArrive
  split
  · exact h.sendArrival ..
  · split
    · exact h
    · exact h.of_eq rfl

theorem Absent.settleOwner (h : Absent id s) (p : Packet) : Absent id (settleOwner s p) := by
  unfold Machine.settleOwner
  split
  · refine List.foldlRecOn (motive := Absent id) _ _ (h.of_eq rfl) (fun s h e _ => ?_)
    exact h.matArrive ..
  · exact h

theorem Absent.pullEarly (h : Absent id s) (src dst n : Nat) : Absent id (pullEarly s src dst n) := by
  induction n generalizing s with
  | zero => exact h
  | succ n ih =>
    unfold Machine.pullEarly
    split
    · next k p hfind =>
      refine ih ?_
      have hlisted := List.mem_of_find?_eq_some hfind
      refine h.of_keys (fun e he => ?_) rfl
      rcases key_of_mem_tabSet he with hk | he
      · exact ⟨_, hlisted, hk.symm⟩
      · exact ⟨e, he, rfl⟩
    · exact h

theorem Absent.dropAfter (h : Absent id s) (n : Nat) : Absent id (dropAfter s n) := by
  refine List.foldlRecOn (motive := Absent id) _ _ ?_ (fun s h e _ => h.pullEarly ..)
  exact h.of_keys (fun e he => ⟨e, List.mem_of_mem_filter he, rfl⟩) rfl

/-- A lost packet is in flight no more. -/
theorem losePacket_absent {p : Packet} (hlt : id < s.nextPkt) : Absent id (losePacket s id p) := by
  have hdeleted : Absent id (dropHeld { s with
      pkts := tabDel s.pkts id
      inbox := s.inbox.filter (fun e => e.2 != id)
      answers := s.answers.filter (fun a => a.pkt != id) } p id) :=
    ⟨fun e he => by simpa using (List.mem_filter.mp he).2, hlt⟩
  have hlost := (hdeleted.loseEffect p).of_eq (pktsOf_lostPacket _ p)
  exact ((hlost.settleOwner p).dropAfter id).pullEarly ..

end


/-- A failure that an answer brings is noted in the context of its activation. -/
theorem ackArrival_notes {s : State} {a : Answer} {p : Packet} {n st pf g : Nat} (hans : s.answers[s.ev.who]? = some a)
    (hpkt : s.pkt a.pkt = some p) (hhere : a.place = .here) (hack : a.ack = true) (hfail : a.fail = some (st, pf))
    (howner : p.owner = .act n) (hn : n ≠ 0) (hact : (s.ctx g).act = n) :
    ∃ u, exec .ackArrival s = .next u ∧ (u.ctx g).fail = (s.ctx g).fail ++ [(st, pf, p.dst)] := by
  have hother (t c : Nat) : p.owner ≠ .matrix t c := by
    rw [howner]
    exact fun h => nomatch h
  refine ⟨_, ackArrival_fails hans hpkt hhere hack hother hfail, ?_⟩
  rw [dropAfter_keeps (π := (State.ctx · g)) (fun _ _ _ _ => rfl)]
  exact ownerFails_fail (s := answered s a.pkt) howner hn hact st pf

/-- Settles O32. -/
theorem fabricEvents : Obligations.FabricEvents := by
  unfold Obligations.FabricEvents
  refine ⟨?self, ?round, ?edge, ?waits, ?link, ?stamp, ?hop, ?pcyc, ?passed, ?enter, ?reserve, ?escaped, ?turn, ?clos,
    ?arrive, ?answer, ?release, ?ring, ?timeout, ?ends, ?effect, ?logs⟩
  case self =>
    intro s0 p id s hpkt hplace hmay hself htake
    exact packetInject_self hpkt hplace hmay hself htake
  case round =>
    intro s p id q cw cl l r hpkt hplace hmay hother hsrc hdst hlocal hvc hroom hfirst
    exact packetInject_round hpkt hplace hmay hother hsrc hdst hlocal hvc hroom hfirst
  case edge =>
    intro s p id q x hpkt hplace hmay hother hfar hroom hlink hunarmed hflag
    exact ⟨packetInject_enters hpkt hplace hmay hother hfar hroom hlink hunarmed hflag,
      packetInject_malformed hpkt hplace hmay hother hfar hroom hlink hunarmed hflag⟩
  case waits =>
    intro s p hpkt hplace hafter
    exact packetInject_waits hpkt hplace hafter
  case link =>
    intro s link t who hunarmed n
    refine ⟨crossFlit_down, fun hup => ⟨fun hflag => ⟨_, crossFlit_ok hunarmed hup hflag, rfl⟩, ?_, ?_⟩⟩
    · intro i hflag hn hi
      refine ⟨_, (crossFlit_replays hunarmed hup hflag (by omega) hn).trans (if_pos hi), ?_, rfl⟩
      exact tabGet_tabSet_same ..
    · intro hflag hn
      exact ⟨_, (crossFlit_replays hunarmed hup hflag (by decide) hn).trans (if_neg (by decide)), List.mem_cons_self ..⟩
  case stamp => exact fun p s => stamp_keeps
  case hop =>
    intro s p cw esc st v id i cl l hpkt hplace hflit
    refine ⟨?_, ?_, ?_⟩
    · intro hmay hwins hunarmed hflag hval
      exact ⟨_, flitAdvance_hops hpkt hplace hflit rfl hmay hwins hunarmed hflag hval, hopped_leaves ..⟩
    · exact flitAdvance_ejects hpkt hplace hflit rfl
    · intro hmoved hopen hnone
      rw [exec_flitAdvance, execFlitAdvance]
      exact eventStep_of_some ((flitAdvance_passes hpkt hplace hflit rfl hmoved).trans (passPcyc_ends hopen hnone))
  case pcyc =>
    intro s cl cw r u
    have hring : u.ring cl cw = _ := endPcyc_ring s cl cw
    refine ⟨fun id p esc hpkt hplace hcl => endPcyc_pkt hpkt hplace hcl, ?_, ?_, ?_, ?_, ?_, rfl, rfl, rfl⟩
    · rw [hring]
      rfl
    · rw [hring]
      rfl
    · rw [hring]
      rfl
    · rw [hring]
    · intro st hst
      rw [hring]
      refine (tabGet_map_filter ..).trans ?_
      simp only [List.mem_range, hst, true_and]
      rfl
  case passed =>
    intro r cw id p st v hhead
    refine ⟨passed_head hhead, fun h => ?_, fun h => ?_⟩
    · rw [passed_waited hhead, if_neg h]
    · rw [passed_waited hhead, if_pos h]
  case enter =>
    intro s p cw st v r id cl l hpkt hplace hflits hst hlong hopen
    obtain ⟨⟨q, hq, hqflits, hqplace⟩, hclaims, hentered⟩ := enterEscape_leaves (s := s)
      (q := { p with place := .round cw (some st) }) (cw := cw) hflits rfl id
    refine ⟨_, escapeEnter_enters hpkt hplace hflits hst hlong hopen, ⟨q, ?_, hqflits, hqplace⟩, ?_⟩
    · rwa [countPerf_keeps (State.pkt · id) (fun _ _ _ => rfl)]
    · rw [countPerf_keeps (State.ring · cl cw) (fun _ _ _ => rfl)]
      exact ⟨hclaims, hentered⟩
  case reserve =>
    intro s r st
    exact ⟨escapeSlotReserve_reserves, escapeSlotReserve_early⟩
  case escaped =>
    intro s p cw esc r id s1 hpkt hplace hflits
    have hjudged := escapeArrival_judged hpkt hplace hflits
    exact ⟨fun h => hjudged.trans (congrArg Host.Outcome.next (if_pos h)),
      fun h => hjudged.trans (congrArg Host.Outcome.next (if_neg (Nat.not_le.mpr h)))⟩
  case turn =>
    intro s p cw esc st id cl hpkt hplace hflit hst hopen hlink hunarmed hflag hval
    exact ⟨_, flitAdvance_turns hpkt hplace hflit hst hopen hlink hunarmed hflag hval, rfl⟩
  case clos =>
    intro s p id hpkt
    refine ⟨?_, ?_, fun x y hwaits hurgent hdata hfull hyoung => closEvict_evicts hpkt hwaits hurgent hdata hfull hyoung,
      ejectTimeout_loses hpkt⟩
    · intro hhop htake hfree hlink hunarmed hflag hval
      exact ⟨_, closForward_leaf hpkt (hhop ▸ hfree) hunarmed hflag hval hhop htake hlink, State.pkt_setPkt ..⟩
    · intro x link hhop hroom hfree hlink hunarmed hflag hval
      exact ⟨_, closForward_input hpkt (hhop ▸ hfree) hunarmed hflag hval hhop hroom hlink, State.pkt_setPkt ..⟩
  case arrive =>
    intro s0 p id s hpkt hplace
    have hjudged := packetArrival_judged hpkt hplace
    have hlate (h : isNext s id p = false) : ¬ isNext s id p = true := ne_true_of_eq_false h
    refine ⟨fun hnext => ?_, fun hlater hheld => ?_, fun hlater hfull => ?_⟩
    · exact hjudged.trans (congrArg Host.Outcome.next (if_pos hnext))
    · exact hjudged.trans (congrArg Host.Outcome.next ((if_neg (hlate hlater)).trans (if_pos hheld)))
    · exact hjudged.trans (congrArg Host.Outcome.next ((if_neg (hlate hlater)).trans (if_neg (Nat.not_lt.mpr hfull))))
  case answer =>
    intro s a p k hans hpkt hhere howner
    refine ⟨fun hack hfail => ackArrival_frees hans hpkt hhere hack howner hfail, ?_, ?_, ?_⟩
    · intro n st pf g hack hfail hact hn hg
      exact ackArrival_notes hans hpkt hhere hack hfail hact hn hg
    · intro hnack hagain
      refine ⟨_, _, nackArrival_resends hans hpkt hhere hnack hagain, State.pkt_setPkt .., rfl, rfl, rfl, rfl, rfl, ?_⟩
      cases a.noEject <;> rfl
    · exact fun hnack hcounted hlast => nackArrival_loses hans hpkt hhere hnack hcounted hlast
  case release =>
    intro s id n q hpkt hafter
    exact releaseAfter_frees hpkt hafter
  case ring =>
    intro s a k cw hans hplace hother hsrc hdst hcl hslot
    exact moveAnswer_enters hans hplace hother hsrc hdst hcl hslot
  case timeout =>
    intro s p id hpkt hopen hlt
    refine ⟨_, ?_, (losePacket_absent (p := p) hlt).pkt⟩
    rw [exec_packetResendTimeout, execPacketResendTimeout]
    refine eventStep_of_some ?_
    unfold tryPacketResendTimeout
    rw [hpkt]
    exact if_neg hopen
  case ends =>
    intro s p n g c l howner hn hctxs hact htwin hlives
    exact lostPacket_ends howner hn hctxs hact htwin hlives
  case effect =>
    intro s p q n hpkt heffect
    exact loseEffect_counts hpkt heffect
  case logs => exact fun s p howner => lostPacket_logs howner

end Sys2Proof.Proofs
end
